-- ==== Sys2Proof/Word.lean ====
section
/-! DEFINITION. Words, bit ranges and byte lists: the plainest arithmetic of the model (R8, R9). -/

namespace Sys2Proof

abbrev Byte := BitVec 8
abbrev W16 := BitVec 16
abbrev W32 := BitVec 32
abbrev W64 := BitVec 64

/-- Bits [hi:lo] of a number (R8: bit 0 is the least significant, both ends are included). -/
def bits (n hi lo : Nat) : Nat := (n >>> lo) % 2 ^ (hi + 1 - lo)

/-- One bit as a Bool. -/
def bitOn (n k : Nat) : Bool := n.testBit k

/-- Bits [hi:lo] of a register value. -/
def fld {w : Nat} (v : BitVec w) (hi lo : Nat) : Nat := bits v.toNat hi lo

/-- `v` with bits [hi:lo] replaced by the low bits of `n`. -/
def setFld {w : Nat} (v : BitVec w) (hi lo n : Nat) : BitVec w :=
  let m := (2 ^ (hi + 1 - lo) - 1) <<< lo
  BitVec.ofNat w ((v.toNat &&& ((2 ^ w - 1) ^^^ m)) ||| ((n % 2 ^ (hi + 1 - lo)) <<< lo))

/-- A Bool as the number 0 or 1. -/
def b2n (b : Bool) : Nat := if b then 1 else 0

/-- The `n` little-endian bytes of a number (R9). -/
def leBytes : Nat → Nat → List Byte
  | 0, _ => []
  | k + 1, n => BitVec.ofNat 8 n :: leBytes k (n / 256)

/-- The number whose little-endian bytes these are (R9). -/
def leNat : List Byte → Nat
  | [] => 0
  | b :: bs => b.toNat + 256 * leNat bs

/-- Bytes `i` to `i + n - 1` of a list, read little-endian; bytes past the end read as zero. -/
def leAt (bs : List Byte) (i n : Nat) : Nat := leNat ((bs.drop i).take n)

/-- A list of bytes cut or filled with zero to `n` bytes. -/
def padTo (n : Nat) (bs : List Byte) : List Byte := (bs ++ List.replicate (n - bs.length) 0).take n

/-- The quotient rounded up. -/
def cdiv (a b : Nat) : Nat := (a + b - 1) / b

/-- A sum that holds at a limit (R11: an event or error counter holds at all ones). -/
def satAdd (limit a b : Nat) : Nat := min limit (a + b)

end Sys2Proof
end

