-- ==== Sys2Proof/Syntax.lean ====
section
/-! DEFINITION. The commands of the panel: one constructor for each row of spec/opcode_table.json, and the operands
they carry. Operands that number a part of the panel have the part's own range as their type (R19, R22, R23), so a
command cannot name a site, hub, port or queue set that no panel has; the checks that remain are in WellFormed. -/

namespace Sys2Proof

/-- A core site, numbered 21 × r + c (R19, R444). -/
abbrev Site := Fin 336
/-- A hub die and the stack it drives (R22). -/
abbrev HubIx := Fin 24
/-- A port die (R23). -/
abbrev PortIx := Fin 8
/-- A region (R21). -/
abbrev Region := Fin 24
/-- A partition (R24). -/
abbrev Partition := Fin 32
/-- A PCIe function: 0 the PF, 1–31 the VFs (R351). -/
abbrev HostFn := Fin 32
/-- A queue set (R356). -/
abbrev QSet := Fin 4096

/-- The two crowns, and the halves they lead (R23, R37). -/
inductive Crown
  | north
  | south
  deriving DecidableEq, Repr

/-- The other crown. -/
def Crown.other : Crown → Crown
  | .north => .south
  | .south => .north

/-- 0 for the north crown and 1 for the south crown (R48, R447). -/
def Crown.num : Crown → Nat
  | .north => 0
  | .south => 1

/-- A die that carries a register map: those of R54, and a function's BAR0 (R352). -/
inductive Die
  | core (s : Site)
  | hub (h : HubIx)
  | port (d : PortIx)
  | crown (c : Crown)
  | bar0 (f : HostFn)
  deriving DecidableEq, Repr

/-- A place that takes answers from the mesh (R185, R532). -/
inductive Endpoint
  | core (s : Site)
  | hub (h : HubIx) (att : Fin 2)
  | port (d : PortIx) (q : Fin 2)
  | crown (c : Crown)
  deriving DecidableEq, Repr

/-- Who makes a register access: a management-ring frame with its origin (R465), a mesh packet with its source and
partition (R87, R296), or a host function (R352). -/
inductive Requester
  | ringRoot (c : Crown)
  | ringService (c : Crown)
  | ringAgent (s : Site)
  | ringDie
  | meshCore (s : Site) (part : Nat)
  | meshCrown (part : Nat)
  | meshEdge (part : Nat)
  | host (f : HostFn)
  deriving DecidableEq, Repr

/-- A voltage domain that reports its voltage and current (R404, R418). -/
inductive PowerDomain
  | site (s : Site)
  | edge (d : Fin 58)
  | region (r : Region)
  | edgeConverter (e : Fin 8)
  deriving DecidableEq, Repr

/-- One configuration item of R444; a Hokuid READ or WRITE carries one (R480). -/
structure ConfigItem where
  after : Nat
  flags : Nat
  dtype : Nat
  index : Nat
  offset : Nat
  value : W64
  deriving DecidableEq, Repr

/-- The straps as the board drives them on the two crowns (R440, R522). -/
structure Straps where
  fullLowNorth : Bool
  fullLowSouth : Bool
  stopNorth : Fin 4
  stopSouth : Fin 4
  deriving DecidableEq, Repr

/-- What the board, the dies and the flash yield while one start-up stage runs, which the panel's rules turn into its
stage records (R436, R439, R447): the items that failed, and the measured figures that the records carry. -/
structure StageOutcome where
  crownOk : List Crown              -- crowns that complete the stage's own checks
  elapsedUs : Nat                   -- time spent in the stage
  failedSites : List Site           -- stages 4 and 6: sites that fail; stage 7: unused
  failedModules : List (Site × Fin 8 × Fin 4)  -- stage 5: modules that do not train
  failedRegions : List Region       -- stage 4: regions latched off
  slowStacks : List HubIx           -- stage 8: stacks that pass at 6.4 Gb/s only
  failedStacks : List HubIx         -- stage 8: stacks that pass at neither rate
  portsUp : List (Fin 16)           -- stage 9: ports whose INIT exchange ended
  hostRate : Nat                    -- stage 9: rate code of HOST_STATUS
  hostWidth : Nat                   -- stage 9: lanes
  lockNorth : Bool                  -- stage 3
  lockSouth : Bool                  -- stage 3
  lockUs : Nat                      -- stage 3
  seamUp : Nat                      -- stage 7: seam links that train
  retrained : Nat                   -- stages 5 and 8
  lanesRepaired : Nat               -- stage 5
  rowsRepaired : List (Site × Nat × Nat) -- stage 6: rows newly repaired: site, bank, bank row
  imagesAlign : Bool                -- stage 7, step 2 of R449
  bootId : W64                      -- stage 2: the random value of R482
  romVersion : W32                  -- stage 1
  flashIds : Nat                    -- stage 1: JEDEC identities, bytes 36–41 of the record
  deriving DecidableEq, Repr

/-- A client certificate as the TLS handshake presents it: the CA keys its chain ends in, and whether the handshake's
signatures verify (R477, R478). -/
structure ClientCert where
  caKey : BitVec 512
  verifies : Bool
  deriving DecidableEq, Repr

/-- What a management-ring frame carries (R464). -/
inductive RingFrame
  | write (who : Requester) (die : Die) (off bytes : Nat) (value : W64)
  | read (who : Requester) (die : Die) (off bytes : Nat)
  | broadcastCap (who : Requester) (code : Nat)
  | heartbeat (s : Site)
  | hubHeartbeat (h : HubIx)
  | telemetry (domain : PowerDomain) (millivolts milliamps : Nat)
  | crownMessage (sender : Crown) (text : List Byte)
  deriving DecidableEq, Repr

/-- An SPDM request object of the profile of R491, with the parameters that its answer depends on. -/
inductive SpdmRequest
  | getVersion
  | getCapabilities
  | negotiateAlgorithms (sm2 sm3Base sm3Meas dmtf : Bool)
  | getDigests
  | getCertificate (slot offset length : Nat)
  | challenge (slot : Nat) (nonce : BitVec 256)
  | getMeasurements (slot : Nat) (nonce : BitVec 256) (index : Nat)
  | other (code : Nat)
  deriving DecidableEq, Repr

/-- The commands: the operations and events of the panel, one constructor a row of the table. A command names the
place where it happens and carries what comes from outside the panel (a value written, a frame, a measurement);
everything else it works on stands in the state. -/
inductive Instr where
  /-- REGISTER_WRITE (R15). A write to a register with no row of its own sets, ignores or acts on the value under its access code and the block's rules. -/
  | registerWrite (who : Requester) (die : Die) (off bytes : Nat) (value : W64)
  /-- WRONG_WIDTH_ACCESS (R13). A misaligned or wrong-size register access is ignored or reads zero and increments PANEL_BADACC_CNT. -/
  | wrongWidthAccess (who : Requester) (die : Die) (off bytes : Nat) (isWrite : Bool)
  /-- RC_COUNTER_READ (R16). A read of an RC counter returns its value and clears it; a same-cycle event restarts the count at that event. -/
  | rcCounterRead (who : Requester) (die : Die) (off events : Nat)
  /-- LOW_HALF_READ_LATCH (R14). A 32-bit read of the low half of a 64-bit register latches the high half for the next high-half read by the same requester. -/
  | lowHalfReadLatch (who : Requester) (die : Die) (off : Nat)
  /-- PAUSE (R61). CORE_CMD PAUSE stops issue at the next word boundary and moves the core to PAUSED. -/
  | pause (s : Site)
  /-- RESUME (R61). CORE_CMD RESUME continues issue from the stopped word or takes the next start entry. -/
  | resume (s : Site)
  /-- ABORT (R61). CORE_CMD ABORT of a paused core starts discarding its current task and start entries once accepted work completes. -/
  | abort (s : Site)
  /-- ABORT_COMPLETE (R61). When accepted engine and DMA work has completed, the aborted task and entries are discarded, counted, and the core enters IDLE. -/
  | abortComplete (s : Site)
  /-- DRAIN (R61). CORE_CMD DRAIN stops issue, lets accepted work and remote operations complete, and moves the core to DRAINING. -/
  | drain (s : Site)
  /-- DRAIN_COMPLETE (R61). When the drained work is complete and the queue is empty, reports carry DRAINED and the core enters TEST. -/
  | drainComplete (s : Site)
  /-- TEST (R61). CORE_CMD TEST hands an IDLE core to self-test. -/
  | test (s : Site)
  /-- HEARTBEAT (R62). Every 20 µs of dial time the supervisor sends a heartbeat to its region agent when its oscillator runs and its sequencer answered the probe. -/
  | heartbeat (s : Site)
  /-- CORE_LOSS_DETECT (R62). When no heartbeat has arrived for 80 µs the agent declares the core lost and reports it to its crown. -/
  | coreLossDetect (s : Site)
  /-- REGION_SUMMARY (R46). Every 20 µs the agent sends its crown a region summary naming itself and the sites whose heartbeats arrived. -/
  | regionSummary (region : Region)
  /-- AGENT_LOSS_DETECT (R46). When no region summary has arrived for 80 µs the crown declares the agent's site lost and acts as agent. -/
  | agentLossDetect (region : Region)
  /-- HEARTBEAT_REROUTE (R46). A supervisor whose heartbeats have gone unacknowledged for 40 µs sends them to its crown. -/
  | heartbeatReroute (s : Site)
  /-- AGENT_APPOINT (R45). The crown appoints the next eligible site as region agent and records it in PANEL_AGENT. -/
  | agentAppoint (region : Region)
  /-- START (R63). A START message is checked and accepted into the start queue or refused with a COMPLETION status. -/
  | start (s : Site) (ringEntry : Option (BitVec 768))
  /-- TASK_START (R65). An idle sequencer takes the next start entry, loads registers and plan, and copies the task list into the task-word cache. -/
  | taskStart (s : Site)
  /-- TASK_LIST_COPY_END (R65). When the last row of the task list has been read, the first task word issues 4 cycles later. -/
  | taskListCopyEnd (s : Site)
  /-- ENGINE_GATE (R409). After PWR_GATE_CFG.idle µs without a task the supervisor clock-gates the engines. -/
  | engineGate (s : Site)
  /-- ENGINE_WAKE (R409). A gated core that finds a start entry wakes its units in five steps before taking the entry. -/
  | engineWake (s : Site)
  /-- NOP (R72). The NOP task word issues in one cycle and does nothing. -/
  | nop (s : Site)
  /-- END (R83). END waits for all accepted work and remote completions, applies its sig, sends the report and ends the task. -/
  | endWord (s : Site)
  /-- FENCE (R72). FENCE issues once the named units, and with remote set every remote operation, have completed. -/
  | fence (s : Site)
  /-- DISPATCH (R73). DISPATCH queues an operation with the values of its base registers to an ME, the VE or the RU. -/
  | dispatch (s : Site)
  /-- DMA_START (R72). DMA_START queues a descriptor offset to a DMA channel. -/
  | dmaStart (s : Site)
  /-- SEM_WAIT (R77). SEM_WAIT issues when the semaphore reaches its threshold, optionally consuming it, and writes gd. -/
  | semWait (s : Site)
  /-- SEM_WAIT_TIMEOUT (R78). A SEM_WAIT whose dial-time timeout expires writes TIMED_OUT to gd and lets the next word issue. -/
  | semWaitTimeout (s : Site)
  /-- SEM_SIGNAL (R72). SEM_SIGNAL adds, sets or subtracts a local semaphore or sends a SEM_SIGNAL packet to a remote core. -/
  | semSignal (s : Site)
  /-- SEM_READ (R72). SEM_READ copies a semaphore value into a register. -/
  | semRead (s : Site)
  /-- POST (R80). POST sends up to eight registers as one MSG packet to a core inbox or a crown context engine. -/
  | post (s : Site)
  /-- RECV (R81). RECV takes the oldest inbox message into registers and writes status and header to gd. -/
  | recv (s : Site)
  /-- RECV_TIMEOUT (R78). A RECV whose dial-time timeout expires writes TIMED_OUT to gd and lets the next word issue. -/
  | recvTimeout (s : Site)
  /-- LDI (R72). LDI loads a 64-bit immediate into a register. -/
  | ldi (s : Site)
  /-- ALU (R72). ALU computes a register function of two operands or an immediate into gd. -/
  | alu (s : Site)
  /-- LOOP (R74). LOOP runs its body count times, writing the iteration index to gi. -/
  | loop (s : Site)
  /-- BR (R72). BR compares two registers and branches to a word index when the condition holds. -/
  | br (s : Site)
  /-- TASK_FAULT (R84). A task fault stops issue, records SEQ_FAULT, sends the report with the fault status and moves to the next start entry. -/
  | taskFault (s : Site)
  /-- SEQ_FAULT_CLR (R87). Writing 1 to bit 0 of SEQ_FAULT_CLR clears SEQ_FAULT. -/
  | seqFaultClr (who : Requester) (s : Site) (value : W64)
  /-- SEM_SIGNAL_PACKET (R79). An arriving SEM_SIGNAL packet is applied to the semaphore when its partition matches, and answered with a COMPLETION. -/
  | semSignalPacket (s : Site)
  /-- MSG (R80). An arriving MSG is placed in the core inbox or start queue, or refused, and answered with a COMPLETION. -/
  | msg (s : Site)
  /-- COMPLETION (R82). An arriving COMPLETION is matched to its outstanding request by seq and ends it, or is discarded as late. -/
  | completion (e : Endpoint)
  /-- READ_DATA (R185). An arriving READ_DATA is matched to its READ_REQ and its data written to the return address, or discarded as late. -/
  | readData (e : Endpoint)
  /-- MM (R106). An MM operation starts on a matrix engine and accumulates A·B into a tile. -/
  | mm (s : Site) (eng : Fin 4)
  /-- MV (R106). An MV operation starts on a matrix engine and accumulates X·W into a tile through the adder tree. -/
  | mv (s : Site) (eng : Fin 4)
  /-- ACC_ZERO (R106). An ACC_ZERO operation starts and sets every word of a tile to +0. -/
  | accZero (s : Site) (eng : Fin 4)
  /-- ACC_LOAD (R106). An ACC_LOAD operation starts and loads a tile from scratchpad. -/
  | accLoad (s : Site) (eng : Fin 4)
  /-- ACC_STORE (R113). An ACC_STORE operation starts and writes a tile, scaled and converted, to scratchpad. -/
  | accStore (s : Site) (eng : Fin 4)
  /-- ME_OP_COMPLETE (R115). A matrix-engine operation completes, applies its DISPATCH sig and frees its class for the next operation. -/
  | meOpComplete (s : Site) (eng : Fin 4) (xfer : Bool)
  /-- ME_FAULT_CLR (R121). Writing 1 to bit n of ME_FAULT_CLR clears ME_FAULT[n]. -/
  | meFaultClr (who : Requester) (s : Site) (value : W64)
  /-- ME_TBLK_BAD_CLR (R121). Writing 1 to bit 0 of ME_TBLK_BAD_CLR clears ME_TBLK_BAD_ADDR. -/
  | meTblkBadClr (who : Requester) (s : Site) (value : W64)
  /-- EMAP (R137). An EMAP starts and runs an element program over a tile beat by beat. -/
  | emap (s : Site)
  /-- EMAP_DESCRIPTOR_READ (R138). The EMAP's map-descriptor row is read and the descriptor checks are made in the next cycle. -/
  | emapDescriptorRead (s : Site)
  /-- EPROG (R126). An EPROG starts and loads and checks an element program into a slot. -/
  | eprog (s : Site)
  /-- VLOAD (R132). A VLOAD starts and copies scratchpad rows into the vector register file. -/
  | vload (s : Site)
  /-- VSTORE (R132). A VSTORE starts and copies register-file rows to scratchpad. -/
  | vstore (s : Site)
  /-- VE_OP_COMPLETE (R141). A vector-engine operation completes at its last write, applies its sig and frees its class. -/
  | veOpComplete (s : Site) (xfer : Bool)
  /-- RSUM (R145). An RSUM operation starts and sums rows or columns. -/
  | rsum (s : Site)
  /-- RMAX (R145). An RMAX operation starts and takes row or column maxima. -/
  | rmax (s : Site)
  /-- RMIN (R145). An RMIN operation starts and takes row or column minima. -/
  | rmin (s : Site)
  /-- ARGMAX (R146). An ARGMAX operation starts and finds the best value and index. -/
  | argmax (s : Site)
  /-- TOPK (R146). A TOPK operation starts and ranks the k best values and indices per row. -/
  | topk (s : Site)
  /-- SMPAIR (R147). An SMPAIR operation starts and computes the softmax pair per row. -/
  | smpair (s : Site)
  /-- PMERGE (R147). A PMERGE operation starts and merges a row of softmax pairs. -/
  | pmerge (s : Site)
  /-- TAP_PAIR_START (R148). A tapped EMAP and its src = 1 RU partner start together once both have reached the heads of their queues. -/
  | tapPairStart (s : Site)
  /-- RU_OP_COMPLETE (R149). A reduction-unit operation completes at the last write of its result and applies its sig. -/
  | ruOpComplete (s : Site)
  /-- VE_FAULT_CLR (R152). Writing 1 to bit 0 of VE_FAULT_CLR clears VE_FAULT. -/
  | veFaultClr (who : Requester) (s : Site) (value : W64)
  /-- RU_FAULT_CLR (R152). Writing 1 to bit 0 of RU_FAULT_CLR clears RU_FAULT. -/
  | ruFaultClr (who : Requester) (s : Site) (value : W64)
  /-- SPAD_PLAN_WRITE (R162). A write of SPAD_PLAN sets a plan's owners, or is ignored and counted while the plan is valid. -/
  | spadPlanWrite (who : Requester) (s : Site) (p : Fin 32) (value : W64)
  /-- SPAD_PLAN_CTL_WRITE (R162). A write of SPAD_PLAN_CTL sets a plan's length and validity after checking the plan. -/
  | spadPlanCtlWrite (who : Requester) (s : Site) (p : Fin 32) (value : W64)
  /-- RESHAPE (R172). A write of SPAD_GRP_PWR that changes the mask closes every group and starts a reshape. -/
  | reshape (who : Requester) (s : Site) (value : W64)
  /-- RESHAPE_DRAIN_TIMEOUT (R172). Accesses not performed 10 µs after the close complete with BANK_ASLEEP and count in SPAD_DRAIN_LATE_CNT. -/
  | reshapeDrainTimeout (s : Site)
  /-- RESHAPE_SUPPLY_SETTLED (R172). When group supplies settle, every row of every awake group is cleared. -/
  | reshapeSupplySettled (s : Site)
  /-- RESHAPE_COMPLETE (R172). After the clear the awake groups show awake and the interleave uses the new set. -/
  | reshapeComplete (s : Site)
  /-- ACC_READ_TURN (R167). An accumulate's read turn copies the row into an accumulate buffer and holds the row. -/
  | accReadTurn (s : Site) (bank : Fin 128)
  /-- ACC_WRITE_TURN (R167). An accumulate's write turn writes the buffer combined with the incoming values and completes the accumulate. -/
  | accWriteTurn (s : Site) (bank : Fin 128)
  /-- INGRESS_WRITE (R170). A staged mesh write is performed in a DMA-in slot of its bank and answered with a COMPLETION. -/
  | ingressWrite (s : Site) (bank : Fin 128)
  /-- INGRESS_READ (R170). A staged READ_REQ reads its rows in a free DMA slot once earlier writes to them are performed, and injects READ_DATA. -/
  | ingressRead (s : Site) (bank : Fin 128)
  /-- SCRUB_PATROL (R176). The scratchpad patrol reads the next bank row in an idle cycle, correcting and recording errors. -/
  | scrubPatrol (s : Site) (bank : Fin 128)
  /-- SCRUB_WRITE_BACK (R176). A queued corrected row is written back in an idle cycle unless a write cancelled it. -/
  | scrubWriteBack (s : Site)
  /-- SPAD_ERR_CLR (R178). Writing 1 to bit 0 of SPAD_ERR_CLR clears SPAD_ERR_ADDR. -/
  | spadErrClr (who : Requester) (s : Site) (value : W64)
  /-- FLIT_RECEIVE (R188). A hop-layer flit is checked by CRC and sequence, and its slots, acks and credits are taken, or a NAK is sent. -/
  | flitReceive (s : Site) (port : Fin 8) (flit : BitVec 2048)
  /-- FLIT_REPLAY (R188). A sender receiving a NAK goes back to the NAKed flit in its replay buffer. -/
  | flitReplay (s : Site) (port : Fin 8)
  /-- PACKET_HOP (R194). A router takes a packet header, checks it, and moves the packet by dimension order or delivers it. -/
  | packetHop (s : Site) (input : Fin 9) (vc : Fin 4)
  /-- WRITE (R168). A mesh WRITE delivered to a core is staged for its rows and answered with a COMPLETION when performed. -/
  | write (s : Site)
  /-- WRITE_ACC (R166). A mesh WRITE_ACC delivered to a core is staged as an accumulate-on-write of its type. -/
  | writeAcc (s : Site)
  /-- READ_REQ (R169). A mesh READ_REQ delivered to a core is staged for the rows it reads. -/
  | readReq (s : Site)
  /-- MCAST_WRITE (R201). A multicast copy delivered to a target core is applied and answered with its own COMPLETION. -/
  | mcastWrite (s : Site)
  /-- REDUCE (R203). A REDUCE contribution at a router with a matching entry is combined into the round, and a complete round is sent on. -/
  | reduce (s : Site) (input : Fin 9)
  /-- REDUCE_DELIVERY (R206). A REDUCE reaching its destination core performs accumulate-on-write and adds weight to its semaphore when applied in full. -/
  | reduceDelivery (s : Site)
  /-- REDUCE_ROUND_TIMEOUT (R205). A round held past MESH_RED_CFG.timeout sends its partial result and sets pass. -/
  | reduceRoundTimeout (s : Site) (e : Fin 64)
  /-- MESH_RED_WRITE (R202). A write of a reduction entry sets it, clears pass, or is ignored while arrived is nonzero. -/
  | meshRedWrite (who : Requester) (s : Site) (e : Fin 64) (value : W64)
  /-- MESH_INJ_CFG_WRITE (R212). A write of MESH_INJ_CFG sets the injection regulator or is ignored for a bad rate. -/
  | meshInjCfgWrite (who : Requester) (s : Site) (v : Fin 4) (value : W64)
  /-- THROTTLE_LEVEL_END (R207). A throttle level ends after occupancy stays below its threshold for 64 consecutive cycles. -/
  | throttleLevelEnd (s : Site) (v : Fin 4)
  /-- LINK_DOWN (R196). A mesh link going down makes the router discard committed and blocked packets and answer discarded requests with SITE_RETIRED. -/
  | linkDown (s : Site) (port : Fin 8)
  /-- LANE_REPAIR (R191). A module's error rate calls for lane repair and the link's traffic is held while lanes are remapped. -/
  | laneRepair (s : Site) (port : Fin 8) (module : Fin 4) (lane : Nat)
  /-- LANE_REPAIR_DONE (R191). The lane repair completes and the link resumes, or the module is disabled. -/
  | laneRepairDone (s : Site) (port : Fin 8) (module : Fin 4) (repaired : Bool)
  /-- ROUTE_MAP_REWRITE (R195). The crown recomputes and writes every route map after a retirement. -/
  | routeMapRewrite
  /-- DESCRIPTOR_READ (R213). A DMA channel takes a queue entry, reads the 64-byte descriptor and checks it. -/
  | descriptorRead (s : Site) (ch : Fin 4)
  /-- DMA_COPY (R218). A COPY descriptor starts moving rows between local scratchpad and another core, HBM or a remote panel. -/
  | dmaCopy (s : Site) (ch : Fin 4)
  /-- DMA_FILL (R218). A FILL descriptor starts writing a pattern to its destination. -/
  | dmaFill (s : Site) (ch : Fin 4)
  /-- DMA_SIGNAL (R227). A SIGNAL descriptor waits for earlier descriptors and then applies sig and rsig. -/
  | dmaSignal (s : Site) (ch : Fin 4)
  /-- DMA_REDUCE (R228). A REDUCE descriptor starts sending its pieces as REDUCE packets on VC2. -/
  | dmaReduce (s : Site) (ch : Fin 4)
  /-- DMA_PIECE_ISSUE (R220). A channel issues the next piece of a descriptor once a tracking entry and staging room are free. -/
  | dmaPieceIssue (s : Site) (ch : Fin 4)
  /-- DMA_REQUEST_TIMEOUT (R221). A request unanswered after DMA_CFG.timeout µs ends its piece with TIMED_OUT. -/
  | dmaRequestTimeout (s : Site) (ch : Fin 4) (entry : Fin 32)
  /-- DMA_DESCRIPTOR_COMPLETE (R224). A completed descriptor writes word 7 and then applies sig and, when all pieces succeeded, rsig. -/
  | dmaDescriptorComplete (s : Site) (ch : Fin 4)
  /-- DMA_FAULT_CLR (R243). Writing 1 to bit ch of DMA_FAULT_CLR clears DMA_FAULT[ch]. -/
  | dmaFaultClr (who : Requester) (s : Site) (value : W64)
  /-- WIN_ENT_WRITE (R233). A root-firmware write of a window entry sets it or is ignored and counted when invalid. -/
  | winEntWrite (who : Requester) (w : Fin 256) (word : Fin 4) (value : W64)
  /-- LOAD_BEGIN (R240). LOAD_BEGIN assigns a model number, reads and checks the image header and arms the hubs. -/
  | loadBegin (c : Crown)
  /-- LOAD_COMMIT (R240). LOAD_COMMIT checks and seals the image and starts writing it to the target cores. -/
  | loadCommit (c : Crown)
  /-- LOAD_IDLE_TIMEOUT (R241). A target core not IDLE within 1 ms fails the load with cause 0x9. -/
  | loadIdleTimeout (m : Fin 16)
  /-- LOAD_TARGETS_IDLE (R240). When every target core is IDLE the crown writes reshapes, plans and reduction entries and the hubs stream the sections. -/
  | loadTargetsIdle (m : Fin 16)
  /-- LOAD_READY (R240). When every streamed write has completed, measurements are recorded and the model is ready. -/
  | loadReady (m : Fin 16)
  /-- UNLOAD (R242). UNLOAD invalidates the model's reduction entries, unseals the image and frees the model number. -/
  | unload (c : Crown)
  /-- ADMIT (R254). An admission is checked and the context is placed in a slot, held in the overflow list or refused. -/
  | admitSlot (c : Crown)
  /-- CANCEL (R273). CANCEL ends a context at a step boundary with reason 6. -/
  | cancel (c : Crown)
  /-- CTX_MSG_RECEIVE (R250). A MSG to a context engine is taken into its report or message queue, or refused. -/
  | ctxMsgReceive (c : Crown)
  /-- SWAP_IN (R257). Service firmware swaps a held context into a slot, swapping out a swappable one when needed. -/
  | swapIn (c : Crown)
  /-- PAGE_IN (R267). The pager brings a context into residency, allocating slots, pages and frames and copying pages in. -/
  | pageIn (c : Crown) (handle : W32)
  /-- STEP_START (R262). The engine fills a batch of eligible contexts, writes batch records and sends START to every core of the model. -/
  | stepStart (c : Crown) (m : Fin 16)
  /-- STEP_COMPLETE (R264). When every core has reported, the step completes or fails and is run again. -/
  | stepComplete (c : Crown) (step : Nat)
  /-- STEP_TIMEOUT (R264). Reports missing CTX_CFG.steptmo ms after the last START fail the step as TIMED_OUT. -/
  | stepTimeout (c : Crown) (step : Nat)
  /-- SAMPLE_ROW (R269). With the shard lists read, the engine samples a token for a row and applies the stop conditions. -/
  | sampleRow (c : Crown) (step : Nat)
  /-- MIRROR_ACK (R276). The mirror's acknowledgement of a commit lets the engine post the token record. -/
  | mirrorAck (c : Crown) (handle : W32)
  /-- DEADLINE_EXPIRE (R273). A context past its deadline ends with reason 5 at a step boundary or within 100 µs. -/
  | deadlineExpire (c : Crown) (handle : W32)
  /-- CONTEXT_FREE (R252). A draining context's final record, pages, slot and handle are released and the slot becomes free. -/
  | contextFree (c : Crown) (handle : W32)
  /-- OUTPUT_PATH_TIMEOUT (R275). A context whose output path has been down for CTX_CFG.oqto ms ends with reason 7 and PORT_DOWN. -/
  | outputPathTimeout (c : Crown) (handle : W32)
  /-- CROWN_LOSS (R279). On crown loss the survivor leads all slots from the mirror, abandons the lost engine's steps and re-posts last records. -/
  | crownLoss (c : Crown)
  /-- FORECAST_POST (R282). Every 1 ms each engine posts its five-interval step-energy forecast to the power manager. -/
  | forecastPost (c : Crown)
  /-- STEP_COMMAND (R281). A follower receiving a step command of its epoch sends STARTs to its core list. -/
  | stepCommand (c : Crown)
  /-- STEP_REPORT (R337). A manager receiving a follower's step report counts it toward the step's completion. -/
  | stepReport (c : Crown)
  /-- MIRROR_UPDATE (R338). A standby receiving a mirror update writes the changed context words. -/
  | mirrorUpdate (c : Crown)
  /-- TOKEN_RECORD_MESSAGE (R339). A panel receiving token records of a fabric queue places them in its host token completion queue. -/
  | tokenRecordMessage (c : Crown)
  /-- FABRIC_RECORD_RESEND (R339). A record message answered TIMED_OUT or PORT_DOWN is resent after 10 µs. -/
  | fabricRecordResend (c : Crown) (queue : Fin 4096)
  /-- CTX_CFG_WRITE (R283). A write of CTX_CFG sets role and timeouts or is ignored and counted. -/
  | ctxCfgWrite (who : Requester) (c : Crown) (value : W64)
  /-- CTX_SVC_BASE_WRITE (R248). A write of CTX_SVC_BASE sets the service region or is ignored when a context exists or the band is not service. -/
  | ctxSvcBaseWrite (who : Requester) (c : Crown) (value : W64)
  /-- HUB_WRITE (R291). A WRITE at a hub is checked, decoded unit by unit, written to the stack and answered. -/
  | hubWrite (h : HubIx) (att : Fin 2)
  /-- HUB_READ_REQ (R292). A READ_REQ at a hub reads the stack and is answered with one READ_DATA, corrected or poisoned. -/
  | hubReadReq (h : HubIx) (att : Fin 2)
  /-- HUB_WRITE_BACK (R292). A corrected granule in the write-back queue is rewritten to the stack. -/
  | hubWriteBack (h : HubIx)
  /-- HUB_PATROL (R299). The hub patrol reads the next granule, writing back corrections and recording errors. -/
  | hubPatrol (h : HubIx)
  /-- HUB_TEMP_READ (R298). Every 1 ms the hub reads the stack temperature and sets its refresh and throttle level. -/
  | hubTempRead (h : HubIx) (celsius : Nat)
  /-- HBM_REFRESH (R298). The hub issues per-bank refresh at the rate its temperature level sets. -/
  | hbmRefresh (h : HubIx) (pc : Fin 64)
  /-- HUB_CMD_PTR (R300). A 64-bit write of HUB_CMD_PTR enqueues a command pointer or is refused with TIMED_OUT. -/
  | hubCmdPtr (h : HubIx) (att : Fin 2)
  /-- HUB_COPY (R302). A COPY command starts moving codewords within a stack or over the hub ring. -/
  | hubCopy (h : HubIx)
  /-- HUB_ZERO (R302). A ZERO command starts writing zero data with valid check bytes. -/
  | hubZero (h : HubIx)
  /-- HUB_DIGEST (R302). A DIGEST command starts computing SM3 over a range when a digest engine is free. -/
  | hubDigest (h : HubIx)
  /-- HUB_SCRUB (R302). A SCRUB command starts patrolling a range at once. -/
  | hubScrub (h : HubIx)
  /-- HUB_CMD_COMPLETE (R303). A completed command writes word 7 and then sends its notification. -/
  | hubCmdComplete (h : HubIx) (slot : Fin 4)
  /-- HUB_RING_CODEWORD (R305). A hub receives a ring codeword and forwards it or takes it as its own. -/
  | hubRingCodeword (h : HubIx) (clockwise own : Bool)
  /-- HUB_ERR_CLR (R309). Writing 1 to bit 0 of HUB_ERR_CLR clears HUB_ERR_ADDR. -/
  | hubErrClr (who : Requester) (h : HubIx) (value : W64)
  /-- HUB_BAND_WRITE (R309). A root write of HUB_BAND sets band owners or is ignored for a reserved kind. -/
  | hubBandWrite (who : Requester) (h : HubIx) (q : Fin 192) (value : W64)
  /-- HUB_HEARTBEAT (R307). Every 100 µs the hub sends a heartbeat to its crown. -/
  | hubHeartbeat (h : HubIx)
  /-- HUB_HEARTBEAT_LOSS (R307). When no hub heartbeat has arrived for 400 µs the crown declares the hub and stack lost. -/
  | hubHeartbeatLoss (h : HubIx)
  /-- STACK_LOSS (R307). A stack that fails to answer, returns many uncorrectable codewords or loses its rail is declared lost. -/
  | stackLoss (h : HubIx) (cause : Fin 4)
  /-- LOST_STACK_MASK_WRITE (R308). The crown writes the lost-stack mask into every source's decoder over the management ring. -/
  | lostStackMaskWrite
  /-- PORT_DOWN (R312). A fabric port goes down, answers its outstanding requests PORT_DOWN and discards its buffers. -/
  | portDown (d : PortIx) (q : Fin 2) (cause : Fin 4)
  /-- PORT_RETRAIN (R312). Every 1 s firmware retrains an enabled port that is down. -/
  | portRetrain (d : PortIx) (q : Fin 2) (trained : Bool)
  /-- INIT_SEND (R319). After alignment each side sends INIT every 1 µs until it receives a valid INIT. -/
  | initSend (d : PortIx) (q : Fin 2)
  /-- INIT (R319). A received INIT frame sets the partner's grants and brings the port up when both have exchanged INIT. -/
  | init (d : PortIx) (q : Fin 2) (frame : List Byte)
  /-- CTRL (R320). A received CTRL frame returns acks, credits and a NAK that triggers a go-back. -/
  | ctrl (d : PortIx) (q : Fin 2) (frame : List Byte)
  /-- CTRL_SEND (R320). The panel sends a CTRL frame at least every 1 µs or when 256 credits have freed. -/
  | ctrlSend (d : PortIx) (q : Fin 2)
  /-- DATA (R321). A received DATA frame is accepted in sequence and its packet checked and injected, or discarded with a NAK. -/
  | data (d : PortIx) (q : Fin 2) (frame : List Byte)
  /-- REPLAY_TIMEOUT (R321). When ackseq has not advanced for 20 µs the sender goes back to the oldest unacknowledged frame. -/
  | replayTimeout (d : PortIx) (q : Fin 2)
  /-- BEACON (R340). A received beacon is counted in the port die's seen mask or ignored for another group. -/
  | beacon (d : PortIx) (q : Fin 2) (frame : List Byte)
  /-- BEACON_SEND (R340). Every 100 µs each port die of a group member sends a beacon on each up port. -/
  | beaconSend (d : PortIx)
  /-- ETHERNET_FRAME (R326). A received Ethernet frame is checked and its packet or beacon taken, or discarded. -/
  | ethernetFrame (d : PortIx) (q : Fin 2) (frame : List Byte)
  /-- PFC_FRAME (R327). A received PFC frame for pcp0 or pcp1 pauses that VC for the time it names. -/
  | pfcFrame (d : PortIx) (q : Fin 2) (frame : List Byte)
  /-- PFC_REPEAT (R327). Every 10 µs while free space stays below xon the port repeats its PFC pause. -/
  | pfcRepeat (d : PortIx) (q : Fin 2) (vc : Fin 2)
  /-- ETH_REQUEST_TIMEOUT (R328). A request unanswered after PORT_CFG.etmo µs is answered TIMED_OUT by the tracker. -/
  | ethRequestTimeout (d : PortIx) (q : Fin 2) (entry : Fin 4096)
  /-- REMOTE_REQUEST (R329). A class 0x6 request reaching its port die takes an outgoing tracker entry and is sent as a frame. -/
  | remoteRequest (d : PortIx) (q : Fin 2)
  /-- REMOTE_ANSWER (R331). An answer to a translated request reaches the responder's die, is matched to its incoming entry and sent back. -/
  | remoteAnswer (d : PortIx) (q : Fin 2)
  /-- UP_MASK_COPY (R315). The crown copies PORT_DEVRT and the up mask into every source's decoder. -/
  | upMaskCopy
  /-- PORT_CFG_WRITE (R348). A write of PORT_CFG sets a port's configuration or is ignored and counted. -/
  | portCfgWrite (who : Requester) (d : PortIx) (q : Fin 2) (value : W64)
  /-- PORT_PFC_WRITE (R348). A write of PORT_PFC sets thresholds or is ignored when inconsistent. -/
  | portPfcWrite (who : Requester) (d : PortIx) (q : Fin 2) (value : W64)
  /-- PORT_DEVNUM_WRITE (R313). A write of PORT_DEVNUM sets the device number or is ignored while a port is up. -/
  | portDevnumWrite (who : Requester) (d : PortIx) (value : W64)
  /-- PORT_DEVBLK (R348). Writing 1 to a bit of PORT_DEVBLK blocks that device. -/
  | portDevblk (who : Requester) (d : PortIx) (k : Fin 128) (value : W64)
  /-- PORT_DEVUNBLK (R348). A root write of 1 to a bit of PORT_DEVUNBLK clears that device's block. -/
  | portDevunblk (who : Requester) (d : PortIx) (k : Fin 128) (value : W64)
  /-- SEEN_MASK (R341). At each 100 µs interval end each port die sends its seen mask to both crowns. -/
  | seenMask (d : PortIx)
  /-- SEEN_MASK_RECEIVE (R341). A crown ors a seen mask in and marks members missing after three empty intervals, making them suspect. -/
  | seenMaskReceive (c : Crown)
  /-- SUSPECT_DECISION (R342). The manager decides a suspect member as active, unavailable, fenced or expelled. -/
  | suspectDecision (c : Crown) (i : Fin 64)
  /-- EXPULSION_LIMIT_END (R342). When the 10-s expulsion limit ends the manager decides the members fenced by it again. -/
  | expulsionLimitEnd (c : Crown)
  /-- MANAGER_TAKEOVER (R345). The standby advances the epoch, takes the manager role and leads every context from its mirror. -/
  | managerTakeover (c : Crown)
  /-- GROUP_FENCE (R344). Group control action 1 marks a member fenced. -/
  | groupFence (c : Crown)
  /-- GROUP_UNFENCE (R344). Group control action 2 lifts a fence. -/
  | groupUnfence (c : Crown)
  /-- GROUP_EXPEL (R344). Group control action 3 makes members block the expelled device and adopt the new epoch. -/
  | groupExpel (c : Crown)
  /-- GROUP_ADOPT (R344). Group control action 4 makes the spare adopt the role and load the role's models. -/
  | groupAdopt (c : Crown)
  /-- GROUP_TAKEOVER (R345). Group control action 5 announces the standby's takeover; a former manager becomes a follower. -/
  | groupTakeover (c : Crown)
  /-- GROUP_READY (R344). Group control action 6 from the spare lets waiting contexts replay. -/
  | groupReady (c : Crown)
  /-- GOODPUT_TICK (R346). Each 1 ms the manager's crown counts PORT_GP_TOTAL and, when useful, PORT_GP_USEFUL. -/
  | goodputTick (c : Crown)
  /-- QUEUE_SET_ENABLE (R358). Setting HOST_QCTL.en zeroes the set's heads and tails and starts it. -/
  | queueSetEnable (fn : HostFn) (q : QSet) (value : W64)
  /-- QUEUE_SET_DISABLE (R358). Clearing HOST_QCTL.en stops fetch at once and discards due completions and records. -/
  | queueSetDisable (fn : HostFn) (q : QSet) (value : W64)
  /-- QUEUE_DISABLE_DONE (R358). The disable completes and busy returns to 0. -/
  | queueDisableDone (q : QSet)
  /-- SQ_TAIL_DOORBELL (R359). A write of the SQ tail doorbell makes new submissions available for fetch. -/
  | sqTailDoorbell (fn : HostFn) (q : QSet) (value : W64)
  /-- RCQ_HEAD_DOORBELL (R359). A write of the RCQ head doorbell frees completion entries. -/
  | rcqHeadDoorbell (fn : HostFn) (q : QSet) (value : W64)
  /-- TCQ_HEAD_DOORBELL (R359). A write of the TCQ head doorbell frees token-record room. -/
  | tcqHeadDoorbell (fn : HostFn) (q : QSet) (value : W64)
  /-- DOORBELL_RELEASE (R355). A held doorbell takes effect once every earlier BAR4 write of its function has its COMPLETION. -/
  | doorbellRelease (fn : HostFn)
  /-- SQ_FETCH (R365). The crown reads up to 32 SQ entries of a set when its RCQ has room. -/
  | sqFetch (q : QSet) (entries : List (BitVec 512))
  /-- HOST_NOP (R360). A NOP or reserved-opcode request completes with DONE when fetched. -/
  | hostNop (c : Crown)
  /-- REQUEST_COMPLETION_WRITE (R366). The crown writes a completion or record into its ring, then the tail word, then signals the interrupt. -/
  | requestCompletionWrite (q : QSet)
  /-- INTERRUPT_DELAY_EXPIRE (R367). When dly µs pass since the first unsignalled TCQ record the crown signals the set's vector. -/
  | interruptDelayExpire (q : QSet)
  /-- BAR4_READ (R354). A BAR4 read is checked and sent as READ_REQ packets, then completed to the host. -/
  | bar4Read (fn : HostFn) (off len : Nat)
  /-- BAR4_WRITE (R354). A BAR4 write is checked and sent as WRITE packets or discarded. -/
  | bar4Write (fn : HostFn) (off : Nat) (payload : List Byte)
  /-- BAR4_READ_TIMEOUT (R354). A BAR4 read without answer in 5 ms completes with Completer Abort and records TIMED_OUT. -/
  | bar4ReadTimeout (fn : HostFn)
  /-- HOST_FNPART_WRITE (R351). A root write of HOST_FNPART binds a function or is ignored when the partition is already bound. -/
  | hostFnpartWrite (who : Requester) (f : HostFn) (value : W64)
  /-- HOST_SEG_WRITE (R353). A root write of HOST_SEG maps a segment or is ignored when invalid. -/
  | hostSegWrite (who : Requester) (f : HostFn) (seg : Fin 64) (word : Fin 2) (value : W64)
  /-- HOST_FN_ERR_CLR (R372). Writing 1 to bit 0 of HOST_FN_ERR_CLR clears HOST_FN_ERR. -/
  | hostFnErrClr (fn : HostFn) (value : W64)
  /-- FLR_VF (R369). An FLR of a VF disables its sets, resets its registers and ends contexts with output on its TCQs. -/
  | flrVf (fn : HostFn)
  /-- FLR_PF (R369). An FLR of the PF acts as for a VF and resets every VF. -/
  | flrPf
  /-- HOST_RESET (R369). A hot reset, PERST# or link down resets every function and retrains the link. -/
  | hostReset
  /-- DOE_REQUEST (R368). A DOE request object is taken and answered within 500 ms, or sets DOE Error when too long. -/
  | doeRequest (request : SpdmRequest) (length : Nat)
  /-- DOE_ABORT (R368). A DOE abort clears DOE Error. -/
  | doeAbort
  /-- GET_VERSION (R491). SPDM GET_VERSION returns the supported version. -/
  | getVersion
  /-- GET_CAPABILITIES (R491). SPDM GET_CAPABILITIES returns the capabilities. -/
  | getCapabilities
  /-- NEGOTIATE_ALGORITHMS (R491). SPDM NEGOTIATE_ALGORITHMS selects the SM2 and SM3 algorithms or returns ERROR. -/
  | negotiateAlgorithms
  /-- GET_DIGESTS (R491). SPDM GET_DIGESTS returns the certificate chain digest. -/
  | getDigests
  /-- GET_CERTIFICATE (R491). SPDM GET_CERTIFICATE returns the attestation chain of slot 0. -/
  | getCertificate
  /-- CHALLENGE (R491). SPDM CHALLENGE returns a response signed with the attestation key. -/
  | challenge
  /-- GET_MEASUREMENTS (R492). SPDM GET_MEASUREMENTS returns the signed measurement blocks requested. -/
  | getMeasurements
  /-- REFERENCE_LOSS (R374). A reference input that misses edges or drifts is lost and its escapement unlocks, entering holdover if both are lost. -/
  | referenceLoss (c : Crown)
  /-- ESCAPEMENT_LOCK (R374). An escapement that has tracked its input for 1 ms becomes locked and may take the active role. -/
  | escapementLock (c : Crown)
  /-- ESCAPEMENT_TAKEOVER (R380). The locked standby escapement takes over and every die follows its tree with bounded dial correction. -/
  | escapementTakeover (treeLost : Bool)
  /-- HANDOVER (R380). A write of CLK_ESC_CMD commands a handover that acts as a takeover when the standby is locked. -/
  | handover (who : Requester) (value : W64)
  /-- TREE_LOSS_FATAL (R382). When no escapement drives a tree for 2 µs the crowns report a fatal clock fault. -/
  | treeLossFatal
  /-- CALIBRATION_WINDOW (R383). Every 10 µs the supervisor trims the balance oscillator against dial time. -/
  | calibrationWindow (s : Site) (err : Int)
  /-- DROOP_STRETCH (R384). A supply droop below the first threshold stretches cycles by steps of 1.5 %. -/
  | droopStretch (s : Site) (steps : Nat)
  /-- SUPPLY_HALT (R385). A supply below the second threshold withholds the next clock edge until it recovers. -/
  | supplyHalt (s : Site)
  /-- HALT_SUPPLY_FAULT (R385). A halt lasting 1 µs is reported to the power manager as a supply fault. -/
  | haltSupplyFault (s : Site)
  /-- CLK_CAP_WRITE (R389). A write of CLK_CAP.mgmt sets the management cap, a lower cap acting at the second edge. -/
  | clkCapWrite (who : Requester) (s : Site) (value : W64)
  /-- CAP_RAISE_APPLY (R389). A raised cap takes effect at the first edge after the next whole microsecond of dial time. -/
  | capRaiseApply (s : Site)
  /-- SETPOINT_CHANGE (R391). A write of CLK_SP_CTL with go requests a setpoint change at instant T and arms every site. -/
  | setpointChange (who : Requester) (value : W64)
  /-- SETPOINT_CANCEL (R393). A write of CLK_SP_CTL with cancel before T − 2 ms cancels the armed change. -/
  | setpointCancel (who : Requester) (value : W64)
  /-- SETPOINT_ARM_CHECK (R392). By T − 2 ms the crown reads back every arm and aborts the change if any is missing. -/
  | setpointArmCheck
  /-- SETPOINT_SWITCH (R392). Each core switches to its new period at its first edge after dial time T + 2. -/
  | setpointSwitch (s : Site)
  /-- BUS_SAMPLE (R401). Every 10 µs the crowns measure the bus and act on undervoltage, overvoltage, power-fail and lug imbalance. -/
  | busSample (deciVolts quarterAmps westLugPercent : Nat)
  /-- PHASE_FAILURE (R405). A failed regulator phase is reported and caps the core or retires the site. -/
  | phaseFailure (s : Site) (phase : Fin 8)
  /-- REGION_SUPPLY_LOSS (R406). A region converter latches off and its 14 sites are retired with cause 4. -/
  | regionSupplyLoss (region : Region)
  /-- EDGE_CONVERTER_FAULT (R407). An edge converter latches off and its hubs, stacks and ports are lost. -/
  | edgeConverterFault (e : Fin 8)
  /-- RAMP_BUCKET_GRANT (R410). A power rise waiting on the ramp bucket proceeds once the bucket covers its cost. -/
  | rampBucketGrant
  /-- FLOOR_LOWER (R412). The governor lowers site floors by at most rate watts per µs. -/
  | floorLower
  /-- PRE_RAMP_START (R413). The governor begins raising floors ahead of a forecast interval. -/
  | preRampStart (k : Fin 5)
  /-- REGION_POWER_ON (R414). A PWR_RGN_CMD power-on request queues a region until headroom allows its ramp grant. -/
  | regionPowerOn (who : Requester) (value : W64)
  /-- REGION_POWER_OFF (R414). A PWR_RGN_CMD power-off lowers floors, stops regulators and turns the converter off, or is ignored. -/
  | regionPowerOff (who : Requester) (value : W64)
  /-- RAMP_GRANT (R414). A queued region receives its ramp grant and its converter soft-starts. -/
  | rampGrant (region : Region)
  /-- SITE_REGULATOR_START (R414). A region's next site regulator starts, 100 µs after the previous one. -/
  | siteRegulatorStart (region : Region)
  /-- POWER_CAP_CHECK (R416). Every 10 µs the manager compares input power with the limits and decreases setpoint or broadcasts caps. -/
  | powerCapCheck (watts10us watts1ms : Nat)
  /-- CAP_RESTORE (R416). A broadcast cap is raised one code per 10 ms once input has stayed 500 W below the cap for 100 ms. -/
  | capRestore
  /-- TELEMETRY_SAMPLE (R418). Every 1 ms each domain's voltage and current are sampled. -/
  | telemetrySample (domain : PowerDomain) (millivolts milliamps : Nat)
  /-- ENERGY_TICK (R419). Every 1 ms PWR_ENERGY integrates input power. -/
  | energyTick (millijoules : Nat)
  /-- ENERGY_TENANT_UPDATE (R419). At each 100 ms boundary PWR_ENERGY_T is updated. -/
  | energyTenantUpdate
  /-- SENSOR_CONVERSION (R421). Every 20 µs each sensor converts, discarding out-of-range readings and flagging unusable or disagreeing sensors. -/
  | sensorConversion (s : Site) (k : Fin 6) (quarterC : Int)
  /-- THERMAL_EVALUATION (R422). Every 100 µs the supervisor evaluates Tj and sets CLK_CAP.thm by level. -/
  | thermalEvaluation (s : Site)
  /-- THERMAL_SHED_RETIRE (R422). A site 10 ms at level 5 is retired with cause 5. -/
  | thermalShedRetire (s : Site)
  /-- THERMAL_TRIP (R423). A die's trip comparator at 112 °C turns its rail off. -/
  | thermalTrip (die : Die)
  /-- EDGE_THERMAL_EVALUATION (R424). An edge die acts on its own temperature with alerts, throttling or rail off. -/
  | edgeThermalEvaluation (die : Die) (celsius : Option Nat)
  /-- HBM_LIMIT_STEP (R425). While a stack is at level 3 the HBM limit falls by 1.0 kW every 10 ms, then rises. -/
  | hbmLimitStep
  /-- LEHR_ADJUST (R426). The supervisor adjusts lehr load to hold Tj above the lehr floor. -/
  | lehrAdjust (s : Site)
  /-- THERMISTOR_READ (R428). Every 1 ms the coolant thermistors are read. -/
  | thermistorRead (inletDeciC outletDeciC : Option Int)
  /-- FLOW_PULSE (R526). A flow-meter pulse is counted. -/
  | flowPulse
  /-- COOLANT_EVALUATION (R429). Every 100 ms the manager computes flows and sets the coolant and inlet limits and alerts. -/
  | coolantEvaluation
  /-- ABRUPT_STOP (R431). An abrupt coolant stop is detected and the panel is shed to 2.8 kW. -/
  | abruptStop
  /-- SHED_LIFT (R432). The shed lifts when flow and outlet have recovered, and caps are restored. -/
  | shedLift
  /-- ORDERLY_STOP (R432). A shed not lifted within 2 s ends every context and powers the panel down to its crowns. -/
  | orderlyStop
  /-- POWER_LOSS (R433). The bus disappears and all volatile state is lost. -/
  | powerLoss
  /-- PANEL_START (R436). The panel starts from stage 1 when the bus reaches 40.0 V and reset is released, sampling its straps. -/
  | panelStart (straps : Straps)
  /-- STAGE_COMPLETE (R447). A start-up stage ends, its stage record is written, its configuration items are applied and the next stage begins. -/
  | stageComplete (outcome : StageOutcome)
  /-- STAGE_TIMEOUT (R439). A stage that runs past its limit fails its item in progress or fails the start. -/
  | stageTimeout
  /-- CROWN_ABSENT (R438). A crown without a stage-2 record after 2 s is absent and the other crown leads both halves. -/
  | crownAbsent (c : Crown)
  /-- RESTART_FAST (R462). BOOT_CMD restart fast restarts the panel. -/
  | restartFast (who : Requester)
  /-- RESTART_FULL (R462). BOOT_CMD restart full restarts the panel with a full start. -/
  | restartFull (who : Requester)
  /-- FULL_START_NEXT (R446). BOOT_CMD requests a full start at the next start. -/
  | fullStartNext (who : Requester)
  /-- RETRAIN_NORTH (R457). BOOT_CMD starts a half retrain of the north half. -/
  | retrainNorth (who : Requester) (force : Bool)
  /-- RETRAIN_SOUTH (R457). BOOT_CMD starts a half retrain of the south half. -/
  | retrainSouth (who : Requester) (force : Bool)
  /-- HALF_RETRAIN_COMPLETE (R457). The retrained half merges back and its ports come up. -/
  | halfRetrainComplete
  /-- VACATE (R456). BOOT_CMD vacate moves a logical core to the row's spare and leaves the vacated site in TEST. -/
  | vacate (who : Requester) (s : Site)
  /-- CORE_REPAIR (R453). A core loss starts a repair that retires the site, abandons steps and pauses and aborts the partition. -/
  | coreRepair (s : Site)
  /-- REPAIR_ADOPT (R453). With the partition IDLE, the spare adopts the logical core, route maps are rewritten and sections reapplied. -/
  | repairAdopt
  /-- REPAIR_COMPLETE (R453). With sections reapplied, RESUME goes to the adopting spare and STARTs resume. -/
  | repairComplete
  /-- REPAIR_FAIL (R454). A repair that cannot complete faults its partitions with PARTITION_FAULT. -/
  | repairFail
  /-- SERVICE_FIRMWARE_UPDATE (R458). New service firmware is brought into service one crown at a time. -/
  | serviceFirmwareUpdate (c : Crown)
  /-- CORE_SELF_TEST (R459). BOOT_TEST_REQ kind 0x1 queues a core self-test. -/
  | coreSelfTest (who : Requester) (value : W64)
  /-- SCRATCHPAD_MARCH (R459). BOOT_TEST_REQ kind 0x2 queues a scratchpad march. -/
  | scratchpadMarch (who : Requester) (value : W64)
  /-- LINK_RECALIBRATION (R460). BOOT_TEST_REQ kind 0x3 queues a link recalibration. -/
  | linkRecalibration (who : Requester) (value : W64)
  /-- SENSOR_CALIBRATION (R459). BOOT_TEST_REQ kind 0x4 queues a sensor and oscillator calibration. -/
  | sensorCalibration (who : Requester) (value : W64)
  /-- TEST_START (R459). A queued test starts when its target is free, or after a drain when forced. -/
  | testStart
  /-- TEST_COMPLETE (R459). A test ends, restoring the site or retiring it, and writes BOOT_TEST_RES. -/
  | testComplete (passed : Bool) (module : Fin 4)
  /-- RING_FRAME (R465). A management-ring frame is taken, its origin checked, and its access, heartbeat or message performed. -/
  | ringFrame (frame : RingFrame)
  /-- RING_BREAK (R466). A single loop break reroutes ring traffic the other way. -/
  | ringBreak (half : Crown)
  /-- SERVICE_REPORT (R469). Every 10 ms service firmware reports to root firmware. -/
  | serviceReport (c : Crown)
  /-- SERVICE_RESTART (R469). With no service report for 100 ms root firmware restarts the service compartment. -/
  | serviceRestart (c : Crown)
  /-- RNG_HEALTH_FAIL (R472). A failing random source stops signing and raises a Hokuid alert. -/
  | rngHealthFail (c : Crown)
  /-- SESSION_ACCEPT (R477). A TLS connection to Hokuid is accepted or closed over the session limit. -/
  | sessionAccept (c : Crown) (cert : ClientCert)
  /-- SESSION_IDLE_CLOSE (R477). A session idle for 600 s is closed. -/
  | sessionIdleClose (c : Crown) (session : Fin 8)
  /-- HOKUID_READ (R480). A Hokuid READ returns a register value. -/
  | hokuidRead (c : Crown) (session : Fin 8) (tag : W32) (item : ConfigItem)
  /-- HOKUID_WRITE (R480). A Hokuid WRITE performs a ring write and returns its status. -/
  | hokuidWrite (c : Crown) (session : Fin 8) (tag : W32) (item : ConfigItem)
  /-- SUBMIT (R480). A Hokuid SUBMIT carries a host request for a partition and returns its completion. -/
  | submit (c : Crown) (session : Fin 8) (tag : W32) (part : Partition) (request : BitVec 512)
  /-- ATTEST (R480). A Hokuid ATTEST returns a signed measurements response over a nonce. -/
  | attest (c : Crown) (session : Fin 8) (tag : W32) (nonce : BitVec 256) (indices : List Byte)
  /-- FLASH_PUT (R480). A Hokuid FLASH_PUT writes body bytes into the unused copy of an item. -/
  | flashPut (c : Crown) (session : Fin 8) (tag : W32) (kind : Fin 6) (offset : Nat) (payload : List Byte)
  /-- FLASH_COMMIT (R489). A Hokuid FLASH_COMMIT commits an authorised verifiable item on both crowns. -/
  | flashCommit (c : Crown) (session : Fin 8) (tag : W32) (kind : Fin 6)
  /-- MAINT (R480). A Hokuid MAINT starts or ends maintenance time. -/
  | maint (c : Crown) (session : Fin 8) (tag : W32) (start : Bool)
  /-- PROTECTION_CHANGE (R485). A root command of kind 1 is checked and closes the rights it removes. -/
  | protectionChange (c : Crown) (session : Fin 8) (tag : W32) (command : List Byte)
  /-- CREDENTIAL_CHANGE (R478). A root command of kind 2 writes MGMT_CRED on both crowns. -/
  | credentialChange (c : Crown) (session : Fin 8) (tag : W32) (command : List Byte)
  /-- ANTI_ROLLBACK_COMMIT (R475). A root command of kind 3 raises an anti-rollback floor in both crowns' fuses. -/
  | antiRollbackCommit (c : Crown) (session : Fin 8) (tag : W32) (command : List Byte)
  /-- UPDATE_AUTHORISATION (R489). A root command of kind 4 authorises a FLASH_COMMIT of a named body digest. -/
  | updateAuthorisation (c : Crown) (session : Fin 8) (tag : W32) (command : List Byte)
  /-- PROTECTION_STAGE_CHECK (R485). By T − 1 ms staged values are read back, or T moves 1 ms later or the command ends TIMED_OUT. -/
  | protectionStageCheck
  /-- PROTECTION_DRAIN_CHECK (R485). By T − 100 µs every affected die reports drained and moved resources are cleared. -/
  | protectionDrainCheck
  /-- PROTECTION_SWITCH (R485). Each die switches to the staged protection values when its dial time reaches T. -/
  | protectionSwitch
  /-- TABLE_ENTRY_REWRITE (R502). The crown rewrites a table entry with a double-bit error from a good copy. -/
  | tableEntryRewrite (die : Die) (off : Nat)
  /-- SHADOW_ROW_RESTORE (R505). Before a failed step's rerun the crown rewrites a poisoned weight or program row from the HBM shadow. -/
  | shadowRowRestore (c : Crown) (step : Nat)
  /-- ERROR_LOG_POLL (R509). Every 1 ms each crown reads its half's error logs, releases them and writes them to flash. -/
  | errorLogPoll (c : Crown)
  /-- ERR_ACK (R513). A write of ERR_ACK releases records from the head of an error log. -/
  | errAck (who : Requester) (die : Die) (value : W64)
  /-- RESET_INPUT (R529). A low of 1 µs or more on RST_N resets the whole panel. -/
  | resetInput (c : Crown)
  /-- GROUP_MESSAGE_RESEND (R336). A group message refused by the peer crown with TIMED_OUT is resent after 10 µs. -/
  | groupMessageResend (c : Crown)
  /-- PFC_PAUSE_EXPIRE (R327). The pause time named by a received PFC frame runs out and the VC may send new frames again. -/
  | pfcPauseExpire (d : PortIx) (q : Fin 2) (vc : Fin 2)
  /-- SUPPLY_RECOVERY (R385). The core supply recovers above the halt threshold and the withheld clock edge is released. -/
  | supplyRecovery (s : Site)
  /-- RNG_HEALTH_PASS (R472). The random source passes its health tests again and root firmware resumes signing. -/
  | rngHealthPass (c : Crown)
  deriving DecidableEq, Repr

end Sys2Proof
end

