-- ==== Sys2Proof/Decode.lean ====
section
/-! DEFINITION. The words of commands. No row of the command table gives bits: a command is an event at a named place,
not a word, so that no word spells one. -/

namespace Sys2Proof

/-- The command that a word spells by the table's bits: none, as no row of the table has bits. -/
def decodeTableWord (_nbits _w : Nat) : Option Instr := none

end Sys2Proof
end

