-- ==== Sys2Proof/Config.lean ====
section
/-! DEFINITION. What the spec leaves open: values the panel produces and the manual does not fix. Every constant here
is without a body, so no proof can see what it is (notes/assumptions/1.md and 2.md). -/

namespace Sys2Proof.Config

/-- A free value: the machine goes on with some value that the manual does not state (R174's undefined tile and
register contents, a cycle count under a placement that the model does not time, a random number). The argument is a
plain counter of the state, so that each use is a value of its own. -/
opaque freeValue : Nat → W64

/-- What the table-plus-polynomial unit answers for an operand outside the special inputs of R140, before the model
holds it to the bound of R140: by opcode and the FP32 bits of the operand. The same operand always gives the same bits
(R139). -/
opaque transcendental : Nat → W32 → W32

/-- The sign of an exact sum of so many terms that are all −0, which the manual does not state (R107, R145;
notes/assumptions/12.md). -/
opaque negZeroSum : Nat → Bool

/-- The SM2 signature of a key over a digest (R470, R491): the algorithm's random number makes the value open. -/
opaque sm2Sign : BitVec 256 → BitVec 256 → Nat → BitVec 512

/-- A signature that the holder of a public key can make over a digest, and which others verify as well. The manual names SM2 and
does not state it. -/
opaque sm2Known : BitVec 512 → BitVec 256 → BitVec 512
opaque sm2Other : BitVec 512 → BitVec 256 → BitVec 512 → Bool

/-- Whether an SM2 signature verifies under a public key over a digest (R474, R481). PRESUMED: for every key and digest some signature
does, as its holder can sign; which ones do is open (notes/assumptions/2.md). -/
def sm2Verify (pub : BitVec 512) (digest : BitVec 256) (sig : BitVec 512) : Bool := sig == sm2Known pub digest || sm2Other pub digest sig

/-- The die's own attestation key and public key (R471, R491), fused at assembly. -/
opaque attestKey : Nat → BitVec 256
opaque attestPub : Nat → BitVec 512

/-- The bytes of the attestation certificate chain (R471, R491), which the manual does not give: at least one. -/
opaque attestFirst : Nat → Byte
opaque attestRest : Nat → List Byte
def attestChain (crown : Nat) : List Byte := attestFirst crown :: attestRest crown

/-- The random source of a crown (R472): the n-th 64-bit draw. -/
opaque random : Nat → W64

/-- The public key that Nirheten's signatures on flash items verify under (R474), fused in the crowns. -/
opaque vendorKey : BitVec 512

/-- The fused voltage table of R403: millivolts of a site at a frequency code. -/
opaque siteMv : Nat → Nat → Nat

/-- The load that the start of a site's regulator adds (R414), in milliwatts, which the manual does not state. DEDUCED: it is not zero, and a
bucket full to the burst of reset, 200 W of input, covers it (R410), or no region could be turned on (notes/assumptions/20.md). -/
opaque startLoad : Nat → Fin 176000
def startCost (site : Nat) : Nat := (startLoad site).val + 1

/-- The digest of a crown's ROM (R492), whose contents the manual does not give. -/
opaque romDigest : Nat → List Byte

/-- The digest of the fuse map (R451, R492), whose layout the manual does not give; of the parts that change, the floors. -/
opaque fuseDigest : List (Nat × Nat) → List Byte

end Sys2Proof.Config
end

