-- ==== Sys2Proof/Machine/RegMap.lean ====
section
/-! DEFINITION. The register maps of every die (R55, R57, R87, R121, R152, R178, R212, R243–R245, R283, R309, R348, R357,
R371, R372, R398, R399, R434, R435, R462, R496, R513), at the block offsets of R54: each row's name, offset, stride,
count, width, access code of R15, reset value, and the bits that a write may set. -/

namespace Sys2Proof.Machine

/-- The access codes of R15. -/
inductive Acc
  | rw
  | ro
  | wo
  | w1c
  | w1s
  | rc
  deriving DecidableEq, Repr

/-- A row of a register map: `count` registers from `off` on, `stride` bytes apart. -/
structure RegRow where
  name : String
  off : Nat
  stride : Nat
  count : Nat
  wide : Bool
  acc : Acc
  reset : Nat
  wmask : Nat
  deriving DecidableEq, Repr

/-! ### Offsets, by name -/

namespace Reg

/-- PANEL_ID: part, variant and stepping (R55). -/
def PANEL_ID : Nat := 0x0

/-- PANEL_GRID: logical grid, stack and port counts (R55). -/
def PANEL_GRID : Nat := 0x4

/-- PANEL_STACK_MAP: stacks present (R55). -/
def PANEL_STACK_MAP : Nat := 0x8

/-- PANEL_PORT_MAP: fabric ports present (R55). -/
def PANEL_PORT_MAP : Nat := 0xC

/-- PANEL_ADDR_ERR_CNT: address-decode refusals issued by this crown (R55). -/
def PANEL_ADDR_ERR_CNT : Nat := 0x20

/-- PANEL_BADACC_CNT: misaligned or wrong-width register accesses, per R13 (R55). -/
def PANEL_BADACC_CNT : Nat := 0x24

/-- PANEL_AGENT: agent of region n (R55). -/
def PANEL_AGENT : Nat := 0x100

/-- PANEL_SITE_MAP: state of physical site (c, r); last entry at 0x0_153C (R55). -/
def PANEL_SITE_MAP : Nat := 0x1000

/-- PANEL_LMAP: site of logical core i; last entry at 0x0_24FC for 320 cores (R55). -/
def PANEL_LMAP : Nat := 0x2000

/-- CORE_SITE: site identity (R87). -/
def CORE_SITE : Nat := 0x0

/-- CORE_STATE: core state (R87). -/
def CORE_STATE : Nat := 0x4

/-- CORE_CMD: state commands, by R61 (R87). -/
def CORE_CMD : Nat := 0x8

/-- CORE_PART: partition, set by root firmware (R87). -/
def CORE_PART : Nat := 0xC

/-- CORE_FMAX: fused maximum frequency (R87). -/
def CORE_FMAX : Nat := 0x10

/-- CORE_CMD_IGN_CNT: commands ignored (R87). -/
def CORE_CMD_IGN_CNT : Nat := 0x14

/-- CORE_HB_CNT: heartbeats sent; wraps (R87). -/
def CORE_HB_CNT : Nat := 0x18

/-- CORE_CYC: core cycles since reset; wraps (R87). -/
def CORE_CYC : Nat := 0x20

/-- SEQ_STATUS: issue state (R87). -/
def SEQ_STATUS : Nat := 0x10000

/-- SEQ_QUEUES: start-queue and inbox occupancy (R87). -/
def SEQ_QUEUES : Nat := 0x10004

/-- SEQ_FAULT: first fault (R87). -/
def SEQ_FAULT : Nat := 0x10008

/-- SEQ_FAULT_CLR: writing 1 to bit 0 clears SEQ_FAULT (R87). -/
def SEQ_FAULT_CLR : Nat := 0x1000C

/-- SEQ_FAULT_CNT: task faults (R87). -/
def SEQ_FAULT_CNT : Nat := 0x10010

/-- SEQ_START_REFUSE_CNT: refused START messages (R87). -/
def SEQ_START_REFUSE_CNT : Nat := 0x10014

/-- SEQ_INBOX_REFUSE_CNT: refused MSG packets (R87). -/
def SEQ_INBOX_REFUSE_CNT : Nat := 0x10018

/-- SEQ_SEM_REFUSE_CNT: refused SEM_SIGNAL packets (R87). -/
def SEQ_SEM_REFUSE_CNT : Nat := 0x1001C

/-- SEQ_SEM_SAT_CNT: saturating semaphore updates (R87). -/
def SEQ_SEM_SAT_CNT : Nat := 0x10020

/-- SEQ_REMOTE_ERR_CNT: non-DONE completions of remote operations (R87). -/
def SEQ_REMOTE_ERR_CNT : Nat := 0x10024

/-- SEQ_ABORT_CNT: tasks and entries discarded by ABORT (R87). -/
def SEQ_ABORT_CNT : Nat := 0x10028

/-- SEQ_TASK_CNT: tasks ended (R87). -/
def SEQ_TASK_CNT : Nat := 0x1002C

/-- SEQ_TASK_CYC: cycle count of the last task ended (R87). -/
def SEQ_TASK_CYC : Nat := 0x10030

/-- SEQ_G: register gn (R87). -/
def SEQ_G : Nat := 0x10100

/-- SEQ_SEM: semaphore n; last at 0x5FC (R87). -/
def SEQ_SEM : Nat := 0x10200

/-- SEQ_SEM_SAT: bit j: semaphore 32k + j saturated (R87). -/
def SEQ_SEM_SAT : Nat := 0x10600

/-- ME_STATUS: running operations and queue occupancy (R121). -/
def ME_STATUS : Nat := 0x20000

/-- ME_OP_CNT: operations completed by engine n (R121). -/
def ME_OP_CNT : Nat := 0x20010

/-- ME_FAULT: first fault of engine n (R121). -/
def ME_FAULT : Nat := 0x20020

/-- ME_FAULT_CLR: bit n written 1 clears ME_FAULT[n]; bits 31:4 RSV (R121). -/
def ME_FAULT_CLR : Nat := 0x20030

/-- ME_SAT_CNT: elements saturated at output conversion, by R103 (R121). -/
def ME_SAT_CNT : Nat := 0x20040

/-- ME_NAN_CNT: NaN elements met at output conversion (R121). -/
def ME_NAN_CNT : Nat := 0x20044

/-- ME_INT_WRAP_CNT: INT32 accumulations that wrapped (R121). -/
def ME_INT_WRAP_CNT : Nat := 0x20048

/-- ME_TBLK_BAD_CNT: invalid T-blocks decoded (R121). -/
def ME_TBLK_BAD_CNT : Nat := 0x2004C

/-- ME_TBLK_BAD_ADDR: first invalid T-block (R121). -/
def ME_TBLK_BAD_ADDR : Nat := 0x20050

/-- ME_TBLK_BAD_CLR: bit 0 written 1 clears ME_TBLK_BAD_ADDR; bits 31:1 RSV (R121). -/
def ME_TBLK_BAD_CLR : Nat := 0x20054

/-- ME_OP_CYC: cycle count of engine n's last completed operation; holds at 0xFFFF_FFFF (R121). -/
def ME_OP_CYC : Nat := 0x20060

/-- VE_STATUS: running operations and queue occupancy (R152). -/
def VE_STATUS : Nat := 0x30000

/-- VE_OP_CNT: operations completed (R152). -/
def VE_OP_CNT : Nat := 0x30010

/-- VE_FAULT: first fault (R152). -/
def VE_FAULT : Nat := 0x30020

/-- VE_FAULT_CLR: bit 0 written 1 clears VE_FAULT; bits 31:1 RSV (R152). -/
def VE_FAULT_CLR : Nat := 0x30030

/-- VE_SAT_CNT: elements saturated by output conversion or CVTFI (R152). -/
def VE_SAT_CNT : Nat := 0x30040

/-- VE_NAN_CNT: NaN elements met by output conversion or CVTFI (R152). -/
def VE_NAN_CNT : Nat := 0x30044

/-- VE_PROG_VALID: bit p: program slot p valid; bits 31:16 RSV (R152). -/
def VE_PROG_VALID : Nat := 0x30048

/-- VE_OP_CYC: cycle count of the last completed operation; holds at 0xFFFF_FFFF (R152). -/
def VE_OP_CYC : Nat := 0x30060

/-- RU_STATUS: running operation and queue occupancy (R152). -/
def RU_STATUS : Nat := 0x40000

/-- RU_OP_CNT: operations completed (R152). -/
def RU_OP_CNT : Nat := 0x40010

/-- RU_FAULT: first fault (R152). -/
def RU_FAULT : Nat := 0x40020

/-- RU_FAULT_CLR: bit 0 written 1 clears RU_FAULT; bits 31:1 RSV (R152). -/
def RU_FAULT_CLR : Nat := 0x40030

/-- RU_NAN_CNT: NaN inputs ranked or summed by ARGMAX, TOPK, SMPAIR, PMERGE (R152). -/
def RU_NAN_CNT : Nat := 0x40040

/-- RU_TAP_WAIT_CNT: cycles the VE or RU waited for a tap partner (R152). -/
def RU_TAP_WAIT_CNT : Nat := 0x40044

/-- RU_OP_CYC: cycle count of the last completed operation; holds at 0xFFFF_FFFF (R152). -/
def RU_OP_CYC : Nat := 0x40060

/-- SPAD_STATUS: running plan, reshape state, ingress occupancy (R178). -/
def SPAD_STATUS : Nat := 0x50000

/-- SPAD_GRP_PWR: bit g: group g awake; bits 31:16 RSV; write starts a reshape by R172 (R178). -/
def SPAD_GRP_PWR : Nat := 0x50004

/-- SPAD_GRP_STATE: state of each group (R178). -/
def SPAD_GRP_STATE : Nat := 0x50008

/-- SPAD_ASLEEP_CNT: accesses completed with BANK_ASLEEP (R178). -/
def SPAD_ASLEEP_CNT : Nat := 0x50010

/-- SPAD_DRAIN_LATE_CNT: accepted accesses not performed within the 10 µs drain (R178). -/
def SPAD_DRAIN_LATE_CNT : Nat := 0x50014

/-- SPAD_PLAN_MISS_CNT: tasks run under plan 0 because their plan was not valid (R178). -/
def SPAD_PLAN_MISS_CNT : Nat := 0x50018

/-- SPAD_NOSLOT_CNT: operations of a unit without a slot, by R164 (R178). -/
def SPAD_NOSLOT_CNT : Nat := 0x5001C

/-- SPAD_CFG_IGN_CNT: plan and group-power writes ignored (R178). -/
def SPAD_CFG_IGN_CNT : Nat := 0x50020

/-- SPAD_ACC_MERGE_CNT: accumulates whose buffer took a write during the hold (R178). -/
def SPAD_ACC_MERGE_CNT : Nat := 0x50024

/-- SPAD_ACC_PART_CNT: elements left unchanged for a partial byte mask (R178). -/
def SPAD_ACC_PART_CNT : Nat := 0x50028

/-- SPAD_CORR_CNT: codewords corrected on read (R178). -/
def SPAD_CORR_CNT : Nat := 0x50030

/-- SPAD_UNCORR_CNT: uncorrectable or poisoned codewords read (R178). -/
def SPAD_UNCORR_CNT : Nat := 0x50034

/-- SPAD_POISON_WR_CNT: partial writes into a poisoned codeword (R178). -/
def SPAD_POISON_WR_CNT : Nat := 0x50038

/-- SPAD_WB_DROP_CNT: corrected rows not queued for write-back (R178). -/
def SPAD_WB_DROP_CNT : Nat := 0x5003C

/-- SPAD_ERR_ADDR: first uncorrectable or poisoned codeword (R178). -/
def SPAD_ERR_ADDR : Nat := 0x50040

/-- SPAD_ERR_CLR: bit 0 written 1 clears SPAD_ERR_ADDR; bits 31:1 RSV (R178). -/
def SPAD_ERR_CLR : Nat := 0x50044

/-- SPAD_SCRUB_CFG: patrol scrub control (R178). -/
def SPAD_SCRUB_CFG : Nat := 0x50048

/-- SPAD_SCRUB_STAT: patrol progress (R178). -/
def SPAD_SCRUB_STAT : Nat := 0x5004C

/-- SPAD_SCRUB_LATE_CNT: bank rows the patrol reached late (R178). -/
def SPAD_SCRUB_LATE_CNT : Nat := 0x50050

/-- SPAD_PLAN: owners of slots 0–15 (R178). -/
def SPAD_PLAN : Nat := 0x50100

/-- SPAD_PLAN_CTL: plan length and validity; last at 0x27C (R178). -/
def SPAD_PLAN_CTL : Nat := 0x50200

/-- MESH_STATUS: tables and throttle levels (R212). -/
def MESH_STATUS : Nat := 0x60000

/-- MESH_PORTS: state of each port (R212). -/
def MESH_PORTS : Nat := 0x60004

/-- MESH_ADDR_ERR_CNT: address-decode refusals, by R51 (R212). -/
def MESH_ADDR_ERR_CNT : Nat := 0x60008

/-- MESH_HDR_ERR_CNT: bad headers discarded (R212). -/
def MESH_HDR_ERR_CNT : Nat := 0x6000C

/-- MESH_DROP_CNT: packets discarded at a down link or dead site (R212). -/
def MESH_DROP_CNT : Nat := 0x60010

/-- MESH_UNREACH_CNT: requests refused as unreachable (R212). -/
def MESH_UNREACH_CNT : Nat := 0x60014

/-- MESH_PART_REFUSE_CNT: packets refused for partition, or not injected, by R184; packets not applied at delivery, by R532 (R212). -/
def MESH_PART_REFUSE_CNT : Nat := 0x60018

/-- MESH_MCAST_SKIP_CNT: multicast targets skipped (R212). -/
def MESH_MCAST_SKIP_CNT : Nat := 0x6001C

/-- MESH_RED_MISS_CNT: REDUCE passed without a matching entry (R212). -/
def MESH_RED_MISS_CNT : Nat := 0x60020

/-- MESH_RED_MISMATCH_CNT: contributions passed uncombined (R212). -/
def MESH_RED_MISMATCH_CNT : Nat := 0x60024

/-- MESH_RED_TIMEOUT_CNT: rounds ended by timeout (R212). -/
def MESH_RED_TIMEOUT_CNT : Nat := 0x60028

/-- MESH_RED_FAIL_CNT: REDUCE not applied in full at this destination (R212). -/
def MESH_RED_FAIL_CNT : Nat := 0x6002C

/-- MESH_RETRY_CNT: flit replays, all ports (R212). -/
def MESH_RETRY_CNT : Nat := 0x60030

/-- MESH_LANE_REPAIR_CNT: in-service lane repairs (R212). -/
def MESH_LANE_REPAIR_CNT : Nat := 0x60034

/-- MESH_RED_CFG: reduction control (R212). -/
def MESH_RED_CFG : Nat := 0x60038

/-- MESH_CFG_IGN_CNT: ignored table writes (R212). -/
def MESH_CFG_IGN_CNT : Nat := 0x6003C

/-- MESH_INJ_CFG: injection regulator (R212). -/
def MESH_INJ_CFG : Nat := 0x60040

/-- MESH_THR1_CYC: cycles held at level 1 (R212). -/
def MESH_THR1_CYC : Nat := 0x60060

/-- MESH_THR2_CYC: cycles held at level 2 (R212). -/
def MESH_THR2_CYC : Nat := 0x60070

/-- MESH_LINK_UNITS: units sent on port p; wraps (R212). -/
def MESH_LINK_UNITS : Nat := 0x60080

/-- MESH_RED: reduction entry, by R202; last at 0x5F8 (R212). -/
def MESH_RED : Nat := 0x60400

/-- MESH_RMAP: route-map entry, by R192; last at 0x1614 (R212). -/
def MESH_RMAP : Nat := 0x61000

/-- DMA_STATUS: running channels and queue occupancy (R243). -/
def DMA_STATUS : Nat := 0x70000

/-- DMA_CFG: request timeout (R243). -/
def DMA_CFG : Nat := 0x70004

/-- DMA_DESC_CNT: descriptors completed (R243). -/
def DMA_DESC_CNT : Nat := 0x70010

/-- DMA_FAULT: first fault (R243). -/
def DMA_FAULT : Nat := 0x70020

/-- DMA_FAULT_CLR: bit ch written 1 clears DMA_FAULT[ch]; bits 31:4 RSV (R243). -/
def DMA_FAULT_CLR : Nat := 0x70030

/-- DMA_ERR_CNT: descriptors ended with a failing status (R243). -/
def DMA_ERR_CNT : Nat := 0x70040

/-- DMA_TIMEOUT_CNT: requests timed out (R243). -/
def DMA_TIMEOUT_CNT : Nat := 0x70044

/-- DMA_LATE_CNT: answers discarded under R221 (R243). -/
def DMA_LATE_CNT : Nat := 0x70048

/-- DMA_RSIG_SKIP_CNT: remote signals not sent (R243). -/
def DMA_RSIG_SKIP_CNT : Nat := 0x7004C

/-- DMA_BYTES: bytes moved; wraps (R243). -/
def DMA_BYTES : Nat := 0x70080

/-- BOOT_MODEL: state of model number m (R245). -/
def BOOT_MODEL : Nat := 0x48000

/-- CTX_CFG: role and timeouts (R283). -/
def CTX_CFG : Nat := 0x70000

/-- CTX_STATUS: slots in use and steps in flight (R283). -/
def CTX_STATUS : Nat := 0x70004

/-- CTX_OVF_CFG: overflow enable and cap (R283). -/
def CTX_OVF_CFG : Nat := 0x70008

/-- CTX_OVF_HELD: held contexts, bits [20:0] (R283). -/
def CTX_OVF_HELD : Nat := 0x7000C

/-- CTX_SVC_BASE: service region, by R248 (R283). -/
def CTX_SVC_BASE : Nat := 0x70010

/-- CTX_ADMIT_CNT: admissions to a slot (R283). -/
def CTX_ADMIT_CNT : Nat := 0x70018

/-- CTX_HELD_CNT: admissions held (R283). -/
def CTX_HELD_CNT : Nat := 0x7001C

/-- CTX_FULL_CNT: CONTEXTS_FULL (R283). -/
def CTX_FULL_CNT : Nat := 0x70020

/-- CTX_OVF_FULL_CNT: OVERFLOW_FULL (R283). -/
def CTX_OVF_FULL_CNT : Nat := 0x70024

/-- CTX_REFUSE_CNT: admissions refused with NOT_PERMITTED (R283). -/
def CTX_REFUSE_CNT : Nat := 0x70028

/-- CTX_SWAP_CNT: swaps (R283). -/
def CTX_SWAP_CNT : Nat := 0x7002C

/-- CTX_OQ_STALL_CNT: steps not taken for output room (R283). -/
def CTX_OQ_STALL_CNT : Nat := 0x70030

/-- CTX_KV_WAIT_CNT: waits for a pool page (R283). -/
def CTX_KV_WAIT_CNT : Nat := 0x70034

/-- CTX_FRAME_WAIT_CNT: waits for a frame or residency slot (R283). -/
def CTX_FRAME_WAIT_CNT : Nat := 0x70038

/-- CTX_STEP_FAIL_CNT: failed steps (R283). -/
def CTX_STEP_FAIL_CNT : Nat := 0x7003C

/-- CTX_REPLAY_CNT: replayed steps (R283). -/
def CTX_REPLAY_CNT : Nat := 0x70040

/-- CTX_NOCAND_CNT: rows with no candidate (R283). -/
def CTX_NOCAND_CNT : Nat := 0x70044

/-- CTX_OUT_LOST_CNT: final records not deliverable (R283). -/
def CTX_OUT_LOST_CNT : Nat := 0x70048

/-- CTX_FOLLOW_REFUSE_CNT: admissions refused as follower (R283). -/
def CTX_FOLLOW_REFUSE_CNT : Nat := 0x7004C

/-- CTX_CFG_IGN_CNT: ignored writes (R283). -/
def CTX_CFG_IGN_CNT : Nat := 0x70050

/-- CTX_MSG_REFUSE_CNT: messages refused by R250 (R283). -/
def CTX_MSG_REFUSE_CNT : Nat := 0x70054

/-- CTX_TOKENS: tokens posted; wraps (R283). -/
def CTX_TOKENS : Nat := 0x70058

/-- CTX_STEPS: steps completed; wraps (R283). -/
def CTX_STEPS : Nat := 0x70060

/-- CTX_GRP: group devices (R283). -/
def CTX_GRP : Nat := 0x70068

/-- CTX_PLIM: slot limit of partition p (R283). -/
def CTX_PLIM : Nat := 0x70100

/-- CTX_PUSE: slots held by partition p, bits [16:0] (R283). -/
def CTX_PUSE : Nat := 0x70180

/-- HUB_STATUS: stack state, rate, temperature level, ring, queues (R309). -/
def HUB_STATUS : Nat := 0x0

/-- HUB_TEMP: stack temperature (R309). -/
def HUB_TEMP : Nat := 0x4

/-- HUB_ADDR_ERR_CNT: address-decode refusals issued by this hub, by R51 (R309). -/
def HUB_ADDR_ERR_CNT : Nat := 0x8

/-- HUB_PART_REFUSE_CNT: refusals of orders 1–2 of R296, and by R289 (R309). -/
def HUB_PART_REFUSE_CNT : Nat := 0xC

/-- HUB_SEAL_REFUSE_CNT: writes refused into sealed pages (R309). -/
def HUB_SEAL_REFUSE_CNT : Nat := 0x10

/-- HUB_CORR_CNT: codewords corrected (R309). -/
def HUB_CORR_CNT : Nat := 0x14

/-- HUB_UNCORR_CNT: uncorrectable or poisoned codewords read (R309). -/
def HUB_UNCORR_CNT : Nat := 0x18

/-- HUB_POISON_WR_CNT: partial writes into poisoned codewords (R309). -/
def HUB_POISON_WR_CNT : Nat := 0x1C

/-- HUB_WB_DROP_CNT: corrected granules not queued for write-back (R309). -/
def HUB_WB_DROP_CNT : Nat := 0x20

/-- HUB_ERR_ADDR: first uncorrectable codeword (R309). -/
def HUB_ERR_ADDR : Nat := 0x28

/-- HUB_ERR_CLR: bit 0 written 1 clears HUB_ERR_ADDR; bits 31:1 RSV (R309). -/
def HUB_ERR_CLR : Nat := 0x30

/-- HUB_SCRUB_CFG: patrol control (R309). -/
def HUB_SCRUB_CFG : Nat := 0x34

/-- HUB_SCRUB_STAT: patrol progress (R309). -/
def HUB_SCRUB_STAT : Nat := 0x38

/-- HUB_SCRUB_LATE_CNT: stretches scrubbed late (R309). -/
def HUB_SCRUB_LATE_CNT : Nat := 0x3C

/-- HUB_CMD_REFUSE_CNT: pointer writes refused (R309). -/
def HUB_CMD_REFUSE_CNT : Nat := 0x40

/-- HUB_CMD_CNT: commands completed (R309). -/
def HUB_CMD_CNT : Nat := 0x44

/-- HUB_CMD_ERR_CNT: commands refused under R302 (R309). -/
def HUB_CMD_ERR_CNT : Nat := 0x48

/-- HUB_RING_DETOUR_CNT: copies sent over the mesh (R309). -/
def HUB_RING_DETOUR_CNT : Nat := 0x4C

/-- HUB_THR_CNT: µs throttled for temperature (R309). -/
def HUB_THR_CNT : Nat := 0x50

/-- HUB_RD_BYTES: bytes read from the stack; wraps (R309). -/
def HUB_RD_BYTES : Nat := 0x58

/-- HUB_WR_BYTES: bytes written to the stack; wraps (R309). -/
def HUB_WR_BYTES : Nat := 0x60

/-- HUB_CMD_PTR: command pointer, by R300 (R309). -/
def HUB_CMD_PTR : Nat := 0x80

/-- HUB_BAND: owners of bands 4q to 4q + 3; last at 0x12FC (R309). -/
def HUB_BAND : Nat := 0x1000

/-- PORT_DEVNUM: device number (R348). -/
def PORT_DEVNUM : Nat := 0x0

/-- PORT_ETH_PFX: MAC prefix in bits [23:0], first byte in [23:16]; bits 31:24 RSV (R348). -/
def PORT_ETH_PFX : Nat := 0x4

/-- PORT_UPMASK: bit p: Pp up, panel-wide; bits 31:16 RSV (R348). -/
def PORT_UPMASK : Nat := 0x8

/-- PORT_ADDR_ERR_CNT: address-decode refusals, by R51 (R348). -/
def PORT_ADDR_ERR_CNT : Nat := 0xC

/-- PORT_DEV_REFUSE_CNT: refusals by R313 and R330 (R348). -/
def PORT_DEV_REFUSE_CNT : Nat := 0x10

/-- PORT_LATE_ANS_CNT: answers matching no tracker entry (R348). -/
def PORT_LATE_ANS_CNT : Nat := 0x14

/-- PORT_CFG_IGN_CNT: ignored writes and bad INIT frames (R348). -/
def PORT_CFG_IGN_CNT : Nat := 0x18

/-- PORT_BCN_IGN_CNT: beacons of another group (R348). -/
def PORT_BCN_IGN_CNT : Nat := 0x1C

/-- PORT_GRP: group configuration (R348). -/
def PORT_GRP : Nat := 0x20

/-- PORT_GRP_LASTEXP: dial time of the last expulsion (R348). -/
def PORT_GRP_LASTEXP : Nat := 0x28

/-- PORT_GRP_ALERT: group alerts (R348). -/
def PORT_GRP_ALERT : Nat := 0x30

/-- PORT_STEP_STALE_CNT: step commands of another epoch (R348). -/
def PORT_STEP_STALE_CNT : Nat := 0x34

/-- PORT_GP_TOTAL: ms counted, by R346; wraps (R348). -/
def PORT_GP_TOTAL : Nat := 0x40

/-- PORT_GP_USEFUL: useful ms; wraps (R348). -/
def PORT_GP_USEFUL : Nat := 0x48

/-- PORT_CFG: port configuration (R348). -/
def PORT_CFG : Nat := 0x100

/-- PORT_PFC: PFC thresholds (R348). -/
def PORT_PFC : Nat := 0x104

/-- PORT_STAT: port state (R348). -/
def PORT_STAT : Nat := 0x108

/-- PORT_DOWN_CNT: moves to down (R348). -/
def PORT_DOWN_CNT : Nat := 0x10C

/-- PORT_CRC_ERR_CNT: frames failing CRC-32 (R348). -/
def PORT_CRC_ERR_CNT : Nat := 0x110

/-- PORT_REPLAY_CNT: go-backs (R348). -/
def PORT_REPLAY_CNT : Nat := 0x114

/-- PORT_DOWN_ANS_CNT: PORT_DOWN answers (R348). -/
def PORT_DOWN_ANS_CNT : Nat := 0x118

/-- PORT_ETH_DROP_CNT: Ethernet frames discarded by R326 (R348). -/
def PORT_ETH_DROP_CNT : Nat := 0x11C

/-- PORT_ETH_TMO_CNT: requests timed out, by R328 (R348). -/
def PORT_ETH_TMO_CNT : Nat := 0x120

/-- PORT_PFC_TX_CNT: PFC frames sent (R348). -/
def PORT_PFC_TX_CNT : Nat := 0x124

/-- PORT_PFC_RX_US: µs paused by the partner (R348). -/
def PORT_PFC_RX_US : Nat := 0x128

/-- PORT_FEC_CORR_CNT: FEC codewords corrected (R348). -/
def PORT_FEC_CORR_CNT : Nat := 0x12C

/-- PORT_FEC_UNCORR_CNT: FEC codewords uncorrectable (R348). -/
def PORT_FEC_UNCORR_CNT : Nat := 0x130

/-- PORT_TX_BYTES: bytes sent; wraps (R348). -/
def PORT_TX_BYTES : Nat := 0x138

/-- PORT_RX_BYTES: bytes received; wraps (R348). -/
def PORT_RX_BYTES : Nat := 0x140

/-- PORT_DEVRT: ports reaching device group g; bits 31:16 RSV (R348). -/
def PORT_DEVRT : Nat := 0x400

/-- PORT_DEVBLK: bit j: device 32k + j blocked; last at 0x6FC (R348). -/
def PORT_DEVBLK : Nat := 0x500

/-- PORT_DEVUNBLK: bit j written 1 clears PORT_DEVBLK bit j; last at 0x8FC (R348). -/
def PORT_DEVUNBLK : Nat := 0x700

/-- PORT_GMEMB: group member i; last at 0x9FC (R348). -/
def PORT_GMEMB : Nat := 0x900

/-- HOST_STATUS: link state (R371). -/
def HOST_STATUS : Nat := 0x90000

/-- HOST_PROT_CNT: host accesses refused, by R354 and R356 (R371). -/
def HOST_PROT_CNT : Nat := 0x90008

/-- HOST_FLR_CNT: FLRs (R371). -/
def HOST_FLR_CNT : Nat := 0x9000C

/-- HOST_RESET_CNT: conventional resets and link downs (R371). -/
def HOST_RESET_CNT : Nat := 0x90010

/-- HOST_CFG_IGN_CNT: ignored binding and segment writes (R371). -/
def HOST_CFG_IGN_CNT : Nat := 0x90014

/-- HOST_FNPART: bit 31 valid; bits [4:0] partition; others RSV (R371). -/
def HOST_FNPART : Nat := 0x90080

/-- HOST_QOWN: byte j owns set 4k + j: bit 7 valid, bits [4:0] function, bits 6:5 RSV (R371). -/
def HOST_QOWN : Nat := 0x91000

/-- HOST_CLAMP_CNT: clamps of set q, by R364 (R371). -/
def HOST_CLAMP_CNT : Nat := 0x94000

/-- HOST_SEG: segment s of function f, by R353; last at 0xFFF0 (R371). -/
def HOST_SEG : Nat := 0x98000

/-- HOST_FN_ID: function and binding (R372). -/
def HOST_FN_ID : Nat := 0x0

/-- HOST_FN_ERR: first refused access (R372). -/
def HOST_FN_ERR : Nat := 0x8

/-- HOST_FN_ERR_CLR: bit 0 written 1 clears HOST_FN_ERR; bits 31:1 RSV (R372). -/
def HOST_FN_ERR_CLR : Nat := 0x10

/-- CLK_CORE_STAT: running code and governing limit (R398). -/
def CLK_CORE_STAT : Nat := 0x80000

/-- CLK_CAP: caps (R398). -/
def CLK_CAP : Nat := 0x80004

/-- CLK_SP_ARMCTL: armed change (R398). -/
def CLK_SP_ARMCTL : Nat := 0x8000C

/-- CLK_SP_ARM: instant T of the armed change (R398). -/
def CLK_SP_ARM : Nat := 0x80010

/-- CLK_DIAL: dial counter of this die; wraps (R398). -/
def CLK_DIAL : Nat := 0x80018

/-- CLK_STRETCH_CNT: stretched cycles (R398). -/
def CLK_STRETCH_CNT : Nat := 0x80020

/-- CLK_HALT_CNT: halted cycles (R398). -/
def CLK_HALT_CNT : Nat := 0x80024

/-- CLK_DROOP_STAT: deepest stretch step since reset (R398). -/
def CLK_DROOP_STAT : Nat := 0x80028

/-- CLK_CAL_ERR: calibration error of the last window (R398). -/
def CLK_CAL_ERR : Nat := 0x8002C

/-- CLK_ESC_STAT: escapements and references (R399). -/
def CLK_ESC_STAT : Nat := 0x10000

/-- CLK_ESC_CMD: bit 0 written 1 commands a handover by R380; bits 31:1 RSV (R399). -/
def CLK_ESC_CMD : Nat := 0x10004

/-- CLK_TAKEOVER_CNT: takeovers and handovers (R399). -/
def CLK_TAKEOVER_CNT : Nat := 0x10008

/-- CLK_REF_LOSS_CNT: reference inputs lost (R399). -/
def CLK_REF_LOSS_CNT : Nat := 0x1000C

/-- CLK_DIAL: dial counter of this crown; wraps (R399). -/
def CLK_DIAL_X : Nat := 0x10010

/-- CLK_SP: panel setpoint in force (R399). -/
def CLK_SP : Nat := 0x10018

/-- CLK_SP_CTL: setpoint change (R399). -/
def CLK_SP_CTL : Nat := 0x1001C

/-- CLK_SP_AT: instant T (R399). -/
def CLK_SP_AT : Nat := 0x10020

/-- CLK_SP_IGN_CNT: ignored setpoint writes (R399). -/
def CLK_SP_IGN_CNT : Nat := 0x10028

/-- CLK_SP_ABORT_CNT: changes aborted at step 3 (R399). -/
def CLK_SP_ABORT_CNT : Nat := 0x1002C

/-- CLK_LAST_TAKEOVER: last takeover (R399). -/
def CLK_LAST_TAKEOVER : Nat := 0x10030

/-- PWR_SITE_STAT: regulator state and phases (R434). -/
def PWR_SITE_STAT : Nat := 0x90000

/-- PWR_SITE_VI: 1 ms voltage, current, power (R434). -/
def PWR_SITE_VI : Nat := 0x90004

/-- PWR_FLOOR: floor and ballast (R434). -/
def PWR_FLOOR : Nat := 0x90008

/-- PWR_GATE_CFG: bits [15:0]: idle µs before gating, 0 never; bits 31:16 RSV (R434). -/
def PWR_GATE_CFG : Nat := 0x9000C

/-- PWR_PHASE_FAIL_CNT: phase failures (R434). -/
def PWR_PHASE_FAIL_CNT : Nat := 0x90010

/-- PWR_SUPPLY_FLT_CNT: halt reports, by R408 (R434). -/
def PWR_SUPPLY_FLT_CNT : Nat := 0x90014

/-- THM_SITE: site temperature and state (R434). -/
def THM_SITE : Nat := 0xA0000

/-- THM_LEHR: lehr control (R434). -/
def THM_LEHR : Nat := 0xA0004

/-- THM_SENS: sensor k (R434). -/
def THM_SENS : Nat := 0xA0010

/-- THM_DISAGREE_CNT: disagreement episodes (R434). -/
def THM_DISAGREE_CNT : Nat := 0xA0030

/-- THM_SENS_BAD_CNT: readings discarded (R434). -/
def THM_SENS_BAD_CNT : Nat := 0xA0034

/-- THM_THROTTLE_US: µs with thm below 0x2C (R434). -/
def THM_THROTTLE_US : Nat := 0xA0038

/-- THM_SHED_CNT: entries to level 5 (R434). -/
def THM_SHED_CNT : Nat := 0xA003C

/-- PWR_IN: bus input (R435). -/
def PWR_IN : Nat := 0x20000

/-- PWR_CAP: bits [15:0]: configured cap, 10 W, 200–1,400; bits 31:16 RSV (R435). -/
def PWR_CAP : Nat := 0x20004

/-- PWR_CAP_EFF: effective cap (R435). -/
def PWR_CAP_EFF : Nat := 0x20008

/-- PWR_PANEL_P: bits [31:16]: highest 10 µs average in the last 1 ms; bits [15:0]: 1 ms average; 10 W units (R435). -/
def PWR_PANEL_P : Nat := 0x2000C

/-- PWR_ENERGY: input energy, mJ; wraps (R435). -/
def PWR_ENERGY : Nat := 0x20010

/-- PWR_ENERGY_T: tenant view, 10 J; wraps (R435). -/
def PWR_ENERGY_T : Nat := 0x20018

/-- PWR_RAMP: bits [23:16] rate, W per µs, 1–18; bits [15:0] burst, W, 0–200; others RSV (R435). -/
def PWR_RAMP : Nat := 0x2001C

/-- PWR_RGN_BUDGET: bits [15:0]: power-on budget, W (R435). -/
def PWR_RGN_BUDGET : Nat := 0x20020

/-- PWR_RAMP_WAIT_CNT: µs of bucket waits (R435). -/
def PWR_RAMP_WAIT_CNT : Nat := 0x20024

/-- PWR_OVER_CNT: cap actions of R416 (R435). -/
def PWR_OVER_CNT : Nat := 0x20028

/-- PWR_PFAIL_CNT: power-fail warnings (R435). -/
def PWR_PFAIL_CNT : Nat := 0x2002C

/-- PWR_CFG_IGN_CNT: ignored writes (R435). -/
def PWR_CFG_IGN_CNT : Nat := 0x20030

/-- PWR_RGN: region converter n (R435). -/
def PWR_RGN : Nat := 0x20040

/-- PWR_EDGE: edge converter e: bits [31:30] as PWR_RGN.state; bits [15:0] W (R435). -/
def PWR_EDGE : Nat := 0x200A0

/-- PWR_RGN_CMD: bit 31: 1 on, 0 off; bits [4:0] region; others RSV (R435). -/
def PWR_RGN_CMD : Nat := 0x200C0

/-- PWR_DOM: bits [31:20] mV, [19:0] mA; d = 0–23 HBM Hd, 24–47 hub d − 24, 48–55 port die d − 48, 56 north crown, 57 south crown (R435). -/
def PWR_DOM : Nat := 0x20200

/-- PWR_FCAST: word k = 0–7 of the last forecast record of R413; c = 0 north, 1 south (R435). -/
def PWR_FCAST : Nat := 0x20300

/-- THM_COOL: flow and temperatures (R435). -/
def THM_COOL : Nat := 0x30000

/-- THM_FLOW_CFG: bits [13:0]: kpl, pulses per litre, 100–10,000; bits 31:14 RSV (R435). -/
def THM_FLOW_CFG : Nat := 0x30008

/-- THM_COOL_ALERT: coolant alerts (R435). -/
def THM_COOL_ALERT : Nat := 0x3000C

/-- THM_COOL_SHED_CNT: abrupt-stop sheds (R435). -/
def THM_COOL_SHED_CNT : Nat := 0x30010

/-- THM_DIE_TRIP_CNT: hardware trips of R423 (R435). -/
def THM_DIE_TRIP_CNT : Nat := 0x30014

/-- THM_EDGE_T: bit 31 a usable pair; bits [15:8] highest, [7:0] last, °C; d = 0–23 hubs, 24–31 port dies, 32 north crown, 33 south crown (R435). -/
def THM_EDGE_T : Nat := 0x30100

/-- BOOT_STATUS: start progress (R462). -/
def BOOT_STATUS : Nat := 0x40000

/-- BOOT_CMD: restarts, retrains, vacate (R462). -/
def BOOT_CMD : Nat := 0x40004

/-- BOOT_CMD_IGN_CNT: commands ignored (R462). -/
def BOOT_CMD_IGN_CNT : Nat := 0x40008

/-- BOOT_ADOPT_CNT: adoptions (R462). -/
def BOOT_ADOPT_CNT : Nat := 0x4000C

/-- BOOT_REPAIR_FAIL_CNT: repairs that faulted their partitions (R462). -/
def BOOT_REPAIR_FAIL_CNT : Nat := 0x40010

/-- BOOT_TEST_REQ: test request (R462). -/
def BOOT_TEST_REQ : Nat := 0x40018

/-- BOOT_TEST_STAT: test queue (R462). -/
def BOOT_TEST_STAT : Nat := 0x40020

/-- BOOT_TEST_REFUSE_CNT: test requests refused (R462). -/
def BOOT_TEST_REFUSE_CNT : Nat := 0x40024

/-- BOOT_TEST_RES: result of the last test (R462). -/
def BOOT_TEST_RES : Nat := 0x40028

/-- BOOT_REC: stage record, by R447; last at 0x5FC (R462). -/
def BOOT_REC : Nat := 0x40100

/-- MGMT_STATUS: compartments and command state (R496). -/
def MGMT_STATUS : Nat := 0x50000

/-- MGMT_RING_STAT: loop and bridge state (R496). -/
def MGMT_RING_STAT : Nat := 0x50004

/-- MGMT_RING_REFUSE_CNT: ring writes refused by R465 (R496). -/
def MGMT_RING_REFUSE_CNT : Nat := 0x50008

/-- MGMT_AUTH_FAIL_CNT: failed authentications (R496). -/
def MGMT_AUTH_FAIL_CNT : Nat := 0x5000C

/-- MGMT_BOOT_ID: boot identity of this start (R496). -/
def MGMT_BOOT_ID : Nat := 0x50010

/-- MGMT_RCMD_CTR: highest accepted ctr (R496). -/
def MGMT_RCMD_CTR : Nat := 0x50018

/-- MGMT_RCMD_STAT: last root command (R496). -/
def MGMT_RCMD_STAT : Nat := 0x50020

/-- MGMT_SVN: anti-rollback floors (R496). -/
def MGMT_SVN : Nat := 0x50028

/-- MGMT_SVC_RESTART_CNT: service restarts by R469 (R496). -/
def MGMT_SVC_RESTART_CNT : Nat := 0x5002C

/-- MGMT_SESS: Hokuid sessions (R496). -/
def MGMT_SESS : Nat := 0x50030

/-- MGMT_PROT_DIGEST: digest of R483, bytes in order (R496). -/
def MGMT_PROT_DIGEST : Nat := 0x50040

/-- MGMT_PART: partition p (R496). -/
def MGMT_PART : Nat := 0x50100

/-- MGMT_CRED: credential entry; last word at 0x9F8 (R496). -/
def MGMT_CRED : Nat := 0x50200

/-- WIN_ENT: window entry, by R232; last word at 0x1FF8 (R244). -/
def WIN_ENT : Nat := 0x80000

/-- WIN_ENT: window entry, by R232; last word at 0x1FF8 (R244). -/
def WIN_ENT_COPY : Nat := 0x40000

/-- WIN_CFG_IGN_CNT: entry writes ignored under R233 (R244). -/
def WIN_CFG_IGN_CNT : Nat := 0x82000

/-- WIN_INVALID_CNT: refusals, order 1 (R244). -/
def WIN_INVALID_CNT : Nat := 0x42010

/-- WIN_CLOSED_CNT: refusals, order 2 (R244). -/
def WIN_CLOSED_CNT : Nat := 0x42014

/-- WIN_GROUP_CNT: refusals, order 3 (R244). -/
def WIN_GROUP_CNT : Nat := 0x42018

/-- WIN_PERM_CNT: refusals, order 4 (R244). -/
def WIN_PERM_CNT : Nat := 0x4201C

/-- WIN_RANGE_CNT: refusals, order 5 (R244). -/
def WIN_RANGE_CNT : Nat := 0x42020

/-- WIN_LAST_REFUSE: last refusal (R244). -/
def WIN_LAST_REFUSE : Nat := 0x42028

/-- ERR_STATUS: log occupancy (R513). -/
def ERR_STATUS_core : Nat := 0xB0000

/-- ERR_ACK: releases records (R513). -/
def ERR_ACK_core : Nat := 0xB0004

/-- ERR_LOST_CNT: records discarded, by R508 (R513). -/
def ERR_LOST_CNT_core : Nat := 0xB0008

/-- ERR_SEC_CNT: single-bit corrections, by R502 (R513). -/
def ERR_SEC_CNT_core : Nat := 0xB000C

/-- ERR_DED_CNT: double-bit detections (R513). -/
def ERR_DED_CNT_core : Nat := 0xB0010

/-- ERR_TBL_CNT: table entries rewritten (R513). -/
def ERR_TBL_CNT_core : Nat := 0xB0014

/-- ERR_SEQ: bits [15:0]: seq of the next record; bits 31:16 RSV (R513). -/
def ERR_SEQ_core : Nat := 0xB0018

/-- ERR_REC: record slot i, by R510; last at 0xFFC (R513). -/
def ERR_REC_core : Nat := 0xB0800

/-- ERR_STATUS: log occupancy (R513). -/
def ERR_STATUS_hub : Nat := 0x50000

/-- ERR_ACK: releases records (R513). -/
def ERR_ACK_hub : Nat := 0x50004

/-- ERR_LOST_CNT: records discarded, by R508 (R513). -/
def ERR_LOST_CNT_hub : Nat := 0x50008

/-- ERR_SEC_CNT: single-bit corrections, by R502 (R513). -/
def ERR_SEC_CNT_hub : Nat := 0x5000C

/-- ERR_DED_CNT: double-bit detections (R513). -/
def ERR_DED_CNT_hub : Nat := 0x50010

/-- ERR_TBL_CNT: table entries rewritten (R513). -/
def ERR_TBL_CNT_hub : Nat := 0x50014

/-- ERR_SEQ: bits [15:0]: seq of the next record; bits 31:16 RSV (R513). -/
def ERR_SEQ_hub : Nat := 0x50018

/-- ERR_REC: record slot i, by R510; last at 0xFFC (R513). -/
def ERR_REC_hub : Nat := 0x50800

/-- ERR_STATUS: log occupancy (R513). -/
def ERR_STATUS_port : Nat := 0x60000

/-- ERR_ACK: releases records (R513). -/
def ERR_ACK_port : Nat := 0x60004

/-- ERR_LOST_CNT: records discarded, by R508 (R513). -/
def ERR_LOST_CNT_port : Nat := 0x60008

/-- ERR_SEC_CNT: single-bit corrections, by R502 (R513). -/
def ERR_SEC_CNT_port : Nat := 0x6000C

/-- ERR_DED_CNT: double-bit detections (R513). -/
def ERR_DED_CNT_port : Nat := 0x60010

/-- ERR_TBL_CNT: table entries rewritten (R513). -/
def ERR_TBL_CNT_port : Nat := 0x60014

/-- ERR_SEQ: bits [15:0]: seq of the next record; bits 31:16 RSV (R513). -/
def ERR_SEQ_port : Nat := 0x60018

/-- ERR_REC: record slot i, by R510; last at 0xFFC (R513). -/
def ERR_REC_port : Nat := 0x60800

/-- ERR_STATUS: log occupancy (R513). -/
def ERR_STATUS_crown : Nat := 0x60000

/-- ERR_ACK: releases records (R513). -/
def ERR_ACK_crown : Nat := 0x60004

/-- ERR_LOST_CNT: records discarded, by R508 (R513). -/
def ERR_LOST_CNT_crown : Nat := 0x60008

/-- ERR_SEC_CNT: single-bit corrections, by R502 (R513). -/
def ERR_SEC_CNT_crown : Nat := 0x6000C

/-- ERR_DED_CNT: double-bit detections (R513). -/
def ERR_DED_CNT_crown : Nat := 0x60010

/-- ERR_TBL_CNT: table entries rewritten (R513). -/
def ERR_TBL_CNT_crown : Nat := 0x60014

/-- ERR_SEQ: bits [15:0]: seq of the next record; bits 31:16 RSV (R513). -/
def ERR_SEQ_crown : Nat := 0x60018

/-- ERR_FLASH_SEQ: records written to the flash log since manufacture; wraps (R513). -/
def ERR_FLASH_SEQ_crown : Nat := 0x60020

/-- ERR_FLASH_WRAP_CNT: flash records overwritten (R513). -/
def ERR_FLASH_WRAP_CNT_crown : Nat := 0x60028

/-- ERR_REC: record slot i, by R510; last at 0xFFC (R513). -/
def ERR_REC_crown : Nat := 0x60800

end Reg

/-- A core's map (class 0x1), part 1. -/
def coreRows1 : List RegRow := [
  ⟨"CORE_SITE", 0, 4, 1, false, .ro, 0, 0⟩,
  ⟨"CORE_STATE", 4, 4, 1, false, .ro, 1, 0⟩,
  ⟨"CORE_CMD", 8, 4, 1, false, .wo, 0, 0xF⟩,
  ⟨"CORE_PART", 0xC, 4, 1, false, .ro, 0, 0⟩,
  ⟨"CORE_FMAX", 0x10, 4, 1, false, .ro, 0, 0⟩,
  ⟨"CORE_CMD_IGN_CNT", 0x14, 4, 1, false, .rc, 0, 0⟩,
  ⟨"CORE_HB_CNT", 0x18, 4, 1, false, .ro, 0, 0⟩,
  ⟨"CORE_CYC", 0x20, 8, 1, true, .ro, 0, 0⟩,
  ⟨"SEQ_STATUS", 0x10000, 4, 1, false, .ro, 0, 0⟩,
  ⟨"SEQ_QUEUES", 0x10004, 4, 1, false, .ro, 0, 0⟩,
  ⟨"SEQ_FAULT", 0x10008, 4, 1, false, .ro, 0, 0⟩,
  ⟨"SEQ_FAULT_CLR", 0x1000C, 4, 1, false, .wo, 0, 1⟩,
  ⟨"SEQ_FAULT_CNT", 0x10010, 4, 1, false, .rc, 0, 0⟩,
  ⟨"SEQ_START_REFUSE_CNT", 0x10014, 4, 1, false, .rc, 0, 0⟩,
  ⟨"SEQ_INBOX_REFUSE_CNT", 0x10018, 4, 1, false, .rc, 0, 0⟩,
  ⟨"SEQ_SEM_REFUSE_CNT", 0x1001C, 4, 1, false, .rc, 0, 0⟩,
  ⟨"SEQ_SEM_SAT_CNT", 0x10020, 4, 1, false, .rc, 0, 0⟩,
  ⟨"SEQ_REMOTE_ERR_CNT", 0x10024, 4, 1, false, .rc, 0, 0⟩,
  ⟨"SEQ_ABORT_CNT", 0x10028, 4, 1, false, .rc, 0, 0⟩,
  ⟨"SEQ_TASK_CNT", 0x1002C, 4, 1, false, .rc, 0, 0⟩,
  ⟨"SEQ_TASK_CYC", 0x10030, 8, 1, true, .ro, 0, 0⟩,
  ⟨"SEQ_G", 0x10100, 8, 32, true, .ro, 0, 0⟩,
  ⟨"SEQ_SEM", 0x10200, 4, 256, false, .ro, 0, 0⟩,
  ⟨"SEQ_SEM_SAT", 0x10600, 4, 8, false, .w1c, 0, 0xFFFFFFFF⟩]

/-- A core's map (class 0x1), part 2. -/
def coreRows2 : List RegRow := [
  ⟨"ME_STATUS", 0x20000, 4, 1, false, .ro, 0, 0⟩,
  ⟨"ME_OP_CNT", 0x20010, 4, 4, false, .rc, 0, 0⟩,
  ⟨"ME_FAULT", 0x20020, 4, 4, false, .ro, 0, 0⟩,
  ⟨"ME_FAULT_CLR", 0x20030, 4, 1, false, .wo, 0, 0xF⟩,
  ⟨"ME_SAT_CNT", 0x20040, 4, 1, false, .rc, 0, 0⟩,
  ⟨"ME_NAN_CNT", 0x20044, 4, 1, false, .rc, 0, 0⟩,
  ⟨"ME_INT_WRAP_CNT", 0x20048, 4, 1, false, .rc, 0, 0⟩,
  ⟨"ME_TBLK_BAD_CNT", 0x2004C, 4, 1, false, .rc, 0, 0⟩,
  ⟨"ME_TBLK_BAD_ADDR", 0x20050, 4, 1, false, .ro, 0, 0⟩,
  ⟨"ME_TBLK_BAD_CLR", 0x20054, 4, 1, false, .wo, 0, 1⟩,
  ⟨"ME_OP_CYC", 0x20060, 4, 4, false, .ro, 0, 0⟩,
  ⟨"VE_STATUS", 0x30000, 4, 1, false, .ro, 0, 0⟩,
  ⟨"VE_OP_CNT", 0x30010, 4, 1, false, .rc, 0, 0⟩,
  ⟨"VE_FAULT", 0x30020, 4, 1, false, .ro, 0, 0⟩,
  ⟨"VE_FAULT_CLR", 0x30030, 4, 1, false, .wo, 0, 1⟩,
  ⟨"VE_SAT_CNT", 0x30040, 4, 1, false, .rc, 0, 0⟩,
  ⟨"VE_NAN_CNT", 0x30044, 4, 1, false, .rc, 0, 0⟩,
  ⟨"VE_PROG_VALID", 0x30048, 4, 1, false, .ro, 0, 0⟩,
  ⟨"VE_OP_CYC", 0x30060, 4, 1, false, .ro, 0, 0⟩,
  ⟨"RU_STATUS", 0x40000, 4, 1, false, .ro, 0, 0⟩,
  ⟨"RU_OP_CNT", 0x40010, 4, 1, false, .rc, 0, 0⟩,
  ⟨"RU_FAULT", 0x40020, 4, 1, false, .ro, 0, 0⟩,
  ⟨"RU_FAULT_CLR", 0x40030, 4, 1, false, .wo, 0, 1⟩,
  ⟨"RU_NAN_CNT", 0x40040, 4, 1, false, .rc, 0, 0⟩]

/-- A core's map (class 0x1), part 3. -/
def coreRows3 : List RegRow := [
  ⟨"RU_TAP_WAIT_CNT", 0x40044, 4, 1, false, .rc, 0, 0⟩,
  ⟨"RU_OP_CYC", 0x40060, 4, 1, false, .ro, 0, 0⟩,
  ⟨"SPAD_STATUS", 0x50000, 4, 1, false, .ro, 0x3804000, 0⟩,
  ⟨"SPAD_GRP_PWR", 0x50004, 4, 1, false, .rw, 0xFFFF, 0xFFFF⟩,
  ⟨"SPAD_GRP_STATE", 0x50008, 4, 1, false, .ro, 0x55555555, 0⟩,
  ⟨"SPAD_ASLEEP_CNT", 0x50010, 4, 1, false, .rc, 0, 0⟩,
  ⟨"SPAD_DRAIN_LATE_CNT", 0x50014, 4, 1, false, .rc, 0, 0⟩,
  ⟨"SPAD_PLAN_MISS_CNT", 0x50018, 4, 1, false, .rc, 0, 0⟩,
  ⟨"SPAD_NOSLOT_CNT", 0x5001C, 4, 1, false, .rc, 0, 0⟩,
  ⟨"SPAD_CFG_IGN_CNT", 0x50020, 4, 1, false, .rc, 0, 0⟩,
  ⟨"SPAD_ACC_MERGE_CNT", 0x50024, 4, 1, false, .rc, 0, 0⟩,
  ⟨"SPAD_ACC_PART_CNT", 0x50028, 4, 1, false, .rc, 0, 0⟩,
  ⟨"SPAD_CORR_CNT", 0x50030, 4, 1, false, .rc, 0, 0⟩,
  ⟨"SPAD_UNCORR_CNT", 0x50034, 4, 1, false, .rc, 0, 0⟩,
  ⟨"SPAD_POISON_WR_CNT", 0x50038, 4, 1, false, .rc, 0, 0⟩,
  ⟨"SPAD_WB_DROP_CNT", 0x5003C, 4, 1, false, .rc, 0, 0⟩,
  ⟨"SPAD_ERR_ADDR", 0x50040, 4, 1, false, .ro, 0, 0⟩,
  ⟨"SPAD_ERR_CLR", 0x50044, 4, 1, false, .wo, 0, 1⟩,
  ⟨"SPAD_SCRUB_CFG", 0x50048, 4, 1, false, .rw, 0x80000E10, 0x8000FFFF⟩,
  ⟨"SPAD_SCRUB_STAT", 0x5004C, 4, 1, false, .ro, 0, 0⟩,
  ⟨"SPAD_SCRUB_LATE_CNT", 0x50050, 4, 1, false, .rc, 0, 0⟩,
  ⟨"SPAD_PLAN", 0x50100, 8, 1, true, .ro, 0x76543210, 0⟩,
  ⟨"SPAD_PLAN", 0x50108, 8, 31, true, .rw, 0, 0xFFFFFFFFFFFFFFFF⟩,
  ⟨"SPAD_PLAN_CTL", 0x50200, 4, 1, false, .ro, 0x80000007, 0⟩]

/-- A core's map (class 0x1), part 4. -/
def coreRows4 : List RegRow := [
  ⟨"SPAD_PLAN_CTL", 0x50204, 4, 31, false, .rw, 0, 0x8000000F⟩,
  ⟨"MESH_STATUS", 0x60000, 4, 1, false, .ro, 0, 0⟩,
  ⟨"MESH_PORTS", 0x60004, 4, 1, false, .ro, 0, 0⟩,
  ⟨"MESH_ADDR_ERR_CNT", 0x60008, 4, 1, false, .rc, 0, 0⟩,
  ⟨"MESH_HDR_ERR_CNT", 0x6000C, 4, 1, false, .rc, 0, 0⟩,
  ⟨"MESH_DROP_CNT", 0x60010, 4, 1, false, .rc, 0, 0⟩,
  ⟨"MESH_UNREACH_CNT", 0x60014, 4, 1, false, .rc, 0, 0⟩,
  ⟨"MESH_PART_REFUSE_CNT", 0x60018, 4, 1, false, .rc, 0, 0⟩,
  ⟨"MESH_MCAST_SKIP_CNT", 0x6001C, 4, 1, false, .rc, 0, 0⟩,
  ⟨"MESH_RED_MISS_CNT", 0x60020, 4, 1, false, .rc, 0, 0⟩,
  ⟨"MESH_RED_MISMATCH_CNT", 0x60024, 4, 1, false, .rc, 0, 0⟩,
  ⟨"MESH_RED_TIMEOUT_CNT", 0x60028, 4, 1, false, .rc, 0, 0⟩,
  ⟨"MESH_RED_FAIL_CNT", 0x6002C, 4, 1, false, .rc, 0, 0⟩,
  ⟨"MESH_RETRY_CNT", 0x60030, 4, 1, false, .rc, 0, 0⟩,
  ⟨"MESH_LANE_REPAIR_CNT", 0x60034, 4, 1, false, .rc, 0, 0⟩,
  ⟨"MESH_RED_CFG", 0x60038, 4, 1, false, .rw, 0x80000064, 0x8000FFFF⟩,
  ⟨"MESH_CFG_IGN_CNT", 0x6003C, 4, 1, false, .rc, 0, 0⟩,
  ⟨"MESH_INJ_CFG", 0x60040, 4, 1, false, .rw, 0, 0xFFFE3FFF⟩,
  ⟨"MESH_INJ_CFG", 0x60044, 4, 1, false, .ro, 0x80000000, 0⟩,
  ⟨"MESH_INJ_CFG", 0x60048, 4, 2, false, .rw, 0, 0xFFFE3FFF⟩,
  ⟨"MESH_THR1_CYC", 0x60060, 4, 1, false, .rc, 0, 0⟩,
  ⟨"MESH_THR1_CYC", 0x60068, 4, 2, false, .rc, 0, 0⟩,
  ⟨"MESH_THR2_CYC", 0x60070, 4, 1, false, .rc, 0, 0⟩,
  ⟨"MESH_THR2_CYC", 0x60078, 4, 2, false, .rc, 0, 0⟩]

/-- A core's map (class 0x1), part 5. -/
def coreRows5 : List RegRow := [
  ⟨"MESH_LINK_UNITS", 0x60080, 8, 8, true, .ro, 0, 0⟩,
  ⟨"MESH_RED", 0x60400, 8, 64, true, .rw, 0, 0xBFFFFFFFC0000000⟩,
  ⟨"MESH_RMAP", 0x61000, 4, 390, false, .rw, 0, 0xFFF80000⟩,
  ⟨"DMA_STATUS", 0x70000, 4, 1, false, .ro, 0, 0⟩,
  ⟨"DMA_CFG", 0x70004, 4, 1, false, .rw, 0x3E8, 0xFFFF⟩,
  ⟨"DMA_DESC_CNT", 0x70010, 4, 4, false, .rc, 0, 0⟩,
  ⟨"DMA_FAULT", 0x70020, 4, 4, false, .ro, 0, 0⟩,
  ⟨"DMA_FAULT_CLR", 0x70030, 4, 1, false, .wo, 0, 0xF⟩,
  ⟨"DMA_ERR_CNT", 0x70040, 4, 1, false, .rc, 0, 0⟩,
  ⟨"DMA_TIMEOUT_CNT", 0x70044, 4, 1, false, .rc, 0, 0⟩,
  ⟨"DMA_LATE_CNT", 0x70048, 4, 1, false, .rc, 0, 0⟩,
  ⟨"DMA_RSIG_SKIP_CNT", 0x7004C, 4, 1, false, .rc, 0, 0⟩,
  ⟨"DMA_BYTES", 0x70080, 8, 4, true, .ro, 0, 0⟩,
  ⟨"CLK_CORE_STAT", 0x80000, 4, 1, false, .ro, 0x88400000, 0⟩,
  ⟨"CLK_CAP", 0x80004, 4, 1, false, .rw, 0xB2C02C, 0x3F⟩,
  ⟨"CLK_SP_ARMCTL", 0x8000C, 4, 1, false, .rw, 0, 0xC000003F⟩,
  ⟨"CLK_SP_ARM", 0x80010, 8, 1, true, .rw, 0, 0xFFFFFFFFFFFFFFFF⟩,
  ⟨"CLK_DIAL", 0x80018, 8, 1, true, .ro, 0, 0⟩,
  ⟨"CLK_STRETCH_CNT", 0x80020, 4, 1, false, .rc, 0, 0⟩,
  ⟨"CLK_HALT_CNT", 0x80024, 4, 1, false, .rc, 0, 0⟩,
  ⟨"CLK_DROOP_STAT", 0x80028, 4, 1, false, .ro, 0, 0⟩,
  ⟨"CLK_CAL_ERR", 0x8002C, 4, 1, false, .ro, 0, 0⟩,
  ⟨"PWR_SITE_STAT", 0x90000, 4, 1, false, .ro, 0, 0⟩,
  ⟨"PWR_SITE_VI", 0x90004, 4, 1, false, .ro, 0, 0⟩]

/-- A core's map (class 0x1), part 6. -/
def coreRows6 : List RegRow := [
  ⟨"PWR_FLOOR", 0x90008, 4, 1, false, .rw, 0, 0xFF⟩,
  ⟨"PWR_GATE_CFG", 0x9000C, 4, 1, false, .rw, 0x3E8, 0xFFFF⟩,
  ⟨"PWR_PHASE_FAIL_CNT", 0x90010, 4, 1, false, .rc, 0, 0⟩,
  ⟨"PWR_SUPPLY_FLT_CNT", 0x90014, 4, 1, false, .rc, 0, 0⟩,
  ⟨"THM_SITE", 0xA0000, 4, 1, false, .ro, 0, 0⟩,
  ⟨"THM_LEHR", 0xA0004, 4, 1, false, .rw, 0x80413700, 0x80FFFF00⟩,
  ⟨"THM_SENS", 0xA0010, 4, 6, false, .ro, 0, 0⟩,
  ⟨"THM_DISAGREE_CNT", 0xA0030, 4, 1, false, .rc, 0, 0⟩,
  ⟨"THM_SENS_BAD_CNT", 0xA0034, 4, 1, false, .rc, 0, 0⟩,
  ⟨"THM_THROTTLE_US", 0xA0038, 4, 1, false, .rc, 0, 0⟩,
  ⟨"THM_SHED_CNT", 0xA003C, 4, 1, false, .rc, 0, 0⟩,
  ⟨"ERR_STATUS", 0xB0000, 4, 1, false, .ro, 0, 0⟩,
  ⟨"ERR_ACK", 0xB0004, 4, 1, false, .wo, 0, 0x7F⟩,
  ⟨"ERR_LOST_CNT", 0xB0008, 4, 1, false, .rc, 0, 0⟩,
  ⟨"ERR_SEC_CNT", 0xB000C, 4, 1, false, .rc, 0, 0⟩,
  ⟨"ERR_DED_CNT", 0xB0010, 4, 1, false, .rc, 0, 0⟩,
  ⟨"ERR_TBL_CNT", 0xB0014, 4, 1, false, .rc, 0, 0⟩,
  ⟨"ERR_SEQ", 0xB0018, 4, 1, false, .ro, 0, 0⟩,
  ⟨"ERR_REC", 0xB0800, 4, 512, false, .ro, 0, 0⟩]

/-- A core's map (class 0x1). -/
def coreMap : List RegRow := coreRows1 ++ coreRows2 ++ coreRows3 ++ coreRows4 ++ coreRows5 ++ coreRows6

/-- The registers of this map whose reset value is not zero. -/
def coreResets : List (Nat × Nat) := [
  (0x4, 0x1), (0x50000, 0x3804000), (0x50004, 0xFFFF), (0x50008, 0x55555555), (0x50048, 0x80000E10), (0x50100, 0x76543210), (0x50200, 0x80000007), (0x60038, 0x80000064), (0x60044, 0x80000000), (0x70004, 0x3E8), (0x80000, 0x88400000), (0x80004, 0xB2C02C), (0x9000C, 0x3E8), (0xA0004, 0x80413700)]

/-- A hub die's map (class 0x3), part 1. -/
def hubRows1 : List RegRow := [
  ⟨"HUB_STATUS", 0, 4, 1, false, .ro, 0x40000000, 0⟩,
  ⟨"HUB_TEMP", 4, 4, 1, false, .ro, 0, 0⟩,
  ⟨"HUB_ADDR_ERR_CNT", 8, 4, 1, false, .rc, 0, 0⟩,
  ⟨"HUB_PART_REFUSE_CNT", 0xC, 4, 1, false, .rc, 0, 0⟩,
  ⟨"HUB_SEAL_REFUSE_CNT", 0x10, 4, 1, false, .rc, 0, 0⟩,
  ⟨"HUB_CORR_CNT", 0x14, 4, 1, false, .rc, 0, 0⟩,
  ⟨"HUB_UNCORR_CNT", 0x18, 4, 1, false, .rc, 0, 0⟩,
  ⟨"HUB_POISON_WR_CNT", 0x1C, 4, 1, false, .rc, 0, 0⟩,
  ⟨"HUB_WB_DROP_CNT", 0x20, 4, 1, false, .rc, 0, 0⟩,
  ⟨"HUB_ERR_ADDR", 0x28, 8, 1, true, .ro, 0, 0⟩,
  ⟨"HUB_ERR_CLR", 0x30, 4, 1, false, .wo, 0, 1⟩,
  ⟨"HUB_SCRUB_CFG", 0x34, 4, 1, false, .rw, 0x80001518, 0x8000FFFF⟩,
  ⟨"HUB_SCRUB_STAT", 0x38, 4, 1, false, .ro, 0, 0⟩,
  ⟨"HUB_SCRUB_LATE_CNT", 0x3C, 4, 1, false, .rc, 0, 0⟩,
  ⟨"HUB_CMD_REFUSE_CNT", 0x40, 4, 1, false, .rc, 0, 0⟩,
  ⟨"HUB_CMD_CNT", 0x44, 4, 1, false, .rc, 0, 0⟩,
  ⟨"HUB_CMD_ERR_CNT", 0x48, 4, 1, false, .rc, 0, 0⟩,
  ⟨"HUB_RING_DETOUR_CNT", 0x4C, 4, 1, false, .rc, 0, 0⟩,
  ⟨"HUB_THR_CNT", 0x50, 4, 1, false, .rc, 0, 0⟩,
  ⟨"HUB_RD_BYTES", 0x58, 8, 1, true, .ro, 0, 0⟩,
  ⟨"HUB_WR_BYTES", 0x60, 8, 1, true, .ro, 0, 0⟩,
  ⟨"HUB_CMD_PTR", 0x80, 8, 1, true, .wo, 0, 0xFFFFFFFFFFFFFF⟩,
  ⟨"HUB_BAND", 0x1000, 4, 192, false, .rw, 0, 0xFFFFFFFF⟩,
  ⟨"ERR_STATUS", 0x50000, 4, 1, false, .ro, 0, 0⟩]

/-- A hub die's map (class 0x3), part 2. -/
def hubRows2 : List RegRow := [
  ⟨"ERR_ACK", 0x50004, 4, 1, false, .wo, 0, 0x7F⟩,
  ⟨"ERR_LOST_CNT", 0x50008, 4, 1, false, .rc, 0, 0⟩,
  ⟨"ERR_SEC_CNT", 0x5000C, 4, 1, false, .rc, 0, 0⟩,
  ⟨"ERR_DED_CNT", 0x50010, 4, 1, false, .rc, 0, 0⟩,
  ⟨"ERR_TBL_CNT", 0x50014, 4, 1, false, .rc, 0, 0⟩,
  ⟨"ERR_SEQ", 0x50018, 4, 1, false, .ro, 0, 0⟩,
  ⟨"ERR_REC", 0x50800, 4, 512, false, .ro, 0, 0⟩]

/-- A hub die's map (class 0x3). -/
def hubMap : List RegRow := hubRows1 ++ hubRows2

/-- The registers of this map whose reset value is not zero. -/
def hubResets : List (Nat × Nat) := [
  (0x0, 0x40000000), (0x34, 0x80001518)]

/-- A port die's map (class 0x4), part 1. -/
def portRows1 : List RegRow := [
  ⟨"PORT_DEVNUM", 0, 4, 1, false, .rw, 0, 0x80000FFF⟩,
  ⟨"PORT_ETH_PFX", 4, 4, 1, false, .rw, 0x24E48, 0xFFFFFF⟩,
  ⟨"PORT_UPMASK", 8, 4, 1, false, .ro, 0, 0⟩,
  ⟨"PORT_ADDR_ERR_CNT", 0xC, 4, 1, false, .rc, 0, 0⟩,
  ⟨"PORT_DEV_REFUSE_CNT", 0x10, 4, 1, false, .rc, 0, 0⟩,
  ⟨"PORT_LATE_ANS_CNT", 0x14, 4, 1, false, .rc, 0, 0⟩,
  ⟨"PORT_CFG_IGN_CNT", 0x18, 4, 1, false, .rc, 0, 0⟩,
  ⟨"PORT_BCN_IGN_CNT", 0x1C, 4, 1, false, .rc, 0, 0⟩,
  ⟨"PORT_GRP", 0x20, 8, 1, true, .rw, 0, 0xF000FFFFFFFF7FFF⟩,
  ⟨"PORT_GRP_LASTEXP", 0x28, 8, 1, true, .ro, 0, 0⟩,
  ⟨"PORT_GRP_ALERT", 0x30, 4, 1, false, .ro, 0, 0⟩,
  ⟨"PORT_STEP_STALE_CNT", 0x34, 4, 1, false, .rc, 0, 0⟩,
  ⟨"PORT_GP_TOTAL", 0x40, 8, 1, true, .ro, 0, 0⟩,
  ⟨"PORT_GP_USEFUL", 0x48, 8, 1, true, .ro, 0, 0⟩,
  ⟨"PORT_CFG", 0x100, 128, 2, false, .rw, 0x70004C8, 0xFFFFFCFF⟩,
  ⟨"PORT_PFC", 0x104, 128, 2, false, .rw, 0x6000400, 0xFFFFFFFF⟩,
  ⟨"PORT_STAT", 0x108, 128, 2, false, .ro, 0x40000000, 0⟩,
  ⟨"PORT_DOWN_CNT", 0x10C, 128, 2, false, .rc, 0, 0⟩,
  ⟨"PORT_CRC_ERR_CNT", 0x110, 128, 2, false, .rc, 0, 0⟩,
  ⟨"PORT_REPLAY_CNT", 0x114, 128, 2, false, .rc, 0, 0⟩,
  ⟨"PORT_DOWN_ANS_CNT", 0x118, 128, 2, false, .rc, 0, 0⟩,
  ⟨"PORT_ETH_DROP_CNT", 0x11C, 128, 2, false, .rc, 0, 0⟩,
  ⟨"PORT_ETH_TMO_CNT", 0x120, 128, 2, false, .rc, 0, 0⟩,
  ⟨"PORT_PFC_TX_CNT", 0x124, 128, 2, false, .rc, 0, 0⟩]

/-- A port die's map (class 0x4), part 2. -/
def portRows2 : List RegRow := [
  ⟨"PORT_PFC_RX_US", 0x128, 128, 2, false, .rc, 0, 0⟩,
  ⟨"PORT_FEC_CORR_CNT", 0x12C, 128, 2, false, .rc, 0, 0⟩,
  ⟨"PORT_FEC_UNCORR_CNT", 0x130, 128, 2, false, .rc, 0, 0⟩,
  ⟨"PORT_TX_BYTES", 0x138, 128, 2, true, .ro, 0, 0⟩,
  ⟨"PORT_RX_BYTES", 0x140, 128, 2, true, .ro, 0, 0⟩,
  ⟨"PORT_DEVRT", 0x400, 4, 64, false, .rw, 0xFFFF, 0xFFFF⟩,
  ⟨"PORT_DEVBLK", 0x500, 4, 128, false, .w1s, 0, 0xFFFFFFFF⟩,
  ⟨"PORT_DEVUNBLK", 0x700, 4, 128, false, .wo, 0, 0xFFFFFFFF⟩,
  ⟨"PORT_GMEMB", 0x900, 4, 64, false, .rw, 0, 0xFC000FFF⟩,
  ⟨"WIN_ENT", 0x40000, 8, 1024, true, .ro, 0, 0⟩,
  ⟨"WIN_INVALID_CNT", 0x42010, 4, 1, false, .rc, 0, 0⟩,
  ⟨"WIN_CLOSED_CNT", 0x42014, 4, 1, false, .rc, 0, 0⟩,
  ⟨"WIN_GROUP_CNT", 0x42018, 4, 1, false, .rc, 0, 0⟩,
  ⟨"WIN_PERM_CNT", 0x4201C, 4, 1, false, .rc, 0, 0⟩,
  ⟨"WIN_RANGE_CNT", 0x42020, 4, 1, false, .rc, 0, 0⟩,
  ⟨"WIN_LAST_REFUSE", 0x42028, 8, 1, true, .ro, 0, 0⟩,
  ⟨"ERR_STATUS", 0x60000, 4, 1, false, .ro, 0, 0⟩,
  ⟨"ERR_ACK", 0x60004, 4, 1, false, .wo, 0, 0x7F⟩,
  ⟨"ERR_LOST_CNT", 0x60008, 4, 1, false, .rc, 0, 0⟩,
  ⟨"ERR_SEC_CNT", 0x6000C, 4, 1, false, .rc, 0, 0⟩,
  ⟨"ERR_DED_CNT", 0x60010, 4, 1, false, .rc, 0, 0⟩,
  ⟨"ERR_TBL_CNT", 0x60014, 4, 1, false, .rc, 0, 0⟩,
  ⟨"ERR_SEQ", 0x60018, 4, 1, false, .ro, 0, 0⟩,
  ⟨"ERR_REC", 0x60800, 4, 512, false, .ro, 0, 0⟩]

/-- A port die's map (class 0x4). -/
def portMap : List RegRow := portRows1 ++ portRows2

/-- Registers whose reset value is not zero, part 1. -/
def portResets1 : List (Nat × Nat) := [
  (0x4, 0x24E48), (0x100, 0x70004C8), (0x104, 0x6000400), (0x108, 0x40000000), (0x180, 0x70004C8), (0x184, 0x6000400), (0x188, 0x40000000), (0x400, 0xFFFF), (0x404, 0xFFFF), (0x408, 0xFFFF), (0x40C, 0xFFFF), (0x410, 0xFFFF), (0x414, 0xFFFF), (0x418, 0xFFFF), (0x41C, 0xFFFF), (0x420, 0xFFFF), (0x424, 0xFFFF), (0x428, 0xFFFF), (0x42C, 0xFFFF), (0x430, 0xFFFF), (0x434, 0xFFFF), (0x438, 0xFFFF), (0x43C, 0xFFFF), (0x440, 0xFFFF), (0x444, 0xFFFF), (0x448, 0xFFFF), (0x44C, 0xFFFF), (0x450, 0xFFFF), (0x454, 0xFFFF), (0x458, 0xFFFF)]

/-- Registers whose reset value is not zero, part 2. -/
def portResets2 : List (Nat × Nat) := [
  (0x45C, 0xFFFF), (0x460, 0xFFFF), (0x464, 0xFFFF), (0x468, 0xFFFF), (0x46C, 0xFFFF), (0x470, 0xFFFF), (0x474, 0xFFFF), (0x478, 0xFFFF), (0x47C, 0xFFFF), (0x480, 0xFFFF), (0x484, 0xFFFF), (0x488, 0xFFFF), (0x48C, 0xFFFF), (0x490, 0xFFFF), (0x494, 0xFFFF), (0x498, 0xFFFF), (0x49C, 0xFFFF), (0x4A0, 0xFFFF), (0x4A4, 0xFFFF), (0x4A8, 0xFFFF), (0x4AC, 0xFFFF), (0x4B0, 0xFFFF), (0x4B4, 0xFFFF), (0x4B8, 0xFFFF), (0x4BC, 0xFFFF), (0x4C0, 0xFFFF), (0x4C4, 0xFFFF), (0x4C8, 0xFFFF), (0x4CC, 0xFFFF), (0x4D0, 0xFFFF)]

/-- Registers whose reset value is not zero, part 3. -/
def portResets3 : List (Nat × Nat) := [
  (0x4D4, 0xFFFF), (0x4D8, 0xFFFF), (0x4DC, 0xFFFF), (0x4E0, 0xFFFF), (0x4E4, 0xFFFF), (0x4E8, 0xFFFF), (0x4EC, 0xFFFF), (0x4F0, 0xFFFF), (0x4F4, 0xFFFF), (0x4F8, 0xFFFF), (0x4FC, 0xFFFF)]

/-- The registers of this map whose reset value is not zero. -/
def portResets : List (Nat × Nat) := portResets1 ++ portResets2 ++ portResets3

/-- A crown's map (class 0x5), part 1. -/
def crownRows1 : List RegRow := [
  ⟨"PANEL_ID", 0, 4, 1, false, .ro, 0, 0⟩,
  ⟨"PANEL_GRID", 4, 4, 1, false, .ro, 0, 0⟩,
  ⟨"PANEL_STACK_MAP", 8, 4, 1, false, .ro, 0, 0⟩,
  ⟨"PANEL_PORT_MAP", 0xC, 4, 1, false, .ro, 0, 0⟩,
  ⟨"PANEL_ADDR_ERR_CNT", 0x20, 4, 1, false, .rc, 0, 0⟩,
  ⟨"PANEL_BADACC_CNT", 0x24, 4, 1, false, .rc, 0, 0⟩,
  ⟨"PANEL_AGENT", 0x100, 4, 24, false, .ro, 0, 0⟩,
  ⟨"PANEL_SITE_MAP", 0x1000, 4, 336, false, .ro, 0, 0⟩,
  ⟨"PANEL_LMAP", 0x2000, 4, 320, false, .ro, 0, 0⟩,
  ⟨"BOOT_MODEL", 0x48000, 8, 16, true, .ro, 0, 0⟩,
  ⟨"CTX_CFG", 0x70000, 4, 1, false, .rw, 0xA6400, 0xC0FFFF00⟩,
  ⟨"CTX_STATUS", 0x70004, 4, 1, false, .ro, 0, 0⟩,
  ⟨"CTX_OVF_CFG", 0x70008, 4, 1, false, .rw, 0x80100000, 0x801FFFFF⟩,
  ⟨"CTX_OVF_HELD", 0x7000C, 4, 1, false, .ro, 0, 0⟩,
  ⟨"CTX_SVC_BASE", 0x70010, 8, 1, true, .rw, 0, 0xFFFFFFFFFFFFFFFF⟩,
  ⟨"CTX_ADMIT_CNT", 0x70018, 4, 1, false, .rc, 0, 0⟩,
  ⟨"CTX_HELD_CNT", 0x7001C, 4, 1, false, .rc, 0, 0⟩,
  ⟨"CTX_FULL_CNT", 0x70020, 4, 1, false, .rc, 0, 0⟩,
  ⟨"CTX_OVF_FULL_CNT", 0x70024, 4, 1, false, .rc, 0, 0⟩,
  ⟨"CTX_REFUSE_CNT", 0x70028, 4, 1, false, .rc, 0, 0⟩,
  ⟨"CTX_SWAP_CNT", 0x7002C, 4, 1, false, .rc, 0, 0⟩,
  ⟨"CTX_OQ_STALL_CNT", 0x70030, 4, 1, false, .rc, 0, 0⟩,
  ⟨"CTX_KV_WAIT_CNT", 0x70034, 4, 1, false, .rc, 0, 0⟩,
  ⟨"CTX_FRAME_WAIT_CNT", 0x70038, 4, 1, false, .rc, 0, 0⟩]

/-- A crown's map (class 0x5), part 2. -/
def crownRows2 : List RegRow := [
  ⟨"CTX_STEP_FAIL_CNT", 0x7003C, 4, 1, false, .rc, 0, 0⟩,
  ⟨"CTX_REPLAY_CNT", 0x70040, 4, 1, false, .rc, 0, 0⟩,
  ⟨"CTX_NOCAND_CNT", 0x70044, 4, 1, false, .rc, 0, 0⟩,
  ⟨"CTX_OUT_LOST_CNT", 0x70048, 4, 1, false, .rc, 0, 0⟩,
  ⟨"CTX_FOLLOW_REFUSE_CNT", 0x7004C, 4, 1, false, .rc, 0, 0⟩,
  ⟨"CTX_CFG_IGN_CNT", 0x70050, 4, 1, false, .rc, 0, 0⟩,
  ⟨"CTX_MSG_REFUSE_CNT", 0x70054, 4, 1, false, .rc, 0, 0⟩,
  ⟨"CTX_TOKENS", 0x70058, 8, 1, true, .ro, 0, 0⟩,
  ⟨"CTX_STEPS", 0x70060, 8, 1, true, .ro, 0, 0⟩,
  ⟨"CTX_GRP", 0x70068, 8, 1, true, .rw, 0, 0x800FFFFFF0000000⟩,
  ⟨"CTX_PLIM", 0x70100, 4, 32, false, .rw, 0x10000, 0x1FFFF⟩,
  ⟨"CTX_PUSE", 0x70180, 4, 32, false, .ro, 0, 0⟩,
  ⟨"HOST_STATUS", 0x90000, 4, 1, false, .ro, 0, 0⟩,
  ⟨"HOST_PROT_CNT", 0x90008, 4, 1, false, .rc, 0, 0⟩,
  ⟨"HOST_FLR_CNT", 0x9000C, 4, 1, false, .rc, 0, 0⟩,
  ⟨"HOST_RESET_CNT", 0x90010, 4, 1, false, .rc, 0, 0⟩,
  ⟨"HOST_CFG_IGN_CNT", 0x90014, 4, 1, false, .rc, 0, 0⟩,
  ⟨"HOST_FNPART", 0x90080, 4, 32, false, .rw, 0, 0x8000001F⟩,
  ⟨"HOST_QOWN", 0x91000, 4, 1024, false, .rw, 0, 0x9F9F9F9F⟩,
  ⟨"HOST_CLAMP_CNT", 0x94000, 4, 4096, false, .rc, 0, 0⟩,
  ⟨"HOST_SEG", 0x98000, 8, 4096, true, .rw, 0, 0xFFFFFFFFFFFFFFFF⟩,
  ⟨"CLK_ESC_STAT", 0x10000, 4, 1, false, .ro, 0, 0⟩,
  ⟨"CLK_ESC_CMD", 0x10004, 4, 1, false, .wo, 0, 1⟩,
  ⟨"CLK_TAKEOVER_CNT", 0x10008, 4, 1, false, .rc, 0, 0⟩]

/-- A crown's map (class 0x5), part 3. -/
def crownRows3 : List RegRow := [
  ⟨"CLK_REF_LOSS_CNT", 0x1000C, 4, 1, false, .rc, 0, 0⟩,
  ⟨"CLK_DIAL", 0x10010, 8, 1, true, .ro, 0, 0⟩,
  ⟨"CLK_SP", 0x10018, 4, 1, false, .ro, 0x8000022, 0⟩,
  ⟨"CLK_SP_CTL", 0x1001C, 4, 1, false, .rw, 0x8000022, 0xF800003F⟩,
  ⟨"CLK_SP_AT", 0x10020, 8, 1, true, .rw, 0, 0xFFFFFFFFFFFFFFFF⟩,
  ⟨"CLK_SP_IGN_CNT", 0x10028, 4, 1, false, .rc, 0, 0⟩,
  ⟨"CLK_SP_ABORT_CNT", 0x1002C, 4, 1, false, .rc, 0, 0⟩,
  ⟨"CLK_LAST_TAKEOVER", 0x10030, 8, 1, true, .ro, 0, 0⟩,
  ⟨"PWR_IN", 0x20000, 4, 1, false, .ro, 0, 0⟩,
  ⟨"PWR_CAP", 0x20004, 4, 1, false, .rw, 0x578, 0xFFFF⟩,
  ⟨"PWR_CAP_EFF", 0x20008, 4, 1, false, .ro, 0x578, 0⟩,
  ⟨"PWR_PANEL_P", 0x2000C, 4, 1, false, .ro, 0, 0⟩,
  ⟨"PWR_ENERGY", 0x20010, 8, 1, true, .ro, 0, 0⟩,
  ⟨"PWR_ENERGY_T", 0x20018, 4, 1, false, .ro, 0, 0⟩,
  ⟨"PWR_RAMP", 0x2001C, 4, 1, false, .rw, 0x1200C8, 0xFFFFFF⟩,
  ⟨"PWR_RGN_BUDGET", 0x20020, 4, 1, false, .rw, 0xC8, 0xFFFF⟩,
  ⟨"PWR_RAMP_WAIT_CNT", 0x20024, 4, 1, false, .rc, 0, 0⟩,
  ⟨"PWR_OVER_CNT", 0x20028, 4, 1, false, .rc, 0, 0⟩,
  ⟨"PWR_PFAIL_CNT", 0x2002C, 4, 1, false, .rc, 0, 0⟩,
  ⟨"PWR_CFG_IGN_CNT", 0x20030, 4, 1, false, .rc, 0, 0⟩,
  ⟨"PWR_RGN", 0x20040, 4, 24, false, .ro, 0, 0⟩,
  ⟨"PWR_EDGE", 0x200A0, 4, 8, false, .ro, 0, 0⟩,
  ⟨"PWR_RGN_CMD", 0x200C0, 4, 1, false, .wo, 0, 0x8000001F⟩,
  ⟨"PWR_DOM", 0x20200, 4, 58, false, .ro, 0, 0⟩]

/-- A crown's map (class 0x5), part 4. -/
def crownRows4 : List RegRow := [
  ⟨"PWR_FCAST", 0x20300, 4, 16, false, .ro, 0, 0⟩,
  ⟨"THM_COOL", 0x30000, 4, 1, false, .ro, 0, 0⟩,
  ⟨"THM_FLOW_CFG", 0x30008, 4, 1, false, .rw, 0x3E8, 0x3FFF⟩,
  ⟨"THM_COOL_ALERT", 0x3000C, 4, 1, false, .ro, 0, 0⟩,
  ⟨"THM_COOL_SHED_CNT", 0x30010, 4, 1, false, .rc, 0, 0⟩,
  ⟨"THM_DIE_TRIP_CNT", 0x30014, 4, 1, false, .rc, 0, 0⟩,
  ⟨"THM_EDGE_T", 0x30100, 4, 34, false, .ro, 0, 0⟩,
  ⟨"BOOT_STATUS", 0x40000, 4, 1, false, .ro, 0x10000000, 0⟩,
  ⟨"BOOT_CMD", 0x40004, 4, 1, false, .wo, 0, 0xF8001F0F⟩,
  ⟨"BOOT_CMD_IGN_CNT", 0x40008, 4, 1, false, .rc, 0, 0⟩,
  ⟨"BOOT_ADOPT_CNT", 0x4000C, 4, 1, false, .rc, 0, 0⟩,
  ⟨"BOOT_REPAIR_FAIL_CNT", 0x40010, 4, 1, false, .rc, 0, 0⟩,
  ⟨"BOOT_TEST_REQ", 0x40018, 8, 1, true, .wo, 0, 0xF8000000FFFF1FEF⟩,
  ⟨"BOOT_TEST_STAT", 0x40020, 4, 1, false, .ro, 0, 0⟩,
  ⟨"BOOT_TEST_REFUSE_CNT", 0x40024, 4, 1, false, .rc, 0, 0⟩,
  ⟨"BOOT_TEST_RES", 0x40028, 8, 1, true, .ro, 0, 0⟩,
  ⟨"BOOT_REC", 0x40100, 4, 320, false, .ro, 0, 0⟩,
  ⟨"MGMT_STATUS", 0x50000, 4, 1, false, .ro, 0, 0⟩,
  ⟨"MGMT_RING_STAT", 0x50004, 4, 1, false, .ro, 0, 0⟩,
  ⟨"MGMT_RING_REFUSE_CNT", 0x50008, 4, 1, false, .rc, 0, 0⟩,
  ⟨"MGMT_AUTH_FAIL_CNT", 0x5000C, 4, 1, false, .rc, 0, 0⟩,
  ⟨"MGMT_BOOT_ID", 0x50010, 8, 1, true, .ro, 0, 0⟩,
  ⟨"MGMT_RCMD_CTR", 0x50018, 8, 1, true, .ro, 0, 0⟩,
  ⟨"MGMT_RCMD_STAT", 0x50020, 8, 1, true, .ro, 0, 0⟩]

/-- A crown's map (class 0x5), part 5. -/
def crownRows5 : List RegRow := [
  ⟨"MGMT_SVN", 0x50028, 4, 1, false, .ro, 0, 0⟩,
  ⟨"MGMT_SVC_RESTART_CNT", 0x5002C, 4, 1, false, .rc, 0, 0⟩,
  ⟨"MGMT_SESS", 0x50030, 4, 1, false, .ro, 0, 0⟩,
  ⟨"MGMT_PROT_DIGEST", 0x50040, 8, 4, true, .ro, 0, 0⟩,
  ⟨"MGMT_PART", 0x50100, 8, 32, true, .rw, 0, 0xFFFFFFFFFFFFFFFF⟩,
  ⟨"MGMT_CRED", 0x50200, 8, 256, true, .rw, 0, 0xFFFFFFFFFFFFFFFF⟩,
  ⟨"WIN_ENT", 0x80000, 8, 1024, true, .rw, 0, 0xFFFFFFFFFFFFFFFF⟩,
  ⟨"WIN_CFG_IGN_CNT", 0x82000, 4, 1, false, .rc, 0, 0⟩,
  ⟨"ERR_STATUS", 0x60000, 4, 1, false, .ro, 0, 0⟩,
  ⟨"ERR_ACK", 0x60004, 4, 1, false, .wo, 0, 0x7F⟩,
  ⟨"ERR_LOST_CNT", 0x60008, 4, 1, false, .rc, 0, 0⟩,
  ⟨"ERR_SEC_CNT", 0x6000C, 4, 1, false, .rc, 0, 0⟩,
  ⟨"ERR_DED_CNT", 0x60010, 4, 1, false, .rc, 0, 0⟩,
  ⟨"ERR_TBL_CNT", 0x60014, 4, 1, false, .rc, 0, 0⟩,
  ⟨"ERR_SEQ", 0x60018, 4, 1, false, .ro, 0, 0⟩,
  ⟨"ERR_FLASH_SEQ", 0x60020, 8, 1, true, .ro, 0, 0⟩,
  ⟨"ERR_FLASH_WRAP_CNT", 0x60028, 4, 1, false, .rc, 0, 0⟩,
  ⟨"ERR_REC", 0x60800, 4, 512, false, .ro, 0, 0⟩]

/-- A crown's map (class 0x5). -/
def crownMap : List RegRow := crownRows1 ++ crownRows2 ++ crownRows3 ++ crownRows4 ++ crownRows5

/-- Registers whose reset value is not zero, part 1. -/
def crownResets1 : List (Nat × Nat) := [
  (0x10018, 0x8000022), (0x1001C, 0x8000022), (0x20004, 0x578), (0x20008, 0x578), (0x2001C, 0x1200C8), (0x20020, 0xC8), (0x30008, 0x3E8), (0x40000, 0x10000000), (0x70000, 0xA6400), (0x70008, 0x80100000), (0x70100, 0x10000), (0x70104, 0x10000), (0x70108, 0x10000), (0x7010C, 0x10000), (0x70110, 0x10000), (0x70114, 0x10000), (0x70118, 0x10000), (0x7011C, 0x10000), (0x70120, 0x10000), (0x70124, 0x10000), (0x70128, 0x10000), (0x7012C, 0x10000), (0x70130, 0x10000), (0x70134, 0x10000), (0x70138, 0x10000), (0x7013C, 0x10000), (0x70140, 0x10000), (0x70144, 0x10000), (0x70148, 0x10000), (0x7014C, 0x10000)]

/-- Registers whose reset value is not zero, part 2. -/
def crownResets2 : List (Nat × Nat) := [
  (0x70150, 0x10000), (0x70154, 0x10000), (0x70158, 0x10000), (0x7015C, 0x10000), (0x70160, 0x10000), (0x70164, 0x10000), (0x70168, 0x10000), (0x7016C, 0x10000), (0x70170, 0x10000), (0x70174, 0x10000), (0x70178, 0x10000), (0x7017C, 0x10000)]

/-- The registers of this map whose reset value is not zero. -/
def crownResets : List (Nat × Nat) := crownResets1 ++ crownResets2

/-- A function's BAR0, ahead of its queue sets (R372), part 1. -/
def bar0Rows1 : List RegRow := [
  ⟨"HOST_FN_ID", 0, 4, 1, false, .ro, 0, 0⟩,
  ⟨"HOST_FN_ERR", 8, 8, 1, true, .ro, 0, 0⟩,
  ⟨"HOST_FN_ERR_CLR", 0x10, 4, 1, false, .wo, 0, 1⟩]

/-- A function's BAR0, ahead of its queue sets (R372). -/
def bar0Map : List RegRow := bar0Rows1

/-- One queue set, at offsets within the set (R357), part 1. -/
def bar0qRows1 : List RegRow := [
  ⟨"HOST_QCTL", 0, 4, 1, false, .rw, 0, 0xFF0FFFE0⟩,
  ⟨"HOST_QMOD", 4, 4, 1, false, .rw, 0x101, 0xFFFF⟩,
  ⟨"HOST_QSQ", 8, 8, 1, true, .rw, 0, 0xFFFFFFFFFFFFFFFF⟩,
  ⟨"HOST_QRCQ", 0x10, 8, 1, true, .rw, 0, 0xFFFFFFFFFFFFFFFF⟩,
  ⟨"HOST_QTCQ", 0x18, 8, 1, true, .rw, 0, 0xFFFFFFFFFFFFFFFF⟩,
  ⟨"HOST_QTW", 0x20, 8, 1, true, .rw, 0, 0xFFFFFFFFFFFFFFFF⟩,
  ⟨"HOST_QSTAT", 0x28, 8, 1, true, .ro, 0, 0⟩]

/-- One queue set, at offsets within the set (R357). -/
def bar0qMap : List RegRow := bar0qRows1

end Sys2Proof.Machine
end

