-- ==== Sys2Proof/Machine/State.lean ====
section
/-! DEFINITION. The state of the panel: every register, queue, buffer, counter and mode that the spec gives it, as
plain data, and the queue of commands that wait. Registers without a field of their own stand in the register file of
their die, keyed by their offset in the die's map of R54; a register that shows a field of the state (SEQ_STATUS,
ERR_STATUS, ...) is computed when it is read, so that each datum has one home. -/

namespace Sys2Proof.Machine

/-- A sparse map: keys strictly rising, an unlisted key holds the map's default. -/
abbrev Sparse (α : Type) := List (Nat × α)

/-- A register file: offsets of R54 against values, an unlisted register holds zero. -/
abbrev RegFile := Sparse W64

/-! ### Codewords and packets -/

/-- A codeword of R497: 32 data bytes, 4 check bytes, and the poison bit that travels with it (R153, R187). -/
structure Codeword where
  data : List Byte
  chk : List Byte
  poison : Bool
  deriving DecidableEq, Repr

/-- The header fields of R179. -/
structure Header where
  opcode : Nat := 0
  vc : Nat := 0
  len : Nat := 0
  bytes : Nat := 0
  sedge : Nat := 0
  sc : Nat := 0
  sr : Nat := 0
  dc : Nat := 0
  dr : Nat := 0
  dedge : Nat := 0
  turn : Nat := 0
  cmask : Nat := 0
  rmask : Nat := 0
  ga : Nat := 0
  seq : Nat := 0
  rtag : Nat := 0
  rtype : Nat := 0
  part : Nat := 0
  status : Nat := 0
  weight : Nat := 0
  sem : Nat := 0
  semen : Nat := 0
  mkind : Nat := 0
  mtag : Nat := 0
  sval : Nat := 0
  hcrc : Nat := 0
  deriving DecidableEq, Repr

/-- A mesh packet (R179): a header and its payload units. -/
structure Packet where
  hdr : Header := {}
  units : List Codeword := []
  sent : List Nat := []            -- outputs that already have their copy of a multicast (R200)
  deriving DecidableEq, Repr

/-! ### Memories -/

/-- A memory of codewords: data bytes, check bytes (keyed 4 × codeword + j) and the poison bits (R153, R290). Both cell
lists are canonical: addresses strictly rising, no entry equal to zero, which is what an unlisted address reads as. The
poisoned codewords stand in rising order. -/
structure Mem where
  cells : List Host.Cell := []
  chk : List Host.Cell := []
  poison : List Nat := []
  deriving DecidableEq, Repr

/-! ### The task sequencer (R63–R84) -/

/-- The core states of R60. -/
inductive CoreState
  | test
  | idle
  | run
  | paused
  | draining
  | halted
  deriving DecidableEq, Repr

/-- A start entry of R64. -/
structure StartEntry where
  tag : Nat := 0
  report : Bool := false
  plan : Nat := 0
  part : Nat := 0
  length : Nat := 0        -- words minus 1
  offset : Nat := 0
  ry : Nat := 0
  rx : Nat := 0
  rkind : Nat := 0
  args : List W64 := []    -- arg1 to arg8
  deriving DecidableEq, Repr

/-- A message held in the inbox (R80, R78). -/
structure InboxMsg where
  tag : Nat
  sx : Nat
  sy : Nat
  kind : Nat               -- 0 core, 1 north crown, 2 south crown, 3 management ring
  payload : List Byte
  deriving DecidableEq, Repr

/-- A task word in the task-word cache: its 128 bits, and the status with which the copy read it when that is a failing
one (R174). -/
structure TaskWord where
  bits : BitVec 128 := 0
  bad : Option Nat := none
  deriving DecidableEq, Repr

/-- An active loop (R74): body first and last word, iterations in all, index of the current iteration, and its gi. -/
structure LoopRec where
  first : Nat
  last : Nat
  count : Nat
  index : Nat
  gi : Nat
  deriving DecidableEq, Repr

/-- A fault that a unit has reported to the sequencer (R84, cause 0x9): the word that queued the work and the status. -/
structure UnitFault where
  pc : Nat
  opcode : Nat
  status : Nat
  deriving DecidableEq, Repr

/-- The task that the sequencer runs. -/
structure Task where
  entry : StartEntry := {}
  copying : Bool := true           -- the task list is being copied (R65)
  words : List TaskWord := []      -- the task-word cache
  pc : Nat := 0
  loops : List LoopRec := []       -- innermost first
  status : Option Nat := none      -- first failing status of R66
  plan : W64 := 0                  -- owners of the plan in force (R163)
  planLen : Nat := 7               -- L − 1
  planNum : Nat := 0
  waitFrom : Option Nat := none    -- dial time since which the head word waits with its fence satisfied (R78)
  unitFault : Option UnitFault := none
  deriving DecidableEq, Repr

/-- A remote operation that awaits its COMPLETION (R75, R82). -/
structure RemoteOp where
  seq : Nat
  own : Bool := true               -- of the task that runs; false once that task has ended
  deriving DecidableEq, Repr

/-- The task sequencer. -/
structure Seq where
  state : CoreState := .test
  g : Sparse W64 := []             -- g1 to g31; g0 is never listed (R67)
  sem : Sparse W32 := []           -- semaphores 0–255
  starts : List StartEntry := []
  inbox : List InboxMsg := []
  task : Option Task := none
  remote : List RemoteOp := []
  reports : List Nat := []         -- sequence numbers of reports that await their COMPLETION
  lastRemote : Nat := 0
  aborting : Bool := false         -- an ABORT waits for accepted work (R61)
  idleSince : Nat := 0             -- dial time since which no task has run (R409)
  gated : Bool := false            -- engines clock-gated (R409)
  deriving DecidableEq, Repr

/-! ### Engines -/

/-- A queue entry of R75: the operation, its three bases, and what its DISPATCH word asked. -/
structure QOp where
  op : BitVec 80 := 0
  a : W64 := 0
  b : W64 := 0
  c : W64 := 0
  sig : Bool := false
  sem : Nat := 0
  pc : Nat := 0
  opcode : Nat := 4
  deriving DecidableEq, Repr

/-- An operation that has started and whose results stand, with the status it completes with. -/
structure RunOp where
  q : QOp := {}
  status : Nat := 0
  cycles : Nat := 0                -- count of R117, R142 or R149
  deriving DecidableEq, Repr

/-- A matrix engine (R105, R115). Tile word (t, r, c) has key 8192 t + 128 r + c. -/
structure MatEng where
  queue : List QOp := []
  array : Option RunOp := none
  xfer : Option RunOp := none
  tiles : Sparse W32 := []
  deriving DecidableEq, Repr

/-- A running EMAP: before its map descriptor has been read (`read` false), or after. -/
structure MapRun where
  q : QOp := {}
  read : Bool := false
  tap : Bool := false              -- paired with the running RU operation
  ranges : List (Nat × Nat × Bool) := []  -- register-file bytes: start, length, written
  status : Nat := 0
  cycles : Nat := 0
  deriving DecidableEq, Repr

/-- The vector engine (R123–R126). -/
structure VecEng where
  queue : List QOp := []
  map : Option MapRun := none
  xfer : Option RunOp := none
  vregs : List Host.Cell := []     -- the 64 KiB register file, canonical as memory is
  progs : Sparse (List W32) := []  -- valid program slots
  deriving DecidableEq, Repr

/-- The reduction unit (R143). A tapped operation has its `read` false until the EMAP beside it has run. -/
structure RedUnit where
  queue : List QOp := []
  run : Option RunOp := none
  tapped : Bool := false
  deriving DecidableEq, Repr

/-! ### Scratchpad (R153–R178) -/

/-- What a staged packet does at its rows (R169). -/
inductive StageKind
  | write
  | acc (type : Nat)
  | read
  deriving DecidableEq, Repr

/-- One row entry of ingress staging (R169): the packet it belongs to, its row, what it brings, and its progress. -/
structure StageEntry where
  pid : Nat                        -- number of the packet, in arrival order
  kind : StageKind
  hdr : Header
  ret : Nat := 0                   -- return address of a READ_REQ
  row : Nat                        -- row index, offset div 256
  first : Nat                      -- first enabled offset of this packet in the row
  last : Nat                       -- one past the last enabled offset in the row
  bytes : List (Option (Byte × Bool)) := []  -- the row's 256 bytes as written: enabled, with its unit's badness
  corr : Bool := false             -- a unit for this row was corrected on arrival
  bad : Bool := false              -- a unit for this row was uncorrectable or poisoned
  units : List Codeword := []      -- codewords read, for a READ_REQ
  turned : Bool := false           -- the read turn of an accumulate has been performed
  status : Option Nat := none      -- set once performed
  deriving DecidableEq, Repr

/-- An accumulate buffer (R167): bank, row, and the row's codewords as they stand. -/
structure AccBuf where
  bank : Nat
  row : Nat
  pid : Nat
  cws : List Codeword
  deriving DecidableEq, Repr

/-- A reshape in progress (R172). -/
structure Reshape where
  mask : Nat
  since : Nat
  settled : Bool := false          -- supplies have settled and the rows are cleared
  deriving DecidableEq, Repr

/-- The scratchpad of a core. -/
structure Spad where
  mem : Mem := {}
  staging : List StageEntry := []
  nextPid : Nat := 0
  acc : List AccBuf := []
  awake : Nat := 0xFFFF            -- awake groups
  reshape : Option Reshape := none
  wbq : List Nat := []             -- rows queued for write-back
  patrolRow : Nat := 0             -- bank row the patrol is reading
  patrolDone : List Nat := []      -- banks already read in this bank row
  passes : Nat := 0
  deriving DecidableEq, Repr

/-! ### Router (R179–R212) -/

/-- The hop layer of one mesh port (R186–R191). -/
structure LinkState where
  state : Nat := 0                 -- 0 absent, 1 up, 2 degraded, 3 down
  modules : Nat := 0               -- active modules
  rxSeq : Nat := 0                 -- sequence number of the next flit expected
  rxCount : Nat := 0               -- flits accepted since the last acknowledgement
  rxNak : Bool := false            -- a NAK has been sent and the flit it names has not arrived
  rxSlots : List (Nat × Codeword) := []  -- slots of a packet not yet whole
  txSeq : Nat := 0                 -- sequence number of the next flit sent
  replay : List (Nat × List (Nat × Codeword)) := []  -- unacknowledged flits
  nakAt : Option Nat := none       -- a NAK received, naming this flit
  credit : Sparse (Nat × Nat) := []  -- units and packets of credit that control slots have returned, by VC
  held : Option (Nat × Nat) := none -- module and lane under lane repair
  deriving DecidableEq, Repr

/-- The open round of a reduction entry (R203). -/
structure RedRound where
  ga : Nat
  bytes : Nat
  turn : Nat
  dc : Nat
  dr : Nat
  seq : Nat
  arrived : Nat
  weight : Nat
  sem : Nat
  semen : Nat
  since : Nat
  units : List Codeword            -- the combining buffer
  deriving DecidableEq, Repr

/-- The router of a core. Input buffer (i, vc) has key 4 i + vc, with i = 8 for local injection. -/
structure Router where
  inq : Sparse (List Packet) := []
  link : Sparse LinkState := []
  rounds : Sparse RedRound := []
  mapped : Bool := false
  level : Sparse Nat := []         -- throttle level by VC
  deriving DecidableEq, Repr

/-! ### DMA channels (R213–R230) -/

/-- A DMA queue entry (R75): descriptor offset, and the word that queued it. -/
structure DmaQ where
  off : Nat
  pc : Nat := 0
  deriving DecidableEq, Repr

/-- A descriptor that a channel has taken (R213, R214). -/
structure DescRun where
  id : Nat                         -- number of the descriptor on its channel
  off : Nat
  pc : Nat := 0
  words : List W64 := []           -- words 0–6
  faulted : Bool := false          -- R230
  started : Bool := false          -- its kind has started
  pieces : Nat := 0                -- pieces in all
  issued : Nat := 0                -- pieces issued
  row : Nat := 0                   -- row of the next piece
  pos : Nat := 0                   -- and its first byte in the row
  corr : Bool := false             -- a piece ended with DONE_CORRECTED
  fails : Sparse Nat := []         -- failing status of each failed piece
  targets : Nat := 0               -- targets of a multicast
  early : Option Nat := none       -- status that ends the descriptor before any access (R219)
  rsigSent : Bool := false         -- its remote signal has been sent
  deriving DecidableEq, Repr

/-- A tracking entry of R215 and R221. -/
structure Track where
  seq : Nat
  desc : Nat                       -- the descriptor's number
  piece : Nat
  bytes : Nat
  since : Nat
  isRead : Bool
  left : Nat := 1                  -- answers still awaited (multicast)
  status : Nat := 0                -- status so far
  rsig : Bool := false
  deriving DecidableEq, Repr

/-- One DMA channel. -/
structure DmaCh where
  queue : List DmaQ := []
  cur : Option DescRun := none     -- the descriptor that issues
  waiting : List DescRun := []     -- issued, not complete, oldest first
  nextId : Nat := 0
  track : Sparse Track := []
  uses : Sparse Nat := []          -- how often each tracking entry has been reused
  deriving DecidableEq, Repr

/-! ### Error logs (R508–R511) -/

/-- A record of R510, without its CRC, which is computed when it is read. -/
structure ErrRec where
  dial : Nat
  cls : Nat
  level : Nat
  dtype : Nat
  dindex : Nat
  c : Nat
  r : Nat
  unit : Nat
  status : Nat
  addr : Nat
  part : Nat
  count : Nat
  seq : Nat
  deriving DecidableEq, Repr

/-- The error log of a die: held records, oldest first, the slot of the oldest and the number of the next. -/
structure ErrLog where
  recs : List ErrRec := []
  head : Nat := 0
  seq : Nat := 0
  deriving DecidableEq, Repr

/-! ### Contexts (R246–R283) -/

/-- A context entry (R251), with what the engine notes of it besides. -/
structure CtxEntry where
  state : Nat := 0                 -- 0 free, 1 admitted, 2 active, 3 parked, 4 held, 5 draining
  part : Nat := 0
  model : Nat := 0
  prio : Nat := 0
  solo : Bool := false
  role : Nat := 0
  held : Bool := false
  oqf : Bool := false
  odev : Nat := 0
  handle : Nat := 0
  pos : Nat := 0
  last : Nat := 0
  gen : Nat := 0
  maxtok : Nat := 0
  rgran : Nat := 0
  kvroot : Nat := 0
  resmask : Nat := 0
  plen : Nat := 0
  rslot : Nat := 0xFFFF
  oq : Nat := 0
  side : Nat := 0
  temp : Nat := 0
  topp : Nat := 0
  minp : Nat := 0
  rpen : Nat := 0
  topk : Nat := 0
  specd : Nat := 0
  quantum : Nat := 0
  slice : Nat := 0
  seed : Nat := 0
  deadline : Nat := 0
  draft : Nat := 0
  specacc : Nat := 0
  tAdmit : Nat := 0
  tFirst : Nat := 0
  tStep : Nat := 0
  swaps : Nat := 0
  oqstall : Nat := 0
  swapped : Bool := false          -- the next token is the first after a swap-in (R274)
  replay : Bool := false           -- records are flagged `replay` until the next commit (R264, R280)
  cancel : Bool := false           -- a cancellation waits for the step boundary (R273)
  failing : Option Nat := none     -- a failure waits for the step boundary: its status
  waiting : Bool := false          -- waits for a pool page (R268)
  deriving DecidableEq, Repr

/-- Where the context of a live handle stands. -/
inductive Place
  | slot (n : Nat)
  | held (j : Nat)
  deriving DecidableEq, Repr

/-- A word of the handle map (R247): the generation last given out, and where a live context stands. -/
structure HandleEnt where
  gen : Nat := 0
  live : Option Place := none
  deriving DecidableEq, Repr

/-- A page of a context (R267): its pool page, and its frame while it is resident. -/
structure KvPage where
  pool : Nat
  frame : Option Nat := none
  deriving DecidableEq, Repr

/-- The pages of a context: the page-table page and the pages by number. -/
structure KvPages where
  model : Nat
  root : Nat
  pages : Sparse KvPage := []
  deriving DecidableEq, Repr

/-- A core entry of a model descriptor (R259). -/
structure DescCore where
  x : Nat
  y : Nat
  roles : Nat
  plan : Nat
  offset : Nat
  length : Nat
  list : Nat
  deriving DecidableEq, Repr

/-- A node of a tree template (R259). -/
structure TreeNode where
  parent : Nat
  rank : Nat
  deriving DecidableEq, Repr

/-- A model descriptor (R259). -/
structure ModelDesc where
  vocab : Nat
  maxctx : Nat
  nlist : Nat
  bmax : Nat                       -- contexts, 1–256
  inflight : Nat
  eos : List Nat
  ptok : Nat
  pchunk : Nat
  nres : Nat
  frames : Nat
  kvbase : Nat
  ftbase : Nat
  brec : Nat
  brsz : Nat
  rlist : Nat
  rsz : Nat
  kvpool : Nat
  npool : Nat
  estep : Nat
  cores : List DescCore
  tree : List TreeNode
  deriving DecidableEq, Repr

/-- An entry of a section table (R235). -/
structure SectEnt where
  type : Nat
  plan : Nat
  x : Nat
  y : Nat
  target : Nat
  hbm : Nat
  length : Nat
  zero : Bool                      -- every reserved byte is zero
  deriving DecidableEq, Repr

/-- Who sent a request: a queue set, with the number of its enabling, and its function; or a Hokuid session (R360, R480). -/
inductive ReqSrc
  | set (q gen fn : Nat)
  | session (c : Crown) (n tag : Nat)
  deriving DecidableEq, Repr

/-- A request of R360 that has been fetched or submitted. -/
structure Req where
  src : ReqSrc
  part : Option Nat                -- its partition; none for an unbound function
  bytes : List Byte
  deriving DecidableEq, Repr

/-- A model number (R240, R245). -/
structure Model where
  state : Nat := 0                 -- 0 free, 1 receiving, 2 checking, 3 writing, 4 ready, 5 failed, 6 unloading
  part : Nat := 0
  cause : Nat := 0
  status : Nat := 0
  image : Nat := 0                 -- stack-local address of the header
  header : List Byte := []
  table : List SectEnt := []
  desc : Option ModelDesc := none
  red : List (Nat × Nat) := []     -- reduction entries that the load wrote: site and entry
  since : Nat := 0                 -- dial time at which the wait for the target cores began
  applied : Bool := false          -- every section has been streamed to its core
  byFn : Option Nat := none        -- the host function that began the load
  req : Option Req := none         -- the LOAD request that awaits its completion
  programs : List Byte := []       -- measurements of R238
  weights : List Byte := []
  stopped : Bool := false          -- no START: a repair or an adoption runs (R280, R344)
  stepTime : Option Nat := none    -- the last step's time in ns (R411)
  stepsMs : Sparse Nat := []       -- steps completed since the last forecast, by engine (R282)
  deriving DecidableEq, Repr

/-- A context of a step's batch, as the step took it. -/
structure BatchEnt where
  handle : Nat
  pos : Nat
  ntok : Nat
  rows : Nat                       -- rows sampled
  row : Nat                        -- first result row
  nodes : List Nat := []           -- tree nodes of its rows, in row order (0 the root)
  moves : List (Nat × Nat) := []   -- compact: source and target positions
  deriving DecidableEq, Repr

/-- A sampled row (R269): the token, its logprob and flag, and the sorted candidates after top-k. -/
structure Sampled where
  token : Nat
  logprob : Nat
  approx : Bool
  cands : List Nat := []
  none' : Bool := false            -- no candidate remained
  deriving DecidableEq, Repr

/-- A step in flight (R260–R264). -/
structure Step where
  num : Nat
  model : Nat
  slot : Nat
  kind : Nat                       -- 0 prefill, 1 decode, 2 verify, 3 draft, 4 compact
  batch : List BatchEnt := []
  replay : Bool := false           -- its records are flagged `replay`
  second : Bool := false           -- this is the second run
  again : Bool := false            -- the first run has failed; the second has yet to start
  restored : Bool := false         -- rows that the first run found bad have been restored, or cannot be (R505)
  began : Nat := 0
  sentAt : Nat := 0                -- dial time of the last START
  cores : List Nat := []           -- core numbers of the list
  reported : List (Nat × Nat) := []  -- core number and status
  workers : List Nat := []         -- group indices whose step report is awaited
  wfail : Option Nat := none       -- failing status of a worker
  reading : Bool := false          -- every core has reported; rows are being read and sampled
  asked : Bool := false            -- the row reads have been sent
  lists : Sparse (List Byte) := [] -- key 512 × row + list index
  sampled : List Sampled := []     -- rows sampled so far
  reports : Nat := 0               -- a follower's step: 1 report owed to the manager
  command : List Byte := []        -- the step command of a follower's step
  failed : Option Nat := none      -- first failing status met by its packets
  deriving DecidableEq, Repr

/-- A speculative round of a target context (R277, R278). -/
structure Round where
  target : Nat
  depth : Nat := 1                 -- draft depth to run next
  tokens : Sparse Nat := []        -- token of each node drafted
  accepted : List Nat := []        -- accepted nodes, in order
  samples : Sparse Sampled := []   -- row n: sample of node n
  stage : Nat := 0                 -- 0 draft, 1 verify, 2 compact of the target, 3 compact of the draft
  deriving DecidableEq, Repr

/-- A message held in a context engine's queue (R250). -/
structure CtxMsg where
  tag : Nat
  sc : Nat
  sr : Nat
  sedge : Nat
  part : Nat
  payload : List Byte
  deriving DecidableEq, Repr

/-- What a crown's own request is for. -/
inductive CrownUse
  | start (step core : Nat)
  | record (step : Nat)                     -- a batch record
  | row (step key : Nat)                    -- a result row of a shard core
  | group (id : Nat)                        -- a group message
  | tokens (queue : Nat)                    -- a message of token records
  | barWrite (fn id : Nat)
  | barRead (fn id piece : Nat)
  deriving DecidableEq, Repr

/-- A packet that a crown has yet to inject. -/
structure OutPkt where
  seq : Nat
  bulk : Bool := false             -- crown bulk traffic (R39)
  hdr : Header
  units : List Codeword
  deriving DecidableEq, Repr

/-- A group message awaiting its answer or its resend (R336). -/
structure GroupMsg where
  id : Nat
  dev : Nat
  tag : Nat
  payload : List Byte
  resendAt : Option Nat := none
  commit : Option Nat := none      -- a mirror update that a commit of this handle waits for (R338)
  deriving DecidableEq, Repr

/-- A token record due to a fabric queue (R339). -/
structure FabRec where
  part : Nat
  handle : Nat
  bytes : List Byte
  deriving DecidableEq, Repr

/-- A fabric queue of token records, keyed 4096 × device + queue (R339). -/
structure FabQueue where
  recs : List FabRec := []         -- unanswered, oldest first; those of the message sent stand in front
  sent : Nat := 0                  -- records of the message that awaits its answer
  resendAt : Option Nat := none    -- when that message may be sent again
  deriving DecidableEq, Repr

/-- Records of a commit that wait for the mirror (R276). -/
structure Commit where
  handle : Nat
  recs : List (List Byte)
  standby : Nat := 0               -- mirror updates of the standby still unanswered
  deriving DecidableEq, Repr

/-! ### Host port (R349–R372) -/

/-- A queue set (R356–R359). -/
structure QueueSet where
  on : Bool := false
  busy : Bool := false
  gen : Nat := 0                   -- how often it has been enabled
  regs : RegFile := []             -- its registers, by offset
  sqTail : Nat := 0
  sqh : Nat := 0
  rcqt : Nat := 0
  rcqHead : Nat := 0
  tcqt : Nat := 0
  tcqHead : Nat := 0
  fetched : Nat := 0               -- requests fetched and not yet completed
  due : List (List Byte) := []     -- completions to write
  tdue : List (List Byte) := []    -- token records to write
  unsig : Nat := 0                 -- TCQ records written and not yet signalled
  unsigAt : Nat := 0
  downAt : Nat := 0                -- dial time at which the set was last disabled
  deriving DecidableEq, Repr

/-- A BAR4 read in flight (R354). -/
structure BarRead where
  id : Nat
  since : Nat
  off : Nat
  len : Nat
  left : Nat
  data : Sparse (List Byte) := []
  poison : Bool := false
  status : Option Nat := none
  deriving DecidableEq, Repr

/-- A doorbell that waits for earlier BAR4 writes (R355): the write it waits for, which doorbell, set and value. -/
structure HeldBell where
  after : Nat
  which : Nat                      -- 0 SQ tail, 1 RCQ head, 2 TCQ head
  set : Nat
  value : Nat
  deriving DecidableEq, Repr

/-- A host function. -/
structure HostFnSt where
  regs : RegFile := []             -- BAR0 registers ahead of the queue sets (R372)
  latch : List (Requester × Nat × Nat) := []
  nextId : Nat := 0
  writes : List (Nat × Nat × Nat × Nat) := []  -- WRITE packets unanswered: id, packets left, segment, offset
  reads : List BarRead := []
  bells : List HeldBell := []
  shut : List Nat := []            -- segments closed by a protection change (R486)
  deriving DecidableEq, Repr

/-! ### Dies -/

/-- The clock of a core beside its registers: the setpoint that it follows, and when a raised cap takes effect (R388, R389). -/
structure CoreClk where
  sp : Nat := 0x22
  raiseAt : Option Nat := none
  faulted : Bool := false          -- the running halt has been reported (R385)
  deriving DecidableEq, Repr

/-- The disagreement of a hot spot's pair (R421): flagged or not, and since when the readings have said the opposite. -/
structure HotSpot where
  flag : Bool := false
  since : Option Nat := none
  deriving DecidableEq, Repr

/-- What the supervisor notes of a site's temperature and load (R411, R421, R422, R426). -/
structure SiteHeat where
  seenAt : Sparse Nat := []        -- dial time of the last reading in range, by sensor
  spots : Sparse HotSpot := []
  stepAt : Nat := 0                -- dial time at which `thm` last moved by one code
  hotSince : Option Nat := none    -- at level 5 since
  slowSince : Option Nat := none   -- `thm` below 0x2C, counted up to this dial time
  lehr : Nat := 0                  -- lehr load in quarters of a watt
  lehrAt : Nat := 0
  load : Nat := 0                  -- load other than ballast at the last sample, mW
  deriving DecidableEq, Repr

/-- A core site: its compute and store die (R58, R153). -/
structure Core where
  powered : Bool := false
  regs : RegFile := []
  latch : List (Requester × Nat × Nat) := []  -- high halves latched by R14: requester, offset, value
  seq : Seq := {}
  me : Sparse MatEng := []
  ve : VecEng := {}
  ru : RedUnit := {}
  spad : Spad := {}
  rt : Router := {}
  dma : Sparse DmaCh := []
  arr : Sparse (List Packet) := []   -- packets delivered to this core, by VC, oldest first
  log : ErrLog := {}
  hbSent : Nat := 0                  -- dial time of the last heartbeat sent
  hbHeard : Nat := 0                 -- dial time of the last heartbeat that an agent or crown took
  hbAcked : Nat := 0                 -- dial time of the last acknowledged heartbeat
  hbToCrown : Bool := false          -- heartbeats go to the crown (R46)
  haltSince : Option Nat := none     -- dial time at which the supply halt began (R385)
  clk : CoreClk := {}
  heat : SiteHeat := {}
  staged : Option W64 := none        -- CORE_PART staged for a protection change (R485)
  snap : RegFile := []               -- counters at the last 100 ms boundary of dial time (R494)
  deriving DecidableEq, Repr

/-- A hub command in one of the four places of R300. -/
structure HubCmd where
  order : Nat                      -- place in queue order
  ptr : Nat
  part : Nat
  crown : Bool                     -- the pointer came in a crown packet
  sent : Bool := false             -- its read has been sent
  words : List W64 := []           -- words 0–7 once read
  started : Bool := false
  ended : Bool := false            -- nothing of its work is left to do
  status : Nat := 0
  corr : Nat := 0
  way : Nat := 0                   -- 0 within the stack, 1 clockwise, 2 the other way round, 3 over the mesh
  next : Nat := 0                  -- codewords moved
  total : Nat := 0                 -- codewords in all
  waits : Nat := 0                 -- answers awaited
  word7 : Nat := 0                 -- 0 not written, 1 its write has been sent, 2 written
  deriving DecidableEq, Repr

/-- A request of a hub that awaits its answer: sequence number, place of the command, and what it is for. -/
structure HubReq where
  seq : Nat
  slot : Nat
  use : Nat                        -- 0 command read, 1 data, 2 word 7, 3 notification
  deriving DecidableEq, Repr

/-- A codeword or an acknowledgement on the hub ring (R305). -/
structure RingItem where
  src : Nat
  dst : Nat
  slot : Nat                       -- place of the command at its source
  index : Nat := 0                 -- codeword number in the destination stack
  cw : Codeword
  last : Bool := false
  ack : Bool := false
  deriving DecidableEq, Repr

/-- An extent armed for digesting (R238–R240): the header and table of an image, or a section of it. -/
structure Section where
  model : Nat
  index : Option Nat               -- section number; none for header and table
  start : Nat
  length : Nat
  done : Nat := 0                  -- bytes written in order
  writer : Option (Nat × Nat × Nat) := none
  broken : Bool := false
  digest : Option (List Byte) := none
  deriving DecidableEq, Repr

/-- A hub die and its stack (R284–R309). -/
structure Hub where
  lost : Bool := false             -- the hub die itself is lost
  stack : Nat := 1                 -- 0 absent, 1 training, 2 up, 3 lost
  slow : Bool := false             -- the stack runs at 6.4 Gb/s
  regs : RegFile := []
  latch : List (Requester × Nat × Nat) := []
  mem : Mem := {}                  -- poison is held in the check bytes (R290)
  seals : List (Nat × Nat × Nat) := []  -- sealed pages: first, last, model
  sections : List Section := []
  wbq : List Nat := []             -- granules queued for write-back
  patrol : Nat := 0                -- granule that the patrol reads next
  passes : Nat := 0
  badTimes : List (Nat × Nat) := []  -- uncorrectable codewords of the last ms: dial time and pseudo-channel
  temps : List Nat := []           -- the last two readings, newest first
  tempAt : Nat := 0                -- dial time of the last reading
  shut : List Nat := []            -- bands closed by a protection change (R486)
  heatAt : Option Nat := none      -- die at 108 °C since (R424)
  levels : Sparse Nat := []        -- levels of R298 in force, with the dial time of the last reading that kept each
  cmdq : List (Nat × Nat × Bool) := []  -- pointers held: address, partition, crown packet
  run : Sparse HubCmd := []        -- commands running, by place
  orders : Nat := 0
  reqs : List HubReq := []
  ring : Sparse (List RingItem) := []  -- arriving on the ring: 0 clockwise, 1 the other way
  hbSent : Nat := 0
  hbHeard : Nat := 0
  arr : Sparse (List Packet) := []   -- packets delivered, key 4 × attachment + VC
  log : ErrLog := {}
  deriving DecidableEq, Repr

/-- A frame that waits to be sent on a fabric port: the device it goes to, and its packet (R317). -/
structure TxFrame where
  ddev : Nat
  pkt : Packet
  deriving DecidableEq, Repr

/-- A frame in a receive buffer: its two devices and its packet. -/
structure RxFrame where
  sdev : Nat
  ddev : Nat
  pkt : Packet
  deriving DecidableEq, Repr

/-- An entry of the outgoing tracker (R329): the request as it came, and when. -/
structure OutTrk where
  hdr : Header
  since : Nat
  deriving DecidableEq, Repr

/-- An entry of the incoming tracker (R330). -/
structure InTrk where
  sdev : Nat
  win : Nat := 0                   -- window that admitted it
  seq : Nat
  opcode : Nat
  deriving DecidableEq, Repr

/-- One fabric port of a die (R312–R334). Buffers and counts keyed 0 and 1 are those of VC0 and VC1. -/
structure FabricPort where
  state : Nat := 1                 -- 1 down, 2 training, 3 up; an absent port shows 0
  mode : Nat := 0                  -- mode in use
  initSent : Bool := false
  initGot : Bool := false
  initAt : Nat := 0                -- dial time of the last INIT sent
  downAt : Nat := 0                -- dial time of the last move to down or failed training
  partner : Nat := 0
  txSeq : Nat := 0                 -- number of the next DATA frame
  rxSeq : Nat := 0                 -- number expected next
  rxAny : Bool := false            -- a DATA frame has been received in order
  owed : Nat := 0                  -- frames received since the last acknowledgement
  ackAt : Nat := 0                 -- dial time at which `ackseq` last advanced, or the oldest frame was sent
  goBacks : Nat := 0               -- go-backs in a row
  nak : Option (Nat × Nat) := none -- number last NAKed, and when
  ctrlAt : Nat := 0                -- dial time of the last CTRL frame sent
  grant : Sparse Nat := []         -- credits that INIT granted
  used : Sparse Nat := []          -- credits used, modulo 2^16
  returned : Sparse Nat := []      -- credits that the partner has freed, modulo 2^16
  freed : Sparse Nat := []         -- credits freed here, modulo 2^16
  told : Sparse Nat := []          -- as the last CTRL frame told them
  replay : List (Nat × Nat × TxFrame) := []  -- unacknowledged frames: number, VC, frame
  tx : Sparse (List TxFrame) := []
  rx : Sparse (List RxFrame) := []
  out : Sparse OutTrk := []
  uses : Sparse Nat := []          -- how often each outgoing entry has been reused
  inc : Sparse InTrk := []
  paused : Sparse (Nat × Nat) := []  -- pause by the partner: since, until
  pausing : Sparse Nat := []       -- pause asked of the partner: when the PFC frame was last sent
  deriving DecidableEq, Repr

/-- A port die (R310–R348). -/
structure PortDie where
  lost : Bool := false
  regs : RegFile := []
  latch : List (Requester × Nat × Nat) := []
  fab : Sparse FabricPort := []
  shut : Sparse (Nat × Nat × Nat) := []  -- windows closed by a protection change: the words in force meanwhile (R486)
  heatAt : Option Nat := none        -- die at 108 °C since (R424)
  own : List Nat := []               -- sequence numbers of the die's own messages that await their answer
  bcnAt : Nat := 0                   -- dial time of the last beacons sent
  bcnCount : Nat := 0                -- beacons sent
  seen : Nat := 0                    -- bit i: a beacon of index i arrived in this interval
  seenIv : Nat := 0                  -- number of the interval
  health : Sparse (Nat × Nat) := []  -- last beacon of each index: dial time and health byte
  arr : Sparse (List Packet) := []   -- packets delivered, key 4 × attachment + VC
  log : ErrLog := {}
  deriving DecidableEq, Repr

/-- A Hokuid session (R477–R479): its roles, when it was last used, and its requests that await their answer. -/
structure Session where
  roles : Nat
  usedAt : Nat
  waiting : Nat := 0
  deriving DecidableEq, Repr

/-- A crown die: its context engine (R246–R283), its queues and its own requests. -/
structure CrownDie where
  lost : Bool := false
  regs : RegFile := []
  latch : List (Requester × Nat × Nat) := []
  arr : Sparse (List Packet) := []   -- packets delivered, by VC
  ctx : Sparse CtxEntry := []        -- context table by slot: own entries and the mirror of the other crown's
  reportq : List (Nat × List Byte) := []  -- report queue: site and bytes
  msgq : List CtxMsg := []           -- message queue
  reqs : List Req := []              -- requests that the engine or the loader has yet to take
  steps : Sparse Step := []          -- steps in flight, by number
  nextStep : Nat := 0
  rounds : Sparse Round := []        -- speculative rounds, by the target's index
  commits : List Commit := []        -- commits that wait for the mirror
  fab : Sparse FabQueue := []        -- token records to fabric queues
  outq : List OutPkt := []           -- packets to inject
  asked : List (Nat × CrownUse) := []  -- requests that await their answer
  nextSeq : Nat := 0
  group : List GroupMsg := []        -- group messages sent
  nextMsg : Nat := 0
  seenIv : Nat := 0                  -- interval whose seen masks are being gathered (R341)
  seenMask : Nat := 0
  seenFrom : List Nat := []          -- port dies whose mask has arrived
  miss : Sparse Nat := []            -- intervals missed in a row, by index
  sessions : Sparse Session := []    -- Hokuid sessions (R477)
  svc : Bool := false                -- service firmware runs (R469)
  svcAt : Nat := 0                   -- dial time of its last report
  restartAt : Option Nat := none     -- its restart runs since
  rngBad : Bool := false             -- the random source fails its tests (R472)
  heatAt : Option Nat := none        -- die at 108 °C since (R424)
  pollAt : Nat := 0                  -- dial time of the last poll of the error logs (R509)
  log : ErrLog := {}
  deriving DecidableEq, Repr

/-! ### The panel -/

/-- The fuses that the rules name (R1, R28, R55, R452). -/
structure Fuses where
  variant : Nat := 0x41              -- 0x41 A, 0x42 B, 0x43 C
  stepMajor : Nat := 0
  stepMinor : Nat := 0
  spareCol : List Nat := List.replicate 16 20   -- column of the designated spare of each row
  fmax : Sparse Nat := []            -- CORE_FMAX.step by site
  serial : W64 := 0                  -- panel serial (R451)
  floors : Sparse Nat := []          -- anti-rollback floors, key 8 × crown + kind (R475)
  deriving DecidableEq, Repr

/-- An entry of the repair map (R445). -/
structure RepairEnt where
  type : Nat
  cause : Nat := 0
  site : Nat := 0
  port : Nat := 0
  module : Nat := 0
  bank : Nat := 0
  spare : Nat := 0
  row : Nat := 0
  start : Nat := 0
  deriving DecidableEq, Repr

/-- A copy of an A/B item of flash (R443). -/
structure FlashCopy where
  gen : Nat
  body : List Byte
  deriving DecidableEq, Repr

/-- The flash of the panel (R442–R446): what outlives a loss of power. -/
structure Flash where
  copies : Sparse FlashCopy := []    -- key 16 × crown + 2 × kind + copy
  used : Sparse Nat := []            -- copy in use since the last start, key 8 × crown + kind
  put : Sparse (List Byte) := []     -- body bytes written into the unused copy, key 8 × crown + kind (R480)
  repair : List RepairEnt := []      -- repair map, as committed
  repairGen : Nat := 0
  cache : Option Nat := none         -- a valid training cache of this panel: the repair-map generation it recorded
  starts : Nat := 0                  -- fast starts since the last full start
  fullNext : Bool := false           -- a full start has been requested (BOOT_CMD 3)
  errs : Sparse (List ErrRec) := []  -- crown error log, by crown (R509)
  errSeq : Sparse Nat := []          -- records written since manufacture, by crown
  deriving DecidableEq, Repr

/-- The start of the panel (R436–R447), beside BOOT_STATUS. -/
structure Boot where
  off : Bool := false                -- the bus is off, or the converters are latched off
  latched : Bool := false            -- latched off by an over-voltage (R401)
  held : List Crown := []            -- crowns whose RST_N is low
  straps : Option Straps := none     -- as stage 1 sampled them (R440, R522)
  forceFull : Bool := false          -- this start was commanded as a full start
  items : Nat := 0                   -- configuration items failed over the start
  repairs : List RepairEnt := []     -- repair map as this start has changed it
  retrained : Nat := 0               -- items retrained over the start
  retrainAt : Nat := 0               -- dial time at which a half retrain began (R457)
  mapped : Bool := false             -- stage 7 has assigned the logical columns (R56)
  records : List Crown := []         -- crowns that have written a stage-2 record (R438)
  vacates : List Nat := []           -- vacates that wait for a repair to end (R456)
  deriving DecidableEq, Repr

/-- A core loss reported to a crown (R62): the site, the retirement cause, the partitions of step 2 of R453 as they stood, and
the last heartbeat. -/
structure LossRec where
  site : Nat
  cause : Nat
  parts : List Nat
  since : Nat
  deriving DecidableEq, Repr

/-- A repair (R453), or a vacate (R456). -/
structure Repair where
  sites : List Nat                   -- sites whose logical cores move, in the order their losses were reported
  since : Nat                        -- last heartbeat of the core lost last
  parts : List Nat                   -- partitions of step 2
  taken : List (Nat × Nat) := []     -- sites that have adopted, each with the site that it replaces
  steps : Nat := 0                   -- 0 paused and aborted, 1 adopted and sections reapplied
  failed : Bool := false             -- a step has failed
  vacate : Bool := false
  deriving DecidableEq, Repr

/-- A test in service (R459). -/
structure TestRun where
  req : W64
  since : Nat
  back : List (Nat × CoreState) := []  -- the former state of each site taken to TEST
  drained : List Nat := []           -- partitions drained for it (R461)
  deriving DecidableEq, Repr

/-- A root command of kind 1 that waits or runs (R481, R485). -/
structure RootCmd where
  c : Crown
  session : Nat
  tag : Nat
  at' : Nat                          -- instant T
  ctr : Nat
  items : List ConfigItem
  deriving DecidableEq, Repr

/-- A protection change that runs (R485): T, its moves, and how far it has come. -/
structure Change where
  cmd : RootCmd
  moves : Nat := 0
  staged : Bool := false
  drained : Bool := false
  deriving DecidableEq, Repr

/-- What the power managers note beside their registers (R401, R410–R417, R425, R429–R432). -/
structure Power where
  lowAt : Option Nat := none         -- bus below 39.0 V since
  deadAt : Option Nat := none        -- bus below 36.0 V since
  highAt : Option Nat := none        -- bus above 62.0 V since
  fineAt : Option Nat := none        -- bus at or above 40.0 V since
  lugAt : Option Nat := none         -- one lug above 65 % since
  avg : Nat := 0                     -- 1 ms average of input power, W
  peaks : List (Nat × Nat) := []     -- 10 µs averages of the last ms: dial time and W
  overAt : Option Nat := none        -- 1 ms average above the effective cap since
  underAt : Option Nat := none       -- input 500 W below the effective cap since
  bcast : Option Nat := none         -- broadcast cap in force
  raisedAt : Nat := 0                -- dial time at which it was last raised
  flow : Option Nat := none          -- coolant-flow limit, W
  inlet : Option Nat := none         -- inlet limit, W
  hbm : Option Nat := none           -- HBM limit, W
  hbmAt : Nat := 0                   -- dial time of its last step
  rises : Sparse Nat := []           -- floors that rise as the bucket allows: target in quarters of a watt, by site
  loweredAt : Nat := 0               -- dial time of the last lowering of floors
  rgnq : List Nat := []              -- regions waiting for a ramp grant, in region order
  rgnNext : Sparse (Nat × Nat) := [] -- regions ramping: site regulators started, and when the last one was
  tenant : Nat := 0                  -- 100 ms boundaries taken into PWR_ENERGY_T
  pulses : List Nat := []            -- flow pulses of the last second, newest first
  flow' : Nat := 0                   -- Fm at the last evaluation, in 0.1 L/min
  tin : Option Int := none           -- inlet, 0.1 °C, while usable
  tout : List (Nat × Int) := []      -- outlet readings of the last 100 ms, newest first, 0.1 °C
  badIn : Option (Nat × Bool) := none  -- inlet thermistor out of range since; or unusable, with its last reading out of range
  badOut : Option (Nat × Bool) := none
  lowFlowAt : Option Nat := none     -- F below 0.9 × Fmin since
  meterAt : Option Nat := none       -- Fm and Ft differ by more than 25 % since
  hotAt : Option Nat := none         -- inlet above 45 °C since
  coolAt : Nat := 0                  -- dial time of the last evaluation
  stopAt : Option Nat := none        -- abrupt stop in force since
  fineFlow : Option Nat := none      -- Fm at or above 0.9 × Fmin since
  deriving DecidableEq, Repr

/-- What the crowns hold of a site (R27, R55). -/
structure SiteInfo where
  state : Nat := 0                   -- 0 not yet mapped, 1 active, 2 spare, 3 retired, 4 fused-off
  lx : Nat := 0
  split : Bool := false
  cause : Nat := 0
  orphan : Option (Nat × Nat) := none  -- logical column and CORE_PART of a retired site, until it is adopted or vacant
  deriving DecidableEq, Repr

/-- What the panel sends outside itself, in the order it is sent. -/
inductive OutRec
  | answer (who : Requester) (value status : Nat)          -- the answer to a register access
  | startAnswer (site status : Nat)                        -- the answer to a START of the management ring (R63)
  | hopAck (site port seq : Nat)                           -- an acknowledgement of the hop layer (R188)
  | hopNak (site port seq : Nat)                           -- a NAK of the hop layer, naming the expected flit
  | hopReplay (site port seq : Nat)                        -- a flit sent again from the replay buffer
  | frame (port : Nat) (bytes : List Byte)                 -- a frame sent on a fabric port (R316, R325)
  | hostWrite (addr : Nat) (bytes : List Byte)             -- a posted write into host memory (R366)
  | hostRead (addr bytes : Nat)                            -- a read of submission entries (R365)
  | hostData (fn off : Nat) (bytes : List Byte) (poison : Bool)  -- a completion of a BAR4 read (R354)
  | hostAbort (fn off : Nat)                               -- a Completer Abort (R354)
  | interrupt (fn vec : Nat)                               -- an MSI-X message (R367)
  | hokuid (c : Crown) (session tag : Nat) (status : Nat) (body : List Byte)  -- a Hokuid answer (R479)
  | event (kind : Nat) (body : List Byte)                  -- a Hokuid EVENT to every observer session (R480)
  | spdm (request : SpdmRequest) (body : List Byte)        -- an SPDM response (R491)
  deriving DecidableEq, Repr

/-- Everything on the panel, without the queue of waiting commands. -/
structure Panel where
  fuses : Fuses := {}
  dial : Nat := 0                    -- dial time, modulo 2^64 (R377)
  dialRuns : Bool := false           -- the dial mark of stage 3 has been sent
  free : Nat := 0                    -- the model's own: how many free values have been drawn
  out : List OutRec := []            -- what has been sent, newest first
  cores : Sparse Core := []
  hubs : Sparse Hub := []
  ports : Sparse PortDie := []
  crowns : Sparse CrownDie := []
  shared : RegFile := crownResets.map (fun x => (x.1, BitVec.ofNat 64 x.2))  -- crown registers that both crowns show alike
  sites : Sparse SiteInfo := []
  agents : Sparse Nat := []          -- site of the agent of each region that has one (R43)
  elections : Sparse Nat := []       -- appointments of each region since panel reset
  summaryAt : Sparse Nat := []       -- dial time of the last summary of each region (R46)
  namedAt : Sparse Nat := []         -- dial time at which a summary last named each site
  losses : List LossRec := []        -- core losses reported to a crown, whose repair has yet to begin
  handles : Sparse HandleEnt := []   -- handle map (R247); an unlisted index is free
  heldRecs : Sparse CtxEntry := []   -- overflow list, by record (R256)
  kv : Sparse KvPages := []          -- pages of contexts, by index (R267)
  models : Sparse Model := []        -- model numbers 0–15 (R240)
  qsets : Sparse QueueSet := []      -- queue sets (R356)
  fns : Sparse HostFnSt := []        -- host functions (R351)
  hostDownAt : Nat := 0              -- dial time at which the host link last went down
  doe : List SpdmRequest := []       -- DOE requests taken and not yet answered (R368)
  doeError : Bool := false
  spdmAlgos : Bool := false          -- NEGOTIATE_ALGORITHMS has selected the algorithms (R491)
  flaps : Sparse Nat := []           -- times a suspect member beaconed again (R342)
  limited : List Nat := []           -- members fenced only by the 10-s limit (R342)
  awaited : Sparse Nat := []         -- group index whose adopting spare has yet to send ready: expelled device (R344)
  lostStacks : Nat := 0              -- lost-stack mask of R308, as the sources' decoders hold it
  upMask : Nat := 0                  -- up mask of R315, as the decoders hold it
  devrt : Sparse Nat := []           -- PORT_DEVRT as the decoders hold it (R315); an unlisted group holds 0xFFFF
  maint : Bool := false              -- maintenance time (R346, R480)
  vsecSel : Nat := 0                 -- `sel` of the PF's vendor-specific extended capability (R448)
  goodputAt : Nat := 0               -- the millisecond of dial time that the goodput counters last counted
  adopting : Bool := false           -- a spare adopts a role and has yet to send ready (R344)
  bucket : Nat := 200000             -- ramp bucket: mW of input at dial time `bucketAt` (R410)
  bucketAt : Nat := 0
  rampSince : Option Nat := none     -- dial time since which a rise waits for the bucket
  clkOwed : Nat := 0                 -- counts of dial time that a backward correction has yet to absorb (R380)
  clkHalf : Bool := false            -- the first of the 2 ns in which one count is absorbed has passed
  spAt : Nat := 0                    -- T of the pending setpoint change (R391)
  spChecked : Bool := false          -- step 2 of R392 has ended for the pending change
  pow : Power := {}
  flash : Flash := {}
  boot : Boot := {}
  repair : Option Repair := none     -- the repair that runs (R455)
  faulted : List Nat := []           -- partitions marked PARTITION_FAULT since the start
  tests : List W64 := []             -- test requests held (R459)
  testRun : Option TestRun := none
  randoms : Nat := 0                 -- draws of the random source (R472)
  rcmds : List RootCmd := []         -- root commands held (R482)
  change : Option Change := none     -- the protection change that runs (R485)
  auths : List (Nat × List Byte) := []  -- update authorisations: kind and digest (R489)
  serving : Bool := false            -- start-up has ended (R340)
  shedding : Bool := false           -- shedding for power or coolant (R340, R431)
  fatal : Bool := false              -- the panel cannot run its steps (R340, R382)
  removal : Bool := false            -- draining for planned removal (R340)
  deriving DecidableEq, Repr

/-- The state: the panel, and the commands that wait, first in, first out. -/
structure State where
  panel : Panel := {}
  pending : List Instr := []
  deriving DecidableEq, Repr

/-- Why a step can stop with a fault. -/
inductive Fault
  /-- Raised by a meaning whose command carries an operand that no panel can be given (SQ_FETCH of more than 32 queue
  entries, which no single read of R365 brings). Safe: the machine stops where no hardware behaviour exists. -/
  | noSuchOperand (command : String)
  deriving DecidableEq, Repr

/-- Why a step can be refused. -/
inductive Refusal
  /-- Raised by an arm of `exec` for a command that has no meaning yet, under its mnemonic. Safe. -/
  | notModelled (mnemonic : String)
  deriving DecidableEq, Repr

/-- The panel right after panel reset, at the beginning of start-up stage 1 (R436, R529): sites unpowered, cores in
TEST, every register at the reset value of its map. -/
def State.reset : State := { panel := {}, pending := [] }

end Sys2Proof.Machine
end

