-- ==== Sys2Proof/Machine/Codes.lean ====
section
/-! DEFINITION. The panel's codes: the data code RS(36,32) (R497–R500), the two CRCs (R182, R188, R318) and the SM3
digest (R238, R443, R470). -/

namespace Sys2Proof.Machine

/-! ### The data code (R497–R499) -/

/-- Multiplication by α in GF(2^8) over 0x11D (R497). -/
def gfAlpha (b : Byte) : Byte := (b <<< 1) ^^^ (if b.msb then 0x1D#8 else 0#8)

/-- Multiplication by α^n. -/
def gfShift : Nat → Byte → Byte
  | 0, b => b
  | n + 1, b => gfShift n (gfAlpha b)

/-- Multiplication in GF(2^8): over the eight bits of the second operand, lowest first. -/
def gfMulBits : Nat → Byte → Nat → Byte
  | 0, _, _ => 0
  | n + 1, a, b => (if b % 2 = 1 then a else 0) ^^^ gfMulBits n (gfAlpha a) (b / 2)

def gfMul (a b : Byte) : Byte := gfMulBits 8 a b.toNat

/-- The remainder of the division by g(x), byte by byte (R497): coefficients of x^3, x^2, x, 1. -/
def rsStep (r : Byte × Byte × Byte × Byte) (b : Byte) : Byte × Byte × Byte × Byte :=
  let f := b ^^^ r.1
  if f = 0 then (r.2.1, r.2.2.1, r.2.2.2, 0)
  else (r.2.1 ^^^ gfMul f 0x0F, r.2.2.1 ^^^ gfMul f 0x36, r.2.2.2 ^^^ gfMul f 0x78, gfMul f 0x40)

/-- The four check bytes of 32 data bytes (R497). -/
def rsCheck (data : List Byte) : List Byte :=
  let r := data.foldl rsStep (0, 0, 0, 0)
  [r.1, r.2.1, r.2.2.1, r.2.2.2]

/-- The syndrome s[j] of 36 bytes, by Horner's rule (R499). -/
def rsSyndrome (j : Nat) (bs : List Byte) : Byte := bs.foldl (fun acc b => gfShift j acc ^^^ b) 0

/-- The location l of a single error with value `v` whose syndromes are `s1`, `s2`, `s3`: s[j] = v α^(j l) (R499). -/
def rsLocate (v s1 s2 s3 : Byte) : Nat → Nat → Byte → Byte → Byte → Option Nat
  | 0, _, _, _, _ => none
  | n + 1, l, t1, t2, t3 =>
    if t1 = s1 && t2 = s2 && t3 = s3 then some l
    else rsLocate v s1 s2 s3 n (l + 1) (gfShift 1 t1) (gfShift 2 t2) (gfShift 3 t3)

/-- What the restricted decoding of R499 finds in 36 bytes. -/
inductive Decoded
  | clean
  | corrected (bs : List Byte)
  | uncorrectable
  deriving DecidableEq, Repr

/-- The restricted decoding of R499: a single error confined to one aligned 4-bit symbol is corrected. -/
def rsDecode (bs : List Byte) : Decoded :=
  if bs.all (· = 0) then .clean else
  let s0 := rsSyndrome 0 bs
  let s1 := rsSyndrome 1 bs
  let s2 := rsSyndrome 2 bs
  let s3 := rsSyndrome 3 bs
  if s0 = 0 && s1 = 0 && s2 = 0 && s3 = 0 then .clean
  else if s0 = 0 then .uncorrectable
  else match rsLocate s0 s1 s2 s3 36 0 s0 s0 s0 with
    | none => .uncorrectable
    | some l =>
      if s0 &&& 0xF0 = 0 || s0 &&& 0x0F = 0 then .corrected (bs.modify (35 - l) (· ^^^ s0))
      else .uncorrectable

/-- How a codeword reads (R499, R174). -/
inductive CwRead
  | clean
  | corrected
  | bad
  deriving DecidableEq, Repr

/-- A codeword decoded where a poison bit is carried (R499): how it reads, and the codeword as it is delivered. -/
def Codeword.read (c : Codeword) : CwRead × Codeword :=
  if c.poison then (.bad, c)
  else match rsDecode (c.data ++ c.chk) with
    | .clean => (.clean, c)
    | .corrected bs => (.corrected, { data := bs.take 32, chk := bs.drop 32, poison := false })
    | .uncorrectable => (.bad, c)

/-- A codeword formed afresh from 32 data bytes. -/
def Codeword.fresh (data : List Byte) (poison : Bool) : Codeword := { data := data, chk := rsCheck data, poison := poison }

def Codeword.zero : Codeword := { data := List.replicate 32 0, chk := List.replicate 4 0, poison := false }

/-! ### CRCs -/

/-- One bit of the CRC-16 of R182 and R188: polynomial 0x1021, unreflected. -/
def crc16Bit (c : BitVec 16) : BitVec 16 := (c <<< 1) ^^^ (if c.msb then 0x1021#16 else 0#16)

def crc16Byte (c : BitVec 16) (b : Byte) : BitVec 16 :=
  let c := c ^^^ (b.zeroExtend 16 <<< 8)
  crc16Bit (crc16Bit (crc16Bit (crc16Bit (crc16Bit (crc16Bit (crc16Bit (crc16Bit c)))))))

/-- The CRC-16 with polynomial 0x1021 and initial value 0xFFFF (R182, R188). -/
def crc16 (bs : List Byte) : Nat := (bs.foldl crc16Byte 0xFFFF#16).toNat

/-- One bit of the CRC-32 of IEEE 802.3 (R318), reflected. -/
def crc32Bit (c : W32) : W32 := (c >>> 1) ^^^ (if c.getLsbD 0 then 0xEDB88320#32 else 0#32)

def crc32Byte (c : W32) (b : Byte) : W32 :=
  let c := c ^^^ b.zeroExtend 32
  crc32Bit (crc32Bit (crc32Bit (crc32Bit (crc32Bit (crc32Bit (crc32Bit (crc32Bit c)))))))

/-- The CRC-32 of IEEE 802.3 (R318). -/
def crc32 (bs : List Byte) : Nat := (bs.foldl crc32Byte 0xFFFFFFFF#32 ^^^ 0xFFFFFFFF#32).toNat

/-! ### SM3 (R238, R443, R470). PRESUMED: the digest is the SM3 of GB/T 32905-2016, which the manual names without
stating it (notes/assumptions/3.md). -/

def sm3FF (j : Nat) (x y z : W32) : W32 := if j < 16 then x ^^^ y ^^^ z else (x &&& y) ||| (x &&& z) ||| (y &&& z)
def sm3GG (j : Nat) (x y z : W32) : W32 := if j < 16 then x ^^^ y ^^^ z else (x &&& y) ||| (~~~x &&& z)
def sm3P0 (x : W32) : W32 := x ^^^ x.rotateLeft 9 ^^^ x.rotateLeft 17
def sm3P1 (x : W32) : W32 := x ^^^ x.rotateLeft 15 ^^^ x.rotateLeft 23

/-- A big-endian word of four bytes. -/
def beWord (bs : List Byte) : W32 := BitVec.ofNat 32 (bs.take 4 |>.foldl (fun n b => n * 256 + b.toNat) 0)

/-- The big-endian words of a block. -/
def beWords : Nat → List Byte → List W32
  | 0, _ => []
  | n + 1, bs => beWord bs :: beWords n (bs.drop 4)

/-- The message expansion: the words newest first, extended `n` times. -/
def sm3Expand : Nat → List W32 → List W32
  | 0, ws => ws
  | n + 1, ws =>
    let w k := ws.getD (k - 1) 0   -- w k is W[j − k]
    let v := sm3P1 (w 16 ^^^ w 9 ^^^ (w 3).rotateLeft 15) ^^^ (w 13).rotateLeft 7 ^^^ w 6
    sm3Expand n (v :: ws)

/-- The chaining value of SM3. -/
structure Sm3 where
  a : W32
  b : W32
  c : W32
  d : W32
  e : W32
  f : W32
  g : W32
  h : W32
  deriving DecidableEq, Repr

/-- The compression rounds, over W and W′ in order. -/
def sm3Rounds : List W32 → List W32 → Nat → Sm3 → Sm3
  | w :: ws, w' :: ws', j, s =>
    let t : W32 := if j < 16 then 0x79CC4519#32 else 0x7A879D8A#32
    let ss1 := (s.a.rotateLeft 12 + s.e + t.rotateLeft (j % 32)).rotateLeft 7
    let ss2 := ss1 ^^^ s.a.rotateLeft 12
    let tt1 := sm3FF j s.a s.b s.c + s.d + ss2 + w'
    let tt2 := sm3GG j s.e s.f s.g + s.h + ss1 + w
    sm3Rounds ws ws' (j + 1) ⟨tt1, s.a, s.b.rotateLeft 9, s.c, sm3P0 tt2, s.e, s.f.rotateLeft 19, s.g⟩
  | _, _, _, s => s

/-- One 64-byte block. -/
def sm3Block (v : Sm3) (blk : List Byte) : Sm3 :=
  let ws := (sm3Expand 52 (beWords 16 blk).reverse).reverse
  let ws' := List.zipWith (· ^^^ ·) ws (ws.drop 4)
  let r := sm3Rounds ws ws' 0 v
  ⟨r.a ^^^ v.a, r.b ^^^ v.b, r.c ^^^ v.c, r.d ^^^ v.d, r.e ^^^ v.e, r.f ^^^ v.f, r.g ^^^ v.g, r.h ^^^ v.h⟩

/-- The chaining value before the first block. -/
def sm3Init : Sm3 :=
  ⟨0x7380166F, 0x4914B2B9, 0x172442D7, 0xDA8A0600, 0xA96F30BC, 0x163138AA, 0xE38DEE4D, 0xB0FB0E4E⟩

/-- `n` blocks of a padded message. -/
def sm3Blocks : Nat → List Byte → Sm3 → Sm3
  | 0, _, v => v
  | n + 1, bs, v => sm3Blocks n (bs.drop 64) (sm3Block v (bs.take 64))

/-- The big-endian bytes of a word. -/
def beBytes (w : W32) : List Byte := (leBytes 4 w.toNat).reverse

/-- The SM3 digest of a message: 32 bytes. -/
def sm3 (msg : List Byte) : List Byte :=
  let l := msg.length
  let padded := msg ++ [0x80#8] ++ List.replicate ((119 - l % 64) % 64) 0#8 ++ (leBytes 8 (8 * l)).reverse
  let v := sm3Blocks (padded.length / 64) padded sm3Init
  beBytes v.a ++ beBytes v.b ++ beBytes v.c ++ beBytes v.d ++ beBytes v.e ++ beBytes v.f ++ beBytes v.g ++ beBytes v.h

end Sys2Proof.Machine
end

