-- ==== Sys2Proof/Machine/Flags.lean ====
section
/-! DEFINITION. Number formats, exact arithmetic and rounding (R88–R104, R139), and the counts that an output
conversion makes (R103): the panel's only arithmetic flags are these counters (R90). -/

namespace Sys2Proof.Machine

/-- A value as the formats express it: NaN, an infinity, or (−1)^neg × m × 2^e exactly. -/
inductive FVal
  | nan
  | inf (neg : Bool)
  | num (neg : Bool) (m : Nat) (e : Int)
  deriving DecidableEq, Repr

/-- How a format uses its all-ones exponent (R88). -/
inductive Specials
  | ieee        -- Inf and NaN
  | nanOnly     -- E4M3: S.1111.111 is NaN, no Inf
  | finite      -- every code is a number
  deriving DecidableEq, Repr

/-- A floating format of R88. -/
structure FFmt where
  eb : Nat
  mb : Nat
  bias : Nat
  sp : Specials
  qnan : Nat      -- canonical NaN of R90
  deriving DecidableEq, Repr

def fp32 : FFmt := ⟨8, 23, 127, .ieee, 0x7FC00000⟩
def bf16 : FFmt := ⟨8, 7, 127, .ieee, 0x7FC0⟩
def fp16 : FFmt := ⟨5, 10, 15, .ieee, 0x7E00⟩
def e4m3 : FFmt := ⟨4, 3, 7, .nanOnly, 0x7F⟩
def e5m2 : FFmt := ⟨5, 2, 15, .ieee, 0x7E⟩
def e3m2 : FFmt := ⟨3, 2, 3, .finite, 0⟩
def e2m3 : FFmt := ⟨2, 3, 1, .finite, 0⟩
def e2m1 : FFmt := ⟨2, 1, 1, .finite, 0⟩

/-- Bits of a format. -/
def FFmt.width (f : FFmt) : Nat := 1 + f.eb + f.mb

/-- The exponent of the unit in the last place of subnormals. -/
def FFmt.eMin (f : FFmt) : Int := 1 - (f.bias : Int) - f.mb

/-- The largest finite magnitude as (exponent field, mantissa field). -/
def FFmt.top (f : FFmt) : Nat × Nat :=
  match f.sp with
  | .ieee => (2 ^ f.eb - 2, 2 ^ f.mb - 1)
  | .nanOnly => (2 ^ f.eb - 1, 2 ^ f.mb - 2)
  | .finite => (2 ^ f.eb - 1, 2 ^ f.mb - 1)

/-- The value of a bit pattern (R88, R89); a signalling NaN is a NaN (R90). -/
def FFmt.decode (f : FFmt) (n : Nat) : FVal :=
  let neg := n.testBit (f.eb + f.mb)
  let ex := bits n (f.eb + f.mb - 1) f.mb
  let ma := n % 2 ^ f.mb
  if f.sp = .ieee ∧ ex = 2 ^ f.eb - 1 then (if ma = 0 then .inf neg else .nan)
  else if f.sp = .nanOnly ∧ ex = 2 ^ f.eb - 1 ∧ ma = 2 ^ f.mb - 1 then .nan
  else if ex = 0 then .num neg ma f.eMin
  else .num neg (2 ^ f.mb + ma) ((ex : Int) - f.bias - f.mb)

/-- The bit pattern of sign, exponent field and mantissa field. -/
def FFmt.pack (f : FFmt) (neg : Bool) (ex ma : Nat) : Nat := b2n neg * 2 ^ (f.eb + f.mb) + ex * 2 ^ f.mb + ma

def FFmt.infBits (f : FFmt) (neg : Bool) : Nat := f.pack neg (2 ^ f.eb - 1) 0
def FFmt.topBits (f : FFmt) (neg : Bool) : Nat := f.pack neg f.top.1 f.top.2

/-- The rounding modes of R99 and R100; the stochastic mode carries the element's 32-bit random number. -/
inductive RMode
  | nearest
  | stochastic (r : Nat)
  | zero
  | floor      -- CVTFI only (R130)
  | ceil       -- CVTFI only
  deriving DecidableEq, Repr

/-- The magnitude m × 2^(−d) rounded to a whole number (R99, R100). The discarded part is rem / 2^d. -/
def roundShift (mode : RMode) (neg : Bool) (m d : Nat) : Nat :=
  let q := m / 2 ^ d
  let rem := m % 2 ^ d
  match mode with
  | .nearest => if rem * 2 > 2 ^ d ∨ (rem * 2 = 2 ^ d ∧ q % 2 = 1) then q + 1 else q
  | .stochastic r => if rem * 2 ^ 32 / 2 ^ d + r ≥ 2 ^ 32 then q + 1 else q
  | .zero => q
  | .floor => if neg ∧ rem ≠ 0 then q + 1 else q
  | .ceil => if ¬ neg ∧ rem ≠ 0 then q + 1 else q

/-- m × 2^e as a whole number of units 2^u, rounded. -/
def roundTo (mode : RMode) (neg : Bool) (m : Nat) (e u : Int) : Nat :=
  if e ≥ u then m * 2 ^ (e - u).toNat else roundShift mode neg m (u - e).toNat

/-- A rounded magnitude: a finite pattern (exponent and mantissa fields), or an overflow. -/
inductive RMag
  | fin (ex ma : Nat)
  | beyond
  deriving DecidableEq, Repr

/-- The magnitude m × 2^e rounded to a format (R99, R100, R102). -/
def FFmt.roundMag (f : FFmt) (mode : RMode) (neg : Bool) (m : Nat) (e : Int) : RMag :=
  if m = 0 then .fin 0 0 else
  let u : Int := max f.eMin (e + Nat.log2 m - f.mb)
  let q := roundTo mode neg m e u
  let (q, u) := if q = 2 ^ (f.mb + 1) then (2 ^ f.mb, u + 1) else (q, u)
  if q < 2 ^ f.mb then .fin 0 q
  else
    let ex := (u - f.eMin).toNat + 1
    let ma := q - 2 ^ f.mb
    if ex > f.top.1 ∨ (ex = f.top.1 ∧ ma > f.top.2) then .beyond else .fin ex ma

/-- What an output conversion counts (R103). -/
inductive Count
  | none
  | sat
  | nan
  deriving DecidableEq, Repr

/-- A value rounded to a format, overflow giving an infinity (R99, R104). -/
def FFmt.round (f : FFmt) (v : FVal) : Nat :=
  match v with
  | .nan => f.qnan
  | .inf s => f.infBits s
  | .num s m e => match f.roundMag .nearest s m e with
    | .fin ex ma => f.pack s ex ma
    | .beyond => f.infBits s

/-- Output conversion to a floating format with a rounding mode and the overflow setting of R102. -/
def FFmt.convert (f : FFmt) (mode : RMode) (infSet : Bool) (v : FVal) : Nat × Count :=
  let top (s : Bool) : Nat × Count :=
    if infSet then (if f.sp = .ieee then (f.infBits s, .none) else (f.qnan, .nan)) else (f.topBits s, .sat)
  match v with
  | .nan => (f.qnan, .nan)
  | .inf s => if f = fp32 then (f.infBits s, .none) else top s
  | .num s m e => match f.roundMag mode s m e with
    | .fin ex ma => (f.pack s ex ma, .none)
    | .beyond => if f = fp32 then (f.infBits s, .none) else top s

/-- Conversion to a signed integer of `w` bits: rounds in the mode and saturates (R103). -/
def convertInt (w : Nat) (mode : RMode) (v : FVal) : Nat × Count :=
  let top : Nat := 2 ^ (w - 1) - 1
  let bot : Nat := 2 ^ (w - 1)
  match v with
  | .nan => (0, .nan)
  | .inf true => (bot, .sat)
  | .inf false => (top, .sat)
  | .num s m e =>
    let q := roundTo mode s m e 0
    if s then (if q > bot then (bot, .sat) else ((2 ^ w - q) % 2 ^ w, .none))
    else (if q > top then (top, .sat) else (q, .none))

/-! ### Exact arithmetic -/

/-- A whole number as a value. -/
def FVal.ofInt (i : Int) : FVal := .num (i < 0) i.natAbs 0

/-- The signed 32-bit number of a word. -/
def int32 (n : Nat) : Int := (BitVec.ofNat 32 n).toInt

/-- The product of two values. -/
def FVal.mul : FVal → FVal → FVal
  | .nan, _ => .nan
  | _, .nan => .nan
  | .inf s, .inf t => .inf (s != t)
  | .inf s, .num t m _ => if m = 0 then .nan else .inf (s != t)
  | .num s m _, .inf t => if m = 0 then .nan else .inf (s != t)
  | .num s m e, .num t n f => .num (s != t) (m * n) (e + f)

/-- The signed mantissa of a number over 2^u, for u ≤ e. -/
def sigInt (s : Bool) (m : Nat) (e u : Int) : Int :=
  let k : Int := (m * 2 ^ (e - u).toNat : Nat)
  if s then -k else k

/-- The exact sum of two values; +0 + −0 = +0, and −0 + −0 = −0 (R104). -/
def FVal.add : FVal → FVal → FVal
  | .nan, _ => .nan
  | _, .nan => .nan
  | .inf s, .inf t => if s = t then .inf s else .nan
  | .inf s, .num .. => .inf s
  | .num .., .inf t => .inf t
  | .num s m e, .num t n f =>
    if m = 0 ∧ n = 0 then .num (s && t) 0 0
    else
      let u := min e f
      let k := sigInt s m e u + sigInt t n f u
      .num (k < 0) k.natAbs u

def FVal.neg : FVal → FVal
  | .nan => .nan
  | .inf s => .inf !s
  | .num s m e => .num (!s) m e

/-- The value scaled by 2^k. -/
def FVal.scale (k : Int) : FVal → FVal
  | .num s m e => .num s m (e + k)
  | v => v

/-- a < b for values that are no NaN; +0 and −0 are equal. -/
def FVal.lt : FVal → FVal → Bool
  | .inf true, .inf t => !t
  | .inf true, .num .. => true
  | .inf false, _ => false
  | .num .., .inf t => !t
  | .num s m e, .num t n f => let u := min e f; decide (sigInt s m e u < sigInt t n f u)
  | _, _ => false

def FVal.isNan : FVal → Bool
  | .nan => true
  | _ => false

def FVal.isZero : FVal → Bool
  | .num _ m _ => m == 0
  | _ => false

def FVal.isNeg : FVal → Bool
  | .num s _ _ => s
  | .inf s => s
  | .nan => false

/-- The exact sum of a list of values, +0 for the empty list. The sign of the sum of terms that are all −0 is free
(DESIGN CHOICE, notes/assumptions/12.md). -/
def FVal.sum (vs : List FVal) : FVal :=
  if !vs.isEmpty && vs.all (fun v => v.isZero && v.isNeg) then .num (Config.negZeroSum vs.length) 0 0
  else vs.foldl FVal.add (.num false 0 0)

/-! ### The shared additions and maximum of R104, on bit patterns -/

/-- FP32 add: IEEE 754, round to nearest even. -/
def fp32Add (a b : Nat) : Nat := fp32.round (FVal.add (fp32.decode a) (fp32.decode b))

/-- BF16 add: the exact sum rounded once. -/
def bf16Add (a b : Nat) : Nat := bf16.round (FVal.add (bf16.decode a) (bf16.decode b))

/-- INT32 add, modulo 2^32. -/
def int32Add (a b : Nat) : Nat := (a + b) % 2 ^ 32

/-- The larger of two patterns of a format; NaN if either is NaN; max(+0, −0) = +0 (R104). -/
def FFmt.max (f : FFmt) (a b : Nat) : Nat :=
  let x := f.decode a
  let y := f.decode b
  if x.isNan ∨ y.isNan then f.qnan
  else if x.isZero ∧ y.isZero then (if x.isNeg then b else a)
  else if x.lt y then b else a

/-- The smaller of two patterns; NaN if either is NaN; min(+0, −0) = −0 (R130, FMIN). -/
def FFmt.min (f : FFmt) (a b : Nat) : Nat :=
  let x := f.decode a
  let y := f.decode b
  if x.isNan ∨ y.isNan then f.qnan
  else if x.isZero ∧ y.isZero then (if x.isNeg then a else b)
  else if y.lt x then b else a

/-- Bytes of an element of an accumulate type (R166). -/
def accBytes (type : Nat) : Nat := if type = 2 then 2 else 4

/-- One accumulate of R166: stored value first, incoming value second. -/
def accumulate (type stored incoming : Nat) : Nat :=
  match type with
  | 1 => fp32Add stored incoming
  | 2 => bf16Add stored incoming
  | 3 => int32Add stored incoming
  | 4 => fp32.max stored incoming
  | _ => incoming

/-! ### Stochastic rounding (R101) -/

/-- The random number of an element from the seed and the element's index i. -/
def srandom (seed : W64) (i : Nat) : Nat :=
  let z := seed ^^^ (BitVec.ofNat 64 i * 0x9E3779B97F4A7C15#64)
  let z := (z ^^^ (z >>> 30)) * 0xBF58476D1CE4E5B9#64
  let z := (z ^^^ (z >>> 27)) * 0x94D049BB133111EB#64
  let z := z ^^^ (z >>> 31)
  (z >>> 32).toNat

/-- The rounding mode that an operation's `rnd` field selects for an element with index i (R100, R112, R133). -/
def rmode (rnd : Nat) (seed : W64) (i : Nat) : RMode :=
  match rnd with
  | 1 => .stochastic (srandom seed i)
  | 2 => .zero
  | _ => .nearest

/-! ### MX blocks (R91–R94) and T-blocks (R95–R97) -/

/-- The scale of an E8M0 byte: the exponent, or none for NaN (R92). -/
def e8m0 (b : Nat) : Option Int := if b = 0xFF then none else some ((b : Int) - 127)

/-- The element format of an MX code 0x7–0xB (R88). -/
def mxFmt (code : Nat) : FFmt :=
  match code with
  | 0x7 => e4m3
  | 0x8 => e5m2
  | 0x9 => e3m2
  | 0xA => e2m3
  | _ => e2m1

/-- emax of an MX element type (R93). -/
def mxEmax (code : Nat) : Int :=
  match code with
  | 0x7 => 8
  | 0x8 => 15
  | 0x9 => 4
  | 0xA => 2
  | 0xB => 2
  | _ => 0

/-- floor(log2(|v|)) of a nonzero number. -/
def FVal.expo : FVal → Int
  | .num _ m e => e + Nat.log2 m
  | _ => 0

/-- The larger of two magnitudes' exponents over a block; none when every value is zero. -/
def maxExpo (vs : List FVal) : Option Int :=
  vs.foldl (fun acc v => if v.isZero then acc else match acc with
    | none => some v.expo
    | some x => some (Max.max x v.expo)) none

/-- One element quantised to an MX element type after division by the shared scale: always saturates (R93). -/
def mxElement (code : Nat) (mode : RMode) (v : FVal) : Nat × Count :=
  if code = 0xC then
    -- k × 2^−6, two's complement; the largest magnitude is 127 × 2^−6
    match v with
    | .num s m e =>
      let q := roundTo mode s m (e + 6) 0
      if q > 127 then (if s then 129 else 127, .sat) else (if s then (256 - q) % 256 else q, .none)
    | _ => (0, .none)
  else
    let f := mxFmt code
    match v with
    | .num s m e => match f.roundMag mode s m e with
      | .fin ex ma => (f.pack s ex ma, .none)
      | .beyond => (f.topBits s, .sat)
    | _ => (0, .none)

/-- Quantisation of a block of 32 values (R93): the scale byte, and each element with its count. -/
def mxBlock (code : Nat) (vs : List (FVal × RMode)) : Nat × List (Nat × Count) :=
  let raw := vs.map (·.1)
  if raw.any (fun v => match v with | .num .. => false | _ => true) then (0xFF, vs.map fun _ => (0, .nan))
  else match maxExpo raw with
    | none => (0x7F, vs.map fun _ => (0, .none))
    | some x =>
      let sc := Max.max (-127) (Min.min 127 (x - mxEmax code))
      ((sc + 127).toNat, vs.map fun p => mxElement code p.2 (p.1.scale (-sc)))

/-- Whether 14 bytes are a valid T-block (R96). -/
def tblkValid (bs : List Byte) : Bool :=
  (bs.take 12).all (fun b => b.toNat ≤ 242) && decide (81 ≤ (bs.getD 12 0).toNat ∧ (bs.getD 12 0).toNat ≤ 161)

/-- Weight k of a T-block: −1, 0 or 1 (R95). -/
def tblkWeight (bs : List Byte) (k : Nat) : Int := (((bs.getD (k / 5) 0).toNat / 3 ^ (k % 5) % 3 : Nat) : Int) - 1

end Sys2Proof.Machine
end

