-- ==== Sys2Proof/Machine/Ops.lean ====
section
/-! DEFINITION. The named operations over the state's maps, memories, registers and logs; every meaning goes through
them. -/

namespace Sys2Proof.Machine

open Host (Outcome)

/-! ### Sparse maps -/

/-- The entry of a key, if listed. -/
def find {α : Type} : Sparse α → Nat → Option α
  | [], _ => none
  | (k, v) :: m, n => if n = k then some v else find m n

/-- The value of a key, or the map's default. -/
def look {α : Type} (d : α) (m : Sparse α) (n : Nat) : α := (find m n).getD d

/-- The map with a key set; keys stay in rising order. -/
def put {α : Type} : Sparse α → Nat → α → Sparse α
  | [], n, v => [(n, v)]
  | (k, w) :: m, n, v =>
    if n < k then (n, v) :: (k, w) :: m
    else if n = k then (n, v) :: m
    else (k, w) :: put m n v

/-- The map with a key unlisted. -/
def drop {α : Type} : Sparse α → Nat → Sparse α
  | [], _ => []
  | (k, w) :: m, n => if n = k then drop m n else (k, w) :: drop m n

/-- The map with one value changed by a function. -/
def alter {α : Type} (d : α) (m : Sparse α) (n : Nat) (f : α → α) : Sparse α := put m n (f (look d m n))

/-- A map that does not list its default zero. -/
def putZ {w : Nat} (m : Sparse (BitVec w)) (n : Nat) (v : BitVec w) : Sparse (BitVec w) :=
  if v = 0 then drop m n else put m n v

/-- Numbers in rising order without repeats: one added. -/
def insertNat : List Nat → Nat → List Nat
  | [], n => [n]
  | k :: m, n => if n < k then n :: k :: m else if n = k then k :: m else k :: insertNat m n

/-! ### Memory (R153, R290) -/

/-- What an address reads as when nothing is listed for it: zero, as the clear of panel start leaves it (R155). -/
def Mem.unlisted : Byte := 0

/-- Keys strictly rising from `lo` on, no value equal to what an unlisted address reads as. -/
def cellsWfFrom : Nat → List Host.Cell → Bool
  | _, [] => true
  | lo, (a, b) :: m => decide (lo ≤ a) && decide (b ≠ Mem.unlisted) && cellsWfFrom (a + 1) m

/-- The canonical form of a list of cells. -/
def cellsWf (m : List Host.Cell) : Bool := cellsWfFrom 0 m

/-- Numbers strictly rising. -/
def risingFrom : Nat → List Nat → Bool
  | _, [] => true
  | lo, a :: m => decide (lo ≤ a) && risingFrom (a + 1) m

/-- The canonical form of a memory. -/
def Mem.wf (m : Mem) : Bool := cellsWf m.cells && cellsWf m.chk && risingFrom 0 m.poison

/-- One byte of a list of cells. -/
def cellAt (m : List Host.Cell) (a : Nat) : Byte := look Mem.unlisted m a

/-- A list of cells with one byte written. -/
def setCell (m : List Host.Cell) (a : Nat) (b : Byte) : List Host.Cell := putZ m a b

/-- A list of cells with bytes written from an address on. -/
def setCells : List Host.Cell → Nat → List Byte → List Host.Cell
  | m, _, [] => m
  | m, a, b :: bs => setCells (setCell m a b) (a + 1) bs

/-- `n` bytes from an address on. -/
def cellsAt (m : List Host.Cell) : Nat → Nat → List Byte
  | _, 0 => []
  | a, n + 1 => cellAt m a :: cellsAt m (a + 1) n

/-- One data byte of a memory, as stored. -/
def Mem.byte (m : Mem) (a : Nat) : Byte := cellAt m.cells a

/-- The stored codeword with a number (offset div 32). -/
def Mem.cw (m : Mem) (n : Nat) : Codeword :=
  { data := cellsAt m.cells (32 * n) 32, chk := cellsAt m.chk (4 * n) 4, poison := decide (n ∈ m.poison) }

/-- A memory with a codeword stored whole. -/
def Mem.setCw (m : Mem) (n : Nat) (c : Codeword) : Mem :=
  { cells := setCells m.cells (32 * n) (padTo 32 c.data)
    chk := setCells m.chk (4 * n) (padTo 4 c.chk)
    poison := if c.poison then insertNat m.poison n else m.poison.filter (· != n) }

/-- A memory with consecutive codewords stored. -/
def Mem.setCws : Mem → Nat → List Codeword → Mem
  | m, _, [] => m
  | m, n, c :: cs => Mem.setCws (m.setCw n c) (n + 1) cs

/-- `k` consecutive codewords. -/
def Mem.cws (m : Mem) : Nat → Nat → List Codeword
  | _, 0 => []
  | n, k + 1 => m.cw n :: m.cws (n + 1) k

/-! ### Statuses (R512) -/

namespace St
def done : Nat := 0x00
def corrected : Nat := 0x01
def windowClosed : Nat := 0x02
def notPermitted : Nat := 0x03
def bankAsleep : Nat := 0x04
def siteRetired : Nat := 0x05
def uncorrectable : Nat := 0x06
def timedOut : Nat := 0x07
def contextsFull : Nat := 0x08
def overflowFull : Nat := 0x09
def portDown : Nat := 0x0A
def partitionFault : Nat := 0x0B
def drained : Nat := 0x0C

/-- DONE or DONE_CORRECTED. -/
def ok (s : Nat) : Bool := s ≤ 1

/-- The status that an answer over several outcomes carries (R504): a refusal first, then UNCORRECTABLE, then
DONE_CORRECTED, then DONE. -/
def merge (a b : Nat) : Nat :=
  if 1 < a && a != uncorrectable then a
  else if 1 < b && b != uncorrectable then b
  else Nat.max a b

/-- A status as its receiver takes it: a reserved code counts as NOT_PERMITTED (R512). -/
def taken (s : Nat) : Nat := if s ≤ 0x0C then s else notPermitted
end St

/-! ### Sites and their geometry (R19–R23, R37) -/

def siteC (n : Nat) : Nat := n % 21
def siteR (n : Nat) : Nat := n / 21
def siteOf (c r : Nat) : Nat := 21 * r + c
def regionOf (n : Nat) : Nat := siteR n / 2 * 3 + siteC n / 7
def halfOf (n : Nat) : Nat := if siteR n < 8 then 0 else 1

/-- The 14 sites of a region, in row-major order (R43). -/
def regionSites (g : Nat) : List Nat :=
  (List.range 2).flatMap fun i => (List.range 7).map fun j => siteOf (g % 3 * 7 + j) (g / 3 * 2 + i)

/-- A site with at least one attachment (R38, R208). -/
def edgeSite (n : Nat) : Bool :=
  let c := siteC n
  let r := siteR n
  c == 0 || c == 20 || ((r == 0 || r == 15) && c != 8 && c != 12)

/-! ### Variants (R2, R31) -/

def Fuses.lwidth (f : Fuses) : Nat := if f.variant = 0x41 then 20 else if f.variant = 0x42 then 16 else 10
def Fuses.stackCount (f : Fuses) : Nat := if f.variant = 0x41 then 24 else if f.variant = 0x42 then 16 else 12
def Fuses.portCount (f : Fuses) : Nat := if f.variant = 0x41 then 16 else if f.variant = 0x42 then 12 else 8

/-! ### Dies -/

/-- The registers of a core site after reset: the reset values of its map, its straps (R57), its fused maximum
frequency (R87) and the regulator values of its place (R208). -/
def coreRegs0 (f : Fuses) (n : Nat) : RegFile :=
  let inj : Nat := if edgeSite n then 0x81021010 else 0x82042020
  let site : Nat := siteC n * 2 ^ 24 + siteR n * 2 ^ 20 + regionOf n * 2 ^ 6 + halfOf n * 2 ^ 5
  let base := coreResets.map fun x => (x.1, BitVec.ofNat 64 x.2)
  let m := put base Reg.MESH_INJ_CFG (BitVec.ofNat 64 inj)
  let m := put m (Reg.MESH_INJ_CFG + 8) (BitVec.ofNat 64 inj)
  let m := put m (Reg.MESH_INJ_CFG + 12) (BitVec.ofNat 64 inj)
  let m := putZ m Reg.CORE_SITE (BitVec.ofNat 64 site)
  putZ m Reg.CORE_FMAX (BitVec.ofNat 64 (look 0 f.fmax n))

/-- A core site just reset. -/
def Core.blank (f : Fuses) (n : Nat) : Core := { regs := coreRegs0 f n }

def Hub.blank : Hub := { regs := hubResets.map fun x => (x.1, BitVec.ofNat 64 x.2) }
def PortDie.blank : PortDie := { regs := portResets.map fun x => (x.1, BitVec.ofNat 64 x.2) }
def CrownDie.blank : CrownDie := { regs := crownResets.map fun x => (x.1, BitVec.ofNat 64 x.2) }

def Panel.core (p : Panel) (n : Nat) : Core := look (Core.blank p.fuses n) p.cores n
def Panel.hub (p : Panel) (n : Nat) : Hub := look Hub.blank p.hubs n
def Panel.port (p : Panel) (n : Nat) : PortDie := look PortDie.blank p.ports n
def Panel.crown (p : Panel) (c : Crown) : CrownDie := look CrownDie.blank p.crowns c.num
def Panel.site (p : Panel) (n : Nat) : SiteInfo := look {} p.sites n

def Panel.setCore (p : Panel) (n : Nat) (k : Core) : Panel := { p with cores := put p.cores n k }
def Panel.setHub (p : Panel) (n : Nat) (k : Hub) : Panel := { p with hubs := put p.hubs n k }
def Panel.setPort (p : Panel) (n : Nat) (k : PortDie) : Panel := { p with ports := put p.ports n k }
def Panel.setCrown (p : Panel) (c : Crown) (k : CrownDie) : Panel := { p with crowns := put p.crowns c.num k }
def Panel.setSite (p : Panel) (n : Nat) (k : SiteInfo) : Panel := { p with sites := put p.sites n k }

def Panel.modCore (p : Panel) (n : Nat) (f : Core → Core) : Panel := p.setCore n (f (p.core n))
def Panel.modHub (p : Panel) (n : Nat) (f : Hub → Hub) : Panel := p.setHub n (f (p.hub n))
def Panel.modPort (p : Panel) (n : Nat) (f : PortDie → PortDie) : Panel := p.setPort n (f (p.port n))
def Panel.modCrown (p : Panel) (c : Crown) (f : CrownDie → CrownDie) : Panel := p.setCrown c (f (p.crown c))
def Panel.modSite (p : Panel) (n : Nat) (f : SiteInfo → SiteInfo) : Panel := p.setSite n (f (p.site n))

/-! ### Meanings -/

/-- The panel has its supply, and neither reset input is low (R401, R529). -/
def Panel.live (p : Panel) : Bool := !p.boot.off && p.boot.held.isEmpty

/-- A command that changes the panel and leaves the queue. -/
def State.always (s : State) (f : Panel → Panel) : Outcome State Fault Refusal :=
  .next { s with panel := f s.panel }

/-- A command of a panel that is on; on one that is off or held in reset nothing acts (notes/assumptions/4.md). -/
def State.onPanel (s : State) (f : Panel → Panel) : Outcome State Fault Refusal :=
  s.always fun p => if p.live then f p else p

/-- The core runs on its clock: its site is powered, and no supply halt withholds the edge (R385). -/
def Core.clocked (k : Core) : Bool := k.powered && k.haltSince.isNone

/-- A command in a core's clock domain that changes that core alone; where no clock runs there is nothing that acts
(notes/assumptions/4.md). -/
def State.onCore (s : State) (n : Nat) (f : Core → Core) : Outcome State Fault Refusal :=
  s.onPanel fun p => if (p.core n).clocked then p.modCore n f else p

/-- A command in a core's clock domain that may change more than that core. -/
def State.atCore (s : State) (n : Nat) (f : Core → Panel → Panel) : Outcome State Fault Refusal :=
  s.onPanel fun p => if (p.core n).clocked then f (p.core n) p else p

/-- A command of a powered site's supervisor or links, which a supply halt of the core does not stop. -/
def State.onSite (s : State) (n : Nat) (f : Core → Core) : Outcome State Fault Refusal :=
  s.onPanel fun p => if (p.core n).powered then p.modCore n f else p
def State.atSite (s : State) (n : Nat) (f : Core → Panel → Panel) : Outcome State Fault Refusal :=
  s.onPanel fun p => if (p.core n).powered then f (p.core n) p else p

/-! ### Free values, outputs and time -/

/-- The next free value, and the panel with the counter advanced. -/
def Panel.draw (p : Panel) : W64 × Panel := (Config.freeValue p.free, { p with free := p.free + 1 })

/-- Something sent outside the panel. -/
def Panel.emit (p : Panel) (o : OutRec) : Panel := { p with out := o :: p.out }

/-- Dial counts in a microsecond (R6). -/
def us : Nat := 1000
def ms : Nat := 1000000

/-- Dial time has moved at least `n` counts past `t0`. -/
def Panel.since (p : Panel) (t0 n : Nat) : Bool := t0 + n ≤ p.dial

/-! ### Registers as stored -/

/-- A stored register. -/
def rfGet (m : RegFile) (off : Nat) : W64 := look 0 m off
def rfSet (m : RegFile) (off : Nat) (v : W64) : RegFile := putZ m off v

/-- The limit of a 32-bit counter that holds at all ones (R11). -/
def cntTop : Nat := 2 ^ 32 - 1

/-- A counter advanced by n, holding at all ones (R11). -/
def rfBump (m : RegFile) (off n : Nat) : RegFile :=
  rfSet m off (BitVec.ofNat 64 (satAdd cntTop (rfGet m off).toNat n))

/-- A 64-bit counter that wraps. -/
def rfWrap (m : RegFile) (off n : Nat) : RegFile := rfSet m off (rfGet m off + BitVec.ofNat 64 n)

def Core.rd (k : Core) (off : Nat) : Nat := (rfGet k.regs off).toNat
def Core.wr (k : Core) (off v : Nat) : Core := { k with regs := rfSet k.regs off (BitVec.ofNat 64 v) }
def Core.bump (k : Core) (off : Nat) (n : Nat := 1) : Core := { k with regs := rfBump k.regs off n }
def Core.wrap (k : Core) (off n : Nat) : Core := { k with regs := rfWrap k.regs off n }
def Hub.rd (k : Hub) (off : Nat) : Nat := (rfGet k.regs off).toNat
def Hub.wr (k : Hub) (off v : Nat) : Hub := { k with regs := rfSet k.regs off (BitVec.ofNat 64 v) }
def Hub.bump (k : Hub) (off : Nat) (n : Nat := 1) : Hub := { k with regs := rfBump k.regs off n }
def Hub.wrap (k : Hub) (off n : Nat) : Hub := { k with regs := rfWrap k.regs off n }
def PortDie.rd (k : PortDie) (off : Nat) : Nat := (rfGet k.regs off).toNat
def PortDie.wr (k : PortDie) (off v : Nat) : PortDie := { k with regs := rfSet k.regs off (BitVec.ofNat 64 v) }
def PortDie.bump (k : PortDie) (off : Nat) (n : Nat := 1) : PortDie := { k with regs := rfBump k.regs off n }
def PortDie.wrap (k : PortDie) (off n : Nat) : PortDie := { k with regs := rfWrap k.regs off n }
def CrownDie.rd (k : CrownDie) (off : Nat) : Nat := (rfGet k.regs off).toNat
def CrownDie.wr (k : CrownDie) (off v : Nat) : CrownDie := { k with regs := rfSet k.regs off (BitVec.ofNat 64 v) }
def CrownDie.bump (k : CrownDie) (off : Nat) (n : Nat := 1) : CrownDie := { k with regs := rfBump k.regs off n }
def CrownDie.wrap (k : CrownDie) (off n : Nat) : CrownDie := { k with regs := rfWrap k.regs off n }

/-- A register with one field changed. -/
def Core.setF (k : Core) (off hi lo n : Nat) : Core := k.wr off (setFld (rfGet k.regs off) hi lo n).toNat
def Hub.setF (k : Hub) (off hi lo n : Nat) : Hub := k.wr off (setFld (rfGet k.regs off) hi lo n).toNat
def PortDie.setF (k : PortDie) (off hi lo n : Nat) : PortDie := k.wr off (setFld (rfGet k.regs off) hi lo n).toNat
def CrownDie.setF (k : CrownDie) (off hi lo n : Nat) : CrownDie := k.wr off (setFld (rfGet k.regs off) hi lo n).toNat

/-- A crown register that both crowns show alike. -/
def Panel.sh (p : Panel) (off : Nat) : Nat := (rfGet p.shared off).toNat
def Panel.setSh (p : Panel) (off v : Nat) : Panel := { p with shared := rfSet p.shared off (BitVec.ofNat 64 v) }
def Panel.setShF (p : Panel) (off hi lo n : Nat) : Panel := p.setSh off (setFld (rfGet p.shared off) hi lo n).toNat
def Panel.bumpSh (p : Panel) (off : Nat) (n : Nat := 1) : Panel := { p with shared := rfBump p.shared off n }
def Panel.wrapSh (p : Panel) (off n : Nat) : Panel := { p with shared := rfWrap p.shared off n }

/-! ### Error logs (R508–R511) -/

/-- What an event gives of its record: the log fills in the rest. -/
structure LogItem where
  cls : Nat
  level : Nat := 0
  unit : Nat := 0
  status : Nat := 0
  addr : Nat := 0
  part : Nat := 0
  deriving DecidableEq, Repr

/-- Die codes of R447, byte 16, as R510 uses them: die type, index, column and row. -/
structure DieId where
  dtype : Nat
  dindex : Nat := 0
  c : Nat := 0xFF
  r : Nat := 0xFF
  deriving DecidableEq, Repr

/-- A record written to a log of 64, or merged into the newest (R508). Answers the log, and how many were lost. -/
def ErrLog.add (l : ErrLog) (dial : Nat) (d : DieId) (i : LogItem) : ErrLog × Nat :=
  let fresh : ErrRec :=
    { dial := dial, cls := i.cls, level := i.level, dtype := d.dtype, dindex := d.dindex, c := d.c, r := d.r,
      unit := i.unit, status := i.status, addr := i.addr, part := i.part, count := 1, seq := l.seq }
  let append : ErrLog × Nat :=
    if l.recs.length < 64 then
      ({ recs := l.recs ++ [fresh], head := l.head, seq := (l.seq + 1) % 65536 }, 0)
    else (l, 1)
  match l.recs.getLast? with
  | none => append
  | some e =>
    if e.cls = i.cls ∧ e.dtype = d.dtype ∧ e.dindex = d.dindex ∧ e.c = d.c ∧ e.r = d.r ∧ e.unit = i.unit ∧
        e.addr = i.addr ∧ e.status = i.status ∧ e.part = i.part ∧ dial < e.dial + 1000 * ms then
      ({ l with recs := l.recs.dropLast ++ [{ e with count := satAdd 255 e.count 1 }] }, 0)
    else append

/-- Records released from the head of a log (R513, ERR_ACK). -/
def ErrLog.ack (l : ErrLog) (n : Nat) : ErrLog :=
  let k := Nat.min n l.recs.length
  { l with recs := l.recs.drop k, head := (l.head + k) % 64 }

/-- The 28 bytes of a record, and its CRC (R510). -/
def ErrRec.bytes (e : ErrRec) : List Byte :=
  let b := leBytes 8 e.dial ++ leBytes 1 e.cls ++ leBytes 1 e.level ++ leBytes 1 e.dtype ++ leBytes 1 e.dindex ++
    leBytes 1 e.c ++ leBytes 1 e.r ++ leBytes 1 e.unit ++ leBytes 1 e.status ++ leBytes 8 e.addr ++ leBytes 1 e.part ++
    leBytes 1 e.count ++ leBytes 2 e.seq
  b ++ leBytes 4 (crc32 b)

/-- The partition byte of a record for a core (R510, byte 24). -/
def Core.partByte (k : Core) : Nat :=
  let v := k.rd Reg.CORE_PART
  if v.testBit 31 then 0x80 + v % 32 else 0

/-- A record written by a core. The die is a core site: die code 0 of R447. -/
def Core.logErr (k : Core) (dial n : Nat) (i : LogItem) : Core :=
  let x := k.log.add dial { dtype := 1, dindex := 0, c := siteC n, r := siteR n } { i with part := k.partByte }
  if x.2 = 0 then { k with log := x.1 } else k.bump Reg.ERR_LOST_CNT_core

def Panel.logCore (p : Panel) (n : Nat) (i : LogItem) : Panel := p.modCore n fun k => k.logErr p.dial n i

/-- A die of R447, byte 16, as a record names it. -/
def DieId.core (n : Nat) : DieId := { dtype := 1, c := siteC n, r := siteR n }
def DieId.hub (n : Nat) : DieId := { dtype := 2, dindex := n }
def DieId.port (n : Nat) : DieId := { dtype := 3, dindex := n }
def DieId.crown (c : Crown) : DieId := { dtype := 4, dindex := c.num }

/-- A record written by a hub, a port die or a crown, about the die named. -/
def Panel.logHub (p : Panel) (h : Nat) (i : LogItem) : Panel := p.modHub h fun k =>
  let x := k.log.add p.dial (.hub h) i
  if x.2 = 0 then { k with log := x.1 } else k.bump Reg.ERR_LOST_CNT_hub
def Panel.logPort (p : Panel) (d : Nat) (i : LogItem) : Panel := p.modPort d fun k =>
  let x := k.log.add p.dial (.port d) i
  if x.2 = 0 then { k with log := x.1 } else k.bump Reg.ERR_LOST_CNT_port
def Panel.logCrown (p : Panel) (c : Crown) (who : DieId) (i : LogItem) : Panel := p.modCrown c fun k =>
  let x := k.log.add p.dial who i
  if x.2 = 0 then { k with log := x.1 } else k.bump Reg.ERR_LOST_CNT_crown

/-- The crown that leads a half: its own, or the other one when that crown is lost (R44). -/
def Panel.leader (p : Panel) (half : Nat) : Crown :=
  let c := if half = 0 then Crown.north else Crown.south
  if (p.crown c).lost then c.other else c

/-- The half retrain that runs: 0 none, 1 north, 2 south (R462). -/
def Panel.retraining (p : Panel) : Nat := bits (p.sh Reg.BOOT_STATUS) 20 19

/-- A crown whose contexts the other one leads meanwhile: its service firmware restarts, or its half retrains (R457, R458,
R469). -/
def Panel.away (p : Panel) (c : Crown) : Bool := (p.crown c).restartAt.isSome || p.retraining == c.num + 1

/-- The crown that leads the contexts of a half. -/
def Panel.ctxLeader (p : Panel) (half : Nat) : Crown :=
  let c := p.leader half
  if p.away c && !(p.crown c.other).lost && !p.away c.other then c.other else c

/-- The crown that leads a region or a site. -/
def Panel.leaderOf (p : Panel) (n : Nat) : Crown := p.leader (halfOf n)

end Sys2Proof.Machine
end

