-- ==== Sys2Proof/Machine/Operands.lean ====
section
/-! DEFINITION. Operand forms: global addresses and their decoding (R38–R52), attachments, route-map entries (R192,
R193), packet headers (R179–R182) and the multi-byte fields of records. -/

namespace Sys2Proof.Machine

/-! ### Attachments (R38, R192) -/

/-- The columns of the north and south attachments, west to east. -/
def attCols : List Nat := [0, 1, 2, 3, 4, 5, 6, 7, 9, 10, 11, 13, 14, 15, 16, 17, 18, 19, 20]

/-- Site and edge port (1 north or south, 2 east or west) of attachment i, 0–69, in the order of R192. -/
def attPlace (i : Nat) : Nat × Nat :=
  if i < 19 then (siteOf (attCols.getD i 0) 0, 1)
  else if i < 38 then (siteOf (attCols.getD (i - 19) 0) 15, 1)
  else if i < 54 then (siteOf 20 (i - 38), 2)
  else (siteOf 0 (i - 54), 2)

/-- What stands behind an attachment. -/
inductive AttDie
  | hub (n att : Nat)
  | port (d q : Nat)
  | crown (c : Crown) (col : Nat)
  deriving DecidableEq, Repr

/-- The edge die of a north or south column: `h` maps the four hubs west to east, `d0` is the first port die. -/
def edgeColDie (h : List Nat) (d0 : Nat) (c : Crown) (col : Nat) : Option AttDie :=
  if col ≤ 1 then some (.hub (h.getD 0 0) col)
  else if col ≤ 3 then some (.port d0 (col - 2))
  else if col ≤ 5 then some (.hub (h.getD 1 0) (col - 4))
  else if col ≤ 7 then some (.port (d0 + 1) (col - 6))
  else if col = 8 ∨ col = 12 then none
  else if col ≤ 11 then some (.crown c col)
  else if col ≤ 14 then some (.port (d0 + 2) (col - 13))
  else if col ≤ 16 then some (.hub (h.getD 2 0) (col - 15))
  else if col ≤ 18 then some (.port (d0 + 3) (col - 17))
  else some (.hub (h.getD 3 0) (col - 19))

/-- The edge die at edge port 1 or 2 of a site (R38). -/
def attDie (site edge : Nat) : Option AttDie :=
  let c := siteC site
  let r := siteR site
  if edge = 1 then
    if r = 0 then edgeColDie [0, 1, 2, 3] 0 .north c
    else if r = 15 then edgeColDie [15, 14, 13, 12] 4 .south c
    else none
  else
    if c = 20 then some (.hub (4 + r / 2) (r % 2))
    else if c = 0 then some (.hub (23 - r / 2) (r % 2))
    else none

/-- The attachment index of a hub's attachment (R38, R192). -/
def hubAtt (n att : Nat) : Nat :=
  if n < 4 then [0, 4, 13, 17].getD n 0 + att
  else if n < 12 then 38 + 2 * (n - 4) + att
  else if n < 16 then 19 + [17, 13, 4, 0].getD (n - 12) 0 + att
  else 54 + 2 * (23 - n) + att

/-- The attachment index of a port die's attachment. -/
def portAtt (d q : Nat) : Nat := if d < 4 then [2, 6, 11, 15].getD d 0 + q else 19 + [2, 6, 11, 15].getD (d - 4) 0 + q

/-- The attachment index of a crown's column 9, 10 or 11. -/
def crownAtt (c : Crown) (col : Nat) : Nat := 19 * c.num + (col - 1)

/-- The site of an attachment. -/
def attSite (i : Nat) : Nat := (attPlace i).1

def Panel.powered (p : Panel) (n : Nat) : Bool := (p.core n).powered

/-- The crown's control site column (R41): column 10, else 9, else 11; none when the crown has no path. -/
def Panel.controlCol (p : Panel) (c : Crown) : Option Nat :=
  [10, 9, 11].find? fun col => p.powered (attSite (crownAtt c col))

/-- The column that crown bulk traffic to physical column `tc` takes (R39, R41). -/
def Panel.bulkCol (p : Panel) (c : Crown) (tc : Nat) : Option Nat :=
  let want := if tc ≤ 10 then 9 else 11
  if p.powered (attSite (crownAtt c want)) then some want else p.controlCol c

/-! ### What the variant presents (R452) -/

/-- The stacks present, in ascending number. -/
def Fuses.stacks (f : Fuses) : List Nat :=
  if f.variant = 0x41 then List.range 24
  else if f.variant = 0x42 then [4, 5, 6, 7, 8, 9, 10, 11, 16, 17, 18, 19, 20, 21, 22, 23]
  else [4, 5, 6, 9, 10, 11, 16, 17, 18, 21, 22, 23]

/-- The fabric ports present. -/
def Fuses.ports (f : Fuses) : List Nat :=
  if f.variant = 0x41 then List.range 16
  else if f.variant = 0x42 then [0, 2, 3, 4, 5, 7, 8, 10, 11, 12, 13, 15]
  else [0, 2, 5, 7, 8, 10, 13, 15]

/-- A site that the variant fuses off. -/
def Fuses.fusedOff (f : Fuses) (n : Nat) : Bool :=
  if f.variant = 0x41 then false
  else if f.variant = 0x42 then siteC n = 3 || siteC n = 5 || siteC n = 15 || siteC n = 17
  else siteC n % 2 = 1

def Fuses.hubPresent (f : Fuses) (n : Nat) : Bool := decide (n ∈ f.stacks)
def Fuses.diePresent (f : Fuses) (d : Nat) : Bool := decide (2 * d ∈ f.ports ∨ 2 * d + 1 ∈ f.ports)

/-! ### Global addresses (R48–R52) -/

/-- What a global address reaches. -/
inductive Target
  | spad (x y off : Nat)
  | coreReg (x y off : Nat)
  | hbm (stack off : Nat)
  | hubReg (h off : Nat)
  | portReg (d off : Nat)
  | crownSpace (c : Crown) (off : Nat)
  | remote (dev win off : Nat)
  deriving DecidableEq, Repr

def gaSpad (x y off : Nat) : Nat := x * 2 ^ 47 + y * 2 ^ 43 + off
def gaCoreReg (x y off : Nat) : Nat := 2 ^ 52 + x * 2 ^ 47 + y * 2 ^ 43 + off
def gaCrown (c : Crown) (off : Nat) : Nat := 5 * 2 ^ 52 + c.num * 2 ^ 43 + off
/-- The stack-local view of R50. -/
def gaStack (h off : Nat) : Nat := 2 * 2 ^ 52 + 2 ^ 41 + h * 2 ^ 36 + off

/-- Bytes of scratchpad offsets (R48). -/
def spadTop : Nat := 0x7000000
/-- Bytes of a stack (R50). -/
def stackTop : Nat := 0xC00000000

/-- The site of a logical core, when it is mapped (R31, R34, R55). -/
def Panel.lsite (p : Panel) (x y : Nat) : Option Nat :=
  ((List.range 21).map fun c => siteOf c y).find? fun n => (p.site n).state = 1 ∧ (p.site n).lx = x

/-- The panel's own device number (R313), as its present port dies hold it. -/
def Panel.ownDevice (p : Panel) : Option Nat :=
  match (List.range 8).find? fun d => p.fuses.diePresent d with
  | none => none
  | some d => let v := (p.port d).rd Reg.PORT_DEVNUM; if v.testBit 31 then some (v % 4096) else none

/-- Whether a port die can take register traffic: one of its attachment sites is powered (R41). -/
def Panel.portPath (p : Panel) (d : Nat) : Option Nat :=
  [0, 1].find? fun q => p.powered (attSite (portAtt d q))

/-- A crown-space offset in a row of R52 that is not reserved. -/
def crownRow (off : Nat) : Bool := off ≤ 0xFFFFF || (0x1000000 ≤ off && off ≤ 0x17FFFFF)

/-- Address decoding at the source (R48–R52, R308): the target, or the status of R51. -/
def Panel.decodeGA (p : Panel) (ga : Nat) : Except Nat Target :=
  let cls := bits ga 55 52
  let lw := p.fuses.lwidth
  if cls = 0 then
    let x := bits ga 51 47
    let y := bits ga 46 43
    let off := bits ga 26 0
    if bits ga 42 27 ≠ 0 ∨ x ≥ lw ∨ off ≥ spadTop then .error St.notPermitted
    else if (p.lsite x y).isNone then .error St.siteRetired
    else .ok (.spad x y off)
  else if cls = 1 then
    let x := bits ga 51 47
    let y := bits ga 46 43
    if bits ga 42 20 ≠ 0 ∨ x ≥ lw then .error St.notPermitted
    else if (p.lsite x y).isNone then .error St.siteRetired
    else .ok (.coreReg x y (bits ga 19 0))
  else if cls = 2 then
    if bits ga 51 42 ≠ 0 then .error St.notPermitted
    else
      let place : Option (Nat × Nat) :=
        if ga.testBit 41 then
          let h := bits ga 40 36
          let off := bits ga 35 0
          if p.fuses.hubPresent h ∧ off < stackTop then some (h, off) else none
        else
          let a := bits ga 40 0
          let n := p.fuses.stacks.length
          let k := a / 4096
          if a < n * stackTop then some (p.fuses.stacks.getD (k % n) 0, k / n * 4096 + a % 4096) else none
      match place with
      | none => .error St.notPermitted
      | some (h, off) => if p.lostStacks.testBit h then .error St.siteRetired else .ok (.hbm h off)
  else if cls = 3 then
    let h := bits ga 47 43
    if bits ga 51 48 ≠ 0 ∨ bits ga 42 20 ≠ 0 ∨ ¬ p.fuses.hubPresent h then .error St.notPermitted
    else .ok (.hubReg h (bits ga 19 0))
  else if cls = 4 then
    let d := bits ga 45 43
    if bits ga 51 46 ≠ 0 ∨ bits ga 42 20 ≠ 0 ∨ ¬ p.fuses.diePresent d then .error St.notPermitted
    else if (p.portPath d).isNone then .error St.siteRetired
    else .ok (.portReg d (bits ga 19 0))
  else if cls = 5 then
    let c := if ga.testBit 43 then Crown.south else Crown.north
    let off := bits ga 31 0
    if bits ga 51 44 ≠ 0 ∨ bits ga 42 32 ≠ 0 then .error St.notPermitted
    else if (p.crown c).lost then .error St.siteRetired
    else if ¬ crownRow off then .error St.notPermitted
    else .ok (.crownSpace c off)
  else if cls = 6 then
    let d := bits ga 51 40
    if p.ownDevice = some d then .error St.notPermitted
    else .ok (.remote d (bits ga 39 32) (bits ga 31 0))
  else .error St.notPermitted

/-- The number of ones among the low 16 bits. -/
def ones16 (m : Nat) : Nat := ((List.range 16).filter fun i => m.testBit i).length

/-- The j-th set bit of a mask. -/
def nthSet (m j : Nat) : Nat := ((List.range 16).filter fun i => m.testBit i).getD j 0

/-- The fabric port to a device (R314); none when no port in state up reaches it. -/
def Panel.portTo (p : Panel) (dev : Nat) : Option Nat :=
  let m := look 0xFFFF p.devrt (dev / 64) &&& p.upMask
  if ones16 m = 0 then none else some (nthSet m (dev % 64 % ones16 m))

/-- The attachment index that a packet to an edge target takes (R39, R41); none for a core target. -/
def Panel.attachFor (p : Panel) (ga : Nat) (t : Target) : Option Nat :=
  match t with
  | .hbm h _ => some (hubAtt h (bits ga 11 11))
  | .hubReg h _ => some (hubAtt h 0)
  | .portReg d _ => some (portAtt d ((p.portPath d).getD 0))
  | .crownSpace c _ => some (crownAtt c ((p.controlCol c).getD 10))
  | .remote d _ _ => (p.portTo d).map fun q => portAtt (q / 2) (q % 2)
  | _ => none

/-! ### Route maps (R192, R193) -/

/-- A route-map entry. -/
structure RMapEnt where
  state : Nat
  c : Nat
  r : Nat
  turn : Nat
  deriving DecidableEq, Repr

/-- Entry i of a router's map. -/
def Core.rmap (k : Core) (i : Nat) : RMapEnt :=
  let v := k.rd (Reg.MESH_RMAP + 4 * i)
  { state := bits v 31 30, c := bits v 29 25, r := bits v 24 21, turn := bits v 20 19 }

/-- What the injecting router finds for a request (R193). -/
inductive Route
  | to (dc dr dedge turn : Nat)
  | vacant          -- SITE_RETIRED
  | unreachable     -- SITE_RETIRED, counted in MESH_UNREACH_CNT
  deriving DecidableEq, Repr

/-- The route of a request through map entry `i`, whose destination lies behind edge port `dedge`. -/
def Core.route (k : Core) (i dedge : Nat) : Route :=
  let e := k.rmap i
  if e.state = 3 ∨ (e.state = 1 ∧ e.turn = 3) then .unreachable
  else if e.state = 1 then .to e.c e.r dedge e.turn
  else .vacant

/-- The first entry of state 1, with a legal turn, whose place is (c, r), for an answer (R193). -/
def Core.routeBack (k : Core) (c r : Nat) : Option RMapEnt :=
  ((List.range 390).map k.rmap).find? fun e => e.state = 1 ∧ e.turn ≠ 3 ∧ e.c = c ∧ e.r = r

/-! ### Headers (R179–R182) -/

namespace Opc
def write : Nat := 0x01
def writeAcc : Nat := 0x02
def readReq : Nat := 0x03
def readData : Nat := 0x04
def semSignal : Nat := 0x05
def msg : Nat := 0x06
def reduce : Nat := 0x07
def mcast : Nat := 0x08
def completion : Nat := 0x09

/-- The virtual channel of an opcode (R180). -/
def vc (o : Nat) : Nat := if o = readData ∨ o = completion then 1 else if o = reduce then 2 else if o = mcast then 3 else 0

/-- An opcode of R180. -/
def legal (o : Nat) : Bool := 1 ≤ o && o ≤ 9

/-- Whether an opcode has an answer (R180). -/
def answered (o : Nat) : Bool := o == write || o == writeAcc || o == readReq || o == semSignal || o == msg || o == mcast
end Opc

/-- The header as a number of 256 bits, without its CRC (R179). -/
def Header.toNat (h : Header) : Nat :=
  let place :=
    if h.opcode = Opc.mcast then h.cmask % 2 ^ 20 * 2 ^ 36 + h.rmask % 2 ^ 16 * 2 ^ 56
    else h.dc % 32 * 2 ^ 36 + h.dr % 16 * 2 ^ 41 + h.dedge % 4 * 2 ^ 45 + h.turn % 4 * 2 ^ 47
  h.opcode % 64 + h.vc % 4 * 2 ^ 6 + h.len % 64 * 2 ^ 8 + h.bytes % 2048 * 2 ^ 14 + h.sedge % 4 * 2 ^ 25 +
    h.sc % 32 * 2 ^ 27 + h.sr % 16 * 2 ^ 32 + place + h.ga % 2 ^ 56 * 2 ^ 72 + h.seq % 65536 * 2 ^ 128 +
    h.rtag % 4096 * 2 ^ 144 + h.rtype % 8 * 2 ^ 156 + h.part % 32 * 2 ^ 159 + h.status % 256 * 2 ^ 164 +
    h.weight % 512 * 2 ^ 172 + h.sem % 256 * 2 ^ 181 + h.semen % 2 * 2 ^ 189 + h.mkind % 4 * 2 ^ 190 +
    h.mtag % 65536 * 2 ^ 192 + h.sval % 2 ^ 32 * 2 ^ 208

/-- The CRC of a header (R182). -/
def Header.crc (h : Header) : Nat := crc16 (leBytes 30 h.toNat)

/-- The header with its CRC set, as its source sends it. -/
def Header.sealed (h : Header) : Header := { h with hcrc := h.crc }

/-- The header that 256 bits hold (R179). -/
def Header.ofNat (n : Nat) : Header :=
  let op := bits n 5 0
  let mc := op == Opc.mcast
  { opcode := op, vc := bits n 7 6, len := bits n 13 8, bytes := bits n 24 14, sedge := bits n 26 25,
    sc := bits n 31 27, sr := bits n 35 32,
    dc := if mc then 0 else bits n 40 36, dr := if mc then 0 else bits n 44 41,
    dedge := if mc then 0 else bits n 46 45, turn := if mc then 0 else bits n 48 47,
    cmask := if mc then bits n 55 36 else 0, rmask := if mc then bits n 71 56 else 0,
    ga := bits n 127 72, seq := bits n 143 128, rtag := bits n 155 144, rtype := bits n 158 156,
    part := bits n 163 159, status := bits n 171 164, weight := bits n 180 172, sem := bits n 188 181,
    semen := bits n 189 189, mkind := bits n 191 190, mtag := bits n 207 192, sval := bits n 239 208,
    hcrc := bits n 255 240 }

/-- The payload units of `bytes` bytes beginning at `ga` (R181). -/
def lenFor (ga bytes : Nat) : Nat := cdiv (ga % 32 + bytes) 32

/-- `len` agrees with R181 for the opcode. -/
def Header.lenOk (h : Header) : Bool :=
  if h.opcode = Opc.readReq then h.len == 1 && 1 ≤ h.bytes && h.bytes ≤ 1024
  else if h.opcode = Opc.semSignal ∨ h.opcode = Opc.completion then h.len == 0 && h.bytes == 0
  else if h.opcode = Opc.readData then h.len ≤ 32 && h.len == (if h.bytes = 0 then 0 else lenFor h.ga h.bytes)
  else if h.opcode = Opc.msg then h.len ≤ 3 && h.len == (if h.bytes = 0 then 0 else lenFor h.ga h.bytes)
  else 1 ≤ h.len && h.len ≤ 32 && 1 ≤ h.bytes && h.len == lenFor h.ga h.bytes

/-- A bad header of R182. -/
def Header.bad (h : Header) : Bool :=
  h.hcrc != h.crc || !Opc.legal h.opcode || h.vc != Opc.vc h.opcode || !h.lenOk ||
    h.turn == 3 || h.sedge == 3 || h.dedge == 3 || h.mkind == 3

/-- A packet whose header carries its CRC. -/
def Packet.mk' (h : Header) (units : List Codeword) : Packet := { hdr := h.sealed, units := units }

/-- Units of a packet on a link: the header and its payload. -/
def Packet.size (k : Packet) : Nat := 1 + k.hdr.len

/-- The codewords of bytes placed at an address (R181): unit 0 begins at the address rounded down to 32, bytes outside
are zero. -/
def unitsOf (ga : Nat) (bs : List Byte) : List Codeword :=
  let n := lenFor ga bs.length
  let padded := padTo (32 * n) (List.replicate (ga % 32) 0 ++ bs)
  (List.range n).map fun i => Codeword.fresh ((padded.drop (32 * i)).take 32) false

/-- The payload bytes of a packet: decoded units, from the address on. The Bool says that a unit read bad, the Nat how
many were corrected. -/
def Packet.payload (k : Packet) : List Byte × Bool × Nat :=
  let rd := k.units.map Codeword.read
  let bs := rd.flatMap fun x => x.2.data
  ((bs.drop (k.hdr.ga % 32)).take k.hdr.bytes, rd.any (·.1 = .bad), (rd.filter (·.1 = .corrected)).length)

end Sys2Proof.Machine
end

