-- ==== Sys2Proof/Machine/SpadOps.lean ====
section
/-! DEFINITION. Access to a core's scratchpad: the interleave, row reads and masked writes with their codes, the
accumulate, and the write-back queue (R153–R176). -/

namespace Sys2Proof.Machine

/-- Where an access is made: the dial time and the site, for the records it may write. -/
structure At where
  dial : Nat
  site : Nat
  deriving DecidableEq, Repr

def Panel.at' (p : Panel) (n : Nat) : At := { dial := p.dial, site := n }

/-! ### The interleave (R156) -/

/-- The awake bank groups, in rising order. -/
def Core.groups (k : Core) : List Nat := (List.range 16).filter fun g => k.spad.awake.testBit g

/-- The number of awake groups. -/
def Core.awakeN (k : Core) : Nat := k.groups.length

/-- Bytes of scratchpad in capacity: 7 MiB for each awake group. -/
def Core.capacity (k : Core) : Nat := k.awakeN * 0x700000

/-- The bank of a row. -/
def Core.bankOf (k : Core) (row : Nat) : Nat := 8 * k.groups.getD (row / 8 % k.awakeN) 0 + row % 8

/-- The bank row of a row. -/
def Core.bankRow (k : Core) (row : Nat) : Nat := row / (8 * k.awakeN)

/-- The row at a bank and bank row; none when the bank's group is not awake. -/
def Core.rowAt (k : Core) (bank brow : Nat) : Option Nat :=
  (k.groups.findIdx? (· = bank / 8)).map fun i => brow * (8 * k.awakeN) + 8 * i + bank % 8

/-- An offset that an access can reach: no reshape is in progress and the offset is in capacity (R156, R173). -/
def Core.reach (k : Core) (off : Nat) : Bool := k.spad.reshape.isNone && decide (off < k.capacity)

/-! ### Requester codes (R157, R178) -/

namespace Own
def me (n : Nat) : Nat := n
def ve : Nat := 4
def ru : Nat := 5
def dmaIn : Nat := 6
def dmaOut : Nat := 7
def scrub : Nat := 0xA
def copy : Nat := 0xB
end Own

/-! ### Codeword reads (R174) -/

/-- A corrected row is queued for write-back, or counted when the queue of 16 is full (R176). -/
def Core.queueWb (k : Core) (row : Nat) : Core :=
  if row ∈ k.spad.wbq then k
  else if k.spad.wbq.length < 16 then { k with spad := { k.spad with wbq := k.spad.wbq ++ [row] } }
  else k.bump Reg.SPAD_WB_DROP_CNT

/-- What a core notes of one codeword read (R174): counters, SPAD_ERR_ADDR when it is empty, the site error log and the
write-back queue. -/
def Core.noteRead (k : Core) (w : At) (req n : Nat) (r : CwRead) : Core :=
  match r with
  | .clean => k
  | .corrected =>
    ((k.bump Reg.SPAD_CORR_CNT).logErr w.dial w.site
      { cls := 0x01, level := 0, unit := req, status := St.corrected, addr := 32 * n }).queueWb (n / 8)
  | .bad =>
    let k := k.bump Reg.SPAD_UNCORR_CNT
    let k := if (k.rd Reg.SPAD_ERR_ADDR).testBit 31 then k
      else k.wr Reg.SPAD_ERR_ADDR (2 ^ 31 + req % 16 * 2 ^ 27 + 32 * n)
    k.logErr w.dial w.site { cls := 0x02, level := 1, unit := req, status := St.uncorrectable, addr := 32 * n }

/-- `m` codewords read from number `n` on: each as it is delivered, with how it read. -/
def Core.readCws (w : At) (req : Nat) : Nat → Nat → Core → List (CwRead × Codeword) × Core
  | _, 0, k => ([], k)
  | n, m + 1, k =>
    let r := (k.spad.mem.cw n).read
    let k := k.noteRead w req n r.1
    let x := Core.readCws w req (n + 1) m k
    (r :: x.1, x.2)

/-- The status of codewords read. -/
def readStatus (l : List (CwRead × Codeword)) : Nat :=
  if l.any (·.1 = .bad) then St.uncorrectable else if l.any (·.1 = .corrected) then St.corrected else St.done

/-- A refused access (R173). -/
def Core.asleep (k : Core) : Core := k.bump Reg.SPAD_ASLEEP_CNT

/-- One whole row read by an engine (R154, R173, R174): its 256 bytes, zero when the row is out of reach, and the
status. -/
def Core.readRow (k : Core) (w : At) (req row : Nat) : List Byte × Nat × Core :=
  if k.reach (256 * row) then
    let x := Core.readCws w req (8 * row) 8 k
    (x.1.flatMap (·.2.data), readStatus x.1, x.2)
  else (List.replicate 256 0, St.bankAsleep, k.asleep)

/-- Rows fetched by a unit: row against its bytes. -/
abbrev Fetch := Sparse (List Byte)

def Fetch.byte (f : Fetch) (off : Nat) : Byte := (look [] f (off / 256)).getD (off % 256) 0
/-- `n` bytes of a fetch, little-endian. -/
def Fetch.le (f : Fetch) (off n : Nat) : Nat := leNat ((List.range n).map fun i => f.byte (off + i))

/-- The rows that ranges (start, length) span, in rising order without repeats. -/
def rowsOf (ranges : List (Nat × Nat)) : List Nat :=
  ranges.foldl (fun acc x => if x.2 = 0 then acc else
    (List.range (((x.1 + x.2 - 1) / 256) - x.1 / 256 + 1)).foldl (fun acc i => insertNat acc (x.1 / 256 + i)) acc) []

/-- Rows read in order; the status is the first refusal, else the worst reading. -/
def Core.fetch (w : At) (req : Nat) : List Nat → Core → Fetch × Nat × Core
  | [], k => ([], St.done, k)
  | r :: rs, k =>
    let x := k.readRow w req r
    let y := Core.fetch w req rs x.2.2
    (put y.1 r x.1, St.merge x.2.1 y.2.1, y.2.2)

/-! ### Writes (R154, R167, R175) -/

/-- What every write performed on a row does besides (R167, R176): buffers that hold the row take it, and a queued
write-back of the row is cancelled. -/
def Core.wrote (k : Core) (row : Nat) : Core :=
  let held := k.spad.acc.filter (·.row = row)
  let k := { k with spad := { k.spad with
    wbq := k.spad.wbq.filter (· != row)
    acc := k.spad.acc.map fun b => if b.row = row then { b with cws := k.spad.mem.cws (8 * row) 8 } else b } }
  if held.isEmpty then k else k.bump Reg.SPAD_ACC_MERGE_CNT held.length

/-- A byte of a write: not enabled, or a byte and whether the codeword that brought it was bad or poisoned. -/
abbrev MByte := Option (Byte × Bool)

def MByte.byte (b : MByte) : Byte := (b.map (·.1)).getD 0
def MByte.bad (b : MByte) : Bool := (b.map (·.2)).getD false

/-- Bytes all enabled, with one poison for all. -/
def enabled (bs : List Byte) (poison : Bool := false) : List MByte := bs.map fun b => some (b, poison)

/-- Bytes replaced where the new ones are enabled. -/
def mergeBytes : List Byte → List MByte → List Byte
  | [], _ => []
  | o, [] => o
  | o :: os, b :: bs => (b.map (·.1)).getD o :: mergeBytes os bs

/-- Bytes written into one codeword (R175): whole codewords fresh, a partial write merges with the stored codeword. -/
def Core.writeCw (k : Core) (w : At) (req n : Nat) (l : List MByte) : Nat × Core :=
  let store (k : Core) (c : Codeword) : Core := { k with spad := { k.spad with mem := k.spad.mem.setCw n c } }
  let poison := l.any MByte.bad
  if l.all (·.isNone) then (St.done, k)
  else if l.all (·.isSome) ∧ l.length = 32 then (St.done, store k (Codeword.fresh (l.map MByte.byte) poison))
  else
    let r := (k.spad.mem.cw n).read
    let data := mergeBytes r.2.data l
    match r.1 with
    | .clean => (St.done, store k (Codeword.fresh data poison))
    | .corrected =>
      let k := (k.bump Reg.SPAD_CORR_CNT).logErr w.dial w.site
        { cls := 0x01, level := 0, unit := req, status := St.corrected, addr := 32 * n }
      (St.corrected, store k (Codeword.fresh data poison))
    | .bad => (St.done, (store k (Codeword.fresh data true)).bump Reg.SPAD_POISON_WR_CNT)

/-- Consecutive codewords written. -/
def Core.writeCws (w : At) (req : Nat) : Nat → Nat → List MByte → Core → Nat × Core
  | 0, _, _, k => (St.done, k)
  | m + 1, n, l, k =>
    let x := k.writeCw w req n (l.take 32)
    let y := Core.writeCws w req m (n + 1) (l.drop 32) x.2
    (St.merge x.1 y.1, y.2)

/-- Bytes written to one row: `l` holds its 256 bytes. -/
def Core.writeRow (k : Core) (w : At) (req row : Nat) (l : List MByte) : Nat × Core :=
  if k.reach (256 * row) then
    let x := Core.writeCws w req 8 (8 * row) l k
    (x.1, x.2.wrote row)
  else (St.bankAsleep, k.asleep)

/-- Bytes from position `i` of a row on, as the row's 256 bytes. -/
def rowBytesAt (i : Nat) (l : List MByte) : List MByte :=
  (List.replicate i none ++ l ++ List.replicate (256 - i - l.length) none).take 256

/-- Bytes cut into rows: row number and its 256 bytes; `m` bounds the rows. -/
def cutRows : Nat → Nat → List MByte → List (Nat × List MByte)
  | 0, _, _ => []
  | m + 1, off, l =>
    if l.isEmpty then []
    else
      let i := off % 256
      (off / 256, rowBytesAt i (l.take (256 - i))) :: cutRows m (off - i + 256) (l.drop (256 - i))

def rowsAt (off : Nat) (l : List MByte) : List (Nat × List MByte) := cutRows (l.length / 256 + 2) off l

/-- Rows written in order; a row without an enabled byte is not accessed. -/
def Core.writeRows (w : At) (req : Nat) : List (Nat × List MByte) → Core → Nat × Core
  | [], k => (St.done, k)
  | (row, l) :: rest, k =>
    let x := if l.all (·.isNone) then (St.done, k) else k.writeRow w req row l
    let y := Core.writeRows w req rest x.2
    (St.merge x.1 y.1, y.2)

/-- Bytes written from an offset on. -/
def Core.writeBytes (k : Core) (w : At) (req off : Nat) (l : List MByte) : Nat × Core :=
  Core.writeRows w req (rowsAt off l) k

/-! ### Accumulate (R166, R167, R174) -/

/-- The bytes of one codeword accumulated element by element. Answers the new bytes and the elements left unchanged because
only some of their bytes were enabled. -/
def accElems (type : Nat) : Nat → List Byte → List MByte → List Byte × Nat
  | 0, old, _ => (old, 0)
  | n + 1, old, inc =>
    let e := accBytes type
    let o := old.take e
    let i := inc.take e
    let x := accElems type n (old.drop e) (inc.drop e)
    if i.all (·.isSome) then (leBytes e (accumulate type (leNat o) (leNat (i.map MByte.byte))) ++ x.1, x.2)
    else (o ++ x.1, if i.any (·.isSome) then x.2 + 1 else x.2)

/-- One codeword accumulated: a stored or incoming bad codeword keeps its stored bytes and is left poisoned (R174). -/
def accCw (type : Nat) (stored : Codeword) (inc : List MByte) : Codeword × Nat × Nat :=
  if inc.all (·.isNone) then (stored, St.done, 0)
  else
    let r := stored.read
    if r.1 = .bad ∨ inc.any MByte.bad then ({ stored with poison := true }, St.uncorrectable, 0)
    else
      let x := accElems type (32 / accBytes type) r.2.data inc
      (Codeword.fresh x.1 false, if r.1 = .corrected then St.corrected else St.done, x.2)

/-- The codewords of a row accumulated with incoming bytes. -/
def accRow (type : Nat) : List Codeword → List MByte → List Codeword × Nat × Nat
  | [], _ => ([], St.done, 0)
  | c :: cs, inc =>
    let x := accCw type c (inc.take 32)
    let y := accRow type cs (inc.drop 32)
    (x.1 :: y.1, St.merge x.2.1 y.2.1, x.2.2 + y.2.2)

/-- The write turn on a row: the buffered codewords combined with the incoming values, and stored. -/
def Core.accStoreRow (k : Core) (row type : Nat) (stored : List Codeword) (inc : List MByte) : Nat × Core :=
  let x := accRow type stored inc
  let k := { k with spad := { k.spad with mem := k.spad.mem.setCws (8 * row) x.1 } }
  let k := if x.2.2 = 0 then k else k.bump Reg.SPAD_ACC_PART_CNT x.2.2
  (x.2.1, k)

/-- The read turn on a row notes every codeword that the accumulate touches; the row's codewords as they stand. -/
def Core.accReadRow (w : At) (req : Nat) : Nat → Nat → List MByte → Core → Core
  | 0, _, _, k => k
  | m + 1, n, inc, k =>
    let k := if (inc.take 32).all (·.isNone) then k else k.noteRead w req n ((k.spad.mem.cw n).read).1
    Core.accReadRow w req m (n + 1) (inc.drop 32) k

/-- A row accumulated by a local unit, both turns in one step: the read turn's notes, then the write turn, whose effects on
held rows follow. -/
def Core.accRowLocal (k : Core) (w : At) (req type row : Nat) (inc : List MByte) : Nat × Core :=
  if k.reach (256 * row) then
    let k := Core.accReadRow w req 8 (8 * row) inc k
    let x := k.accStoreRow row type (k.spad.mem.cws (8 * row) 8) inc
    (x.1, x.2.wrote row)
  else (St.bankAsleep, k.asleep)

/-- Rows accumulated in order. -/
def Core.accRows (w : At) (req type : Nat) : List (Nat × List MByte) → Core → Nat × Core
  | [], k => (St.done, k)
  | (row, l) :: rest, k =>
    let x := if l.all (·.isNone) then (St.done, k) else k.accRowLocal w req type row l
    let y := Core.accRows w req type rest x.2
    (St.merge x.1 y.1, y.2)

/-- Bytes accumulated from an offset on. -/
def Core.accBytesAt (k : Core) (w : At) (req type off : Nat) (l : List MByte) : Nat × Core :=
  Core.accRows w req type (rowsAt off l) k

/-- A plain write (`type` 0) or an accumulate. -/
def Core.storeAt (k : Core) (w : At) (req type off : Nat) (l : List MByte) : Nat × Core :=
  if type = 0 then k.writeBytes w req off l else k.accBytesAt w req type off l

/-- Bytes laid over bytes: enabled ones replace. -/
def overlay (old new : List MByte) : List MByte := List.zipWith (fun o n => if n.isSome then n else o) old new

/-- Pieces (offset, bytes) gathered into the rows they touch. -/
def gather (pieces : List (Nat × List MByte)) : List (Nat × List MByte) :=
  pieces.foldl (fun m p => (rowsAt p.1 p.2).foldl
    (fun m r => alter (List.replicate 256 none) m r.1 fun o => overlay o r.2) m) ([] : Sparse (List MByte))

/-- Pieces stored, each row in one access: a plain write (`type` 0) or an accumulate. -/
def Core.storePieces (k : Core) (w : At) (req type : Nat) (pieces : List (Nat × List MByte)) : Nat × Core :=
  if type = 0 then Core.writeRows w req (gather pieces) k else Core.accRows w req type (gather pieces) k

end Sys2Proof.Machine
end

