-- ==== Sys2Proof/Machine/MeshOps.lean ====
section
/-! DEFINITION. The mesh as its users see it: input buffers and credit (R189), injection of requests (R51, R184, R193,
R199, R314), answers (R185), and the unicast step (R194). -/

namespace Sys2Proof.Machine

/-! ### Buffers -/

/-- Input buffer of port `i`, virtual channel `v`; i = 8 is local injection. -/
def qKey (i v : Nat) : Nat := 4 * i + v

def Router.inbuf (r : Router) (i v : Nat) : List Packet := look [] r.inq (qKey i v)

/-- Units held in a buffer. -/
def unitsIn (l : List Packet) : Nat := (l.map Packet.size).sum

/-- A buffer takes a packet when it has room for every unit of it and for one packet (R189). -/
def roomFor (l : List Packet) (k : Packet) : Bool := decide (unitsIn l + k.size ≤ 64) && decide (l.length < 8)

/-- Occupancy O of R207: units held for a channel over every port except local injection. -/
def Router.occupancy (r : Router) (v : Nat) : Nat := ((List.range 8).map fun i => unitsIn (r.inbuf i v)).sum

/-- The throttle levels that occupancy starts (R207); VC1 has none. Bit 0: level 1 holds; bit 1: level 2 holds. -/
def Core.throttle (k : Core) (v : Nat) : Core :=
  if v = 1 then k
  else
    let cfg := k.rd (Reg.MESH_INJ_CFG + 4 * v)
    let lo := 4 * bits cfg 6 0
    let hi := 4 * bits cfg 13 7
    let o := k.rt.occupancy v
    let l := look 0 k.rt.level v
    let l := if lo ≠ 0 ∧ lo ≤ o then l ||| 1 else l
    let l := if hi ≠ 0 ∧ hi ≤ o then l ||| 2 else l
    { k with rt := { k.rt with level := put k.rt.level v l } }

/-- The throttle level in force, 0 to 2. -/
def Core.level (k : Core) (v : Nat) : Nat :=
  let l := look 0 k.rt.level v
  if l.testBit 1 then 2 else if l.testBit 0 then 1 else 0

/-- A packet placed at the end of an input buffer. -/
def Core.pushIn (k : Core) (i v : Nat) (x : Packet) : Core :=
  let k := { k with rt := { k.rt with inq := put k.rt.inq (qKey i v) (k.rt.inbuf i v ++ [x]) } }
  if i = 8 then k else k.throttle v

/-- The head of an input buffer taken away. -/
def Core.popIn (k : Core) (i v : Nat) : Core :=
  { k with rt := { k.rt with inq := put k.rt.inq (qKey i v) (k.rt.inbuf i v).tail } }

/-- Packets delivered to a core, by channel. -/
def Core.arrived (k : Core) (v : Nat) : List Packet := look [] k.arr v
def Core.pushArr (k : Core) (v : Nat) (x : Packet) : Core := { k with arr := put k.arr v (k.arrived v ++ [x]) }
def Core.popArr (k : Core) (v : Nat) : Core := { k with arr := put k.arr v (k.arrived v).tail }

/-! ### Sources -/

/-- Who injects: a core, a hub or port die through an attachment, or a crown through a column. -/
inductive Issuer
  | core (n : Nat)
  | hub (n att : Nat)
  | port (d q : Nat)
  | crown (c : Crown) (col : Nat)
  deriving DecidableEq, Repr

/-- Site, router input and source edge field of an issuer (R179, R193). -/
def Issuer.place : Issuer → Nat × Nat × Nat
  | .core n => (n, 8, 0)
  | .hub n a => let x := attPlace (hubAtt n a); (x.1, 5 + x.2, x.2)
  | .port d q => let x := attPlace (portAtt d q); (x.1, 5 + x.2, x.2)
  | .crown c col => let x := attPlace (crownAtt c col); (x.1, 5 + x.2, x.2)

/-- The issuer's address-error counter advanced (R51). -/
def Issuer.addrErr (i : Issuer) (p : Panel) : Panel :=
  match i with
  | .core n => p.modCore n fun k => k.bump Reg.MESH_ADDR_ERR_CNT
  | .hub n _ => p.modHub n fun k => k.bump Reg.HUB_ADDR_ERR_CNT
  | .port d _ => p.modPort d fun k => k.bump Reg.PORT_ADDR_ERR_CNT
  | .crown _ _ => p.bumpSh Reg.PANEL_ADDR_ERR_CNT

/-- What becomes of a request at its source. -/
inductive Inj
  | sent (targets : Nat)        -- injected; real targets of a multicast, 1 otherwise
  | refused (status : Nat)      -- answered locally
  | stall                       -- the router cannot take it yet
  deriving DecidableEq, Repr

/-- A core belongs to a partition (R87, R184). -/
def Core.partValid (k : Core) : Bool := (k.rd Reg.CORE_PART).testBit 31
def Core.part (k : Core) : Nat := k.rd Reg.CORE_PART % 32

/-- The map entry of a decoded request: logical core, or attachment (R192, R193), with the edge port behind it. -/
def Panel.entryFor (p : Panel) (ga : Nat) (t : Target) : Option (Nat × Nat) :=
  match t with
  | .spad x y _ => some (y * p.fuses.lwidth + x, 0)
  | .coreReg x y _ => some (y * p.fuses.lwidth + x, 0)
  | _ => (p.attachFor ga t).map fun i => (320 + i, (attPlace i).2)

/-- The logical cores that the masks of a multicast name (R199). -/
def mcastSet (lw cmask rmask : Nat) : List (Nat × Nat) :=
  ((List.range 16).filter (rmask.testBit ·)).flatMap fun y => ((List.range lw).filter (cmask.testBit ·)).map fun x => (x, y)

/-- A multicast target that the source's map reaches. -/
def Core.mcastReal (k : Core) (lw : Nat) (x : Nat × Nat) : Bool :=
  let e := k.rmap (x.2 * lw + x.1)
  e.state == 1 && e.turn != 3

/-- A request injected at its source (R51, R184, R193, R199, R314): the header gives opcode, address, lengths, masks,
sequence number and operands; the source fields, partition and destination are set here. -/
def Panel.inject (p : Panel) (i : Issuer) (h : Header) (units : List Codeword) : Inj × Panel :=
  let (n, input, sedge) := i.place
  let k := p.core n
  if ¬ k.powered then (.refused St.siteRetired, p)
  else if h.opcode = Opc.mcast then
    let lw := p.fuses.lwidth
    if h.cmask = 0 ∨ h.rmask = 0 ∨ 2 ^ lw ≤ h.cmask ∨ bits h.ga 55 43 ≠ 0 ∨ bits h.ga 42 27 ≠ 0 ∨ bits h.ga 26 0 ≥ spadTop then
      (.refused St.notPermitted, i.addrErr p)
    else if sedge = 0 ∧ ¬ k.partValid then
      (.refused St.notPermitted, p.modCore n fun k => k.bump Reg.MESH_PART_REFUSE_CNT)
    else
      let set := mcastSet lw h.cmask h.rmask
      let real := set.filter (k.mcastReal lw)
      let x := Packet.mk' { h with
        vc := 3, sedge := sedge, sc := siteC n, sr := siteR n, part := if sedge = 0 then k.part else h.part } units
      if real.isEmpty then (.sent 0, p.modCore n fun k => k.bump Reg.MESH_MCAST_SKIP_CNT set.length)
      else if ¬ roomFor (k.rt.inbuf input 3) x then (.stall, p)
      else
        let skipped := set.length - real.length
        (.sent real.length, p.modCore n fun k =>
          (if skipped = 0 then k else k.bump Reg.MESH_MCAST_SKIP_CNT skipped).pushIn input 3 x)
  else
    match p.decodeGA h.ga with
    | .error st => (.refused st, i.addrErr p)
    | .ok t =>
      if sedge = 0 ∧ ¬ k.partValid then
        (.refused St.notPermitted, p.modCore n fun k => k.bump Reg.MESH_PART_REFUSE_CNT)
      else match p.entryFor h.ga t with
        | none => (.refused St.portDown, i.addrErr p)
        | some (e, dedge) => match k.route e dedge with
          | .vacant => (.refused St.siteRetired, p)
          | .unreachable => (.refused St.siteRetired, p.modCore n fun k => k.bump Reg.MESH_UNREACH_CNT)
          | .to dc dr de turn =>
            let v := Opc.vc h.opcode
            let x := Packet.mk' { h with
              vc := v, sedge := sedge, sc := siteC n, sr := siteR n, dc := dc, dr := dr,
              dedge := de, turn := turn, part := if sedge = 0 then k.part else h.part } units
            if roomFor (k.rt.inbuf input v) x then (.sent 1, p.modCore n fun k => k.pushIn input v x)
            else (.stall, p)

/-- An answer injected where its request was taken (R185, R193); an answer whose source no entry of the map names is
discarded and counted. -/
def Panel.answerWith (p : Panel) (i : Issuer) (req : Header) (h : Header) (units : List Codeword) : Panel :=
  let (n, input, sedge) := i.place
  match (p.core n).routeBack req.sc req.sr with
  | none => p.modCore n fun k => k.bump Reg.MESH_DROP_CNT
  | some e =>
    let x := Packet.mk' { h with
      vc := 1, sedge := sedge, sc := siteC n, sr := siteR n, dc := e.c, dr := e.r,
      dedge := req.sedge, turn := e.turn, seq := req.seq, part := req.part } units
    p.modCore n fun k => k.pushIn input 1 x

/-- A COMPLETION for a request (R180, R185). -/
def Panel.complete (p : Panel) (i : Issuer) (req : Header) (status : Nat) : Panel :=
  p.answerWith i req { opcode := Opc.completion, ga := req.ga, status := status } []

/-- The return address of a READ_REQ (R181). -/
def returnGA (x : Packet) : Nat := match x.units with
  | [] => 0
  | u :: _ => leAt u.data 0 7

/-- A READ_DATA with the data of a request (R185). -/
def Panel.readAnswer (p : Panel) (i : Issuer) (req : Header) (ret status : Nat) (units : List Codeword) : Panel :=
  p.answerWith i req { opcode := Opc.readData, ga := ret, bytes := req.bytes, len := units.length, status := status } units

/-- A refused or failed read: no data (R185). -/
def Panel.readRefuse (p : Panel) (i : Issuer) (req : Header) (ret status : Nat) : Panel :=
  p.answerWith i req { opcode := Opc.readData, ga := ret, bytes := 0, len := 0, status := status } []

/-- The answer that a request refused at delivery gets, if its opcode has one (R180, R532). -/
def Panel.refuse (p : Panel) (i : Issuer) (x : Packet) (status : Nat) : Panel :=
  if x.hdr.opcode = Opc.readReq then p.readRefuse i x.hdr (returnGA x) status
  else if Opc.answered x.hdr.opcode then p.complete i x.hdr status
  else p

/-! ### Data aligned to another address -/

/-- Codewords cut into bytes with the poison of each byte's codeword (R222). -/
def unitBytes (us : List Codeword) : List (Byte × Bool) := us.flatMap fun u =>
  let r := u.read
  r.2.data.map fun b => (b, r.1 == .bad)

/-- Bytes with their poison, placed at an address: whole units fresh, a unit with a bad byte poisoned (R220, R222). -/
def unitsFrom (ga : Nat) (bs : List (Byte × Bool)) : List Codeword :=
  let n := lenFor ga bs.length
  let l := List.replicate (ga % 32) ((0 : Byte), false) ++ bs
  let l := l ++ List.replicate (32 * n - l.length) ((0 : Byte), false)
  (List.range n).map fun i =>
    let u := (l.drop (32 * i)).take 32
    Codeword.fresh (u.map (·.1)) (u.any (·.2))

/-! ### The unicast step (R194) -/

/-- Where a packet goes next: out of a port to a neighbouring site, or delivered, or nowhere. -/
inductive Next
  | hop (port site : Nat)
  | core
  | edge (which : Nat)
  | dead
  deriving DecidableEq, Repr

/-- A port of a router that carries traffic: up or degraded, and not held for lane repair (R191, R196). -/
def Core.linkUp (k : Core) (port : Nat) : Bool :=
  let l := look {} k.rt.link port
  (l.state == 1 || l.state == 2)

/-- A site to which a port leads, if it is on the grid: 0 north, 1 east, 2 south, 3 west, 4 east jumper, 5 west
jumper. -/
def portSite (n port : Nat) : Option Nat :=
  let c := siteC n
  let r := siteR n
  match port with
  | 0 => if r = 0 then none else some (siteOf c (r - 1))
  | 1 => if c = 20 then none else some (siteOf (c + 1) r)
  | 2 => if r = 15 then none else some (siteOf c (r + 1))
  | 3 => if c = 0 then none else some (siteOf (c - 1) r)
  | 4 => if c + 2 ≤ 20 then some (siteOf (c + 2) r) else none
  | 5 => if 2 ≤ c then some (siteOf (c - 2) r) else none
  | _ => none

/-- The port at the far end of a link. -/
def farPort (port : Nat) : Nat :=
  match port with
  | 0 => 2
  | 1 => 3
  | 2 => 0
  | 3 => 1
  | 4 => 5
  | 5 => 4
  | q => q

/-- A hop over a port that is usable, or nowhere. -/
def Panel.hopOr (p : Panel) (n port : Nat) : Next :=
  match portSite n port with
  | none => .dead
  | some m => if p.powered m ∧ (p.core n).linkUp port then .hop port m else .dead

/-- The column of a unicast packet's Y leg (R194). -/
def Header.tc (h : Header) : Int := if h.turn = 1 then (h.dc : Int) - 2 else if h.turn = 2 then h.dc + 2 else h.dc

/-- The next step of a unicast packet at a router (R194, R196): X leg with a bypass over an unpowered neighbour, Y leg,
then the descent, which is the last hop. -/
def Panel.nextHop (p : Panel) (n : Nat) (h : Header) : Next :=
  let c : Int := siteC n
  let r := siteR n
  if siteC n = h.dc ∧ r = h.dr then (if h.dedge = 0 then .core else .edge h.dedge)
  else if c ≠ h.tc then
    let near := if c < h.tc then 1 else 3
    let far := if c < h.tc then 4 else 5
    match p.hopOr n near with
    | .hop q m => .hop q m
    | _ => if (c + 1 = h.tc ∨ c - 1 = h.tc) then .dead else p.hopOr n far
  else if r ≠ h.dr then p.hopOr n (if r < h.dr then 2 else 0)
  else
    let port := if c < h.dc then 4 else 5
    match portSite n (if c < h.dc then 1 else 3) with
    | none => .dead
    | some mid => if p.powered mid then p.hopOr n port else .dead

end Sys2Proof.Machine
end

