-- ==== Sys2Proof/Machine/SeqOps.lean ====
section
/-! DEFINITION. The task sequencer's shared operations: registers, semaphores, start entries, messages, fences, task
words and their faults, reports (R63–R84). -/

namespace Sys2Proof.Machine

/-! ### Registers and semaphores (R67, R76, R77) -/

/-- Register gn; g0 reads as zero (R67). -/
def Core.g (k : Core) (n : Nat) : W64 := if n = 0 then 0 else look 0 k.seq.g n

/-- Register gn written; a write of g0 is ignored (R67). -/
def Core.setG (k : Core) (n : Nat) (v : W64) : Core :=
  if n = 0 then k else { k with seq := { k.seq with g := putZ k.seq.g n v } }

def Core.sem (k : Core) (n : Nat) : Nat := (look 0 k.seq.sem n).toNat

/-- The semaphore's saturation noted (R77). -/
def Core.semSat (k : Core) (n : Nat) : Core :=
  let off := Reg.SEQ_SEM_SAT + 4 * (n / 32)
  (k.wr off (k.rd off ||| 2 ^ (n % 32))).bump Reg.SEQ_SEM_SAT_CNT

def Core.setSem (k : Core) (n v : Nat) : Core :=
  { k with seq := { k.seq with sem := putZ k.seq.sem n (BitVec.ofNat 32 v) } }

/-- A semaphore operation: mode 0 add, 1 set, 2 subtract (R76, R77). -/
def Core.semOp (k : Core) (n mode v : Nat) : Core :=
  let x := k.sem n
  match mode with
  | 0 => if x + v > cntTop then (k.setSem n cntTop).semSat n else k.setSem n (x + v)
  | 1 => k.setSem n v
  | _ => if x < v then (k.setSem n 0).semSat n else k.setSem n (x - v)

/-! ### Task words (R70–R72) -/

namespace Tw
def nop : Nat := 0x00
def stop : Nat := 0x01
def fence : Nat := 0x02
def dispatch : Nat := 0x04
def dmaStart : Nat := 0x08
def semWait : Nat := 0x0C
def semSignal : Nat := 0x0D
def semRead : Nat := 0x0E
def post : Nat := 0x10
def recv : Nat := 0x11
def ldi : Nat := 0x14
def alu : Nat := 0x15
def loop : Nat := 0x18
def br : Nat := 0x1A
end Tw

/-- A field of a task word. -/
def TaskWord.f (w : TaskWord) (hi lo : Nat) : Nat := Sys2Proof.bits w.bits.toNat hi lo
def TaskWord.op (w : TaskWord) : Nat := w.f 127 122
def TaskWord.fmask (w : TaskWord) : Nat := w.f 121 112

/-- The bits of [111:0] that the layout of an opcode names (R72); none for a reserved opcode (R71). -/
def twNamed (op : Nat) : Option Nat :=
  let m (hi lo : Nat) : Nat := (2 ^ (hi + 1 - lo) - 1) * 2 ^ lo
  if op = Tw.nop then some 0
  else if op = 0x01 then some (m 111 103)
  else if op = Tw.fence then some (m 111 111)
  else if op = Tw.dispatch then some (m 111 85 + m 79 0)
  else if op = Tw.dmaStart then some (m 111 78)
  else if op = Tw.semWait then some (m 111 42)
  else if op = Tw.semSignal then some (m 111 55)
  else if op = Tw.semRead then some (m 111 99)
  else if op = Tw.post then some (m 111 76)
  else if op = Tw.recv then some (m 111 74)
  else if op = Tw.ldi then some (m 111 107 + m 63 0)
  else if op = Tw.alu then some (m 111 92 + m 31 0)
  else if op = Tw.loop then some (m 109 58)
  else if op = Tw.br then some (m 111 89)
  else none

/-- The causes 0x2 of R84 beyond unnamed bits. -/
def twReserved (w : TaskWord) : Bool :=
  let op := w.op
  if op = Tw.dispatch then decide (w.f 111 109 ≥ 6)
  else if op = Tw.semSignal then w.f 103 102 == 3 || (w.f 101 101 == 0 && w.f 95 87 != 0)
  else if op = Tw.post then w.f 111 110 == 3 || (w.f 111 110 != 0 && w.f 109 101 != 0) || decide (w.f 95 92 > 8)
  else if op = Tw.recv then decide (w.f 106 103 > 8)
  else if op = Tw.alu then decide (w.f 96 93 > 0xA)
  else if op = Tw.br then w.f 101 99 == 7
  else false

/-- The word at the head of issue; none past the last word. -/
def Task.head (t : Task) : Option TaskWord := t.words[t.pc]?

/-- Loops whose body encloses the head word: those on the stack. -/
def Task.loopFault (t : Task) (w : TaskWord) : Bool :=
  let body := w.f 104 95
  let last := t.pc + body
  decide (t.loops.length ≥ 4) || body == 0 || decide (last ≥ t.words.length) ||
    (match t.loops with | [] => false | l :: _ => decide (last > l.last))

/-- The iterations of a LOOP word: `cnt` + `gc` as an unsigned 64-bit sum (R74). -/
def Core.loopCount (k : Core) (w : TaskWord) : Nat := (BitVec.ofNat 64 (w.f 94 63) + k.g (w.f 109 105)).toNat

/-- The fault of the word at the head of issue (R84): cause and status; the lowest cause. -/
def Core.wordFault (k : Core) (t : Task) : Option (Nat × Nat) :=
  match t.head with
  | none => some (0x8, St.notPermitted)
  | some w =>
    let op := w.op
    match w.bad with
    | some st => some (0x9, st)
    | none => match twNamed op with
      | none => some (0x1, St.notPermitted)
      | some m =>
        if (w.bits.toNat % 2 ^ 112) &&& m ≠ w.bits.toNat % 2 ^ 112 ∨ twReserved w then some (0x2, St.notPermitted)
        else if op = Tw.dmaStart ∧
            (((k.g (w.f 109 105)).toNat % 2 ^ 27 + w.f 104 78) % 64 ≠ 0 ∨
             (k.g (w.f 109 105)).toNat % 2 ^ 27 + w.f 104 78 > 0x6FFFFC0) then some (0x3, St.notPermitted)
        else if (op = Tw.post ∧ w.f 100 96 + w.f 95 92 > 32) ∨ (op = Tw.recv ∧ w.f 111 107 + w.f 106 103 > 32) then
          some (0x4, St.notPermitted)
        else if op = Tw.loop ∧ t.loopFault w then some (0x5, St.notPermitted)
        else if op = Tw.loop ∧ k.loopCount w > cntTop then some (0x6, St.notPermitted)
        else if op = Tw.br ∧ w.f 98 89 ≥ t.words.length then some (0x7, St.notPermitted)
        else none

/-! ### Fences (R69, R75) -/

def Core.eng (k : Core) (n : Nat) : MatEng := look {} k.me n
def Core.setEng (k : Core) (n : Nat) (e : MatEng) : Core := { k with me := put k.me n e }
def Core.ch (k : Core) (n : Nat) : DmaCh := look {} k.dma n
def Core.setCh (k : Core) (n : Nat) (c : DmaCh) : Core := { k with dma := put k.dma n c }

/-- A unit of the fence mask has completed all the work it accepted: 0–3 ME0–ME3, 4 VE, 5 RU, 6–9 DMA0–DMA3. Words
issue in order, so that all of it was accepted before the word at the head. -/
def Core.unitIdle (k : Core) (u : Nat) : Bool :=
  if u < 4 then (k.eng u).queue.isEmpty && (k.eng u).array.isNone && (k.eng u).xfer.isNone
  else if u = 4 then k.ve.queue.isEmpty && k.ve.map.isNone && k.ve.xfer.isNone
  else if u = 5 then k.ru.queue.isEmpty && k.ru.run.isNone
  else let c := k.ch (u - 6); c.queue.isEmpty && c.cur.isNone && c.waiting.isEmpty

/-- Every unit named in a mask is idle. -/
def Core.fenceOk (k : Core) (mask : Nat) : Bool := (List.range 10).all fun u => !mask.testBit u || k.unitIdle u

/-- All accepted engine and DMA work has completed. -/
def Core.allIdle (k : Core) : Bool := k.fenceOk 0x3FF

/-- The running task's own remote operations have their COMPLETIONs. -/
def Core.remoteIdle (k : Core) : Bool := k.seq.remote.all fun o => !o.own

/-! ### Task state -/

def Core.setTask (k : Core) (t : Task) : Core := { k with seq := { k.seq with task := some t } }
def Core.modTask (k : Core) (f : Task → Task) : Core :=
  match k.seq.task with
  | none => k
  | some t => k.setTask (f t)

/-- A status of the task's report noted: the first such stands (R66). -/
def Core.noteStatus (k : Core) (st : Nat) : Core :=
  if St.ok st then k else k.modTask fun t => if t.status.isNone then { t with status := some st } else t

/-- A fault that an engine or channel reports (R84, cause 0x9): the first stands. -/
def Core.unitFault (k : Core) (pc opcode st : Nat) : Core :=
  k.modTask fun t => if t.unitFault.isNone then { t with unitFault := some ⟨pc, opcode, st⟩ } else t

/-- The task that issues its words: running, its list copied, no fault of a unit pending. -/
def Core.issuing (k : Core) : Option Task :=
  match k.seq.state, k.seq.task with
  | .run, some t => if t.copying ∨ t.unitFault.isSome then none else some t
  | _, _ => none

/-- The word that can issue now under an opcode: it stands at the head, meets no fault, and its fence mask holds. -/
def Core.ready (k : Core) (op : Nat) : Option (Task × TaskWord) :=
  match k.issuing with
  | none => none
  | some t => match t.head with
    | none => none
    | some w =>
      if w.op = op ∧ (k.wordFault t).isNone ∧ k.fenceOk w.fmask then some (t, w) else none

/-- The end of a loop body reached at word `pc`: the back-edge of the innermost loop, or its end (R74). The Nat bounds
the loops that end together. -/
def loopStep : Nat → List LoopRec → Nat → List LoopRec × Nat × List (Nat × Nat)
  | 0, ls, pc => (ls, pc + 1, [])
  | _ + 1, [], pc => ([], pc + 1, [])
  | n + 1, l :: ls, pc =>
    if l.last ≠ pc then (l :: ls, pc + 1, [])
    else if l.index + 1 < l.count then ({ l with index := l.index + 1 } :: ls, l.first, [(l.gi, l.index + 1)])
    else loopStep n ls pc

/-- The task moved past a word at `pc` that ends in sequence: to the next word, or over a back-edge. -/
def Core.advance (k : Core) (t : Task) : Core :=
  let (ls, pc, wr) := loopStep 5 t.loops t.pc
  let k := k.setTask { t with loops := ls, pc := pc, waitFrom := none }
  wr.foldl (fun k x => k.setG x.1 (BitVec.ofNat 64 x.2)) k

/-! ### Start entries (R63, R64) -/

/-- A start entry read from 96 bytes; none when a reserved bit is set, a field holds a reserved value, or `length` and
`offset` are out of range (R63, R64). -/
def parseStart (lw : Nat) (bs : List Byte) : Option StartEntry :=
  let w0 := leAt bs 0 8
  let w1 := leAt bs 8 8
  let e : StartEntry :=
    { tag := bits w0 63 48, report := w0.testBit 47, plan := bits w0 46 42, part := bits w0 41 37,
      length := bits w0 36 27, offset := bits w0 26 0, ry := bits w1 16 13, rx := bits w1 12 8, rkind := bits w1 7 0,
      args := (List.range 8).map fun i => BitVec.ofNat 64 (leAt bs (16 + 8 * i) 8) }
  if bits w1 63 17 ≠ 0 ∨ leAt bs 80 16 ≠ 0 ∨ e.rkind > 2 ∨ e.offset % 16 ≠ 0 ∨
      e.offset + 16 * (e.length + 1) > spadTop ∨ (e.rkind = 0 ∧ e.rx ≥ lw) then none
  else some e

/-- Who sends a START (R63). -/
inductive StartFrom
  | ring
  | crown
  | core
  | other
  deriving DecidableEq, Repr

/-- The checks of R63 in their order: the status of a START, and the core with an accepted entry queued. `bad` says
that a payload unit was uncorrectable or poisoned. -/
def Core.takeStart (k : Core) (lw : Nat) (from' : StartFrom) (part : Nat) (bs : List Byte) (bad : Bool) : Nat × Core :=
  let refuse (st : Nat) : Nat × Core := (st, k.bump Reg.SEQ_START_REFUSE_CNT)
  let samePart := k.partValid && part == k.part
  let senderOk : Bool := match from' with
    | .ring => true
    | .crown => true
    | .core => samePart
    | .other => false
  if ¬ senderOk then refuse St.notPermitted
  else if bad then refuse St.uncorrectable
  else match parseStart lw bs with
    | none => refuse St.notPermitted
    | some e =>
      if ¬ (k.partValid ∧ e.part = k.part) then refuse St.notPermitted
      else match k.seq.state with
        | .test => refuse St.drained
        | .draining => refuse St.drained
        | .halted => refuse St.siteRetired
        | _ =>
          if k.seq.starts.length ≥ 8 then refuse St.timedOut
          else (St.done, { k with seq := { k.seq with starts := k.seq.starts ++ [e] } })

/-! ### Messages and reports (R66, R80) -/

/-- A sequence number that no outstanding request of the core uses. -/
def Core.seqUsed (k : Core) (n : Nat) : Bool :=
  k.seq.remote.any (·.seq = n) || k.seq.reports.any (· = n) ||
    (List.range 4).any fun c => (k.ch c).track.any fun x => x.2.seq == n

/-- The smallest sequence number not in use (notes/assumptions/9.md). -/
def Core.freshSeq (k : Core) : Nat := ((List.range 1200).find? fun n => !k.seqUsed n).getD 0

/-- The core number that a report carries (R20, R66). -/
def Core.number (k : Core) (lw : Nat) : Nat := let v := k.rd Reg.CORE_SITE; bits v 14 11 * lw + bits v 19 15

/-- The global address of a message to a core inbox, or to a crown context engine (R80, R180). -/
def msgGA (kind x y : Nat) : Nat :=
  if kind = 0 then gaCoreReg x y 0 else if kind = 1 then gaCrown .north 0 else gaCrown .south 0

/-- The 32 bytes of a task report (R66). -/
def reportBytes (tag status number cycles : Nat) : List Byte :=
  leBytes 2 tag ++ leBytes 1 status ++ [0] ++ leBytes 2 number ++ [0, 0] ++ leBytes 4 (Nat.min cycles cntTop) ++
    List.replicate 20 0

/-- A report injected: none when the router cannot take it yet; a report whose target fails decoding is counted and not
sent (R66). -/
def Panel.sendReport (p : Panel) (n : Nat) (e : StartEntry) (status cycles : Nat) : Option Panel :=
  let k := p.core n
  let seq := k.freshSeq
  let bs := reportBytes e.tag status (k.number p.fuses.lwidth) cycles
  let h : Header :=
    { opcode := Opc.msg, ga := msgGA e.rkind e.rx e.ry, bytes := 32, len := 1, seq := seq, mtag := 0xFFFF,
      mkind := if e.rkind = 0 then 0 else 2 }
  match p.inject (.core n) h (unitsOf 0 bs) with
  | (.stall, _) => none
  | (.refused _, p) => some p
  | (.sent _, p) => some (p.modCore n fun k => { k with seq := { k.seq with reports := k.seq.reports ++ [seq] } })

/-- What SEQ_FAULT holds (R87). -/
def seqFaultBits (cause opcode status pc : Nat) : Nat :=
  2 ^ 31 + cause % 16 * 2 ^ 27 + opcode % 64 * 2 ^ 21 + status % 256 * 2 ^ 13 + pc % 1024

/-- A fault recorded: SEQ_FAULT holds the first until it is cleared, SEQ_FAULT_CNT counts each (R84). -/
def Core.recordFault (k : Core) (cause opcode status pc : Nat) : Core :=
  let k := if (k.rd Reg.SEQ_FAULT).testBit 31 then k else k.wr Reg.SEQ_FAULT (seqFaultBits cause opcode status pc)
  k.bump Reg.SEQ_FAULT_CNT

/-- The task gone: the core goes on to its next start entry, its remote operations no longer belong to a task. -/
def Core.endTask (k : Core) (dial cycles : Nat) : Core :=
  let k := (k.wr Reg.SEQ_TASK_CYC cycles).bump Reg.SEQ_TASK_CNT
  { k with seq := { k.seq with
    task := none
    state := if k.seq.state = .run then .idle else k.seq.state
    remote := k.seq.remote.map fun o => { o with own := false }
    idleSince := dial } }

end Sys2Proof.Machine
end

