-- ==== Sys2Proof/Machine/Transcend.lean ====
section
/-! DEFINITION. The transcendental opcodes (R140): special inputs exactly, every other operand by the unit's table, which the
manual does not give, within the accuracy that R140 states. The exact results are taken to 160 bits
(notes/assumptions/2.md). -/

namespace Sys2Proof.Machine

/-! ### Fixed point with 160 bits of fraction -/

def fxS : Nat := 2 ^ 160
def fxLn2 : Int := 1013035739299659071135698605846798551586536899366
def fxLog2e : Int := 2108501164428393954197770173035669514763056903505
def fxTwoOverSqrtPi : Int := 1649128000240172121335468122222580532118151184855

def fxMul (a b : Int) : Int := a * b / fxS

/-- A number in fixed point, rounded down. -/
def fxOf (s : Bool) (m : Nat) (e : Int) : Int :=
  let k : Int := if e + 160 ≥ 0 then (m * 2 ^ (e + 160).toNat : Nat) else ((m / 2 ^ (-(e + 160)).toNat : Nat) : Int)
  if s then -k else k

/-- Σ y^k / k! from the k-th term on. -/
def fxExpSum : Nat → Nat → Int → Int → Int
  | 0, _, _, _ => 0
  | n + 1, k, y, term => term + fxExpSum n (k + 1) y (fxMul term y / (k + 1 : Int))

/-- 2^x for x in fixed point, as mantissa in [1, 2) and exponent. -/
def fxExp2 (x : Int) : Nat × Int :=
  let i := x / fxS
  let f := x - i * fxS
  ((fxExpSum 48 0 (fxMul f fxLn2) fxS).toNat, i)

/-- The quotient of two naturals as a value. -/
def ratio (s : Bool) (n d : Nat) : FVal := .num s (n * 2 ^ 300 / d) (-300)

/-- mantissa × 2^i as a natural over 2^c, for i + c ≥ 160. -/
def fxNat (m : Nat) (i : Int) (c : Nat) : Nat := m * 2 ^ (i + c).toNat / fxS

/-- log2 of a mantissa in [1, 2), bit by bit. -/
def fxLog2 : Nat → Nat → Nat → Nat
  | 0, _, acc => acc
  | n + 1, m, acc =>
    let q := m * m / fxS
    if q ≥ 2 * fxS then fxLog2 n (q / 2) (2 * acc + 1) else fxLog2 n q (2 * acc)

/-- Σ (−1)^k a^(2k+1) / (k! (2k+1)). -/
def fxErfSum : Nat → Nat → Int → Int → Int
  | 0, _, _, _ => 0
  | n + 1, k, a2, term => term / (2 * k + 1 : Int) + fxErfSum n (k + 1) a2 (-(fxMul term a2) / (k + 1 : Int))

/-! ### The exact functions away from their special inputs -/

def exactExp2 (s : Bool) (m : Nat) (e : Int) : FVal :=
  let r := fxExp2 (fxOf s m e)
  .num false r.1 (r.2 - 160)

def exactLog2 (m : Nat) (e : Int) : FVal :=
  let k := Nat.log2 m
  let f := fxLog2 120 (m * 2 ^ 160 / 2 ^ k) 0
  let v : Int := (e + k) * 2 ^ 120 + f
  .num (v < 0) v.natAbs (-120)

def exactRcp (s : Bool) (m : Nat) (e : Int) : FVal := (ratio s 1 m).scale (-e)

def exactRsqrt (m : Nat) (e : Int) : FVal :=
  let m := if e % 2 = 0 then m else 2 * m
  let e := if e % 2 = 0 then e else e - 1
  (ratio false (2 ^ 160) (Nat.sqrt (m * 2 ^ 320))).scale (-(e / 2))

/-- 1 / (1 + e^−a). -/
def exactSigm (s : Bool) (m : Nat) (e : Int) : FVal :=
  let x := fxOf s m e
  if x < -(220 * fxS : Int) then .num false 0 0
  else
    let r := fxExp2 (fxMul (-x) fxLog2e)
    ratio false (2 ^ 600) (2 ^ 600 + fxNat r.1 r.2 600)

def exactTanh (s : Bool) (m : Nat) (e : Int) : FVal :=
  let r := fxExp2 (2 * fxMul (fxOf false m e) fxLog2e)
  let x := fxNat r.1 r.2 160
  ratio s (x - fxS) (x + fxS)

def exactErf (s : Bool) (m : Nat) (e : Int) : FVal :=
  let a := fxOf false m e
  let v := fxMul fxTwoOverSqrtPi (fxErfSum 120 0 (fxMul a a) a)
  .num s v.natAbs (-160)

/-! ### Bounds -/

/-- |a − b| ≤ m × 2^e. -/
def within (a b : FVal) (m : Nat) (e : Int) : Bool :=
  match a.add b.neg with
  | .num _ k f => let u := min e f; decide (k * 2 ^ (f - u).toNat ≤ m * 2 ^ (e - u).toNat)
  | _ => false

/-- The exponent of the unit in the last place of FP32 at a value. -/
def ulp32 (v : FVal) : Int := max (-149) (v.expo - 23)

/-- The bounds of R140 for an exact result. -/
def boundOk (opc : Nat) (a v cand : FVal) : Bool :=
  match opc with
  | 0x40 => if v.lt (.num false 1 (-126)) then within cand v 1 (-149) else within cand v 2 (ulp32 v)
  | 0x41 =>
    if (a.lt (.num false 1 (-1)) || (FVal.num false 2 0).lt a) then within cand v 2 (ulp32 v) else within cand v 1 (-22)
  | 0x42 => within cand v 1 (ulp32 v)
  | 0x43 => within cand v 2 (ulp32 v)
  | 0x44 => within cand v 3 (ulp32 v) || within cand v 1 (-140)
  | 0x45 => within cand v 1 (-23)
  | _ => within cand v 1 (-22)

/-- |a| ≥ n for a number. -/
def magGe (m : Nat) (e : Int) (n : Nat) : Bool := !(FVal.num false m e).lt (.num false n 0)

/-- The unit's result on FP32 bits: special inputs exactly, else its own value within the bound, else the nearest. -/
def transcend (opc x : Nat) : Nat :=
  let a := fp32.decode x
  let one (s : Bool) : Nat := fp32.pack s 127 0
  let pick (v : FVal) : Nat :=
    let c := (Config.transcendental opc (BitVec.ofNat 32 x)).toNat
    if boundOk opc a v (fp32.decode c) then c else fp32.round v
  match a with
  | .nan => fp32.qnan
  | .inf s =>
    match opc with
    | 0x40 => if s then 0 else fp32.infBits false
    | 0x41 => if s then fp32.qnan else fp32.infBits false
    | 0x42 => fp32.pack s 0 0
    | 0x43 => if s then fp32.qnan else 0
    | 0x44 => if s then 0 else one false
    | _ => one s
  | .num s m e =>
    if m = 0 then
      match opc with
      | 0x40 => one false
      | 0x41 => fp32.infBits true
      | 0x42 => fp32.infBits s
      | 0x43 => fp32.infBits s
      | 0x44 => pick (.num false 1 (-1))
      | _ => fp32.pack s 0 0
    else
      match opc with
      | 0x40 =>
        if ¬ s ∧ magGe m e 128 then fp32.infBits false
        else if s ∧ (FVal.num true m e).lt (.num true 150 0) then 0
        else
          let v := exactExp2 s m e
          let whole := convertInt 32 .zero a
          if fp32.decode (fp32.round (FVal.ofInt (int32 whole.1))) = fp32.decode x ∧ ¬ (FVal.num s m e).lt (.num true 126 0)
          then fp32.round v else pick v
      | 0x41 =>
        if s then fp32.qnan
        else if m = 2 ^ Nat.log2 m then fp32.round (FVal.ofInt (e + Nat.log2 m))
        else pick (exactLog2 m e)
      | 0x42 =>
        let v := exactRcp s m e
        if fp32.round v = fp32.infBits s then fp32.infBits s else pick v
      | 0x43 => if s then fp32.qnan else pick (exactRsqrt m e)
      | 0x44 => if ¬ s ∧ magGe m e 17 then one false else pick (exactSigm s m e)
      | 0x45 => if magGe m e 10 then one s else pick (exactTanh s m e)
      | _ => if magGe m e 4 then one s else pick (exactErf s m e)

end Sys2Proof.Machine
end

