-- ==== Sys2Proof/Machine/EngineOps.lean ====
section
/-! DEFINITION. What the engines share: start checks, slots, cycle counts, undefined values and completion (R115–R118, R141,
R142, R149, R164, R174). -/

namespace Sys2Proof.Machine

open Host (Outcome)

/-! ### Commands of engines -/

/-- An engine command at a powered site: the first of the free values it may use, the place, and the core. -/
def State.eng (s : State) (n : Nat) (f : Nat → At → Core → Core) : Outcome State Fault Refusal :=
  s.atCore n fun k p => ({ p with free := p.free + 65536 } : Panel).setCore n (f p.free (p.at' n) k)

/-- The i-th free value of a command. -/
def fv (base i : Nat) : Nat := (Config.freeValue (base + i)).toNat

/-- A field of an `op` (R106, R132, R144). -/
def QOp.f (q : QOp) (hi lo : Nat) : Nat := fld q.op hi lo
def QOp.kind (q : QOp) : Nat := q.f 79 76

/-- Bits [63:27] of a base register nonzero. -/
def baseBad (v : W64) : Bool := decide (2 ^ 27 ≤ v.toNat)
/-- The offset that a base register gives. -/
def baseOff (v : W64) : Nat := v.toNat % 2 ^ 27

/-- Bits of an `op` outside a list of (hi, lo) fields are set. -/
def QOp.unnamed (q : QOp) (fields : List (Nat × Nat)) : Bool :=
  let m := fields.foldl (fun m x => m ||| ((2 ^ (x.1 + 1 - x.2) - 1) <<< x.2)) 0
  decide (q.op.toNat &&& m ≠ q.op.toNat)

/-- The first cause, in rising order, whose check fails. -/
def firstCause (l : List (Nat × Bool)) : Option Nat := (l.find? (·.2)).map (·.1)

/-! ### Slots and cycle counts -/

/-- Slots below L of a plan that an owner holds. -/
def planSlots (plan : W64) (len code : Nat) : Nat :=
  ((List.range (len + 1)).filter fun i => bits plan.toNat (4 * i + 3) (4 * i) = code).length

/-- Slots of an owner in the plan in force, and L (R158, R163). -/
def Core.slots (k : Core) (code : Nat) : Nat × Nat :=
  match k.seq.task with
  | none => (planSlots 0x76543210 7 code, 8)
  | some t => (planSlots t.plan t.planLen code, t.planLen + 1)

/-- A unit owns no slot (R164). -/
def Core.noSlot (k : Core) (code : Nat) : Bool := (k.slots code).1 == 0

/-- Cycles that `q` evenly placed rows take in an owner's slots (R117, R142, R149). -/
def Core.fetchCyc (k : Core) (code q : Nat) : Nat :=
  let (s, l) := k.slots code
  cdiv (q * l) (8 * k.awakeN * s)

/-- Rows fall evenly over the awake banks. -/
def Core.evenRows (k : Core) (rows : List Nat) : Bool :=
  (List.range 128).all fun b => (rows.filter fun r => k.bankOf r = b).length ≤ cdiv rows.length (8 * k.awakeN)

/-- A cycle count: the formula where the rows of each kind of access, reads and writes, fall evenly and no other operation
shares the slots, else a free value (R117, R142, R533; notes/assumptions/30.md). -/
def Core.count (k : Core) (base : Nat) (alone : Bool) (kinds : List (List Nat)) (formula : Nat) : Nat :=
  if alone ∧ kinds.all k.evenRows then formula else fv base 65535

/-! ### Completion -/

/-- An operation completes: counted, its sig applied when it succeeded, a failing status reported to the sequencer (R72,
R84, R118). -/
def Core.opEnd (k : Core) (cnt cyc : Nat) (r : RunOp) : Core :=
  let k := (k.bump cnt).wr cyc (Nat.min r.cycles cntTop)
  if St.ok r.status then (if r.q.sig then k.semOp r.q.sem 0 1 else k)
  else k.unitFault r.q.pc r.q.opcode r.status

/-- An operation that completes at once with a failing status, writing nothing. -/
def Core.opFail (k : Core) (cnt cyc base : Nat) (q : QOp) (st : Nat) : Core :=
  k.opEnd cnt cyc { q := q, status := st, cycles := fv base 65535 }

/-- An operation of a unit without a slot (R164). -/
def Core.opNoSlot (k : Core) (cnt cyc base : Nat) (q : QOp) : Core :=
  (k.bump Reg.SPAD_NOSLOT_CNT).opFail cnt cyc base q St.notPermitted

/-- A fault register that holds the first fault until it is cleared. -/
def Core.firstFault (k : Core) (reg v : Nat) : Core := if (k.rd reg).testBit 31 then k else k.wr reg v

/-- Counts of an output conversion added to a saturation and a NaN counter (R103). -/
def Core.addCounts (k : Core) (satReg nanReg : Nat) (l : List Count) : Core :=
  let s := (l.filter (· = .sat)).length
  let n := (l.filter (· = .nan)).length
  let k := if s = 0 then k else k.bump satReg s
  if n = 0 then k else k.bump nanReg n

/-- An operation reads some codeword bad: its results are undefined (R174). -/
def isBad (st : Nat) : Bool := st == St.uncorrectable

/-! ### Rows of a tile -/

/-- The byte ranges of `rows` rows of `len` bytes, `stride` units of 32 bytes apart. -/
def tileRanges (base stride len rows : Nat) : List (Nat × Nat) :=
  (List.range rows).map fun r => (base + 32 * stride * r, len)

/-- One past the last byte of such rows. -/
def tileEnd (base stride len rows : Nat) : Nat := base + 32 * stride * (rows - 1) + len

/-! ### Scratchpad elements -/

/-- Bits of an element of a format code of R88 and R133, by name. -/
inductive Elem
  | f32
  | b16
  | f16
  | i32
  | e4
  | e5
  | i8
  | bit
  deriving DecidableEq, Repr

def Elem.bitsOf : Elem → Nat
  | .f32 => 32
  | .i32 => 32
  | .b16 => 16
  | .f16 => 16
  | .bit => 1
  | _ => 8

def Elem.isInt : Elem → Bool
  | .i32 => true
  | .i8 => true
  | _ => false

/-- Bytes of `cols` elements. -/
def Elem.rowBytes (e : Elem) (cols : Nat) : Nat := cdiv (cols * e.bitsOf) 8

/-- Element c of a row that begins at a base, as bits. -/
def Elem.at (e : Elem) (f : Fetch) (base c : Nat) : Nat :=
  if e = .bit then b2n ((f.byte (base + c / 8)).toNat.testBit (c % 8))
  else f.le (base + c * (e.bitsOf / 8)) (e.bitsOf / 8)

end Sys2Proof.Machine
end

