-- ==== Sys2Proof/Machine/SpadControl.lean ====
section
/-! DEFINITION. Slot plans, reshapes and the scrubber of a core's scratchpad (R162, R172, R176). -/

namespace Sys2Proof.Machine

open Host (Outcome)

/-! ### Slot plans (R162) -/

/-- A plan passes the check of R162. -/
def planOk (owners : W64) (len : Nat) : Bool :=
  decide (3 ≤ len) &&
    (List.range 16).all (fun i =>
      let o := bits owners.toNat (4 * i + 3) (4 * i)
      if i ≤ len then decide (o ≤ 8) else o == 0) &&
    (List.range (len + 1)).any fun i => bits owners.toNat (4 * i + 3) (4 * i) == 6

/-- A write of SPAD_PLAN[p]: ignored for plan 0, ignored and counted while the plan is valid. -/
def Core.planWrite (k : Core) (p : Nat) (value : W64) : Core :=
  if p = 0 then k
  else if (k.rd (Reg.SPAD_PLAN_CTL + 4 * p)).testBit 31 then k.bump Reg.SPAD_CFG_IGN_CNT
  else k.wr (Reg.SPAD_PLAN + 8 * p) value.toNat

/-- A write of SPAD_PLAN_CTL[p]; a plan that fails the check is not valid (R162; notes/assumptions/15.md). -/
def Core.planCtlWrite (k : Core) (p : Nat) (value : W64) : Core :=
  let len := fld value 3 0
  let off := Reg.SPAD_PLAN_CTL + 4 * p
  if p = 0 then k
  else if value.getLsbD 31 then
    if planOk (rfGet k.regs (Reg.SPAD_PLAN + 8 * p)) len then k.wr off (2 ^ 31 + len)
    else (k.wr off len).bump Reg.SPAD_CFG_IGN_CNT
  else k.wr off len

/-! ### Reshape (R172) -/

/-- A write of SPAD_GRP_PWR: a mask that changes starts a reshape in IDLE or TEST. -/
def Core.grpPwrWrite (k : Core) (dial : Nat) (value : W64) : Core :=
  let mask := value.toNat % 65536
  let ign := k.bump Reg.SPAD_CFG_IGN_CNT
  if mask = 0 then ign
  else if mask = k.rd Reg.SPAD_GRP_PWR then k
  else if (k.seq.state = .idle ∨ k.seq.state = .test) ∧ k.spad.reshape.isNone then
    let k := k.wr Reg.SPAD_GRP_PWR mask
    { k with spad := { k.spad with reshape := some { mask := mask, since := dial } } }
  else ign

/-- RESHAPE_SUPPLY_SETTLED: once drained, every row is cleared to zero with valid check bytes. -/
def Core.reshapeSettle (k : Core) : Core :=
  match k.spad.reshape with
  | none => k
  | some r =>
    if r.settled ∨ k.spad.staging ≠ [] then k
    else { k with spad := { k.spad with reshape := some { r with settled := true }, mem := {}, acc := [], wbq := [] } }

def execReshapeSupplySettled (n : Site) (s : State) : Outcome State Fault Refusal := s.onSite n Core.reshapeSettle

/-- RESHAPE_COMPLETE: the interleave uses the new set. -/
def Core.reshapeEnd (k : Core) : Core :=
  match k.spad.reshape with
  | none => k
  | some r =>
    if r.settled then { k with spad := { k.spad with reshape := none, awake := r.mask, patrolDone := [] } } else k

def execReshapeComplete (n : Site) (s : State) : Outcome State Fault Refusal := s.onCore n Core.reshapeEnd

/-- SPAD_GRP_STATE: two bits for each group (R178): 0 asleep, 1 awake, 2 closing, 3 waking. -/
def Core.grpState (k : Core) : Nat :=
  (List.range 16).foldl (fun v g =>
    let was := k.spad.awake.testBit g
    let st := match k.spad.reshape with
      | none => b2n was
      | some r =>
        if k.spad.staging ≠ [] then 2
        else if was ∧ r.mask.testBit g then 2
        else if was then 0
        else if r.mask.testBit g then 3
        else 0
    v + st * 2 ^ (2 * g)) 0

/-! ### Scrubbing (R176) -/

/-- The patrol runs: enabled, with a period, and no reshape. -/
def Core.patrolOn (k : Core) : Bool :=
  let c := k.rd Reg.SPAD_SCRUB_CFG
  c.testBit 31 && c % 65536 != 0 && k.spad.reshape.isNone

/-- The patrol reads a bank's share of the current bank row; when every awake bank has been read it goes on to the next. -/
def Core.patrol (k : Core) (w : At) (bank : Nat) : Core :=
  match k.rowAt bank k.spad.patrolRow with
  | none => k
  | some row =>
    if ¬ k.patrolOn ∨ bank ∈ k.spad.patrolDone then k
    else
      let k := (Core.readCws w Own.scrub (8 * row) 8 k).2
      let seen := insertNat k.spad.patrolDone bank
      if seen.length < 8 * k.awakeN then { k with spad := { k.spad with patrolDone := seen } }
      else if k.spad.patrolRow < 3583 then { k with spad := { k.spad with patrolDone := [], patrolRow := k.spad.patrolRow + 1 } }
      else { k with spad := { k.spad with
        patrolDone := [], patrolRow := 0, passes := satAdd 255 k.spad.passes 1 } }

/-- SCRUB_PATROL. -/
def execScrubPatrol (n : Site) (bank : Fin 128) (s : State) : Outcome State Fault Refusal :=
  s.atCore n fun k p => p.setCore n (k.patrol (p.at' n) bank)

/-- A stored codeword as the scrubber rewrites it: corrected when it can be. -/
def Codeword.rewritten (c : Codeword) : Codeword :=
  match c.read with
  | (.corrected, d) => Codeword.fresh d.data false
  | _ => c

/-- SCRUB_WRITE_BACK: the oldest queued row is rewritten. -/
def Core.writeBack (k : Core) : Core :=
  match k.spad.wbq with
  | [] => k
  | row :: rest =>
    { k with spad := { k.spad with
      wbq := rest, mem := k.spad.mem.setCws (8 * row) ((k.spad.mem.cws (8 * row) 8).map Codeword.rewritten) } }

def execScrubWriteBack (n : Site) (s : State) : Outcome State Fault Refusal := s.onCore n Core.writeBack

/-- A write of SPAD_ERR_CLR. -/
def Core.spadErrClr (k : Core) (value : W64) : Core := if value.getLsbD 0 then k.wr Reg.SPAD_ERR_ADDR 0 else k

end Sys2Proof.Machine
end

