-- ==== Sys2Proof/Machine/Staging.lean ====
section
/-! DEFINITION. Ingress staging: how mesh packets reach a core's scratchpad, and how they are answered (R167–R170, R174,
R183, R206). -/

namespace Sys2Proof.Machine

open Host (Outcome)

/-! ### Taking a packet -/

/-- Entries that hold staging room: those not performed, and the rows of reads that wait for their READ_DATA (R169). -/
def Spad.held (s : Spad) : Nat := (s.staging.filter fun e => e.status.isNone || e.kind == .read).length

/-- The rows that a packet's bytes span. -/
def packetRows (off n : Nat) : List Nat :=
  (List.range ((off + n - 1) / 256 - off / 256 + 1)).map fun i => off / 256 + i

/-- The bytes of a packet's payload, each with the badness of its unit, from its address on; and how each unit read. -/
def Packet.mbytes (x : Packet) : List MByte :=
  let us := x.units.flatMap fun u =>
    let r := u.read
    r.2.data.map fun b => (b, r.1 == .bad)
  ((us.drop (x.hdr.ga % 32)).take x.hdr.bytes).map some

/-- Units of a packet for a row: whether one was corrected, and whether one was bad. -/
def Packet.rowReads (x : Packet) (row : Nat) : Bool × Bool :=
  let off := x.hdr.ga % 2 ^ 27
  let rs := x.units.zipIdx.filterMap fun u => if (off / 32 + u.2) / 8 = row then some u.1.read.1 else none
  (rs.any (· == .corrected), rs.any (· == .bad))

/-- The staging entries of a packet. -/
def stageEntries (pid : Nat) (kind : StageKind) (x : Packet) : List StageEntry :=
  let off := x.hdr.ga % 2 ^ 27
  let cut := if kind = .read then [] else rowsAt off x.mbytes
  (packetRows off x.hdr.bytes).map fun row =>
    let r := if kind = .read then (false, false) else x.rowReads row
    { pid := pid, kind := kind, hdr := x.hdr, ret := returnGA x, row := row
      first := Nat.max off (256 * row), last := Nat.min (off + x.hdr.bytes) (256 * (row + 1))
      bytes := look [] cut row, corr := r.1, bad := r.2 }

/-- A packet staged: none when staging lacks room for every entry of it; 8 of the 64 entries take VC1 traffic only (R169,
R198). -/
def Core.stage (k : Core) (kind : StageKind) (x : Packet) : Option Core :=
  let es := stageEntries k.spad.nextPid kind x
  if k.spad.held + es.length ≤ 56 then
    some { k with spad := { k.spad with staging := k.spad.staging ++ es, nextPid := k.spad.nextPid + 1 } }
  else none

/-! ### Performing entries -/

/-- The bank of an entry. -/
def Core.bankOfEntry (k : Core) (e : StageEntry) : Nat := k.bankOf e.row

/-- The entries of a bank that are not yet performed, in arrival order. -/
def Core.inBank (k : Core) (b : Nat) : List StageEntry :=
  k.spad.staging.filter fun e => k.bankOfEntry e == b && e.status.isNone

/-- An entry accepted before a close is performed on the groups as they were (R172). -/
def Core.inCapacity (k : Core) (row : Nat) : Bool := decide (256 * row < k.capacity)

def Core.modEntry (k : Core) (e : StageEntry) (f : StageEntry → StageEntry) : Core :=
  { k with spad := { k.spad with
    staging := k.spad.staging.map fun x => if x.pid = e.pid ∧ x.row = e.row then f x else x } }

def Core.doneEntry (k : Core) (e : StageEntry) (st : Nat) : Core := k.modEntry e fun x => { x with status := some st }

/-- The status of a write entry with what its units brought (R183). -/
def StageEntry.arrived (e : StageEntry) : Nat :=
  if e.bad then St.uncorrectable else if e.corr then St.corrected else St.done

/-- A plain write performed. -/
def Core.doWrite (k : Core) (w : At) (e : StageEntry) : Core :=
  if k.inCapacity e.row then
    let x := Core.writeCws w Own.dmaIn 8 (8 * e.row) e.bytes k
    (x.2.wrote e.row).doneEntry e (St.merge e.arrived x.1)
  else k.asleep.doneEntry e St.bankAsleep

/-- The read turn of an accumulate: the row's codewords are copied and the row is held (R167). -/
def Core.doReadTurn (k : Core) (w : At) (e : StageEntry) : Core :=
  if k.inCapacity e.row then
    let k := Core.accReadRow w Own.dmaIn 8 (8 * e.row) e.bytes k
    let b : AccBuf := { bank := k.bankOf e.row, row := e.row, pid := e.pid, cws := k.spad.mem.cws (8 * e.row) 8 }
    ({ k with spad := { k.spad with acc := k.spad.acc ++ [b] } } : Core).modEntry e fun x => { x with turned := true }
  else k.asleep.doneEntry e St.bankAsleep

/-- The write turn: the buffer combined with the incoming values, and released. -/
def Core.doWriteTurn (k : Core) (e : StageEntry) (type : Nat) : Core :=
  let mine (b : AccBuf) : Bool := b.pid == e.pid && b.row == e.row
  match k.spad.acc.find? mine with
  | none => k
  | some b =>
    let k := { k with spad := { k.spad with acc := k.spad.acc.filter fun b => !mine b } }
    let x := k.accStoreRow e.row type b.cws e.bytes
    (x.2.wrote e.row).doneEntry e (St.merge e.arrived x.1)

/-- The slot in which a mesh read is performed: the first DMA-in or DMA-out slot that comes free, which core cycles decide, so
that it is a free choice where both have slots (R157, R160, notes/assumptions/2.md). -/
def Core.readOwner (k : Core) (base : Nat) : Nat :=
  if k.noSlot Own.dmaOut then Own.dmaIn
  else if k.noSlot Own.dmaIn then Own.dmaOut
  else if fv base 0 % 2 = 0 then Own.dmaIn else Own.dmaOut

/-- One row of a READ_REQ read, whole (R154, R165); the codewords that the packet reads are kept. -/
def Core.doRead (k : Core) (w : At) (base : Nat) (e : StageEntry) : Core :=
  if k.inCapacity e.row then
    let i := e.first % 256 / 32
    let x := Core.readCws w (k.readOwner base) (8 * e.row) 8 k
    x.2.modEntry e fun y =>
      { y with status := some (readStatus x.1)
               units := ((x.1.map (·.2)).drop i).take ((e.last - 1) % 256 / 32 + 1 - i) }
  else k.asleep.doneEntry e St.bankAsleep

/-! ### Answers -/

/-- The entries of a packet when all are performed. -/
def Core.finished (k : Core) (pid : Nat) : Option (List StageEntry) :=
  let es := k.spad.staging.filter (·.pid = pid)
  if es ≠ [] ∧ es.all (·.status.isSome) then some es else none

/-- The merged status of entries, in order (R504). -/
def entriesStatus (es : List StageEntry) : Nat := es.foldl (fun s e => St.merge s (e.status.getD 0)) St.done

/-- The data of a read placed at its return address: codewords as stored where the alignment is the same, else cut anew with
their poison (R183, R222). -/
def readUnits (h : Header) (ret : Nat) (us : List Codeword) : List Codeword :=
  if ret % 32 = h.ga % 32 then us else unitsFrom ret (((unitBytes us).drop (h.ga % 32)).take h.bytes)

/-- A REDUCE performed at its destination (R206). -/
def Core.reduceEnd (k : Core) (w : At) (h : Header) (es : List StageEntry) : Core :=
  match es.find? fun e => !St.ok (e.status.getD 0) with
  | none => if h.semen = 1 then k.semOp h.sem 0 h.weight else k
  | some e => (k.bump Reg.MESH_RED_FAIL_CNT).logErr w.dial w.site
      { cls := 0x17, level := 1, unit := 0, status := entriesStatus es, addr := 256 * e.row }

/-- A packet whose rows have all been performed leaves staging and is answered. -/
def Panel.finish (p : Panel) (n pid : Nat) : Panel :=
  let k := p.core n
  match k.finished pid with
  | none => p
  | some es =>
    let p := p.setCore n { k with spad := { k.spad with staging := k.spad.staging.filter (·.pid ≠ pid) } }
    match es with
    | [] => p
    | e :: _ =>
      let st := entriesStatus es
      if e.hdr.opcode = Opc.reduce then p.modCore n fun k => k.reduceEnd (p.at' n) e.hdr es
      else if e.kind = .read then
        if st = St.bankAsleep then p.readRefuse (.core n) e.hdr e.ret st
        else p.readAnswer (.core n) e.hdr e.ret st (readUnits e.hdr e.ret (es.flatMap (·.units)))
      else p.complete (.core n) e.hdr st

/-- An entry of a bank performed, and its packet answered when it was the last. -/
def State.ingress (s : State) (n bank : Nat) (pick : List StageEntry → Option StageEntry)
    (act : At → Nat → StageEntry → Core → Core) : Outcome State Fault Refusal :=
  s.atCore n fun k p => match pick (k.inBank bank) with
    | none => p
    | some e => (({ p with free := p.free + 1 } : Panel).setCore n (act (p.at' n) p.free e k)).finish n e.pid

/-- INGRESS_WRITE: the oldest entry of the bank, when it is a plain write. -/
def execIngressWrite (n : Site) (bank : Fin 128) (s : State) : Outcome State Fault Refusal :=
  s.ingress n bank (fun l => match l with
    | e :: _ => if e.kind = .write then some e else none
    | [] => none) fun w _ e k => k.doWrite w e

/-- INGRESS_READ: the oldest entry of the bank, when it is a read (R170). -/
def execIngressRead (n : Site) (bank : Fin 128) (s : State) : Outcome State Fault Refusal :=
  s.ingress n bank (fun l => match l with
    | e :: _ => if e.kind = .read then some e else none
    | [] => none) fun w b e k => k.doRead w b e

/-- The accumulate whose read turn comes next: everything before it in the bank is an accumulate that waits for its write
turn. -/
def nextReadTurn : List StageEntry → Option StageEntry
  | [] => none
  | e :: es => match e.kind with
    | .acc _ => if e.turned then nextReadTurn es else some e
    | _ => none

/-- ACC_READ_TURN. -/
def execAccReadTurn (n : Site) (bank : Fin 128) (s : State) : Outcome State Fault Refusal :=
  s.ingress n bank nextReadTurn fun w _ e k => k.doReadTurn w e

/-- ACC_WRITE_TURN: of the oldest accumulate that has had its read turn. -/
def execAccWriteTurn (n : Site) (bank : Fin 128) (s : State) : Outcome State Fault Refusal :=
  s.ingress n bank (fun l => match l with
    | e :: _ => if e.turned then some e else none
    | [] => none) fun _ _ e k => match e.kind with
      | .acc type => k.doWriteTurn e type
      | _ => k

/-- RESHAPE_DRAIN_TIMEOUT: 10 µs after the close, what has not been performed completes with BANK_ASLEEP (R172). -/
def Core.drainLate (k : Core) : Core :=
  let late := (k.spad.staging.filter (·.status.isNone)).length
  { k.bump Reg.SPAD_DRAIN_LATE_CNT late with spad := { k.spad with
    acc := []
    staging := k.spad.staging.map fun e => if e.status.isNone then { e with status := some St.bankAsleep } else e } }

def Panel.finishAll (n : Nat) : List Nat → Panel → Panel
  | [], p => p
  | pid :: rest, p => Panel.finishAll n rest (p.finish n pid)

def execReshapeDrainTimeout (n : Site) (s : State) : Outcome State Fault Refusal :=
  s.atCore n fun k p => match k.spad.reshape with
    | none => p
    | some r =>
      if ¬ r.settled ∧ p.since r.since (10 * us) ∧ k.spad.staging ≠ [] then
        Panel.finishAll n ((k.spad.staging.map (·.pid)).dedup) (p.setCore n k.drainLate)
      else p

end Sys2Proof.Machine
end

