-- ==== Sys2Proof/Machine/Dma.lean ====
section
/-! DEFINITION. The DMA channels: descriptors and their checks, pieces, answers, completion (R213–R230, R243). -/

namespace Sys2Proof.Machine

open Host (Outcome)

/-! ### Descriptors (R217, R218) -/

/-- The fields of a descriptor. -/
structure Desc where
  kind : Nat
  acc : Nat
  sig : Bool
  sem : Nat
  rsig : Bool
  rsem : Nat
  mcast : Bool
  src : Nat
  dst : Nat
  rows : Nat
  rowbytes : Nat
  dstride : Int
  sstride : Int
  pattern : Nat
  rtag : Nat
  weight : Nat
  rmask : Nat
  cmask : Nat
  deriving DecidableEq, Repr

namespace Dk
def copy : Nat := 0
def fill : Nat := 1
def signal : Nat := 2
def reduce : Nat := 3
end Dk

/-- Word i of a descriptor. -/
def descWord (ws : List W64) (i : Nat) : Nat := (ws.getD i 0).toNat

/-- A 32-bit field as a signed number. -/
def signed32 (n : Nat) : Int := (BitVec.ofNat 32 n).toInt

/-- The fields of seven words. -/
def Desc.ofWords (ws : List W64) : Desc :=
  let w := descWord ws
  { kind := bits (w 0) 63 60, acc := bits (w 0) 59 57, sig := (w 0).testBit 56, sem := bits (w 0) 55 48
    rsig := (w 0).testBit 47, rsem := bits (w 0) 46 39, mcast := (w 0).testBit 38
    src := bits (w 1) 55 0, dst := bits (w 2) 55 0, rows := bits (w 3) 36 21 + 1, rowbytes := bits (w 3) 20 0
    dstride := signed32 (bits (w 4) 63 32), sstride := signed32 (bits (w 4) 31 0), pattern := w 5
    rtag := bits (w 6) 63 52, weight := bits (w 6) 51 43, rmask := bits (w 6) 35 20, cmask := bits (w 6) 19 0 }

/-- A nonzero bit that the layout does not name; `rtag` and `weight` are named for REDUCE alone, the masks with `mcast`
alone. -/
def descUnnamed (ws : List W64) (d : Desc) : Bool :=
  let w := descWord ws
  bits (w 0) 37 0 != 0 || bits (w 1) 63 56 != 0 || bits (w 2) 63 56 != 0 || bits (w 3) 63 37 != 0 ||
    bits (w 6) 42 36 != 0 || (d.kind != Dk.reduce && bits (w 6) 63 43 != 0) ||
    (!d.mcast && bits (w 6) 35 0 != 0)

/-- A global address in this core's own scratchpad. -/
def Core.isOwn (k : Core) (ga : Nat) : Bool :=
  let v := k.rd Reg.CORE_SITE
  bits ga 55 52 == 0 && bits ga 51 47 == bits v 19 15 && bits ga 46 43 == bits v 14 11

/-- The classes that a transfer reaches. -/
def dataClass (ga : Nat) : Bool := let c := bits ga 55 52; c == 0 || c == 2 || c == 6

/-- Endpoints and uses that R218 allows. -/
def Desc.allowed (d : Desc) (k : Core) : Bool :=
  let ls := k.isOwn d.src
  let ld := k.isOwn d.dst && !d.mcast
  let core0 := bits d.dst 55 52 == 0
  let shape : Bool :=
    if d.kind = Dk.copy then (ls && dataClass d.dst) || (dataClass d.src && !ls && ld)
    else if d.kind = Dk.fill then d.src == 0 && dataClass d.dst
    else if d.kind = Dk.signal then
      d.src == 0 && d.rows == 1 && d.rowbytes == 0 && d.dstride == 0 && d.sstride == 0 &&
        (if d.rsig then core0 && !ld else d.dst == 0)
    else ls && core0 && 1 ≤ d.acc && !d.mcast && 1 ≤ d.weight
  let accOk := d.acc == 0 || d.kind == Dk.reduce ||
    (d.kind == Dk.copy && (core0 || bits d.dst 55 52 == 6))
  let mcOk := !d.mcast ||
    ((d.kind == Dk.copy && ls || d.kind == Dk.fill) && d.acc == 0 && !d.rsig && core0 && bits d.dst 51 43 == 0)
  let rsOk := !d.rsig || (core0 && (d.kind == Dk.reduce || !ld))
  shape && accOk && mcOk && rsOk

/-- Every number is a multiple of the accumulate element. -/
def Desc.aligned (d : Desc) : Bool :=
  d.acc == 0 || (
    let e := accBytes d.acc
    d.src % e == 0 && d.dst % e == 0 && d.rowbytes % e == 0 && d.dstride % e == 0 && d.sstride % e == 0)

/-- Start of row r on a side, a 56-bit address. -/
def rowStart (base : Nat) (stride : Int) (r : Nat) : Nat := ((base + r * stride) % (2 ^ 56 : Int)).toNat

/-- The lowest and the highest byte of an extent (R219). -/
def Desc.extent (d : Desc) (base : Nat) (stride : Int) : Int × Int :=
  let a : Int := base + (d.rows - 1 : Nat) * stride
  (min (base : Int) a, max (base : Int) a + d.rowbytes - 1)

/-- The extents of a transfer within the local scratchpad overlap. -/
def Desc.overlaps (d : Desc) (k : Core) : Bool :=
  let s := d.extent d.src d.sstride
  let t := d.extent d.dst d.dstride
  (d.kind == Dk.copy || d.kind == Dk.reduce) && !d.mcast && k.isOwn d.src && k.isOwn d.dst &&
    decide (s.1 ≤ t.2) && decide (t.1 ≤ s.2)

/-- The fault of a descriptor (R230): the lowest cause. Of a row that read bad (`bad`) no field is known, so that it is cause
6 alone (notes/assumptions/37.md). -/
def descFault (k : Core) (ws : List W64) (bad : Bool) : Option Nat :=
  let d := Desc.ofWords ws
  if bad then some 6 else firstCause
    [ (1, decide (3 < d.kind) || decide (4 < d.acc)),
      (2, !d.allowed k),
      (3, (d.kind != Dk.signal && (d.rowbytes == 0 || decide (1048576 < d.rowbytes))) || !d.aligned),
      (4, descUnnamed ws d),
      (5, d.overlaps k) ]

/-! ### Taking a descriptor (R213) -/

/-- The fault of a descriptor recorded and reported. -/
def Core.dmaFault (k : Core) (ch cause : Nat) (q : DmaQ) : Core :=
  (k.firstFault (Reg.DMA_FAULT + 4 * ch) (2 ^ 31 + cause * 2 ^ 27 + q.off)).unitFault q.pc Tw.dmaStart
    (if cause = 6 then St.uncorrectable else St.notPermitted)

/-- A channel takes its next entry: the descriptor's row is read and checked. A row out of reach gives its status to the
descriptor (R173). -/
def Core.takeDesc (k : Core) (w : At) (ch : Nat) (q : DmaQ) (rest : List DmaQ) : Core :=
  let x := k.readRow w Own.dmaOut (q.off / 256)
  let bs := (x.1.drop (q.off % 256)).take 64
  let ws := (List.range 7).map fun i => BitVec.ofNat 64 (leAt bs (8 * i) 8)
  let k := x.2.2
  let c := k.ch ch
  let c := { c with queue := rest, nextId := c.nextId + 1 }
  let d : DescRun := { id := c.nextId, off := q.off, pc := q.pc, words := ws }
  if x.2.1 = St.bankAsleep then
    k.setCh ch { c with waiting := c.waiting ++ [{ d with words := [], started := true, early := some St.bankAsleep }] }
  else match descFault k ws (isBad x.2.1) with
    | some cause =>
      (k.setCh ch { c with waiting := c.waiting ++ [{ d with faulted := true, started := true }] }).dmaFault ch cause q
    | none => k.setCh ch { c with cur := some d }

/-- DESCRIPTOR_READ. -/
def execDescriptorRead (n : Site) (ch : Fin 4) (s : State) : Outcome State Fault Refusal :=
  s.atCore n fun k p =>
    let c := k.ch ch
    match c.cur, c.queue with
    | none, q :: rest => p.setCore n (k.takeDesc (p.at' n) ch q rest)
    | _, _ => p

/-! ### Pieces (R220) -/

/-- Bytes from an address to the next 1 KiB boundary. -/
def toKib (a : Nat) : Nat := 1024 - a % 1024

/-- The kinds whose source bytes come from a scratchpad or a memory. -/
def Desc.hasSrc (d : Desc) : Bool := d.kind == Dk.copy || d.kind == Dk.reduce

/-- Bytes of the piece that begins at byte `pos` of row r. -/
def Desc.pieceLen (d : Desc) (r pos : Nat) : Nat :=
  let t := min (d.rowbytes - pos) (toKib (rowStart d.dst d.dstride r + pos))
  if d.hasSrc then min t (toKib (rowStart d.src d.sstride r + pos)) else t

/-- 1 KiB boundaries inside a row of `n` bytes from `a` on. -/
def kibCuts (a n : Nat) : Nat := (a + n - 1) / 1024 - a / 1024

/-- Pieces of row r. -/
def Desc.rowPieces (d : Desc) (r : Nat) : Nat :=
  let t := rowStart d.dst d.dstride r
  let s := rowStart d.src d.sstride r
  1 + kibCuts t d.rowbytes + (if d.hasSrc ∧ s % 1024 ≠ t % 1024 then kibCuts s d.rowbytes else 0)

def Desc.pieces (d : Desc) : Nat := if d.kind = Dk.signal then 0 else ((List.range d.rows).map d.rowPieces).sum

/-- What an extent reaches, as R219 compares it. -/
inductive Reach
  | core (x y : Nat)
  | hbm
  | stack (h : Nat)
  | window (dev win : Nat)
  | other
  deriving DecidableEq, Repr

def reachOf (ga : Nat) (t : Target) : Reach :=
  match t with
  | .spad x y _ => .core x y
  | .hbm h _ => if ga.testBit 41 then .stack h else .hbm
  | .remote d w _ => .window d w
  | _ => .other

/-- A 56-bit address of a byte of an extent. -/
def gaOf (i : Int) : Nat := (i % (2 ^ 56 : Int)).toNat

/-- The check of one extent (R219): the status that ends the descriptor, if any. -/
def Panel.extentStatus (p : Panel) (e : Int × Int) : Option Nat :=
  match p.decodeGA (gaOf e.1), p.decodeGA (gaOf e.2) with
  | .error st, _ => some st
  | _, .error st => some st
  | .ok a, .ok b => if reachOf (gaOf e.1) a = reachOf (gaOf e.2) b then none else some St.notPermitted

/-- The check of a multicast extent: masks and offsets of R199. -/
def Panel.mcastStatus (p : Panel) (d : Desc) : Option Nat :=
  let e := d.extent d.dst d.dstride
  if d.cmask = 0 ∨ d.rmask = 0 ∨ 2 ^ p.fuses.lwidth ≤ d.cmask ∨ e.1 < 0 ∨ (spadTop : Int) ≤ e.2 then some St.notPermitted
  else none

/-- The status that ends a descriptor before any access. -/
def Panel.descEarly (p : Panel) (d : Desc) : Option Nat :=
  if d.kind = Dk.signal then none
  else
    let src := if d.hasSrc then p.extentStatus (d.extent d.src d.sstride) else none
    match src with
    | some st => some st
    | none => if d.mcast then p.mcastStatus d else p.extentStatus (d.extent d.dst d.dstride)

/-! ### Descriptors in progress -/

def DescRun.desc (r : DescRun) : Desc := Desc.ofWords r.words

/-- A descriptor of a channel changed, by number. -/
def DmaCh.mod (c : DmaCh) (id : Nat) (f : DescRun → DescRun) : DmaCh :=
  let g (d : DescRun) : DescRun := if d.id = id then f d else d
  { c with cur := c.cur.map g, waiting := c.waiting.map g }

def DmaCh.get (c : DmaCh) (id : Nat) : Option DescRun :=
  (c.cur.toList ++ c.waiting).find? (·.id = id)

/-- No further piece is issued: all have been, or one has failed (R224). -/
def DescRun.issueOver (d : DescRun) : Bool := d.issued == d.pieces || !d.fails.isEmpty || d.early.isSome

/-- The channel lets go of a descriptor that has issued its last piece. -/
def DmaCh.release (c : DmaCh) : DmaCh :=
  match c.cur with
  | none => c
  | some d => if d.started ∧ d.issueOver then { c with cur := none, waiting := c.waiting ++ [d] } else c

/-- A piece ends with a status (R223, R224). -/
def Core.pieceEnd (k : Core) (ch id piece bytes st : Nat) : Core :=
  if St.ok st then
    (k.setCh ch ((k.ch ch).mod id fun d => if st = St.corrected then { d with corr := true } else d).release).wrap
      (Reg.DMA_BYTES + 8 * ch) bytes
  else k.setCh ch ((k.ch ch).mod id fun d => { d with fails := put d.fails piece st }).release

/-! ### Tracking entries (R215, R221) -/

/-- The first free tracking entry of a channel. -/
def DmaCh.freeEntry (c : DmaCh) : Option Nat := (List.range 32).find? fun i => (find c.track i).isNone

/-- The sequence number of an entry's next use, and its use count: uses whose number is held are passed over. -/
def Core.dmaSeq (k : Core) (ch entry : Nat) : Nat × Nat :=
  let u := look 0 (k.ch ch).uses entry
  let num (v : Nat) : Nat := ch * 2 ^ 14 + entry * 2 ^ 9 + v % 512
  let v := (((List.range 512).map fun i => u + i).find? fun v => !k.seqUsed (num v)).getD u
  (num v, v + 1)

/-- Packets of staging that a channel's outstanding reads hold (R215). -/
def DmaCh.readsOut (c : DmaCh) : Nat := (c.track.filter fun t => t.2.isRead).length

/-- A request tracked from its injection. -/
def Core.trackReq (k : Core) (ch entry uses : Nat) (t : Track) : Core :=
  let c := k.ch ch
  k.setCh ch { c with track := put c.track entry t, uses := put c.uses entry uses }

/-- A tracked request ends: its entry is freed and its piece, or the descriptor's remote signal, ends. -/
def Core.trackEnd (k : Core) (ch entry : Nat) (t : Track) (st : Nat) : Core :=
  let c := k.ch ch
  let k := k.setCh ch { c with track := drop c.track entry }
  if t.rsig then k else k.pieceEnd ch t.desc t.piece t.bytes st

/-- The entry of a channel that a sequence number names. -/
def Core.trackOf (k : Core) (seq : Nat) : Option (Nat × Nat × Track) :=
  let ch := seq / 2 ^ 14
  let entry := seq / 2 ^ 9 % 32
  match find (k.ch ch).track entry with
  | some t => if t.seq = seq then some (ch, entry, t) else none
  | none => none

/-- A COMPLETION for a tracked request (R221). -/
def Core.dmaCompletion (k : Core) (ch entry : Nat) (t : Track) (st : Nat) : Core :=
  let st := St.merge t.status st
  if 1 < t.left then
    let c := k.ch ch
    k.setCh ch { c with track := put c.track entry { t with left := t.left - 1, status := st } }
  else k.trackEnd ch entry t st

/-- A READ_DATA for a tracked read: its bytes are written at the return address, poisoned where its units are bad (R222). -/
def Core.dmaReadData (k : Core) (w : At) (ch entry : Nat) (t : Track) (x : Packet) : Core :=
  let st := St.taken x.hdr.status
  if ¬ t.isRead ∨ x.hdr.bytes = 0 then k.trackEnd ch entry t st
  else
    let d := ((k.ch ch).get t.desc).map DescRun.desc
    let acc := (d.map (·.acc)).getD 0
    let reads := x.units.map fun u => u.read.1
    let us := if reads.any (· == .bad) then St.uncorrectable else if reads.any (· == .corrected) then St.corrected else St.done
    let y := k.storeAt w Own.dmaIn acc (x.hdr.ga % 2 ^ 27) x.mbytes
    y.2.trackEnd ch entry t (St.merge (St.merge st us) y.1)

/-! ### Issue -/

/-- Whole rows read for a piece: its bytes with their badness, and the status. -/
def Core.readPiece (k : Core) (w : At) (off n : Nat) : List (Byte × Bool) × Nat × Core :=
  let rows := packetRows off n
  let x := rows.foldl (fun (acc : List (Byte × Bool) × Nat × Core) row =>
    let k := acc.2.2
    if k.reach (256 * row) then
      let y := Core.readCws w Own.dmaOut (8 * row) 8 k
      (acc.1 ++ y.1.flatMap (fun c => c.2.data.map fun b => (b, c.1 == .bad)), St.merge acc.2.1 (readStatus y.1), y.2)
    else (acc.1 ++ List.replicate 256 (0, false), St.merge acc.2.1 St.bankAsleep, k.asleep))
    (([], St.done, k) : List (Byte × Bool) × Nat × Core)
  ((x.1.drop (off % 256)).take n, x.2.1, x.2.2)

/-- The bytes of a FILL at an address. -/
def fillBytes (pattern ga n : Nat) : List (Byte × Bool) :=
  (List.range n).map fun i => (BitVec.ofNat 8 (pattern >>> (8 * ((ga + i) % 8))), false)

/-- The cursor moved past a piece. -/
def DescRun.next (r : DescRun) (len : Nat) : DescRun :=
  let pos := r.pos + len
  if pos < r.desc.rowbytes then { r with issued := r.issued + 1, pos := pos }
  else { r with issued := r.issued + 1, row := r.row + 1, pos := 0 }

/-- A piece taken by the channel: the cursor moves. -/
def Core.issue (k : Core) (ch : Nat) (r : DescRun) (len : Nat) : Core :=
  k.setCh ch ((k.ch ch).mod r.id fun _ => r.next len)

/-- A piece counted as issued and ended at once. -/
def Core.issueEnd (k : Core) (ch : Nat) (r : DescRun) (len st : Nat) : Core :=
  (k.issue ch r len).pieceEnd ch r.id r.issued len st

/-- A piece whose request goes over the mesh, under a tracking entry (R215, R221). `st` is the status of the local read. -/
def Panel.sendPiece (p : Panel) (n ch : Nat) (r : DescRun) (len st : Nat) (h : Header) (units : List Codeword) :
    Option Panel :=
  let k := p.core n
  match (k.ch ch).freeEntry with
  | none => none
  | some entry =>
    let (seq, uses) := k.dmaSeq ch entry
    let isRead := h.opcode == Opc.readReq
    if isRead ∧ 7 ≤ (k.ch ch).readsOut then none
    else match p.inject (.core n) { h with seq := seq } units with
      | (.stall, _) => none
      | (.refused st', p) => some (p.modCore n fun k => k.issueEnd ch r len (St.merge st st'))
      | (.sent 0, p) => some (p.modCore n fun k => k.issueEnd ch r len st)
      | (.sent m, p) => some (p.modCore n fun k =>
          let r := if h.opcode = Opc.mcast then { r with targets := m } else r
          let k := k.trackReq ch entry uses
            { seq := seq, desc := r.id, piece := r.issued, bytes := len, since := p.dial, isRead := isRead, left := m, status := st }
          let k := k.issue ch r len
          k.setCh ch (k.ch ch).release)

/-- The next piece of a descriptor issued; none while it has to wait. -/
def Panel.issuePiece (p : Panel) (n ch : Nat) (r : DescRun) : Option Panel :=
  let k := p.core n
  let d := r.desc
  let sa := (rowStart d.src d.sstride r.row + r.pos) % 2 ^ 56
  let ta := (rowStart d.dst d.dstride r.row + r.pos) % 2 ^ 56
  let len := d.pieceLen r.row r.pos
  let w := p.at' n
  let ls := k.isOwn d.src
  let ld := k.isOwn d.dst && !d.mcast
  if d.kind = Dk.copy ∧ ¬ ls then
    p.sendPiece n ch r len St.done { opcode := Opc.readReq, ga := sa, bytes := len, len := 1 }
      [Codeword.fresh (padTo 32 (leBytes 7 ta)) false]
  else
    let x := if d.kind = Dk.fill then (fillBytes d.pattern ta len, St.done, k) else k.readPiece w (sa % 2 ^ 27) len
    let refused : Bool := decide (x.2.1 = St.bankAsleep)
    if refused then some (p.setCore n (x.2.2.issueEnd ch r len x.2.1))
    else if d.kind = Dk.reduce then
      let us := unitsFrom ta x.1
      let h : Header :=
        { opcode := Opc.reduce, ga := ta, bytes := len, len := us.length, rtype := d.acc, rtag := d.rtag, weight := d.weight,
          semen := b2n d.rsig, sem := if d.rsig then d.rsem else 0 }
      match (p.setCore n x.2.2).inject (.core n) h us with
      | (.stall, _) => none
      | (.refused st, p) => some (p.modCore n fun k => k.issueEnd ch r len (St.merge x.2.1 st))
      | (.sent _, p) => some (p.modCore n fun k => k.issueEnd ch r len x.2.1)
    else if ld then
      let y := x.2.2.storeAt w Own.dmaIn d.acc (ta % 2 ^ 27) (x.1.map some)
      some (p.setCore n (y.2.issueEnd ch r len (St.merge x.2.1 y.1)))
    else
      let us := unitsFrom ta x.1
      let h : Header :=
        { opcode := if d.mcast then Opc.mcast else if d.acc = 0 then Opc.write else Opc.writeAcc, ga := ta, bytes := len,
          len := us.length, rtype := d.acc, cmask := d.cmask, rmask := d.rmask }
      (p.setCore n x.2.2).sendPiece n ch r len x.2.1 h us

/-- DMA_PIECE_ISSUE. -/
def execDmaPieceIssue (n : Site) (ch : Fin 4) (s : State) : Outcome State Fault Refusal :=
  s.atCore n fun k p => match (k.ch ch).cur with
    | none => p
    | some r => if r.started ∧ ¬ r.issueOver then (p.issuePiece n ch r).getD p else p

/-! ### Starts -/

/-- A descriptor of a kind started: its extents are decoded (R219); a failing one ends before any access. -/
def Panel.startDesc (p : Panel) (n ch : Nat) (r : DescRun) : Panel :=
  let d := r.desc
  let early := p.descEarly d
  let r := { r with started := true, pieces := d.pieces, early := early }
  p.modCore n fun k =>
    let k := if early.isSome then k.bump Reg.MESH_ADDR_ERR_CNT else k
    k.setCh ch ({ k.ch ch with cur := some r } : DmaCh).release

/-- The descriptor that a channel has read and not yet started, of one kind. -/
def State.dmaKind (s : State) (n ch kind : Nat) (f : DescRun → Panel → Panel) : Outcome State Fault Refusal :=
  s.atCore n fun k p => match (k.ch ch).cur with
    | none => p
    | some r => if ¬ r.started ∧ r.desc.kind = kind then f r p else p

/-- DMA_COPY. -/
def execDmaCopy (n : Site) (ch : Fin 4) (s : State) : Outcome State Fault Refusal :=
  s.dmaKind n ch Dk.copy fun r p => p.startDesc n ch r
/-- DMA_FILL. -/
def execDmaFill (n : Site) (ch : Fin 4) (s : State) : Outcome State Fault Refusal :=
  s.dmaKind n ch Dk.fill fun r p => p.startDesc n ch r
/-- DMA_REDUCE. -/
def execDmaReduce (n : Site) (ch : Fin 4) (s : State) : Outcome State Fault Refusal :=
  s.dmaKind n ch Dk.reduce fun r p => p.startDesc n ch r

/-- The remote signal of a descriptor (R227); none while the router or the tracking entries cannot take it. -/
def Panel.sendRsig (p : Panel) (n ch : Nat) (r : DescRun) : Option Panel :=
  let k := p.core n
  let d := r.desc
  match (k.ch ch).freeEntry with
  | none => none
  | some entry =>
    let (seq, uses) := k.dmaSeq ch entry
    let mark (k : Core) : Core := k.setCh ch ((k.ch ch).mod r.id fun d => { d with rsigSent := true })
    let h : Header :=
      { opcode := Opc.semSignal, ga := gaCoreReg (bits d.dst 51 47) (bits d.dst 46 43) (Reg.SEQ_SEM + 4 * d.rsem),
        seq := seq, sval := 1 }
    match p.inject (.core n) h [] with
    | (.stall, _) => none
    | (.refused _, p) => some (p.modCore n mark)
    | (.sent _, p) => some (p.modCore n fun k => mark (k.trackReq ch entry uses
        { seq := seq, desc := r.id, piece := 0, bytes := 0, since := p.dial, isRead := false, rsig := true }))

/-- DMA_SIGNAL: every earlier descriptor of the channel is complete; the remote signal goes out (R227). -/
def execDmaSignal (n : Site) (ch : Fin 4) (s : State) : Outcome State Fault Refusal :=
  s.dmaKind n ch Dk.signal fun r p =>
    if (((p.core n).ch ch).waiting).isEmpty then
      let r := { r with started := true }
      let p := p.modCore n fun k => k.setCh ch { k.ch ch with cur := some r }
      let out := if r.desc.rsig then p.sendRsig n ch r else some p
      match out with
      | none => p.modCore n fun k => k.setCh ch { k.ch ch with cur := some { r with started := false } }
      | some p => p.modCore n fun k => k.setCh ch (k.ch ch).release
    else p

/-! ### Timeouts and completion -/

/-- DMA_REQUEST_TIMEOUT: DMA_CFG.timeout µs without an answer; 0 waits without limit (R221). -/
def execDmaRequestTimeout (n : Site) (ch : Fin 4) (entry : Fin 32) (s : State) : Outcome State Fault Refusal :=
  s.atCore n fun k p => match find (k.ch ch).track entry with
    | none => p
    | some t =>
      let limit := k.rd Reg.DMA_CFG % 65536
      if limit ≠ 0 ∧ p.since t.since (limit * us) then
        p.setCore n ((k.bump Reg.DMA_TIMEOUT_CNT).trackEnd ch entry t St.timedOut)
      else p

/-- Every issued piece of a descriptor has ended, and its remote signal has its COMPLETION. -/
def DmaCh.over (c : DmaCh) (d : DescRun) : Bool := c.track.all fun t => t.2.desc != d.id

/-- The status of a descriptor (R224): of its lowest-numbered failed piece. -/
def DescRun.status (d : DescRun) : Nat :=
  match d.early, d.fails with
  | some st, _ => st
  | none, (_, st) :: _ => st
  | none, [] => if d.corr then St.corrected else St.done

/-- Word 7 (R224). -/
def DescRun.word7 (d : DescRun) : Nat :=
  let errs := min 0xFFFF (d.fails.length + (d.pieces - d.issued))
  2 ^ 63 + d.targets % 65536 * 2 ^ 32 + errs * 2 ^ 16 + d.status

/-- A descriptor complete: word 7 is written, then its signal applied, whatever the status; a failing status is counted and
given to the task (R224–R226, R243). A faulted descriptor is only counted. -/
def Core.descEnd (k : Core) (w : At) (ch : Nat) (d : DescRun) : Core :=
  let c := k.ch ch
  let k := (k.setCh ch { c with waiting := c.waiting.tail }).bump (Reg.DMA_DESC_CNT + 4 * ch)
  if d.faulted then k
  else
    let x := k.writeBytes w Own.dmaIn (d.off + 56) (enabled (leBytes 8 d.word7))
    let k := if d.desc.sig ∧ d.words ≠ [] then x.2.semOp d.desc.sem 0 1 else x.2
    if St.ok d.status then k else (k.bump Reg.DMA_ERR_CNT).noteStatus d.status

/-- DMA_DESCRIPTOR_COMPLETE: of the oldest issued descriptor, once all its pieces have ended; its remote signal goes out
first when every piece succeeded, and is skipped otherwise. -/
def execDmaDescriptorComplete (n : Site) (ch : Fin 4) (s : State) : Outcome State Fault Refusal :=
  s.atCore n fun k p => match (k.ch ch).waiting with
    | [] => p
    | d :: _ =>
      if ¬ (k.ch ch).over d then p
      else
        let wants : Bool := d.desc.rsig && d.desc.kind != Dk.reduce && !d.faulted && d.words != []
        if wants ∧ St.ok d.status ∧ ¬ d.rsigSent then (p.sendRsig n ch d).getD p
        else
          let k := if wants ∧ ¬ St.ok d.status then k.bump Reg.DMA_RSIG_SKIP_CNT else k
          p.setCore n (k.descEnd (p.at' n) ch d)

/-- A write of DMA_FAULT_CLR (R243). -/
def Core.dmaFaultClr (k : Core) (value : W64) : Core :=
  (List.range 4).foldl (fun k ch => if value.getLsbD ch then k.wr (Reg.DMA_FAULT + 4 * ch) 0 else k) k

end Sys2Proof.Machine
end

