-- ==== Sys2Proof/Machine/MatrixOps.lean ====
section
/-! DEFINITION. The matrix engines' arithmetic: operand layout, chunks, tiles and output conversion (R91–R97, R101–R114). -/

namespace Sys2Proof.Machine

/-! ### Formats and pairs (R88, R108) -/

def isFp8 (c : Nat) : Bool := c == 3 || c == 4
def isMx8 (c : Nat) : Bool := c == 7 || c == 8
def isMx (c : Nat) : Bool := decide (7 ≤ c ∧ c ≤ 0xC)
def isMxLow (c : Nat) : Bool := c == 9 || c == 0xA || c == 0xB
def tblock : Nat := 0xD

/-- Twice the rate r of a pair (R108); none for a pair that is not supported. -/
def pairRate (fa fb : Nat) : Option Nat :=
  if (fa = 1 ∧ fb = 1) ∨ (fa = 2 ∧ fb = 2) then some 1
  else if isFp8 fa ∧ isFp8 fb then some 2
  else if fa = 5 ∧ fb = 5 then some 2
  else if (isMx8 fa ∨ fa = 0xC) ∧ (isMx8 fb ∨ fb = 0xC) then some 2
  else if isMx8 fa ∧ isMxLow fb then some 2
  else if isMxLow fa ∧ isMxLow fb then some 4
  else if isFp8 fa ∧ fb = tblock then some 8
  else none

/-- Bytes of one chunk of one row or column (R109). -/
def chunkBytes (c : Nat) : Nat :=
  if c = 1 ∨ c = 2 then 64 else if c = 9 ∨ c = 0xA then 24 else if c = 0xB then 16 else if c = tblock then 14
  else if c = 0 ∨ c = 6 then 128 else 32

/-- Elements of a chunk. -/
def chunkLen (c : Nat) : Nat := if c = tblock then 64 else 32

/-- Bytes of an element array, and the byte ranges of elements and scales (R109, R110). -/
def elemSpan (c k r : Nat) : Nat := k / chunkLen c * r * chunkBytes c
def scaleBase (base c k r : Nat) : Nat := 32 * cdiv (base + elemSpan c k r) 32
def operandRanges (base c k r : Nat) : List (Nat × Nat) :=
  (base, elemSpan c k r) :: if isMx c then [(scaleBase base c k r, k / 32 * r)] else []

/-! ### Decoding chunks -/

/-- Element i of a chunk of an MX format, as bits (R94). -/
def mxBits (c : Nat) (bs : List Byte) (i : Nat) : Nat :=
  if c = 0xB then (let b := leAt bs (i / 2) 1; if i % 2 = 0 then b % 16 else b / 16)
  else if c = 9 ∨ c = 0xA then leAt bs (i / 4 * 3) 3 / 2 ^ (6 * (i % 4)) % 64
  else leAt bs i 1

/-- The value of an MX element before its scale. -/
def mxValue (c n : Nat) : FVal :=
  if c = 0xC then (FVal.ofInt (BitVec.ofNat 8 n).toInt).scale (-6) else (mxFmt c).decode n

/-- The values of one chunk of 32 elements; `scale` is the chunk's E8M0 byte for an MX format. -/
def chunkVals (c : Nat) (bs : List Byte) (scale : Nat) : List FVal :=
  (List.range 32).map fun i =>
    match c with
    | 1 => bf16.decode (leAt bs (2 * i) 2)
    | 2 => fp16.decode (leAt bs (2 * i) 2)
    | 3 => e4m3.decode (leAt bs i 1)
    | 4 => e5m2.decode (leAt bs i 1)
    | 5 => FVal.ofInt (BitVec.ofNat 8 (leAt bs i 1)).toInt
    | _ => match e8m0 scale with
      | none => .nan
      | some x => (mxValue c (mxBits c bs i)).scale x

/-- An operand in the scratchpad: its format, base, K, and rows or columns. -/
structure Operand where
  c : Nat
  base : Nat
  k : Nat
  r : Nat
  f : Fetch
  deriving DecidableEq, Repr

def Operand.chunk (o : Operand) (i j : Nat) : List Byte :=
  (List.range (chunkBytes o.c)).map fun x => o.f.byte (o.base + (j * o.r + i) * chunkBytes o.c + x)

def Operand.vals (o : Operand) (i j : Nat) : List FVal :=
  chunkVals o.c (o.chunk i j) (if isMx o.c then (o.f.byte (scaleBase o.base o.c o.k o.r + j * o.r + i)).toNat else 0)

/-! ### One output element (R107) -/

/-- The contribution of a T-block to activations: none when it leaves the accumulator as it is (R96, R97). -/
def tblkSum (acts : List FVal) (bs : List Byte) : Option FVal :=
  if ¬ tblkValid bs then some .nan
  else
    let s := e4m3.decode (leAt bs 13 1)
    if s.isNan then some .nan
    else if s.isZero then none
    else
      let terms := acts.zipIdx.filterMap fun x =>
        let w := tblkWeight bs x.2
        if w = 0 then none else some (if w < 0 then x.1.neg else x.1)
      some ((FVal.sum terms).mul s)

/-- One accumulation step: the new accumulator, and whether an INT32 sum wrapped (R107, R122). -/
def accStep (int : Bool) (acc : Nat) (s : Option FVal) : Nat × Bool :=
  match s with
  | none => (acc, false)
  | some v =>
    if int then
      match v with
      | .num sg m e =>
        let x := int32 acc + sigInt sg m e 0
        ((BitVec.ofInt 32 x).toNat, decide (x < -2 ^ 31) || decide (2 ^ 31 ≤ x))
      | _ => (acc, false)
    else (fp32Add acc (fp32.round v), false)

/-- An output element over every chunk, in rising order. -/
def mmElement (a b : Operand) (i n acc : Nat) : Nat × Nat :=
  let int := a.c == 5
  let len := chunkLen b.c
  (List.range (a.k / len)).foldl (fun x j =>
    let s := if b.c = tblock then tblkSum (a.vals i (2 * j) ++ a.vals i (2 * j + 1)) (b.chunk n j)
      else some (FVal.sum (List.zipWith FVal.mul (a.vals i j) (b.vals n j)))
    let y := accStep int x.1 s
    (y.1, x.2 + b2n y.2)) (acc, 0)

/-! ### Tiles (R105) -/

def tileKey (t r c : Nat) : Nat := 8192 * t + 128 * r + c
def MatEng.word (e : MatEng) (t r c : Nat) : Nat := (look 0 e.tiles (tileKey t r c)).toNat
def MatEng.setWord (e : MatEng) (t r c v : Nat) : MatEng := { e with tiles := putZ e.tiles (tileKey t r c) (BitVec.ofNat 32 v) }

/-- Words of rows 0 to m − 1 and columns 0 to n − 1 set. -/
def MatEng.setWords (e : MatEng) (t m n : Nat) (f : Nat → Nat → Nat) : MatEng :=
  (List.range m).foldl (fun e r => (List.range n).foldl (fun e c => e.setWord t r c (f r c)) e) e

/-! ### Op fields (R112) and start checks (R118) -/

def QOp.tile (q : QOp) : Nat := q.f 75 74
def QOp.isArray (q : QOp) : Bool := decide (q.kind ≤ 1) || decide (5 ≤ q.kind)

def QOp.mmK (q : QOp) : Nat := 32 * (q.f 64 51 + 1)
def QOp.mmM (q : QOp) : Nat := q.f 50 45 + 1
def QOp.mmN (q : QOp) : Nat := q.f 44 38 + 1
def QOp.tM (q : QOp) : Nat := q.f 47 42 + 1
def QOp.tN (q : QOp) : Nat := q.f 41 35 + 1
def QOp.stride (q : QOp) : Nat := q.f 63 48

def misBase (v : W64) : Bool := baseBad v || baseOff v % 32 != 0
def pastEnd (l : List (Nat × Nat)) : Bool := l.any fun x => decide (x.2 ≠ 0) && decide (x.1 + x.2 > spadTop)

/-- Checks of MM and MV. -/
def QOp.mmFault (q : QOp) : Option Nat :=
  let fa := q.f 73 70
  let fb := q.f 69 66
  firstCause
    [(0x2, (pairRate fa fb).isNone), (0x3, fb == tblock && q.mmK % 64 != 0), (0x4, misBase q.a || misBase q.b),
     (0x5, pastEnd (operandRanges (baseOff q.a) fa q.mmK q.mmM ++ operandRanges (baseOff q.b) fb q.mmK q.mmN)),
     (0x7, q.unnamed [(79, 38)])]

/-- Bytes of an element of an ACC_LOAD source or a row-major store. -/
def fmtBytes (c : Nat) : Nat := if c = 0 ∨ c = 6 then 4 else if c = 1 ∨ c = 2 then 2 else 1

/-- Checks of ACC_LOAD. -/
def QOp.loadFault (q : QOp) : Option Nat :=
  let fi := q.f 73 70
  let len := q.tN * fmtBytes fi
  firstCause
    [(0x2, !(fi == 0 || fi == 1 || fi == 6)), (0x4, misBase q.a),
     (0x5, decide (tileEnd (baseOff q.a) q.stride len q.tM > spadTop)),
     (0x6, q.stride == 0 || decide (32 * q.stride < len)), (0x7, q.unnamed [(79, 70), (63, 35)])]

def QOp.fo (q : QOp) : Nat := q.f 73 70
def QOp.chunked (q : QOp) : Bool := q.f 66 66 == 1
def QOp.aow (q : QOp) : Nat := q.f 65 64

/-- The byte ranges that a store writes (R113). -/
def QOp.storeRanges (q : QOp) : List (Nat × Nat) :=
  let gc := baseOff q.c
  if q.chunked then
    ((List.range (q.tN / 32)).flatMap fun j => (List.range q.tM).map fun i =>
      (gc + 32 * q.stride * j + i * chunkBytes q.fo, chunkBytes q.fo)) ++
      (if isMx q.fo then [(baseOff q.b, q.tN / 32 * q.tM)] else [])
  else tileRanges gc q.stride (q.tN * fmtBytes q.fo) q.tM

/-- The accumulate type of a store (R114, R166); 0 for a plain one. -/
def QOp.storeAcc (q : QOp) : Nat :=
  if q.aow = 1 then (if q.fo = 0 then 1 else if q.fo = 1 then 2 else if q.fo = 6 then 3 else 0)
  else if q.aow = 2 ∧ q.fo = 0 then 4 else 0

/-- Checks of ACC_STORE. -/
def QOp.storeFault (q : QOp) : Option Nat :=
  firstCause
    [(0x1, q.f 69 68 == 3 || q.aow == 3), (0x2, decide (q.fo > 0xC)),
     (0x4, misBase q.c || (q.chunked && isMx q.fo && misBase q.b)), (0x5, pastEnd q.storeRanges),
     (0x6, q.stride == 0 || (!q.chunked && (isMx q.fo || decide (32 * q.stride < q.tN * fmtBytes q.fo))) ||
        (q.chunked && (q.tN % 32 != 0 || decide (32 * q.stride < q.tM * chunkBytes q.fo))) ||
        (q.aow != 0 && (q.chunked || q.storeAcc == 0))),
     (0x7, q.unnamed [(79, 34), (31, 0)])]

/-- The start check of a matrix-engine operation. -/
def QOp.meFault (q : QOp) : Option Nat :=
  if q.kind ≥ 5 then some 0x1
  else if q.kind ≤ 1 then q.mmFault
  else if q.kind = 2 then firstCause [(0x7, q.unnamed [(79, 74)])]
  else if q.kind = 3 then q.loadFault
  else q.storeFault

/-! ### Output conversion (R101–R103, R113) -/

/-- The value of a tile word times the multiplier. -/
def QOp.product (q : QOp) (word : Nat) : FVal :=
  (if q.f 34 34 = 1 then FVal.ofInt (int32 word) else fp32.decode word).mul (fp32.decode (q.f 31 0))

/-- The store copies the tile bit for bit (R114). -/
def QOp.copies (q : QOp) : Bool := q.f 31 0 == 0x3F800000 && q.fo == (if q.f 34 34 = 1 then 6 else 0)

/-- One element outside the MX formats, whose first byte lies at an offset. -/
def QOp.storeElem (q : QOp) (word off : Nat) : Nat × Count :=
  if q.copies then (word, .none)
  else
    let mode := rmode (q.f 69 68) q.a off
    let inf := q.f 67 67 == 1
    let v := q.product word
    match q.fo with
    | 0 => fp32.convert mode inf v
    | 1 => bf16.convert mode inf v
    | 2 => fp16.convert mode inf v
    | 3 => e4m3.convert mode inf v
    | 4 => e5m2.convert mode inf v
    | 5 => convertInt 8 mode v
    | _ => convertInt 32 mode v

/-- The index that draws an MX element's random number (R101). -/
def mxIndex (c cbase k : Nat) : Nat :=
  if c = 0xB then 2 * (cbase + k / 2) + k % 2
  else if c = 9 ∨ c = 0xA then 2 * (cbase + k / 4 * 3) + [0, 1, 2, 4].getD (k % 4) 0
  else cbase + k

/-- Elements of an MX chunk packed into its bytes (R94). -/
def mxPack (c : Nat) (es : List Nat) : List Byte :=
  let w := if c = 0xB then 4 else if c = 9 ∨ c = 0xA then 6 else 8
  leBytes (chunkBytes c) (es.foldr (fun e acc => e % 2 ^ w + 2 ^ w * acc) 0)

end Sys2Proof.Machine
end

