-- ==== Sys2Proof/Machine/MatrixEngine.lean ====
section
/-! DEFINITION. The matrix engines' commands (R105–R118, R164). -/

namespace Sys2Proof.Machine

open Host (Outcome)

def meFaultBits (cause kind tile : Nat) : Nat := 2 ^ 31 + cause * 2 ^ 27 + kind * 2 ^ 23 + tile * 2 ^ 21

/-- An operation of a kind may start: its class is free and no running operation names its tile (R115). -/
def MatEng.free (e : MatEng) (q : QOp) : Bool :=
  (if q.isArray then e.array.isNone else e.xfer.isNone) &&
    [e.array, e.xfer].all fun r => match r with
      | none => true
      | some r => r.q.tile != q.tile

/-- An operation that runs, in the class it belongs to. -/
def MatEng.setRun (e : MatEng) (r : RunOp) : MatEng :=
  if r.q.isArray then { e with array := some r } else { e with xfer := some r }

/-- The invalid T-blocks of an operand: offsets, each decoded block once (R96). -/
def Operand.badBlocks (o : Operand) : List Nat :=
  ((List.range (o.k / 64)).flatMap fun j => (List.range o.r).map fun i => (i, j)).filterMap fun x =>
    if tblkValid (o.chunk x.1 x.2) then none else some (o.base + (x.2 * o.r + x.1) * 14)

/-- Invalid blocks counted, and the first recorded (R96, R121). -/
def Core.noteTblk (k : Core) (eng : Nat) (l : List Nat) : Core :=
  match l with
  | [] => k
  | off :: _ =>
    (k.bump Reg.ME_TBLK_BAD_CNT l.length).firstFault Reg.ME_TBLK_BAD_ADDR (2 ^ 31 + eng * 2 ^ 29 + off)

/-- MM and MV: every output element chunk by chunk (R107). -/
def Core.mmRun (k : Core) (w : At) (base eng : Nat) (q : QOp) : Core :=
  let fa := q.f 73 70
  let fb := q.f 69 66
  let ra := operandRanges (baseOff q.a) fa q.mmK q.mmM
  let rb := operandRanges (baseOff q.b) fb q.mmK q.mmN
  let rows := rowsOf ra ++ rowsOf rb
  let x := Core.fetch w (Own.me eng) (rowsOf (ra ++ rb)) k
  let a : Operand := { c := fa, base := baseOff q.a, k := q.mmK, r := q.mmM, f := x.1 }
  let b : Operand := { c := fb, base := baseOff q.b, k := q.mmK, r := q.mmN, f := x.1 }
  let k := x.2.2
  let e := k.eng eng
  let start (i n : Nat) : Nat := if q.f 65 65 = 1 then e.word q.tile i n else 0
  let res := (List.range q.mmM).map fun i => (List.range q.mmN).map fun n => mmElement a b i n (start i n)
  let wraps := (res.map fun l => (l.map (·.2)).sum).sum
  let k := if wraps = 0 then k else k.bump Reg.ME_INT_WRAP_CNT wraps
  let k := if fb = tblock then k.noteTblk eng b.badBlocks else k
  let val (i n : Nat) : Nat :=
    if isBad x.2.1 then fv base (128 * i + n) % 2 ^ 32 else (((res.getD i []).getD n (0, 0)).1)
  let r2 := (pairRate fa fb).getD 1
  let compute := if q.kind = 0 then cdiv (2 * q.mmK) r2 else cdiv (2 * q.mmM * q.mmK) (64 * r2)
  let cycles := k.count base e.xfer.isNone [rows] (16 + Nat.max compute (k.fetchCyc (Own.me eng) rows.length))
  k.setEng eng ((e.setWords q.tile q.mmM q.mmN val).setRun { q := q, status := x.2.1, cycles := cycles })

/-- ACC_ZERO. -/
def Core.accZeroRun (k : Core) (eng : Nat) (q : QOp) : Core :=
  let e := k.eng eng
  k.setEng eng ((e.setWords q.tile 64 128 fun _ _ => 0).setRun { q := q, status := St.done, cycles := 2 })

/-- ACC_LOAD: rows converted to the tile type. -/
def Core.accLoadRun (k : Core) (w : At) (base eng : Nat) (q : QOp) : Core :=
  let fi := q.f 73 70
  let n := fmtBytes fi
  let src := tileRanges (baseOff q.a) q.stride (q.tN * n) q.tM
  let rows := rowsOf src
  let x := Core.fetch w (Own.me eng) rows k
  let k := x.2.2
  let e := k.eng eng
  let val (i c : Nat) : Nat :=
    if isBad x.2.1 then fv base (128 * i + c) % 2 ^ 32
    else
      let raw := Fetch.le x.1 (baseOff q.a + 32 * q.stride * i + n * c) n
      if fi = 1 then fp32.round (bf16.decode raw) else raw
  let cycles := k.count base e.array.isNone [rows] (8 + Nat.max 8 (k.fetchCyc (Own.me eng) rows.length))
  k.setEng eng ((e.setWords q.tile q.tM q.tN val).setRun { q := q, status := x.2.1, cycles := cycles })

/-- One chunk of an MX store: its bytes, its scale and the counts. -/
def MatEng.mxChunk (e : MatEng) (q : QOp) (i j : Nat) : List Byte × Nat × List Count :=
  let cbase := baseOff q.c + 32 * q.stride * j + i * chunkBytes q.fo
  let vs := (List.range 32).map fun c =>
    (q.product (e.word q.tile i (32 * j + c)), rmode (q.f 69 68) q.a (mxIndex q.fo cbase c))
  let x := mxBlock q.fo vs
  (mxPack q.fo (x.2.map (·.1)), x.1, x.2.map (·.2))

/-- Elements of a row from column c0 on, outside the MX formats. -/
def MatEng.storeRow (e : MatEng) (q : QOp) (i c0 n off : Nat) : List Byte × List Count :=
  let b := fmtBytes q.fo
  let xs := (List.range n).map fun c => q.storeElem (e.word q.tile i (c0 + c)) (off + b * c)
  (xs.flatMap fun x => leBytes b x.1, xs.map (·.2))

/-- What a store writes: offset and bytes of every piece, with the counts (R113). -/
def MatEng.storePieces (e : MatEng) (q : QOp) : List (Nat × List Byte) × List Count :=
  let gc := baseOff q.c
  if q.chunked then
    let xs := (List.range (q.tN / 32)).flatMap fun j => (List.range q.tM).map fun i =>
      let off := gc + 32 * q.stride * j + i * chunkBytes q.fo
      if isMx q.fo then
        let c := e.mxChunk q i j
        ([(off, c.1), (baseOff q.b + j * q.tM + i, leBytes 1 c.2.1)], c.2.2)
      else
        let c := e.storeRow q i (32 * j) 32 off
        ([(off, c.1)], c.2)
    (xs.flatMap (·.1), xs.flatMap (·.2))
  else
    let xs := (List.range q.tM).map fun i =>
      let off := gc + 32 * q.stride * i
      let c := e.storeRow q i 0 q.tN off
      ((off, c.1), c.2)
    (xs.map (·.1), xs.flatMap (·.2))

/-- ACC_STORE. -/
def Core.accStoreRun (k : Core) (w : At) (base eng : Nat) (q : QOp) : Core :=
  let e := k.eng eng
  let x := e.storePieces q
  let k := k.addCounts Reg.ME_SAT_CNT Reg.ME_NAN_CNT x.2
  let rows := rowsOf q.storeRanges
  let y := k.storePieces w (Own.me eng) q.storeAcc (x.1.map fun p => (p.1, enabled p.2))
  let fetch := k.fetchCyc (Own.me eng) rows.length
  let cycles := k.count base e.array.isNone [rows]
    (12 + Nat.max 8 (if q.aow = 0 then fetch else 2 * fetch))
  y.2.setEng eng ((y.2.eng eng).setRun { q := q, status := y.1, cycles := cycles })

/-- A matrix-engine operation that fails its check. -/
def Core.meFail (k : Core) (base eng : Nat) (q : QOp) (cause : Nat) : Core :=
  (k.firstFault (Reg.ME_FAULT + 4 * eng) (meFaultBits cause q.kind q.tile)).opFail
    (Reg.ME_OP_CNT + 4 * eng) (Reg.ME_OP_CYC + 4 * eng) base q St.notPermitted

/-- The operation that runs when another starts shares its slots from then on, so that its count is free (R116, R117,
notes/assumptions/30.md). -/
def MatEng.shared (base : Nat) (e : MatEng) : MatEng :=
  let free (r : RunOp) : RunOp := { r with cycles := fv base 65534 }
  { e with array := e.array.map free, xfer := e.xfer.map free }

/-- The operation at the head of an engine's queue starts, when it is of one of the kinds and may start. -/
def Core.meStart (k : Core) (base eng : Nat) (kinds : Nat → Bool) (run : QOp → Core → Core) : Core :=
  let e := k.eng eng
  match e.queue with
  | [] => k
  | q :: rest =>
    if ¬ kinds q.kind ∨ ¬ e.free q then k
    else
      let k := k.setEng eng { e with queue := rest }
      if k.noSlot (Own.me eng) then k.opNoSlot (Reg.ME_OP_CNT + 4 * eng) (Reg.ME_OP_CYC + 4 * eng) base q
      else match q.meFault with
        | some cause => k.meFail base eng q cause
        | none => run q (k.setEng eng (MatEng.shared base { e with queue := rest }))

/-- MM, and an operation of a reserved kind, which fails its check (notes/assumptions/14.md). -/
def execMm (n : Site) (eng : Fin 4) (s : State) : Outcome State Fault Refusal :=
  s.eng n fun b w k => k.meStart b eng (fun c => c == 0 || decide (5 ≤ c)) fun q k => k.mmRun w b eng q
/-- MV. -/
def execMv (n : Site) (eng : Fin 4) (s : State) : Outcome State Fault Refusal :=
  s.eng n fun b w k => k.meStart b eng (· == 1) fun q k => k.mmRun w b eng q
/-- ACC_ZERO. -/
def execAccZero (n : Site) (eng : Fin 4) (s : State) : Outcome State Fault Refusal :=
  s.eng n fun b _ k => k.meStart b eng (· == 2) fun q k => k.accZeroRun eng q
/-- ACC_LOAD. -/
def execAccLoad (n : Site) (eng : Fin 4) (s : State) : Outcome State Fault Refusal :=
  s.eng n fun b w k => k.meStart b eng (· == 3) fun q k => k.accLoadRun w b eng q
/-- ACC_STORE. -/
def execAccStore (n : Site) (eng : Fin 4) (s : State) : Outcome State Fault Refusal :=
  s.eng n fun b w k => k.meStart b eng (· == 4) fun q k => k.accStoreRun w b eng q

/-- ME_OP_COMPLETE: the running operation of a class completes (R115). -/
def Core.meComplete (k : Core) (eng : Nat) (xfer : Bool) : Core :=
  let e := k.eng eng
  match (if xfer then e.xfer else e.array) with
  | none => k
  | some r =>
    (k.setEng eng (if xfer then { e with xfer := none } else { e with array := none })).opEnd
      (Reg.ME_OP_CNT + 4 * eng) (Reg.ME_OP_CYC + 4 * eng) r

def execMeOpComplete (n : Site) (eng : Fin 4) (xfer : Bool) (s : State) : Outcome State Fault Refusal :=
  s.onCore n fun k => k.meComplete eng xfer

/-- A write of ME_FAULT_CLR: bit n clears ME_FAULT[n]. -/
def Core.meFaultClr (k : Core) (value : W64) : Core :=
  (List.range 4).foldl (fun k i => if value.getLsbD i then k.wr (Reg.ME_FAULT + 4 * i) 0 else k) k

/-- A write of ME_TBLK_BAD_CLR. -/
def Core.meTblkBadClr (k : Core) (value : W64) : Core := if value.getLsbD 0 then k.wr Reg.ME_TBLK_BAD_ADDR 0 else k

end Sys2Proof.Machine
end

