-- ==== Sys2Proof/Machine/CoreControl.lean ====
section
/-! DEFINITION. Core states and their commands, heartbeats and region agents, engine gating (R43–R46, R60–R62, R409). -/

namespace Sys2Proof.Machine

open Host (Outcome)

/-! ### Core commands (R61) -/

def Core.goTo (k : Core) (st : CoreState) : Core := { k with seq := { k.seq with state := st } }

/-- The EMAP at the head of the VE queue asks for a tap (R132). -/
def Core.veTap (k : Core) : Option QOp :=
  match k.ve.queue with
  | [] => none
  | q :: _ => if fld q.op 79 76 = 0 ∧ q.op.getLsbD 71 then some q else none

/-- The RU operation at the head of its queue waits for a tap (R144, R148). -/
def Core.ruTap (k : Core) : Option QOp :=
  match k.ru.queue with
  | [] => none
  | q :: _ => if q.op.getLsbD 75 ∧ k.ru.run.isNone then some q else none

/-- R150: an EMAP or RU operation still waiting for its partner completes with DRAINED, writing nothing. -/
def Core.drainTaps (k : Core) : Core :=
  match k.veTap, k.ruTap with
  | some _, none =>
    if k.ru.queue.isEmpty ∧ k.ru.run.isNone ∧ k.ve.map.isNone then
      ({ k with ve := { k.ve with queue := k.ve.queue.tail } } : Core).bump Reg.VE_OP_CNT
    else k
  | none, some _ =>
    if k.ve.queue.isEmpty ∧ k.ve.map.isNone ∧ k.ve.xfer.isNone then
      ({ k with ru := { k.ru with queue := k.ru.queue.tail } } : Core).bump Reg.RU_OP_CNT
    else k
  | _, _ => k

/-- A value written to CORE_CMD by the management ring (R61): a command not allowed in the state is ignored and counted. An
ABORT under way takes no further command (notes/assumptions/10.md). -/
def Core.cmd (k : Core) (code : Nat) : Core :=
  let ignored := k.bump Reg.CORE_CMD_IGN_CNT
  if k.seq.aborting then ignored
  else if code = 1 then
    if k.seq.state = .run ∨ k.seq.state = .idle then (k.modTask fun t => { t with waitFrom := none }).goTo .paused
    else ignored
  else if code = 2 then
    if k.seq.state = .paused then k.goTo (if k.seq.task.isSome then .run else .idle)
    else if k.seq.state = .test then k.goTo .idle
    else ignored
  else if code = 3 then
    if k.seq.state = .paused then { k with seq := { k.seq with aborting := true } } else ignored
  else if code = 4 then
    if k.seq.state = .run ∨ k.seq.state = .idle ∨ k.seq.state = .paused then
      let k := k.noteStatus (((k.seq.task.bind (·.unitFault)).map (·.status)).getD St.drained)
      (k.goTo .draining).drainTaps
    else ignored
  else if code = 5 then (if k.seq.state = .idle then k.goTo .test else ignored)
  else ignored

/-- PAUSE. -/
def execPause (n : Site) (s : State) : Outcome State Fault Refusal := s.onSite n fun k => k.cmd 1
/-- RESUME. -/
def execResume (n : Site) (s : State) : Outcome State Fault Refusal := s.onSite n fun k => k.cmd 2
/-- ABORT: the discard follows with ABORT_COMPLETE. -/
def execAbort (n : Site) (s : State) : Outcome State Fault Refusal := s.onSite n fun k => k.cmd 3
/-- DRAIN: its end follows with DRAIN_COMPLETE. -/
def execDrain (n : Site) (s : State) : Outcome State Fault Refusal := s.onSite n fun k => k.cmd 4
/-- TEST. -/
def execTest (n : Site) (s : State) : Outcome State Fault Refusal := s.onSite n fun k => k.cmd 5

/-- The end of an ABORT, once accepted work has completed: task and start entries go without reports and are counted; the
answers of the task's remote operations will come late (R61, R221). -/
def Core.abortEnd (k : Core) (dial : Nat) : Core :=
  let n := k.seq.starts.length + b2n k.seq.task.isSome
  let k := if n = 0 then k else k.bump Reg.SEQ_ABORT_CNT n
  { k with seq := { k.seq with
    state := .idle, aborting := false, task := none, starts := [], idleSince := dial
    remote := k.seq.remote.filter fun o => !o.own } }

/-- ABORT_COMPLETE. -/
def execAbortComplete (n : Site) (s : State) : Outcome State Fault Refusal :=
  s.atCore n fun k p =>
    if k.seq.aborting ∧ k.allIdle then p.setCore n (k.abortEnd p.dial) else p

/-- The cycle count of the task that ends: from its first word's issue, a free value of its placement
(notes/assumptions/2.md). -/
def Panel.cycles (p : Panel) : Nat × Panel := let x := p.draw; (x.1.toNat, x.2)

/-- The reports of start entries that DRAIN removes, in order; stops at one that the router cannot take yet. -/
def Panel.drainStarts (n : Nat) : List StartEntry → Panel → Panel
  | [], p => p
  | e :: es, p =>
    let p' := if e.report then p.sendReport n e St.drained 0 else some p
    match p' with
    | none => p
    | some p => Panel.drainStarts n es (p.modCore n fun k => { k with seq := { k.seq with starts := es } })

/-- The drained task's report, and the task gone; as it was when the router cannot take the report. -/
def Panel.drainTask (p : Panel) (n : Nat) : Panel :=
  match (p.core n).seq.task with
  | none => p
  | some t =>
    let (cyc, p) := p.cycles
    let st := t.status.getD St.drained
    let p' := if t.entry.report ∨ t.unitFault.isSome then p.sendReport n t.entry st cyc else some p
    match p' with
    | none => p
    | some p => p.modCore n fun k =>
      let k := match t.unitFault with
        | none => k
        | some f => k.recordFault 0x9 f.opcode f.status f.pc
      k.endTask p.dial cyc

/-- DRAIN_COMPLETE (R61, R66, R150): once the work and the task's remote operations are complete, the task's report, the
entries' reports, and TEST when nothing is left. -/
def execDrainComplete (n : Site) (s : State) : Outcome State Fault Refusal :=
  s.atCore n fun k p =>
    if k.seq.state = .draining then
      let p := p.modCore n Core.drainTaps
      let k := p.core n
      if k.allIdle ∧ k.remoteIdle then
        let p := p.drainTask n
        if (p.core n).seq.task.isSome then p
        else
          let p := Panel.drainStarts n (p.core n).seq.starts p
          if (p.core n).seq.starts.isEmpty then p.modCore n fun k => k.goTo .test else p
      else p
    else p

/-! ### Heartbeats and agents (R43–R46, R62) -/

/-- The agent of a region, when it has one whose site is powered. -/
def Panel.agentOf (p : Panel) (g : Nat) : Option Nat :=
  match find p.agents g with
  | none => none
  | some n => if p.powered n ∧ (p.core n).seq.state ≠ .halted then some n else none

/-- A heartbeat goes out: it reaches the agent, which acknowledges it, or the crown once the supervisor has turned to it
(R46; notes/assumptions/11.md). -/
def Panel.sendHeartbeat (p : Panel) (n : Nat) : Panel :=
  let k := (p.core n).wr Reg.CORE_HB_CNT (((p.core n).rd Reg.CORE_HB_CNT + 1) % 2 ^ 32)
  let k := { k with hbSent := p.dial }
  let k := match p.agentOf (regionOf n) with
    | some _ => { k with hbHeard := p.dial, hbAcked := p.dial, hbToCrown := false }
    | none => if k.hbToCrown then { k with hbHeard := p.dial } else k
  p.setCore n k

/-- HEARTBEAT: every 20 µs while the oscillator runs and the sequencer answers (R62). -/
def execHeartbeat (n : Site) (s : State) : Outcome State Fault Refusal :=
  s.atSite n fun k p =>
    if p.since k.hbSent (20 * us) ∧ k.seq.state ≠ .halted ∧ k.haltSince.isNone then p.sendHeartbeat n else p

/-- The last sign of life of a site: the heartbeat that its agent took, or, while the crown acts as agent, the later of the
heartbeat that the crown took and the last summary that named the site (R46). -/
def Panel.lastHeard (p : Panel) (n : Nat) : Nat :=
  let k := p.core n
  match p.agentOf (regionOf n) with
  | some _ => k.hbHeard
  | none => Nat.max k.hbHeard (look 0 p.namedAt n)

/-- A core loss reported to the crown that leads its half (R62), with the retirement cause of R27. -/
def Panel.reportLoss (p : Panel) (n cause : Nat) : Panel :=
  if p.losses.any (·.site = n) then p
  else
    let c := p.leaderOf n
    ({ p with losses := p.losses ++ [{ site := n, cause := cause, parts := [], since := p.lastHeard n }] } : Panel).logCrown c (.core n)
      { cls := 0x09, level := 3, unit := cause, status := St.siteRetired }

/-- CORE_LOSS_DETECT: no heartbeat for 80 µs (R62). -/
def execCoreLossDetect (n : Site) (s : State) : Outcome State Fault Refusal :=
  s.atSite n fun _ p => if p.since (p.lastHeard n) (80 * us) then p.reportLoss n 2 else p

/-- The sites that a region summary names: the agent's own, and those heard in the last 20 µs. -/
def Panel.namedSites (p : Panel) (g a : Nat) : List Nat :=
  (regionSites g).filter fun n => n = a ∨ (p.powered n ∧ p.dial ≤ (p.core n).hbHeard + 20 * us)

/-- REGION_SUMMARY: every 20 µs the agent names the sites it heard (R46). -/
def execRegionSummary (g : Region) (s : State) : Outcome State Fault Refusal :=
  s.onPanel fun p =>
    match p.agentOf g with
    | none => p
    | some a =>
      if p.since (look 0 p.summaryAt g) (20 * us) then
        { p with summaryAt := put p.summaryAt g p.dial
                 namedAt := (p.namedSites g a).foldl (fun m n => put m n p.dial) p.namedAt }
      else p

/-- AGENT_LOSS_DETECT: no summary for 80 µs; the agent's site is lost and the crown acts as agent (R46). -/
def execAgentLossDetect (g : Region) (s : State) : Outcome State Fault Refusal :=
  s.onPanel fun p =>
    match find p.agents g with
    | none => p
    | some a =>
      if p.since (look 0 p.summaryAt g) (80 * us) then
        ({ p with agents := drop p.agents g } : Panel).reportLoss a 2
      else p

/-- HEARTBEAT_REROUTE: 40 µs without an acknowledgement (R46). -/
def execHeartbeatReroute (n : Site) (s : State) : Outcome State Fault Refusal :=
  s.atSite n fun k p =>
    if p.since k.hbAcked (40 * us) ∧ ¬ k.hbToCrown then p.setCore n { k with hbToCrown := true } else p

/-- The site that comes first among a region's powered sites that are not retired, lost or halted (R43). -/
def Panel.eligible (p : Panel) (g : Nat) : Option Nat :=
  (regionSites g).find? fun n =>
    p.powered n ∧ (p.site n).state ≠ 3 ∧ (p.site n).state ≠ 4 ∧ ¬ p.losses.any (·.site = n) ∧
      (p.core n).seq.state ≠ .halted

/-- AGENT_APPOINT: a region without an agent gets its next eligible site (R43, R45), and one more appointment is counted,
holding at 0xFF. -/
def execAgentAppoint (g : Region) (s : State) : Outcome State Fault Refusal :=
  s.onPanel fun p =>
    match p.agentOf g, p.eligible g with
    | none, some n =>
      { p with agents := put p.agents g n
               elections := put p.elections g (satAdd 0xFF (look 0 p.elections g) 1)
               summaryAt := put p.summaryAt g p.dial }
    | _, _ => p

/-! ### Engine gating (R409) -/

/-- ENGINE_GATE: PWR_GATE_CFG.idle µs without a task; 0 never gates. -/
def execEngineGate (n : Site) (s : State) : Outcome State Fault Refusal :=
  s.atSite n fun k p =>
    let idle := k.rd Reg.PWR_GATE_CFG % 65536
    if idle ≠ 0 ∧ k.seq.task.isNone ∧ ¬ k.seq.gated ∧ p.since k.seq.idleSince (idle * us) then
      p.setCore n { k with seq := { k.seq with gated := true } }
    else p

/-- ENGINE_WAKE: a gated core that finds a start entry wakes its units before it takes the entry. -/
def execEngineWake (n : Site) (s : State) : Outcome State Fault Refusal :=
  s.onCore n fun k =>
    if k.seq.gated ∧ k.seq.starts ≠ [] then { k with seq := { k.seq with gated := false } } else k

end Sys2Proof.Machine
end

