-- ==== Sys2Proof/Machine/MeshHop.lean ====
section
/-! DEFINITION. Routers at work: the hop layer, unicast hops, multicast trees, in-network reduction, link faults and route maps
(R182, R187–R196, R199–R208). -/

namespace Sys2Proof.Machine

open Host (Outcome)

/-! ### Links -/

def Core.link (k : Core) (port : Nat) : LinkState := look {} k.rt.link port
def Core.setLink (k : Core) (port : Nat) (l : LinkState) : Core := { k with rt := { k.rt with link := put k.rt.link port l } }

/-- A port that carries traffic now: up or degraded, and not held for lane repair (R191). -/
def Core.carries (k : Core) (port : Nat) : Bool := k.linkUp port && (k.link port).held.isNone

/-! ### Hop layer (R187, R188) -/

/-- The slots that a packet fills: header, then payload units. -/
def Packet.slots (x : Packet) : List (Nat × Codeword) :=
  (1, Codeword.fresh (leBytes 32 (x.hdr.toNat + x.hdr.hcrc * 2 ^ 240)) false) ::
    x.units.map fun u => (if u.poison then 3 else 2, u)

/-- Slots of unit traffic in the flit of a sequence number: six when its slot 6 is a control slot. -/
def flitRoom (seq : Nat) : Nat := if seq % 4 = 3 then 6 else 7

/-- Slots cut into flits from a sequence number on. -/
def cutFlits : Nat → Nat → List (Nat × Codeword) → List (Nat × List (Nat × Codeword))
  | 0, _, _ => []
  | n + 1, seq, l =>
    if l.isEmpty then [] else (seq, l.take (flitRoom seq)) :: cutFlits n ((seq + 1) % 65536) (l.drop (flitRoom seq))

/-- A packet's flits sent on a port: numbered, kept in the replay buffer of 64, and its units counted. -/
def Core.sendFlits (k : Core) (port : Nat) (x : Packet) : Core :=
  let l := k.link port
  let fs := cutFlits 40 l.txSeq x.slots
  let all := l.replay ++ fs
  let k := k.setLink port { l with txSeq := (l.txSeq + fs.length) % 65536, replay := all.drop (all.length - 64) }
  k.wrap (Reg.MESH_LINK_UNITS + 8 * port) x.size

/-- The receiving end takes as many flits as were sent without error. -/
def Core.recvFlits (k : Core) (port n : Nat) : Core :=
  let l := k.link port
  k.setLink port { l with rxSeq := (l.rxSeq + n) % 65536, rxCount := (l.rxCount + n) % 4 }

/-- The control slot of a flit: acknowledgement, NAK and credits. -/
def LinkState.control (l : LinkState) (bs : List Byte) : LinkState :=
  let flags := leAt bs 0 1
  let seq := leAt bs 2 2
  let l := if flags.testBit 0 then
      { l with replay := l.replay.filter fun f => decide ((seq + 65536 - f.1) % 65536 ≥ 32768) }
    else l
  let l := if flags.testBit 1 then { l with nakAt := some seq } else l
  (List.range 4).foldl (fun l v =>
    let c := look (0, 0) l.credit v
    { l with credit := put l.credit v (c.1 + leAt bs (4 + v) 1, c.2 + bits (leAt bs 8 2) (4 * v + 3) (4 * v)) }) l

/-- A whole packet at the front of the received slots, and the slots behind it. -/
def takePacket (l : List (Nat × Codeword)) : Option (Packet × List (Nat × Codeword)) :=
  match l with
  | [] => none
  | (_, h) :: rest =>
    let hdr := Header.ofNat (leNat h.read.2.data)
    if rest.length < hdr.len then none else some ({ hdr := hdr, units := (rest.take hdr.len).map (·.2) }, rest.drop hdr.len)

/-- Every whole packet among the received slots placed in the input buffer of its channel. -/
def Core.assemble (port : Nat) : Nat → Core → Core
  | 0, k => k
  | n + 1, k =>
    match takePacket (k.link port).rxSlots with
    | none => k
    | some (x, rest) =>
      Core.assemble port n ((k.setLink port { k.link port with rxSlots := rest }).pushIn port (x.hdr.vc % 4) x)

/-- A flit as it arrives: 256 bytes. -/
structure Flit where
  bytes : List Byte
  deriving DecidableEq, Repr

/-- Slot i of a flit: type and codeword. -/
def Flit.slot (f : Flit) (i : Nat) : Nat × Codeword :=
  let ty := bits (leAt f.bytes 252 2) (2 * i + 1) (2 * i)
  (ty, { data := (f.bytes.drop (36 * i)).take 32, chk := (f.bytes.drop (36 * i + 32)).take 4, poison := ty == 3 })

/-- The CRC of a flit under a sequence number. -/
def Flit.crcOk (f : Flit) (seq : Nat) : Bool := crc16 (leBytes 2 seq ++ f.bytes.take 254) == leAt f.bytes 254 2

/-- FLIT_RECEIVE (R188): accepted under the expected number, acknowledged every fourth flit; else a NAK, and flits are
discarded until the one it names. -/
def Panel.flitIn (p : Panel) (n port : Nat) (f : Flit) : Panel :=
  let k := p.core n
  let l := k.link port
  if ¬ k.linkUp port then p
  else if f.crcOk l.rxSeq then
    let seq := l.rxSeq
    let cnt := l.rxCount + 1
    let l := { l with rxSeq := (seq + 1) % 65536, rxNak := false, rxCount := cnt % 4 }
    let l := if seq % 4 = 3 then l.control (f.slot 6).2.read.2.data else l
    let slots := ((List.range (flitRoom seq)).map f.slot).filter fun x => x.1 ≠ 0
    let k := Core.assemble port 16 (k.setLink port { l with rxSlots := l.rxSlots ++ slots })
    let p := p.setCore n k
    if cnt = 4 then p.emit (.hopAck n port seq) else p
  else if l.rxNak then p
  else (p.setCore n (k.setLink port { l with rxNak := true })).emit (.hopNak n port l.rxSeq)

def execFlitReceive (n : Site) (port : Fin 8) (flit : BitVec 2048) (s : State) : Outcome State Fault Refusal :=
  s.atCore n fun _ p => p.flitIn n port ⟨leBytes 256 flit.toNat⟩

/-- FLIT_REPLAY: the sender goes back to the flit that a NAK named, and sends it and every later one again. -/
def execFlitReplay (n : Site) (port : Fin 8) (s : State) : Outcome State Fault Refusal :=
  s.atCore n fun k p =>
    let l := k.link port
    match l.nakAt with
    | none => p
    | some seq =>
      let again := l.replay.filter fun f => decide ((f.1 + 65536 - seq) % 65536 < 32768)
      let k := (k.setLink port { l with nakAt := none, replay := again }).bump Reg.MESH_RETRY_CNT
      again.foldl (fun p f => p.emit (.hopReplay n port f.1)) (p.setCore n k)

/-! ### Delivery -/

/-- Room at the destination of a packet: answers are always taken (R198), other channels one packet at a time. -/
def arrRoom (l : List Packet) (v : Nat) : Bool := v == 1 || l.isEmpty

/-- A packet handed to the die behind an edge port; none when that die has not taken the one before. -/
def Panel.toEdge (p : Panel) (n which : Nat) (x : Packet) : Option Panel :=
  let v := x.hdr.vc % 4
  match attDie n which with
  | none => none
  | some (.hub h a) =>
    let l := look [] (p.hub h).arr (4 * a + v)
    if arrRoom l v then some (p.modHub h fun k => { k with arr := put k.arr (4 * a + v) (l ++ [x]) }) else none
  | some (.port d q) =>
    let l := look [] (p.port d).arr (4 * q + v)
    if arrRoom l v then some (p.modPort d fun k => { k with arr := put k.arr (4 * q + v) (l ++ [x]) }) else none
  | some (.crown c _) =>
    let l := look [] (p.crown c).arr v
    if arrRoom l v then some (p.modCrown c fun k => { k with arr := put k.arr v (l ++ [x]) }) else none

/-- The die behind an edge port takes packets: present, and not lost. -/
def Panel.edgeLives (p : Panel) (n which : Nat) : Bool :=
  (p.core n).carries (5 + which) && match attDie n which with
    | none => false
    | some (.hub h _) => p.fuses.hubPresent h && !(p.hub h).lost
    | some (.port d _) => p.fuses.diePresent d && !(p.port d).lost
    | some (.crown c _) => !(p.crown c).lost

/-- A packet moved over a link to the next router; none without credit there. -/
def Panel.moveTo (p : Panel) (n port m : Nat) (x : Packet) : Option Panel :=
  let far := farPort port
  if (p.core n).carries port ∧ roomFor ((p.core m).rt.inbuf far (x.hdr.vc % 4)) x then
    let sent := (cutFlits 40 ((p.core n).link port).txSeq x.slots).length
    let p := p.modCore n fun k => k.sendFlits port x
    some (p.modCore m fun k => (k.recvFlits far sent).pushIn far (x.hdr.vc % 4) x)
  else none

/-- A packet handed to this router's core. -/
def Panel.toCore (p : Panel) (n : Nat) (x : Packet) : Option Panel :=
  let v := x.hdr.vc % 4
  if arrRoom ((p.core n).arrived v) v then some (p.modCore n fun k => k.pushArr v x) else none

/-- A packet discarded under R196: counted, and a request answered with SITE_RETIRED. -/
def Panel.discard (p : Panel) (n : Nat) (x : Packet) : Panel :=
  let p := p.modCore n fun k => k.bump Reg.MESH_DROP_CNT
  if x.hdr.opcode = Opc.mcast then p else p.refuse (.core n) x St.siteRetired

/-- A unicast packet goes its next step; none while it has to wait. -/
def Panel.forward (p : Panel) (n : Nat) (x : Packet) : Option Panel :=
  match p.nextHop n x.hdr with
  | .core => p.toCore n x
  | .edge w =>
    if p.edgeLives n w then (p.toEdge n w x).map fun p => p.modCore n fun k => k.sendFlits (5 + w) x else some (p.discard n x)
  | .hop port m => p.moveTo n port m x
  | .dead => some (p.discard n x)

/-! ### In-network reduction (R202–R205) -/

/-- Fields of a reduction entry. -/
structure RedEnt where
  valid : Bool
  pass : Bool
  tag : Nat
  type : Nat
  part : Nat
  count : Nat
  out : Nat
  deriving DecidableEq, Repr

def Core.red (k : Core) (e : Nat) : RedEnt :=
  let v := k.rd (Reg.MESH_RED + 8 * e)
  { valid := v.testBit 63, pass := v.testBit 62, tag := bits v 61 50, type := bits v 49 47, part := bits v 46 42,
    count := bits v 41 33, out := bits v 32 30 }

def Core.redOn (k : Core) : Bool := (k.rd Reg.MESH_RED_CFG).testBit 31

/-- The entry that a REDUCE matches: the lowest index. -/
def Core.redMatch (k : Core) (h : Header) : Option Nat :=
  (List.range 64).find? fun e => let r := k.red e; r.valid && r.tag == h.rtag && r.part == h.part

/-- The router port that the next step of a packet leaves through, as `out` numbers it. -/
def Next.out : Next → Nat
  | .hop port _ => port
  | .core => 6
  | .edge _ => 7
  | .dead => 8

/-- What a router does with the REDUCE at the head of a buffer. -/
inductive RedTurn
  | plain (miss mismatch : Bool)   -- it passes as a unicast packet, counted or not
  | take (e : Nat)                 -- a contribution to entry e
  | wait                           -- entry e's complete round has yet to leave
  deriving DecidableEq, Repr

def Panel.redTurn (p : Panel) (n : Nat) (h : Header) : RedTurn :=
  let k := p.core n
  if ¬ k.redOn then .plain false false
  else match k.redMatch h with
    | none => .plain ((List.range 64).any fun e => let r := k.red e; r.valid && r.part == h.part) false
    | some e =>
      let r := k.red e
      if r.pass ∨ h.rtype ≠ r.type ∨ (p.nextHop n h).out ≠ r.out then .plain false true
      else match find k.rt.rounds e with
        | none => .take e
        | some x =>
          if x.arrived ≥ r.count then .wait
          else if x.ga = h.ga ∧ x.bytes = h.bytes ∧ x.turn = h.turn then .take e
          else .plain false true

/-- A record that a combining router writes (R203). -/
def Core.noteCombine (k : Core) (w : At) (tag : Nat) (r : CwRead) : Core :=
  match r with
  | .clean => k
  | .corrected => k.logErr w.dial w.site { cls := 0x01, level := 0, unit := 0xC, status := St.corrected, addr := tag }
  | .bad => k.logErr w.dial w.site { cls := 0x02, level := 1, unit := 0xC, status := St.uncorrectable, addr := tag }

/-- A codeword as the combining buffer holds it: corrected, or its bytes as stored and poisoned. -/
def Codeword.settled (c : Codeword) : Codeword :=
  match c.read with
  | (.bad, _) => { c with poison := true }
  | (_, d) => Codeword.fresh d.data false

/-- Enabled bytes of unit i of a packet of `bytes` bytes at `ga`. -/
def unitMask (ga bytes i : Nat) (data : List Byte) : List MByte :=
  data.zipIdx.map fun x =>
    let pos := 32 * i + x.2
    if ga % 32 ≤ pos ∧ pos < ga % 32 + bytes then some (x.1, false) else none

/-- One codeword of a later contribution added to the buffered one (R203). -/
def combineCw (type ga bytes i : Nat) (buf arriving : Codeword) : Codeword :=
  let a := arriving.read
  if buf.read.1 = .bad ∨ a.1 = .bad then { buf with poison := true }
  else Codeword.fresh (accElems type (32 / accBytes type) buf.read.2.data (unitMask ga bytes i a.2.data)).1 false

/-- A contribution taken into its round. -/
def Core.contribute (k : Core) (w : At) (e : Nat) (x : Packet) : Core :=
  let h := x.hdr
  let k := x.units.foldl (fun k u => k.noteCombine w h.rtag u.read.1) k
  let round : RedRound := match find k.rt.rounds e with
    | none =>
      { ga := h.ga, bytes := h.bytes, turn := h.turn, dc := h.dc, dr := h.dr, seq := h.seq, arrived := 1,
        weight := Nat.min h.weight 511, sem := h.sem, semen := h.semen, since := w.dial,
        units := x.units.map Codeword.settled }
    | some r =>
      { r with
        arrived := r.arrived + 1, weight := Nat.min (r.weight + h.weight) 511
        units := (r.units.zip x.units).zipIdx.map fun u => combineCw (k.red e).type r.ga r.bytes u.2 u.1.1 u.1.2 }
  { k with rt := { k.rt with rounds := put k.rt.rounds e round } }

/-- The REDUCE that a round sends on, with this site as its source. -/
def Core.roundPacket (k : Core) (n e : Nat) (r : RedRound) : Packet :=
  let t := k.red e
  Packet.mk' {
    opcode := Opc.reduce, vc := 2, len := r.units.length, bytes := r.bytes, sc := siteC n, sr := siteR n,
    dc := r.dc, dr := r.dr, turn := r.turn, ga := r.ga, seq := r.seq, rtag := t.tag, rtype := t.type, part := t.part,
    weight := r.weight, sem := r.sem, semen := r.semen } r.units

/-- A round sent on when its next router has credit; the entry re-arms when it leaves. -/
def Panel.sendRound (p : Panel) (n e : Nat) : Option Panel :=
  let k := p.core n
  match find k.rt.rounds e with
  | none => none
  | some r => (p.forward n (k.roundPacket n e r)).map fun p =>
    p.modCore n fun k => { k with rt := { k.rt with rounds := drop k.rt.rounds e } }

/-- A round sent on when it is complete and can leave. -/
def Panel.trySend (p : Panel) (n e : Nat) : Panel :=
  match find (p.core n).rt.rounds e with
  | none => p
  | some r => if r.arrived ≥ ((p.core n).red e).count then (p.sendRound n e).getD p else p

/-- REDUCE: the contribution at the head of a VC2 buffer is combined; a complete round is sent on. -/
def execReduce (n : Site) (input : Fin 9) (s : State) : Outcome State Fault Refusal :=
  s.atCore n fun k p =>
    match k.rt.inbuf input 2 with
    | [] => p
    | x :: _ =>
      if x.hdr.bad ∨ x.hdr.opcode ≠ Opc.reduce then p
      else match p.redTurn n x.hdr with
        | .take e => (p.setCore n ((k.contribute (p.at' n) e x).popIn input 2)).trySend n e
        | .wait => match k.redMatch x.hdr with
          | none => p
          | some e => p.trySend n e
        | .plain _ _ => p

/-- REDUCE_ROUND_TIMEOUT: the partial result leaves, and the entry passes until it is written (R205). -/
def execReduceRoundTimeout (n : Site) (e : Fin 64) (s : State) : Outcome State Fault Refusal :=
  s.atCore n fun k p =>
    match find k.rt.rounds e with
    | none => p
    | some r =>
      let t := k.rd Reg.MESH_RED_CFG % 65536
      if t ≠ 0 ∧ p.since r.since (t * us) ∧ r.arrived < (k.red e).count then
        match p.sendRound n e with
        | none => p
        | some p => p.modCore n fun k =>
          (k.wr (Reg.MESH_RED + 8 * e) (k.rd (Reg.MESH_RED + 8 * e) ||| 2 ^ 62)).bump Reg.MESH_RED_TIMEOUT_CNT
      else p

/-- A write of MESH_RED[e] (R202). -/
def Core.redWrite (k : Core) (e : Nat) (value : W64) : Core :=
  let v := value.toNat
  let type := bits v 49 47
  let arrived := ((find k.rt.rounds e).map (·.arrived)).getD 0
  if arrived ≠ 0 ∨ (v.testBit 63 ∧ (bits v 41 33 = 0 ∨ type = 0 ∨ 4 < type)) then k.bump Reg.MESH_CFG_IGN_CNT
  else k.wr (Reg.MESH_RED + 8 * e) (v &&& 0xBFFFFFFFC0000000)

/-- MESH_RED[e] as read: `arrived` comes from the open round. -/
def Core.redRead (k : Core) (e : Nat) : Nat :=
  k.rd (Reg.MESH_RED + 8 * e) + (((find k.rt.rounds e).map (·.arrived)).getD 0) % 512 * 2 ^ 21

/-! ### Multicast (R199–R201) -/

/-- A target of a multicast as the routers of its source row see it: site and Y-leg column. -/
structure McTarget where
  c : Nat
  r : Nat
  tc : Int
  deriving DecidableEq, Repr

/-- The real targets, by the map of the source's row. -/
def Panel.mcTargets (p : Panel) (h : Header) : List McTarget :=
  let k := p.core (siteOf h.sc h.sr)
  let lw := p.fuses.lwidth
  ((mcastSet lw h.cmask h.rmask).filter (k.mcastReal lw)).map fun x =>
    let e := k.rmap (x.2 * lw + x.1)
    { c := e.c, r := e.r, tc := Header.tc { dc := e.c, turn := e.turn } }

/-- The outputs of a multicast packet that came in at an input: ports 0–5, and 8 for the core; each with the targets behind
it. -/
def Panel.mcOutputs (p : Panel) (n input : Nat) (h : Header) : List (Nat × List McTarget) :=
  let c := siteC n
  let r := siteR n
  let ts := p.mcTargets h
  let here := ts.filter fun t => t.tc == (c : Int)
  let row := r == h.sr
  let fromEast := input == 1 || input == 4
  let fromWest := input == 3 || input == 5
  let start := input == 8 || input == 6 || input == 7
  let east := if row && (start || fromWest) then ts.filter fun t => decide (t.tc > (c : Int)) else []
  let west := if row && (start || fromEast) then ts.filter fun t => decide (t.tc < (c : Int)) else []
  let descent := !row && (input == 4 || input == 5)
  let north := if !descent && (row || input == 2) then here.filter fun t => decide (t.r < r) else []
  let south := if !descent && (row || input == 0) then here.filter fun t => decide (t.r > r) else []
  let core := (if descent then ts else here).filter fun t => t.c == c && t.r == r
  let de := if descent then [] else here.filter fun t => t.r == r && decide (t.c > c)
  let dw := if descent then [] else here.filter fun t => t.r == r && decide (t.c < c)
  let near (q far : Nat) : Nat := match p.hopOr n q with
    | .hop _ _ => q
    | _ => far
  ([(near 1 4, east), (near 3 5, west), (0, north), (2, south), (8, core)] ++ [(4, de), (5, dw)]).filter fun x =>
    !x.2.isEmpty

/-- A copy discarded: one COMPLETION with SITE_RETIRED for each target behind it (R201). -/
def Panel.mcDiscard (p : Panel) (n : Nat) (x : Packet) (ts : List McTarget) : Panel :=
  ts.foldl (fun p _ => p.complete (.core n) x.hdr St.siteRetired) (p.modCore n fun k => k.bump Reg.MESH_DROP_CNT)

/-- One output served: a copy sent, or discarded at a dead link; none while it waits for credit. -/
def Panel.mcSend (p : Panel) (n : Nat) (x : Packet) (port : Nat) (ts : List McTarget) : Option Panel :=
  let copy : Packet := { x with sent := [] }
  if port = 8 then p.toCore n copy
  else match p.hopOr n port with
    | .hop q m => p.moveTo n q m copy
    | _ => some (p.mcDiscard n x ts)

/-- The outputs served in turn: those already served, and the panel. -/
def Panel.mcServe (n : Nat) (x : Packet) : List (Nat × List McTarget) → List Nat → Panel → List Nat × Panel
  | [], done, p => (done, p)
  | (i, ts) :: rest, done, p =>
    if i ∈ done then Panel.mcServe n x rest done p
    else match p.mcSend n x i ts with
      | none => Panel.mcServe n x rest done p
      | some p => Panel.mcServe n x rest (done ++ [i]) p

/-- A multicast packet at the head of a buffer: copies go to every output that has credit, and the buffer is released when
every copy has been sent. -/
def Panel.mcHop (p : Panel) (n input : Nat) (x : Packet) : Panel :=
  let outs := p.mcOutputs n input x.hdr
  let y := Panel.mcServe n x outs x.sent p
  let k := y.2.core n
  if outs.all fun o => decide (o.1 ∈ y.1) then y.2.setCore n (k.popIn input 3)
  else
    let rest := (k.rt.inbuf input 3).tail
    y.2.setCore n { k with rt := { k.rt with inq := put k.rt.inq (qKey input 3) ({ x with sent := y.1 } :: rest) } }

/-! ### PACKET_HOP (R182, R194) -/

/-- The counts of a REDUCE that passes (R204). -/
def Core.passCounts (k : Core) (miss mismatch : Bool) : Core :=
  let k := if miss then k.bump Reg.MESH_RED_MISS_CNT else k
  if mismatch then k.bump Reg.MESH_RED_MISMATCH_CNT else k

/-- The packet at the head of an input buffer: a bad header is discarded with its payload and recorded; else it takes its next
step when that has credit. -/
def Panel.hop (p : Panel) (n input v : Nat) : Panel :=
  let k := p.core n
  match k.rt.inbuf input v with
  | [] => p
  | x :: _ =>
    if x.hdr.bad then
      p.setCore n (((k.popIn input v).bump Reg.MESH_HDR_ERR_CNT).logErr p.dial n
        { cls := 0x06, level := 1, unit := input % 8 })
    else if x.hdr.opcode = Opc.mcast then p.mcHop n input x
    else
      let turn := if x.hdr.opcode = Opc.reduce then p.redTurn n x.hdr else .plain false false
      match turn with
      | .plain miss mismatch => match p.forward n x with
        | none => p
        | some p => p.modCore n fun k => (k.popIn input v).passCounts miss mismatch
      | _ => p

/-! ### Link faults and lane repair (R191, R196) -/

/-- Packets of a buffer that can no longer move are discarded. -/
def Panel.purgeBuf (n i v : Nat) : List Packet → Panel → List Packet × Panel
  | [], p => ([], p)
  | x :: xs, p =>
    if x.hdr.opcode ≠ Opc.mcast ∧ ¬ x.hdr.bad ∧ p.nextHop n x.hdr = .dead then Panel.purgeBuf n i v xs (p.discard n x)
    else
      let y := Panel.purgeBuf n i v xs p
      (x :: y.1, y.2)

/-- Every input buffer of a router purged; answers that the discards send go to local injection, which is purged first. -/
def Panel.purge (p : Panel) (n : Nat) : Panel :=
  ([8, 0, 1, 2, 3, 4, 5, 6, 7].flatMap fun i => [0, 1, 2, 3].map fun v => (i, v)).foldl (fun p x =>
    let l := (p.core n).rt.inbuf x.1 x.2
    let y := Panel.purgeBuf n x.1 x.2 l (p.modCore n fun k => { k with rt := { k.rt with inq := put k.rt.inq (qKey x.1 x.2) [] } })
    y.2.modCore n fun k => { k with rt := { k.rt with inq := put k.rt.inq (qKey x.1 x.2) (y.1 ++ k.rt.inbuf x.1 x.2) } }) p

/-- One end of a link down. -/
def Core.linkEnd (k : Core) (port : Nat) : Core := k.setLink port { state := 3 }

/-- A link down at both ends, with its discards and records. -/
def Panel.linkDown (p : Panel) (n port : Nat) : Panel :=
  let down (p : Panel) (n port : Nat) : Panel :=
    ((p.modCore n fun k => k.linkEnd port).logCore n { cls := 0x08, level := 3, unit := port }).purge n
  let p := down p n port
  match portSite n port with
  | none => p
  | some m => if port < 6 ∧ p.powered m then down p m (farPort port) else p

/-- LINK_DOWN. -/
def execLinkDown (n : Site) (port : Fin 8) (s : State) : Outcome State Fault Refusal :=
  s.atSite n fun k p => if k.linkUp port then p.linkDown n port else p

/-- LANE_REPAIR: the link's traffic is held while lanes are remapped. -/
def execLaneRepair (n : Site) (port : Fin 8) (module : Fin 4) (lane : Nat) (s : State) : Outcome State Fault Refusal :=
  s.onSite n fun k =>
    let l := k.link port
    if k.carries port ∧ module.val < l.modules then k.setLink port { l with held := some (module, lane) } else k

/-- LANE_REPAIR_DONE: the link resumes, or the module is disabled, and the last one takes the link down. -/
def execLaneRepairDone (n : Site) (port : Fin 8) (module : Fin 4) (repaired : Bool) (s : State) :
    Outcome State Fault Refusal :=
  s.atSite n fun k p =>
    let l := k.link port
    match l.held with
    | none => p
    | some (m, lane) =>
      if m ≠ module.val then p
      else
        let k := k.logErr p.dial n { cls := 0x07, level := 0, unit := 4 * port + m, addr := lane }
        if repaired then p.setCore n ((k.setLink port { l with held := none }).bump Reg.MESH_LANE_REPAIR_CNT)
        else if l.modules ≤ 1 then (p.setCore n (k.setLink port { l with held := none })).linkDown n port
        else p.setCore n (k.setLink port { l with held := none, modules := l.modules - 1, state := 2 })

/-! ### Injection regulator (R207, R212) -/

/-- A write of MESH_INJ_CFG[v]. -/
def Core.injWrite (k : Core) (v : Nat) (value : W64) : Core :=
  let x := value.toNat % 2 ^ 32
  let bad (r : Nat) : Bool := r == 0 || decide (r > 16)
  if v = 1 then k
  else if bad (bits x 31 27) ∨ bad (bits x 26 22) ∨ bad (bits x 21 17) then k.bump Reg.MESH_CFG_IGN_CNT
  else k.wr (Reg.MESH_INJ_CFG + 4 * v) (x &&& 0xFFFE3FFF)

/-- THROTTLE_LEVEL_END: occupancy has stayed below a threshold; the levels that no longer hold end. -/
def execThrottleLevelEnd (n : Site) (v : Fin 4) (s : State) : Outcome State Fault Refusal :=
  s.onCore n fun k =>
    let cfg := k.rd (Reg.MESH_INJ_CFG + 4 * v)
    let o := k.rt.occupancy v
    let l := look 0 k.rt.level v
    let keep1 := l.testBit 0 ∧ 4 * bits cfg 6 0 ≤ o ∧ bits cfg 6 0 ≠ 0
    let keep2 := l.testBit 1 ∧ 4 * bits cfg 13 7 ≤ o ∧ bits cfg 13 7 ≠ 0
    { k with rt := { k.rt with level := put k.rt.level v ((if keep1 then 1 else 0) + (if keep2 then 2 else 0)) } }

/-! ### Route maps (R192, R195) -/

/-- Every site of a column is powered from one row to another. -/
def Panel.columnClear (p : Panel) (c r0 r1 : Nat) : Bool :=
  (List.range 16).all fun r => !(decide (min r0 r1 ≤ r) && decide (r ≤ max r0 r1)) || p.powered (siteOf c r)

/-- The X leg along a row meets two unpowered sites side by side. -/
def Panel.rowBlocked (p : Panel) (r c0 c1 : Nat) : Bool :=
  (List.range 20).any fun c =>
    decide (min c0 c1 ≤ c) && decide (c + 1 ≤ max c0 c1) && !p.powered (siteOf c r) && !p.powered (siteOf (c + 1) r)

/-- The map entry of a router at (rc, rr) for a destination site. -/
def Panel.mapEntry (p : Panel) (rc rr dest : Nat) : Nat :=
  let dc := siteC dest
  let dr := siteR dest
  let place (st turn : Nat) : Nat := st * 2 ^ 30 + dc * 2 ^ 25 + dr * 2 ^ 21 + turn * 2 ^ 19
  let pick (turn tc : Nat) : Nat := if p.rowBlocked rr rc tc then place 3 0 else place 1 turn
  if ¬ p.powered dest then 2 * 2 ^ 30
  else if p.columnClear dc rr dr then pick 0 dc
  else if 2 ≤ dc ∧ p.powered (siteOf (dc - 1) dr) ∧ p.columnClear (dc - 2) rr dr then pick 1 (dc - 2)
  else if dc + 2 ≤ 20 ∧ p.powered (siteOf (dc + 1) dr) ∧ p.columnClear (dc + 2) rr dr then pick 2 (dc + 2)
  else place 3 0

/-- Entry i of the map of a router at a site. -/
def Panel.mapValue (p : Panel) (n i : Nat) : Nat :=
  let lw := p.fuses.lwidth
  if i < 320 then
    if i < 16 * lw then
      match p.lsite (i % lw) (i / lw) with
      | none => 2 * 2 ^ 30
      | some m => p.mapEntry (siteC n) (siteR n) m
    else 0
  else
    let (m, edge) := attPlace (i - 320)
    let there := match attDie m edge with
      | none => false
      | some (.hub h _) => p.fuses.hubPresent h
      | some (.port d q) => decide (2 * d + q ∈ p.fuses.ports)
      | some (.crown _ _) => true
    if there then p.mapEntry (siteC n) (siteR n) m else 2 * 2 ^ 30

/-- The map of one router written (R195). -/
def Panel.writeMap (p : Panel) (n : Nat) : Panel :=
  p.modCore n fun k =>
    let k := (List.range 390).foldl (fun k i => k.wr (Reg.MESH_RMAP + 4 * i) (p.mapValue n i)) k
    { k with rt := { k.rt with mapped := true } }

/-- The maps of every powered router. -/
def Panel.writeMaps (p : Panel) : Panel :=
  ((List.range 336).filter p.powered).foldl Panel.writeMap p

end Sys2Proof.Machine
end

