-- ==== Sys2Proof/Machine/HubOps.lean ====
section
/-! DEFINITION. A hub and its stack: stored codewords, reads and writes, bands and seals, sections, scrubbing,
temperature (R287–R299, R238, R239). -/

namespace Sys2Proof.Machine

open Host (Outcome)

/-! ### Requests -/

/-- A crown packet: its source is an edge port of a site attached to a crown (R296). -/
def Header.fromCrown (h : Header) : Bool :=
  match attDie (siteOf h.sc h.sr) h.sedge with
  | some (.crown _ _) => h.sedge == 1
  | _ => false

/-- The packet comes from a core (R87). -/
def Header.fromCore (h : Header) : Bool := h.sedge == 0

/-! ### Stored codewords (R287, R290) -/

/-- The pseudo-channel of a stack offset. -/
def pseudoChannel (off : Nat) : Nat := bits off 13 8 ^^^ bits off 19 14

/-- The check bytes of a poisoned codeword as a stack holds them. -/
def flipped (chk : List Byte) : List Byte := chk.map (· ^^^ 0xFF#8)

/-- A codeword as a read delivers it: bad ones carry the poison bit. -/
def Hub.peek (k : Hub) (n : Nat) : CwRead × Codeword :=
  let r := (k.mem.cw n).read
  match r.1 with
  | .bad => (.bad, { r.2 with poison := true })
  | _ => r

/-- A codeword stored, poisoned by its check bytes. -/
def Hub.store (k : Hub) (n : Nat) (data : List Byte) (poison : Bool) : Hub :=
  let chk := rsCheck data
  { k with mem := k.mem.setCw n { data := data, chk := if poison then flipped chk else chk, poison := false } }

/-! ### Notes of reads (R292, R309) -/

/-- HUB_ERR_ADDR takes the first uncorrectable codeword. -/
def Hub.firstBad (k : Hub) (src off : Nat) : Hub :=
  if (k.rd Reg.HUB_ERR_ADDR).testBit 63 then k else k.wr Reg.HUB_ERR_ADDR (2 ^ 63 + src * 2 ^ 59 + off)

/-- A record of a hub about a partition. -/
def Hub.logErr (k : Hub) (dial h : Nat) (i : LogItem) : Hub :=
  let x := k.log.add dial (.hub h) i
  if x.2 = 0 then { k with log := x.1 } else k.bump Reg.ERR_LOST_CNT_hub

/-- A granule queued for write-back, or counted when the queue of 32 is full. -/
def Hub.queueWb (k : Hub) (g : Nat) : Hub :=
  if g ∈ k.wbq then k
  else if k.wbq.length < 32 then { k with wbq := k.wbq ++ [g] }
  else k.bump Reg.HUB_WB_DROP_CNT

/-- Where a hub access is made. -/
structure HubAt where
  dial : Nat
  hub : Nat
  src : Nat                        -- HUB_ERR_ADDR.src
  part : Nat := 0                  -- byte 24 of a record
  deriving DecidableEq, Repr

/-- A corrected codeword: counted and recorded. -/
def Hub.noteCorr (k : Hub) (w : HubAt) (n : Nat) : Hub :=
  (k.bump Reg.HUB_CORR_CNT).logErr w.dial w.hub
    { cls := 0x01, level := 0, unit := w.src, status := St.corrected, addr := 32 * n, part := w.part }

/-- A bad codeword: the first is kept, each is recorded. -/
def Hub.noteBad (k : Hub) (w : HubAt) (n : Nat) : Hub :=
  let k := (k.firstBad w.src (32 * n)).logErr w.dial w.hub
    { cls := 0x02, level := 1, unit := w.src, status := St.uncorrectable, addr := 32 * n, part := w.part }
  { k with badTimes := (k.badTimes.filter fun x => decide (w.dial < x.1 + ms)) ++ [(w.dial, pseudoChannel (32 * n))] }

/-- What a hub notes of one codeword read. -/
def Hub.noteRead (k : Hub) (w : HubAt) (n : Nat) (r : CwRead) : Hub :=
  match r with
  | .clean => k
  | .corrected => (k.noteCorr w n).queueWb (n / 8)
  | .bad => (k.noteBad w n).bump Reg.HUB_UNCORR_CNT

/-- `m` codewords read from number `n` on. -/
def Hub.readCws (w : HubAt) : Nat → Nat → Hub → List (CwRead × Codeword) × Hub
  | _, 0, k => ([], k)
  | n, m + 1, k =>
    let r := k.peek n
    let x := Hub.readCws w (n + 1) m ((k.noteRead w n r.1).wrap Reg.HUB_RD_BYTES 32)
    (r :: x.1, x.2)

/-! ### Writes (R291, R299) -/

/-- A write reached a granule: its queued write-back is cancelled. -/
def Hub.touched (k : Hub) (n : Nat) : Hub :=
  ({ k with wbq := k.wbq.filter (· != n / 8) } : Hub).wrap Reg.HUB_WR_BYTES 32

/-- Bytes written into one codeword. -/
def Hub.writeCw (k : Hub) (w : HubAt) (n : Nat) (l : List MByte) : Nat × Hub :=
  let poison := l.any MByte.bad
  if l.all (·.isNone) then (St.done, k)
  else if l.all (·.isSome) ∧ l.length = 32 then (St.done, (k.store n (l.map MByte.byte) poison).touched n)
  else
    let r := k.peek n
    let k := k.wrap Reg.HUB_RD_BYTES 32
    let data := mergeBytes r.2.data l
    match r.1 with
    | .clean => (St.done, (k.store n data poison).touched n)
    | .corrected => (St.corrected, ((k.noteCorr w n).store n data poison).touched n)
    | .bad => (St.done, (((k.noteBad w n).store n data true).bump Reg.HUB_POISON_WR_CNT).touched n)

/-- Consecutive codewords written. -/
def Hub.writeCws (w : HubAt) : Nat → Nat → List MByte → Hub → Nat × Hub
  | 0, _, _, k => (St.done, k)
  | m + 1, n, l, k =>
    let x := k.writeCw w n (l.take 32)
    let y := Hub.writeCws w m (n + 1) (l.drop 32) x.2
    (St.merge x.1 y.1, y.2)

/-- Bytes written from a stack offset on. -/
def Hub.writeBytes (k : Hub) (w : HubAt) (off : Nat) (l : List MByte) : Nat × Hub :=
  let lead : List MByte := List.replicate (off % 32) none
  let all := lead ++ l
  let m := cdiv all.length 32
  Hub.writeCws w m (off / 32) (all ++ List.replicate (32 * m - all.length) none) k

/-- Raw data bytes of a stack. -/
def Hub.rawBytes (k : Hub) (off n : Nat) : List Byte := cellsAt k.mem.cells off n

/-! ### Bands and seals (R295–R297) -/

/-- The owner byte of the band of an offset. -/
def Hub.band (k : Hub) (off : Nat) : Nat :=
  let b := off / 0x4000000
  let v := k.rd (Reg.HUB_BAND + 4 * (b / 4))
  if b ∈ k.shut then 0 else bits v (8 * (b % 4) + 7) (8 * (b % 4))

/-- Orders 1 and 2 of R296 for one band. -/
def bandOk (owner part : Nat) (crown : Bool) : Bool :=
  if bits owner 7 6 = 1 then bits owner 4 0 == part else if bits owner 7 6 = 2 then crown else false

/-- Orders 1 and 2 of R296 for every band of a range. -/
def Hub.bandsOk (k : Hub) (off len part : Nat) (crown : Bool) : Bool :=
  (List.range ((off + len - 1) / 0x4000000 - off / 0x4000000 + 1)).all fun i =>
    bandOk (k.band ((off / 0x4000000 + i) * 0x4000000)) part crown

/-- A range touches a sealed page. -/
def Hub.sealed (k : Hub) (off len : Nat) : Bool :=
  k.seals.any fun x => decide (off / 4096 ≤ x.2.1) && decide (x.1 ≤ (off + len - 1) / 4096)

/-- The check of R296: the counter of the first failure. -/
def Hub.refusal (k : Hub) (off len part : Nat) (crown writes : Bool) : Option Nat :=
  if ¬ k.bandsOk off len part crown then some Reg.HUB_PART_REFUSE_CNT
  else if writes ∧ k.sealed off len then some Reg.HUB_SEAL_REFUSE_CNT
  else none

/-! ### Sections (R238, R239) -/

/-- A section has been begun and not yet wholly written. -/
def Section.isOpen (x : Section) : Bool := decide (0 < x.done) && decide (x.done < x.length) && !x.broken

/-- Sections open at a hub. -/
def Hub.openSections (k : Hub) : Nat := (k.sections.filter Section.isOpen).length

/-- A write meets a section. -/
def Section.meets (x : Section) (off len : Nat) : Bool := decide (off < x.start + x.length) && decide (x.start < off + len)

/-- A write that would open a seventeenth section. -/
def Hub.overOpen (k : Hub) (off len : Nat) : Bool :=
  k.sections.any fun x => x.meets off len && x.done == 0 && !x.broken && decide (16 ≤ k.openSections)

/-- The sections that such a write breaks. -/
def Hub.breakUnopened (k : Hub) (off len : Nat) : Hub :=
  { k with sections := k.sections.map fun x => if x.meets off len ∧ x.done = 0 then { x with broken := true } else x }

/-- A performed write as the sections see it: in order, once, by one writer; the digest stands when the last byte is
written. -/
def Hub.sectionWrite (k : Hub) (off len : Nat) (writer : Nat × Nat × Nat) : Hub :=
  { k with sections := k.sections.map fun x =>
      if ¬ x.meets off len then x
      else
        let lo := max off x.start
        let hi := min (off + len) (x.start + x.length)
        if x.broken ∨ lo ≠ x.start + x.done ∨ (x.writer ≠ none ∧ x.writer ≠ some writer) then { x with broken := true }
        else
          let done := hi - x.start
          { x with done := done, writer := some writer
                   digest := if done = x.length then some (sm3 (k.rawBytes x.start x.length)) else none } }

/-! ### Scrubbing (R292, R299) -/

/-- Codewords of a granule rewritten corrected. -/
def Hub.rewrite : Nat → Nat → Hub → Hub
  | _, 0, k => k
  | n, m + 1, k =>
    let r := k.peek n
    Hub.rewrite (n + 1) m (if r.1 = .corrected then k.store n r.2.data false else k)

/-- HUB_WRITE_BACK: the oldest queued granule is rewritten. -/
def execHubWriteBack (h : HubIx) (s : State) : Outcome State Fault Refusal :=
  s.onPanel fun p =>
    let k := p.hub h
    match k.wbq with
    | [] => p
    | g :: rest => if k.lost ∨ k.stack ≠ 2 then p else p.setHub h (Hub.rewrite (8 * g) 8 { k with wbq := rest })

/-- Granules of a stack. -/
def granules : Nat := stackTop / 256

/-- The patrol reads its next granule. -/
def Hub.patrolStep (k : Hub) (dial h : Nat) : Hub :=
  let cfg := k.rd Reg.HUB_SCRUB_CFG
  if k.lost ∨ k.stack ≠ 2 ∨ ¬ cfg.testBit 31 ∨ cfg % 65536 = 0 then k
  else
    let x := Hub.readCws { dial := dial, hub := h, src := 3 } (8 * k.patrol) 8 k
    if k.patrol + 1 < granules then { x.2 with patrol := k.patrol + 1 }
    else { x.2 with patrol := 0, passes := satAdd 255 k.passes 1 }

/-- HUB_PATROL. -/
def execHubPatrol (h : HubIx) (s : State) : Outcome State Fault Refusal :=
  s.onPanel fun p => p.modHub h fun k => k.patrolStep p.dial h

/-! ### Temperature and refresh (R298) -/

/-- The thresholds of levels 1 to 3. -/
def hubThresholds : List (Nat × Nat) := [(1, 85), (2, 95), (3, 100)]

/-- Levels in force after a reading: a level begins at its threshold and ends when the reading has stayed 3 °C below it for
10 ms. -/
def levelStep (thr : List (Nat × Nat)) (hold margin dial temp : Nat) (l : Sparse Nat) : Sparse Nat :=
  thr.foldl (fun l x =>
    match find l x.1 with
    | none => if x.2 ≤ temp then put l x.1 dial else l
    | some t => if x.2 < temp + margin then put l x.1 dial else if t + hold ≤ dial then drop l x.1 else l) l

/-- The highest level in force. -/
def topLevel (l : Sparse Nat) : Nat := l.foldl (fun m x => max m x.1) 0

/-- HUB_STATUS.tlvl. -/
def Hub.tlvl (k : Hub) : Nat := topLevel k.levels

/-- One reading of the stack's temperature: the hotter of the last two acts; throttled microseconds are counted. -/
def Hub.tempRead (k : Hub) (dial celsius : Nat) : Hub :=
  let t := min celsius 255
  let last := k.temps.headD t
  let k := if 2 ≤ k.tlvl then k.bump Reg.HUB_THR_CNT ((dial - k.tempAt) / us) else k
  let old := k.rd Reg.HUB_TEMP
  ({ k with
      temps := [t, last], tempAt := dial
      levels := levelStep hubThresholds (10 * ms) 3 dial (max t last) k.levels } : Hub).wr Reg.HUB_TEMP
    (max (bits old 15 8) t * 256 + t)

/-- HUB_TEMP_READ: every 1 ms. -/
def execHubTempRead (h : HubIx) (celsius : Nat) (s : State) : Outcome State Fault Refusal :=
  s.onPanel fun p => p.modHub h fun k => if k.lost then k else k.tempRead p.dial celsius

/-- HBM_REFRESH: a per-bank refresh only delays accesses (R298); it changes no state that the manual gives. -/
def execHbmRefresh (_h : HubIx) (_pc : Fin 64) (s : State) : Outcome State Fault Refusal := s.onPanel id

/-! ### Heartbeats and registers (R307, R309) -/

/-- HUB_HEARTBEAT: every 100 µs. -/
def execHubHeartbeat (h : HubIx) (s : State) : Outcome State Fault Refusal :=
  s.onPanel fun p =>
    let k := p.hub h
    if ¬ k.lost ∧ p.since k.hbSent (100 * us) then p.setHub h { k with hbSent := p.dial, hbHeard := p.dial } else p

/-- A write of HUB_ERR_CLR. -/
def Hub.errClr (k : Hub) (value : W64) : Hub := if value.getLsbD 0 then k.wr Reg.HUB_ERR_ADDR 0 else k

/-- A write of HUB_BAND[q]: ignored as a whole when a band would be of kind 3 or have bit 5 set. -/
def Hub.bandWrite (k : Hub) (q : Nat) (value : W64) : Hub :=
  let v := value.toNat % 2 ^ 32
  if (List.range 4).any fun i => bits v (8 * i + 7) (8 * i + 6) == 3 || v.testBit (8 * i + 5) then
    k.bump Reg.HUB_PART_REFUSE_CNT
  else k.wr (Reg.HUB_BAND + 4 * q) v

end Sys2Proof.Machine
end

