-- ==== Sys2Proof/Machine/HubCommands.lean ====
section
/-! DEFINITION. Hub commands and the hub ring (R300–R306). -/

namespace Sys2Proof.Machine

open Host (Outcome)

/-! ### Requests of a hub -/

/-- The attachment that a hub's packet leaves through: GA[11] for class 0x2, else 0; the other when that site is unpowered
(R39, R41). -/
def Panel.hubSide (p : Panel) (h ga : Nat) : Nat :=
  let a := if bits ga 55 52 = 2 then bits ga 11 11 else 0
  if p.powered (attSite (hubAtt h a)) then a else 1 - a

/-- The smallest sequence number that no request of the hub uses. -/
def Hub.freshSeq (k : Hub) : Nat := ((List.range 4096).find? fun n => !k.reqs.any (·.seq = n)).getD 0

/-- A request of a hub command: sent and tracked, or its status; none while the router cannot take it. -/
def Panel.hubSend (p : Panel) (h slot use part : Nat) (hd : Header) (units : List Codeword) : Option (Option Nat × Panel) :=
  let seq := (p.hub h).freshSeq
  match p.inject (.hub h (p.hubSide h hd.ga)) { hd with seq := seq, part := part } units with
  | (.stall, _) => none
  | (.refused st, p) => some (some st, p)
  | (.sent _, p) => some (none, p.modHub h fun k => { k with reqs := k.reqs ++ [{ seq := seq, slot := slot, use := use }] })

def Hub.setCmd (k : Hub) (slot : Nat) (c : HubCmd) : Hub := { k with run := put k.run slot c }
def Hub.modCmd (k : Hub) (slot : Nat) (f : HubCmd → HubCmd) : Hub :=
  match find k.run slot with
  | none => k
  | some c => k.setCmd slot (f c)
def Hub.freeCmd (k : Hub) (slot : Nat) : Hub := ({ k with run := drop k.run slot } : Hub).bump Reg.HUB_CMD_CNT

/-! ### Commands (R301) -/

def HubCmd.w (c : HubCmd) (i : Nat) : Nat := (c.words.getD i 0).toNat
def HubCmd.op (c : HubCmd) : Nat := bits (c.w 0) 63 60
def HubCmd.notify (c : HubCmd) : Bool := (c.w 0).testBit 59
def HubCmd.src (c : HubCmd) : Nat := bits (c.w 1) 55 0
def HubCmd.dst (c : HubCmd) : Nat := bits (c.w 2) 55 0
def HubCmd.length (c : HubCmd) : Nat := bits (c.w 3) 35 0
def HubCmd.ngsa (c : HubCmd) : Nat := bits (c.w 4) 55 0

namespace Hc
def copy : Nat := 1
def zero : Nat := 2
def digest : Nat := 3
def scrub : Nat := 4
end Hc

/-- A command met a status: the first failing one stands, then DONE_CORRECTED. -/
def HubCmd.note (c : HubCmd) (st : Nat) : HubCmd :=
  if ¬ St.ok c.status then c
  else if ¬ St.ok st then { c with status := st }
  else { c with status := max c.status st }

def HubCmd.finish (c : HubCmd) (st : Nat) : HubCmd := { c.note st with started := true, ended := true }

/-- A refused command: it performs nothing (R302). -/
def Hub.refuseCmd (k : Hub) (slot st : Nat) : Hub := (k.modCmd slot fun c => c.finish st).bump Reg.HUB_CMD_ERR_CNT

/-- The words of a command have been read; one with a reserved op is refused at once. -/
def Hub.gotWords (k : Hub) (slot : Nat) (bs : List Byte) : Hub :=
  let ws := (List.range 8).map fun i => BitVec.ofNat 64 (leAt bs (8 * i) 8)
  let k := k.modCmd slot fun c => { c with words := ws, sent := true }
  let op := ((ws.getD 0 0).toNat) >>> 60
  if op = 0 ∨ 4 < op then k.refuseCmd slot St.notPermitted else k

/-- The read of a command over the mesh. -/
def Panel.sendCmdRead (p : Panel) (h slot : Nat) (c : HubCmd) (failed : Panel → Panel) : Panel :=
  match p.hubSend h slot 0 c.part { opcode := Opc.readReq, ga := c.ptr, bytes := 64, len := 1 } [Codeword.zero] with
  | none => p
  | some (some _, p) => failed p
  | some (none, p) => p.modHub h fun k => k.modCmd slot fun c => { c with sent := true }

/-- The read of a command: in the hub's own stack at once, else over the mesh. A pointer that names no command is dropped and
counted (notes/assumptions/16.md). -/
def Panel.readCmd (p : Panel) (h slot : Nat) (c : HubCmd) : Panel :=
  let cls := bits c.ptr 55 52
  let failed (p : Panel) : Panel := p.modHub h fun k => (k.freeCmd slot).bump Reg.HUB_CMD_ERR_CNT
  if c.ptr % 64 ≠ 0 ∨ (cls ≠ 0 ∧ cls ≠ 2) then failed p
  else match p.decodeGA c.ptr with
    | .error _ => failed (p.modHub h fun k => k.bump Reg.HUB_ADDR_ERR_CNT)
    | .ok (.hbm h' off) =>
      if h' = h then
        let k := p.hub h
        match k.refusal off 64 c.part c.crown false with
        | some cnt => failed (p.modHub h fun k => k.bump cnt)
        | none =>
          let x := Hub.readCws { dial := p.dial, hub := h, src := 2, part := 0x80 + c.part } (off / 32) 2 k
          if x.1.any (·.1 = .bad) then failed (p.setHub h x.2)
          else p.setHub h (x.2.gotWords slot (x.1.flatMap (·.2.data)))
      else p.sendCmdRead h slot c failed
    | .ok _ => p.sendCmdRead h slot c failed

/-- The first free place. -/
def Hub.freeSlot (k : Hub) : Option Nat := (List.range 4).find? fun i => (find k.run i).isNone

/-- Pointers taken while a place is free, and their commands read (R300). -/
def Panel.hubTake (h : Nat) : Nat → Panel → Panel
  | 0, p => p
  | n + 1, p =>
    let k := p.hub h
    match k.freeSlot, k.cmdq with
    | some slot, (ptr, part, crown) :: rest =>
      let c : HubCmd := { order := k.orders, ptr := ptr, part := part, crown := crown }
      let p := p.setHub h ({ k with cmdq := rest, orders := k.orders + 1 }.setCmd slot c)
      Panel.hubTake h n (p.readCmd h slot c)
    | _, _ => p

/-- Reads that the router could not take before are tried again. -/
def Panel.hubRetry (p : Panel) (h : Nat) : Panel :=
  ((p.hub h).run.filter fun x => !x.2.sent && x.2.words.isEmpty).foldl (fun p x => p.readCmd h x.1 x.2) p

/-- A pointer write accepted or refused (R300): the status of its answer. -/
def Panel.cmdPtr (p : Panel) (h ptr part : Nat) (crown : Bool) : Nat × Panel :=
  let k := p.hub h
  if 64 ≤ k.cmdq.length then (St.timedOut, p.modHub h fun k => k.bump Reg.HUB_CMD_REFUSE_CNT)
  else (St.done, Panel.hubTake h 64 (p.setHub h { k with cmdq := k.cmdq ++ [(ptr % 2 ^ 56, part, crown)] }))

/-! ### Checks (R302) -/

/-- A range of a command: its hub and offset; or a status, with whether the address itself failed decoding. -/
def Panel.cmdRange (p : Panel) (ga len : Nat) : Except (Nat × Bool) (Nat × Nat) :=
  if bits ga 55 52 ≠ 2 ∨ 2 ^ 56 ≤ ga + len then .error (St.notPermitted, false)
  else match p.decodeGA ga, p.decodeGA (ga + len - 1) with
    | .ok (.hbm a o), .ok (.hbm b _) =>
      if a ≠ b ∨ (¬ ga.testBit 41 ∧ ga / 4096 ≠ (ga + len - 1) / 4096) then .error (St.notPermitted, false) else .ok (a, o)
    | .error st, _ => .error (st, true)
    | _, .error st => .error (st, true)
    | _, _ => .error (St.notPermitted, false)

/-- Bits that R301 does not name. -/
def HubCmd.unnamed (c : HubCmd) : Bool :=
  bits (c.w 0) 58 0 != 0 || bits (c.w 1) 63 56 != 0 || bits (c.w 2) 63 56 != 0 || bits (c.w 3) 63 36 != 0 ||
    bits (c.w 4) 63 56 != 0 || c.w 5 != 0 || c.w 6 != 0

/-- The notification address is one of the two that R301 names. -/
def HubCmd.notifyOk (c : HubCmd) : Bool :=
  !c.notify ||
    (let a := c.ngsa
     let off := bits a 19 0
     (bits a 55 52 == 1 && bits a 42 20 == 0 && decide (Reg.SEQ_SEM ≤ off) && decide (off < Reg.SEQ_SEM + 1024) && off % 4 == 0) ||
       (bits a 55 52 == 5 && bits a 51 44 == 0 && bits a 42 0 == 0))

/-- The length and the alignment of the ranges. -/
def HubCmd.shapeOk (c : HubCmd) : Bool :=
  !c.unnamed && c.notifyOk && c.length % 32 == 0 && decide (32 ≤ c.length) && decide (c.length ≤ stackTop) &&
    c.src % 32 == 0 && c.dst % 32 == 0 &&
    (if c.op = Hc.zero then c.src == 0 else true) && (if c.op = Hc.scrub then c.dst == 0 else true)

/-- What a command works on: hub and offset of its source and of its destination. -/
structure Ranges where
  src : Option (Nat × Nat) := none
  dst : Option (Nat × Nat) := none
  deriving DecidableEq, Repr

/-- A refusal: its status and the counters it advances at this hub. -/
abbrev CmdRefusal := Nat × List Nat

def rangeErr (x : Nat × Bool) : CmdRefusal := (x.1, if x.2 then [Reg.HUB_ADDR_ERR_CNT] else [])

/-- A range with its band check, and its seal check when it is written (R296). -/
def Panel.checkedRange (p : Panel) (ga len part : Nat) (crown writes : Bool) : Except CmdRefusal (Nat × Nat) :=
  match p.cmdRange ga len with
  | .error e => .error (rangeErr e)
  | .ok (a, o) => match (p.hub a).refusal o len part crown writes with
    | some cnt => .error (St.notPermitted, [cnt])
    | none => .ok (a, o)

/-- The ranges of a command that may run at this hub. -/
def Panel.cmdCheck (p : Panel) (h : Nat) (c : HubCmd) : Except CmdRefusal Ranges :=
  let bad : CmdRefusal := (St.notPermitted, [])
  if ¬ c.shapeOk then .error bad
  else
    let src : Except CmdRefusal (Option (Nat × Nat)) :=
      if c.op = Hc.zero then .ok none
      else (p.checkedRange c.src c.length c.part c.crown false).map some
    let dst : Except CmdRefusal (Option (Nat × Nat)) :=
      if c.op = Hc.scrub then .ok none
      else if c.op = Hc.digest then
        if bits c.dst 55 52 = 2 then (p.checkedRange c.dst 32 c.part c.crown true).map some
        else if bits c.dst 55 52 = 0 then match p.decodeGA c.dst with
          | .error st => .error (st, [Reg.HUB_ADDR_ERR_CNT])
          | .ok _ => .ok none
        else .error bad
      else (p.checkedRange c.dst c.length c.part c.crown true).map some
    match src, dst with
    | .error e, _ => .error e
    | _, .error e => .error e
    | .ok s, .ok d =>
      let here := if c.op = Hc.zero then d else s
      let apart : Bool := match s, d with
        | some (a, o), some (b, q) => c.op != Hc.copy || a != b || decide (o + c.length ≤ q) || decide (q + c.length ≤ o)
        | _, _ => true
      if here.map (·.1) ≠ some h ∨ ¬ apart then .error bad else .ok { src := s, dst := d }

/-! ### Work -/

/-- A codeword of a command read: corrected, or poisoned when bad. -/
def Hub.cmdRead (k : Hub) (w : HubAt) (n : Nat) : CwRead × Codeword × Hub :=
  let r := k.peek n
  (r.1, r.2, (k.noteRead w n r.1).wrap Reg.HUB_RD_BYTES 32)

/-- What a read tells its command. -/
def HubCmd.sawRead (c : HubCmd) (r : CwRead) : HubCmd :=
  match r with
  | .clean => c
  | .corrected => { c.note St.corrected with corr := satAdd cntTop c.corr 1 }
  | .bad => c.note St.uncorrectable

/-- `m` codewords copied within the stack. -/
def Hub.copyCws (w : HubAt) : Nat → Nat → Nat → HubCmd → Hub → HubCmd × Hub
  | _, _, 0, c, k => (c, k)
  | src, dst, m + 1, c, k =>
    let (r, d, k) := k.cmdRead w src
    Hub.copyCws w (src + 1) (dst + 1) m (c.sawRead r) ((k.store dst d.data (r == .bad)).touched dst)

/-- `m` codewords zeroed. -/
def Hub.zeroCws : Nat → Nat → Hub → Hub
  | _, 0, k => k
  | n, m + 1, k => Hub.zeroCws (n + 1) m ((k.store n (List.replicate 32 0) false).touched n)

/-- `m` codewords read: their bytes up to the first bad one. -/
def Hub.digestCws (w : HubAt) : Nat → Nat → HubCmd → Hub → List Byte × HubCmd × Hub
  | _, 0, c, k => ([], c, k)
  | n, m + 1, c, k =>
    let (r, d, k) := k.cmdRead w n
    let c := c.sawRead r
    if r = .bad then ([], c, k)
    else
      let x := Hub.digestCws w (n + 1) m c k
      (d.data ++ x.1, x.2.1, x.2.2)

/-- Codewords scrubbed: read, noted, and rewritten when corrected. -/
def Hub.scrubCws (w : HubAt) : Nat → Nat → HubCmd → Hub → HubCmd × Hub
  | _, 0, c, k => (c, k)
  | n, m + 1, c, k =>
    let (r, d, k) := k.cmdRead w n
    let k := if r = .corrected then k.store n d.data false else k
    Hub.scrubCws w (n + 1) m (c.sawRead r) k

/-- A hub as the one writer that a section sees. -/
def hubWriter (h : Nat) : Nat × Nat × Nat := (1000 + h, 0, 0)

/-- A clear way from one hub to another, clockwise or not: every hub on it present and not lost. -/
def Panel.ringClear (p : Panel) (clockwise : Bool) : Nat → Nat → Nat → Bool
  | 0, _, _ => false
  | n + 1, a, b =>
    if a = b then true
    else
      let next := if clockwise then (a + 1) % 24 else (a + 23) % 24
      p.fuses.hubPresent next && !(p.hub next).lost && Panel.ringClear p clockwise n next b

/-- The way of a COPY between stacks (R306): 1 clockwise, 2 the other way, 3 over the mesh. -/
def Panel.ringWay (p : Panel) (a b : Nat) : Nat :=
  let d := (b + 24 - a) % 24
  let cw := p.ringClear true 24 a b
  let ccw := p.ringClear false 24 a b
  if d ≤ 24 - d then (if cw then 1 else if ccw then 2 else 3) else (if ccw then 2 else if cw then 1 else 3)

/-- The oldest command that has not started, when its words have been read. -/
def Hub.nextCmd (k : Hub) : Option (Nat × HubCmd) :=
  let l := k.run.filter fun x => !x.2.started
  match l.foldl (fun (b : Option (Nat × HubCmd)) x => match b with
    | none => some x
    | some y => if x.2.order < y.2.order then some x else some y) none with
  | some x => if x.2.words.isEmpty then none else some x
  | none => none

/-- A command of an op started at a hub: refused by its checks, or performed by `f`. -/
def Panel.hubStart (p : Panel) (h op : Nat) (f : Nat → HubCmd → Ranges → Panel → Panel) : Panel :=
  let p := p.hubRetry h
  let k := p.hub h
  if k.lost then p
  else match k.nextCmd with
    | none => p
    | some (slot, c) =>
      if c.op ≠ op then p
      else match p.cmdCheck h c with
        | .error (st, cnts) => p.modHub h fun k => (cnts.foldl (fun k r => k.bump r) k).refuseCmd slot st
        | .ok r => f slot { c with started := true } r p

/-- Where a command's accesses are made. -/
def HubCmd.at (c : HubCmd) (p : Panel) (h : Nat) : HubAt := { dial := p.dial, hub := h, src := 2, part := 0x80 + c.part }

/-- A write of a command into the hub's own stack: a seventeenth section is refused and broken (R239). -/
def Panel.cmdWrite (p : Panel) (h slot off len : Nat) (c : HubCmd) (f : Hub → HubCmd × Hub) : Panel :=
  let k := p.hub h
  if k.overOpen off len then p.setHub h ((k.breakUnopened off len).setCmd slot (c.finish St.notPermitted))
  else
    let x := f k
    p.setHub h ((x.2.sectionWrite off len (hubWriter h)).setCmd slot { x.1 with ended := true })

/-- A COPY started (R302, R306). -/
def Panel.startCopy (h slot : Nat) (c : HubCmd) (r : Ranges) (p : Panel) : Panel :=
  match r.src, r.dst with
  | some (_, o), some (b, q) =>
    let n := c.length / 32
    if b = h then p.cmdWrite h slot q c.length c fun k => Hub.copyCws (c.at p h) (o / 32) (q / 32) n c k
    else
      let way := p.ringWay h b
      p.modHub h fun k =>
        let k := if way = 3 then k.bump Reg.HUB_RING_DETOUR_CNT else k
        k.setCmd slot { c with way := way, total := n }
  | _, _ => p

/-- The oldest running COPY that goes a way and has codewords left. -/
def Hub.mover (k : Hub) (way : Nat) : Option (Nat × HubCmd) :=
  k.run.find? fun x => x.2.started && !x.2.ended && x.2.way == way && decide (x.2.next < x.2.total)

/-- The next packets of a COPY that goes over the mesh, while the router takes them. -/
def Panel.detour (h : Nat) : Nat → Panel → Panel
  | 0, p => p
  | n + 1, p =>
    let k := p.hub h
    match k.mover 3 with
    | none => p
    | some (slot, c) =>
      let dst := c.dst + 32 * c.next
      let m := min (c.total - c.next) (32 - dst % 1024 / 32)
      match p.cmdRange c.src c.length with
      | .error _ => p.setHub h (k.setCmd slot (c.finish St.siteRetired))
      | .ok (_, o) =>
        let rd := (List.range m).foldl (fun (acc : List Codeword × HubCmd × Hub) i =>
          let (r, d, k) := acc.2.2.cmdRead (c.at p h) (o / 32 + c.next + i)
          (acc.1 ++ [Codeword.fresh d.data (r == .bad)], acc.2.1.sawRead r, k)) (([], c, k) : List Codeword × HubCmd × Hub)
        let c := rd.2.1
        let next := c.next + m
        match (p.setHub h rd.2.2).hubSend h slot 1 c.part { opcode := Opc.write, ga := dst, bytes := 32 * m, len := m } rd.1 with
        | none => p
        | some (some st, p) => p.modHub h fun k => k.setCmd slot (c.finish st)
        | some (none, p) =>
          Panel.detour h n (p.modHub h fun k =>
            k.setCmd slot { c with next := next, waits := c.waits + 1, ended := next == c.total })

/-- HUB_COPY: the next COPY in queue order starts; one that goes over the mesh sends its next packets. -/
def execHubCopy (h : HubIx) (s : State) : Outcome State Fault Refusal :=
  s.onPanel fun p => Panel.detour h 256 (p.hubStart h Hc.copy (Panel.startCopy h))

/-- HUB_ZERO. -/
def execHubZero (h : HubIx) (s : State) : Outcome State Fault Refusal :=
  s.onPanel fun p => p.hubStart h Hc.zero fun slot c r p => match r.dst with
    | some (_, q) => p.cmdWrite h slot q c.length c fun k => (c, Hub.zeroCws (q / 32) (c.length / 32) k)
    | none => p

/-- HUB_DIGEST: waits for a digest engine; the digest is written to its destination. -/
def execHubDigest (h : HubIx) (s : State) : Outcome State Fault Refusal :=
  s.onPanel fun p =>
    if 16 ≤ (p.hub h).openSections then p
    else p.hubStart h Hc.digest fun slot c r p => match r.src with
      | none => p
      | some (_, o) =>
        let x := Hub.digestCws (c.at p h) (o / 32) (c.length / 32) c (p.hub h)
        let c := x.2.1
        if ¬ St.ok c.status then p.setHub h (x.2.2.setCmd slot { c with ended := true })
        else
          let d := sm3 x.1
          match r.dst with
          | some (b, q) =>
            if b = h then (p.setHub h x.2.2).cmdWrite h slot q 32 c fun k => (c, (k.writeBytes (c.at p h) q (enabled d)).2)
            else digestOut p h slot c d x.2.2
          | none => digestOut p h slot c d x.2.2
where
  digestOut (p : Panel) (h slot : Nat) (c : HubCmd) (d : List Byte) (k : Hub) : Panel :=
    match (p.setHub h k).hubSend h slot 1 c.part { opcode := Opc.write, ga := c.dst, bytes := 32, len := 1 } [Codeword.fresh d false] with
    | none => p
    | some (some st, p) => p.modHub h fun k => k.setCmd slot (c.finish st)
    | some (none, p) => p.modHub h fun k => k.setCmd slot { c with waits := 1, ended := true }

/-- HUB_SCRUB: the patrol over the range at once. -/
def execHubScrub (h : HubIx) (s : State) : Outcome State Fault Refusal :=
  s.onPanel fun p => p.hubStart h Hc.scrub fun slot c r p => match r.src with
    | none => p
    | some (_, o) =>
      let g0 := o / 256
      let n := (o + c.length - 1) / 256 - g0 + 1
      let x := Hub.scrubCws (c.at p h) (8 * g0) (8 * n) c (p.hub h)
      let k := { x.2 with wbq := x.2.wbq.filter fun g => !(decide (g0 ≤ g) && decide (g < g0 + n)) }
      p.setHub h (k.setCmd slot { x.1 with ended := true })

/-! ### The ring (R305) -/

def Hub.ringIn (k : Hub) (clockwise : Bool) : List RingItem := look [] k.ring (if clockwise then 0 else 1)
def Hub.setRing (k : Hub) (clockwise : Bool) (l : List RingItem) : Hub := { k with ring := put k.ring (if clockwise then 0 else 1) l }

/-- An item sent to the next hub of a direction: none without credit, or over a link that is absent or down. -/
def Panel.ringSend (p : Panel) (h : Nat) (clockwise : Bool) (x : RingItem) : Option Panel :=
  let next := if clockwise then (h + 1) % 24 else (h + 23) % 24
  let k := p.hub next
  if ¬ p.fuses.hubPresent next ∨ k.lost ∨ 448 ≤ (k.ringIn clockwise).length then none
  else some (p.setHub next (k.setRing clockwise (k.ringIn clockwise ++ [x])))

/-- The hub's own next codeword on a direction. -/
def Panel.ringOwn (p : Panel) (h : Nat) (clockwise : Bool) : Panel :=
  let k := p.hub h
  match k.mover (if clockwise then 1 else 2) with
  | none => p
  | some (slot, c) => match p.cmdRange c.src c.length, p.cmdRange c.dst c.length with
    | .ok (_, o), .ok (b, q) =>
      let (r, d, k) := k.cmdRead (c.at p h) (o / 32 + c.next)
      let x : RingItem :=
        { src := h, dst := b, slot := slot, index := q / 32 + c.next
          cw := { d with poison := r == .bad }, last := c.next + 1 == c.total }
      let c := { c.sawRead r with next := c.next + 1 }
      ((p.setHub h (k.setCmd slot c)).ringSend h clockwise x).getD p
    | _, _ => p.setHub h (k.setCmd slot (c.finish St.siteRetired))

/-- The oldest item that arrived on a direction: forwarded, or taken. The last codeword is acknowledged the other way. -/
def Panel.ringTake (p : Panel) (h : Nat) (clockwise : Bool) : Panel :=
  let k := p.hub h
  match k.ringIn clockwise with
  | [] => p
  | x :: rest =>
    let p' := p.setHub h (k.setRing clockwise rest)
    if x.dst ≠ h then (p'.ringSend h clockwise x).getD p
    else if x.ack then p'.modHub h fun k => k.modCmd x.slot fun c => { c with ended := true }
    else
      let take (p : Panel) : Panel := p.modHub h fun k =>
        (((k.store x.index x.cw.data x.cw.poison).touched x.index).sectionWrite (32 * x.index) 32 (hubWriter x.src))
      if x.last then
        match p'.ringSend h (!clockwise) { src := h, dst := x.src, slot := x.slot, cw := Codeword.zero, ack := true } with
        | none => p
        | some p => take p
      else take p'

/-- HUB_RING_CODEWORD: transit or arriving traffic, or the hub's own next codeword. -/
def execHubRingCodeword (h : HubIx) (clockwise own : Bool) (s : State) : Outcome State Fault Refusal :=
  s.onPanel fun p =>
    if (p.hub h).lost then p else if own then p.ringOwn h clockwise else p.ringTake h clockwise

/-! ### Completion (R303) -/

/-- Word 7 of a command. -/
def HubCmd.word7v (c : HubCmd) : Nat := 2 ^ 63 + min c.corr cntTop * 2 ^ 16 + c.status

/-- Word 7 written: at once in the hub's own stack, else over the mesh. -/
def Panel.writeWord7 (p : Panel) (h slot : Nat) (c : HubCmd) : Panel :=
  let ga := c.ptr + 56
  let bs := leBytes 8 c.word7v
  let mark (v : Nat) (p : Panel) : Panel := p.modHub h fun k => k.setCmd slot { c with word7 := v }
  let away := match p.hubSend h slot 2 c.part { opcode := Opc.write, ga := ga, bytes := 8, len := 1 } (unitsOf ga bs) with
    | none => p
    | some (some _, p) => mark 2 p
    | some (none, p) => mark 1 p
  match p.decodeGA ga with
  | .ok (.hbm b o) =>
    if b ≠ h then away
    else match (p.hub h).refusal o 8 c.part c.crown true with
      | some cnt => mark 2 (p.modHub h fun k => k.bump cnt)
      | none => mark 2 (p.modHub h fun k => (k.writeBytes (c.at p h) o (enabled bs)).2)
  | _ => away

/-- The notification (R301); none while the router cannot take it. -/
def Panel.notify (p : Panel) (h slot : Nat) (c : HubCmd) : Option Panel :=
  if ¬ c.notify then some p
  else
    let hd : Header :=
      if bits c.ngsa 55 52 = 1 then { opcode := Opc.semSignal, ga := c.ngsa, sval := 1 }
      else { opcode := Opc.msg, ga := c.ngsa, bytes := 32, len := 1, mkind := 2 }
    let units := if bits c.ngsa 55 52 = 1 then [] else unitsOf 0 (leBytes 8 (c.w 0) ++ leBytes 8 c.word7v ++ List.replicate 16 0)
    (p.hubSend h slot 3 c.part hd units).map (·.2)

/-- A COPY whose ring way has lost a hub ends (R302). -/
def Panel.ringBroken (p : Panel) (h : Nat) (c : HubCmd) : Bool :=
  c.started && !c.ended && (c.way == 1 || c.way == 2) &&
    match p.cmdRange c.dst c.length with
    | .ok (b, _) => !p.ringClear (c.way == 1) 24 h b
    | .error _ => true

/-- HUB_CMD_COMPLETE: word 7, then the notification, and the place is free for the next pointer. -/
def execHubCmdComplete (h : HubIx) (slot : Fin 4) (s : State) : Outcome State Fault Refusal :=
  s.onPanel fun p =>
    let k := p.hub h
    match find k.run slot with
    | none => p
    | some c =>
      let c := if p.ringBroken h c then c.finish St.siteRetired else c
      if k.lost ∨ ¬ c.ended ∨ c.waits ≠ 0 ∨ c.word7 = 1 then p
      else
        let p := if c.word7 = 0 then p.writeWord7 h slot c else p
        match find (p.hub h).run slot with
        | none => p
        | some c =>
          if c.word7 ≠ 2 then p
          else match p.notify h slot c with
            | none => p
            | some p => Panel.hubTake h 4 (p.modHub h fun k => k.freeCmd slot)

/-- An answer that reached a hub: matched to its request, or discarded (R82, R221). -/
def Panel.hubAnswer (p : Panel) (h : Nat) (x : Packet) : Panel :=
  let k := p.hub h
  match k.reqs.find? (·.seq = x.hdr.seq) with
  | none => p
  | some r =>
    let st := St.taken x.hdr.status
    let k := { k with reqs := k.reqs.filter (·.seq ≠ r.seq) }
    match r.use with
    | 0 =>
      if St.ok st ∧ x.hdr.opcode = Opc.readData ∧ x.hdr.bytes = 64 ∧ ¬ x.payload.2.1 then
        p.setHub h (k.gotWords r.slot x.payload.1)
      else Panel.hubTake h 4 (p.setHub h ((k.freeCmd r.slot).bump Reg.HUB_CMD_ERR_CNT))
    | 1 => p.setHub h (k.modCmd r.slot fun c => { c.note st with waits := c.waits - 1 })
    | 2 => p.setHub h (k.modCmd r.slot fun c => { c with word7 := 2 })
    | _ => p.setHub h k

end Sys2Proof.Machine
end

