-- ==== Sys2Proof/Machine/PortOps.lean ====
section
/-! DEFINITION. Fabric ports: frames, credits, replay, buffers, trackers and windows (R234, R310–R334). -/

namespace Sys2Proof.Machine

/-! ### Ports -/

def Panel.fport (p : Panel) (d q : Nat) : FabricPort := look {} (p.port d).fab q
def Panel.setF (p : Panel) (d q : Nat) (f : FabricPort) : Panel := p.modPort d fun k => { k with fab := put k.fab q f }
def Panel.modF (p : Panel) (d q : Nat) (g : FabricPort → FabricPort) : Panel := p.setF d q (g (p.fport d q))

/-- A per-port register of a die. -/
def perPort (off q : Nat) : Nat := off + 0x80 * q

/-- A port that the variant presents, on a die that is not lost (R310). -/
def Panel.portHere (p : Panel) (d q : Nat) : Bool := decide (2 * d + q ∈ p.fuses.ports) && !(p.port d).lost

/-- PORT_CFG fields. -/
def Panel.pcfg (p : Panel) (d q : Nat) : Nat := (p.port d).rd (perPort Reg.PORT_CFG q)
def Panel.pen (p : Panel) (d q : Nat) : Bool := (p.pcfg d q).testBit 31
/-- The priority of a VC. -/
def Panel.pcp (p : Panel) (d q v : Nat) : Nat := let c := p.pcfg d q; if v = 0 then bits c 27 25 else bits c 24 22

/-- The device number of a die, when it is valid (R313). -/
def Panel.devnum (p : Panel) (d : Nat) : Option Nat :=
  let v := (p.port d).rd Reg.PORT_DEVNUM
  if v.testBit 31 then some (v % 4096) else none

/-- The up mask (R314): the ports in state up. -/
def Panel.portsUp (p : Panel) : Nat :=
  ((List.range 16).filter fun i => p.portHere (i / 2) (i % 2) && (p.fport (i / 2) (i % 2)).state == 3).foldl
    (fun m i => m + 2 ^ i) 0

/-- PORT_STAT[q] (R348). -/
def Panel.portStat (p : Panel) (d q : Nat) : Nat :=
  if ¬ decide (2 * d + q ∈ p.fuses.ports) then 0
  else
    let f := p.fport d q
    let on (v : Nat) : Nat := match find f.paused v with
      | some x => b2n (decide (p.dial < x.2))
      | none => 0
    f.state * 2 ^ 30 + f.mode * 2 ^ 29 + on 0 * 2 ^ 28 + on 1 * 2 ^ 27 + f.partner % 4096 * 2 ^ 12 + f.replay.length

/-- An entry of the group names a standby (R335). -/
def PortDie.standbyNamed (k : PortDie) : Bool :=
  (List.range 64).any fun i => let m := k.rd (Reg.PORT_GMEMB + 4 * i); m.testBit 31 && bits m 30 28 == 2

/-- PORT_GRP_ALERT (R348): `standby` shows while a group has no standby named. -/
def PortDie.alertView (k : PortDie) : Nat :=
  k.rd Reg.PORT_GRP_ALERT + if (k.rd Reg.PORT_GRP).testBit 63 ∧ ¬ k.standbyNamed then 2 ^ 29 else 0

/-! ### Frames (R316–R325) -/

/-- The 8-byte link header. -/
def linkHeader (ftype fvc fseq : Nat) (f : FabricPort) : List Byte :=
  let ack := if f.rxAny then (f.rxSeq + 4095) % 4096 + 0x8000 else 0
  leBytes 1 (ftype + fvc * 16) ++ leBytes 2 (fseq % 4096) ++ leBytes 2 ack ++ [0, 0, 0]

/-- The fabric extension. -/
def fabricExt (sdev ddev spart kind pmask : Nat) : List Byte :=
  leBytes 8 (sdev % 4096 + ddev % 4096 * 2 ^ 12 + spart % 32 * 2 ^ 24 + kind % 8 * 2 ^ 29 + pmask % 2 ^ 32 * 2 ^ 32)

/-- Poison bits of a packet. -/
def Packet.pmask (x : Packet) : Nat := x.units.zipIdx.foldl (fun m u => if u.1.poison then m + 2 ^ u.2 else m) 0

/-- Mesh header and units as a frame carries them. -/
def Packet.raw (x : Packet) : List Byte :=
  leBytes 32 (x.hdr.toNat + x.hdr.hcrc * 2 ^ 240) ++ x.units.flatMap fun u => padTo 32 u.data ++ padTo 4 u.chk

/-- Bytes with their CRC-32 (R318). -/
def withCrc (bs : List Byte) : List Byte := bs ++ leBytes 4 (crc32 bs)

/-- The CRC-32 of a frame is good. -/
def crcGood (f : List Byte) : Bool := decide (4 ≤ f.length) && leAt f (f.length - 4) 4 == crc32 (f.take (f.length - 4))

/-- A packet out of a frame, from the fabric extension at `i` on. -/
def packetAt (f : List Byte) (i : Nat) : Packet :=
  let pmask := bits (leAt f i 8) 63 32
  let hdr := Header.ofNat (leAt f (i + 8) 32)
  { hdr := hdr
    units := (List.range hdr.len).map fun u =>
      { data := (f.drop (i + 40 + 36 * u)).take 32, chk := (f.drop (i + 72 + 36 * u)).take 4, poison := pmask.testBit u } }

/-- The frame that an extension and a packet make in a receive buffer. -/
def rxAt (f : List Byte) (i : Nat) : RxFrame :=
  let e := leAt f i 8
  { sdev := e % 4096, ddev := bits e 23 12, pkt := packetAt f i }

/-- Bytes of a DATA frame. -/
def dataLen (x : Packet) : Nat := 52 + 36 * x.hdr.len

/-- Credits of a DATA frame (R320). -/
def frameCredits (x : Packet) : Nat := cdiv (dataLen x) 64

/-- A DATA frame. -/
def dataFrame (sdev fvc fseq : Nat) (f : FabricPort) (x : TxFrame) : List Byte :=
  withCrc (linkHeader 1 fvc fseq f ++ fabricExt sdev x.ddev x.pkt.hdr.part 0 x.pkt.pmask ++ x.pkt.raw)

/-- The MAC address of port `p` of a device (R326). -/
def mac (pfx dev port : Nat) : List Byte :=
  [BitVec.ofNat 8 (pfx / 65536), BitVec.ofNat 8 (pfx / 256), BitVec.ofNat 8 pfx, BitVec.ofNat 8 (dev / 16),
    BitVec.ofNat 8 (dev % 16 * 16 + port), 0]

/-- A big-endian 16-bit field. -/
def be16 (n : Nat) : List Byte := [BitVec.ofNat 8 (n / 256), BitVec.ofNat 8 n]
def beAt (f : List Byte) (i : Nat) : Nat := (f.getD i 0).toNat * 256 + (f.getD (i + 1) 0).toNat

/-- A tagged Ethernet frame (R325). -/
def etherFrame (dst src : List Byte) (pcp vid : Nat) (body : List Byte) : List Byte :=
  withCrc (padTo (max 60 (18 + body.length))
    (dst ++ src ++ be16 0x8100 ++ be16 (pcp * 0x2000 + vid) ++ be16 0x88B5 ++ body))

/-- A priority flow control frame (R327). The layout is that of IEEE 802.1Qbb (PRESUMED, notes/assumptions/17.md). -/
def pfcFrameOf (src : List Byte) (pcp quanta : Nat) : List Byte :=
  withCrc (padTo 60 ([0x01, 0x80, 0xC2, 0x00, 0x00, 0x01] ++ src ++ be16 0x8808 ++ be16 0x0101 ++ be16 (2 ^ pcp) ++
    (List.range 8).flatMap fun i => be16 (if i = pcp then quanta else 0)))

/-- The own MAC address of a port. -/
def Panel.ownMac (p : Panel) (d q : Nat) : List Byte := mac ((p.port d).rd Reg.PORT_ETH_PFX) ((p.devnum d).getD 0) (2 * d + q)

/-- A frame sent on a port. -/
def Panel.sendFrame (p : Panel) (d q : Nat) (f : List Byte) : Panel :=
  (p.emit (.frame (2 * d + q) f)).modPort d fun k => k.wrap (perPort Reg.PORT_TX_BYTES q) f.length

/-- A CTRL frame (R320), with a NAK or without. -/
def ctrlFrame (f : FabricPort) (nak : Option Nat) : List Byte :=
  withCrc (linkHeader 2 0 0 f ++ [if nak.isSome then 1 else 0, 0] ++ leBytes 2 (nak.getD 0) ++
    leBytes 2 (look 0 f.freed 0) ++ leBytes 2 (look 0 f.freed 1) ++ List.replicate 12 0)

/-- A CTRL frame sent: it acknowledges and tells the credits freed. -/
def Panel.sendCtrl (p : Panel) (d q : Nat) (nak : Option Nat) : Panel :=
  let f := p.fport d q
  (p.sendFrame d q (ctrlFrame f nak)).setF d q { f with ctrlAt := p.dial, owed := 0, told := f.freed }

/-! ### Sending (R320–R322, R327) -/

def FabricPort.txq (f : FabricPort) (v : Nat) : List TxFrame := look [] f.tx v
def FabricPort.rxq (f : FabricPort) (v : Nat) : List RxFrame := look [] f.rx v
def FabricPort.push (f : FabricPort) (v : Nat) (x : TxFrame) : FabricPort := { f with tx := put f.tx v (f.txq v ++ [x]) }

/-- Credits that a sender holds. -/
def FabricPort.credit (f : FabricPort) (v : Nat) : Nat :=
  look 0 f.grant v - (look 0 f.used v + 65536 - look 0 f.returned v) % 65536

/-- A VC that may send its oldest frame now. -/
def FabricPort.maySend (f : FabricPort) (dial v : Nat) : Option TxFrame :=
  match f.txq v with
  | [] => none
  | x :: _ =>
    if f.mode = 1 then
      match find f.paused v with
      | some t => if dial < t.2 then none else some x
      | none => some x
    else if f.replay.length < 64 ∧ frameCredits x.pkt ≤ f.credit v then some x
    else none

/-- The oldest frame of a VC sent. -/
def Panel.sendHead (p : Panel) (d q v : Nat) (x : TxFrame) : Panel :=
  let f := p.fport d q
  let f' := { f with tx := put f.tx v (f.txq v).tail }
  let sdev := (p.devnum d).getD 0
  if f.mode = 1 then
    let k := p.port d
    let body := fabricExt sdev x.ddev x.pkt.hdr.part 0 x.pkt.pmask ++ x.pkt.raw
    (p.sendFrame d q (etherFrame (mac (k.rd Reg.PORT_ETH_PFX) x.ddev (2 * d + q)) (p.ownMac d q) (p.pcp d q v)
      (bits (p.pcfg d q) 21 10) body)).setF d q f'
  else
    let f' :=
      { f' with
        txSeq := (f.txSeq + 1) % 4096, owed := 0
        ackAt := if f.replay.isEmpty then p.dial else f.ackAt
        replay := f.replay ++ [(f.txSeq, v, x)]
        used := put f.used v ((look 0 f.used v + frameCredits x.pkt) % 65536) }
    (p.sendFrame d q (dataFrame sdev v f.txSeq f x)).setF d q f'

/-- Frames sent while a VC may send; VC1 never waits on VC0. -/
def Panel.txPump (d q : Nat) : Nat → Panel → Panel
  | 0, p => p
  | n + 1, p =>
    let f := p.fport d q
    if f.state ≠ 3 then p
    else match f.maySend p.dial 1 with
      | some x => Panel.txPump d q n (p.sendHead d q 1 x)
      | none => match f.maySend p.dial 0 with
        | some x => Panel.txPump d q n (p.sendHead d q 0 x)
        | none => p

/-- Frames that a transmit buffer holds (R334). -/
def txTop : Nat := 646
/-- Bytes of a receive buffer, and of its slots. -/
def rxBytes : Nat := 3303424
def rxSlot : Nat := 1216

/-! ### Receive space and PFC (R327) -/

/-- Free bytes of a receive buffer. -/
def FabricPort.free (f : FabricPort) (v : Nat) : Nat := rxBytes - rxSlot * (f.rxq v).length

/-- A PFC frame sent for a VC. -/
def Panel.sendPfc (p : Panel) (d q v quanta : Nat) : Panel :=
  ((p.sendFrame d q (pfcFrameOf (p.ownMac d q) (p.pcp d q v) quanta)).modPort d fun k => k.bump (perPort Reg.PORT_PFC_TX_CNT q)).modF d q
    fun f => { f with pausing := if quanta = 0 then drop f.pausing v else put f.pausing v p.dial }

/-- The pause of a VC follows the free space of its buffer. -/
def Panel.pfcCheck (p : Panel) (d q v : Nat) : Panel :=
  let f := p.fport d q
  if f.mode ≠ 1 ∨ f.state ≠ 3 then p
  else
    let t := (p.port d).rd (perPort Reg.PORT_PFC q)
    match find f.pausing v with
    | none => if f.free v < bits t 15 0 * 1024 then p.sendPfc d q v 0xFFFF else p
    | some _ => if bits t 31 16 * 1024 < f.free v then p.sendPfc d q v 0 else p

/-- A frame leaves a receive buffer: its credits are freed; a CTRL frame goes out once 256 are untold. -/
def Panel.rxPop (p : Panel) (d q v : Nat) (x : RxFrame) : Panel :=
  let p := p.modF d q fun f =>
    { f with rx := put f.rx v (f.rxq v).tail, freed := put f.freed v ((look 0 f.freed v + frameCredits x.pkt) % 65536) }
  let f := p.fport d q
  if f.mode = 1 then p.pfcCheck d q v
  else if f.state = 3 ∧ 256 ≤ (look 0 f.freed v + 65536 - look 0 f.told v) % 65536 then p.sendCtrl d q none
  else p

/-! ### Answers (R330–R332) -/

/-- An answer given through the port to a device. -/
def Panel.fabricAnswer (p : Panel) (d q sdev : Nat) (req : Header) (status : Nat) : Panel :=
  let op := if req.opcode = Opc.readReq then Opc.readData else Opc.completion
  let h : Header := { opcode := op, vc := 1, ga := req.ga, seq := req.seq, part := req.part, status := status }
  p.modF d q fun f => f.push 1 { ddev := sdev, pkt := Packet.mk' h [] }

/-- An outgoing entry ended with a status: its issuer is answered, and the entry is free. -/
def Panel.outEnd (p : Panel) (d q i : Nat) (t : OutTrk) (status : Nat) : Panel :=
  let p := p.modF d q fun f => { f with out := drop f.out i, uses := put f.uses i ((look 0 f.uses i + 1) % 16) }
  if t.hdr.opcode = Opc.readReq then
    p.answerWith (.port d q) t.hdr { opcode := Opc.readData, ga := t.hdr.ga, status := status } []
  else p.complete (.port d q) t.hdr status

/-- An answer from the fabric, matched to its outgoing entry (R331). -/
def Panel.takeAnswer (p : Panel) (d q : Nat) (x : RxFrame) : Panel :=
  let f := p.fport d q
  let h := x.pkt.hdr
  let i := h.seq % 4096
  match find f.out i with
  | none => p.modPort d fun k => k.bump Reg.PORT_LATE_ANS_CNT
  | some t =>
    if look 0 f.uses i ≠ h.seq / 4096 then p.modPort d fun k => k.bump Reg.PORT_LATE_ANS_CNT
    else
      let p := p.modF d q fun f => { f with out := drop f.out i, uses := put f.uses i ((look 0 f.uses i + 1) % 16) }
      p.answerWith (.port d q) t.hdr h x.pkt.units

/-! ### Windows (R232, R234) -/

/-- A window entry as a port die holds it. -/
structure WinEnt where
  valid : Bool
  open' : Bool
  perm : Nat              -- bits 61 to 58: rd, wr, ac, sg
  base : Nat
  groups : Nat
  part : Nat
  size : Nat
  deriving DecidableEq, Repr

/-- The entry that four words hold. -/
def WinEnt.ofWords (w0 w1 w2 : Nat) : WinEnt :=
  { valid := w0.testBit 63, open' := w0.testBit 62, perm := bits w0 61 58, base := bits w0 55 0, groups := w1,
    part := bits w2 24 20, size := bits w2 19 0 }

/-- The entry in force: the copy's, or the one that a protection change's close puts in its place (R486). -/
def PortDie.win (k : PortDie) (w : Nat) : WinEnt :=
  let a := Reg.WIN_ENT_COPY + 32 * w
  match find k.shut w with
  | some x => WinEnt.ofWords x.1 x.2.1 x.2.2
  | none => WinEnt.ofWords (k.rd a) (k.rd (a + 8)) (k.rd (a + 16))

/-- The permission bit that an opcode needs; 4 for one that no window passes. -/
def winPerm (op : Nat) : Nat :=
  if op = Opc.readReq then 3 else if op = Opc.write then 2 else if op = Opc.writeAcc then 1
  else if op = Opc.semSignal ∨ op = Opc.msg then 0 else 4

/-- The first check of R234 that fails: its order, status and counter. -/
def WinEnt.refusal (e : WinEnt) (sdev off : Nat) (h : Header) : Option (Nat × Nat × Nat) :=
  if ¬ e.valid then some (1, St.notPermitted, Reg.WIN_INVALID_CNT)
  else if ¬ e.open' then some (2, St.windowClosed, Reg.WIN_CLOSED_CNT)
  else if ¬ e.groups.testBit (sdev / 64) then some (3, St.notPermitted, Reg.WIN_GROUP_CNT)
  else if ¬ e.perm.testBit (winPerm h.opcode) then some (4, St.notPermitted, Reg.WIN_PERM_CNT)
  else if 4096 * (e.size + 1) < off + h.bytes then some (5, St.notPermitted, Reg.WIN_RANGE_CNT)
  else none

/-- A device that PORT_DEVBLK blocks. -/
def PortDie.blocked (k : PortDie) (dev : Nat) : Bool := (k.rd (Reg.PORT_DEVBLK + 4 * (dev / 32))).testBit (dev % 32)

/-- A request from the fabric (R330): answered, injected and tracked; none while it has to wait. -/
def Panel.takeRequest (p : Panel) (d q : Nat) (x : RxFrame) : Option Panel :=
  let k := p.port d
  let f := p.fport d q
  let h := x.pkt.hdr
  if txTop ≤ (f.txq 1).length then none
  else if p.devnum d ≠ some x.ddev ∨ k.blocked x.sdev then
    some ((p.modPort d fun k => k.bump Reg.PORT_DEV_REFUSE_CNT).fabricAnswer d q x.sdev h St.notPermitted)
  else
    let w := bits h.ga 39 32
    let off := bits h.ga 31 0
    let e := k.win w
    match e.refusal x.sdev off h with
    | some (order, st, cnt) =>
      let last := st * 2 ^ 56 + w * 2 ^ 48 + x.sdev % 4096 * 2 ^ 36 + order * 2 ^ 32 + off
      some ((p.modPort d fun k => (k.bump cnt).wr Reg.WIN_LAST_REFUSE last).fabricAnswer d q x.sdev h st)
    | none =>
      match (List.range 4096).find? fun i => (find f.inc i).isNone with
      | none => none
      | some i =>
        match p.inject (.port d q) { h with ga := (e.base + off) % 2 ^ 56, part := e.part, seq := i } x.pkt.units with
        | (.stall, _) => none
        | (.refused st, p) => some (p.fabricAnswer d q x.sdev h st)
        | (.sent _, p) => some (p.modF d q fun f =>
            { f with inc := put f.inc i { sdev := x.sdev, win := w, seq := h.seq, opcode := h.opcode } })

/-- The oldest frame of a receive buffer taken; none while it waits. A packet with a bad header is discarded and recorded
(R182); without a device number every frame is discarded and counted (R313). -/
def Panel.takeFrame (p : Panel) (d q v : Nat) (x : RxFrame) : Option Panel :=
  if x.pkt.hdr.bad ∨ x.pkt.hdr.vc ≠ v then some (p.logPort d { cls := 0x06, level := 1, unit := q })
  else if (p.devnum d).isNone then some (p.modPort d fun k => k.bump Reg.PORT_DEV_REFUSE_CNT)
  else if v = 1 then some (p.takeAnswer d q x)
  else p.takeRequest d q x

/-- Receive buffers emptied as far as they go: answers first, which wait on no request. -/
def Panel.rxPump (d q : Nat) : Nat → Panel → Panel
  | 0, p => p
  | n + 1, p =>
    let f := p.fport d q
    let step (v : Nat) : Option Panel := match f.rxq v with
      | [] => none
      | x :: _ => (p.takeFrame d q v x).map fun p => p.rxPop d q v x
    match step 1 with
    | some p => Panel.rxPump d q n p
    | none => match step 0 with
      | some p => Panel.rxPump d q n p
      | none => p

/-- What a port does after any event: it takes what it has received and sends what it may. -/
def Panel.portPump (p : Panel) (d q : Nat) : Panel := Panel.txPump d q 4096 (Panel.rxPump d q 8192 p)

/-! ### Link state (R312, R319–R321, R332) -/

/-- A port goes down (R312, R332): 1 alignment, 2 replay, 3 disabled. -/
def Panel.portFall (p : Panel) (d q cause : Nat) : Panel :=
  let f := p.fport d q
  let p := p.setF d q { f with
    state := 1, downAt := p.dial, tx := [], replay := [], inc := [], initSent := false, initGot := false,
    paused := [], pausing := [], goBacks := 0, nak := none }
  let p := p.modPort d fun k =>
    (k.bump (perPort Reg.PORT_DOWN_CNT q)).bump (perPort Reg.PORT_DOWN_ANS_CNT q) f.out.length
  let p := p.logPort d { cls := 0x0E, level := 3, unit := 2 * d + q, addr := cause }
  f.out.foldl (fun p t => p.outEnd d q t.1 t.2 St.portDown) p

/-- Acknowledged frames leave the replay buffer. -/
def FabricPort.acked (f : FabricPort) (dial ack : Nat) : FabricPort :=
  let rest := f.replay.filter fun x => decide (2048 ≤ (ack + 4096 - x.1) % 4096)
  if rest.length = f.replay.length then f else { f with replay := rest, ackAt := dial, goBacks := 0 }

/-- The acknowledgement in a link header. -/
def FabricPort.headerAck (f : FabricPort) (dial : Nat) (bs : List Byte) : FabricPort :=
  let a := leAt bs 3 2
  if a.testBit 15 then f.acked dial (a % 4096) else f

/-- A go-back to a frame number (R321): the frames from it on are sent again; the eighth in a row takes the port down. -/
def Panel.goBack (p : Panel) (d q seq : Nat) : Panel :=
  let f := p.fport d q
  let again := f.replay.filter fun x => decide ((x.1 + 4096 - seq) % 4096 < 2048)
  if again.isEmpty then p
  else
    let p := (p.setF d q { f with goBacks := f.goBacks + 1, ackAt := p.dial }).modPort d fun k => k.bump (perPort Reg.PORT_REPLAY_CNT q)
    if 8 ≤ f.goBacks + 1 then p.portFall d q 2
    else again.foldl (fun p x => p.sendFrame d q (dataFrame ((p.devnum d).getD 0) x.2.1 x.1 (p.fport d q) x.2.2)) p

/-- A NAK sent, at most once per 2 µs for one number. -/
def Panel.sendNak (p : Panel) (d q : Nat) : Panel :=
  let f := p.fport d q
  let again : Bool := match f.nak with
    | some (n, t) => n != f.rxSeq || p.since t (2 * us)
    | none => true
  if again then (p.setF d q { f with nak := some (f.rxSeq, p.dial) }).sendCtrl d q (some f.rxSeq) else p

/-- Bytes received on a port. -/
def Panel.received (p : Panel) (d q n : Nat) : Panel := p.modPort d fun k => k.wrap (perPort Reg.PORT_RX_BYTES q) n

/-- A frame that fails its CRC, or whose length is no frame's. -/
def Panel.badFrame (p : Panel) (d q : Nat) : Panel := p.modPort d fun k => k.bump (perPort Reg.PORT_CRC_ERR_CNT q)

/-- A frame of a kind, checked: none when it is discarded whole. -/
def frameOk (f : List Byte) (ftype len : Nat) : Bool := crcGood f && f.length == len && leAt f 0 1 % 16 == ftype

/-- A port comes up when both sides have exchanged INIT (R319). -/
def FabricPort.riseIf (f : FabricPort) (dial : Nat) : FabricPort :=
  if f.state = 2 ∧ f.initSent ∧ f.initGot then { f with state := 3, ackAt := dial, ctrlAt := dial } else f

end Sys2Proof.Machine
end

