-- ==== Sys2Proof/Machine/Ports.lean ====
section
/-! DEFINITION. The fabric ports' commands: link training, frames, requests and answers, beacons and seen masks, and the writes
of the PORT_ block (R310–R341, R348). -/

namespace Sys2Proof.Machine

open Host (Outcome)

/-- A command at a port that is present on a die that is not lost; otherwise nothing acts. -/
def State.atPort (s : State) (d q : Nat) (f : Panel → Panel) : Outcome State Fault Refusal :=
  s.onPanel fun p => if p.portHere d q then f p else p

/-! ### Link (R312, R319) -/

/-- PORT_DOWN: a port that is up or training goes down; the cause operand counts from 0 (alignment). -/
def execPortDown (d : PortIx) (q : Fin 2) (cause : Fin 4) (s : State) : Outcome State Fault Refusal :=
  s.atPort d q fun p => if 2 ≤ (p.fport d q).state then p.portFall d q (cause + 1) else p

/-- A port whose lanes have aligned: training in native mode, up in Ethernet mode. -/
def FabricPort.aligned (f : FabricPort) (mode dial : Nat) : FabricPort :=
  { f with
    state := if mode = 1 then 3 else 2
    mode := mode, initSent := false, initGot := false, initAt := 0, partner := 0, txSeq := 0, rxSeq := 0, rxAny := false
    owed := 0, ackAt := dial, goBacks := 0, nak := none, ctrlAt := dial, grant := [], used := [], returned := [], freed := []
    told := [], replay := [], paused := [], pausing := [] }

/-- PORT_RETRAIN: an enabled port that has been down for 1 s is trained; one whose attachment site has lost power stays down
(R41). -/
def execPortRetrain (d : PortIx) (q : Fin 2) (trained : Bool) (s : State) : Outcome State Fault Refusal :=
  s.atPort d q fun p =>
    let f := p.fport d q
    if p.pen d q ∧ f.state = 1 ∧ p.powered (attSite (portAtt d q)) ∧ p.since f.downAt (1000 * ms) then
      p.setF d q (if trained then f.aligned (bits (p.pcfg d q) 30 30) p.dial else { f with downAt := p.dial })
    else p

/-- The INIT frame of a panel. -/
def initFrame (dev : Nat) (f : FabricPort) : List Byte :=
  withCrc (linkHeader 4 0 0 f ++ leBytes 2 1 ++ leBytes 2 dev ++ leBytes 2 51616 ++ leBytes 2 51616 ++ [64] ++
    List.replicate 11 0)

/-- INIT_SEND: every 1 µs until a valid INIT has been received. -/
def execInitSend (d : PortIx) (q : Fin 2) (s : State) : Outcome State Fault Refusal :=
  s.atPort d q fun p =>
    let f := p.fport d q
    if f.state = 2 ∧ (¬ f.initSent ∨ (¬ f.initGot ∧ p.since f.initAt us)) then
      ((p.sendFrame d q (initFrame ((p.devnum d).getD 0) f)).setF d q
        ({ f with initSent := true, initAt := p.dial } : FabricPort)).modF d q fun f => f.riseIf p.dial
    else p

/-- INIT: the partner's grants and device number; a bad version or grant is counted. -/
def execInit (d : PortIx) (q : Fin 2) (frame : List Byte) (s : State) : Outcome State Fault Refusal :=
  s.atPort d q fun p =>
    let f := p.fport d q
    if f.state < 2 ∨ f.mode = 1 then p
    else
      let p := p.received d q frame.length
      if ¬ frameOk frame 4 32 then p.badFrame d q
      else if f.state = 3 then p
      else if leAt frame 8 2 ≠ 1 ∨ leAt frame 12 2 < 19 ∨ leAt frame 14 2 < 19 then
        p.modPort d fun k => k.bump Reg.PORT_CFG_IGN_CNT
      else
        p.setF d q (({ f with
          initGot := true, partner := leAt frame 10 2 % 4096
          grant := put (put [] 0 (leAt frame 12 2)) 1 (leAt frame 14 2) } : FabricPort).riseIf p.dial)

/-! ### CTRL and DATA (R320, R321) -/

/-- CTRL: acknowledgement, credits, and a NAK that triggers a go-back. -/
def execCtrl (d : PortIx) (q : Fin 2) (frame : List Byte) (s : State) : Outcome State Fault Refusal :=
  s.atPort d q fun p =>
    let f := p.fport d q
    if f.state ≠ 3 ∨ f.mode = 1 then p
    else
      let p := p.received d q frame.length
      if ¬ frameOk frame 2 32 then p.badFrame d q
      else
        let f := f.headerAck p.dial frame
        let p := p.setF d q { f with returned := put (put [] 0 (leAt frame 12 2)) 1 (leAt frame 14 2) }
        let p := if (leAt frame 8 1).testBit 0 then p.goBack d q (leAt frame 10 2 % 4096) else p
        p.portPump d q

/-- CTRL_SEND: at least every 1 µs, and whenever 256 credits or 16 frames are untold. -/
def execCtrlSend (d : PortIx) (q : Fin 2) (s : State) : Outcome State Fault Refusal :=
  s.atPort d q fun p =>
    let f := p.fport d q
    let due (v : Nat) : Bool := decide (256 ≤ (look 0 f.freed v + 65536 - look 0 f.told v) % 65536)
    if f.state = 3 ∧ f.mode = 0 ∧ (p.since f.ctrlAt us ∨ due 0 ∨ due 1 ∨ 16 ≤ f.owed) then
      (p.sendCtrl d q none).portPump d q
    else p

/-- DATA: accepted in sequence, and its packet taken; else discarded with a NAK. -/
def execData (d : PortIx) (q : Fin 2) (frame : List Byte) (s : State) : Outcome State Fault Refusal :=
  s.atPort d q fun p =>
    let f := p.fport d q
    if f.state ≠ 3 ∨ f.mode = 1 then p
    else
      let p := p.received d q frame.length
      let x := rxAt frame 8
      if ¬ frameOk frame 1 (dataLen x.pkt) then (p.badFrame d q).sendNak d q
      else
        let f := f.headerAck p.dial frame
        if leAt frame 1 2 % 4096 ≠ f.rxSeq then (p.setF d q f).sendNak d q
        else
          let v := bits (leAt frame 0 1) 5 4 % 2
          let p := p.setF d q { f with
            rxSeq := (f.rxSeq + 1) % 4096, rxAny := true, owed := f.owed + 1, rx := put f.rx v (f.rxq v ++ [x]) }
          let p := p.portPump d q
          if (p.fport d q).state = 3 ∧ 16 ≤ (p.fport d q).owed then p.sendCtrl d q none else p

/-- REPLAY_TIMEOUT: `ackseq` has not advanced for 20 µs while frames are outstanding. -/
def execReplayTimeout (d : PortIx) (q : Fin 2) (s : State) : Outcome State Fault Refusal :=
  s.atPort d q fun p =>
    let f := p.fport d q
    match f.replay with
    | [] => p
    | x :: _ => if f.state = 3 ∧ p.since f.ackAt (20 * us) then p.goBack d q x.1 else p

/-! ### Ethernet mode (R326–R328) -/

/-- The partner's pause of a VC ends: its microseconds are counted. -/
def Panel.pauseEnd (p : Panel) (d q v : Nat) : Panel :=
  let f := p.fport d q
  match find f.paused v with
  | none => p
  | some (since, till) =>
    (p.setF d q { f with paused := drop f.paused v }).modPort d fun k =>
      k.bump (perPort Reg.PORT_PFC_RX_US q) ((min p.dial till - since) / us)

/-- A PFC frame names a pause of a VC, in quanta of 512 bit times at 1.6 Tb/s. -/
def Panel.pauseSet (p : Panel) (d q v quanta : Nat) : Panel :=
  let p := p.pauseEnd d q v
  if quanta = 0 then p
  else p.modF d q fun f => { f with paused := put f.paused v (p.dial, p.dial + cdiv (quanta * 8) 25) }

/-- PFC_FRAME. -/
def execPfcFrame (d : PortIx) (q : Fin 2) (frame : List Byte) (s : State) : Outcome State Fault Refusal :=
  s.atPort d q fun p =>
    let f := p.fport d q
    if f.state ≠ 3 ∨ f.mode ≠ 1 then p
    else
      let p := p.received d q frame.length
      if ¬ crcGood frame then p.modPort d fun k => k.bump (perPort Reg.PORT_ETH_DROP_CNT q)
      else if beAt frame 12 ≠ 0x8808 ∨ beAt frame 14 ≠ 0x0101 then p
      else
        let p := [0, 1].foldl (fun p v =>
          let pcp := p.pcp d q v
          if (beAt frame 16).testBit pcp then p.pauseSet d q v (beAt frame (18 + 2 * pcp)) else p) p
        p.portPump d q

/-- PFC_PAUSE_EXPIRE. -/
def execPfcPauseExpire (d : PortIx) (q : Fin 2) (vc : Fin 2) (s : State) : Outcome State Fault Refusal :=
  s.atPort d q fun p =>
    match find (p.fport d q).paused vc with
    | none => p
    | some (_, till) => if till ≤ p.dial then (p.pauseEnd d q vc).portPump d q else p

/-- PFC_REPEAT: every 10 µs while the free space stays below `xon`. -/
def execPfcRepeat (d : PortIx) (q : Fin 2) (vc : Fin 2) (s : State) : Outcome State Fault Refusal :=
  s.atPort d q fun p =>
    let f := p.fport d q
    match find f.pausing vc with
    | none => p
    | some t =>
      if f.state = 3 ∧ p.since t (10 * us) ∧ f.free vc < bits ((p.port d).rd (perPort Reg.PORT_PFC q)) 31 16 * 1024 then
        p.sendPfc d q vc 0xFFFF
      else p

/-- ETH_REQUEST_TIMEOUT: the tracker answers TIMED_OUT. -/
def execEthRequestTimeout (d : PortIx) (q : Fin 2) (entry : Fin 4096) (s : State) : Outcome State Fault Refusal :=
  s.atPort d q fun p =>
    let f := p.fport d q
    match find f.out entry with
    | none => p
    | some t =>
      if f.mode = 1 ∧ p.since t.since (bits (p.pcfg d q) 7 0 * us) then
        (p.outEnd d q entry t St.timedOut).modPort d fun k => k.bump (perPort Reg.PORT_ETH_TMO_CNT q)
      else p

/-! ### Group configuration as the port dies hold it (R335, R348) -/

/-- The present port die of lowest number. -/
def Panel.firstPort (p : Panel) : Option Nat := (List.range 8).find? fun d => p.fuses.diePresent d && !(p.port d).lost

/-- PORT_GRP of the panel. -/
def Panel.grp (p : Panel) : Nat := match p.firstPort with
  | none => 0
  | some d => (p.port d).rd Reg.PORT_GRP
def grpValid (g : Nat) : Bool := g.testBit 63
def grpRole (g : Nat) : Nat := bits g 62 60
def grpGid (g : Nat) : Nat := bits g 47 32
def grpEpoch (g : Nat) : Nat := bits g 31 16
def grpQuorum (g : Nat) : Nat := bits g 14 8
def grpWin (g : Nat) : Nat := bits g 7 0

/-- PORT_GMEMB[i] of the panel. -/
def Panel.memb (p : Panel) (i : Nat) : Nat := match p.firstPort with
  | none => 0
  | some d => (p.port d).rd (Reg.PORT_GMEMB + 4 * i)
def membValid (m : Nat) : Bool := m.testBit 31
def membRole (m : Nat) : Nat := bits m 30 28
def membState (m : Nat) : Nat := bits m 27 26
/-- A member of the group is named standby. -/
def Panel.standbyNamed (p : Panel) : Bool := match p.firstPort with
  | none => false
  | some d => (p.port d).standbyNamed
def membMiss (m : Nat) : Nat := bits m 23 16
def membDev (m : Nat) : Nat := m % 4096

/-- Every present port die changed alike. -/
def Panel.allPorts (p : Panel) (f : PortDie → PortDie) : Panel :=
  (List.range 8).foldl (fun p d => if p.fuses.diePresent d ∧ ¬ (p.port d).lost then p.modPort d f else p) p

def Panel.setGrp (p : Panel) (v : Nat) : Panel := p.allPorts fun k => k.wr Reg.PORT_GRP v
def Panel.setEpoch (p : Panel) (e : Nat) : Panel :=
  p.allPorts fun k => k.wr Reg.PORT_GRP (setFld (rfGet k.regs Reg.PORT_GRP) 31 16 e).toNat
def Panel.setRole (p : Panel) (r : Nat) : Panel :=
  p.allPorts fun k => k.wr Reg.PORT_GRP (setFld (rfGet k.regs Reg.PORT_GRP) 62 60 r).toNat
def Panel.setMemb (p : Panel) (i v : Nat) : Panel := p.allPorts fun k => k.wr (Reg.PORT_GMEMB + 4 * i) v
def Panel.setMembFld (p : Panel) (i hi lo n : Nat) : Panel :=
  p.allPorts fun k => k.wr (Reg.PORT_GMEMB + 4 * i) (setFld (rfGet k.regs (Reg.PORT_GMEMB + 4 * i)) hi lo n).toNat

/-- The panel's own index in its group. -/
def Panel.ownIndex (p : Panel) : Option Nat := match p.ownDevice with
  | none => none
  | some dev => (List.range 64).find? fun i => let m := p.memb i; membValid m && membDev m == dev

/-- Serial comparison of epochs (R335): 0 equal, 1 higher, 2 lower, 3 neither. -/
def epochCmp (e f : Nat) : Nat :=
  let d := (e + 65536 - f) % 65536
  if d = 0 then 0 else if d < 32768 then 1 else if d = 32768 then 3 else 2

/-- A former manager becomes a follower (R345). -/
def Panel.stepDown (p : Panel) : Panel :=
  let p := p.setRole 3
  [Crown.north, Crown.south].foldl (fun p c =>
    p.modCrown c fun k => k.wr Reg.CTX_CFG (setFld (rfGet k.regs Reg.CTX_CFG) 31 30 2).toNat) p

/-- A member adopts a higher epoch that it sees; one at a distance of 32,768 is counted (R335). -/
def Panel.seeEpoch (p : Panel) (d e : Nat) : Panel :=
  match epochCmp e (grpEpoch p.grp) with
  | 1 =>
    let p := p.setEpoch e
    if grpRole p.grp = 1 then p.stepDown else p
  | 3 => p.modPort d fun k => k.bump Reg.PORT_STEP_STALE_CNT
  | _ => p

/-! ### Beacons and seen masks (R340, R341) -/

/-- The health byte of a beacon. -/
def Panel.healthByte (p : Panel) : Nat :=
  let degraded := p.lostStacks != 0 || p.sites.any fun x => x.2.state == 3
  b2n p.serving + b2n degraded * 2 + b2n p.shedding * 4 + b2n p.fatal * 8 + b2n p.removal * 16

/-- The 32-byte body of a beacon. -/
def Panel.beaconBody (p : Panel) (count : Nat) : List Byte :=
  let g := p.grp
  leBytes 2 (grpGid g) ++ leBytes 2 (grpEpoch g) ++ leBytes 1 (grpRole g) ++ leBytes 1 p.healthByte ++
    leBytes 1 (p.ownIndex.getD 0) ++ [0] ++ leBytes 8 p.dial ++ leBytes 4 count ++ List.replicate 12 0

/-- The devices that a beacon goes to: the manager and standby, or every member when it is one of them itself. -/
def Panel.beaconTo (p : Panel) : List Nat :=
  let lead := grpRole p.grp = 1 ∨ grpRole p.grp = 2
  ((List.range 64).filter fun i =>
    let m := p.memb i
    membValid m && some i != p.ownIndex && (decide lead || membRole m == 1 || membRole m == 2)).map fun i => membDev (p.memb i)

/-- A beacon sent on a port. -/
def Panel.sendBeacon (p : Panel) (d q dev count : Nat) : Panel :=
  let f := p.fport d q
  let own := (p.devnum d).getD 0
  let body := p.beaconBody count
  if f.mode = 1 then
    p.sendFrame d q (etherFrame (mac ((p.port d).rd Reg.PORT_ETH_PFX) dev (2 * d + q)) (p.ownMac d q) (p.pcp d q 0)
      (bits (p.pcfg d q) 21 10) (fabricExt own dev 0 3 0 ++ body))
  else
    (p.sendFrame d q (withCrc (linkHeader 3 0 0 f ++ fabricExt own dev 0 0 0 ++ body))).setF d q { f with owed := 0 }

/-- BEACON_SEND: every 100 µs of dial time, on each up port. -/
def execBeaconSend (d : PortIx) (s : State) : Outcome State Fault Refusal :=
  s.onPanel fun p =>
    let k := p.port d
    if k.lost ∨ ¬ grpValid (k.rd Reg.PORT_GRP) ∨ ¬ p.since k.bcnAt (100 * us) then p
    else
      let ports := [0, 1].filter fun q => p.portHere d q && (p.fport d q).state == 3
      let p := p.modPort d fun k => { k with bcnAt := p.dial }
      (ports.flatMap fun q => p.beaconTo.map fun dev => (q, dev)).foldl (fun p x =>
        let n := (p.port d).bcnCount
        (p.sendBeacon d x.1 x.2 n).modPort d fun k => { k with bcnCount := (n + 1) % 2 ^ 32 }) p

/-- A beacon body taken: another group's is counted; else it is seen, and its epoch adopted when higher. -/
def Panel.takeBeacon (p : Panel) (d : Nat) (body : List Byte) : Panel :=
  let g := (p.port d).rd Reg.PORT_GRP
  if ¬ grpValid g ∨ leAt body 0 2 ≠ grpGid g then p.modPort d fun k => k.bump Reg.PORT_BCN_IGN_CNT
  else
    let i := leAt body 6 1 % 64
    (p.modPort d fun k => { k with
      seen := k.seen ||| 2 ^ i, health := put k.health i (p.dial, leAt body 5 1) }).seeEpoch d (leAt body 2 2)

/-- BEACON: a native beacon frame. -/
def execBeacon (d : PortIx) (q : Fin 2) (frame : List Byte) (s : State) : Outcome State Fault Refusal :=
  s.atPort d q fun p =>
    let f := p.fport d q
    if f.state ≠ 3 ∨ f.mode = 1 then p
    else
      let p := p.received d q frame.length
      if ¬ frameOk frame 3 52 then p.badFrame d q
      else (p.setF d q (f.headerAck p.dial frame)).takeBeacon d ((frame.drop 16).take 32)

/-- ETHERNET_FRAME: checked by R326; a packet or a beacon is taken. -/
def execEthernetFrame (d : PortIx) (q : Fin 2) (frame : List Byte) (s : State) : Outcome State Fault Refusal :=
  s.atPort d q fun p =>
    let f := p.fport d q
    if f.state ≠ 3 ∨ f.mode ≠ 1 then p
    else
      let p := p.received d q frame.length
      let kind := bits (leAt frame 18 8) 31 29
      if frame.length < 64 ∨ ¬ crcGood frame ∨ frame.take 6 ≠ p.ownMac d q ∨ beAt frame 12 ≠ 0x8100 ∨ beAt frame 16 ≠ 0x88B5 then
        p.modPort d fun k => k.bump (perPort Reg.PORT_ETH_DROP_CNT q)
      else if kind = 3 then p.takeBeacon d ((frame.drop 26).take 32)
      else if kind ≠ 0 then p
      else
        let x := rxAt frame 18
        let v := x.pkt.hdr.vc % 2
        ((p.modF d q fun f => { f with rx := put f.rx v (f.rxq v ++ [x]) }).pfcCheck d q v).portPump d q

/-- A sequence number for a die's own message: above those of the incoming tracker. -/
def PortDie.freshSeq (k : PortDie) : Nat := 4096 + ((List.range 64).find? fun n => !k.own.contains (4096 + n)).getD 0

/-- A seen mask sent to a crown (R336, R341). -/
def Panel.sendSeen (p : Panel) (d : Nat) (c : Crown) (mask iv : Nat) : Panel :=
  match p.portPath d with
  | none => p
  | some q =>
    let seq := (p.port d).freshSeq
    let bs := leBytes 8 mask ++ leBytes 4 iv ++ List.replicate 4 0
    let h : Header := { opcode := Opc.msg, ga := gaCrown c 0, bytes := 16, len := 1, mkind := 2, mtag := 0x4710, seq := seq }
    match p.inject (.port d q) h (unitsOf 0 bs) with
    | (.sent _, p) => p.modPort d fun k => { k with own := k.own ++ [seq] }
    | (_, p) => p

/-- SEEN_MASK: at the end of each 100 µs interval. -/
def execSeenMask (d : PortIx) (s : State) : Outcome State Fault Refusal :=
  s.onPanel fun p =>
    let k := p.port d
    let iv := p.dial / (100 * us)
    if k.lost ∨ ¬ p.fuses.diePresent d ∨ ¬ grpValid (k.rd Reg.PORT_GRP) ∨ iv ≤ k.seenIv then p
    else
      let p := p.setPort d { k with seen := 0, seenIv := iv }
      (p.sendSeen d .north k.seen (k.seenIv % 2 ^ 32)).sendSeen d .south k.seen (k.seenIv % 2 ^ 32)

/-! ### Requests and answers at the attachment (R313, R329, R331, R332) -/

/-- REMOTE_REQUEST: the class 0x6 request at the head of the attachment takes an outgoing entry and is sent. -/
def execRemoteRequest (d : PortIx) (q : Fin 2) (s : State) : Outcome State Fault Refusal :=
  s.atPort d q fun p =>
    let k := p.port d
    let f := p.fport d q
    let key := 4 * q.val
    match look [] k.arr key with
    | [] => p
    | x :: rest =>
      let taken := p.setPort d { k with arr := put k.arr key rest }
      if (p.devnum d).isNone then
        (taken.modPort d fun k => k.bump Reg.PORT_DEV_REFUSE_CNT).refuse (.port d q) x St.notPermitted
      else if f.state ≠ 3 then
        (taken.modPort d fun k => k.bump (perPort Reg.PORT_DOWN_ANS_CNT q)).refuse (.port d q) x St.portDown
      else match (List.range 4096).find? fun i => (find f.out i).isNone with
        | none => p
        | some i =>
          if txTop ≤ (f.txq 0).length then p.portPump d q
          else
            let h := { x.hdr with seq := i + look 0 f.uses i * 4096 }
            let t : TxFrame := { ddev := bits x.hdr.ga 51 40, pkt := Packet.mk' h x.units }
            ((taken.modF d q fun f =>
              ({ f with out := put f.out i { hdr := x.hdr, since := p.dial } } : FabricPort).push 0 t)).portPump d q

/-- An answer that reached a port die: its own message's, a translated request's, or one that matches nothing. -/
def Panel.portAnswer (p : Panel) (d q : Nat) (x : Packet) : Panel :=
  let f := p.fport d q
  let k := p.port d
  if x.hdr.seq ∈ k.own then p.setPort d { k with own := k.own.filter (· != x.hdr.seq) }
  else match find f.inc x.hdr.seq with
    | none => p.modPort d fun k => k.bump Reg.PORT_LATE_ANS_CNT
    | some t =>
      let f := { f with inc := drop f.inc x.hdr.seq }
      if f.state ≠ 3 then p.setF d q f
      else
        (p.setF d q (f.push 1 { ddev := t.sdev, pkt := Packet.mk' { x.hdr with seq := t.seq } x.units })).portPump d q

/-- The answer at the head of a port's attachment taken; it waits while the transmit buffer of VC1 is full. -/
def Panel.answerAt (p : Panel) (d q : Nat) : Panel :=
  let k := p.port d
  let key := 4 * q + 1
  match look [] k.arr key with
  | [] => p
  | x :: rest =>
    if txTop ≤ ((p.fport d q).txq 1).length then p.portPump d q
    else (p.setPort d { k with arr := put k.arr key rest }).portAnswer d q x

/-- REMOTE_ANSWER. -/
def execRemoteAnswer (d : PortIx) (q : Fin 2) (s : State) : Outcome State Fault Refusal :=
  s.atPort d q fun p => p.answerAt d q

/-- UP_MASK_COPY: PORT_DEVRT and the up mask as every source's decoder holds them. -/
def execUpMaskCopy (s : State) : Outcome State Fault Refusal :=
  s.onPanel fun p =>
    let routes := match p.firstPort with
      | none => p.devrt
      | some d => (List.range 64).foldl (fun m g => put m g ((p.port d).rd (Reg.PORT_DEVRT + 4 * g))) []
    { p with upMask := p.portsUp, devrt := routes }

/-! ### Register writes (R313, R348) -/

/-- A write that the block ignores and counts. -/
def Panel.portIgn (p : Panel) (d : Nat) : Panel := p.modPort d fun k => k.bump Reg.PORT_CFG_IGN_CNT

/-- PORT_CFG[q]. Clearing `en` takes a port that is up or training down. -/
def Panel.portCfgWrite (p : Panel) (d q : Nat) (value : W64) : Panel :=
  let v := value.toNat % 2 ^ 32
  let old := p.pcfg d q
  if (old.testBit 31 ∧ bits v 30 28 ≠ bits old 30 28) ∨ bits v 29 28 = 3 ∨ bits v 27 25 = bits v 24 22 ∨ bits v 21 10 = 0 ∨
      bits v 21 10 = 4095 ∨ v % 256 = 0 then p.portIgn d
  else
    let p := p.modPort d fun k => k.wr (perPort Reg.PORT_CFG q) (v &&& 0xFFFFFCFF)
    if ¬ v.testBit 31 ∧ 2 ≤ (p.fport d q).state then p.portFall d q 3 else p

/-- PORT_PFC[q]. -/
def Panel.portPfcWrite (p : Panel) (d q : Nat) (value : W64) : Panel :=
  let v := value.toNat % 2 ^ 32
  if bits v 31 16 ≤ bits v 15 0 ∨ 3226 < bits v 31 16 then p.portIgn d
  else (p.modPort d fun k => k.wr (perPort Reg.PORT_PFC q) v).pfcCheck d q 0 |>.pfcCheck d q 1

/-- PORT_DEVNUM: ignored while a port of the die is up. -/
def Panel.devnumWrite (p : Panel) (d : Nat) (value : W64) : Panel :=
  if (p.fport d 0).state = 3 ∨ (p.fport d 1).state = 3 then p.portIgn d
  else p.modPort d fun k => k.wr Reg.PORT_DEVNUM (value.toNat &&& 0x80000FFF)

/-- PORT_DEVBLK[k]: bits written 1 are set. -/
def PortDie.devblk (x : PortDie) (k : Nat) (value : W64) : PortDie :=
  let off := Reg.PORT_DEVBLK + 4 * k
  x.wr off (x.rd off ||| value.toNat % 2 ^ 32)

/-- PORT_DEVUNBLK[k]: bits written 1 clear PORT_DEVBLK. -/
def PortDie.devunblk (x : PortDie) (k : Nat) (value : W64) : PortDie :=
  let off := Reg.PORT_DEVBLK + 4 * k
  x.wr off (x.rd off &&& (value.toNat % 2 ^ 32 ^^^ 0xFFFFFFFF))

end Sys2Proof.Machine
end

