-- ==== Sys2Proof/Machine/CrownOps.lean ====
section
/-! DEFINITION. Crowns: their accesses of HBM, the packets that they send, and the requests that they answer (R39, R51, R296,
R360–R363, R480). -/

namespace Sys2Proof.Machine

/-! ### HBM as a crown accesses it (notes/assumptions/18.md) -/

/-- A range of global addresses cut at 4 KiB blocks. -/
def gaCuts : Nat → Nat → Nat → List (Nat × Nat)
  | 0, _, _ => []
  | f + 1, ga, n =>
    if n = 0 then []
    else
      let m := min n (4096 - ga % 4096)
      (ga, m) :: gaCuts f (ga + m) (n - m)

/-- Where a crown's access of HBM lands: hub and offset, or its status. The counters of refusals advance. -/
def Panel.crownAt (p : Panel) (part ga n : Nat) (writes : Bool) : Except (Nat × Panel) (Nat × Nat) :=
  match p.decodeGA ga with
  | .error st => .error (st, p.bumpSh Reg.PANEL_ADDR_ERR_CNT)
  | .ok (.hbm h off) =>
    let k := p.hub h
    if k.lost then .error (St.siteRetired, p)
    else if k.stack ≠ 2 then .error (St.uncorrectable, p)
    else match k.refusal off n part true writes with
      | some cnt => .error (St.notPermitted, p.modHub h fun k => k.bump cnt)
      | none => .ok (h, off)
  | .ok _ => .error (St.notPermitted, p)

/-- `n` bytes of HBM read by a crown for a partition: status, bytes (zero where the read was refused), panel. -/
def Panel.crownRead (p : Panel) (part ga n : Nat) : Nat × List Byte × Panel :=
  (gaCuts (n / 4096 + 2) ga n).foldl (fun acc x =>
    match acc.2.2.crownAt part x.1 x.2 false with
    | .error (st, p) => (St.merge acc.1 st, acc.2.1 ++ List.replicate x.2 0, p)
    | .ok (h, off) =>
      let p := acc.2.2
      let m := cdiv (off % 32 + x.2) 32
      let r := Hub.readCws { dial := p.dial, hub := h, src := 0, part := 0x80 + part } (off / 32) m (p.hub h)
      let st := if r.1.any (·.1 = .bad) then St.uncorrectable else if r.1.any (·.1 = .corrected) then St.corrected else St.done
      (St.merge acc.1 st, acc.2.1 ++ ((r.1.flatMap (·.2.data)).drop (off % 32)).take x.2, p.setHub h r.2))
    (St.done, [], p)

/-- Bytes written into HBM by a crown for a partition: status and panel. -/
def Panel.crownWrite (p : Panel) (part ga : Nat) (bs : List Byte) : Nat × Panel :=
  let x := (gaCuts (bs.length / 4096 + 2) ga bs.length).foldl (fun (acc : Nat × List Byte × Panel) x =>
    let rest := acc.2.1.drop x.2
    match acc.2.2.crownAt part x.1 x.2 true with
    | .error (st, p) => (St.merge acc.1 st, rest, p)
    | .ok (h, off) =>
      let p := acc.2.2
      let w : HubAt := { dial := p.dial, hub := h, src := 1, part := 0x80 + part }
      let r := (p.hub h).writeBytes w off (enabled (acc.2.1.take x.2))
      (St.merge acc.1 r.1, rest, p.setHub h (r.2.sectionWrite off x.2 (2000, 0, 0)))) (St.done, bs, p)
  (x.1, x.2.2)

/-! ### Packets of a crown (R39, R41, R262) -/

/-- A request of a crown: it waits for its router, and its answer is awaited. -/
def Panel.crownSend (p : Panel) (c : Crown) (bulk : Bool) (use : CrownUse) (h : Header) (units : List Codeword) : Panel :=
  p.modCrown c fun k =>
    { k with
      nextSeq := (k.nextSeq + 1) % 65536
      outq := k.outq ++ [{ seq := k.nextSeq, bulk := bulk, hdr := { h with seq := k.nextSeq }, units := units }]
      asked := k.asked ++ [(k.nextSeq, use)] }

/-- The physical column of a request's target. -/
def Panel.targetCol (p : Panel) (ga : Nat) : Nat :=
  match p.decodeGA ga with
  | .error _ => 10
  | .ok t => match t with
    | .spad x y _ => siteC ((p.lsite x y).getD 10)
    | .coreReg x y _ => siteC ((p.lsite x y).getD 10)
    | t => ((p.attachFor ga t).map fun i => siteC (attSite i)).getD 10

/-- The column that a packet of a crown takes. -/
def Panel.crownCol (p : Panel) (c : Crown) (x : OutPkt) : Option Nat :=
  if x.bulk then p.bulkCol c (p.targetCol x.hdr.ga) else p.controlCol c

/-- The local answer of a crown's request that its source refuses (R51). -/
def Panel.crownLocal (p : Panel) (c : Crown) (x : OutPkt) (st : Nat) : Panel :=
  let h : Header := { opcode := Opc.completion, vc := 1, ga := x.hdr.ga, seq := x.seq, status := st }
  p.modCrown c fun k => { k with arr := put k.arr 1 (look [] k.arr 1 ++ [Packet.mk' h []]) }

/-- Packets of a crown injected, in order, while its routers take them. -/
def Panel.crownPull (c : Crown) : Nat → Panel → Panel
  | 0, p => p
  | n + 1, p =>
    match (p.crown c).outq with
    | [] => p
    | x :: rest =>
      let taken (p : Panel) : Panel := p.modCrown c fun k => { k with outq := rest }
      match p.crownCol c x with
      | none => Panel.crownPull c n ((taken p).crownLocal c x St.siteRetired)
      | some col => match p.inject (.crown c col) x.hdr x.units with
        | (.stall, _) => p
        | (.sent _, p) => Panel.crownPull c n (taken p)
        | (.refused st, p) => Panel.crownPull c n ((taken p).crownLocal c x st)

/-- The use of an answer that a crown awaits, and the crown without it. -/
def CrownDie.matched (k : CrownDie) (seq : Nat) : Option (CrownUse × CrownDie) :=
  match k.asked.find? (·.1 = seq) with
  | none => none
  | some x => some (x.2, { k with asked := k.asked.filter (·.1 ≠ seq) })

/-! ### Hokuid answers -/

/-- An answer to a Hokuid request; a session that has been closed gets none. -/
def Panel.hokuidAnswer (p : Panel) (c : Crown) (n tag status : Nat) (body : List Byte) : Panel :=
  match find (p.crown c).sessions n with
  | none => p
  | some s =>
    (p.modCrown c fun k => { k with sessions := put k.sessions n { s with waiting := s.waiting - 1 } }).emit
      (.hokuid c n tag status body)

/-! ### Requests (R360–R363) -/

def Req.op (r : Req) : Nat := leAt r.bytes 0 1
def Req.rtag (r : Req) : Nat := leAt r.bytes 2 2

/-- The 16-byte completion of a request. -/
def Req.completion (r : Req) (handle status : Nat) (held : Bool) (model : Nat) : List Byte :=
  leBytes 4 handle ++ leBytes 2 r.rtag ++ leBytes 1 status ++ leBytes 1 (b2n held) ++ leBytes 1 model ++ leBytes 1 r.op ++
    List.replicate 6 0

def Panel.qset (p : Panel) (q : Nat) : QueueSet := look {} p.qsets q
def Panel.setQ (p : Panel) (q : Nat) (s : QueueSet) : Panel := { p with qsets := put p.qsets q s }
def Panel.modQ (p : Panel) (q : Nat) (f : QueueSet → QueueSet) : Panel := p.setQ q (f (p.qset q))

/-- A request completes: its completion is due to its queue set, unless the set has been disabled since (R358); or its Hokuid
session gets its answer. -/
def Panel.finishReq (p : Panel) (r : Req) (handle status : Nat) (held : Bool) (model : Nat) : Panel :=
  let bs := r.completion handle status held model
  match r.src with
  | .set q gen _ => p.modQ q fun s =>
      if s.on ∧ s.gen = gen then { s with fetched := s.fetched - 1, due := s.due ++ [bs] } else s
  | .session c n tag => p.hokuidAnswer c n tag status bs

/-- The request at the head of a crown's queue, when its opcode is the one named. -/
def Panel.nextReq (p : Panel) (c : Crown) (op : Nat → Bool) : Option (Req × Panel) :=
  match (p.crown c).reqs with
  | [] => none
  | r :: rest => if op r.op then some (r, p.modCrown c fun k => { k with reqs := rest }) else none

/-! ### Output queues (R275, R366) -/

/-- Entries of a ring. -/
def QueueSet.tcqSize (s : QueueSet) : Nat := 2 ^ bits (rfGet s.regs 0).toNat 19 15
def QueueSet.rcqSize (s : QueueSet) : Nat := 2 ^ bits (rfGet s.regs 0).toNat 14 10
def QueueSet.sqSize (s : QueueSet) : Nat := 2 ^ bits (rfGet s.regs 0).toNat 9 5

/-- TCQ room: the tail counts records committed and not yet written. -/
def QueueSet.tcqRoom (s : QueueSet) : Nat :=
  s.tcqSize - 1 - ((s.tcqt + s.tcqSize - s.tcqHead) % s.tcqSize + s.tdue.length)

/-- The host link is up (R370, R371). -/
def Panel.hostUp (p : Panel) : Bool := !(p.crown .north).lost && ((p.crown .north).rd Reg.HOST_STATUS).testBit 31

/-- HOST_FNPART of a function: the partition that it is bound to. -/
def Panel.fnPart (p : Panel) (f : Nat) : Option Nat :=
  let v := (p.crown .north).rd (Reg.HOST_FNPART + 4 * f)
  if v.testBit 31 then some (v % 32) else none

/-- The function that owns a queue set. -/
def Panel.qOwner (p : Panel) (q : Nat) : Option Nat :=
  let v := (p.crown .north).rd (Reg.HOST_QOWN + 4 * (q / 4))
  let b := bits v (8 * (q % 4) + 7) (8 * (q % 4))
  if b.testBit 7 then some (b % 32) else none

end Sys2Proof.Machine
end

