-- ==== Sys2Proof/Machine/HostPort.lean ====
section
/-! DEFINITION. The host port: functions and their registers, the BAR4 window, queue sets, doorbells, fetch and delivery
(R351–R368, R371, R372). -/

namespace Sys2Proof.Machine

open Host (Outcome)

/-! ### Functions -/

def Panel.fn (p : Panel) (f : Nat) : HostFnSt := look {} p.fns f
def Panel.setFn (p : Panel) (f : Nat) (k : HostFnSt) : Panel := { p with fns := put p.fns f k }
def Panel.modFn (p : Panel) (f : Nat) (g : HostFnSt → HostFnSt) : Panel := p.setFn f (g (p.fn f))

/-- Counters of the north crown's HOST_ block. -/
def Panel.hostBump (p : Panel) (off : Nat) : Panel := p.modCrown .north fun k => k.bump off

/-- A clamp of a request or a register write of a set (R364). -/
def Panel.clamped (p : Panel) (q : Nat) (any : Bool) : Panel := if any then p.hostBump (Reg.HOST_CLAMP_CNT + 4 * q) else p

/-- The first refused access of a function (R372). -/
def Panel.hostErr (p : Panel) (f : Nat) (wr : Bool) (status seg set off : Nat) : Panel :=
  p.modFn f fun k =>
    if (rfGet k.regs Reg.HOST_FN_ERR).toNat.testBit 63 then k
    else
      { k with
        regs := rfSet k.regs Reg.HOST_FN_ERR (BitVec.ofNat 64 (2 ^ 63 + b2n wr * 2 ^ 62 + status % 256 * 2 ^ 54 +
          seg % 64 * 2 ^ 48 + set % 4096 * 2 ^ 36 + off % 2 ^ 36)) }

/-- A refusal of R354 or R356: counted and recorded. -/
def Panel.hostRefuse (p : Panel) (f : Nat) (wr : Bool) (status seg set off : Nat) : Panel :=
  (p.hostBump Reg.HOST_PROT_CNT).hostErr f wr status seg set off

/-! ### BAR4 (R353, R354) -/

/-- Size of a function's BAR4 (R352). -/
def barSize (f : Nat) : Nat := if f = 0 then 64 * 2 ^ 30 else 2 ^ 30

/-- A word of HOST_SEG. -/
def Panel.seg (p : Panel) (f s w : Nat) : Nat := (p.crown .north).rd (Reg.HOST_SEG + 16 * (64 * f + s) + 8 * w)

/-- Checks 1 to 3 of R354: the partition and global address of a request, or the status recorded. -/
def Panel.barCheck (p : Panel) (f off len : Nat) (wr : Bool) : Except (Nat × Panel) (Nat × Nat) :=
  let size := barSize f / 64
  let s := off / size
  let t := off % size
  let w := p.seg f s 0
  match p.fnPart f with
  | none => .error (St.notPermitted, p)
  | some part =>
    if s ∈ (p.fn f).shut ∨ ¬ w.testBit 63 ∨ ¬ w.testBit (if wr then 61 else 62) then .error (St.notPermitted, p)
    else if 4096 * (p.seg f s 1 % 2 ^ 20 + 1) < t + len ∨ size < t + len then .error (St.notPermitted, p)
    else match p.decodeGA (w % 2 ^ 56 + t) with
      | .error st => .error (st, p.bumpSh Reg.PANEL_ADDR_ERR_CNT)
      | .ok _ => .ok (part, w % 2 ^ 56 + t)

/-- A range of addresses cut at 1,024-byte boundaries, so that each packet meets R181. -/
def barCuts : Nat → Nat → Nat → List (Nat × Nat)
  | 0, _, _ => []
  | f + 1, ga, n =>
    if n = 0 then []
    else
      let m := min n (1024 - ga % 1024)
      (ga, m) :: barCuts f (ga + m) (n - m)

/-- WRITE packets of a BAR4 write, in order. -/
def Panel.barWrites (p : Panel) (f id part : Nat) (cuts : List (Nat × Nat)) (bs : List Byte) : Panel :=
  (cuts.foldl (fun (acc : List Byte × Panel) x =>
    let h : Header := { opcode := Opc.write, ga := x.1, bytes := x.2, len := lenFor x.1 x.2, part := part }
    (acc.1.drop x.2, acc.2.crownSend .north true (.barWrite f id) h (unitsOf x.1 (acc.1.take x.2)))) (bs, p)).2

/-- READ_REQ packets of a BAR4 read, in order; their return address is the crown's own space. -/
def Panel.barReads (p : Panel) (f id part : Nat) (cuts : List (Nat × Nat)) : Panel :=
  ((List.range cuts.length).zip cuts).foldl (fun p x =>
    let h : Header := { opcode := Opc.readReq, ga := x.2.1, bytes := x.2.2, len := 1, part := part }
    p.crownSend .north true (.barRead f id x.1) h (unitsOf 0 (leBytes 32 (gaCrown .north 0 + x.2.1 % 32)))) p

/-- BAR4_WRITE. -/
def execBar4Write (fn : HostFn) (off : Nat) (payload : List Byte) (s : State) : Outcome State Fault Refusal :=
  s.onPanel fun p =>
    if ¬ p.hostUp ∨ payload.isEmpty then p
    else
      let seg := off / (barSize fn / 64)
      match p.barCheck fn off payload.length true with
      | .error (st, p) => p.hostRefuse fn true st seg 0 off
      | .ok (part, ga) =>
        let cuts := barCuts (payload.length / 1024 + 2) ga payload.length
        let k := p.fn fn
        (p.setFn fn { k with
            nextId := k.nextId + 1
            writes := k.writes ++ [(k.nextId, cuts.length, seg, off)] }).barWrites fn k.nextId part cuts payload

/-- BAR4_READ. -/
def execBar4Read (fn : HostFn) (off len : Nat) (s : State) : Outcome State Fault Refusal :=
  s.onPanel fun p =>
    if ¬ p.hostUp ∨ len = 0 then p
    else
      match p.barCheck fn off len false with
      | .error (st, p) => (p.hostRefuse fn false st (off / (barSize fn / 64)) 0 off).emit (.hostAbort fn off)
      | .ok (part, ga) =>
        let cuts := barCuts (len / 1024 + 2) ga len
        let k := p.fn fn
        (p.setFn fn { k with
            nextId := k.nextId + 1
            reads := k.reads ++ [{ id := k.nextId, since := p.dial, off := off, len := len, left := cuts.length }] }).barReads
          fn k.nextId part cuts

/-- The answer of a WRITE packet of BAR4: the first failing answer of a request refuses it. -/
def Panel.barWriteAnswer (p : Panel) (f id status : Nat) : Panel :=
  let k := p.fn f
  match k.writes.find? (·.1 = id) with
  | none => p
  | some (_, left, seg, off) =>
    let failed := left ≥ 2 ^ 32
    let left' := left - 1
    let bad := ¬ St.ok status ∧ ¬ failed
    let left' := if bad then left' + 2 ^ 32 else left'
    let rest := if left' % 2 ^ 32 = 0 then k.writes.filter (·.1 ≠ id)
      else k.writes.map fun w => if w.1 = id then (id, left', seg, off) else w
    let p := p.setFn f { k with writes := rest }
    if bad then p.hostRefuse f true status seg 0 off else p

/-- A BAR4 read whose last answer has come. -/
def Panel.barReadEnd (p : Panel) (f : Nat) (r : BarRead) : Panel :=
  let p := p.modFn f fun k => { k with reads := k.reads.filter (·.id ≠ r.id) }
  match r.status with
  | none => p.emit (.hostData f r.off (r.data.flatMap (·.2)) r.poison)
  | some st => (p.hostRefuse f false st (r.off / (barSize f / 64)) 0 r.off).emit (.hostAbort f r.off)

/-- The answer of a READ_REQ packet of BAR4. -/
def Panel.barReadAnswer (p : Panel) (f id piece status : Nat) (data : List Byte) (bad : Bool) : Panel :=
  match (p.fn f).reads.find? (·.id = id) with
  | none => p
  | some r =>
    let fails := ¬ St.ok status ∧ status ≠ St.uncorrectable
    let r := { r with
      left := r.left - 1
      data := put r.data piece data
      poison := r.poison || bad || status == St.uncorrectable
      status := if fails ∧ r.status.isNone then some status else r.status }
    if r.left = 0 then p.barReadEnd f r
    else p.modFn f fun k => { k with reads := k.reads.map fun x => if x.id = id then r else x }

/-- BAR4_READ_TIMEOUT: the oldest read without answer for 5 ms. -/
def execBar4ReadTimeout (fn : HostFn) (s : State) : Outcome State Fault Refusal :=
  s.onPanel fun p =>
    match (p.fn fn).reads with
    | [] => p
    | r :: rest =>
      if p.since r.since (5 * ms) then
        ((p.modFn fn fun k => { k with reads := rest }).hostErr fn false St.timedOut (r.off / (barSize fn / 64)) 0 r.off).emit
          (.hostAbort fn r.off)
      else p

/-! ### Queue sets (R356–R359) -/

/-- A ring index clamped (R364): the index, and whether it needed a clamp. -/
def clampIndex (v size : Nat) : Nat × Bool := if v < size then (v, false) else (size - 1, true)

/-- A doorbell taking effect. -/
def Panel.ring (p : Panel) (which q value : Nat) : Panel :=
  let s := p.qset q
  if ¬ s.on then p
  else
    let size := if which = 0 then s.sqSize else if which = 1 then s.rcqSize else s.tcqSize
    let x := clampIndex value size
    let s := if which = 0 then { s with sqTail := x.1 } else if which = 1 then { s with rcqHead := x.1 } else { s with tcqHead := x.1 }
    (p.setQ q s).clamped q x.2

/-- A write of a doorbell: refused for a function that does not own the set, held behind the function's BAR4 writes (R355),
else taken. -/
def Panel.doorbell (p : Panel) (f which q : Nat) (value : W64) : Panel :=
  let v := value.toNat % 2 ^ 32
  if p.qOwner q ≠ some f then p.hostRefuse f true St.notPermitted 0x3F q (4096 * q + 4 * which)
  else
    let k := p.fn f
    match k.writes.getLast? with
    | none => if k.bells.isEmpty then p.ring which q v
        else p.setFn f { k with bells := k.bells ++ [{ after := 0, which := which, set := q, value := v }] }
    | some w => p.setFn f { k with bells := k.bells ++ [{ after := w.1, which := which, set := q, value := v }] }

/-- SQ_TAIL_DOORBELL. -/
def execSqTailDoorbell (fn : HostFn) (q : QSet) (value : W64) (s : State) : Outcome State Fault Refusal :=
  s.onPanel fun p => p.doorbell fn 0 q value

/-- RCQ_HEAD_DOORBELL. -/
def execRcqHeadDoorbell (fn : HostFn) (q : QSet) (value : W64) (s : State) : Outcome State Fault Refusal :=
  s.onPanel fun p => p.doorbell fn 1 q value

/-- TCQ_HEAD_DOORBELL. -/
def execTcqHeadDoorbell (fn : HostFn) (q : QSet) (value : W64) (s : State) : Outcome State Fault Refusal :=
  s.onPanel fun p => p.doorbell fn 2 q value

/-- DOORBELL_RELEASE: the oldest held doorbell whose earlier writes are all answered. -/
def execDoorbellRelease (fn : HostFn) (s : State) : Outcome State Fault Refusal :=
  s.onPanel fun p =>
    let k := p.fn fn
    match k.bells with
    | [] => p
    | b :: rest =>
      if k.writes.any fun w => w.1 ≤ b.after then p
      else (p.setFn fn { k with bells := rest }).ring b.which b.set b.value

/-- A size field clamped to its range (R357, R364). -/
def clampSize (v lo : Nat) : Nat × Bool := if v < lo then (lo, true) else if 16 < v then (16, true) else (v, false)

/-- A write of HOST_QCTL. -/
def Panel.qctlWrite (p : Panel) (f q : Nat) (value : W64) : Panel :=
  if p.qOwner q ≠ some f then p
  else
    let v := value.toNat % 2 ^ 32
    let s := p.qset q
    let old := (rfGet s.regs 0).toNat
    let t := clampSize (bits v 19 15) 6
    let r := clampSize (bits v 14 10) 4
    let a := clampSize (bits v 9 5) 4
    let low := if old.testBit 31 then old % 2 ^ 20 else t.1 * 2 ^ 15 + r.1 * 2 ^ 10 + a.1 * 2 ^ 5
    let any := (t.2 || r.2 || a.2) && !old.testBit 31 || decide (bits v 23 20 ≠ 0) || decide (bits v 4 0 ≠ 0)
    let en := if s.busy then false else v.testBit 31
    let new := b2n en * 2 ^ 31 + bits v 30 24 * 2 ^ 24 + low
    let s := { s with regs := rfSet s.regs 0 (BitVec.ofNat 64 new) }
    let s :=
      if en ∧ ¬ s.on then
        { s with
          on := true, gen := s.gen + 1, sqTail := 0, sqh := 0, rcqt := 0, rcqHead := 0, tcqt := 0, tcqHead := 0
          fetched := 0, due := [], tdue := [], unsig := 0 }
      else if ¬ en ∧ s.on then { s with on := false, busy := true, due := [], tdue := [], unsig := 0, downAt := p.dial }
      else s
    (p.setQ q s).clamped q any

/-- A write of another register of a set by its function: ignored while the set is enabled, but for HOST_QMOD's limits. -/
def Panel.qregWrite (p : Panel) (f q off : Nat) (value : W64) : Panel :=
  let s := p.qset q
  if p.qOwner q ≠ some f ∨ s.on then p
  else
    let v := value.toNat
    if off = 0x04 then
      let none' := bits v 15 8 = 0
      let cnt := if none' then 1 else bits v 15 8
      (p.setQ q { s with regs := put s.regs 0x04 (BitVec.ofNat 64 (cnt * 256 + v % 256)) }).clamped q
        (none' || decide (bits v 31 16 ≠ 0))
    else if off = 0x08 ∨ off = 0x10 ∨ off = 0x18 ∨ off = 0x20 then
      let al := if off = 0x08 then 64 else 16
      (p.setQ q { s with regs := rfSet s.regs off (BitVec.ofNat 64 (v - v % al)) }).clamped q (decide (v % al ≠ 0))
    else p

/-- HOST_QMOD of a set; its reset value is 0x101. -/
def QueueSet.qmod (s : QueueSet) : Nat := (look 0x101 s.regs 0x04).toNat

/-- HOST_QSTAT (R357). -/
def QueueSet.stat (s : QueueSet) : Nat :=
  s.sqh % 65536 * 2 ^ 48 + s.rcqt % 65536 * 2 ^ 32 + s.tcqt % 65536 * 2 ^ 16 + b2n s.busy * 2 + b2n s.on

/-- QUEUE_SET_ENABLE. -/
def execQueueSetEnable (fn : HostFn) (q : QSet) (value : W64) (s : State) : Outcome State Fault Refusal :=
  s.onPanel fun p => p.qctlWrite fn q value

/-- QUEUE_SET_DISABLE. -/
def execQueueSetDisable (fn : HostFn) (q : QSet) (value : W64) (s : State) : Outcome State Fault Refusal :=
  s.onPanel fun p => p.qctlWrite fn q value

/-- QUEUE_DISABLE_DONE. -/
def execQueueDisableDone (q : QSet) (s : State) : Outcome State Fault Refusal :=
  s.onPanel fun p => p.modQ q fun k => { k with busy := false }

/-! ### Requests (R360–R364) -/

/-- An FP16 value clamped: value and whether it needed a clamp. The range is given by two non-negative FP16 numbers. -/
def clampHalf (v lo hi nan : Nat) : Nat × Bool :=
  if 0x7C00 < v % 0x8000 then (nan, true)
  else if v < 0x8000 then (if v < lo then (lo, true) else if hi < v then (hi, true) else (v, false))
  else if v = 0x8000 ∧ lo = 0 then (v, false)
  else (lo, true)

/-- A byte list with `n` bytes at `i` replaced by a number's bytes. -/
def setLe (bs : List Byte) (i n v : Nat) : List Byte := bs.take i ++ leBytes n v ++ bs.drop (i + n)

/-- An ADMIT with its values clamped (R361, R364). The Nat is the model's `maxctx`, zero when there is none. -/
def clampAdmit (bs : List Byte) (maxctx : Nat) : List Byte × Bool :=
  let b1 := leAt bs 1 1
  let role3 := bits b1 2 1 = 3
  let b1' := if role3 then b1 - 2 else b1
  let plen := leAt bs 12 4
  let plen' := if plen = 0 then 1 else if maxctx ≠ 0 ∧ maxctx < plen then maxctx else plen
  let temp := leAt bs 20 2
  let temp' := if temp = 0x8000 then (0, true) else clampHalf temp 0 0x7BFF 0x3C00
  let topp := clampHalf (leAt bs 22 2) 0x0001 0x3C00 0x3C00
  let minp := clampHalf (leAt bs 24 2) 0 0x3C00 0
  let rpen := clampHalf (leAt bs 26 2) 0x2C00 0x4C00 0x3C00
  let specd := bits (leAt bs 29 1) 6 0
  let specd' := min specd 64
  let drafted := bits b1' 2 1 == 1
  let reserved := (!drafted && leAt bs 4 4 != 0) || (leAt bs 16 2).testBit 15 || decide (bits (leAt bs 18 2) 15 12 ≠ 0) || decide (bits (leAt bs 28 1) 7 6 ≠ 0) ||
    (leAt bs 29 1).testBit 7 || decide (leAt bs 55 1 ≠ 0) || decide (leAt bs 56 8 ≠ 0)
  let any := role3 || plen' != plen || temp'.2 || topp.2 || minp.2 || rpen.2 || specd' != specd || reserved
  let bs := setLe bs 1 1 b1'
  let bs := if drafted then bs else setLe bs 4 4 0
  let bs := setLe bs 12 4 plen'
  let bs := setLe bs 16 2 (leAt bs 16 2 % 2 ^ 15)
  let bs := setLe bs 18 2 (leAt bs 18 2 % 2 ^ 12)
  let bs := setLe bs 20 2 temp'.1
  let bs := setLe bs 22 2 topp.1
  let bs := setLe bs 24 2 minp.1
  let bs := setLe bs 26 2 rpen.1
  let bs := setLe bs 28 1 (leAt bs 28 1 % 64)
  let bs := setLe bs 29 1 specd'
  (setLe bs 55 9 0, any)

/-- A request with its values clamped, and whether any needed a clamp; a reserved opcode counts (R360). -/
def Panel.clampReq (p : Panel) (bs : List Byte) : List Byte × Bool :=
  let op := leAt bs 0 1
  if op = 1 then
    let m := bits (leAt bs 1 1) 7 4
    clampAdmit bs (match (look {} p.models m).desc with | some d => d.maxctx | none => 0)
  else (bs, decide (5 < op))

/-- SQ_FETCH: up to 32 entries from the head toward the tail, as far as the RCQ has entries for their completions. -/
def execSqFetch (q : QSet) (entries : List (BitVec 512)) (s : State) : Outcome State Fault Refusal :=
  if 32 < entries.length then .fault (.noSuchOperand "SQ_FETCH")
  else s.onPanel fun p =>
    let k := p.qset q
    let size := k.sqSize
    let used := (k.rcqt + k.rcqSize - k.rcqHead) % k.rcqSize
    let room := k.rcqSize - 1 - used - k.fetched - k.due.length
    let n := min (min ((k.sqTail + size - k.sqh) % size) (size - k.sqh)) (min room entries.length)
    if ¬ k.on ∨ ¬ p.hostUp ∨ n = 0 then p
    else
      let fn := (p.qOwner q).getD 0
      let addr := (rfGet k.regs 0x08).toNat + 64 * k.sqh
      let p := (p.setQ q { k with sqh := (k.sqh + n) % size, fetched := k.fetched + n }).emit (.hostRead addr (64 * n))
      (entries.take n).foldl (fun p e =>
        let x := p.clampReq (leBytes 64 e.toNat)
        let r : Req := { src := .set q k.gen fn, part := p.fnPart fn, bytes := x.1 }
        (p.modCrown .north fun c => { c with reqs := c.reqs ++ [r] }).clamped q x.2) p

/-- HOST_NOP: a NOP or a reserved opcode completes with DONE. -/
def execHostNop (c : Crown) (s : State) : Outcome State Fault Refusal :=
  s.onPanel fun p =>
    match p.nextReq c fun op => op == 0 || decide (5 < op) with
    | none => p
    | some (r, p) => p.finishReq r 0 St.done false 0

/-! ### Delivery (R366, R367) -/

/-- The interrupt of a set; it covers everything that its tail word reports. -/
def Panel.signal (p : Panel) (q : Nat) : Panel :=
  let k := p.qset q
  (p.setQ q { k with unsig := 0 }).emit (.interrupt ((p.qOwner q).getD 0) (bits (rfGet k.regs 0).toNat 29 24))

/-- The tail word of a set. -/
def Panel.tailWord (p : Panel) (q : Nat) : Panel :=
  let k := p.qset q
  p.emit (.hostWrite (rfGet k.regs 0x20).toNat
    (leBytes 4 k.sqh ++ leBytes 4 k.rcqt ++ leBytes 4 k.tcqt ++ List.replicate 4 0))

/-- REQUEST_COMPLETION_WRITE: the oldest completion due, else the oldest token record due, then the tail word, then the
interrupt when one is due. -/
def execRequestCompletionWrite (q : QSet) (s : State) : Outcome State Fault Refusal :=
  s.onPanel fun p =>
    let k := p.qset q
    let ien := (rfGet k.regs 0).toNat.testBit 30
    if ¬ k.on ∨ ¬ p.hostUp then p
    else match k.due, k.tdue with
      | bs :: rest, _ =>
        let addr := (rfGet k.regs 0x10).toNat + 16 * k.rcqt
        let p := (p.setQ q { k with due := rest, rcqt := (k.rcqt + 1) % k.rcqSize }).emit (.hostWrite addr bs)
        let p := p.tailWord q
        if ien then p.signal q else p
      | [], bs :: rest =>
        let addr := (rfGet k.regs 0x18).toNat + 16 * k.tcqt
        let p := (p.setQ q { k with
          tdue := rest, tcqt := (k.tcqt + 1) % k.tcqSize, unsig := k.unsig + 1
          unsigAt := if k.unsig = 0 then p.dial else k.unsigAt }).emit (.hostWrite addr bs)
        let p := p.tailWord q
        if ien ∧ bits k.qmod 15 8 ≤ k.unsig + 1 then p.signal q else p
      | [], [] => p

/-- INTERRUPT_DELAY_EXPIRE. -/
def execInterruptDelayExpire (q : QSet) (s : State) : Outcome State Fault Refusal :=
  s.onPanel fun p =>
    let k := p.qset q
    if k.on ∧ p.hostUp ∧ (rfGet k.regs 0).toNat.testBit 30 ∧ 0 < k.unsig ∧ p.since k.unsigAt (k.qmod % 256 * us) then p.signal q
    else p

/-! ### Registers of the root firmware and of the functions -/

/-- HOST_FNPART[f] (R351): ignored when another function has the partition. -/
def Panel.fnpartWrite (p : Panel) (f : Nat) (value : W64) : Panel :=
  let v := value.toNat &&& 0x8000001F
  if v.testBit 31 ∧ (List.range 32).any fun g => decide (g ≠ f) && decide (p.fnPart g = some (v % 32)) then
    p.hostBump Reg.HOST_CFG_IGN_CNT
  else p.modCrown .north fun k => k.wr (Reg.HOST_FNPART + 4 * f) v

/-- Two addresses decode to the same target (R353). -/
def Panel.sameTarget (p : Panel) (a b : Nat) : Bool :=
  match p.decodeGA a, p.decodeGA b with
  | .ok (.spad x y _), .ok (.spad x' y' _) => x == x' && y == y'
  | .ok (.hbm h _), .ok (.hbm h' _) => if a.testBit 41 || b.testBit 41 then h == h' && a.testBit 41 == b.testBit 41 else true
  | _, _ => false

/-- HOST_SEG[f, s] (R353): word 0 with `valid` is checked against the limit that word 1 holds; word 1 of a valid segment
against its base. -/
def Panel.segWrite (p : Panel) (f sg word : Nat) (value : W64) : Panel :=
  let w0 := if word = 0 then value.toNat &&& 0xE0FFFFFFFFFFFFFF else p.seg f sg 0
  let w1 := if word = 1 then value.toNat % 2 ^ 20 else p.seg f sg 1
  let base := w0 % 2 ^ 56
  let bad := w0.testBit 63 &&
    (!(bits base 55 52 == 0 || bits base 55 52 == 2) || base % 4096 != 0 || !p.sameTarget base (base + 4096 * (w1 + 1) - 1))
  if bad then p.hostBump Reg.HOST_CFG_IGN_CNT
  else p.modCrown .north fun k =>
    k.wr (Reg.HOST_SEG + 16 * (64 * f + sg) + 8 * word) (if word = 0 then w0 else w1)

/-- HOST_FN_ERR_CLR. -/
def execHostFnErrClr (fn : HostFn) (value : W64) (s : State) : Outcome State Fault Refusal :=
  s.onPanel fun p =>
    if value.getLsbD 0 then p.modFn fn fun k => { k with regs := rfSet k.regs Reg.HOST_FN_ERR 0 } else p

/-- HOST_FN_ID (R372). -/
def Panel.fnId (p : Panel) (f : Nat) : Nat :=
  match p.fnPart f with
  | none => f
  | some part => 2 ^ 31 + part * 256 + f

/-! ### DOE (R368) -/

/-- DOE_REQUEST: a request object of up to 16 KiB is taken; a longer one sets DOE Error. -/
def execDoeRequest (request : SpdmRequest) (length : Nat) (s : State) : Outcome State Fault Refusal :=
  s.onPanel fun p =>
    if ¬ p.hostUp ∨ p.doeError then p
    else if 16384 < length then { p with doeError := true }
    else { p with doe := p.doe ++ [request] }

/-- DOE_ABORT. -/
def execDoeAbort (s : State) : Outcome State Fault Refusal :=
  s.onPanel fun p => { p with doe := [], doeError := false }

end Sys2Proof.Machine
end

