-- ==== Sys2Proof/Machine/ChangeOps.lean ====
section
/-! DEFINITION. The end of a protection change: its close lifted, its status shown and answered (R485, R486, R488). -/

namespace Sys2Proof.Machine

/-- MGMT_RCMD_STAT (R496). -/
def rcmdStat (state moves status kind ctr : Nat) : Nat :=
  state % 8 * 2 ^ 61 + moves % 16 * 2 ^ 57 + status % 256 * 2 ^ 49 + kind % 8 * 2 ^ 46 + ctr % 2 ^ 46

def Panel.showStat (p : Panel) (state moves status kind ctr : Nat) : Panel :=
  p.setSh Reg.MGMT_RCMD_STAT (rcmdStat state moves status kind ctr)

/-- Windows, bands and segments without a close, and cores without a staged value; with `back`, the cores drained for it go on. -/
def Panel.liftClose (p : Panel) (back : Bool) : Panel :=
  { p with
    ports := p.ports.map fun (x : Nat × PortDie) => (x.1, { x.2 with shut := [] })
    hubs := p.hubs.map fun (x : Nat × Hub) => (x.1, { x.2 with shut := [] })
    fns := p.fns.map fun (x : Nat × HostFnSt) => (x.1, { x.2 with shut := [] })
    cores := p.cores.map fun (x : Nat × Core) =>
      if x.2.staged.isNone then x
      else
        let k : Core := { x.2 with staged := none }
        (x.1, if back ∧ k.seq.state = .test then k.cmd 2 else k) }

/-- A protection change ended: 4 done, or 5 failed; its answer goes to the session that sent it. -/
def Panel.endChange (p : Panel) (ch : Change) (state status : Nat) : Panel :=
  let p := (p.liftClose (state == 5)).showStat state ch.moves status 1 ch.cmd.ctr
  let p := { p with change := none, rcmds := p.rcmds.drop 1 }
  p.hokuidAnswer ch.cmd.c ch.cmd.session ch.cmd.tag status (leBytes 8 (p.sh Reg.MGMT_RCMD_STAT))

/-- A crown is lost before step 2 of a change has ended: the other one cancels it (R488). -/
def Panel.changeOrphan (p : Panel) : Panel :=
  match p.change with
  | none => p
  | some ch => if ch.staged then p else p.endChange ch 5 St.timedOut

end Sys2Proof.Machine
end

