-- ==== Sys2Proof/Machine/RampOps.lean ====
section
/-! DEFINITION. The ramp bucket (R410) and the floors of sites (R411). Power is in milliwatts; a floor is held in quarters of a
watt. -/

namespace Sys2Proof.Machine

/-- What the bucket holds now: it refills at `rate` W per µs up to `burst` W. -/
def Panel.bucketNow (p : Panel) : Nat :=
  let v := p.sh Reg.PWR_RAMP
  min (bits v 15 0 * 1000) (p.bucket + (p.dial - p.bucketAt) * bits v 23 16)

/-- The bucket with a cost taken. -/
def Panel.spend (p : Panel) (cost : Nat) : Panel := { p with bucket := p.bucketNow - cost, bucketAt := p.dial }

/-- Input milliwatts that a rise of load costs. -/
def rampCost (load : Nat) : Nat := cdiv (load * 100) 88

/-- A rise that waits: the µs of its wait are counted when it goes on. -/
def Panel.rampWait (p : Panel) : Panel := { p with rampSince := some (p.rampSince.getD p.dial) }
def Panel.rampGo (p : Panel) : Panel :=
  match p.rampSince with
  | none => p
  | some t => ({ p with rampSince := none }).bumpSh Reg.PWR_RAMP_WAIT_CNT ((p.dial - t) / us)

/-- A rise taken from the bucket when the bucket covers it; else it waits. -/
def Panel.rise (p : Panel) (load : Nat) : Option Panel :=
  if rampCost load ≤ p.bucketNow then some (p.rampGo.spend (rampCost load)) else none

/-- A site's floor, in milliwatts. -/
def Core.floorMw (k : Core) : Nat := k.rd Reg.PWR_FLOOR % 256 * 250
def Core.setFloor (k : Core) (quarters : Nat) : Core :=
  k.wr Reg.PWR_FLOOR (setFld (rfGet k.regs Reg.PWR_FLOOR) 7 0 (min 128 quarters)).toNat

/-- Floors that are to rise to a power: the rise waits for the bucket (R411, R413). -/
def Panel.wantFloors (p : Panel) (sites : List Nat) (mw : Nat) : Panel :=
  let q := min 128 (cdiv mw 250)
  { p with pow := { p.pow with
      rises := (sites.filter fun n => (p.core n).floorMw < 250 * q).foldl (fun m n => put m n (max q (look 0 m n))) p.pow.rises } }

/-- Waiting floors raised as far as the bucket covers, shared equally among their sites (R410). -/
def Panel.feedRises (p : Panel) : Panel :=
  let low := p.pow.rises.filter fun (x : Nat × Nat) => decide ((p.core x.1).floorMw < 250 * x.2)
  let each := if low.isEmpty then 0 else p.bucketNow * 88 / 100 / low.length / 250
  let p := low.foldl (fun p x =>
    let f := (p.core x.1).floorMw / 250
    let new := min (f + each) x.2
    (p.spend (rampCost ((new - f) * 250))).modCore x.1 fun k => k.setFloor new) p
  { p with pow := { p.pow with rises := low.filter fun (x : Nat × Nat) => decide ((p.core x.1).floorMw < 250 * x.2) } }

/-- Floors of sites raised towards a power, as far as the bucket covers the rise. -/
def Panel.raiseFloors (p : Panel) (sites : List Nat) (mw : Nat) : Panel := (p.wantFloors sites mw).feedRises

end Sys2Proof.Machine
end

