-- ==== Sys2Proof/Machine/ClockOps.lean ====
section
/-! DEFINITION. Core frequency (R387–R390) and setpoint changes (R391–R393). -/

namespace Sys2Proof.Machine

/-! ### Core frequency -/

/-- The codes that limit a core, in the order of R388: setpoint, fused maximum, and the caps of management, temperature and
power. -/
def Core.limits (k : Core) : List Nat :=
  let cap := k.rd Reg.CLK_CAP
  [k.clk.sp, 0x22 + k.rd Reg.CORE_FMAX % 32, bits cap 5 0, bits cap 17 12, bits cap 23 18]

/-- The code that the limits allow, and the first limit that governs. -/
def Core.target (k : Core) : Nat × Nat :=
  let m := k.limits.foldl min 0x3F
  (m, k.limits.findIdx (· == m))

def Core.code (k : Core) : Nat := bits (k.rd Reg.CLK_CORE_STAT) 31 26

/-- The core runs at what its limits allow. -/
def Core.runAt (k : Core) : Core :=
  let x := k.target
  let k := (k.setF Reg.CLK_CORE_STAT 31 26 x.1).setF Reg.CLK_CORE_STAT 25 23 x.2
  { k with clk := { k.clk with raiseAt := none } }

/-- A raised cap whose instant has come takes effect. -/
def Core.takeRaise (k : Core) (dial : Nat) : Core :=
  match k.clk.raiseAt with
  | none => k
  | some t => if t ≤ dial then k.runAt else k

/-- Caps changed: a lower one acts at once, a raised one at the first whole µs that is later (R389). -/
def Core.withCaps (k : Core) (dial : Nat) (f : Core → Core) : Core :=
  let k := f (k.takeRaise dial)
  if k.target.1 ≤ k.code then k.runAt
  else { k with clk := { k.clk with raiseAt := some (k.clk.raiseAt.getD (dial / us * us + us)) } }

/-- CLK_CAP.mgmt, CLK_CAP.thm and CLK_CAP.pwr set. -/
def Core.setMgmt (k : Core) (dial c : Nat) : Core := k.withCaps dial fun k => k.setF Reg.CLK_CAP 5 0 c
def Core.setThm (k : Core) (dial c : Nat) : Core := k.withCaps dial fun k => k.setF Reg.CLK_CAP 17 12 c
def Core.setPwr (k : Core) (dial c : Nat) : Core := k.withCaps dial fun k => k.setF Reg.CLK_CAP 23 18 c
def Core.mgmtCap (k : Core) : Nat := k.rd Reg.CLK_CAP % 64
def Core.thmCap (k : Core) : Nat := bits (k.rd Reg.CLK_CAP) 17 12

/-- A write of CLK_CAP: `mgmt` above 0x2C is ignored. -/
def Core.capWrite (k : Core) (dial : Nat) (value : W64) : Core :=
  let c := value.toNat % 64
  if 0x2C < c then k else k.setMgmt dial c

/-- A core just powered follows the setpoint in force under its own caps (R390). -/
def Core.clockUp (k : Core) (sp : Nat) (ssc : Bool) : Core :=
  ({ k with clk := { sp := sp } } : Core).runAt.setF Reg.CLK_CORE_STAT 22 22 (b2n ssc)

/-! ### The setpoint -/

def Panel.spState (p : Panel) : Nat := bits (p.sh Reg.CLK_SP_CTL) 29 28
def Panel.spPending (p : Panel) : Bool := p.spState == 1 || p.spState == 2
def Panel.setSpState (p : Panel) (n : Nat) : Panel := p.setShF Reg.CLK_SP_CTL 29 28 n

/-- A pending change whose instant has passed is the setpoint in force. -/
def Panel.spSettle (p : Panel) : Panel :=
  if p.spPending ∧ p.spAt + 2 ≤ p.dial then
    let v := p.sh Reg.CLK_SP_CTL
    (((p.setShF Reg.CLK_SP 5 0 (v % 64)).setShF Reg.CLK_SP 27 27 (bits v 27 27))).setSpState 0
  else p

def Panel.setpoint (p : Panel) : Nat := p.spSettle.sh Reg.CLK_SP % 64
def Panel.spread (p : Panel) : Bool := (p.spSettle.sh Reg.CLK_SP).testBit 27

def Panel.ignSp (p : Panel) : Panel := p.bumpSh Reg.CLK_SP_IGN_CNT

/-- Every powered site. -/
def Panel.poweredSites (p : Panel) : List Nat := (List.range 336).filter p.powered
def Panel.eachPowered (p : Panel) (f : Core → Core) : Panel := p.poweredSites.foldl (fun p n => p.modCore n f) p

/-- A site's arm (R392 step 1). -/
def Core.arm (k : Core) (t code : Nat) (ssc : Bool) : Core :=
  (k.wr Reg.CLK_SP_ARM t).wr Reg.CLK_SP_ARMCTL (2 ^ 31 + b2n ssc * 2 ^ 30 + code)
def Core.armed (k : Core) : Bool := (k.rd Reg.CLK_SP_ARMCTL).testBit 31
def Core.disarm (k : Core) : Core := k.setF Reg.CLK_SP_ARMCTL 31 31 0

/-- Step 3 of R392: the change is cancelled at every site. -/
def Panel.spCancel (p : Panel) : Panel := ((p.eachPowered Core.disarm).setSpState 3).bumpSh Reg.CLK_SP_ABORT_CNT

/-- A change accepted: every powered site is armed. -/
def Panel.spArm (p : Panel) (t code : Nat) (ssc : Bool) : Panel :=
  let p := ((p.setShF Reg.CLK_SP_CTL 5 0 code).setShF Reg.CLK_SP_CTL 27 27 (b2n ssc)).setSpState 2
  ({ p with spAt := t, spChecked := false } : Panel).eachPowered fun k => k.arm t code ssc

/-- The halves have merged (R449). -/
def Panel.merged (p : Panel) : Bool := (p.sh Reg.BOOT_STATUS).testBit 21

/-- Site load at the last sample, mW. -/
def Core.siteMw (k : Core) : Nat := k.rd Reg.PWR_SITE_VI % 1024 * 100

def freqMhz (c : Nat) : Nat := 400 + 25 * c

/-- A core's load at another code (R417): by frequency and the square of the site's fused voltage. -/
def scaledMw (n mw old new : Nat) : Nat :=
  let v := Config.siteMv n old
  let w := Config.siteMv n new
  mw * freqMhz new * (w * w) / max 1 (freqMhz old * (v * v))

/-- The estimated rise of a setpoint increase drawn from the ramp bucket (R410), as far as the bucket covers it
(notes/assumptions/48.md). -/
def Panel.spDraw (p : Panel) (old new : Nat) : Panel :=
  if new ≤ old then p
  else p.spend (rampCost ((p.poweredSites.map fun n => let m := (p.core n).siteMw; scaledMw n m old new - m).sum))

/-- A request of a change to take place at T (R391). -/
def Panel.spRequest (p : Panel) (t code : Nat) (ssc : Bool) : Panel :=
  let p := p.spSettle
  if p.spPending ∨ 0x2C < code ∨ t < p.dial + 5 * ms ∨ ¬ p.merged then p.ignSp
  else (p.spDraw p.setpoint code).spArm t code ssc

/-- A cancel (R393). -/
def Panel.spCancelReq (p : Panel) : Panel :=
  let p := p.spSettle
  if p.spPending ∧ p.dial + 2 * ms ≤ p.spAt then p.spCancel else p.ignSp

/-- A write of CLK_SP_CTL. Without `go` and `cancel` it sets its two fields, unless a change is pending. -/
def Panel.spWrite (p : Panel) (value : W64) : Panel :=
  let v := value.toNat
  let p := p.spSettle
  let p1 := if v.testBit 30 then p.spCancelReq else p
  if v.testBit 31 then
    if p.spPending then p1.ignSp else p1.spRequest (p.sh Reg.CLK_SP_AT) (v % 64) (v.testBit 27)
  else if v.testBit 30 then p1
  else if p.spPending then p.ignSp
  else (p.setShF Reg.CLK_SP_CTL 5 0 (v % 64)).setShF Reg.CLK_SP_CTL 27 27 (bits v 27 27)

/-- A crown is lost before step 2 of R392 has ended: the change is cancelled (R393). -/
def Panel.spOrphan (p : Panel) : Panel :=
  let p := p.spSettle
  if p.spPending ∧ ¬ p.spChecked then p.spCancel else p

end Sys2Proof.Machine
end

