-- ==== Sys2Proof/Machine/Clocks.lean ====
section
/-! DEFINITION. Escapements, dial time, balance oscillators and setpoint changes (R373–R397). -/

namespace Sys2Proof.Machine

open Host (Outcome)

/-! ### Dial time (R377, R380) -/

/-- Counters whose value at the last 100 ms boundary a mesh read shows (R494). -/
def snapRegs : List Nat :=
  ((List.range 8).map fun i => Reg.MESH_LINK_UNITS + 8 * i) ++
    ((List.range 8).map fun i => Reg.MESH_THR1_CYC + 4 * i) ++
    [Reg.MESH_RETRY_CNT, Reg.MESH_LANE_REPAIR_CNT, Reg.MESH_DROP_CNT, Reg.CLK_STRETCH_CNT, Reg.CLK_HALT_CNT]

def Core.takeSnap (k : Core) : Core := { k with snap := snapRegs.foldl (fun m o => rfSet m o (rfGet k.regs o)) [] }

/-- Dial time one count on, modulo 2^64; a boundary of 100 ms takes the counters of R494. -/
def Panel.count (p : Panel) : Panel :=
  let p := { p with dial := (p.dial + 1) % 2 ^ 64 }
  if p.dial % (100 * ms) = 0 then { p with cores := p.cores.map fun (x : Nat × Core) => (x.1, x.2.takeSnap) } else p

/-- A nanosecond with nothing commanded: dial time counts on once the dial mark has been sent; a backward correction is
absorbed by one count every 2 ns (R376, R377, R380; notes/assumptions/5.md). -/
def Panel.idle (p : Panel) : Panel :=
  if ¬ p.dialRuns then p
  else if p.clkOwed = 0 then p.count
  else if p.clkHalf then ({ p with clkHalf := false, clkOwed := p.clkOwed - 1 } : Panel).count
  else { p with clkHalf := true }

/-! ### Escapements (R374, R380–R382) -/

def Panel.esc (p : Panel) (bit : Nat) : Bool := (p.sh Reg.CLK_ESC_STAT).testBit bit
def Panel.setEsc (p : Panel) (bit : Nat) (v : Bool) : Panel := p.setShF Reg.CLK_ESC_STAT bit bit (b2n v)
def Panel.locked (p : Panel) (c : Crown) : Bool := p.esc (30 - c.num)
def Panel.refHere (p : Panel) (c : Crown) : Bool := p.esc (28 - c.num)
def Panel.activeEsc (p : Panel) : Crown := if p.esc 31 then .south else .north
def Panel.unlock (p : Panel) (c : Crown) : Panel := p.setEsc (30 - c.num) false

/-- An alert raised to Hokuid (R480): an EVENT of kind 2. The manual gives its record no layout, so the record is empty here. -/
def Panel.alertOut (p : Panel) : Panel := p.emit (.event 2 [])

/-- REFERENCE_LOSS: the input is lost and its escapement unlocked; with both lost the active one enters holdover. -/
def execReferenceLoss (c : Crown) (s : State) : Outcome State Fault Refusal :=
  s.onPanel fun p =>
    if ¬ p.refHere c then p
    else
      let p := ((p.setEsc (28 - c.num) false).unlock c).bumpSh Reg.CLK_REF_LOSS_CNT
      if p.refHere c.other then p
      else ((p.setEsc 26 true).logCrown p.activeEsc (.crown p.activeEsc) { cls := 0x0F, unit := 1 }).alertOut

/-- ESCAPEMENT_LOCK: an escapement has tracked its input for 1 ms. The active one leaves holdover; the standby takes over by a
takeover. -/
def execEscapementLock (c : Crown) (s : State) : Outcome State Fault Refusal :=
  s.onPanel fun p =>
    if ¬ p.dialRuns ∨ (p.crown c).lost then p
    else
      let p := (p.setEsc (28 - c.num) true).setEsc (30 - c.num) true
      if p.activeEsc = c then p.setEsc 26 false else p

/-- The standby becomes active. The largest correction on any die, at most 8 ns, is a free value (notes/assumptions/19.md); the
panel's dial moves forward by it at once, or absorbs it. -/
def Panel.takeover (p : Panel) : Panel :=
  let new := p.activeEsc.other
  let (a, p) := p.draw
  let (b, p) := p.draw
  let corr := a.toNat % 9
  let back := b.getLsbD 0 && corr != 0
  let v := corr * 2 ^ 60 + b2n back * 2 ^ 59 + new.num * 2 ^ 58 + p.dial % 2 ^ 58
  let p := (((p.setEsc 31 (new == .south)).setEsc 26 false).bumpSh Reg.CLK_TAKEOVER_CNT).setSh Reg.CLK_LAST_TAKEOVER v
  let p := p.logCrown new (.crown new) { cls := 0x0F, unit := 0, addr := v }
  if back then { p with clkOwed := p.clkOwed + corr } else { p with dial := (p.dial + corr) % 2 ^ 64 }

/-- The standby escapement may take the active role. -/
def Panel.standbyReady (p : Panel) : Bool :=
  let o := p.activeEsc.other
  p.dialRuns && p.locked o && !(p.crown o).lost

/-- ESCAPEMENT_TAKEOVER: the active one is unlocked, its tree misses edges, or its crown is lost. -/
def execEscapementTakeover (treeLost : Bool) (s : State) : Outcome State Fault Refusal :=
  s.onPanel fun p =>
    if p.standbyReady ∧ (treeLost ∨ ¬ p.locked p.activeEsc ∨ (p.crown p.activeEsc).lost) then p.takeover else p

/-- A write of CLK_ESC_CMD: a handover, accepted only when the standby is locked. -/
def Panel.handover (p : Panel) (value : W64) : Panel := if value.getLsbD 0 ∧ p.standbyReady then p.takeover else p

/-- TREE_LOSS_FATAL: no tree for 2 µs; the panel stays out of service until its next start-up. -/
def execTreeLossFatal (s : State) : Outcome State Fault Refusal :=
  s.onPanel fun p =>
    if ¬ p.dialRuns ∨ p.esc 25 then p
    else
      let log (c : Crown) (p : Panel) : Panel :=
        if (p.crown c).lost then p else p.logCrown c (.crown c) { cls := 0x0F, level := 4, unit := 2, addr := p.sh Reg.CLK_LAST_TAKEOVER }
      let p := log .south (log .north (p.setEsc 25 true))
      ({ p with fatal := true } : Panel).alertOut

/-! ### Balance oscillators (R383–R385) -/

/-- CALIBRATION_WINDOW: the error of the last 10 µs, in units of 10 ppm. -/
def execCalibrationWindow (n : Site) (err : Int) (s : State) : Outcome State Fault Refusal :=
  s.onSite n fun k => k.setF Reg.CLK_CAL_ERR 15 0 (err % 65536).toNat

/-- DROOP_STRETCH: one cycle stretched by a number of steps, at most 8. -/
def execDroopStretch (n : Site) (steps : Nat) (s : State) : Outcome State Fault Refusal :=
  s.onCore n fun k =>
    if steps = 0 then k
    else (k.bump Reg.CLK_STRETCH_CNT).setF Reg.CLK_DROOP_STAT 3 0 (max (k.rd Reg.CLK_DROOP_STAT % 16) (min steps 8))

/-- SUPPLY_HALT: the next edge is withheld. -/
def execSupplyHalt (n : Site) (s : State) : Outcome State Fault Refusal :=
  s.atCore n fun k p => p.setCore n { k.bump Reg.CLK_HALT_CNT with haltSince := some p.dial, clk := { k.clk with faulted := false } }

/-- HALT_SUPPLY_FAULT: a halt of 1 µs is reported to the power manager (R385, R408). -/
def execHaltSupplyFault (n : Site) (s : State) : Outcome State Fault Refusal :=
  s.atSite n fun k p =>
    match k.haltSince with
    | none => p
    | some t =>
      if k.clk.faulted ∨ ¬ p.since t us then p
      else
        let k := { k.bump Reg.PWR_SUPPLY_FLT_CNT with clk := { k.clk with faulted := true } }
        (p.setCore n k).logCore n { cls := 0x0A, unit := 0xFF, addr := bits (k.rd Reg.PWR_SITE_STAT) 29 22 }

/-- SUPPLY_RECOVERY: the withheld edge is released. -/
def execSupplyRecovery (n : Site) (s : State) : Outcome State Fault Refusal :=
  s.onSite n fun k => { k with haltSince := none, clk := { k.clk with faulted := false } }

/-! ### Caps and the setpoint (R389, R392) -/

/-- CAP_RAISE_APPLY. -/
def execCapRaiseApply (n : Site) (s : State) : Outcome State Fault Refusal :=
  s.atCore n fun k p => p.setCore n (k.takeRaise p.dial)

/-- SETPOINT_ARM_CHECK: between T − 4 ms and T − 1 ms the arms of every powered site that is not retired are read back. -/
def execSetpointArmCheck (s : State) : Outcome State Fault Refusal :=
  s.onPanel fun p =>
    if p.spPending ∧ ¬ p.spChecked ∧ p.spAt ≤ p.dial + 4 * ms ∧ p.dial + ms ≤ p.spAt then
      if p.poweredSites.all fun n => (p.site n).state == 3 || (p.core n).armed then { p with spChecked := true } else p.spCancel
    else p

/-- SETPOINT_SWITCH: a core's own dial time has reached T + 2. -/
def execSetpointSwitch (n : Site) (s : State) : Outcome State Fault Refusal :=
  s.atCore n fun k p =>
    if k.armed ∧ k.rd Reg.CLK_SP_ARM + 2 ≤ p.dial then
      let v := k.rd Reg.CLK_SP_ARMCTL
      let k := (k.takeRaise p.dial).disarm
      let k := ({ k with clk := { k.clk with sp := v % 64 } } : Core).runAt
      p.spSettle.setCore n (k.setF Reg.CLK_CORE_STAT 22 22 (bits v 30 30))
    else p

end Sys2Proof.Machine
end

