-- ==== Sys2Proof/Machine/CtxOps.lean ====
section
/-! DEFINITION. The context table, handles and the overflow list, token records and their delivery, messages of a group
(R246–R257, R273–R276, R336–R339). -/

namespace Sys2Proof.Machine

/-! ### The entry as sixteen words (R251) -/

def CtxEntry.words (e : CtxEntry) : List Nat :=
  [e.state % 8 * 2 ^ 61 + e.part % 32 * 2 ^ 56 + e.model % 16 * 2 ^ 52 + e.prio % 8 * 2 ^ 49 + b2n e.solo * 2 ^ 48 +
     e.role % 4 * 2 ^ 46 + b2n e.held * 2 ^ 45 + b2n e.oqf * 2 ^ 44 + e.odev % 4096 * 2 ^ 32 + e.handle % 2 ^ 32,
   e.pos % 2 ^ 32 * 2 ^ 32 + e.last % 2 ^ 32,
   e.gen % 2 ^ 32 * 2 ^ 32 + e.maxtok % 2 ^ 32,
   e.rgran % 8 * 2 ^ 61 + e.kvroot % 2 ^ 56,
   e.resmask % 2 ^ 64,
   e.plen % 2 ^ 32 * 2 ^ 32 + e.rslot % 2 ^ 16 * 2 ^ 16 + e.oq % 4096,
   e.side % 2 ^ 56,
   e.temp % 2 ^ 16 * 2 ^ 48 + e.topp % 2 ^ 16 * 2 ^ 32 + e.minp % 2 ^ 16 * 2 ^ 16 + e.rpen % 2 ^ 16,
   e.topk % 64 * 2 ^ 58 + e.specd % 128 * 2 ^ 51 + e.quantum % 2 ^ 16 * 2 ^ 16 + e.slice % 2 ^ 16,
   e.seed % 2 ^ 64, e.deadline % 2 ^ 64,
   e.draft % 2 ^ 32 * 2 ^ 32 + e.specacc % 2 ^ 32,
   e.tAdmit % 2 ^ 64, e.tFirst % 2 ^ 64, e.tStep % 2 ^ 64,
   e.swaps % 2 ^ 32 * 2 ^ 32 + e.oqstall % 2 ^ 32]

/-- The entry with one word replaced. -/
def CtxEntry.setWord (e : CtxEntry) (i v : Nat) : CtxEntry :=
  match i with
  | 0 => { e with
      state := bits v 63 61, part := bits v 60 56, model := bits v 55 52, prio := bits v 51 49, solo := v.testBit 48
      role := bits v 47 46, held := v.testBit 45, oqf := v.testBit 44, odev := bits v 43 32, handle := bits v 31 0 }
  | 1 => { e with pos := bits v 63 32, last := bits v 31 0 }
  | 2 => { e with gen := bits v 63 32, maxtok := bits v 31 0 }
  | 3 => { e with rgran := bits v 63 61, kvroot := bits v 55 0 }
  | 4 => { e with resmask := v }
  | 5 => { e with plen := bits v 63 32, rslot := bits v 31 16, oq := bits v 11 0 }
  | 6 => { e with side := bits v 55 0 }
  | 7 => { e with temp := bits v 63 48, topp := bits v 47 32, minp := bits v 31 16, rpen := bits v 15 0 }
  | 8 => { e with topk := bits v 63 58, specd := bits v 57 51, quantum := bits v 31 16, slice := bits v 15 0 }
  | 9 => { e with seed := v }
  | 10 => { e with deadline := v }
  | 11 => { e with draft := bits v 63 32, specacc := bits v 31 0 }
  | 12 => { e with tAdmit := v }
  | 13 => { e with tFirst := v }
  | 14 => { e with tStep := v }
  | 15 => { e with swaps := bits v 63 32, oqstall := bits v 31 0 }
  | _ => e

/-- The 128 bytes of an entry. -/
def CtxEntry.bytes (e : CtxEntry) : List Byte := e.words.flatMap (leBytes 8)

/-- The words in which two entries differ. -/
def CtxEntry.changed (a b : CtxEntry) : List (Nat × Nat) :=
  ((List.range 16).zip (a.words.zip b.words)).filterMap fun x => if x.2.1 = x.2.2 then none else some (x.1, x.2.2)

/-! ### Messages of a group (R336, R338) -/

/-- The global address of a peer's crown through the group window. -/
def Panel.peerGA (p : Panel) (dev : Nat) : Nat := 6 * 2 ^ 52 + dev % 4096 * 2 ^ 40 + grpWin p.grp * 2 ^ 32

/-- A message sent to a device through the group window. -/
def Panel.peerSend (p : Panel) (c : Crown) (dev tag : Nat) (use : CrownUse) (payload : List Byte) : Panel :=
  let ga := p.peerGA dev
  p.crownSend c false use
    { opcode := Opc.msg, ga := ga, bytes := payload.length, len := lenFor 0 payload.length, mkind := 2, mtag := tag }
    (unitsOf 0 payload)

/-- A group message, kept until it is answered. -/
def Panel.groupSend (p : Panel) (c : Crown) (dev tag : Nat) (payload : List Byte) (commit : Option Nat := none) : Panel :=
  let id := (p.crown c).nextMsg
  let p := p.modCrown c fun k => { k with
    nextMsg := k.nextMsg + 1, group := k.group ++ [{ id := id, dev := dev, tag := tag, payload := payload, commit := commit }] }
  p.peerSend c dev tag (.group id) payload

/-- The standby that a manager mirrors to (R281, R338): none while no member is named standby. -/
def Panel.standby (p : Panel) (c : Crown) : Option Nat :=
  let k := p.crown c
  let v := k.rd Reg.CTX_GRP
  if bits (k.rd Reg.CTX_CFG) 31 30 = 1 ∧ v.testBit 63 ∧ grpValid p.grp ∧ p.standbyNamed then some (bits v 39 28) else none

/-- Changed words cut into updates of at most seven. -/
def updatesOf : Nat → List (Nat × Nat) → List (List (Nat × Nat))
  | 0, _ => []
  | n + 1, l => if l.isEmpty then [] else l.take 7 :: updatesOf n (l.drop 7)

/-- The bytes of a mirror update (R338). -/
def updateBytes (handle : Nat) (l : List (Nat × Nat)) : List Byte :=
  leBytes 4 handle ++ leBytes 2 (l.foldl (fun m x => m + 2 ^ x.1) 0) ++ [0, 0] ++ l.flatMap fun x => leBytes 8 x.2

/-- The changes of an entry sent to the standby, if one is named. -/
def Panel.mirrorOut (p : Panel) (c : Crown) (old new : CtxEntry) (commit : Option Nat) : Panel :=
  match p.standby c with
  | none => p
  | some dev => (updatesOf 3 (old.changed new)).foldl (fun p l =>
      p.groupSend c dev 0x4703 (updateBytes new.handle l) commit) p

/-! ### The table (R246, R252) -/

def slotsPerHalf : Nat := 32768

/-- The crown that leads a slot. -/
def Panel.slotLeader (p : Panel) (slot : Nat) : Crown := p.ctxLeader (if slot < slotsPerHalf then 0 else 1)

/-- The entry in a slot, as its leading crown holds it. -/
def Panel.ent (p : Panel) (slot : Nat) : CtxEntry := look {} (p.crown (p.slotLeader slot)).ctx slot

/-- An entry written in both crowns that are there: the table and its mirror (R246). -/
def Panel.storeEnt (p : Panel) (slot : Nat) (e : CtxEntry) : Panel :=
  [Crown.north, Crown.south].foldl (fun p c =>
    if (p.crown c).lost then p
    else p.modCrown c fun k => { k with ctx := if e.state = 0 then drop k.ctx slot else put k.ctx slot e }) p

/-- An entry written in a slot, mirrored in the other crown and in the standby. -/
def Panel.setEnt (p : Panel) (slot : Nat) (e : CtxEntry) (commit : Option Nat := none) : Panel :=
  let c := p.slotLeader slot
  let old := p.ent slot
  (p.storeEnt slot e).mirrorOut c old (if e.state = 0 then { old with state := 0 } else e) commit

/-- Every slot in use with its entry, in slot order. -/
def Panel.slots (p : Panel) : List (Nat × CtxEntry) :=
  ((p.crown (p.ctxLeader 0)).ctx.filter fun x => decide (x.1 < slotsPerHalf)) ++
    ((p.crown (p.ctxLeader 1)).ctx.filter fun x => decide (slotsPerHalf ≤ x.1))

/-- The slots that a crown leads. -/
def Panel.ledSlots (p : Panel) (c : Crown) : List (Nat × CtxEntry) := p.slots.filter fun x => p.slotLeader x.1 == c

/-- The lowest number at or above `lo` that no key of a map takes. -/
def lowestFree {α : Type} : Nat → Sparse α → Nat
  | lo, [] => lo
  | lo, (k, _) :: m => if k < lo then lowestFree lo m else if k = lo then lowestFree (lo + 1) m else lo

/-- The slot that a new context takes (R255): the lowest free one of the half that has more, the north half on a tie. -/
def Panel.freeSlot (p : Panel) : Option Nat :=
  let n := (p.slots.filter fun x => decide (x.1 < slotsPerHalf))
  let s := (p.slots.filter fun x => decide (slotsPerHalf ≤ x.1))
  if n.length ≤ s.length then (if n.length < slotsPerHalf then some (lowestFree 0 n) else none)
  else some (lowestFree slotsPerHalf s)

/-- Slots that a partition holds (CTX_PUSE). -/
def Panel.slotsOf (p : Panel) (part : Nat) : Nat := (p.slots.filter fun x => x.2.part == part).length

/-- A context exists (R248, R283). -/
def Panel.anyCtx (p : Panel) : Bool := !p.slots.isEmpty || !p.heldRecs.isEmpty

/-! ### Handles (R247) -/

def handleIndex (h : Nat) : Nat := h % 2 ^ 21
def handleGen (h : Nat) : Nat := h / 2 ^ 21 % 2048

/-- The first number of 0 to n − 1 that is not used, from a start on, in rising order and around. -/
def freeFrom (n start : Nat) (used : Nat → Bool) : Nat → Option Nat
  | 0 => none
  | fuel + 1 => if used (start % n) then freeFrom n (start + 1) used fuel else some (start % n)

/-- A free number where the manual does not say which one is taken: a free value picks where the search starts. -/
def Panel.pick (p : Panel) (n uses : Nat) (used : Nat → Bool) : Option Nat × Panel :=
  let x := p.draw
  if n = 0 then (none, x.2) else (freeFrom n x.1.toNat used (min n (uses + 1)), x.2)

/-- Bytes of the service region written through (R247, R248, R256); none while the region has not been set. -/
def Panel.svcWrite (p : Panel) (off : Nat) (bs : List Byte) : Panel :=
  let base := (p.crown (p.leader 0)).rd Reg.CTX_SVC_BASE
  if bits base 55 52 = 2 then (p.crownWrite 0 (base % 2 ^ 56 + off) bs).2 else p

/-- A word of the handle map. -/
def HandleEnt.word (h : HandleEnt) : Nat :=
  match h.live with
  | none => 0xFFFFFFFF
  | some (.slot n) => n
  | some (.held j) => 2 ^ 31 + j

/-- An entry of the handle map set. -/
def Panel.setHandle (p : Panel) (i : Nat) (h : HandleEnt) : Panel :=
  ({ p with handles := put p.handles i h }).svcWrite (4 * i) (leBytes 4 h.word)

/-- Where the live context of a handle stands. -/
def Panel.whereIs (p : Panel) (handle : Nat) : Option Place :=
  match find p.handles (handleIndex handle) with
  | none => none
  | some h => if h.gen = handleGen handle then h.live else none

/-- The entry of a live handle. -/
def Panel.ctxOf (p : Panel) (handle : Nat) : Option (Place × CtxEntry) :=
  match p.whereIs handle with
  | none => none
  | some (.slot n) => some (.slot n, p.ent n)
  | some (.held j) => some (.held j, look {} p.heldRecs j)

/-- A record of the overflow list written or emptied. -/
def Panel.setHeld (p : Panel) (j : Nat) (e : Option CtxEntry) : Panel :=
  match e with
  | none => { p with heldRecs := drop p.heldRecs j }
  | some e => ({ p with heldRecs := put p.heldRecs j e }).svcWrite (0x1000000 + 128 * j) e.bytes

/-- The entry of a live handle written where it stands. -/
def Panel.setCtx (p : Panel) (w : Place) (e : CtxEntry) : Panel :=
  match w with
  | .slot n => p.setEnt n e
  | .held j => p.setHeld j (some e)

/-- A new handle: a free index, its generation one more than the last. -/
def Panel.newHandle (p : Panel) : Option (Nat × Panel) :=
  let x := p.pick (2 ^ 21) p.handles.length fun i => match find p.handles i with
    | some h => h.live.isSome
    | none => false
  match x.1 with
  | none => none
  | some i =>
    let gen := match find p.handles i with
      | some h => (h.gen + 1) % 2048
      | none => 0
    some (gen * 2 ^ 21 + i, x.2)

/-! ### Output paths (R275) -/

/-- Dial time since which the path of a context's output has been down; none while it is up. -/
def Panel.pathDown (p : Panel) (e : CtxEntry) : Option Nat :=
  if e.oqf then
    if (p.portTo e.odev).isSome then none
    else some (max e.tAdmit ((p.fuses.ports.map fun n => (p.fport (n / 2) (n % 2)).downAt).foldl max 0))
  else
    let q := p.qset e.oq
    let up := p.hostUp && p.retraining != 1
    if q.on ∧ up then none
    else some (max e.tAdmit (if up then q.downAt else if q.on then p.hostDownAt else min q.downAt p.hostDownAt))

/-- Two contexts share an output queue. -/
def CtxEntry.sameQueue (a b : CtxEntry) : Bool := a.oqf == b.oqf && a.oq == b.oq && (!a.oqf || a.odev == b.odev)

def fabKey (dev q : Nat) : Nat := 4096 * dev + q

/-- Records that the steps in flight and the verified rounds may still produce for a context's queue, and those that wait for their
mirror. -/
def Panel.reserved (p : Panel) (e : CtxEntry) : Nat :=
  let of (h : Nat) : Bool := match p.ctxOf h with
    | some (_, x) => x.sameQueue e
    | none => false
  ([Crown.north, Crown.south].map fun c =>
    let k := p.crown c
    (k.steps.map fun s => (s.2.batch.map fun b => if of b.handle then b.rows else 0).sum).sum +
      (k.rounds.map fun r => if 2 ≤ r.2.stage ∧ of (p.ent r.1).handle then r.2.accepted.length + 1 else 0).sum +
      (k.commits.map fun m => if of m.handle then m.recs.length else 0).sum).sum

/-- Room of a context's output queue (R275, R339). -/
def Panel.queueRoom (p : Panel) (e : CtxEntry) : Nat :=
  let all := if e.oqf then 64 - (look {} (p.crown (p.leader 0)).fab (fabKey e.odev e.oq)).recs.length -
      (if p.leader 0 = p.leader 1 then 0 else (look {} (p.crown (p.leader 1)).fab (fabKey e.odev e.oq)).recs.length)
    else (p.qset e.oq).tcqRoom
  all - p.reserved e

/-! ### Token records (R274, R339) -/

/-- The 16 bytes of a token record. -/
def recBytes (handle pos token logprob status : Nat) (approx spec swapped replay : Bool) (reason : Nat) (last : Bool) : List Byte :=
  leBytes 4 handle ++ leBytes 4 pos ++ leBytes 4 token ++ leBytes 2 logprob ++
    leBytes 2 (status % 256 * 256 + b2n approx * 128 + b2n spec * 64 + b2n swapped * 32 + b2n replay * 16 + reason % 8 * 2 + b2n last)

/-- The next message of a fabric queue sent, when none awaits its answer. -/
def Panel.fabPump (p : Panel) (c : Crown) (key : Nat) : Panel :=
  let q := look {} (p.crown c).fab key
  if q.sent ≠ 0 ∨ q.recs.isEmpty ∨ q.resendAt.isSome then p
  else
    let n := min 4 q.recs.length
    let p := p.modCrown c fun k => { k with fab := put k.fab key { q with sent := n } }
    p.peerSend c (key / 4096) (0x8000 + key % 4096) (.tokens key) ((q.recs.take n).flatMap (·.bytes))

/-- A record delivered to the context's queue; a final record that cannot be delivered is counted. -/
def Panel.deliver (p : Panel) (c : Crown) (e : CtxEntry) (bs : List Byte) : Panel :=
  let last := (leAt bs 14 1).testBit 0
  let p := if leAt bs 8 4 = 0xFFFFFFFF then p else p.modCrown c fun k => k.wrap Reg.CTX_TOKENS 1
  if e.oqf then
    let key := fabKey e.odev e.oq
    (p.modCrown c fun k =>
      let q := look {} k.fab key
      { k with fab := put k.fab key { q with recs := q.recs ++ [{ part := e.part, handle := e.handle, bytes := bs }] } }).fabPump c key
  else if (p.qset e.oq).on then p.modQ e.oq fun q => { q with tdue := q.tdue ++ [bs] }
  else if last then p.modCrown c fun k => k.bump Reg.CTX_OUT_LOST_CNT
  else p

/-- The records of a commit: posted at once when no mirror is there to wait for (R276, R338). -/
def Panel.commitRecs (p : Panel) (c : Crown) (e : CtxEntry) (recs : List (List Byte)) (standby : Nat) : Panel :=
  if (p.crown c.other).lost ∧ standby = 0 then recs.foldl (fun p bs => p.deliver c e bs) p
  else p.modCrown c fun k => { k with commits := k.commits ++ [{ handle := e.handle, recs := recs, standby := standby }] }

/-! ### Ends (R252, R273) -/

/-- A context takes part in a step that is in flight. -/
def Panel.inStep (p : Panel) (handle : Nat) : Bool :=
  [Crown.north, Crown.south].any fun c => (p.crown c).steps.any fun s => s.2.batch.any (·.handle = handle)

/-- A handle that is no longer live. -/
def Panel.freeHandle (p : Panel) (handle : Nat) : Panel :=
  let i := handleIndex handle
  p.setHandle i { gen := handleGen handle, live := none }

/-- Pool pages and frames of a context given back. -/
def Panel.freePages (p : Panel) (handle : Nat) : Panel := { p with kv := drop p.kv (handleIndex handle) }

/-- A context ends now (R273): its final record is posted, unless it is known to be lost, and a slot context drains; a held one
leaves the list with its handle. -/
def Panel.finishCtx (p : Panel) (w : Place) (e : CtxEntry) (reason status : Nat) (lost : Bool := false) : Panel :=
  let bs := recBytes e.handle e.pos 0xFFFFFFFF 0 status false false false e.replay reason true
  let c := match w with
    | .slot n => p.slotLeader n
    | .held _ => p.ctxLeader 0
  let p := if lost then p.modCrown c fun k => k.bump Reg.CTX_OUT_LOST_CNT
    else if (p.crown c).commits.any (·.handle = e.handle) then p.commitRecs c e [bs] 0
    else p.deliver c e bs
  match w with
  | .slot n => p.setEnt n { e with state := 5, cancel := false, failing := none, waiting := false }
  | .held j => ((p.setHeld j none).freePages e.handle).freeHandle e.handle

/-- A context ends, at once or at the boundary of the step that it is in. Reason 6 is a cancellation, reason 7 a failure. -/
def Panel.endCtx (p : Panel) (w : Place) (e : CtxEntry) (reason status : Nat) (lost : Bool := false) : Panel :=
  if e.state = 5 ∨ e.state = 0 then p
  else if p.inStep e.handle then p.setCtx w (if reason = 6 then { e with cancel := true } else { e with failing := some status })
  else p.finishCtx w e reason status lost

end Sys2Proof.Machine
end

