-- ==== Sys2Proof/Machine/CtxPages.lean ====
section
/-! DEFINITION. KV pages: pool pages, frames, residency slots and the pager (R259, R267, R268). -/

namespace Sys2Proof.Machine

/-! ### The model's layout (R259) -/

def ModelDesc.kvCores (d : ModelDesc) : List DescCore := d.cores.filter fun x => x.roles.testBit 2
def ModelDesc.pageBytes (d : ModelDesc) : Nat := d.kvCores.length * 65536
/-- Pages of the longest context. -/
def ModelDesc.maxPages (d : ModelDesc) : Nat := cdiv d.maxctx d.ptok
def ModelDesc.ftsz (d : ModelDesc) : Nat := cdiv (2 * d.maxPages) 32 * 32
def ModelDesc.pageGA (d : ModelDesc) (j : Nat) : Nat := d.kvpool + j * d.pageBytes

def Panel.model (p : Panel) (m : Nat) : Model := look {} p.models m
def Panel.setModel (p : Panel) (m : Nat) (x : Model) : Panel := { p with models := put p.models m x }
def Panel.modModel (p : Panel) (m : Nat) (f : Model → Model) : Panel := p.setModel m (f (p.model m))

/-- The descriptor of a ready model. -/
def Panel.readyDesc (p : Panel) (m : Nat) : Option ModelDesc := if (p.model m).state = 4 then (p.model m).desc else none

/-! ### Speculative rounds: which contexts belong together (R277) -/

/-- The target of a draft context: slot and entry. -/
def Panel.targetOf (p : Panel) (draft : Nat) : Option (Nat × CtxEntry) :=
  p.slots.find? fun x => x.2.role = 1 ∧ x.2.draft = draft ∧ x.2.state ≠ 5

/-- Tree nodes that a target uses. -/
def CtxEntry.nodes (e : CtxEntry) (d : ModelDesc) : Nat := min e.specd d.tree.length

/-- Positions past `pos` that the next steps of a context may write (R260, R277). -/
def Panel.span (p : Panel) (e : CtxEntry) (d : ModelDesc) : Nat :=
  if e.pos < e.plen then min d.pchunk (e.plen - e.pos) - 1
  else
    let more := if e.role = 1 then e.specd
      else if e.role = 2 then (match p.targetOf e.handle with
        | some (_, t) => t.specd
        | none => 0)
      else 0
    if e.pos + more < d.maxctx then more else 0

/-! ### Pages of a context -/

def Panel.kvOf (p : Panel) (handle : Nat) : Option KvPages := find p.kv (handleIndex handle)

def KvPages.frameAt (k : KvPages) (j : Nat) : Option Nat := match find k.pages j with
  | some x => x.frame
  | none => none

/-- The page numbers that have a pool page. -/
def KvPages.numbers (k : KvPages) : List Nat := k.pages.map fun (x : Nat × KvPage) => x.1

/-- Every page of 0 to `last` is resident. -/
def Panel.residentTo (p : Panel) (e : CtxEntry) (last : Nat) : Bool :=
  e.rslot != 0xFFFF && (match p.kvOf e.handle with
    | none => false
    | some k => (List.range (last + 1)).all fun j => (k.frameAt j).isSome)

/-- `resmask`: a group is resident when it has pages and each of them is (R267). -/
def KvPages.resmask (k : KvPages) (rgran : Nat) : Nat :=
  (List.range 64).foldl (fun m i =>
    let g := k.pages.filter fun x => x.1 / 2 ^ rgran == i
    if !g.isEmpty && g.all fun x => x.2.frame.isSome then m + 2 ^ i else m) 0

/-- A word of the page table (R267). -/
def pageWord (d : ModelDesc) (x : KvPage) : Nat :=
  (match x.frame with
    | some f => 2 ^ 63 + f % 2048 * 2 ^ 51
    | none => 0) + 2 ^ 62 + bits (d.pageGA x.pool) 40 16 * 2 ^ 16

/-- The page-table words of some pages written to HBM: status and panel. -/
def Panel.writePages (p : Panel) (e : CtxEntry) (d : ModelDesc) (k : KvPages) (js : List Nat) : Nat × Panel :=
  js.foldl (fun acc j => match find k.pages j with
    | none => acc
    | some x =>
      let r := acc.2.crownWrite e.part (e.kvroot + 8 * j) (leBytes 8 (pageWord d x))
      (St.merge acc.1 r.1, r.2)) (St.done, p)

/-- The context's frames and residency slot given up (R257, R268). -/
def Panel.dropFrames (p : Panel) (slot : Nat) (e : CtxEntry) : Panel :=
  let p := match p.kvOf e.handle, (p.model e.model).desc with
    | some k, some d =>
      let k' : KvPages := { k with pages := k.pages.map fun (x : Nat × KvPage) => (x.1, ({ x.2 with frame := none } : KvPage)) }
      ({ p with kv := put p.kv (handleIndex e.handle) k' }.writePages e d k' k.numbers).2
    | _, _ => p
  p.setEnt slot { e with rslot := 0xFFFF, resmask := 0 }

/-- Pool pages in use by contexts of a model. -/
def Panel.usedPool (p : Panel) (m : Nat) : List Nat :=
  p.kv.flatMap fun x => if x.2.model = m then x.2.root :: x.2.pages.map (·.2.pool) else []

/-- Frames in use. -/
def Panel.usedFrames (p : Panel) (m : Nat) : List Nat :=
  p.kv.flatMap fun x => if x.2.model = m then x.2.pages.filterMap (·.2.frame) else []

/-- Residency slots in use. -/
def Panel.usedRslots (p : Panel) (m : Nat) : List Nat :=
  p.slots.filterMap fun x => if x.2.model = m ∧ x.2.rslot ≠ 0xFFFF then some x.2.rslot else none

/-- The context to evict for another one of its model (R268). -/
def Panel.victim (p : Panel) (m self : Nat) : Option (Nat × CtxEntry) :=
  (p.slots.filter fun x => decide (x.2.model = m ∧ x.2.handle ≠ self ∧ x.2.rslot ≠ 0xFFFF ∧ x.2.state ≠ 5) && !p.inStep x.2.handle).foldl
    (fun acc x => match acc with
      | none => some x
      | some y => if x.2.tStep < y.2.tStep then some x else acc) none

/-- A victim's frames dropped and the context parked. -/
def Panel.evict (p : Panel) (m self : Nat) : Option Panel :=
  match p.victim m self with
  | none => none
  | some (n, e) =>
    let p := p.dropFrames n e
    some (p.setEnt n { p.ent n with state := 3 })

/-- A free residency slot or frame, after evictions when none is free. -/
def Panel.obtain (m self : Nat) (size : Nat) (inUse : Panel → List Nat) : Nat → Panel → Option (Nat × Panel)
  | 0, _ => none
  | fuel + 1, p =>
    let l := inUse p
    let x := p.pick size l.length fun i => decide (i ∈ l)
    match x.1 with
    | some i => some (i, x.2)
    | none => match p.evict m self with
      | none => none
      | some p => Panel.obtain m self size inUse fuel p

/-- 64 KiB of a pool page copied from HBM to one KV core's frame: the status of the reads (R267). -/
def Panel.copyFrame (p : Panel) (part ga site off : Nat) : Nat × Panel :=
  (gaCuts 18 ga 65536).foldl (fun acc x =>
    let p := acc.2
    match p.decodeGA x.1 with
    | .ok (.hbm h o) =>
      let k := p.hub h
      if k.lost ∨ k.stack ≠ 2 then (St.merge acc.1 St.siteRetired, p)
      else match k.refusal o x.2 part false false with
        | some cnt => (St.merge acc.1 St.notPermitted, p.modHub h fun k => k.bump cnt)
        | none =>
          let r := Hub.readCws { dial := p.dial, hub := h, src := 0, part := 0x80 + part } (o / 32) (x.2 / 32) k
          let p := p.setHub h r.2
          let l : List MByte := r.1.flatMap fun c => c.2.data.map fun b => some (b, c.1 == .bad)
          (acc.1, p.modCore site fun c => (c.writeBytes (p.at' site) Own.dmaIn (off + (x.1 - ga)) l).2)
    | .ok _ => (St.merge acc.1 St.notPermitted, p)
    | .error st => (St.merge acc.1 st, p)) (St.done, p)

/-- A page copied to its frame on every KV core, in core-list order. -/
def Panel.copyPage (p : Panel) (part : Nat) (d : ModelDesc) (pool frame : Nat) : Nat × Panel :=
  ((List.range d.kvCores.length).zip d.kvCores).foldl (fun acc x =>
    match acc.2.lsite x.2.x x.2.y with
    | none => (St.merge acc.1 St.siteRetired, acc.2)
    | some n =>
      let r := acc.2.copyFrame part (d.pageGA pool + x.1 * 65536) n (d.kvbase + frame * 65536)
      (St.merge acc.1 r.1, r.2)) (St.done, p)

/-- The frame-table words of a residency slot written to every KV core (R259, R267). -/
def Panel.writeFrameTable (p : Panel) (d : ModelDesc) (rslot : Nat) (k : KvPages) : Panel :=
  d.kvCores.foldl (fun p x => match p.lsite x.x x.y with
    | none => p
    | some n => k.pages.foldl (fun p y => match y.2.frame with
      | none => p
      | some f => p.modCore n fun c =>
          (c.writeBytes (p.at' n) Own.dmaIn (d.ftbase + rslot * d.ftsz + 2 * y.1) (enabled (leBytes 2 f))).2) p) p

/-- What stops the pager. -/
inductive PagerStop
  | frame
  | pool
  | failed (status : Nat)
  deriving DecidableEq, Repr

/-- One page brought in: a pool page when it has none, a frame, and its data when it has been written before. -/
def Panel.bringPage (p : Panel) (e : CtxEntry) (d : ModelDesc) (k : KvPages) (j : Nat) : Except PagerStop (KvPages × Panel) :=
  let got : Option (KvPage × Bool × Panel) := match find k.pages j with
    | some x => some (x, true, p)
    | none =>
      let l := p.usedPool e.model ++ k.root :: k.pages.map (·.2.pool)
      let x := p.pick d.npool l.length fun i => decide (i ∈ l)
      x.1.map fun i => ({ pool := i }, false, x.2)
  match got with
  | none => .error .pool
  | some (x, old, p) =>
    if x.frame.isSome then .ok (k, p)
    else match Panel.obtain e.model e.handle d.frames (fun p => p.usedFrames e.model ++ k.pages.filterMap (·.2.frame)) 4096 p with
      | none => .error .frame
      | some (f, p) =>
        let k := { k with pages := put k.pages j { x with frame := some f } }
        if old then
          let r := p.copyPage e.part d x.pool f
          if 1 < r.1 then .error (.failed r.1) else .ok (k, r.2)
        else .ok (k, p)

/-- Pages 0 to `n` − 1 brought in, in order. -/
def Panel.bringPages (e : CtxEntry) (d : ModelDesc) : Nat → KvPages → Panel → Except PagerStop (KvPages × Panel)
  | 0, k, p => .ok (k, p)
  | n + 1, k, p => match Panel.bringPages e d n k p with
    | .error x => .error x
    | .ok (k, p) => p.bringPage e d k n

/-- A context brought into residency (R267): slot, pages, frames, page table and frame tables. -/
def Panel.bringIn (p : Panel) (slot : Nat) (e : CtxEntry) (d : ModelDesc) : Except PagerStop Panel :=
  let rs : Option (Nat × Panel) := if e.rslot ≠ 0xFFFF then some (e.rslot, p)
    else Panel.obtain e.model e.handle d.nres (fun p => p.usedRslots e.model) 4097 p
  match rs with
  | none => .error .frame
  | some (r, p) =>
    let root : Option (KvPages × Panel) := match p.kvOf e.handle with
      | some k => some (k, p)
      | none =>
        let l := p.usedPool e.model
        let x := p.pick d.npool l.length fun i => decide (i ∈ l)
        x.1.map fun i => ({ model := e.model, root := i, pages := [] }, x.2)
    match root with
    | none => .error .pool
    | some (k, p) => match Panel.bringPages e d ((e.pos + p.span e d) / d.ptok + 1) k p with
      | .error x => .error x
      | .ok (k, p) =>
        let e := { e with
          rslot := r, kvroot := d.pageGA k.root % 2 ^ 56, resmask := k.resmask e.rgran, waiting := false
          state := if e.state = 3 then (if e.pos < e.plen then 1 else 2) else e.state }
        let w := ({ p with kv := put p.kv (handleIndex e.handle) k }).writePages e d k k.numbers
        if 1 < w.1 then .error (.failed w.1)
        else .ok ((w.2.writeFrameTable d r k).setEnt slot e)

end Sys2Proof.Machine
end

