-- ==== Sys2Proof/Machine/ReduceOps.lean ====
section
/-! DEFINITION. The reductions of the reduction unit on rows of values (R143–R148, R151). -/

namespace Sys2Proof.Machine

/-! ### The op field (R144) -/

structure RuOp where
  kind : Nat
  tap : Bool
  cols1 : Bool      -- dir: one result per column
  fmt : Nat
  rows : Nat
  cols : Nat
  stride : Nat
  k : Nat
  acc : Bool
  deriving DecidableEq, Repr

def QOp.ru (q : QOp) : RuOp :=
  { kind := q.kind, tap := q.f 75 75 == 1, cols1 := q.f 74 74 == 1, fmt := q.f 73 71, rows := q.f 69 58 + 1,
    cols := q.f 57 44 + 1, stride := q.f 43 28, k := q.f 27 22 + 1, acc := q.f 21 21 == 1 }

def RuOp.rankKind (o : RuOp) : Bool := o.kind == 3 || o.kind == 4
def RuOp.softKind (o : RuOp) : Bool := o.kind == 5 || o.kind == 6

/-- Bytes of one result. -/
def RuOp.resBytes (o : RuOp) : Nat := if o.kind ≤ 2 then 4 else if o.kind = 4 then 8 * o.k else 8

/-- Results in all. -/
def RuOp.results (o : RuOp) : Nat := if o.cols1 then o.cols else o.rows

/-- Bytes of a source element. -/
def RuOp.elemBytes (o : RuOp) : Nat := if o.kind = 6 then 8 else if o.fmt = 1 then 2 else 4

/-- Elements of a beat (R123, R149). -/
def RuOp.beat (o : RuOp) : Nat := if o.fmt = 1 then 512 else 256

/-- The fault of an RU operation's own checks (R151); `paired` gives rows, columns and BF16 mode of a tap partner. -/
def QOp.ruFault (q : QOp) (paired : Option (Nat × Nat × Bool)) : Option Nat :=
  let o := q.ru
  let a := baseOff q.a
  let c := baseOff q.c
  let len := o.cols * o.elemBytes
  firstCause
    [(0x1, decide (o.kind ≥ 7) || decide (o.fmt ≥ 3)),
     (0x2, (o.cols1 && (o.kind == 4 || o.softKind)) || (o.fmt == 2 && (o.rankKind || o.softKind)) || (o.fmt == 1 && o.kind == 6)),
     (0x3, o.tap && (o.kind == 6 || (match paired with
        | none => false
        | some (r, cs, bf) => r != o.rows || cs != o.cols || (if bf then o.fmt != 1 else o.fmt == 1)))),
     (0x4, baseBad q.c || c % 32 != 0 || (!o.tap && (baseBad q.a || a % 32 != 0))),
     (0x5, decide (c + o.results * o.resBytes > spadTop) || (!o.tap && decide (tileEnd a o.stride len o.rows > spadTop))),
     (0x6, !o.tap && (o.stride == 0 || decide (32 * o.stride < len))),
     (0x7, q.unnamed [(79, 71), (69, 21)] || (o.kind != 4 && o.k != 1))]

/-! ### Values -/

def negInf : Nat := 0xFF800000

/-- A BF16 pattern as FP32, exactly. -/
def widenBf16 (x : Nat) : Nat := fp32.round (bf16.decode x)

/-- Beats of a row. -/
def beats (l : Nat) : Nat → List Nat → List (List Nat)
  | 0, _ => []
  | n + 1, xs => if xs.isEmpty then [] else xs.take l :: beats l n (xs.drop l)

def beatsOf (l : Nat) (xs : List Nat) : List (List Nat) := beats l (xs.length / l + 1) xs

/-- A list folded from its first element on. -/
def fold1 (f : Nat → Nat → Nat) : List Nat → Nat
  | [] => 0
  | x :: xs => xs.foldl f x

/-- Signed maximum and minimum of INT32 patterns. -/
def imax (a b : Nat) : Nat := if int32 a < int32 b then b else a
def imin (a b : Nat) : Nat := if int32 b < int32 a then b else a

def sum1 (xs : List Nat) : Nat := fp32.round (FVal.sum (xs.map fp32.decode))

def isNan32 (x : Nat) : Bool := (fp32.decode x).isNan

/-! ### Ranking (R146) -/

/-- Value a with index i ranks before value b with index j. -/
def ranksBefore (a i b j : Nat) : Bool :=
  let x := fp32.decode a
  let y := fp32.decode b
  if x.isNan ∧ y.isNan then decide (i < j)
  else if x.isNan then false
  else if y.isNan then true
  else if y.lt x then true
  else if x.lt y then false
  else decide (i < j)

/-- An entry inserted after every entry that does not rank behind it. -/
def rankInsert (e : Nat × Nat) : List (Nat × Nat) → List (Nat × Nat)
  | [] => [e]
  | x :: xs => if ranksBefore e.1 e.2 x.1 x.2 then e :: x :: xs else x :: rankInsert e xs

/-- The k best of candidates, filled up with −Inf. -/
def rank (k : Nat) (cands : List (Nat × Nat)) : List (Nat × Nat) :=
  let l := (cands.foldl (fun l e => rankInsert e l) []).take k
  l ++ List.replicate (k - l.length) (negInf, 0xFFFFFFFF)

def canon (x : Nat) : Nat := if isNan32 x then fp32.qnan else x

/-! ### Softmax pairs (R147) -/

def fmul (a b : Nat) : Nat := fp32.round ((fp32.decode a).mul (fp32.decode b))
def fsub (a b : Nat) : Nat := fp32.round ((fp32.decode a).add (fp32.decode b).neg)
def exp2f (a : Nat) : Nat := transcend 0x40 a

/-- One beat into a pair; none after a stop. Answers the pair, whether the row stops, and NaN inputs. -/
def smBeat (m l : Nat) (xs : List Nat) : Nat × Nat × Bool :=
  if xs.any (fun x => isNan32 x || fp32.decode x == .inf false) then (fp32.qnan, fp32.qnan, true)
  else
    let mn := xs.foldl fp32.max m
    if mn = negInf then (m, l, false)
    else
      let e := sum1 (xs.map fun x => exp2f (fsub x mn))
      (mn, fp32Add (fmul l (exp2f (fsub m mn))) e, false)

def smRow : List (List Nat) → Nat → Nat → Nat × Nat × Nat
  | [], m, l => (m, l, 0)
  | b :: bs, m, l =>
    let nans := (b.filter isNan32).length
    let x := smBeat m l b
    if x.2.2 then (x.1, x.2.1, nans)
    else
      let y := smRow bs x.1 x.2.1
      (y.1, y.2.1, nans + y.2.2)

/-- One pair merged into a pair. -/
def pmStep (p : Nat × Nat) (mi li : Nat) : Nat × Nat :=
  if isNan32 mi ∨ isNan32 li then (fp32.qnan, fp32.qnan)
  else
    let mn := fp32.max p.1 mi
    if mn = negInf then p
    else (mn, fp32Add (fmul p.2 (exp2f (fsub p.1 mn))) (fmul li (exp2f (fsub mi mn))))

def pmRow : List Nat → Nat × Nat → (Nat × Nat) × Nat
  | m :: l :: xs, p =>
    let y := pmRow xs (pmStep p m l)
    (y.1, y.2 + (if isNan32 m ∨ isNan32 l then 1 else 0))
  | _, p => (p, 0)

/-! ### One result -/

def pairBytes (p : Nat × Nat) : List Byte := leBytes 4 p.1 ++ leBytes 4 p.2

/-- The result over one row or column: `xs` its values in order as FP32 or INT32 patterns, `stored` the stored result when
`acc` is set. Answers the bytes and the NaN inputs counted. -/
def RuOp.result (o : RuOp) (base : Nat) (xs : List Nat) (stored : Option (List Byte)) : List Byte × Nat :=
  let first (f : Nat → Nat → Nat) (r : Nat) : Nat := match stored with
    | none => r
    | some b => f (leAt b 0 4) r
  let nans := (xs.filter isNan32).length
  match o.kind with
  | 0 =>
    if o.fmt = 2 then (leBytes 4 (first int32Add (fold1 int32Add xs)), 0)
    else
      let parts := if o.cols1 then xs.map canon else (beatsOf o.beat xs).map sum1
      let all := match stored with
        | none => parts
        | some b => leAt b 0 4 :: parts
      (leBytes 4 (fold1 fp32Add all), 0)
  | 1 => (leBytes 4 (if o.fmt = 2 then first imax (fold1 imax xs) else first fp32.max (fold1 fp32.max (xs.map canon))), 0)
  | 2 => (leBytes 4 (if o.fmt = 2 then first imin (fold1 imin xs) else first fp32.min (fold1 fp32.min (xs.map canon))), 0)
  | 5 =>
    let (m, l) := match stored with
      | none => (negInf, 0)
      | some b => (leAt b 0 4, leAt b 4 4)
    let x := smRow (beatsOf o.beat xs) m l
    (pairBytes (x.1, x.2.1), x.2.2)
  | 6 =>
    let p := match stored with
      | none => (negInf, 0)
      | some b => (leAt b 0 4, leAt b 4 4)
    let x := pmRow xs p
    (pairBytes x.1, x.2)
  | _ =>
    let k := if o.kind = 4 then o.k else 1
    let old := match stored with
      | none => []
      | some b => (List.range k).map fun i => (leAt b (8 * i) 4, leAt b (8 * i + 4) 4)
    let new := xs.zipIdx.map fun x => (canon x.1, (x.2 + base) % 2 ^ 32)
    ((rank k (old ++ new)).flatMap pairBytes, nans)

/-- Column c of rows. -/
def column (rows : List (List Nat)) (c : Nat) : List Nat := rows.map fun r => r.getD c 0

/-- Every result over rows of values: bytes in order, and NaN inputs. -/
def RuOp.resultsOf (o : RuOp) (base : Nat) (rows : List (List Nat)) (stored : Option (List Byte)) : List Byte × Nat :=
  let lines := if o.cols1 then (List.range o.cols).map (column rows) else rows
  let rs := lines.zipIdx.map fun x =>
    o.result base x.1 (stored.map fun b => (b.drop (o.resBytes * x.2)).take o.resBytes)
  (rs.flatMap (·.1), (rs.map (·.2)).sum)

/-! ### Scratchpad source and results -/

/-- The values of a source row. -/
def RuOp.rowVals (o : RuOp) (f : Fetch) (base : Nat) : List Nat :=
  if o.kind = 6 then (List.range (2 * o.cols)).map fun i => f.le (base + 4 * i) 4
  else (List.range o.cols).map fun i =>
    if o.fmt = 1 then widenBf16 (f.le (base + 2 * i) 2) else f.le (base + 4 * i) 4

/-- The results of an operation over rows of values, combined with the stored ones and written (R145–R147, R174). `st0` is
the status of the reads so far. -/
def Core.ruFinish (k : Core) (w : At) (q : QOp) (rows : List (List Nat)) (st0 : Nat) : Nat × Core :=
  let o := q.ru
  let c := baseOff q.c
  let n := o.results * o.resBytes
  let x := if o.acc then Core.fetch w Own.ru (rowsOf [(c, n)]) k else ([], St.done, k)
  let st := St.merge st0 x.2.1
  let stored := if o.acc then some ((List.range n).map fun i => Fetch.byte x.1 (c + i)) else none
  let r := o.resultsOf (q.b.toNat % 2 ^ 32) rows stored
  let k := if r.2 = 0 then x.2.2 else x.2.2.bump Reg.RU_NAN_CNT r.2
  let y := k.writeBytes w Own.ru c (enabled r.1 (isBad st))
  (St.merge st y.1, y.2)

/-- The RU's pace and drain (R149). -/
def RuOp.drain (o : RuOp) : Nat := if o.kind = 4 then 4 + cdiv o.k 8 else 4
def RuOp.perRow (o : RuOp) : Nat :=
  if o.kind = 4 then Nat.max (cdiv o.cols o.beat) (cdiv o.k 8) else cdiv o.cols o.beat

/-- An operation whose source is the scratchpad, run from start to finish. -/
def Core.ruLocal (k : Core) (w : At) (base : Nat) (q : QOp) : RunOp × Core :=
  let o := q.ru
  let a := baseOff q.a
  let src := tileRanges a o.stride (o.cols * o.elemBytes) o.rows
  let x := Core.fetch w Own.ru (rowsOf src) k
  let rows := src.map fun r => o.rowVals x.1 r.1
  let y := x.2.2.ruFinish w q rows x.2.1
  let dst := rowsOf [(baseOff q.c, o.results * o.resBytes)]
  let all := rowsOf src ++ dst ++ (if o.acc then dst else [])
  let formula := 12 + Nat.max (o.rows * o.perRow) (k.fetchCyc Own.ru all.length) + o.drain
  ({ q := q, status := y.1, cycles := k.count base true [rowsOf src ++ (if o.acc then dst else []), dst] formula }, y.2)

/-- RU_FAULT (R152). -/
def ruFaultBits (cause kind : Nat) : Nat := 2 ^ 31 + cause * 2 ^ 27 + kind * 2 ^ 23

/-- An RU operation that fails its check. -/
def Core.ruFail (k : Core) (base : Nat) (q : QOp) (cause : Nat) : Core :=
  (k.firstFault Reg.RU_FAULT (ruFaultBits cause q.kind)).opFail Reg.RU_OP_CNT Reg.RU_OP_CYC base q St.notPermitted

end Sys2Proof.Machine
end

