-- ==== Sys2Proof/Machine/CtxSample.lean ====
section
/-! DEFINITION. The sampler and the stop conditions (R265, R269, R270, R272). -/

namespace Sys2Proof.Machine

/-! ### FP32 helpers -/

/-- A quotient in FP32, rounded once. -/
def fdiv (a b : Nat) : Nat :=
  match fp32.decode a, fp32.decode b with
  | .num s m e, .num t n f =>
    if n = 0 then (if m = 0 then fp32.qnan else fp32.infBits (s != t))
    else
      let q := m * 2 ^ 400 / n
      let sticky := b2n (m * 2 ^ 400 % n != 0)
      fp32.round (.num (s != t) (2 * q + sticky) (e - f - 401))
  | .num s _ _, .inf t => fp32.pack (s != t) 0 0
  | .inf s, .num t _ _ => fp32.infBits (s != t)
  | _, _ => fp32.qnan

def flt (a b : Nat) : Bool := (fp32.decode a).lt (fp32.decode b)
def widenHalf (x : Nat) : Nat := fp32.round (fp16.decode x)
def isFinite32 (x : Nat) : Bool := match fp32.decode x with
  | .num _ _ _ => true
  | _ => false

def log2f (a : Nat) : Nat := transcend 0x41 a
def log2e32 : Nat := 0x3FB8AA3B
def ln2f : Nat := 0x3F317218

/-- The `scale` of a batch entry (R263): FP32 log2(e) / temp. -/
def scaleOf (temp : Nat) : Nat := if temp = 0 then log2e32 else fdiv log2e32 (widenHalf temp)

/-! ### One row (R269) -/

/-- The 64 candidates of a result list: value and token. -/
def listCands (bs : List Byte) : List (Nat × Nat) :=
  (List.range 64).map fun i => (leAt bs (8 * i) 4, leAt bs (8 * i + 4) 4)

/-- Candidates with token below the vocabulary and finite value; the first occurrence of a token is kept. -/
def keepCands (vocab : Nat) : List (Nat × Nat) → List Nat → List (Nat × Nat)
  | [], _ => []
  | (v, t) :: cs, seen =>
    if t < vocab ∧ isFinite32 v ∧ t ∉ seen then (v, t) :: keepCands vocab cs (t :: seen) else keepCands vocab cs seen

/-- The penalty applied to candidates in order, with the normaliser kept up to date. -/
def penalise (rpen m : Nat) (recent : List Nat) : List (Nat × Nat) → Nat → List (Nat × Nat) × Nat
  | [], l => ([], l)
  | (v, t) :: cs, l =>
    if t ∈ recent then
      let v' := if flt 0 v then fdiv v rpen else fmul v rpen
      let l' := fp32Add (fsub l (exp2f (fsub v m))) (exp2f (fsub v' m))
      let x := penalise rpen m recent cs l'
      ((v', t) :: x.1, x.2)
    else
      let x := penalise rpen m recent cs l
      ((v, t) :: x.1, x.2)

/-- The shortest prefix, at least one long, whose sum reaches `topp`. -/
def toppPrefix (topp : Nat) : List (Nat × Nat × Nat) → Nat → List (Nat × Nat × Nat)
  | [], _ => []
  | c :: cs, sum =>
    let s := fp32Add sum c.1
    if flt s topp then c :: toppPrefix topp cs s else [c]

/-- The first kept candidate whose running sum exceeds `u`; else the last. -/
def drawFrom (u : Nat) : List (Nat × Nat × Nat) → Nat → Option (Nat × Nat × Nat)
  | [], _ => none
  | [c], _ => some c
  | c :: cs, sum =>
    let s := fp32Add sum c.1
    if flt u s then some c else drawFrom u cs s

/-- The sum of the kept probabilities, in order. -/
def sumP (cs : List (Nat × Nat × Nat)) : Nat := cs.foldl (fun s c => fp32Add s c.1) 0

/-- draw(seed, P) (R270): z[63:40] / 2^24. -/
def sampleDraw (seed position : Nat) : Nat :=
  fp32.round (.num false (srandom (BitVec.ofNat 64 seed) position / 256) (-24))

/-- A row sampled for a context at a position, from its lists in list order and the recent tokens (R269). -/
def sampleOf (vocab : Nat) (e : CtxEntry) (position : Nat) (recent : List Nat) (lists : List (List Byte)) : Sampled :=
  let pair := (pmRow (lists.flatMap fun bs => [leAt bs 512 4, leAt bs 516 4]) (negInf, 0)).1
  let c0 := keepCands vocab (lists.flatMap listCands) []
  let x := penalise (widenHalf e.rpen) pair.1 recent c0 pair.2
  let approx := isNan32 pair.1 || isNan32 x.2 || !flt 0 x.2
  let m := if approx then x.1.foldl (fun m c => fp32.max m c.1) negInf else pair.1
  let l := if approx then x.1.foldl (fun l c => fp32Add l (exp2f (fsub c.1 m))) 0 else x.2
  let sorted := x.1.foldl (fun l c => rankInsert c l) []
  let top := sorted.take (e.topk + 1)
  let tokens := top.map (·.2)
  let pick : Option (Nat × Nat × Nat) :=
    if e.temp = 0 then top.head?.map fun c => (0, c.1, c.2)
    else
      let ps := top.map fun c => (fdiv (exp2f (fsub c.1 m)) l, c.1, c.2)
      let p0 := (ps.head?.map (·.1)).getD 0
      let kept := ps.filter fun c => !flt c.1 (fmul (widenHalf e.minp) p0)
      let kept := toppPrefix (widenHalf e.topp) kept 0
      drawFrom (fmul (sampleDraw e.seed position) (sumP kept)) kept 0
  match pick with
  | none => { token := 0, logprob := 0, approx := approx, none' := true }
  | some (_, v, t) =>
    { token := t, approx := approx, cands := tokens
      logprob := fp16.round (fp32.decode (fmul (fsub (fsub v m) (log2f l)) ln2f)) }

/-! ### The side block (R253) -/

/-- What a side block holds: stop sequences, the penalty window and the history ring. -/
structure Side where
  stops : List (List Nat)
  pwin : Nat
  ring : List Byte
  deriving DecidableEq, Repr

def Side.ofBytes (bs : List Byte) : Side :=
  { stops := (List.range (min 8 (leAt bs 0 2))).map fun s =>
      let len := min 7 (leAt bs (8 + 32 * s) 4)
      (List.range len).map fun i => leAt bs (12 + 32 * s + 4 * i) 4
    pwin := min 256 (leAt bs 2 2)
    ring := bs.drop 0x400 }

/-- The last `n` of the first `gen` generated tokens, oldest first; the ring holds 256. -/
def Side.lastTokens (s : Side) (gen n : Nat) : List Nat :=
  let n := min n (min gen 256)
  (List.range n).map fun i => leAt s.ring (4 * ((gen - n + i) % 256)) 4

/-- The side block of a context read from HBM. -/
def Panel.readSide (p : Panel) (e : CtxEntry) : Nat × Side × Panel :=
  let x := p.crownRead e.part e.side 2048
  (x.1, Side.ofBytes x.2.1, x.2.2)

/-- The reason of R272 for a token sampled at a position: 0 when the context continues. `gen` counts the tokens before it. -/
def stopReason (d : ModelDesc) (e : CtxEntry) (s : Side) (recent : List Nat) (gen position token : Nat) : Nat :=
  let ends := recent ++ [token]
  if token ∈ d.eos then 1
  else if s.stops.any fun q => !q.isEmpty && (ends.drop (ends.length - q.length) == q) then 2
  else if gen + 1 = e.maxtok then 3
  else if position + 1 = d.maxctx then 4
  else 0

end Sys2Proof.Machine
end

