-- ==== Sys2Proof/Machine/CtxSteps.lean ====
section
/-! DEFINITION. Steps: eligibility and batches (R260, R261), batch records (R263), starts (R262, R411), failure and the second
run (R264), commits (R276) and speculative rounds (R277, R278). -/

namespace Sys2Proof.Machine

/-! ### Rounds -/

/-- The speculative round of a target in a slot: its leading crown holds it. -/
def Panel.round (p : Panel) (slot : Nat) : Option Round := find (p.crown (p.slotLeader slot)).rounds slot
def Panel.setRound (p : Panel) (slot : Nat) (r : Option Round) : Panel :=
  p.modCrown (p.slotLeader slot) fun k => { k with
    rounds := match r with
      | some r => put k.rounds slot r
      | none => drop k.rounds slot }

/-- The parent of tree node n, 0 for the root. -/
def ModelDesc.parent (d : ModelDesc) (n : Nat) : Nat := match d.tree[n - 1]? with
  | some x => x.parent
  | none => 0
def ModelDesc.nodeRank (d : ModelDesc) (n : Nat) : Nat := match d.tree[n - 1]? with
  | some x => x.rank
  | none => 0

/-- The depth of tree node n. -/
def ModelDesc.depth (d : ModelDesc) : Nat → Nat → Nat
  | 0, _ => 0
  | fuel + 1, n => if n = 0 then 0 else 1 + d.depth fuel (d.parent n)

/-- The draft context of a target, when it can draft: live, led by a crown, active or admitted to its own end of prefill, at the
target's position, with a ready model (R277, R278). -/
def Panel.usableDraft (p : Panel) (t : CtxEntry) : Option (Nat × CtxEntry) :=
  match p.ctxOf t.draft with
  | some (.slot n, e) =>
    if e.role = 2 ∧ (e.state = 2 ∨ e.state = 3) ∧ e.pos = t.pos ∧ ¬ e.cancel ∧ e.failing.isNone ∧
        (p.readyDesc e.model).isSome then some (n, e) else none
  | _ => none

/-- A target that runs speculative rounds (R260, R277). -/
def Panel.speculates (p : Panel) (t : CtxEntry) (d : ModelDesc) : Bool :=
  t.role == 1 && 0 < t.nodes d && decide (t.pos + t.nodes d < d.maxctx) && (p.usableDraft t).isSome

/-- Nodes of a round whose depth is one below the draft depth: the frontier of the next draft step. -/
def Round.frontier (r : Round) (d : ModelDesc) : List Nat :=
  if r.depth = 1 then [0] else (r.tokens.filter fun x => d.depth 64 x.1 + 1 == r.depth).map (·.1)

/-- Moves of a compact step (R278). -/
def Round.moves (r : Round) (pos : Nat) : List (Nat × Nat) :=
  ((List.range r.accepted.length).zip r.accepted).filterMap fun x => if x.2 = x.1 + 1 then none else some (pos + x.2, pos + x.1 + 1)

/-! ### What a context needs next (R260, R261) -/

/-- The step that a context waits for: its kind and what it takes. -/
def Panel.want (p : Panel) (slot : Nat) (e : CtxEntry) (d : ModelDesc) : Option (Nat × BatchEnt) :=
  if e.state = 1 then
    let n := min d.pchunk (e.plen - e.pos)
    some (0, { handle := e.handle, pos := e.pos, ntok := n, rows := if e.pos + n = e.plen then 1 else 0, row := 0 })
  else if e.state ≠ 2 then none
  else if e.role = 2 then
    match p.targetOf e.handle with
    | none => none
    | some (ts, t) => match p.readyDesc t.model with
      | none => none
      | some td => match p.round ts with
        | some r =>
          if r.stage = 0 then
            let f := r.frontier td
            if f.isEmpty then none
            else some (3, { handle := e.handle, pos := t.pos + f.head?.getD 0, ntok := f.length, rows := f.length, row := 0, nodes := f })
          else if r.stage = 3 then
            let mv := r.moves t.pos
            some (4, { handle := e.handle, pos := t.pos, ntok := mv.length, rows := 0, row := 0, moves := mv })
          else none
        | none =>
          if t.state = 2 ∧ ¬ p.inStep t.handle ∧ p.speculates t td ∧ ¬ t.cancel ∧ t.failing.isNone then
            some (3, { handle := e.handle, pos := t.pos, ntok := 1, rows := 1, row := 0, nodes := [0] })
          else none
  else match p.round slot with
    | some r =>
      if r.stage = 1 then
        let ns := 0 :: r.tokens.map (·.1)
        some (2, { handle := e.handle, pos := e.pos, ntok := ns.length, rows := ns.length, row := 0, nodes := ns })
      else if r.stage = 2 then
        let mv := r.moves e.pos
        some (4, { handle := e.handle, pos := e.pos, ntok := mv.length, rows := 0, row := 0, moves := mv })
      else if r.stage = 0 ∧ (p.usableDraft e).isNone then
        some (1, { handle := e.handle, pos := e.pos, ntok := 1, rows := 1, row := 0 })
      else none
    | none =>
      if p.speculates e d then none
      else some (1, { handle := e.handle, pos := e.pos, ntok := 1, rows := 1, row := 0 })

/-- Records that a step posts for a context. -/
def recordsOf (kind : Nat) (e : CtxEntry) (b : BatchEnt) : Nat := if kind = 3 ∨ e.role = 2 then 0 else b.rows

/-- A context that could be stepped but for its queue (R261). -/
def Panel.couldStep (p : Panel) (m : Nat) (d : ModelDesc) (slot : Nat) (e : CtxEntry) : Option (Nat × BatchEnt) :=
  if e.model ≠ m ∨ p.inStep e.handle ∨ e.cancel ∨ e.failing.isSome ∨ ¬ p.residentTo e ((e.pos + p.span e d) / d.ptok) then none
  else match p.want slot e d with
    | none => none
    | some (k, b) =>
      if (k = 1 ∨ k = 2) ∧ e.deadline ≠ 0 ∧ e.deadline ≤ p.dial then none else some (k, b)

/-- The queue of a context takes the records of a step, and its path is up. -/
def Panel.queueTakes (p : Panel) (e : CtxEntry) (n : Nat) : Bool :=
  n == 0 || ((p.pathDown e).isNone && decide (n ≤ p.queueRoom e))

/-- One context before another in a batch: priority, deadline, last step (R261). -/
def stepsBefore (a b : CtxEntry) : Bool :=
  let da := if a.deadline = 0 then 2 ^ 64 else a.deadline
  let db := if b.deadline = 0 then 2 ^ 64 else b.deadline
  if a.prio ≠ b.prio then decide (b.prio < a.prio)
  else if da ≠ db then decide (da < db)
  else decide (a.tStep < b.tStep)

def insertBy {α : Type} (lt : α → α → Bool) (x : α) : List α → List α
  | [] => [x]
  | y :: ys => if lt x y then x :: y :: ys else y :: insertBy lt x ys

/-- Candidates of an engine for a model, in batch order. -/
def Panel.candidates (p : Panel) (c : Crown) (m : Nat) (d : ModelDesc) : List (Nat × CtxEntry × Nat × BatchEnt) :=
  ((p.ledSlots c).filterMap fun x => (p.couldStep m d x.1 x.2).map fun y => (x.1, x.2, y.1, y.2)).foldl
    (fun l x => insertBy (fun a b => stepsBefore a.2.1 b.2.1) x l) []

/-- Bytes of a batch record. -/
def batchBytes (l : List BatchEnt) : Nat := (l.map fun b => 48 + 8 * b.nodes.length + 8 * b.moves.length).sum

/-- The batch filled from the candidates (R261): those taken, with their result rows set. -/
def fillBatch (d : ModelDesc) (kind : Nat) (room : CtxEntry → List (CtxEntry × Nat) → Bool) :
    List (Nat × CtxEntry × Nat × BatchEnt) → List (CtxEntry × Nat) → List BatchEnt → List BatchEnt
  | [], _, acc => acc
  | (_, e, k, b) :: cs, taken, acc =>
    let rows := (acc.map (·.rows)).sum
    let b := { b with row := rows }
    let fits := k == kind && !(e.solo && !acc.isEmpty) && decide (acc.length < d.bmax) &&
      decide (batchBytes (acc ++ [b]) ≤ d.brsz) && decide (520 * (rows + b.rows) ≤ d.rsz) &&
      room e (taken ++ [(e, recordsOf k e b)])
    if fits then
      if e.solo then [b]
      else fillBatch d kind room cs (taken ++ [(e, recordsOf k e b)]) (acc ++ [b])
    else fillBatch d kind room cs taken acc

/-- Room for a context's own records behind those that the batch already takes from the same queue. -/
def Panel.roomWith (p : Panel) (e : CtxEntry) (taken : List (CtxEntry × Nat)) : Bool :=
  p.queueTakes e (((taken.filter fun x => x.1.sameQueue e).map (·.2)).sum)

/-! ### Batch records (R263) -/

/-- Frame and HBM field of a page: 0xFFFF and zero when it is not there. -/
def Panel.pageFields (p : Panel) (e : CtxEntry) (d : ModelDesc) (j : Nat) : Nat × Nat :=
  match p.kvOf e.handle with
  | none => (0xFFFF, 0)
  | some k => match find k.pages j with
    | none => (0xFFFF, 0)
    | some x => (x.frame.getD 0xFFFF, bits (d.pageGA x.pool) 40 16)

/-- A 48-byte batch entry. -/
def Panel.batchEntry (p : Panel) (d : ModelDesc) (kind aux : Nat) (b : BatchEnt) : List Byte :=
  match p.ctxOf b.handle with
  | none => List.replicate 48 0
  | some (_, e) =>
    let f0 := p.pageFields e d (b.pos / d.ptok)
    let f1 := p.pageFields e d (b.pos / d.ptok + 1)
    let aux := if kind = 0 then (e.side + 0x1000 + 4 * b.pos) % 2 ^ 56 else aux
    leBytes 4 b.handle ++ leBytes 4 b.pos ++ leBytes 2 b.ntok ++ leBytes 2 e.rslot ++
      leBytes 4 (if kind = 1 then e.last else 0) ++ leBytes 4 (scaleOf e.temp) ++ leBytes 2 f0.1 ++ leBytes 2 f1.1 ++
      leBytes 4 f0.2 ++ leBytes 4 f1.2 ++ leBytes 8 aux ++ leBytes 4 b.row ++ List.replicate 4 0

/-- The node array or move list of a batch entry. -/
def Panel.batchArray (p : Panel) (b : BatchEnt) : List Byte :=
  let t : Option (CtxEntry × Round × ModelDesc) := match p.ctxOf b.handle with
    | some (.slot n, e) =>
      let ts := if e.role = 2 then (p.targetOf e.handle) else some (n, e)
      ts.bind fun x => (p.readyDesc x.2.model).map fun d => (x.2, (p.round x.1).getD { target := x.1 }, d)
    | _ => none
  match t with
  | none => b.moves.flatMap fun x => leBytes 4 x.1 ++ leBytes 4 x.2
  | some (e, r, d) =>
    (b.nodes.flatMap fun n =>
      leBytes 4 (if n = 0 then e.last else look 0 r.tokens n) ++ leBytes 1 (d.parent n) ++ leBytes 1 (d.depth 64 n) ++ [0, 0]) ++
      b.moves.flatMap fun x => leBytes 4 x.1 ++ leBytes 4 x.2

/-- The batch record of a step: entries, then arrays in batch order. -/
def Panel.batchRecord (p : Panel) (d : ModelDesc) (kind : Nat) (l : List BatchEnt) : List Byte :=
  let x := l.foldl (fun (acc : Nat × List Byte × List Byte) b =>
    let a := p.batchArray b
    (acc.1 + a.length, acc.2.1 ++ p.batchEntry d kind (if a.isEmpty then 0 else acc.1) b, acc.2.2 ++ a)) (48 * l.length, [], [])
  x.2.1 ++ x.2.2

/-! ### Starts (R262) -/

/-- `g1` of a step. -/
def stepG1 (num b slot kind : Nat) : Nat := num % 2 ^ 32 * 2 ^ 32 + b % 65536 * 65536 + slot % 256 * 256 + kind % 256

/-- The 96 bytes of a START (R64, R262). -/
def startBytes (c : Crown) (num part : Nat) (x : DescCore) (args : List Nat) : List Byte :=
  let w0 := num % 65536 * 2 ^ 48 + 2 ^ 47 + x.plan % 32 * 2 ^ 42 + part % 32 * 2 ^ 37 + (x.length - 1) % 1024 * 2 ^ 27 + x.offset % 2 ^ 27
  padTo 96 (leBytes 8 w0 ++ leBytes 8 (c.num + 1) ++ args.flatMap (leBytes 8))

/-- Core number of a core entry (R20). -/
def Panel.coreNumber (p : Panel) (x : DescCore) : Nat := x.y * p.fuses.lwidth + x.x

/-- Batch records and STARTs of a step sent to its core list: the record to each record core, then a START to each core. The
record is empty when there is none to write. -/
def Panel.sendStep (p : Panel) (c : Crown) (part num slot : Nat) (d : ModelDesc) (g1 : Nat) (inline record : List Byte)
    (args2 : Bool) : Panel :=
  let off := d.brec + slot * d.brsz
  let p := if record.isEmpty then p else (d.cores.filter fun x => x.roles.testBit 0).foldl (fun p x =>
    ((barCuts (record.length / 1024 + 2) (gaSpad x.x x.y off) record.length).foldl (fun (acc : List Byte × Panel) y =>
      let h : Header := { opcode := Opc.write, ga := y.1, bytes := y.2, len := lenFor y.1 y.2, part := part }
      (acc.1.drop y.2, acc.2.crownSend c false (.record num) h (unitsOf y.1 (acc.1.take y.2)))) (record, p)).2) p
  d.cores.foldl (fun p x =>
    let g2 := if args2 ∧ x.roles.testBit 0 then off else 0
    let rest := (List.range 6).map fun i => leAt inline (8 * i) 8
    let h : Header := { opcode := Opc.msg, ga := gaCoreReg x.x x.y 0, bytes := 96, len := 3, mkind := 1, part := part }
    p.crownSend c false (.start num (p.coreNumber x)) h (unitsOf 0 (startBytes c num part x (g1 :: g2 :: rest)))) p

/-- Workers that a manager's step goes to (R281): indices of active worker members. -/
def Panel.workers (p : Panel) (c : Crown) : List Nat :=
  if bits ((p.crown c).rd Reg.CTX_CFG) 31 30 = 1 ∧ grpValid p.grp then
    (List.range 64).filter fun i => let m := p.memb i; membValid m && membRole m == 3 && membState m != 3
  else []

/-- A step's packets and step commands sent, and the step recorded as sent now (R262, R281, R337). -/
def Panel.launch (p : Panel) (c : Crown) (s : Step) (d : ModelDesc) : Panel :=
  let part := (p.model s.model).part
  let b := s.batch.length
  let inline := b = 1 ∧ s.kind ≤ 1
  let record := p.batchRecord d s.kind s.batch
  let g1 := stepG1 s.num b s.slot s.kind
  let body := if inline then record.take 48 else []
  let ws := p.workers c
  let s := { s with
    sentAt := p.dial, cores := d.cores.map p.coreNumber, reported := [], workers := ws, wfail := none, reading := false
    asked := false, lists := [], sampled := [], failed := none, again := false }
  let p := p.modCrown c fun k => { k with steps := put k.steps s.num s }
  let p := p.sendStep c part s.num s.slot d g1 body record (¬ inline)
  ws.foldl (fun p i =>
    let cmd := leBytes 8 g1 ++ leBytes 2 (grpEpoch p.grp) ++ leBytes 1 s.model ++ leBytes 1 (b2n s.second) ++ List.replicate 4 0
    p.groupSend c (membDev (p.memb i)) 0x4701 (padTo 64 (cmd ++ body))) p

/-- Steps of a model in flight, on both engines. -/
def Panel.inflight (p : Panel) (m : Nat) : List Step :=
  [Crown.north, Crown.south].flatMap fun c => ((p.crown c).steps.filter fun x => x.2.model == m).map fun x => x.2

/-- An engine's steps in flight that use a core. -/
def CrownDie.startsAt (k : CrownDie) (n : Nat) : Nat := (k.steps.filter fun x => x.2.cores.contains n).length

/-- Step power per core in mW (R411): `estep` in µJ over the model's last step time, or 100 µs. -/
def Model.corePower (x : Model) (d : ModelDesc) (b : Nat) : Nat :=
  d.estep * (cdiv b 8 + 1) * 1000000 / max 1 (x.stepTime.getD 100000) / max 1 d.cores.length

/-- A load writes to a core of the list: the engine sends it no START (R240). -/
def Panel.writingTo (p : Panel) (d : ModelDesc) : Bool :=
  p.models.any fun m => m.2.state == 3 && m.2.table.any fun s =>
    (s.type == 1 || s.type == 2 || s.type == 3 || s.type == 4 || s.type == 6) && d.cores.any fun x => x.x == s.x && x.y == s.y

/-- The sites of a model's core list. -/
def Panel.modelSites (p : Panel) (d : ModelDesc) : List Nat := d.cores.filterMap fun x => p.lsite x.x x.y

/-- The gate of R411: the panel on which the step may start, or the panel on which it waits. -/
def Panel.powerGate (p : Panel) (m : Nat) (d : ModelDesc) (b : Nat) : Except Panel Panel :=
  let pc := (p.model m).corePower d b
  let sites := p.modelSites d
  let jump := (sites.map fun n => pc - (p.core n).floorMw).sum
  match p.rise jump with
  | some p => .ok (sites.foldl (fun p n => p.modCore n fun k => if k.floorMw < pc then k.setFloor (cdiv pc 250) else k) p)
  | none => .error (p.rampWait.raiseFloors sites pc)

/-! ### Commit (R276, R278) -/

/-- One token of a context: position, token, logprob and its flags. -/
structure Tok where
  position : Nat
  sample : Sampled
  spec : Bool
  deriving DecidableEq, Repr

/-- Tokens taken in order until a stop condition holds (R272): those posted, with the reason of the last. -/
def takeToks (d : ModelDesc) (e : CtxEntry) (s : Side) : List Nat → Nat → List Tok → List (Tok × Nat)
  | _, _, [] => []
  | recent, gen, t :: ts =>
    let r := stopReason d e s recent gen t.position t.sample.token
    if r ≠ 0 then [(t, r)] else (t, 0) :: takeToks d e s (recent ++ [t.sample.token]) (gen + 1) ts

/-- History-ring entries of generated tokens written (R253, R276). -/
def Panel.writeRing (p : Panel) (e : CtxEntry) : List Nat → Nat → Panel
  | [], _ => p
  | t :: ts, g => ((p.crownWrite e.part (e.side + 0x400 + 4 * (g % 256)) (leBytes 4 t)).2).writeRing e ts (g + 1)

/-- Pages wholly at or beyond a position given back with their frames (R278). -/
def Panel.trimPages (p : Panel) (e : CtxEntry) (d : ModelDesc) (position : Nat) : Panel :=
  match p.kvOf e.handle with
  | none => p
  | some k =>
    let keep := k.pages.filter fun x => decide (x.1 * d.ptok < position)
    let gone := k.pages.filter fun x => decide (position ≤ x.1 * d.ptok)
    let p := gone.foldl (fun p x => (p.crownWrite e.part (e.kvroot + 8 * x.1) (List.replicate 8 0)).2) p
    let k : KvPages := { k with pages := keep }
    let p := { p with kv := put p.kv (handleIndex e.handle) k }
    match p.ctxOf e.handle with
    | some (.slot n, f) => if gone.isEmpty then p else p.setEnt n { f with resmask := k.resmask f.rgran }
    | _ => p

/-- Tokens of a context committed: entry, ring and mirrors written, records due (R272, R274, R276). `pos` is the new position;
the entry ends with the reason of its last token, if it has one. -/
def Panel.commitToks (p : Panel) (c : Crown) (slot : Nat) (d : ModelDesc) (replay : Bool) (side : Side) (pos : Nat) (toks : List Tok) : Panel :=
  let e := p.ent slot
  let l := takeToks d e side (side.lastTokens e.gen 6) e.gen toks
  let n := l.length
  let rp := replay || e.replay
  let recs := ((List.range n).zip l).map fun x =>
    let t := x.2.1
    recBytes e.handle t.position t.sample.token t.sample.logprob 0 t.sample.approx t.spec (e.swapped && x.1 == 0) rp x.2.2 (x.2.2 != 0)
  let reason := (l.getLast?.map (·.2)).getD 0
  let last := (l.getLast?.map (·.1.sample.token)).getD e.last
  let pos := (l.getLast?.map (·.1.position)).getD pos
  let p := p.writeRing e (l.map (·.1.sample.token)) e.gen
  let new := { e with
    pos := pos, last := last, gen := (e.gen + n) % 2 ^ 32, tStep := p.dial, tFirst := if e.gen = 0 ∧ 0 < n then p.dial else e.tFirst
    slice := satAdd 0xFFFF e.slice 1, swapped := e.swapped && n == 0, replay := e.replay && n == 0
    state := if reason ≠ 0 then 5 else if e.state = 1 ∧ e.plen ≤ pos then 2 else e.state }
  let waits := match p.standby c with
    | some _ => (updatesOf 3 (e.changed new)).length
    | none => 0
  let p := p.setEnt slot new (some e.handle)
  if recs.isEmpty then p else p.commitRecs c new recs waits

/-- What waits for the boundary of a context's step (R273): its cancellation, or its failure. -/
def Panel.boundary (p : Panel) (handle : Nat) : Panel :=
  match p.ctxOf handle with
  | none => p
  | some (w, e) =>
    if e.state = 5 then p
    else match e.failing with
      | some st => p.finishCtx w e 7 st
      | none => if e.cancel then p.finishCtx w e 6 0 else p

/-- A step gone from flight; the ends that waited for its boundary follow. -/
def Panel.retire (p : Panel) (c : Crown) (s : Step) : Panel :=
  let p := p.modCrown c fun k => { k with steps := drop k.steps s.num }
  s.batch.foldl (fun p b => p.boundary b.handle) p

/-- The first run of a step has failed: it is run once more. The second has: every context of the batch ends (R264). -/
def Panel.failStep (p : Panel) (c : Crown) (s : Step) (status : Nat) : Panel :=
  let p := p.modCrown c fun k => k.bump Reg.CTX_STEP_FAIL_CNT
  if s.second then
    let p := s.batch.foldl (fun p b => match p.ctxOf b.handle with
      | some (w, e) => p.setCtx w { e with failing := some (e.failing.getD status) }
      | none => p) p
    p.retire c s
  else p.modCrown c fun k => { k with steps := put k.steps s.num { s with again := true, failed := some status } }

/-! ### Speculative rounds -/

/-- Children of a node among those drafted, in order. -/
def Round.children (r : Round) (d : ModelDesc) (n : Nat) : List Nat :=
  (r.tokens.filter fun x => d.parent x.1 == n && x.1 != 0).map (·.1)

/-- The accepted path from a node (R277). -/
def Round.walk (r : Round) (d : ModelDesc) : Nat → Nat → List Nat
  | 0, _ => []
  | fuel + 1, n => match find r.samples n with
    | none => []
    | some s => match (r.children d n).find? fun m => look 0 r.tokens m = s.token with
      | none => []
      | some m => m :: r.walk d fuel m

/-- The tokens that a round commits. -/
def Round.toks (r : Round) (d : ModelDesc) (pos : Nat) : List Tok :=
  let k := r.accepted.length
  let acc := ((List.range k).zip r.accepted).filterMap fun x =>
    let from' := if x.1 = 0 then 0 else r.accepted.getD (x.1 - 1) 0
    (find r.samples from').map fun s => ({ position := pos + x.1 + 1, sample := { s with token := look 0 r.tokens x.2 }, spec := true } : Tok)
  let tip := r.accepted.getLast?.getD 0
  let _ := d
  acc ++ (match find r.samples tip with
    | some s => [{ position := pos + k + 1, sample := s, spec := false }]
    | none => [])

/-- A round committed: target tokens, the draft context's `pos` and `last`, pages beyond given back (R277, R278). -/
def Panel.commitRound (p : Panel) (slot : Nat) (d : ModelDesc) (replay : Bool) : Panel :=
  match p.round slot with
  | none => p
  | some r =>
    let c := p.slotLeader slot
    let e := p.ent slot
    let x := p.readSide e
    let p := x.2.2.setRound slot none
    if 1 < x.1 then p.endCtx (.slot slot) e 7 x.1
    else
      let toks := r.toks d e.pos
      let p := p.setEnt slot { e with specacc := min (2 ^ 32 - 1) (e.specacc + r.accepted.length) }
      let p := p.commitToks c slot d replay x.2.1 (e.pos + r.accepted.length + 1) toks
      let e' := p.ent slot
      let p := p.trimPages e' d (e'.pos + 1)
      match p.ctxOf e.draft with
      | some (.slot n, f) =>
        let p := p.setEnt n { f with pos := e'.pos, last := e'.last, tStep := p.dial }
        (match p.readyDesc f.model with
          | some fd => p.trimPages f fd (e'.pos + 1)
          | none => p)
      | _ => p

/-- Tokens of a draft step's samples given to the nodes of the next depth (R277). -/
def Round.grow (r : Round) (d : ModelDesc) (nodes : Nat) (from' : List (Nat × Sampled)) : Round :=
  let new := ((List.range nodes).map (· + 1)).filterMap fun n =>
    match from'.find? (·.1 = d.parent n) with
    | none => none
    | some (_, s) => if d.depth 64 n = r.depth then (s.cands[d.nodeRank n]?).map fun t => (n, t) else none
  { r with tokens := new.foldl (fun m x => put m x.1 x.2) r.tokens, depth := r.depth + 1 }

/-- Depth of the nodes that a target uses. -/
def ModelDesc.deepest (d : ModelDesc) (nodes : Nat) : Nat := ((List.range nodes).map fun i => d.depth 64 (i + 1)).foldl max 0

/-! ### A step that is complete (R264, R272–R278) -/

/-- The effect of a completed step on one context of its batch: its samples are those of its rows. -/
def Panel.applyStep (p : Panel) (c : Crown) (s : Step) (d : ModelDesc) (b : BatchEnt) : Panel :=
  let samples := (s.sampled.drop b.row).take b.rows
  match p.ctxOf b.handle with
  | some (.slot n, e) =>
    if e.failing.isSome then p
    else if samples.any (·.none') then
      (p.modCrown c fun k => k.bump Reg.CTX_NOCAND_CNT ((samples.filter (·.none')).length)).setEnt n
        { e with failing := some (e.failing.getD St.uncorrectable) }
    else if s.kind = 0 ∧ b.rows = 0 then
      p.setEnt n { e with pos := b.pos + b.ntok, tStep := p.dial, slice := satAdd 0xFFFF e.slice 1 }
    else if s.kind ≤ 1 then
      let position := b.pos + b.ntok
      match samples with
      | [] => p
      | x :: _ =>
        if e.role = 2 then
          p.setEnt n { e with pos := position, last := x.token, tStep := p.dial, state := if position ≥ e.plen then 2 else e.state }
        else
          let sd := p.readSide e
          if 1 < sd.1 then sd.2.2.setEnt n { e with failing := some (e.failing.getD sd.1) }
          else (sd.2.2.setRound n none).commitToks c n d s.replay sd.2.1 position [{ position := position, sample := x, spec := false }]
    else if s.kind = 3 then
      match p.targetOf e.handle with
      | none => p
      | some (ts, t) => match p.readyDesc t.model with
        | none => p
        | some td =>
          let r := ((p.round ts).getD { target := ts }).grow td (t.nodes td) (b.nodes.zip samples)
          let r := if td.deepest (t.nodes td) < r.depth ∨ (r.frontier td).isEmpty then { r with stage := 1 } else r
          (p.setEnt n { e with last := t.last, tStep := p.dial }).setRound ts (some r)
    else if s.kind = 2 then
      match p.round n with
      | none => p
      | some r =>
        let r := { r with samples := (b.nodes.zip samples).foldl (fun (m : Sparse Sampled) (x : Nat × Sampled) => put m x.1 x.2) [] }
        let acc := r.walk d 65 0
        let r := { r with accepted := acc }
        if (r.moves e.pos).isEmpty then (p.setRound n (some r)).commitRound n d s.replay
        else p.setRound n (some { r with stage := 2 })
    else
      match (if e.role = 2 then p.targetOf e.handle else some (n, e)) with
      | none => p
      | some (ts, t) => match p.round ts, p.readyDesc t.model with
        | some r, some td =>
          if e.role ≠ 2 ∧ (p.usableDraft t).isSome then p.setRound ts (some { r with stage := 3 })
          else p.commitRound ts td s.replay
        | _, _ => p
  | _ => p

/-- A step that has completed: its contexts advance, and it leaves flight. -/
def Panel.completeStep (p : Panel) (c : Crown) (s : Step) (d : ModelDesc) : Panel :=
  let p := s.batch.foldl (fun p b => p.applyStep c s d b) p
  let p := p.modCrown c fun k => k.wrap Reg.CTX_STEPS 1
  let p := p.modModel s.model fun x => { x with stepTime := some (p.dial - s.began), stepsMs := put x.stepsMs c.num (look 0 x.stepsMs c.num + 1) }
  p.retire c s

/-! ### Penalty window -/

/-- Recent tokens for the penalty of row `i` of a batch entry: the last `pwin` generated tokens, with the tree tokens on the way
to the row's node behind them. -/
def Panel.recentFor (p : Panel) (e : CtxEntry) (side : Side) (node : Nat) : List Nat :=
  let base := side.lastTokens e.gen side.pwin
  let path : List Nat := match p.ctxOf e.handle with
    | some (.slot n, _) =>
      let ts := if e.role = 2 then p.targetOf e.handle else some (n, e)
      (match ts with
        | none => []
        | some (sl, t) => match p.round sl, p.readyDesc t.model with
          | some r, some d =>
            let rec up (fuel n : Nat) : List Nat := match fuel with
              | 0 => []
              | f + 1 => if n = 0 then [] else up f (d.parent n) ++ [look 0 r.tokens n]
            up 65 node
          | _, _ => [])
    | _ => []
  let all := base ++ path
  all.drop (all.length - side.pwin)

end Sys2Proof.Machine
end

