-- ==== Sys2Proof/Machine/ContextEngine.lean ====
section
/-! DEFINITION. The context engine's commands: admission, cancellation, messages, swaps, paging, steps, sampling, commits and ends
(R250–R282, R337–R339). -/

namespace Sys2Proof.Machine

open Host (Outcome)

/-- A command of an engine whose crown is not lost. -/
def State.atCrown (s : State) (c : Crown) (f : Panel → Panel) : Outcome State Fault Refusal :=
  s.onPanel fun p => if (p.crown c).lost ∨ (p.crown c).restartAt.isSome then p else f p

def Panel.cbump (p : Panel) (c : Crown) (off : Nat) (n : Nat := 1) : Panel := p.modCrown c fun k => k.bump off n

/-- CTX_CFG.role of an engine. -/
def Panel.ctxRole (p : Panel) (c : Crown) : Nat := bits ((p.crown c).rd Reg.CTX_CFG) 31 30

/-! ### Admission (R253–R255, R361) -/

/-- The entry that an ADMIT asks for. -/
def Req.entry (r : Req) (part : Nat) (d : ModelDesc) (dial : Nat) : CtxEntry :=
  let b1 := leAt r.bytes 1 1
  let w := leAt r.bytes 16 2
  let rgran := ((List.range 8).find? fun g => d.maxPages ≤ 64 * 2 ^ g).getD 7
  { state := 1, part := part, model := bits b1 7 4, oqf := b1.testBit 3, role := bits b1 2 1, solo := b1.testBit 0
    draft := leAt r.bytes 4 4, maxtok := leAt r.bytes 8 4, plen := leAt r.bytes 12 4, prio := bits w 14 12, oq := bits w 11 0
    odev := leAt r.bytes 18 2 % 4096, temp := leAt r.bytes 20 2, topp := leAt r.bytes 22 2, minp := leAt r.bytes 24 2
    rpen := leAt r.bytes 26 2, topk := leAt r.bytes 28 1 % 64, specd := min (leAt r.bytes 29 1 % 128) d.tree.length
    quantum := leAt r.bytes 30 2, seed := leAt r.bytes 32 8, deadline := leAt r.bytes 40 8, side := leAt r.bytes 48 8 % 2 ^ 56
    tAdmit := dial, rgran := rgran }

/-- A group whose manager holds a worker fenced: its models take no new context (R343). -/
def Panel.fencedWorker (p : Panel) (c : Crown) : Bool :=
  p.ctxRole c == 1 && (List.range 64).any fun i => let m := p.memb i; membValid m && membRole m == 3 && membState m == 2

/-- The output queue of an ADMIT is the requester's own (R361). -/
def Panel.ownQueue (p : Panel) (r : Req) (part : Nat) (e : CtxEntry) : Bool :=
  e.oqf || (match r.src with
    | .set _ _ fn => p.qOwner e.oq == some fn
    | .session _ _ _ => match p.qOwner e.oq with
      | some f => p.fnPart f == some part
      | none => false)

/-- The checks of R254, orders 1 and 2, and of R361: the entry, or the refusal. -/
def Panel.admitCheck (p : Panel) (c : Crown) (r : Req) : Option (CtxEntry × Panel) :=
  match r.part, p.readyDesc (bits (leAt r.bytes 1 1) 7 4) with
  | some part, some d =>
    let e := r.entry part d p.dial
    let draftOk := e.role != 1 || (match p.ctxOf e.draft with
      | some (_, f) => f.role == 2 && f.state != 5 && (p.readyDesc f.model).isSome
      | none => false)
    if (p.model e.model).part ≠ part ∨ ¬ draftOk ∨ p.fencedWorker c ∨ ¬ p.ownQueue r part e then none
    else
      let x := p.crownRead part e.side 2048
      if x.1 = St.notPermitted then none else some (e, x.2.2)
  | _, _ => none

/-- ADMIT. -/
def execAdmit (c : Crown) (s : State) : Outcome State Fault Refusal :=
  s.atCrown c fun p =>
    match p.nextReq c (· == 1) with
    | none => p
    | some (r, p) =>
      let m := bits (leAt r.bytes 1 1) 7 4
      if p.ctxRole c = 2 then (p.cbump c Reg.CTX_FOLLOW_REFUSE_CNT).finishReq r 0 St.notPermitted false m
      else match p.admitCheck c r with
        | none => (p.cbump c Reg.CTX_REFUSE_CNT).finishReq r 0 St.notPermitted false m
        | some (e, p) =>
          let ovf := (p.crown c).rd Reg.CTX_OVF_CFG
          let limit := (p.crown c).rd (Reg.CTX_PLIM + 4 * e.part) % 2 ^ 17
          let slot := if p.slotsOf e.part < limit then p.freeSlot else none
          match slot, p.newHandle with
          | some n, some (h, p) =>
            let p := p.setHandle (handleIndex h) { gen := handleGen h, live := some (.slot n) }
            ((p.setEnt n { e with handle := h }).cbump c Reg.CTX_ADMIT_CNT).finishReq r h St.done false m
          | none, some (h, p) =>
            if ¬ ovf.testBit 31 then (p.cbump c Reg.CTX_FULL_CNT).finishReq r 0 St.contextsFull false m
            else if bits ovf 20 0 ≤ p.heldRecs.length then (p.cbump c Reg.CTX_OVF_FULL_CNT).finishReq r 0 St.overflowFull false m
            else
              let x := p.pick (2 ^ 20) p.heldRecs.length fun i => (find p.heldRecs i).isSome
              let j := x.1.getD 0
              let p := x.2.setHandle (handleIndex h) { gen := handleGen h, live := some (.held j) }
              ((p.setHeld j (some { e with handle := h, state := 4, held := true })).cbump c Reg.CTX_HELD_CNT).finishReq r h
                St.done true m
          | _, none => (p.cbump c Reg.CTX_OVF_FULL_CNT).finishReq r 0 St.overflowFull false m

/-- CANCEL: accepted for a live handle of the requester's partition; the context ends at its step's boundary, or now. -/
def execCancel (c : Crown) (s : State) : Outcome State Fault Refusal :=
  s.atCrown c fun p =>
    match p.nextReq c (· == 2) with
    | none => p
    | some (r, p) =>
      let h := leAt r.bytes 4 4
      match p.ctxOf h with
      | none => p.finishReq r h St.notPermitted false 0
      | some (w, e) =>
        if r.part ≠ some e.part then p.finishReq r h St.notPermitted false 0
        else (p.finishReq r h St.done false 0).endCtx w e 6 0

/-! ### Messages (R250, R532) -/

/-- Whether a core holds a START of this engine whose report is still awaited. -/
def Panel.holdsStart (p : Panel) (c : Crown) (h : Header) : Bool :=
  h.sedge == 0 && (p.crown c).steps.any fun s =>
    let n := siteOf h.sc h.sr
    let i := p.site n
    s.2.cores.contains (siteR n * p.fuses.lwidth + i.lx) && !(s.2.reported.any fun r => r.1 == siteR n * p.fuses.lwidth + i.lx)

/-- CTX_MSG_RECEIVE: the MSG at the head of the crown's arrivals is queued, or refused and counted. -/
def execCtxMsgReceive (c : Crown) (s : State) : Outcome State Fault Refusal :=
  s.atCrown c fun p =>
    let k := p.crown c
    match look [] k.arr 0 with
    | [] => p
    | x :: rest =>
      if x.hdr.opcode ≠ Opc.msg then p
      else
        let who : Issuer := .crown c x.hdr.dc
        let p := p.setCrown c { k with arr := put k.arr 0 rest }
        let pl := x.payload
        let refuse (st : Nat) : Panel := (p.cbump c Reg.CTX_MSG_REFUSE_CNT).refuse who x st
        if bits x.hdr.ga 31 0 ≠ 0 ∨ x.hdr.mkind ≠ 2 then refuse St.notPermitted
        else if 64 < x.hdr.bytes then refuse St.notPermitted
        else if pl.2.1 then refuse St.uncorrectable
        else if x.hdr.bytes = 32 ∧ x.hdr.mtag = 0xFFFF ∧ p.holdsStart c x.hdr then
          (p.modCrown c fun k => { k with reportq := k.reportq ++ [(siteOf x.hdr.sc x.hdr.sr, pl.1)] }).complete who x.hdr St.done
        else if 256 ≤ k.msgq.length then refuse St.timedOut
        else
          (p.modCrown c fun k => { k with
            msgq := k.msgq ++ [{ tag := x.hdr.mtag, sc := x.hdr.sc, sr := x.hdr.sr, sedge := x.hdr.sedge, part := x.hdr.part, payload := pl.1 }] }).complete
            who x.hdr St.done

/-- Tags that the engine itself takes from its message queue (R336). -/
def engineTag (t : Nat) : Bool := t == 0x4701 || t == 0x4702 || t == 0x4703 || t == 0x4705 || t == 0x4710 || (0x8000 ≤ t && t ≤ 0x8FFF)

/-- The message at the head of the queue, when its tag is wanted. Messages that are for service firmware are taken as they come
to the head. -/
def Panel.nextMsg (p : Panel) (c : Crown) (want : Nat → Bool) : Option (CtxMsg × Panel) :=
  let q := (p.crown c).msgq.dropWhile fun m => !engineTag m.tag
  match q with
  | [] => none
  | m :: rest => if want m.tag then some (m, p.modCrown c fun k => { k with msgq := rest }) else none

/-! ### Swaps and paging (R257, R267, R268) -/

/-- The held context that is swapped in next. -/
def Panel.nextHeld (p : Panel) : Option (Nat × CtxEntry) :=
  p.heldRecs.foldl (fun acc x => match acc with
    | none => some x
    | some y => if y.2.prio < x.2.prio ∨ (y.2.prio = x.2.prio ∧ x.2.tAdmit < y.2.tAdmit) then some x else acc) none

/-- The swappable context that makes room: lowest priority, then largest slice. -/
def Panel.swappable (p : Panel) : Option (Nat × CtxEntry) :=
  (p.slots.filter fun x => decide (x.2.quantum ≠ 0 ∧ x.2.quantum ≤ x.2.slice ∧ x.2.state ≠ 5) && !p.inStep x.2.handle).foldl
    (fun acc x => match acc with
      | none => some x
      | some y => if x.2.prio < y.2.prio ∨ (x.2.prio = y.2.prio ∧ y.2.slice < x.2.slice) then some x else acc) none

/-- A draft context that goes while its target waits for the draft's compact step: the target's round is committed without it
(R278). -/
def Panel.orphanRound (p : Panel) (e : CtxEntry) : Panel :=
  if e.role ≠ 2 then p
  else match p.targetOf e.handle with
    | none => p
    | some (ts, t) => match p.round ts, p.readyDesc t.model with
      | some r, some td => if r.stage = 3 then p.commitRound ts td false else p
      | _, _ => p

/-- A context swapped out of its slot into the list. -/
def Panel.swapOut (p : Panel) (slot : Nat) : Panel :=
  let p := p.orphanRound (p.ent slot)
  let e0 := p.ent slot
  let p := (p.dropFrames slot e0).setRound slot none
  let e := p.ent slot
  let x := p.pick (2 ^ 20) p.heldRecs.length fun i => (find p.heldRecs i).isSome
  let j := x.1.getD 0
  let p := (x.2.setEnt slot { e with state := 0 }).setHeld j (some { e with state := 4 })
  p.setHandle (handleIndex e.handle) { gen := handleGen e.handle, live := some (.held j) }

/-- A held context swapped into a slot. -/
def Panel.swapTo (p : Panel) (j slot : Nat) (e : CtxEntry) : Panel :=
  let p := (p.setHeld j none).setEnt slot { e with state := 3, slice := 0, swaps := min (2 ^ 32 - 1) (e.swaps + 1), swapped := true }
  p.setHandle (handleIndex e.handle) { gen := handleGen e.handle, live := some (.slot slot) }

/-- SWAP_IN. -/
def execSwapIn (c : Crown) (s : State) : Outcome State Fault Refusal :=
  s.atCrown c fun p =>
    match p.nextHeld with
    | none => p
    | some (j, e) =>
      match p.freeSlot with
      | some n => (p.swapTo j n e).cbump c Reg.CTX_SWAP_CNT
      | none => match p.swappable with
        | none => p
        | some (n, v) =>
          if e.prio < v.prio then p
          else ((p.swapOut n).swapTo j n e).cbump c Reg.CTX_SWAP_CNT 2

/-- PAGE_IN: residency, or a wait that changes nothing else. -/
def execPageIn (c : Crown) (handle : W32) (s : State) : Outcome State Fault Refusal :=
  s.atCrown c fun p =>
    match p.ctxOf handle.toNat with
    | some (.slot n, e) =>
      if p.slotLeader n ≠ c ∨ e.state = 0 ∨ e.state = 5 ∨ p.inStep e.handle then p
      else match p.readyDesc e.model with
        | none => p
        | some d => match p.bringIn n e d with
          | .ok p => p
          | .error .frame => p.cbump c Reg.CTX_FRAME_WAIT_CNT
          | .error .pool => (p.setEnt n { e with waiting := true }).cbump c Reg.CTX_KV_WAIT_CNT
          | .error (.failed st) => p.endCtx (.slot n) e 7 st
    | _ => p

/-! ### Steps (R261, R262, R264) -/

/-- Contexts that could be stepped but for their queue: their stalls counted (R275). -/
def Panel.noteStalls (p : Panel) (c : Crown) (l : List (Nat × CtxEntry × Nat × BatchEnt)) : Panel :=
  l.foldl (fun p x =>
    if p.queueTakes x.2.1 (recordsOf x.2.2.1 x.2.1 x.2.2.2) then p
    else (p.setEnt x.1 { x.2.1 with oqstall := min (2 ^ 32 - 1) (x.2.1.oqstall + 1) }).cbump c Reg.CTX_OQ_STALL_CNT) p

/-- Step numbers: those of the two engines never meet. -/
def Panel.newStep (p : Panel) (c : Crown) : Nat × Panel :=
  let n := (p.crown c).nextStep
  ((2 * n + c.num) % 2 ^ 32, p.modCrown c fun k => { k with nextStep := n + 1 })

/-- A core whose latched uncorrectable codeword lies in a weight or program section of a ready model: the model's number and
the offset (R505). -/
def Panel.badRow (p : Panel) (n : Nat) : Option (Nat × Nat) :=
  let v := (p.core n).rd Reg.SPAD_ERR_ADDR
  let off := v % 2 ^ 27
  let covers (t : SectEnt) : Bool :=
    (t.type == 1 || t.type == 6) && decide (t.target ≤ off) && decide (off < t.target + t.length) && p.lsite t.x t.y == some n
  if ¬ v.testBit 31 then none
  else (p.models.find? fun x => x.2.state == 4 && x.2.table.any covers).map fun x => (x.1, off)

/-- The sites of a step's cores whose rows can be restored before its second run (R505). -/
def Panel.restorable (p : Panel) (s : Step) : List Nat :=
  if s.failed = some St.uncorrectable then
    (s.cores.filterMap fun i => p.lsite (i % p.fuses.lwidth) (i / p.fuses.lwidth)).filter fun n => (p.badRow n).isSome
  else []

/-- STEP_START: the second run of a failed step first; else a new step over the eligible contexts. -/
def execStepStart (c : Crown) (m : Fin 16) (s : State) : Outcome State Fault Refusal :=
  s.atCrown c fun p =>
    let x := p.model m
    match p.readyDesc m with
    | none => p
    | some d =>
      if x.stopped ∨ p.fatal ∨ p.shedding ∨ p.ctxRole c = 2 ∨ p.writingTo d then p
      else match (p.crown c).steps.find? fun s => s.2.model == m.val && s.2.again with
        | some (_, old) => if ¬ old.restored ∧ ¬ (p.restorable old).isEmpty then p else match p.powerGate m d old.batch.length with
          | .error p => p
          | .ok p =>
            let n := p.newStep c
            let p := n.2.modCrown c fun k => { k with steps := drop k.steps old.num }
            (p.cbump c Reg.CTX_REPLAY_CNT).launch c { old with num := n.1, second := true, again := false, replay := true } d
        | none =>
          let fl := p.inflight m
          if d.inflight ≤ fl.length ∨ (d.cores.any fun y => decide (4 ≤ (p.crown c).startsAt (p.coreNumber y))) then p
          else
            let all := p.candidates c m d
            let p := p.noteStalls c all
            let ok := all.filter fun y => p.queueTakes y.2.1 (recordsOf y.2.2.1 y.2.1 y.2.2.2)
            match ok with
            | [] => p
            | y :: _ =>
              let batch := fillBatch d y.2.2.1 p.roomWith ok [] []
              if batch.isEmpty then p
              else match p.powerGate m d batch.length with
                | .error p => p
                | .ok p =>
                  let slot := ((List.range 4).find? fun i => !(fl.any fun s => s.slot == i)).getD 0
                  let n := p.newStep c
                  let replays := batch.any fun b => match p.ctxOf b.handle with
                    | some (_, e) => e.replay
                    | none => false
                  let p := if replays then n.2.cbump c Reg.CTX_REPLAY_CNT else n.2
                  p.launch c { num := n.1, model := m, slot := slot, kind := y.2.2.1, batch := batch, began := p.dial } d

/-- Reports taken from the queue and counted to their steps (R264). -/
def CrownDie.takeReports (k : CrownDie) : CrownDie :=
  let k' := k.reportq.foldl (fun k r =>
    let tag := leAt r.2 0 2
    let core := leAt r.2 4 2
    { k with steps := k.steps.map fun s =>
        if s.2.num % 65536 = tag ∧ s.2.cores.contains core ∧ ¬ s.2.reported.any (·.1 = core) then
          (s.1, { s.2 with reported := s.2.reported ++ [(core, St.taken (leAt r.2 2 1))] })
        else s }) k
  { k' with reportq := [] }

/-- A context that loses its residency and replays (R280). -/
def Panel.unseat (p : Panel) (n : Nat) (e : CtxEntry) : Panel :=
  let p := (p.dropFrames n e).setRound n none
  let e := p.ent n
  p.setEnt n { e with state := if e.state = 1 ∨ e.state = 2 then 3 else e.state, replay := true }

/-- A step abandoned without commit (R280): its contexts lose their residency and replay. -/
def Panel.abandon (p : Panel) (c : Crown) (s : Step) : Panel :=
  let p := s.batch.foldl (fun p b => match p.ctxOf b.handle with
    | some (.slot n, e) => p.unseat n e
    | _ => p) p
  p.retire c s

/-- READ_REQ packets for every result row of a step from every shard core (R265, R269). -/
def Panel.readRows (p : Panel) (c : Crown) (s : Step) (d : ModelDesc) (rows : Nat) : Panel :=
  (List.range rows).foldl (fun p q =>
    (d.cores.filter fun x => x.roles.testBit 1).foldl (fun p x =>
      let ga := gaSpad x.x x.y (d.rlist + s.slot * d.rsz + 520 * q)
      let h : Header := { opcode := Opc.readReq, ga := ga, bytes := 520, len := 1, part := (p.model s.model).part }
      p.crownSend c false (.row s.num (512 * q + x.list)) h (unitsOf 0 (leBytes 32 (gaCrown c 0)))) p) p

/-- The step report of a follower (R337). -/
def Panel.sendStepReport (p : Panel) (c : Crown) (s : Step) (status : Nat) : Panel :=
  let dev := bits ((p.crown c).rd Reg.CTX_GRP) 51 40
  let bs := s.command.take 8 ++ leBytes 2 (grpEpoch p.grp) ++ leBytes 1 status ++ leBytes 1 s.model ++
    leBytes 4 s.reported.length ++ leBytes 8 p.dial ++ List.replicate 8 0
  (p.modCrown c fun k => { k with steps := drop k.steps s.num }).groupSend c dev 0x4702 bs

/-- A step whose reports are in, or that has failed: it completes, goes on to its rows, fails, or is abandoned. -/
def Panel.judgeStep (p : Panel) (c : Crown) (s : Step) : Panel :=
  let bad := match s.failed with
    | some st => some st
    | none => match s.reported.find? (·.2 ≠ St.done) with
      | some r => some r.2
      | none => s.wfail
  if s.reports = 1 then
    match bad with
    | some st => p.sendStepReport c s st
    | none => if s.cores.all fun n => s.reported.any (·.1 = n) then p.sendStepReport c s St.done else p
  else match bad with
    | some st => if st = St.drained then p.abandon c s else p.failStep c s st
    | none =>
      if s.reading ∨ ¬ (s.cores.all fun n => s.reported.any (·.1 = n)) ∨ ¬ s.workers.isEmpty then p
      else match (p.model s.model).desc with
        | none => p
        | some d =>
          let rows := (s.batch.map (·.rows)).sum
          if rows = 0 then p.completeStep c s d
          else (p.modCrown c fun k => { k with steps := put k.steps s.num { s with reading := true, asked := true } }).readRows c s d rows

/-- STEP_COMPLETE. -/
def execStepComplete (c : Crown) (step : Nat) (s : State) : Outcome State Fault Refusal :=
  s.atCrown c fun p =>
    let p := p.modCrown c CrownDie.takeReports
    match find (p.crown c).steps step with
    | none => p
    | some x => if x.again then p else p.judgeStep c x

/-- STEP_TIMEOUT: reports are missing `steptmo` ms after the last START. -/
def execStepTimeout (c : Crown) (step : Nat) (s : State) : Outcome State Fault Refusal :=
  s.atCrown c fun p =>
    let p := p.modCrown c CrownDie.takeReports
    match find (p.crown c).steps step with
    | none => p
    | some x =>
      let tmo := bits ((p.crown c).rd Reg.CTX_CFG) 23 16
      let missing := ¬ (x.cores.all fun n => x.reported.any (·.1 = n)) ∨ ¬ x.workers.isEmpty
      if ¬ x.again ∧ missing ∧ p.since x.sentAt (tmo * ms) then
        (if x.reports = 1 then p.sendStepReport c x St.timedOut else p.failStep c x St.timedOut)
      else p

/-- The position that a row samples, and its tree node (R269, R277). -/
def Panel.rowPlace (p : Panel) (s : Step) (e : CtxEntry) (b : BatchEnt) (i : Nat) : Nat × Nat :=
  let node := b.nodes.getD i 0
  if s.kind ≤ 1 then (b.pos + b.ntok, 0)
  else
    let t := if e.role = 2 then (p.targetOf e.handle).map (·.2) else some e
    match t with
    | none => (b.pos, node)
    | some t => match p.readyDesc t.model with
      | none => (b.pos, node)
      | some d => (t.pos + d.depth 64 node + 1, node)

/-- SAMPLE_ROW: the next row of a step whose lists have all arrived; the step completes with its last row. -/
def execSampleRow (c : Crown) (step : Nat) (s : State) : Outcome State Fault Refusal :=
  s.atCrown c fun p =>
    match find (p.crown c).steps step with
    | none => p
    | some x => match (p.model x.model).desc with
      | none => p
      | some d =>
        let i := x.sampled.length
        if ¬ x.reading ∨ x.again then p
        else match x.failed with
          | some st => p.failStep c x st
          | none =>
            let lists := (List.range d.nlist).map fun j => find x.lists (512 * i + j)
            match x.batch.find? fun b => decide (b.row ≤ i) && decide (i < b.row + b.rows) with
            | none => p
            | some b =>
              if ¬ lists.all (·.isSome) then p
              else match p.ctxOf b.handle with
                | none => p
                | some (w, e) =>
                  let sd := p.readSide e
                  let pl := p.rowPlace x e b (i - b.row)
                  let r := sampleOf d.vocab e pl.1 (p.recentFor e sd.2.1 pl.2) (lists.map fun l => l.getD [])
                  let p := if 1 < sd.1 then sd.2.2.setCtx w { e with failing := some (e.failing.getD sd.1) } else sd.2.2
                  let x := { x with sampled := x.sampled ++ [r] }
                  let p := p.modCrown c fun k => { k with steps := put k.steps x.num x }
                  if x.sampled.length = (x.batch.map (·.rows)).sum then p.completeStep c x d else p

/-! ### Commits, ends and time-outs (R252, R273, R275, R276) -/

/-- The first element that a test takes, removed. -/
def pluck {α : Type} (f : α → Bool) : List α → Option (α × List α)
  | [] => none
  | x :: xs => if f x then some (x, xs) else (pluck f xs).map fun y => (y.1, x :: y.2)

/-- MIRROR_ACK: the oldest commit of a context is posted, once a standby has answered too. -/
def execMirrorAck (c : Crown) (handle : W32) (s : State) : Outcome State Fault Refusal :=
  s.atCrown c fun p =>
    match pluck (fun m => m.handle == handle.toNat) (p.crown c).commits with
    | none => p
    | some (m, rest) =>
      if m.standby ≠ 0 then p
      else match p.ctxOf m.handle with
        | none => p.modCrown c fun k => { k with commits := rest }
        | some (_, e) => m.recs.foldl (fun p bs => p.deliver c e bs) (p.modCrown c fun k => { k with commits := rest })

/-- DEADLINE_EXPIRE. -/
def execDeadlineExpire (c : Crown) (handle : W32) (s : State) : Outcome State Fault Refusal :=
  s.atCrown c fun p =>
    match p.ctxOf handle.toNat with
    | none => p
    | some (w, e) =>
      if e.deadline = 0 ∨ p.dial < e.deadline ∨ e.state = 5 ∨ p.inStep e.handle then p
      else p.finishCtx w e 5 0

/-- CONTEXT_FREE: what a draining context held is released once its records have been posted. -/
def execContextFree (c : Crown) (handle : W32) (s : State) : Outcome State Fault Refusal :=
  s.atCrown c fun p =>
    match p.ctxOf handle.toNat with
    | some (.slot n, e) =>
      if e.state ≠ 5 ∨ p.slotLeader n ≠ c ∨ (p.crown c).commits.any (·.handle = e.handle) ∨ p.inStep e.handle then p
      else ((((p.orphanRound e).setRound n none).freePages e.handle).setEnt n { e with state := 0 }).freeHandle e.handle
    | _ => p

/-- OUTPUT_PATH_TIMEOUT. -/
def execOutputPathTimeout (c : Crown) (handle : W32) (s : State) : Outcome State Fault Refusal :=
  s.atCrown c fun p =>
    match p.ctxOf handle.toNat with
    | none => p
    | some (w, e) => match p.pathDown e with
      | none => p
      | some t =>
        if p.since t (bits ((p.crown c).rd Reg.CTX_CFG) 15 8 * ms) then p.endCtx w e 7 St.portDown true else p

/-! ### Forecast (R282, R413) -/

/-- Step energy of one interval in mJ, from the steps of the last millisecond and the contexts at hand. -/
def Panel.forecast (p : Panel) (c : Crown) : Nat :=
  (p.models.map fun x => match x.2.desc with
    | none => 0
    | some d =>
      let n := ((p.ledSlots c).filter fun y => decide (y.2.model = x.1 ∧ (y.2.state = 1 ∨ y.2.state = 2))).length
      let b := min n d.bmax
      if n = 0 then 0 else d.estep * (cdiv b 8 + 1) * look 0 x.2.stepsMs c.num / 1000).sum

/-- FORECAST_POST: once in each millisecond of dial time. -/
def execForecastPost (c : Crown) (s : State) : Outcome State Fault Refusal :=
  s.atCrown c fun p =>
    let base := Reg.PWR_FCAST + 32 * c.num
    let t := p.dial / ms * ms
    let last := p.sh base + p.sh (base + 4) * 2 ^ 32
    if t ≤ last ∧ last ≠ 0 then p
    else
      let f := p.forecast c % 2 ^ 32
      let ws := [t % 2 ^ 32, t / 2 ^ 32 % 2 ^ 32, f, f, f, f, f, 0]
      let p := ((List.range 8).zip ws).foldl (fun p x => p.setSh (base + 4 * x.1) x.2) p
      { p with models := p.models.map fun x => (x.1, { x.2 with stepsMs := put x.2.stepsMs c.num 0 }) }

/-! ### Followers and fabric output (R281, R337–R339) -/

/-- STEP_COMMAND: a command of the follower's own epoch starts its core list; any other is ignored and counted. -/
def execStepCommand (c : Crown) (s : State) : Outcome State Fault Refusal :=
  s.atCrown c fun p =>
    match if p.fatal ∨ p.shedding then none else p.nextMsg c (· == 0x4701) with
    | none => p
    | some (m, p) =>
      if leAt m.payload 8 2 ≠ grpEpoch p.grp ∨ p.ctxRole c ≠ 2 then
        (match p.firstPort with
          | none => p
          | some d => p.modPort d fun k => k.bump Reg.PORT_STEP_STALE_CNT)
      else
        let g1 := leAt m.payload 0 8
        let mn := leAt m.payload 10 1 % 16
        let x : Step :=
          { num := bits g1 63 32, model := mn, slot := bits g1 15 8 % 4, kind := bits g1 7 0, reports := 1
            command := m.payload, began := p.dial, sentAt := p.dial, replay := (leAt m.payload 11 1).testBit 0 }
        match p.readyDesc mn with
        | none => p.sendStepReport c x St.notPermitted
        | some d =>
          let x := { x with cores := d.cores.map p.coreNumber }
          let inline := bits g1 31 16 = 1 ∧ x.kind ≤ 1
          (p.modCrown c fun k => { k with steps := put k.steps x.num x }).sendStep c (p.model mn).part x.num x.slot d g1
            (if inline then m.payload.drop 16 else []) [] (¬ inline)

/-- STEP_REPORT: a follower's report counts toward the manager's step. -/
def execStepReport (c : Crown) (s : State) : Outcome State Fault Refusal :=
  s.atCrown c fun p =>
    match p.nextMsg c (· == 0x4702) with
    | none => p
    | some (m, p) =>
      let num := leAt m.payload 4 4
      match find (p.crown c).steps num with
      | none => p
      | some x =>
        let st := St.taken (leAt m.payload 10 1)
        p.modCrown c fun k => { k with
          steps := put k.steps num { x with
            workers := x.workers.drop 1
            wfail := if st ≠ St.done ∧ x.wfail.isNone then some st else x.wfail } }

/-- A mirrored entry put where its state says that it stands. -/
def Panel.placeMirror (p : Panel) (h : Nat) (w : Option Place) (e : CtxEntry) : Panel :=
  let set (p : Panel) (l : Option Place) : Panel := p.setHandle (handleIndex h) { gen := handleGen h, live := l }
  match w with
  | some (.slot n) =>
    if e.state = 0 then set (p.storeEnt n e) none
    else if e.state = 4 then
      let x := p.pick (2 ^ 20) p.heldRecs.length fun i => (find p.heldRecs i).isSome
      set ((x.2.storeEnt n { e with state := 0 }).setHeld (x.1.getD 0) (some e)) (some (.held (x.1.getD 0)))
    else p.storeEnt n e
  | some (.held j) =>
    if e.state = 0 then set (p.setHeld j none) none
    else if e.state = 4 then p.setHeld j (some e)
    else match p.freeSlot with
      | none => p.setHeld j (some e)
      | some n => set ((p.setHeld j none).storeEnt n e) (some (.slot n))
  | none =>
    if e.state = 0 then p
    else match p.freeSlot with
      | none => p
      | some n => set (p.storeEnt n e) (some (.slot n))

/-- MIRROR_UPDATE: changed words of an entry written at the standby. -/
def execMirrorUpdate (c : Crown) (s : State) : Outcome State Fault Refusal :=
  s.atCrown c fun p =>
    match p.nextMsg c (· == 0x4703) with
    | none => p
    | some (m, p) =>
      let h := leAt m.payload 0 4
      let mask := leAt m.payload 4 2
      let old := p.ctxOf h
      let e0 : CtxEntry := match old with
        | some (_, e) => e
        | none => { handle := h }
      let idx := (List.range 16).filter fun i => mask.testBit i
      let e := ((List.range idx.length).zip idx).foldl (fun e x => e.setWord x.2 (leAt m.payload (8 + 8 * x.1) 8)) e0
      p.placeMirror h (old.map (·.1)) e

/-- TOKEN_RECORD_MESSAGE: records of a fabric queue placed in the panel's own host token queue; they wait for room. -/
def execTokenRecordMessage (c : Crown) (s : State) : Outcome State Fault Refusal :=
  s.atCrown c fun p =>
    match p.nextMsg c fun t => 0x8000 ≤ t && t ≤ 0x8FFF with
    | none => p
    | some (m, p') =>
      let q := m.tag - 0x8000
      let n := m.payload.length / 16
      let k := p.qset q
      if ¬ k.on then p'
      else if k.tcqRoom < n then p
      else p'.modQ q fun k => { k with tdue := k.tdue ++ (List.range n).map fun i => (m.payload.drop (16 * i)).take 16 }

/-- FABRIC_RECORD_RESEND: messages of a queue answered TIMED_OUT or PORT_DOWN 10 µs ago are sent again. -/
def execFabricRecordResend (c : Crown) (queue : Fin 4096) (s : State) : Outcome State Fault Refusal :=
  s.atCrown c fun p =>
    (p.crown c).fab.foldl (fun p x => match x.2.resendAt with
      | none => p
      | some t =>
        if x.1 % 4096 ≠ queue.val ∨ p.dial < t then p
        else
          let p := p.modCrown c fun k => { k with fab := put k.fab x.1 { x.2 with resendAt := none } }
          p.peerSend c (x.1 / 4096) (0x8000 + x.1 % 4096) (.tokens x.1) ((x.2.recs.take x.2.sent).flatMap (·.bytes))) p

/-! ### Answers to the engine's own packets -/

/-- A step changed, if it is in flight. -/
def Panel.modStep (p : Panel) (c : Crown) (num : Nat) (f : Step → Step) : Panel :=
  match find (p.crown c).steps num with
  | none => p
  | some x => p.modCrown c fun k => { k with steps := put k.steps num (f x) }

/-- The contexts of records that their device refuses end (R339). -/
def Panel.refusedRecords (p : Panel) (l : List FabRec) (status : Nat) : Panel :=
  l.foldl (fun p r => match p.ctxOf r.handle with
    | some (w, e) => p.endCtx w e 7 status
    | none => p) p

/-- The answer to a message of token records. -/
def Panel.tokensAnswer (p : Panel) (c : Crown) (key status : Nat) : Panel :=
  let q := look {} (p.crown c).fab key
  let set (q : FabQueue) : Panel := p.modCrown c fun k => { k with fab := put k.fab key q }
  if St.ok status then (set { q with recs := q.recs.drop q.sent, sent := 0 }).fabPump c key
  else if status = St.notPermitted ∨ status = St.windowClosed then
    ((set { q with recs := q.recs.drop q.sent, sent := 0 }).refusedRecords (q.recs.take q.sent) status).fabPump c key
  else set { q with resendAt := some (p.dial + 10 * us) }

/-- The answer to a group message: TIMED_OUT is sent again after 10 µs; a mirror update of a commit no longer holds it. -/
def Panel.groupAnswer (p : Panel) (c : Crown) (id status : Nat) : Panel :=
  match (p.crown c).group.find? (·.id = id) with
  | none => p
  | some g =>
    if status = St.timedOut then
      p.modCrown c fun k => { k with group := k.group.map fun x => if x.id = id then { x with resendAt := some (p.dial + 10 * us) } else x }
    else
      let p := p.modCrown c fun k => { k with group := k.group.filter (·.id ≠ id) }
      match g.commit with
      | none => p
      | some h => match pluck (fun m => m.handle == h && m.standby != 0) (p.crown c).commits with
        | none => p
        | some (m, _) => p.modCrown c fun k => { k with
            commits := k.commits.map fun x => if x == m then { x with standby := x.standby - 1 } else x }

/-- What an answer to a crown's own request does (R269, R264, R336, R339, R354). -/
def Panel.crownAnswer (p : Panel) (c : Crown) (use : CrownUse) (status : Nat) (data : List Byte) (bad : Bool) : Panel :=
  let fails := !St.ok status
  match use with
  | .start step core => p.modStep c step fun x => if fails then { x with reported := x.reported ++ [(core, status)] } else x
  | .record step => p.modStep c step fun x => if fails then { x with failed := some (x.failed.getD status) } else x
  | .row step key => p.modStep c step fun x =>
      if fails then { x with failed := some (x.failed.getD status) }
      else if bad then { x with failed := some (x.failed.getD St.uncorrectable) }
      else { x with lists := put x.lists key data }
  | .group id => p.groupAnswer c id status
  | .tokens key => p.tokensAnswer c key status
  | .barWrite fn id => p.barWriteAnswer fn id status
  | .barRead fn id piece => p.barReadAnswer fn id piece status data bad

/-! ### Registers (R248, R283) -/

/-- CTX_CFG. -/
def Panel.ctxCfgWrite (p : Panel) (c : Crown) (value : W64) : Panel :=
  let v := value.toNat % 2 ^ 32
  let old := (p.crown c).rd Reg.CTX_CFG
  if bits v 31 30 = 3 ∨ bits v 23 16 = 0 ∨ bits v 15 8 = 0 ∨ (bits v 31 30 ≠ bits old 31 30 ∧ p.anyCtx) then
    p.cbump c Reg.CTX_CFG_IGN_CNT
  else p.modCrown c fun k => k.wr Reg.CTX_CFG (v &&& 0xC0FFFF00)

/-- Every band of 256 MiB of a stack from an offset on is a service band. -/
def Hub.serviceBands (k : Hub) (off : Nat) : Bool :=
  (List.range 5).all fun i => bits (k.band (min (off + i * 0x4000000) (off + 0xFFFFFFF))) 7 6 == 2

/-- CTX_SVC_BASE: ignored while a context exists, or when the region is not stack-local, aligned and in service bands. -/
def Panel.svcBaseWrite (p : Panel) (c : Crown) (value : W64) : Panel :=
  let v := value.toNat % 2 ^ 56
  let ok : Bool := match p.decodeGA v with
    | .ok (.hbm h off) => v.testBit 41 && v % 2 ^ 20 == 0 && decide (off + 0x10000000 ≤ stackTop) && (p.hub h).serviceBands off
    | _ => false
  if p.anyCtx ∨ ¬ ok then p.cbump c Reg.CTX_CFG_IGN_CNT
  else p.modCrown c fun k => k.wr Reg.CTX_SVC_BASE v

/-- CTX_OVF_CFG, CTX_GRP and CTX_PLIM: both crowns are updated. -/
def Panel.bothCrowns (p : Panel) (off v : Nat) : Panel :=
  (p.modCrown .north fun k => k.wr off v).modCrown .south fun k => k.wr off v

def Panel.ovfCfgWrite (p : Panel) (c : Crown) (value : W64) : Panel :=
  let v := value.toNat % 2 ^ 32
  if bits v 20 0 = 0 ∨ 0x100000 < bits v 20 0 then p.cbump c Reg.CTX_CFG_IGN_CNT else p.bothCrowns Reg.CTX_OVF_CFG (v &&& 0x801FFFFF)

def Panel.plimWrite (p : Panel) (part : Nat) (value : W64) : Panel :=
  p.bothCrowns (Reg.CTX_PLIM + 4 * part) (value.toNat % 2 ^ 17)

/-- CTX_STATUS (R283). -/
def Panel.ctxStatus (p : Panel) (c : Crown) : Nat :=
  let led := p.ledSlots c
  led.length % 2 ^ 17 * 2 ^ 15 + (p.crown c).steps.length % 256 * 128 + b2n (led.any fun x => x.2.waiting) * 2 +
    b2n (p.ctxLeader 0 == p.ctxLeader 1 && p.ctxLeader 0 == c)

end Sys2Proof.Machine
end

