-- ==== Sys2Proof/Machine/Groups.lean ====
section
/-! DEFINITION. Groups of panels: seen masks, suspects and their decision, expulsion, adoption, takeover, and the goodput
counters (R335–R346). -/

namespace Sys2Proof.Machine

open Host (Outcome)

/-! ### Group control (R336, R344) -/

/-- The 32 bytes of a group control message. -/
def controlBytes (action index epoch dev dial : Nat) : List Byte :=
  leBytes 1 action ++ leBytes 1 index ++ leBytes 2 epoch ++ leBytes 2 dev ++ [0, 0] ++ leBytes 8 dial ++ List.replicate 16 0

/-- Group control sent to every other member. -/
def Panel.control (p : Panel) (c : Crown) (action index dev : Nat) : Panel :=
  let p := p.logCrown c (.crown c) { cls := 0x14, level := 4, unit := action, addr := dev }
  (List.range 64).foldl (fun p i =>
    let m := p.memb i
    if membValid m ∧ p.ownDevice ≠ some (membDev m) then
      p.groupSend c (membDev m) 0x4705 (controlBytes action index (grpEpoch p.grp) dev p.dial)
    else p) p

/-- A device's blocked bit set in every port die. -/
def Panel.blockDevice (p : Panel) (dev : Nat) : Panel :=
  p.allPorts fun k => k.wr (Reg.PORT_DEVBLK + 4 * (dev / 32)) (k.rd (Reg.PORT_DEVBLK + 4 * (dev / 32)) ||| 2 ^ (dev % 32))

/-! ### Seen masks (R341) -/

/-- A member's last beacon in any port die: dial time and health. -/
def Panel.lastBeacon (p : Panel) (i : Nat) : Option (Nat × Nat) :=
  (List.range 8).foldl (fun acc d => match find (p.port d).health i, acc with
    | some x, none => some x
    | some x, some y => if y.1 < x.1 then some x else acc
    | none, _ => acc) none

/-- Whether this crown's view decides about a member: the manager sees every member, the standby the manager alone. -/
def Panel.viewed (p : Panel) (i : Nat) : Bool :=
  let m := p.memb i
  membValid m && some (membDev m) != p.ownDevice &&
    (grpRole p.grp == 1 || (grpRole p.grp == 2 && membRole m == 1))

/-- A member is fatal by its last beacon. -/
def Panel.beaconFatal (p : Panel) (i : Nat) : Bool := match p.lastBeacon i with
  | some x => x.2.testBit 3
  | none => false

/-- A member is still missing or fatal (R342). -/
def Panel.absentMember (p : Panel) (i : Nat) : Bool := decide (3 ≤ membMiss (p.memb i)) || p.beaconFatal i

/-- An interval closed: misses counted, and members missing after three, or fatal, made suspect. -/
def Panel.closeInterval (p : Panel) (c : Crown) : Panel :=
  let k := p.crown c
  (List.range 64).foldl (fun p i =>
    let m := p.memb i
    if ¬ p.viewed i then p
    else
      let seen := k.seenMask.testBit i
      let miss := if seen then 0 else satAdd 255 (look 0 (p.crown c).miss i) 1
      let p := p.modCrown c fun k => { k with miss := put k.miss i miss }
      let p := p.setMembFld i 23 16 miss
      if membState m = 0 ∧ (3 ≤ miss ∨ p.beaconFatal i) then p.setMembFld i 27 26 1 else p) p

/-- Port dies whose masks an interval waits for. -/
def Panel.liveDies (p : Panel) : Nat := ((List.range 8).filter fun d => p.fuses.diePresent d && !(p.port d).lost).length

/-- SEEN_MASK_RECEIVE: a mask is or-ed in; the interval closes with the last die's mask, or when a newer interval's arrives. -/
def execSeenMaskReceive (c : Crown) (s : State) : Outcome State Fault Refusal :=
  s.atCrown c fun p =>
    match p.nextMsg c (· == 0x4710) with
    | none => p
    | some (m, p) =>
      let iv := leAt m.payload 8 4
      let mask := leAt m.payload 0 8
      let src := 100 * siteOf m.sc m.sr + m.sedge
      let k := p.crown c
      let newer := iv ≠ k.seenIv
      let p := if newer ∧ ¬ k.seenFrom.isEmpty then p.closeInterval c else p
      let p := p.modCrown c fun k => { k with
        seenIv := iv
        seenMask := if newer then mask else k.seenMask ||| mask
        seenFrom := if newer then [src] else insertNat k.seenFrom src }
      if (p.crown c).seenFrom.length < p.liveDies then p
      else (p.closeInterval c).modCrown c fun k => { k with seenMask := 0, seenFrom := [] }

/-! ### Suspects (R342–R344) -/

/-- The active spare of lowest index. -/
def Panel.activeSpare (p : Panel) : Option Nat :=
  (List.range 64).find? fun i => let m := p.memb i; membValid m && membRole m == 4 && membState m == 0

/-- Members that are not unavailable. -/
def Panel.membersLeft (p : Panel) : Nat := ((List.range 64).filter fun i => let m := p.memb i; membValid m && membState m != 3).length

/-- PORT_GRP_ALERT of every port die, without the bit that `PortDie.alertView` shows. -/
def Panel.setAlert (p : Panel) (v : Nat) : Panel := p.allPorts fun k => k.wr Reg.PORT_GRP_ALERT v
def Panel.alert (p : Panel) : Nat := match p.firstPort with
  | none => 0
  | some d => (p.port d).rd Reg.PORT_GRP_ALERT

/-- Alert bits whose cause has ended cleared (R348). -/
def Panel.settleAlert (p : Panel) : Panel :=
  let fenced := (List.range 64).any fun i => let m := p.memb i; membValid m && membState m == 2
  let a := p.alert
  let a := if ¬ fenced ∨ p.activeSpare.isSome then a &&& 0x7FFFFFFF else a
  let a := if ¬ fenced ∨ grpQuorum p.grp ≤ p.membersLeft - 1 then a &&& 0xBFFFFFFF else a
  if a = p.alert then p else p.setAlert a

/-- Dial time of the last expulsion; zero when there was none. -/
def Panel.lastExp (p : Panel) : Nat := match p.firstPort with
  | none => 0
  | some d => (p.port d).rd Reg.PORT_GRP_LASTEXP

/-- An expulsion was made in the last 10 s. -/
def Panel.recentExp (p : Panel) : Bool := p.lastExp != 0 && decide (p.dial < p.lastExp + 10000 * ms)

/-- Steps in flight that use an expelled member abandoned, and the contexts of the models left to wait and replay (R344). -/
def Panel.loseMember (p : Panel) (i : Nat) : Panel :=
  [Crown.north, Crown.south].foldl (fun p c =>
    if (p.workers c).contains i then (p.crown c).steps.foldl (fun p s => p.abandon c s.2) p else p) p

/-- CTX_GRP of both crowns names another standby. -/
def Panel.nameStandby (p : Panel) (dev : Nat) : Panel :=
  [Crown.north, Crown.south].foldl (fun p c => p.modCrown c fun k =>
    k.wr Reg.CTX_GRP (setFld (rfGet k.regs Reg.CTX_GRP) 39 28 dev).toNat) p

/-- A member expelled; the spare takes its index (R344). -/
def Panel.expel (p : Panel) (c : Crown) (i spare : Nat) : Panel :=
  let old := membDev (p.memb i)
  let dev := membDev (p.memb spare)
  let p := p.loseMember i
  let p := p.setEpoch ((grpEpoch p.grp + 1) % 65536)
  let p := if membRole (p.memb i) = 2 then p.nameStandby dev else p
  let p := p.setMembFld i 11 0 dev
  let p := p.setMembFld i 27 26 0
  let p := p.setMembFld i 23 16 0
  let p := p.setMemb spare 0
  let p := p.allPorts fun k => k.wr Reg.PORT_GRP_LASTEXP p.dial
  let p := (p.control c 3 i old).control c 4 i dev
  let p := { p.blockDevice old with awaited := put p.awaited i old }
  { p with models := p.models.map fun x => (x.1, if x.2.state = 4 then { x.2 with stopped := true } else x.2) }

/-- A suspect decided (R342). -/
def Panel.decide' (p : Panel) (c : Crown) (i : Nat) : Panel :=
  let m := p.memb i
  let n := p.membersLeft
  let back := match p.lastBeacon i with
    | some x => x.2.testBit 0 && !x.2.testBit 3 && membMiss m == 0
    | none => false
  if back then ({ p with flaps := put p.flaps i (look 0 p.flaps i + 1) }.setMembFld i 27 26 0).settleAlert
  else if membRole m = 4 then p.setMembFld i 27 26 3
  else
    match p.activeSpare with
    | some sp =>
      if n - 1 < grpQuorum p.grp ∨ p.recentExp then
        let q := decide (n - 1 < grpQuorum p.grp)
        let p := p.setMembFld i 27 26 2
        let p := p.setAlert ((p.alert &&& 0xFFFFFFC0) ||| (if q then 2 ^ 30 else 0) ||| i)
        let p := if q then p else { p with limited := insertNat p.limited i }
        p.control c 1 i (membDev m)
      else p.expel c i sp
    | none =>
      let q := decide (n - 1 < grpQuorum p.grp)
      let p := p.setMembFld i 27 26 2
      let p := p.setAlert ((p.alert &&& 0xFFFFFFC0) ||| 2 ^ 31 ||| (if q then 2 ^ 30 else 0) ||| i)
      p.control c 1 i (membDev m)

/-- SUSPECT_DECISION: the manager decides a suspect, or again a fenced member when a spare is active. -/
def execSuspectDecision (c : Crown) (i : Fin 64) (s : State) : Outcome State Fault Refusal :=
  s.atCrown c fun p =>
    let m := p.memb i
    if grpRole p.grp ≠ 1 ∨ ¬ membValid m then p
    else if membState m = 1 then p.decide' c i
    else if membState m = 2 ∧ p.activeSpare.isSome ∧ ¬ p.limited.contains i ∧ p.absentMember i then p.decide' c i
    else p

/-- EXPULSION_LIMIT_END: the members fenced only by the 10-s limit are decided again, in index order. -/
def execExpulsionLimitEnd (c : Crown) (s : State) : Outcome State Fault Refusal :=
  s.atCrown c fun p =>
    if grpRole p.grp ≠ 1 ∨ p.recentExp then p
    else
      let l := p.limited
      l.foldl (fun p i => if p.absentMember i then p.decide' c i else p) { p with limited := [] }

/-! ### Takeover (R345) -/

/-- Contexts led again from their mirror: each posts its last record again with `replay` (R279). -/
def Panel.relead (p : Panel) (c : Crown) (slots : List (Nat × CtxEntry)) : Panel :=
  slots.foldl (fun p x =>
    let e := p.ent x.1
    let p := if e.gen = 0 ∨ e.role = 2 ∨ e.state = 5 then p
      else p.deliver c e (recBytes e.handle e.pos e.last 0 0 false false false true 0 false)
    p) p

/-- MANAGER_TAKEOVER: the standby whose own view makes the manager suspect takes its role. -/
def execManagerTakeover (c : Crown) (s : State) : Outcome State Fault Refusal :=
  s.atCrown c fun p =>
    let g := p.grp
    let mgr := (List.range 64).find? fun i => let m := p.memb i; membValid m && membRole m == 1
    match mgr, p.ownIndex with
    | some i, some own =>
      if grpRole g ≠ 2 ∨ membState (p.memb i) ≠ 1 then p
      else
        let p := p.setEpoch ((grpEpoch g + 1) % 65536)
        let p := (p.setRole 1).setMembFld own 30 28 1
        let p := p.setMembFld i 30 28 3
        let dev := p.ownDevice.getD 0
        let next := p.activeSpare
        let p := match next with
          | some j => p.setMembFld j 30 28 2
          | none => p
        let grp := 2 ^ 63 + dev * 2 ^ 40 + (match next with
          | some j => membDev (p.memb j) * 2 ^ 28
          | none => 0)
        let p := [Crown.north, Crown.south].foldl (fun p c => p.modCrown c fun k =>
          (k.wr Reg.CTX_CFG (setFld (rfGet k.regs Reg.CTX_CFG) 31 30 1).toNat).wr Reg.CTX_GRP grp) p
        let p := p.control c 5 own dev
        p.relead c p.slots
    | _, _ => p

/-! ### Group control received (R344, R345) -/

/-- Group control of one action taken from the message queue; its epoch is adopted when higher. A message of a lower epoch, or of
one at 32,768, is not acted upon. -/
def Panel.takeControl (p : Panel) (c : Crown) (action : Nat) : Option (Nat × Nat × Panel) :=
  match (p.crown c).msgq.dropWhile fun m => !engineTag m.tag with
  | [] => none
  | m :: rest =>
    if m.tag ≠ 0x4705 ∨ leAt m.payload 0 1 ≠ action then none
    else
      let e := leAt m.payload 2 2
      let cmp := epochCmp e (grpEpoch p.grp)
      let p := p.modCrown c fun k => { k with msgq := rest }
      let p := match p.firstPort with
        | some d => p.seeEpoch d e
        | none => p
      if cmp = 2 ∨ cmp = 3 then some (64, 0, p)
      else
        let dev := leAt m.payload 4 2 % 4096
        some (leAt m.payload 1 1 % 64, dev, p.logCrown c (.crown c) { cls := 0x14, level := 4, unit := action, addr := dev })

/-- A meaning over a control message that is acted upon. -/
def Panel.onControl (p : Panel) (c : Crown) (action : Nat) (f : Nat → Nat → Panel → Panel) : Panel :=
  match p.takeControl c action with
  | none => p
  | some (i, dev, p) => if i = 64 then p else f i dev p

/-- GROUP_FENCE. -/
def execGroupFence (c : Crown) (s : State) : Outcome State Fault Refusal :=
  s.atCrown c fun p => p.onControl c 1 fun i _ p => p.setMembFld i 27 26 2

/-- GROUP_UNFENCE. -/
def execGroupUnfence (c : Crown) (s : State) : Outcome State Fault Refusal :=
  s.atCrown c fun p => p.onControl c 2 fun i _ p => (p.setMembFld i 27 26 0).settleAlert

/-- GROUP_EXPEL: the expelled device is blocked in every port die. -/
def execGroupExpel (c : Crown) (s : State) : Outcome State Fault Refusal :=
  s.atCrown c fun p => p.onControl c 3 fun _ dev p => p.blockDevice dev

/-- The manager's device and the message that a spare is ready. -/
def Panel.sendReady (p : Panel) (c : Crown) (i : Nat) : Panel :=
  match (List.range 64).find? fun j => let m := p.memb j; membValid m && membRole m == 1 with
  | none => p
  | some j => p.groupSend c (membDev (p.memb j)) 0x4705 (controlBytes 6 i (grpEpoch p.grp) (p.ownDevice.getD 0) p.dial)

/-- Models of the panel that a load has yet to bring to ready. -/
def Panel.anyLoading (p : Panel) : Bool := p.models.any fun x => x.2.state == 1 || x.2.state == 2 || x.2.state == 3

/-- GROUP_ADOPT: every member takes the spare's device for the index; the spare itself becomes a worker, and is ready once its
models are. -/
def execGroupAdopt (c : Crown) (s : State) : Outcome State Fault Refusal :=
  s.atCrown c fun p => p.onControl c 4 fun i dev p =>
    let own := p.ownDevice = some dev
    let spare := (List.range 64).find? fun j => let m := p.memb j; membValid m && membDev m == dev && j != i
    let p := match spare with
      | some j => p.setMemb j 0
      | none => p
    let p := (p.setMembFld i 11 0 dev).setMembFld i 27 26 0
    if own then
      let p := p.setRole (membRole (p.memb i))
      if p.anyLoading then { p with adopting := true, awaited := put p.awaited i dev } else p.sendReady c i
    else p

/-- GROUP_TAKEOVER: the standby has become the manager; a former manager is a follower. -/
def execGroupTakeover (c : Crown) (s : State) : Outcome State Fault Refusal :=
  s.atCrown c fun p => p.onControl c 5 fun i dev p =>
    let p := (List.range 64).foldl (fun p j =>
      let m := p.memb j
      if membValid m ∧ membRole m = 1 ∧ j ≠ i then p.setMembFld j 30 28 3 else p) p
    let p := p.setMembFld i 30 28 1
    let p := if grpRole p.grp = 1 then p.stepDown else p
    [Crown.north, Crown.south].foldl (fun p c => p.modCrown c fun k =>
      k.wr Reg.CTX_GRP (setFld (rfGet k.regs Reg.CTX_GRP) 51 40 dev).toNat) p

/-- GROUP_READY: the adopting spare is ready; the models' steps go on and their contexts replay. -/
def execGroupReady (c : Crown) (s : State) : Outcome State Fault Refusal :=
  s.atCrown c fun p => p.onControl c 6 fun i _ p =>
    let p := { p with awaited := drop p.awaited i }
    if p.awaited.isEmpty then
      let p := { p with models := p.models.map fun (x : Nat × Model) => (x.1, ({ x.2 with stopped := false } : Model)) }
      p.slots.foldl (fun p x => p.setEnt x.1 { p.ent x.1 with replay := true }) p
    else p

/-- GROUP_MESSAGE_RESEND: group messages answered TIMED_OUT 10 µs ago are sent again. -/
def execGroupMessageResend (c : Crown) (s : State) : Outcome State Fault Refusal :=
  s.atCrown c fun p =>
    (p.crown c).group.foldl (fun p g => match g.resendAt with
      | none => p
      | some t =>
        if p.dial < t then p
        else
          let p := p.modCrown c fun k => { k with
            group := k.group.map fun x => if x.id = g.id then { x with resendAt := none } else x }
          p.peerSend c g.dev g.tag (.group g.id) g.payload) p

/-! ### Goodput (R346) -/

/-- A partition has an eligible context and committed no token in the last millisecond, for one of the causes of R346. -/
def Panel.uselessMs (p : Panel) : Bool :=
  p.slots.any fun x =>
    let d := (p.model x.2.model).desc
    let stuck := (p.model x.2.model).stopped || x.2.replay ||
      [Crown.north, Crown.south].any fun c => (p.crown c).steps.any fun s => s.2.model == x.2.model && (s.2.again || s.2.second)
    let idle := !(p.slots.any fun y => y.2.part == x.2.part && decide (p.dial < y.2.tStep + ms))
    d.isSome && decide (x.2.state = 1 ∨ x.2.state = 2 ∨ x.2.replay) && stuck && idle

/-- GOODPUT_TICK: once in each millisecond of dial time, at a manager or at a panel alone. -/
def execGoodputTick (c : Crown) (s : State) : Outcome State Fault Refusal :=
  s.atCrown c fun p =>
    if p.ctxRole c = 2 ∨ p.maint ∨ p.dial / ms ≤ p.goodputAt then p
    else
      let useful := ¬ p.uselessMs
      let p := { p with goodputAt := p.dial / ms }
      p.allPorts fun k =>
        let k := k.wrap Reg.PORT_GP_TOTAL 1
        if useful then k.wrap Reg.PORT_GP_USEFUL 1 else k

end Sys2Proof.Machine
end

