-- ==== Sys2Proof/Machine/Loading.lean ====
section
/-! DEFINITION. Windows (R231–R234), placement images and the load of a model (R235–R245, R259). -/

namespace Sys2Proof.Machine

open Host (Outcome)

/-! ### Windows (R231–R233) -/

/-- A window entry that R233 refuses. -/
def Panel.winBad (p : Panel) (e : WinEnt) : Bool :=
  let cls := bits e.base 55 52
  let rd := e.perm.testBit 3
  let wr := e.perm.testBit 2
  let ac := e.perm.testBit 1
  let sg := e.perm.testBit 0
  let reg := cls == 1 || cls == 5
  let endGA := e.base + 4096 * (e.size + 1) - 1
  let same := match p.decodeGA e.base, p.decodeGA endGA with
    | .ok (.spad x y _), .ok (.spad x' y' _) => x == x' && y == y'
    | .ok (.coreReg x y _), .ok (.coreReg x' y' _) => x == x' && y == y'
    | .ok (.crownSpace c _), .ok (.crownSpace c' _) => c == c'
    | .ok (.hbm _ _), .ok (.hbm _ _) => p.sameTarget e.base endGA
    | _, _ => false
  e.valid && (!(cls == 0 || cls == 1 || cls == 2 || cls == 5) || e.base % 4096 != 0 || !same ||
    (reg && (e.size != 0 || rd || wr || ac)) || ((cls == 0 || cls == 2) && sg) || (ac && cls == 2))

/-- A window entry written: the crown's entry and every port die's copy (R231, R233). -/
def Panel.winWrite (p : Panel) (w word : Nat) (value : W64) : Panel :=
  let off := Reg.WIN_ENT + 32 * w
  let keep := if word = 0 then 0xFCFFFFFFFFFFFFFF else if word = 1 then 2 ^ 64 - 1 else if word = 2 then 0x1FFFFFF else 0
  let v := value.toNat &&& keep
  let at' (i : Nat) : Nat := if i = word then v else p.sh (off + 8 * i)
  if p.winBad (WinEnt.ofWords (at' 0) (at' 1) (at' 2)) then p.bumpSh Reg.WIN_CFG_IGN_CNT
  else (p.setSh (off + 8 * word) v).allPorts fun k => k.wr (Reg.WIN_ENT_COPY + 32 * w + 8 * word) v

/-! ### Images (R235–R237) -/

/-- A section entry from its 32 bytes. -/
def SectEnt.ofBytes (b : List Byte) : SectEnt :=
  { type := leAt b 0 1, plan := leAt b 1 1, x := leAt b 2 1, y := leAt b 3 1, target := leAt b 4 4, hbm := leAt b 8 8
    length := leAt b 16 4, zero := leAt b 20 8 == 0 && leAt b 28 4 == 0 }

/-- A section that is written into a scratchpad. -/
def SectEnt.data (s : SectEnt) : Bool := s.type == 1 || s.type == 6

/-- A section aimed at a core. -/
def SectEnt.aimed (s : SectEnt) : Bool := s.type == 1 || s.type == 2 || s.type == 3 || s.type == 4 || s.type == 6

/-- A section that the weights digest takes; the programs digest takes the others. -/
def SectEnt.weights (s : SectEnt) : Bool := s.type == 6

/-- Stack and offset of a section, when it lies within one present stack. -/
def SectEnt.place (p : Panel) (s : SectEnt) : Option (Nat × Nat) :=
  if ¬ s.hbm.testBit 41 then none
  else match p.decodeGA s.hbm with
    | .ok (.hbm h off) => if off + s.length ≤ stackTop then some (h, off) else none
    | _ => none

/-- A field or a reserved byte of a section entry is illegal (R235, R236). -/
def SectEnt.illegal (s : SectEnt) : Bool :=
  !(1 ≤ s.type && s.type ≤ 7) || !s.zero || s.hbm % 4096 != 0 || s.length == 0 || decide (spadTop < s.length) ||
    (s.type == 2) != (1 ≤ s.plan && s.plan ≤ 31) || decide (31 < s.plan) ||
    (if s.data then decide (spadTop < s.target + s.length) else s.target != 0) ||
    (s.type == 2 && s.length != 16) || (s.type == 3 && s.length != 4) || (s.type == 4 && s.length % 8 != 0) ||
    (s.type == 5 && s.length % 4 != 0) || (s.type == 7 && (s.x != 0 || s.y != 0))

def extentsMeet (a n b m : Nat) : Bool := decide (a < b + m) && decide (b < a + n)

/-- Every pair of a list meets a relation. -/
def pairwiseB {α : Type} (r : α → α → Bool) : List α → Bool
  | [] => true
  | x :: xs => xs.all (r x) && pairwiseB r xs

/-- The section table keeps R237, and every section lies in the partition's HBM (R235). -/
def Panel.tableOk (p : Panel) (part : Nat) (t : List SectEnt) : Bool :=
  t.all (fun s => !s.illegal && (match s.place p with
    | none => false
    | some (h, off) => (p.hub h).bandsOk off s.length part false)) &&
  pairwiseB (fun a b =>
    (match a.place p, b.place p with
      | some x, some y => !(x.1 == y.1 && extentsMeet x.2 a.length y.2 b.length)
      | _, _ => false) &&
    !(a.data && b.data && a.x == b.x && a.y == b.y && extentsMeet a.target a.length b.target b.length) &&
    !(a.type == 3 && b.type == 3 && a.x == b.x && a.y == b.y) && !(a.type == 7 && b.type == 7)) t

/-! ### The model descriptor (R259) -/

/-- A descriptor from the bytes of its section; none when a field is outside its range. -/
def ModelDesc.ofBytes (lw : Nat) (b : List Byte) : Option ModelDesc :=
  let ncore := leAt b 8 2
  let ntree := leAt b 14 1
  let neos := leAt b 15 1
  let cores := (List.range ncore).map fun i =>
    let e := (b.drop (256 + 16 * i)).take 16
    ({ x := leAt e 0 1, y := leAt e 1 1, roles := leAt e 2 1, plan := leAt e 3 1, offset := leAt e 4 4, length := leAt e 8 2
       list := leAt e 10 2 } : DescCore)
  let pad := (List.range ncore).all fun i => leAt b (256 + 16 * i + 12) 4 == 0
  let tree := (List.range ntree).map fun i =>
    ({ parent := leAt b (256 + 16 * ncore + 4 * i) 1, rank := leAt b (256 + 16 * ncore + 4 * i + 1) 1 } : TreeNode)
  let treePad := (List.range ntree).all fun i => leAt b (256 + 16 * ncore + 4 * i + 2) 2 == 0
  let d : ModelDesc :=
    { vocab := leAt b 0 4, maxctx := leAt b 4 4, nlist := leAt b 10 2, bmax := leAt b 12 1 + 1, inflight := leAt b 13 1
      eos := (List.range (min neos 4)).map fun i => leAt b (16 + 4 * i) 4
      ptok := leAt b 32 2, pchunk := leAt b 34 2, nres := leAt b 36 2, frames := leAt b 38 2, kvbase := leAt b 40 4
      ftbase := leAt b 44 4, brec := leAt b 48 4, brsz := leAt b 52 4, rlist := leAt b 56 4, rsz := leAt b 60 4
      kvpool := leAt b 64 8, npool := leAt b 72 4, estep := leAt b 76 4, cores := cores, tree := tree }
  let lists := (cores.filter fun x => x.roles.testBit 1).map (·.list)
  let ok := decide (b.length = 256 + 16 * ncore + 4 * ntree) && (1 ≤ d.vocab && d.vocab ≤ 1048576) && (1 ≤ ncore && ncore ≤ 320) &&
    (1 ≤ d.nlist && d.nlist ≤ 320) && (1 ≤ d.inflight && d.inflight ≤ 4) && decide (ntree ≤ 64) && decide (neos ≤ 4) &&
    decide (65 ≤ d.ptok) && (1 ≤ d.pchunk && d.pchunk ≤ d.ptok) && (1 ≤ d.nres && d.nres ≤ 4096) && (1 ≤ d.frames && d.frames ≤ 1792) &&
    d.kvbase % 65536 == 0 && (1 ≤ d.maxctx && d.maxctx ≤ 8192 * d.ptok) && d.brsz % 32 == 0 && d.rsz % 520 == 0 &&
    bits d.kvpool 63 52 == 2 && !d.kvpool.testBit 41 && (b.drop 80).take 176 == List.replicate 176 0 && pad && treePad &&
    cores.all (fun x => decide (x.x < lw) && decide (x.y < 16) && decide (x.roles < 8) && decide (x.plan < 32) &&
      (1 ≤ x.length && x.length ≤ 1024) && x.offset % 16 == 0 && decide (x.offset + 16 * x.length ≤ spadTop) &&
      (if x.roles.testBit 1 then decide (x.list < d.nlist) else x.list == 0xFFFF)) &&
    pairwiseB (fun (a b : Nat) => a != b) lists && decide (lists.length = d.nlist) &&
    ((List.range ntree).zip tree).all (fun x => decide (x.2.parent < x.1 + 1) && decide (x.2.rank < 64))
  if ok then some d else none

/-! ### Sections at the hubs (R238, R239) -/

/-- Bytes of a range of one stack, as stored. -/
def Panel.rawAt (p : Panel) (h off n : Nat) : List Byte := (p.hub h).rawBytes off n

/-- The hubs armed with the extents of an image. -/
def Panel.arm (p : Panel) (m h off : Nat) (t : List SectEnt) : Panel :=
  let n := 256 + 32 * t.length
  let head : Section :=
    { model := m, index := none, start := off, length := n, done := n, digest := some (sm3 (p.rawAt h off n)) }
  let p := p.modHub h fun k => { k with sections := k.sections ++ [head] }
  ((List.range t.length).zip t).foldl (fun p x => match x.2.place p with
    | none => p
    | some (h, off) => p.modHub h fun k => { k with
        sections := k.sections ++ [{ model := m, index := some x.1, start := off, length := x.2.length }] }) p

/-- Every hub without what it holds for a model. -/
def Panel.disarm (p : Panel) (m : Nat) : Panel :=
  { p with hubs := p.hubs.map fun x => (x.1, { x.2 with sections := x.2.sections.filter (·.model ≠ m) }) }

/-- The image unsealed. -/
def Panel.unseal (p : Panel) (m : Nat) : Panel :=
  { p with hubs := p.hubs.map fun x => (x.1, { x.2 with seals := x.2.seals.filter (·.2.2 ≠ m) }) }

/-- The digest of a section of a model: of the whole table, or by number. -/
def Panel.sectionOf (p : Panel) (m : Nat) (i : Option Nat) : Option Section :=
  (p.hubs.flatMap fun x => x.2.sections).find? fun s => s.model = m ∧ s.index = i

/-- The pages of a range sealed at its hub (R242). -/
def Panel.sealRange (p : Panel) (m h off n : Nat) : Panel :=
  p.modHub h fun k => { k with seals := k.seals ++ [(off / 4096, (off + n - 1) / 4096, m)] }

/-! ### States of a load (R240, R241) -/

/-- Reduction entries that a load wrote invalidated. -/
def Panel.dropRed (p : Panel) (m : Nat) : Panel :=
  ((p.model m).red.foldl (fun p x => p.modCore x.1 fun k => k.wr (Reg.MESH_RED + 8 * x.2) 0) p).modModel m fun x => { x with red := [] }

/-- The request of a model completes. -/
def Panel.endLoad (p : Panel) (m status : Nat) : Panel :=
  match (p.model m).req with
  | none => p
  | some r => (p.modModel m fun x => { x with req := none }).finishReq r 0 status false m

/-- A load that has failed. -/
def Panel.failLoad (p : Panel) (m cause status : Nat) : Panel :=
  let p := ((p.dropRed m).unseal m).disarm m
  (p.modModel m fun x => { x with state := 5, cause := cause, status := status, desc := none }).endLoad m status

/-- The header of an image checked (cause 0x2): stack, offset, header, sections in the table. -/
def Panel.readHeader (p : Panel) (part ga : Nat) : Option (Nat × Nat × List Byte × Nat) :=
  if ¬ ga.testBit 41 ∨ ga % 4096 ≠ 0 then none
  else match p.decodeGA ga with
    | .ok (.hbm h off) =>
      let k := p.hub h
      if k.lost ∨ k.stack ≠ 2 ∨ stackTop < off + 256 ∨ ¬ k.bandsOk off 256 part false then none
      else
        let b := p.rawAt h off 256
        let n := leAt b 6 2
        if leAt b 0 4 ≠ 0x5453494D ∨ leAt b 4 2 ≠ 1 ∨ n = 0 ∨ 4096 < n ∨ leAt b 8 1 ≠ p.fuses.lwidth ∨
            stackTop < off + 256 + 32 * n ∨ ¬ k.bandsOk off (256 + 32 * n) part false then none
        else some (h, off, b, n)
    | _ => none

/-- LOAD_BEGIN: step 1 of R240. -/
def execLoadBegin (c : Crown) (s : State) : Outcome State Fault Refusal :=
  s.atCrown c fun p =>
    match p.nextReq c (· == 3) with
    | none => p
    | some (r, p) => match r.part with
      | none => p.finishReq r 0 St.notPermitted false 0
      | some part =>
        let x := p.pick 16 16 fun m => (find p.models m).any fun y => y.state != 0
        match x.1 with
        | none => x.2.finishReq r 0 St.notPermitted false 0
        | some m =>
          let p := x.2.setModel m {
            state := 1, part := part, req := some r
            byFn := match r.src with
              | .set _ _ fn => some fn
              | .session _ _ _ => none }
          let ga := leAt r.bytes 8 8 % 2 ^ 56
          match p.readHeader part ga with
          | none => p.failLoad m 2 St.notPermitted
          | some (h, off, b, n) =>
            let t := (List.range n).map fun i => SectEnt.ofBytes (p.rawAt h (off + 256 + 32 * i) 32)
            let p := p.modModel m fun y => { y with image := ga, header := b, table := t }
            if ¬ p.tableOk part t ∨ leAt b 9 7 ≠ 0 ∨ leAt b 48 208 ≠ 0 then p.failLoad m 3 St.notPermitted
            else (p.arm m h off t).endLoad m St.done

/-- The site of a section's core. -/
def SectEnt.site (p : Panel) (s : SectEnt) : Option Nat := if s.x < p.fuses.lwidth ∧ s.y < 16 then p.lsite s.x s.y else none

/-- The target cores of a load: sites named by sections, once each. -/
def Panel.loadTargets (p : Panel) (t : List SectEnt) : List Nat :=
  (t.filter SectEnt.aimed).foldl (fun l s => match s.site p with
    | none => l
    | some n => insertNat l n) []

/-- The bytes of a section as the HBM shadow holds them. -/
def Panel.sectBytes (p : Panel) (s : SectEnt) : List Byte := match s.place p with
  | none => []
  | some (h, off) => p.rawAt h off s.length

/-- Items of a type 0x05 section. -/
def routeItems (b : List Byte) : List Nat := (List.range (b.length / 4)).map fun i => leAt b (4 * i) 4

/-- The map entry that a route item names, if it is legal. -/
def routeEntry (lw item : Nat) : Option Nat :=
  if item < 16 * lw then some item
  else if 0x8000 + 320 ≤ item ∧ item ≤ 0x8000 + 389 then some (item - 0x8000)
  else none

/-- A core reaches a map entry (R195). -/
def Core.reaches (k : Core) (i : Nat) : Bool := let e := k.rmap i; e.state == 1 && e.turn != 3

/-- The cores of a partition. -/
def Panel.partSites (p : Panel) (part : Nat) : List Nat :=
  (List.range 336).filter fun n => let k := p.core n; k.powered && k.partValid && k.part == part

/-- Free reduction entries of a router. -/
def Core.freeRed (k : Core) : List Nat := (List.range 64).filter fun e => !(k.rd (Reg.MESH_RED + 8 * e)).testBit 63

/-- Whether a ready model other than `m` names a core. -/
def Panel.namedElsewhere (p : Panel) (m x y : Nat) : Bool :=
  p.models.any fun o => o.1 != m && o.2.state == 4 && o.2.table.any fun s => s.aimed && s.x == x && s.y == y

/-- The descriptor section of a table, read: none there; one that is illegal; or one that is legal. -/
def Panel.descOf (p : Panel) (t : List SectEnt) : Option (Option ModelDesc) :=
  (t.find? fun s => s.type = 7).map fun s => ModelDesc.ofBytes p.fuses.lwidth (p.sectBytes s)

/-- The checks of step 3 (R241): the first failing cause and its status. -/
def Panel.loadFault (p : Panel) (m : Nat) (x : Model) : Option (Nat × Nat) :=
  let t := x.table
  let aimed := t.filter SectEnt.aimed
  let items := (t.filter fun s => s.type = 5).flatMap fun s => routeItems (p.sectBytes s)
  let entries := items.map (routeEntry p.fuses.lwidth)
  let sites := p.loadTargets t
  let secs : List (Option Section) := (p.sectionOf m none) :: (List.range t.length).map fun i => p.sectionOf m (some i)
  if p.descOf t = some none ∨ entries.any (·.isNone) then some (3, St.notPermitted)
  else if sites.any (fun n => let k := p.core n; !(k.partValid && k.part == x.part)) ∨
      aimed.any (fun s => decide (p.fuses.lwidth ≤ s.x) || decide (16 ≤ s.y)) then some (4, St.notPermitted)
  else if aimed.any fun s => (s.site p).isNone then some (5, St.siteRetired)
  else if (p.partSites x.part).any fun n => entries.any fun e => !(p.core n).reaches (e.getD 0) then some (6, St.partitionFault)
  else if sites.any (fun n =>
        let want := ((t.filter fun s => decide (s.type = 4 ∧ s.site p = some n)).map fun s => s.length / 8).sum
        decide ((p.core n).freeRed.length < want)) ∨
      t.any (fun s => s.type == 3 && p.namedElsewhere m s.x s.y) then some (7, St.notPermitted)
  else if secs.any fun s => match s with
      | none => true
      | some s => s.broken || s.done != s.length then some (8, St.notPermitted)
  else none

/-- A request that names a model of its own partition, and the model number. -/
def Panel.ownModel (p : Panel) (r : Req) : Option (Nat × Model) :=
  let m := leAt r.bytes 8 1
  let x := p.model m
  if m < 16 ∧ r.part = some x.part ∧ x.state ≠ 0 then some (m, x) else none

/-- LOAD_COMMIT: step 3 of R240; the image is sealed. -/
def execLoadCommit (c : Crown) (s : State) : Outcome State Fault Refusal :=
  s.atCrown c fun p =>
    match p.nextReq c (· == 4) with
    | none => p
    | some (r, p) => match p.ownModel r with
      | none => p.finishReq r 0 St.notPermitted false (leAt r.bytes 8 1)
      | some (m, x) =>
        if x.state ≠ 1 then p.finishReq r 0 St.notPermitted false m
        else
          let p := p.setModel m { x with state := 2, req := some r }
          match p.loadFault m x with
          | some (cause, st) => p.failLoad m cause st
          | none =>
            let p := match p.decodeGA x.image with
              | .ok (.hbm h off) => p.sealRange m h off (256 + 32 * x.table.length)
              | _ => p
            let p := x.table.foldl (fun p s => match s.place p with
              | none => p
              | some (h, off) => p.sealRange m h off s.length) p
            p.modModel m fun y => { y with state := 3, since := p.dial, desc := (p.descOf x.table).getD none }

/-- Every target core of a load is IDLE. -/
def Panel.targetsIdle (p : Panel) (t : List SectEnt) : Bool := (p.loadTargets t).all fun n => (p.core n).seq.state == .idle

/-- LOAD_IDLE_TIMEOUT. -/
def execLoadIdleTimeout (m : Fin 16) (s : State) : Outcome State Fault Refusal :=
  s.onPanel fun p =>
    let x := p.model m
    if x.state = 3 ∧ ¬ x.applied ∧ ¬ p.targetsIdle x.table ∧ p.since x.since ms then p.failLoad m 9 St.timedOut else p

/-- A reshape written and seen through (steps 5 of R240). -/
def Core.reshapeTo (k : Core) (dial mask : Nat) : Core :=
  ((k.grpPwrWrite dial (BitVec.ofNat 64 mask)).reshapeSettle).reshapeEnd

/-- Reduction entries written into free ones of a router: those written. -/
def Core.loadRed : Core → List Nat → List Nat → List Nat → Core × List Nat
  | k, v :: vs, e :: es, acc => Core.loadRed (k.redWrite e (BitVec.ofNat 64 v)) vs es (acc ++ [e])
  | k, _, _, acc => (k, acc)

/-- A section streamed to its core as WRITE packets, in pieces of 1,024 bytes: status and panel. -/
def Panel.stream (p : Panel) (part : Nat) (s : SectEnt) : Nat × Panel :=
  match s.place p, s.site p with
  | some (h, off), some n =>
    let lead := off % 32
    let x := Hub.readCws { dial := p.dial, hub := h, src := 1, part := 0x80 + part } (off / 32) (cdiv (lead + s.length) 32) (p.hub h)
    let p := p.setHub h x.2
    let l : List MByte := ((x.1.flatMap fun c => c.2.data.map fun b => some (b, c.1 == .bad)).drop lead).take s.length
    let y := (p.core n).writeBytes (p.at' n) Own.dmaIn s.target l
    let st := if l.any MByte.bad then St.merge y.1 St.uncorrectable else y.1
    (st, p.setCore n y.2)
  | _, _ => (St.siteRetired, p)

/-- What one section does to its core before the data sections (steps 5 and 6 of R240). -/
def Panel.applyControl (p : Panel) (m : Nat) (s : SectEnt) : Panel :=
  match s.site p with
  | none => p
  | some n =>
    let b := p.sectBytes s
    if s.type = 3 then p.modCore n fun k => k.reshapeTo p.dial (leAt b 0 4)
    else if s.type = 2 then
      p.modCore n fun k => (k.planWrite s.plan (BitVec.ofNat 64 (leAt b 0 8))).planCtlWrite s.plan (BitVec.ofNat 64 (leAt b 8 4))
    else if s.type = 4 then
      let k := p.core n
      let x := k.loadRed ((List.range (b.length / 8)).map fun i => leAt b (8 * i) 8) k.freeRed []
      (p.setCore n x.1).modModel m fun y => { y with red := y.red ++ x.2.map fun e => (n, e) }
    else p

/-- Sections of a table streamed in order; the first failing status ends it. -/
def Panel.streamAll (part : Nat) : List SectEnt → Panel → Nat × Panel
  | [], p => (St.done, p)
  | s :: ss, p =>
    if ¬ s.data then Panel.streamAll part ss p
    else
      let x := p.stream part s
      if 1 < x.1 then x else Panel.streamAll part ss x.2

/-- LOAD_TARGETS_IDLE: steps 5 to 7 of R240. A core that a reshape closes must hold nothing staged. -/
def execLoadTargetsIdle (m : Fin 16) (s : State) : Outcome State Fault Refusal :=
  s.onPanel fun p =>
    let x := p.model m
    let staged := (x.table.filter fun s => s.type = 3).any fun s => match s.site p with
      | none => false
      | some n => !(p.core n).spad.staging.isEmpty
    if x.state ≠ 3 ∨ x.applied ∨ staged ∨ ¬ p.targetsIdle x.table then p
    else
      let p := (x.table.filter fun s => s.type = 3).foldl (fun p s => p.applyControl m s) p
      let p := (x.table.filter fun s => s.type ≠ 3).foldl (fun p s => p.applyControl m s) p
      let r := Panel.streamAll x.part x.table p
      if 1 < r.1 then r.2.failLoad m 0xA r.1 else r.2.modModel m fun y => { y with applied := true }

/-- Digests of the sections that a test takes, in table order. -/
def Panel.digests (p : Panel) (m : Nat) (t : List SectEnt) (w : Bool) : List Byte :=
  ((List.range t.length).zip t).flatMap fun x =>
    if x.2.weights = w then ((p.sectionOf m (some x.1)).bind (·.digest)).getD [] else []

/-- LOAD_READY: step 8 of R240. A spare whose last load this is sends ready (R344). -/
def execLoadReady (m : Fin 16) (s : State) : Outcome State Fault Refusal :=
  s.onPanel fun p =>
    let x := p.model m
    if x.state ≠ 3 ∨ ¬ x.applied then p
    else
      let dh := ((p.sectionOf m none).bind (·.digest)).getD []
      let p := p.setModel m { x with
        state := 4, programs := sm3 (dh ++ p.digests m x.table false), weights := sm3 (p.digests m x.table true) }
      let p := (p.disarm m).endLoad m St.done
      if p.adopting ∧ ¬ p.anyLoading then
        let i := (p.awaited.head?.map fun y => y.1).getD 0
        ({ p with adopting := false, awaited := [] }).sendReady (p.leader 0) i
      else p

/-- A context names a model. -/
def Panel.modelNamed (p : Panel) (m : Nat) : Bool := p.slots.any (fun x => x.2.model == m) || p.heldRecs.any fun x => x.2.model == m

/-- UNLOAD. -/
def execUnload (c : Crown) (s : State) : Outcome State Fault Refusal :=
  s.atCrown c fun p =>
    match p.nextReq c (· == 5) with
    | none => p
    | some (r, p) => match p.ownModel r with
      | none => p.finishReq r 0 St.notPermitted false (leAt r.bytes 8 1)
      | some (m, x) =>
        if (x.state ≠ 4 ∧ x.state ≠ 5) ∨ p.modelNamed m then p.finishReq r 0 St.notPermitted false m
        else
          let p := ((p.dropRed m).unseal m).disarm m
          ({ p with models := drop p.models m }).finishReq r 0 St.done false m

/-- BOOT_MODEL[m] (R245). -/
def Model.bootReg (x : Model) : Nat :=
  x.state % 8 * 2 ^ 61 + x.part % 32 * 2 ^ 56 + x.cause % 16 * 2 ^ 52 + x.status % 256 * 2 ^ 44 + (x.table.length - 1) % 4096 * 2 ^ 32

end Sys2Proof.Machine
end

