-- ==== Sys2Proof/Machine/Loss.lean ====
section
/-! DEFINITION. Loss of a stack, a hub or a crown (R279, R280, R307, R308, R370), and the resets of the host port (R369). -/

namespace Sys2Proof.Machine

open Host (Outcome)

/-! ### Stacks and hubs (R307, R308) -/

/-- A range of global addresses touches a stack: stack-local, or by its 4 KiB blocks in turn (R49). -/
def Panel.touches (p : Panel) (ga n h : Nat) : Bool :=
  if ga.testBit 41 then bits ga 40 36 == h
  else
    let blocks := (ga + n - 1) / 4096 - ga / 4096 + 1
    (List.range (min blocks 24)).any fun i => match p.decodeGA (ga / 4096 * 4096 + 4096 * i) with
      | .ok (.hbm x _) => x == h
      | _ => false

/-- A context whose page table, pages or overflow record lie in a stack (R280). -/
def Panel.livesIn (p : Panel) (w : Place) (e : CtxEntry) (h : Nat) : Bool :=
  let held := match w with
    | .held j => p.touches ((p.crown (p.leader 0)).rd Reg.CTX_SVC_BASE + 0x1000000 + 128 * j) 128 h
    | .slot _ => false
  held || (match p.kvOf e.handle, (p.model e.model).desc with
    | some k, some d => p.touches (d.pageGA k.root) 65536 h || k.pages.any fun x => p.touches (d.pageGA x.2.pool) d.pageBytes h
    | _, _ => false)

/-- Every context, with its place. -/
def Panel.allCtx (p : Panel) : List (Place × CtxEntry) :=
  (p.slots.map fun x => (Place.slot x.1, x.2)) ++ p.heldRecs.map fun x => (Place.held x.1, x.2)

/-- The half that a hub attaches to (R457). -/
def hubHalf (h : Nat) : Nat := if h < 8 ∨ 20 ≤ h then 0 else 1

/-- A stack declared lost: recorded, and the contexts that live in it end with the status that its accesses get. -/
def Panel.loseStack (p : Panel) (h cause : Nat) : Panel :=
  let k := p.hub h
  let st := if k.lost then St.siteRetired else St.uncorrectable
  let gone := p.allCtx.filter fun x => p.livesIn x.1 x.2 h
  let p := (p.setHub h { k with stack := 3 }).logCrown (p.leader (hubHalf h)) (.hub h)
    { cls := 0x0D, level := 3, unit := cause, status := st }
  gone.foldl (fun p x => p.endCtx x.1 x.2 7 st) p

/-- STACK_LOSS: the cause operand counts from 0 (no answer). -/
def execStackLoss (h : HubIx) (cause : Fin 4) (s : State) : Outcome State Fault Refusal :=
  s.onPanel fun p =>
    let k := p.hub h
    if ¬ p.fuses.hubPresent h ∨ k.lost ∨ k.stack = 3 then p else p.loseStack h (cause + 1)

/-- A hub die lost with its stack. -/
def Panel.loseHub (p : Panel) (h cause : Nat) : Panel :=
  (p.modHub h fun k => { k with lost := true, arr := [], cmdq := [], run := [], reqs := [], ring := [] }).loseStack h cause

/-- HUB_HEARTBEAT_LOSS: no heartbeat for 400 µs; the hub die and its stack are lost. -/
def execHubHeartbeatLoss (h : HubIx) (s : State) : Outcome State Fault Refusal :=
  s.onPanel fun p =>
    let k := p.hub h
    if ¬ p.fuses.hubPresent h ∨ k.lost ∨ k.hbHeard = 0 ∨ ¬ p.since k.hbHeard (400 * us) then p
    else p.loseHub h 5

/-- LOST_STACK_MASK_WRITE: the decoders of every source take the mask of lost stacks. -/
def execLostStackMaskWrite (s : State) : Outcome State Fault Refusal :=
  s.onPanel fun p =>
    { p with lostStacks := (List.range 24).foldl (fun m h => if (p.hub h).lost ∨ (p.hub h).stack = 3 then m + 2 ^ h else m) 0 }

/-! ### Crowns (R44, R279, R370) -/

/-- CROWN_LOSS: the other crown leads every slot from its mirror; the last records of the lost half are posted again. -/
def Panel.loseCrown (p : Panel) (c : Crown) : Panel :=
  let led := p.ledSlots c
  let o := c.other
  let p := (p.setEsc (28 - c.num) false).unlock c
  let p := (p.setCrown c { CrownDie.blank with lost := true }).spOrphan.changeOrphan
  if (p.crown o).lost then { p with fatal := true, hostDownAt := p.dial }
  else
    let p := if c = .north then { p with hostDownAt := p.dial } else p
    let p := p.logCrown o (.crown c) { cls := 0x0C, level := 3, unit := 0 }
    let waiting := (p.crown o).commits.filter fun m => m.standby = 0
    let p := p.modCrown o fun k => { k with commits := k.commits.filter fun m => m.standby ≠ 0 }
    let p := waiting.foldl (fun p m => match p.ctxOf m.handle with
      | none => p
      | some (_, e) => m.recs.foldl (fun p bs => p.deliver o e bs) p) p
    p.relead o led

def execCrownLoss (c : Crown) (s : State) : Outcome State Fault Refusal :=
  s.onPanel fun p => if (p.crown c).lost then p else p.loseCrown c

/-! ### Resets of the host port (R369) -/

/-- What an FLR of a function does, without its count. -/
def Panel.resetFn (p : Panel) (f : Nat) : Panel :=
  let own (q : Nat) : Bool := p.qOwner q == some f
  let p1 : Panel := { p with
    qsets := p.qsets.map fun (x : Nat × QueueSet) =>
      if own x.1 then (x.1, ({ gen := x.2.gen + 1, downAt := if x.2.on then p.dial else x.2.downAt } : QueueSet)) else x }
  let p1 := p1.modFn f fun k => { nextId := k.nextId }
  let p1 := (p1.allCtx.filter fun x => !x.2.oqf && own x.2.oq).foldl (fun p x => p.endCtx x.1 x.2 6 0 true) p1
  (p1.models.filter fun x => decide (x.2.state = 1 ∧ x.2.byFn = some f)).foldl (fun p x => p.failLoad x.1 8 St.notPermitted) p1

/-- FLR_VF. -/
def execFlrVf (fn : HostFn) (s : State) : Outcome State Fault Refusal :=
  s.onPanel fun p => if fn.val = 0 ∨ (p.crown .north).lost then p else (p.resetFn fn).hostBump Reg.HOST_FLR_CNT

/-- Every function reset; VF Enable is clear. -/
def Panel.resetFns (p : Panel) : Panel :=
  let p := (List.range 32).foldl Panel.resetFn p
  p.modCrown .north fun k => k.wr Reg.HOST_STATUS (setFld (rfGet k.regs Reg.HOST_STATUS) 5 0 0).toNat

/-- FLR_PF. -/
def execFlrPf (s : State) : Outcome State Fault Refusal :=
  s.onPanel fun p =>
    if (p.crown .north).lost then p
    else { p.resetFns.hostBump Reg.HOST_FLR_CNT with doe := [], doeError := false, vsecSel := 0 }

/-- HOST_RESET: FLR of every function that is there, and the link retrains at once. -/
def execHostReset (s : State) : Outcome State Fault Refusal :=
  s.onPanel fun p =>
    if (p.crown .north).lost then p
    else
      let n := 1 + (p.crown .north).rd Reg.HOST_STATUS % 64
      let p := p.resetFns.modCrown .north fun k => (k.bump Reg.HOST_FLR_CNT n).bump Reg.HOST_RESET_CNT
      { p with doe := [], doeError := false, vsecSel := 0 }

end Sys2Proof.Machine
end

