-- ==== Sys2Proof/Machine/SiteOps.lean ====
section
/-! DEFINITION. Sites and dies that gain or lose power in service: retirement, split rows, faulted partitions, converters (R31–R34,
R41, R56, R196, R406, R407, R454). -/

namespace Sys2Proof.Machine

/-! ### The map of sites (R55–R57) -/

/-- A site's entry in PANEL_SITE_MAP and, with it, the fields of its CORE_SITE. -/
def Panel.placeSite (p : Panel) (n : Nat) (i : SiteInfo) : Panel :=
  (p.setSite n i).modCore n fun k =>
    let k := k.setF Reg.CORE_SITE 31 29 i.state
    let k := k.setF Reg.CORE_SITE 19 15 (if i.state = 1 then i.lx else 0)
    k.setF Reg.CORE_SITE 14 11 (if i.state = 1 then siteR n else 0)

/-- Two unpowered sites stand side by side in a row (R29). -/
def Panel.rowSplit (p : Panel) (r : Nat) : Bool :=
  (List.range 20).any fun c => !p.powered (siteOf c r) && !p.powered (siteOf (c + 1) r)

/-- The powered sites of a split row take state 2 with `split` set; its logical cores are vacant (R33). -/
def Panel.vacateRow (p : Panel) (r : Nat) : Panel :=
  ((List.range 21).map fun c => siteOf c r).foldl (fun p n =>
    let i := p.site n
    if i.state = 1 ∨ i.state = 2 then p.placeSite n { i with state := 2, lx := 0, split := true }
    else p.setSite n { i with split := true, orphan := none }) p

/-! ### Partitions that depend on a resource (R406, R453) -/

/-- The partition of a core. -/
def Panel.partOf (p : Panel) (n : Nat) : Option Nat := let k := p.core n; if k.partValid then some k.part else none

/-- Partitions with a band on a hub. -/
def Panel.hubParts (p : Panel) (h : Nat) : List Nat :=
  let owners := (List.range 768).map fun b => (p.hub h).band (b * 0x4000000)
  (List.range 32).filter fun q => owners.any fun o => bits o 7 6 == 1 && bits o 4 0 == q

/-- Partitions with a valid window, which the ports of a die carry. -/
def Panel.portParts (p : Panel) (d : Nat) : List Nat :=
  (List.range 32).filter fun q => (List.range 256).any fun w => let e := (p.port d).win w; e.valid && e.part == q

/-- The attachments of a site. -/
def siteAtts (n : Nat) : List AttDie :=
  if edgeSite n then ([1, 2].filterMap fun e => attDie n e) else []

/-- Partitions that use an attachment of a site. -/
def Panel.attParts (p : Panel) (n : Nat) : List Nat :=
  (siteAtts n).flatMap fun a => match a with
    | .hub h _ => if p.fuses.hubPresent h then p.hubParts h else []
    | .port d _ => if p.fuses.diePresent d then p.portParts d else []
    | .crown _ _ => []

/-- Partitions that have a core or use an attachment it carries. -/
def Panel.partsAt (p : Panel) (n : Nat) : List Nat :=
  (p.attParts n ++ (p.partOf n).toList).foldl insertNat []

/-- Steps of a partition in flight abandoned without commit, and its contexts without their residency (R280). -/
def Panel.abandonPart (p : Panel) (part : Nat) : Panel :=
  let p := (p.slots.filter fun x => x.2.part == part).foldl (fun p x => p.unseat x.1 (p.ent x.1)) p
  [Crown.north, Crown.south].foldl (fun p c =>
    (p.crown c).steps.foldl (fun p s => if (p.model s.2.model).part = part then p.abandon c s.2 else p) p) p

/-- The models of a partition send no START, or send them again. -/
def Panel.holdModels (p : Panel) (part : Nat) (stop : Bool) : Panel :=
  { p with models := p.models.map fun (x : Nat × Model) => if x.2.part = part then (x.1, { x.2 with stopped := stop }) else x }

/-- A partition marked with PARTITION_FAULT: its steps are abandoned and its contexts end (R280, R454). The cause is that of
class 0x15 of R511. -/
def Panel.faultPart (p : Panel) (part cause : Nat) : Panel :=
  let c := p.leader 0
  let p := p.logCrown c (.crown c) { cls := 0x15, level := 2, unit := cause, status := St.partitionFault, part := 0x80 + part }
  let p := ({ p with faulted := insertNat p.faulted part } : Panel).abandonPart part
  let p := (p.allCtx.filter fun x => x.2.part == part).foldl (fun p x => p.endCtx x.1 x.2 7 St.partitionFault) p
  p.holdModels part false

/-! ### Retirement -/

/-- What a site keeps without power: its PWR_, THM_ and ERR_ blocks, whose reset is panel reset (R434, R513). -/
def Core.powerDown (f : Fuses) (n : Nat) (k : Core) : Core :=
  let kept := k.regs.filter fun (x : Nat × W64) => decide (0x90000 ≤ x.1)
  let fresh := (coreRegs0 f n).filter fun (x : Nat × W64) => decide (x.1 < 0x90000)
  let k' : Core := { Core.blank f n with regs := fresh ++ kept, log := k.log }
  k'.setFloor 0

/-- A site turned off: its router's packets are lost, and the links of its neighbours go down (R196). -/
def Panel.cutSite (p : Panel) (n : Nat) : Panel :=
  let p := p.modCore n (Core.powerDown p.fuses n)
  [0, 1, 2, 3, 4, 5].foldl (fun p port => match portSite n port with
    | none => p
    | some m =>
      if p.powered m ∧ (p.core m).linkUp (farPort port) then
        ((p.modCore m fun k => k.linkEnd (farPort port)).logCore m { cls := 0x08, level := 3, unit := farPort port }).purge m
      else p) p

/-- Attachments of a site that has lost power (R41): stacks are lost, ports go down, a crown without any is lost. -/
def Panel.dropAtts (p : Panel) (n : Nat) : Panel :=
  (siteAtts n).foldl (fun p a => match a with
    | .hub h _ => if p.fuses.hubPresent h ∧ (p.hub h).stack ≠ 3 ∧ (p.hub h).stack ≠ 0 then p.loseStack h 3 else p
    | .port d q => if p.portHere d q ∧ 2 ≤ (p.fport d q).state then p.portFall d q 3 else p
    | .crown c _ => if (p.controlCol c).isNone ∧ ¬ (p.crown c).lost then p.loseCrown c else p) p

/-- A site retired in service, with the cause of PANEL_SITE_MAP (R27, R33, R34). -/
def Panel.retireSite (p : Panel) (n cause : Nat) : Panel :=
  if (p.site n).state = 4 then p
  else
    let i := p.site n
    let parts := p.partsAt n
    let p := { p with losses := p.losses.map fun (x : LossRec) => if x.site = n then { x with parts := parts } else x }
    let p := p.setSite n { i with
      state := 3, lx := 0, cause := cause
      orphan := if i.state = 1 then some (i.lx, (p.core n).rd Reg.CORE_PART) else i.orphan }
    let p := (p.cutSite n).dropAtts n
    let p := { p with agents := p.agents.filter fun (x : Nat × Nat) => x.2 != n }
    if p.rowSplit (siteR n) then p.vacateRow (siteR n) else p

/-- A loss that nothing has reported yet, of a site already turned off (R405, R423). -/
def Panel.loseSite (p : Panel) (n cause : Nat) : Panel := (p.reportLoss n cause).retireSite n cause

/-! ### Converters (R406, R407) -/

def Panel.rgnState (p : Panel) (g : Nat) : Nat := bits (p.sh (Reg.PWR_RGN + 4 * g)) 31 30
def Panel.setRgn (p : Panel) (g st : Nat) : Panel := p.setShF (Reg.PWR_RGN + 4 * g) 31 30 st

/-- A region converter latches off: its sites are retired, both rows split, and the partitions concerned are faulted. -/
def Panel.loseRegion (p : Panel) (g : Nat) : Panel :=
  let c := p.leader (if g < 12 then 0 else 1)
  let rows := [g / 3 * 2, g / 3 * 2 + 1]
  let inRows := (List.range 336).filter fun n => rows.contains (siteR n)
  let parts := (inRows.filterMap p.partOf ++ (regionSites g).flatMap p.attParts).foldl insertNat []
  let p := (p.setRgn g 3).logCrown c { dtype := 5, dindex := g } { cls := 0x0B, level := 3, unit := 0, addr := g }
  let p := (regionSites g).foldl (fun p n => p.retireSite n 4) p
  parts.foldl (fun p q => p.faultPart q 1) p

/-- The hubs, port dies and crown of an edge converter. -/
def edgeHubs (e : Nat) : List Nat :=
  [[0, 1], [2, 3], [4, 5, 6, 7], [8, 9, 10, 11], [12, 13], [14, 15], [16, 17, 18, 19], [20, 21, 22, 23]].getD e []
def edgePorts (e : Nat) : List Nat := [[0, 1], [2, 3], [], [], [6, 7], [4, 5], [], []].getD e []
def edgeCrown (e : Nat) : Option (Crown × Nat) :=
  match e with
  | 0 => some (.north, 1)
  | 1 => some (.north, 0)
  | 4 => some (.south, 5)
  | 5 => some (.south, 4)
  | _ => none

def Panel.edgeState (p : Panel) (e : Nat) : Nat := bits (p.sh (Reg.PWR_EDGE + 4 * e)) 31 30
def Panel.setEdge (p : Panel) (e st : Nat) : Panel := p.setShF (Reg.PWR_EDGE + 4 * e) 31 30 st

/-- A port die without its rail: its ports go down. -/
def Panel.losePortDie (p : Panel) (d : Nat) : Panel :=
  let p := [0, 1].foldl (fun p q => if p.portHere d q ∧ 2 ≤ (p.fport d q).state then p.portFall d q 3 else p) p
  p.modPort d fun k => { k with lost := true, arr := [] }

/-- An edge converter latches off. -/
def Panel.loseEdge (p : Panel) (e : Nat) : Panel :=
  let c := p.leader (if e < 2 ∨ e = 2 ∨ e = 7 then 0 else 1)
  let p := (p.setEdge e 3).logCrown c { dtype := 6, dindex := e } { cls := 0x0B, level := 3, unit := 1, addr := e }
  let p := (edgeHubs e).foldl (fun p h => if p.fuses.hubPresent h ∧ ¬ (p.hub h).lost then p.loseHub h 3 else p) p
  let p := (edgePorts e).foldl (fun p d => if p.fuses.diePresent d ∧ ¬ (p.port d).lost then p.losePortDie d else p) p
  match edgeCrown e with
  | none => p
  | some (c, o) => if p.edgeState o ≠ 2 ∧ ¬ (p.crown c).lost then p.loseCrown c else p

/-! ### Power-up (R390, R414) -/

/-- CLK_CAP.pwr for a number of failed phases (R405). -/
def phaseCap (nfail : Nat) : Nat := if nfail = 3 then 0x1E else if nfail = 4 then 0x16 else 0x2C

/-- A site's regulator starts: the core comes up in TEST at the setpoint in force, under its own caps. -/
def Panel.startSite (p : Panel) (n : Nat) : Panel :=
  let sp := p.setpoint
  let ssc := p.spread
  p.modCore n fun k =>
    let k := k.setF Reg.CLK_CAP 23 18 (phaseCap (bits (k.rd Reg.PWR_SITE_STAT) 21 18))
    ({ k with
      heat := { seenAt := (List.range 6).map fun (i : Nat) => (i, p.dial) }
      powered := true, hbHeard := p.dial, hbAcked := p.dial, hbSent := p.dial } : Core).clockUp sp ssc

/-- A site that a region power-on starts: present, neither retired nor fused off. -/
def Panel.startable (p : Panel) (n : Nat) : Bool := !p.fuses.fusedOff n && (p.site n).state != 3 && (p.site n).state != 4

end Sys2Proof.Machine
end

