-- ==== Sys2Proof/Machine/Power.lean ====
section
/-! DEFINITION. Supply, ramp governor, region power, the power cap and telemetry (R400–R419, R433–R435). -/

namespace Sys2Proof.Machine

open Host (Outcome)

/-! ### Loads and limits -/

/-- Ballast now, in quarters of a watt: what the floor asks over the other load, and the lehr load (R411, R426). -/
def Core.ballast (k : Core) : Nat := min 128 ((k.floorMw - k.heat.load) / 250 + k.heat.lehr)

/-- The limits of R415 in watts, in the order of PWR_CAP_EFF.why; a limit that does not govern is absent. -/
def Panel.capLimits (p : Panel) : List (Nat × Nat) :=
  let dv := bits (p.sh Reg.PWR_IN) 31 20
  let opt (n : Nat) (o : Option Nat) : List (Nat × Nat) := o.toList.map fun w => (w, n)
  let shed := (p.sh Reg.PWR_IN).testBit 7 || p.pow.stopAt.isSome
  [(p.sh Reg.PWR_CAP % 65536 * 10, 0)] ++ (if dv = 0 then [] else [(36 * dv, 1)]) ++ opt 2 p.pow.flow ++ opt 3 p.pow.inlet ++
    opt 4 p.pow.hbm ++ (if shed then [(2800, 5)] else [])

/-- The effective cap and the limit that governs, the first on a tie. -/
def Panel.capEff (p : Panel) : Nat × Nat :=
  match p.capLimits with
  | [] => (14000, 0)
  | x :: xs => xs.foldl (fun a b => if b.1 < a.1 then b else a) x

/-- PWR_CAP_EFF. -/
def Panel.capEffReg (p : Panel) : Nat := p.capEff.2 * 2 ^ 28 + p.capEff.1 / 10 % 65536

/-- Estimated input power, in watts, with the panel at another code. -/
def Panel.estimate (p : Panel) (old new : Nat) : Nat :=
  let mw := (p.poweredSites.map fun n => (p.core n).siteMw).sum
  let mw' := (p.poweredSites.map fun n => scaledMw n (p.core n).siteMw old new).sum
  (p.pow.avg * 1000 + mw' * 100 / 88 - mw * 100 / 88) / 1000

/-- The highest code below the present one whose estimate fits the cap; 0 when none does. -/
def Panel.fitCode (p : Panel) (old : Nat) : Nat :=
  (((List.range old).reverse).find? fun c => decide (p.estimate old c ≤ p.capEff.1)).getD 0

/-! ### The panel off (R401, R433, R529) -/

/-- Every volatile content is lost: fuses and flash remain, and the model's own counters. -/
def Panel.dark (p : Panel) : Panel :=
  { fuses := p.fuses, flash := p.flash, free := p.free, randoms := p.randoms, out := p.out, boot := { off := true } }

/-- POWER_LOSS: the bus disappears. -/
def execPowerLoss (s : State) : Outcome State Fault Refusal := s.always Panel.dark

/-- RESET_INPUT: a low of 1 µs or more on a crown's RST_N. -/
def execResetInput (c : Crown) (s : State) : Outcome State Fault Refusal :=
  s.always fun p => { p.dark with boot := { p.dark.boot with off := p.boot.off, latched := p.boot.latched, held := c :: p.boot.held.filter (· != c) } }

/-! ### Sheds (R401, R431) -/

/-- A broadcast of CLK_CAP.mgmt to every site. -/
def Panel.broadcast (p : Panel) (c : Nat) : Panel :=
  let p := p.eachPowered fun k => k.setMgmt p.dial c
  { p with pow := { p.pow with bcast := some c, raisedAt := p.dial, underAt := none } }

/-- The shed to 2.8 kW: no step starts, every site at code 0, floors and lehr loads at zero. -/
def Panel.shed (p : Panel) : Panel :=
  let p := (p.broadcast 0).eachPowered fun k => { k.setFloor 0 with heat := { k.heat with lehr := 0 } }
  { p with shedding := true, pow := { p.pow with rises := [] } }

/-- The shed ends when neither cause is left. -/
def Panel.unshed (p : Panel) : Panel :=
  { p with shedding := (p.sh Reg.PWR_IN).testBit 7 || p.pow.stopAt.isSome }

/-! ### Bus (R401) -/

/-- A condition's beginning: kept while it holds. -/
def heldSince (c : Bool) (old : Option Nat) (dial : Nat) : Option Nat := if c then some (old.getD dial) else none

/-- A condition has held for a time. -/
def Panel.heldFor (p : Panel) (o : Option Nat) (n : Nat) : Bool := match o with
  | none => false
  | some t => p.since t n

/-- A power-fail warning begins. -/
def Panel.powerFail (p : Panel) (dv : Nat) : Panel :=
  let c := p.leader 0
  ((((p.setShF Reg.PWR_IN 7 7 1).bumpSh Reg.PWR_PFAIL_CNT).logCrown c (.crown c) { cls := 0x13, level := 4, addr := dv })).shed

/-- A sample of the bus on a panel that is on. -/
def Panel.busSample (p : Panel) (dv qa west : Nat) : Panel :=
  let w := p.pow
  let lug := decide (65 < west ∨ west < 35)
  let p := (p.setShF Reg.PWR_IN 31 20 (min 4095 dv)).setShF Reg.PWR_IN 19 8 (min 4095 qa)
  let p := { p with pow := { w with
    lowAt := heldSince (dv < 390) w.lowAt p.dial, deadAt := heldSince (dv < 360) w.deadAt p.dial
    highAt := heldSince (620 < dv) w.highAt p.dial, fineAt := heldSince (400 ≤ dv) w.fineAt p.dial
    lugAt := heldSince lug w.lugAt p.dial } }
  if p.heldFor p.pow.deadAt (10 * us) then p.dark
  else if p.heldFor p.pow.highAt (10 * us) then { p.dark with boot := { p.dark.boot with latched := true } }
  else
    let p := if p.heldFor p.pow.lugAt (1000 * ms) ∧ ¬ (p.sh Reg.PWR_IN).testBit 6 then (p.setShF Reg.PWR_IN 6 6 1).alertOut
      else if p.pow.lugAt.isNone then p.setShF Reg.PWR_IN 6 6 0
      else p
    if (p.sh Reg.PWR_IN).testBit 7 then
      if p.heldFor p.pow.fineAt (100 * ms) then (p.setShF Reg.PWR_IN 7 7 0).unshed else p
    else if p.heldFor p.pow.lowAt (50 * us) then p.powerFail dv
    else p

/-- BUS_SAMPLE: every 10 µs. A panel latched off stays off until the bus has fallen below 5 V. -/
def execBusSample (deciVolts quarterAmps westLugPercent : Nat) (s : State) : Outcome State Fault Refusal :=
  s.always fun p =>
    if p.live then p.busSample deciVolts quarterAmps westLugPercent
    else if p.boot.latched ∧ deciVolts < 50 then { p with boot := { p.boot with latched := false } }
    else p

/-! ### Supply faults (R405–R407) -/

/-- PHASE_FAILURE. -/
def execPhaseFailure (n : Site) (ph : Fin 8) (s : State) : Outcome State Fault Refusal :=
  s.atSite n fun k p =>
    let v := k.rd Reg.PWR_SITE_STAT
    let failed := bits v 29 22
    if failed.testBit ph then p
    else
      let failed := failed + 2 ^ ph.val
      let nf := bits v 21 18 + 1
      let k := ((k.setF Reg.PWR_SITE_STAT 29 22 failed).setF Reg.PWR_SITE_STAT 21 18 nf).bump Reg.PWR_PHASE_FAIL_CNT
      let p := (p.setCore n k).logCore n { cls := 0x0A, level := if 5 ≤ nf then 3 else 0, unit := ph, addr := failed }
      if 5 ≤ nf then p.loseSite n 3
      else if 3 ≤ nf then p.modCore n fun k => k.setPwr p.dial (phaseCap nf)
      else p

/-- REGION_SUPPLY_LOSS: a converter that is on, or ramping, latches off. -/
def execRegionSupplyLoss (g : Region) (s : State) : Outcome State Fault Refusal :=
  s.onPanel fun p => if p.rgnState g = 1 ∨ p.rgnState g = 2 then p.loseRegion g else p

/-- EDGE_CONVERTER_FAULT. -/
def execEdgeConverterFault (e : Fin 8) (s : State) : Outcome State Fault Refusal :=
  s.onPanel fun p => if p.edgeState e = 2 then p.loseEdge e else p

/-! ### Ramp governor (R410–R413) -/

/-- RAMP_BUCKET_GRANT: waiting floors rise as far as the bucket covers. -/
def execRampBucketGrant (s : State) : Outcome State Fault Refusal :=
  s.onPanel fun p =>
    if p.pow.rises.isEmpty then p
    else
      let p := p.feedRises
      if p.pow.rises.isEmpty then p.rampGo else p

/-- The record of R413 that a crown posted: when interval 1 starts, and the energy of an interval, 1–5. -/
def Panel.fcastAt (p : Panel) (c : Crown) : Nat :=
  p.sh (Reg.PWR_FCAST + 32 * c.num) + p.sh (Reg.PWR_FCAST + 32 * c.num + 4) * 2 ^ 32
def Panel.fcast (p : Panel) (c : Crown) (k : Nat) : Nat := p.sh (Reg.PWR_FCAST + 32 * c.num + 4 * (k + 1))

/-- Forecast power, in watts, of the interval that starts at a dial time: both crowns' records. -/
def Panel.fcastFor (p : Panel) (t : Nat) : Nat :=
  ([Crown.north, Crown.south].map fun c =>
    let t1 := p.fcastAt c
    if t1 ≤ t ∧ (t - t1) / ms < 5 then p.fcast c ((t - t1) / ms + 1) else 0).sum

/-- The largest forecast interval, in watts. -/
def Panel.fcastTop (p : Panel) : Nat :=
  ([1, 2, 3, 4, 5].map fun k => p.fcast .north k + p.fcast .south k).foldl max 0

/-- Ready models with expected steps, or with a context that is admitted, active or parked. -/
def Panel.warmModels (p : Panel) : List ModelDesc :=
  p.models.filterMap fun m => match p.readyDesc m.1 with
    | none => none
    | some d =>
      let live := p.slots.any fun x => x.2.model == m.1 && (x.2.state == 1 || x.2.state == 2 || x.2.state == 3)
      if live ∨ m.2.stepsMs.any (fun (x : Nat × Nat) => decide (0 < x.2)) then some d else none

def Panel.warmSites (p : Panel) : List Nat := (p.warmModels.flatMap p.modelSites).foldl insertNat []

/-- Power of the steps in flight, in watts (R411). -/
def Panel.stepWatts (p : Panel) : Nat :=
  ([Crown.north, Crown.south].flatMap fun c => (p.crown c).steps.map fun s => match p.readyDesc s.2.model with
    | none => 0
    | some d => (p.model s.2.model).corePower d s.2.batch.length * d.cores.length / 1000).sum

/-- PRE_RAMP_START: interval k (from 1) of the north crown's record, or of the south crown's when the north has posted none; the
floors begin to rise early enough to be complete at its start. -/
def execPreRampStart (k : Fin 5) (s : State) : Outcome State Fault Refusal :=
  s.onPanel fun p =>
    let t1 := if p.fcastAt .north = 0 then p.fcastAt .south else p.fcastAt .north
    let tk := t1 + k * ms
    let sites := p.warmSites
    let dp := p.fcastFor tk - p.stepWatts
    if t1 = 0 ∨ tk ≤ p.dial ∨ dp = 0 ∨ sites.isEmpty ∨ p.shedding then p
    else
      let pc := dp * 1000 / sites.length
      let r := (sites.map fun n => pc - max (p.core n).siteMw (p.core n).floorMw).sum
      let lead := r * us * 100 / (88 * 1000 * max 1 (bits (p.sh Reg.PWR_RAMP) 23 16))
      if tk ≤ p.dial + lead then p.raiseFloors sites pc else p

/-- Sites of models whose forecast for the next interval is nonzero: their floors stay (R412). -/
def Panel.keptSites (p : Panel) : List Nat := if p.fcastFor (p.dial / ms * ms + ms) = 0 then [] else p.warmSites

/-- FLOOR_LOWER: at most `rate` watts of input per µs since the last lowering, shared in proportion to what each floor exceeds
its site's load by. -/
def execFloorLower (s : State) : Outcome State Fault Refusal :=
  s.onPanel fun p =>
    let kept := p.keptSites
    let low := (p.poweredSites.filter fun n => !kept.contains n).filterMap fun n =>
      let k := p.core n
      if k.heat.load < k.floorMw then some (n, k.floorMw - k.heat.load) else none
    let total := (low.map fun (x : Nat × Nat) => x.2).sum
    let allow := min total ((p.dial - p.pow.loweredAt) * bits (p.sh Reg.PWR_RAMP) 23 16 * 88 / 100)
    let p := low.foldl (fun p x => p.modCore x.1 fun k => k.setFloor (cdiv (k.floorMw - x.2 * allow / max 1 total) 250)) p
    { p with pow := { p.pow with loweredAt := p.dial } }

/-! ### Region power (R414) -/

/-- PWR_RGN_CMD. -/
def Panel.rgnCmd (p : Panel) (value : W64) : Panel :=
  let v := value.toNat
  let g := v % 32
  let ign : Panel := p.bumpSh Reg.PWR_CFG_IGN_CNT
  if 24 ≤ g then ign
  else if v.testBit 31 then
    if p.rgnState g = 0 then
      let p := p.setShF (Reg.PWR_RGN + 4 * g) 29 29 1
      { p with pow := { p.pow with rgnq := insertNat p.pow.rgnq g } }
    else ign
  else if (regionSites g).any fun n => (p.site n).state == 1 && (p.partOf n).isSome then ign
  else if p.rgnState g = 0 then
    let p := p.setShF (Reg.PWR_RGN + 4 * g) 29 29 0
    { p with pow := { p.pow with rgnq := p.pow.rgnq.filter (· != g) } }
  else if p.rgnState g = 3 then ign
  else
    let p := (regionSites g).reverse.foldl (fun p n => if p.powered n then (p.cutSite n).dropAtts n else p) p
    let p := { p with pow := { p.pow with rgnNext := drop p.pow.rgnNext g } }
    (p.setRgn g 0).setShF (Reg.PWR_RGN + 4 * g) 29 29 0

/-- RAMP_GRANT: the first region that waits, when the headroom is there. -/
def execRampGrant (g : Region) (s : State) : Outcome State Fault Refusal :=
  s.onPanel fun p =>
    if p.pow.rgnq.head? = some g.val ∧ p.sh Reg.PWR_RGN_BUDGET % 65536 + p.pow.avg + p.fcastTop ≤ p.capEff.1 then
      let p := (p.setRgn g 1).setShF (Reg.PWR_RGN + 4 * g.val) 29 29 0
      { p with pow := { p.pow with rgnq := p.pow.rgnq.drop 1, rgnNext := put p.pow.rgnNext g (0, p.dial) } }
    else p

/-- SITE_REGULATOR_START: the next site of a ramping region, 100 µs after the one before; its start cost comes from the bucket
(a free value, notes/assumptions/20.md). -/
def execSiteRegulatorStart (g : Region) (s : State) : Outcome State Fault Refusal :=
  s.onPanel fun p =>
    match find p.pow.rgnNext g with
    | none => p
    | some (i, t) =>
      if i ≠ 0 ∧ ¬ p.since t (100 * us) then p
      else
        let n := (regionSites g).getD i 0
        let go (p : Panel) : Panel :=
          let next := if i = 13 then drop p.pow.rgnNext g else put p.pow.rgnNext g (i + 1, p.dial)
          let p := if i = 13 then p.setRgn g 2 else p
          { p with pow := { p.pow with rgnNext := next } }
        if ¬ p.startable n ∨ p.powered n then go p
        else match p.rise (Config.startCost n) with
          | none => p.rampWait
          | some p => go (p.startSite n)

/-! ### Power cap (R416) -/

/-- The excursion limit of R400 in watts. -/
def Panel.excursion (p : Panel) : Nat :=
  let dv := bits (p.sh Reg.PWR_IN) 31 20
  if dv = 0 then 16000 else min 16000 (36 * dv)

/-- A panel above its cap: the bucket is emptied, and a setpoint decrease is requested when none is pending. -/
def Panel.overCap (p : Panel) : Panel :=
  let p := ({ p with bucket := 0, bucketAt := p.dial } : Panel).spSettle
  let sp := p.setpoint
  if p.spPending ∨ sp = 0 ∨ ¬ p.merged then p
  else
    ((p.setSh Reg.CLK_SP_AT (p.dial + 5 * ms)).spRequest (p.dial + 5 * ms) (p.fitCode sp) p.spread).bumpSh Reg.PWR_OVER_CNT

/-- POWER_CAP_CHECK: every 10 µs. -/
def execPowerCapCheck (w10us w1ms : Nat) (s : State) : Outcome State Fault Refusal :=
  s.onPanel fun p =>
    let peaks := (p.dial, w10us) :: p.pow.peaks.filter fun (x : Nat × Nat) => decide (p.dial < x.1 + ms)
    let top := (peaks.map fun (x : Nat × Nat) => x.2).foldl max 0
    let p := p.setSh Reg.PWR_PANEL_P (min 65535 (top / 10) * 65536 + min 65535 (w1ms / 10))
    let p := { p with pow := { p.pow with peaks := peaks, avg := w1ms } }
    let cap := p.capEff.1
    let p := { p with pow := { p.pow with
      overAt := heldSince (cap < w1ms) p.pow.overAt p.dial, underAt := heldSince (w1ms + 500 ≤ cap) p.pow.underAt p.dial } }
    let p := if cap < w1ms then p.overCap else p
    let p := if p.heldFor p.pow.overAt (15 * ms) then
        let p := (p.broadcast (p.fitCode p.setpoint)).bumpSh Reg.PWR_OVER_CNT
        { p with pow := { p.pow with overAt := some p.dial } }
      else p
    if p.excursion < w10us then (p.broadcast 0x10).bumpSh Reg.PWR_OVER_CNT else p

/-- CAP_RESTORE: a broadcast cap one code up, once in 10 ms, the rise drawn from the bucket. -/
def execCapRestore (s : State) : Outcome State Fault Refusal :=
  s.onPanel fun p =>
    match p.pow.bcast with
    | none => p
    | some c =>
      if p.shedding ∨ ¬ p.heldFor p.pow.underAt (100 * ms) ∨ ¬ p.since p.pow.raisedAt (10 * ms) then p
      else
        let mw := (p.poweredSites.map fun n => let m := (p.core n).siteMw; scaledMw n m c (c + 1) - m).sum
        match p.rise mw with
        | none => p.rampWait
        | some p =>
          let p := p.eachPowered fun k => k.setMgmt p.dial (min 0x2C (c + 1))
          { p with pow := { p.pow with bcast := if 0x2C ≤ c + 1 then none else some (c + 1), raisedAt := p.dial } }

/-! ### Telemetry and energy (R418, R419) -/

/-- A domain's sample: fields hold at all ones when the sample exceeds them. -/
def Panel.sampleDomain (p : Panel) (d : PowerDomain) (mv ma : Nat) : Panel :=
  match d with
  | .site n =>
    if p.powered n then
      p.modCore n fun k =>
        let k := k.wr Reg.PWR_SITE_VI (min 4095 mv * 2 ^ 20 + min 1023 (ma / 100) * 2 ^ 10 + min 1023 (mv * ma / 100000))
        { k with heat := { k.heat with load := mv * ma / 1000 - k.ballast * 250 } }
    else p
  | .edge d => p.setSh (Reg.PWR_DOM + 4 * d) (min 4095 mv * 2 ^ 20 + min (2 ^ 20 - 1) ma)
  | .region g => p.setShF (Reg.PWR_RGN + 4 * g) 15 0 (min 65535 (mv * ma / 1000000))
  | .edgeConverter e => p.setShF (Reg.PWR_EDGE + 4 * e) 15 0 (min 65535 (mv * ma / 1000000))

/-- TELEMETRY_SAMPLE. -/
def execTelemetrySample (domain : PowerDomain) (millivolts milliamps : Nat) (s : State) : Outcome State Fault Refusal :=
  s.onPanel fun p => p.sampleDomain domain millivolts milliamps

/-- ENERGY_TICK: the input energy of a millisecond. -/
def execEnergyTick (millijoules : Nat) (s : State) : Outcome State Fault Refusal :=
  s.onPanel fun p => p.wrapSh Reg.PWR_ENERGY millijoules

/-- ENERGY_TENANT_UPDATE: at each multiple of 100 ms of dial time. -/
def execEnergyTenantUpdate (s : State) : Outcome State Fault Refusal :=
  s.onPanel fun p =>
    let n := p.dial / (100 * ms)
    if p.pow.tenant < n then
      let p := p.setSh Reg.PWR_ENERGY_T (p.sh Reg.PWR_ENERGY / 10000 % 2 ^ 32)
      { p with pow := { p.pow with tenant := n } }
    else p

/-! ### Register writes (R434, R435) -/

def Panel.ignPwr (p : Panel) : Panel := p.bumpSh Reg.PWR_CFG_IGN_CNT

/-- A write of PWR_CAP, PWR_RAMP, PWR_RGN_BUDGET or THM_FLOW_CFG; one outside a field's range is ignored and counted. -/
def Panel.pwrCapWrite (p : Panel) (value : W64) : Panel :=
  let c := value.toNat % 65536
  if 200 ≤ c ∧ c ≤ 1400 then p.setSh Reg.PWR_CAP c else p.ignPwr
def Panel.pwrRampWrite (p : Panel) (value : W64) : Panel :=
  let r := bits value.toNat 23 16
  let b := bits value.toNat 15 0
  if 1 ≤ r ∧ r ≤ 18 ∧ b ≤ 200 then
    { p with bucket := p.bucketNow, bucketAt := p.dial }.setSh Reg.PWR_RAMP (r * 65536 + b)
  else p.ignPwr
def Panel.flowCfgWrite (p : Panel) (value : W64) : Panel :=
  let c := value.toNat % 16384
  if 100 ≤ c ∧ c ≤ 10000 then p.setSh Reg.THM_FLOW_CFG c else p.ignPwr

/-- A write of PWR_FLOOR: a floor above 128 is ignored. -/
def Core.floorWrite (k : Core) (value : W64) : Core := if 128 < value.toNat % 256 then k else k.setFloor (value.toNat % 256)

/-- PWR_SITE_STAT: the regulator's state, its failed phases, and the code whose voltage it holds. -/
def Core.siteStat (k : Core) : Nat :=
  let v := k.rd Reg.PWR_SITE_STAT
  if k.powered then (setFld (setFld (BitVec.ofNat 64 v) 31 30 2) 17 12 k.code).toNat else v
def Core.floorReg (k : Core) : Nat := k.rd Reg.PWR_FLOOR % 256 + k.ballast * 2 ^ 16

end Sys2Proof.Machine
end

