-- ==== Sys2Proof/Machine/Thermal.lean ====
section
/-! DEFINITION. Sensors, thermal limits, the HBM limit, lehr mode and coolant (R420–R432, R525, R526). Temperatures of sites are
in quarters of a degree. -/

namespace Sys2Proof.Machine

open Host (Outcome)

/-! ### Sensors of a site (R420, R421) -/

/-- A sensor's last reading in range while it is usable, in quarters of a degree. -/
def Core.sense (k : Core) (i : Nat) : Option Int :=
  let v := k.rd (Reg.THM_SENS + 4 * i)
  if v.testBit 31 then
    let t := v % 4096
    some (if t < 2048 then (t : Int) else (t : Int) - 4096)
  else none

/-- The temperature of a hot spot: the higher of its usable readings. -/
def Core.spotT (k : Core) (h : Nat) : Option Int :=
  match k.sense (2 * h), k.sense (2 * h + 1) with
  | some a, some b => some (max a b)
  | some a, none => some a
  | none, b => b

/-- The site temperature Tj. -/
def Core.tj (k : Core) : Option Int :=
  ([0, 1, 2].filterMap k.spotT).foldl (fun m t => match m with
    | none => some t
    | some u => some (max t u)) none

/-- A sensor with no reading in range for 1 ms. -/
def Core.unusable (k : Core) (dial i : Nat) : Bool := decide (look 0 k.heat.seenAt i + ms ≤ dial)

/-- A hot spot without a usable sensor. -/
def Core.spotLost (k : Core) (dial h : Nat) : Bool :=
  (k.sense (2 * h)).isNone && (k.sense (2 * h + 1)).isNone && k.unusable dial (2 * h) && k.unusable dial (2 * h + 1)

def Core.anyLost (k : Core) (dial : Nat) : Bool := [0, 1, 2].any (k.spotLost dial)

/-- Whole degrees of a temperature, 0 below 0 °C. -/
def degrees (t : Int) : Nat := (t / 4).toNat

/-- The fields of THM_SITE that follow from the sensors. -/
def Core.siteT (k : Core) (dial : Nat) : Core :=
  let t := (k.tj.map degrees).getD 0
  let k := k.setF Reg.THM_SITE 31 24 (min 255 t)
  let k := k.setF Reg.THM_SITE 15 8 (max (bits (k.rd Reg.THM_SITE) 15 8) (min 255 t))
  let k := k.setF Reg.THM_SITE 20 20 (b2n (k.heat.spots.any fun (x : Nat × HotSpot) => x.2.flag))
  k.setF Reg.THM_SITE 19 17 (([0, 1, 2].map fun h => b2n (k.spotLost dial h) * 2 ^ h).sum)

/-- A hot spot's disagreement after a reading: flagged, or cleared, after 10 ms. The answer says whether an episode begins. -/
def HotSpot.judge (x : HotSpot) (apart : Bool) (dial : Nat) : HotSpot × Bool :=
  if apart == x.flag then ({ x with since := none }, false)
  else
    let t := x.since.getD dial
    if t + 10 * ms ≤ dial then ({ flag := apart, since := none }, apart) else ({ x with since := some t }, false)

/-- The cap is below 0x2C from now on, if it was not before (R422). -/
def Core.slowFrom (k : Core) (dial : Nat) : Core :=
  { k with heat := { k.heat with slowSince := some (k.heat.slowSince.getD dial) } }

/-- One conversion of a sensor. -/
def Core.convert (k : Core) (dial n i : Nat) (q : Int) : Core :=
  let off := Reg.THM_SENS + 4 * i
  let h := i / 2
  let k1 : Core :=
    if q < -160 ∨ 600 < q then
      let k := k.bump Reg.THM_SENS_BAD_CNT
      if (k.sense i).isSome ∧ k.unusable dial i then
        (k.setF off 31 31 0).logErr dial n { cls := 0x10, unit := i, addr := k.rd off % 4096 }
      else k
    else
      let k := k.wr off (2 ^ 31 + (q % 4096).toNat)
      { k with heat := { k.heat with seenAt := put k.heat.seenAt i dial } }
  let k2 : Core := match k1.sense (2 * h), k1.sense (2 * h + 1) with
    | some a, some b =>
      let x := (look {} k1.heat.spots h).judge (decide (24 < a - b ∨ 24 < b - a)) dial
      let k := { k1 with heat := { k1.heat with spots := put k1.heat.spots h x.1 } }
      if x.2 then
        (k.bump Reg.THM_DISAGREE_CNT).logErr dial n
          { cls := 0x10, unit := i, addr := k.rd (Reg.THM_SENS + 8 * h) % 4096 + k.rd (Reg.THM_SENS + 8 * h + 4) % 4096 * 4096 }
      else k
    | _, _ => k1
  let k3 := k2.siteT dial
  if k3.anyLost dial ∧ 0x10 < k3.thmCap then (k3.setThm dial 0x10).slowFrom dial else k3

/-- SENSOR_CONVERSION: every 20 µs. -/
def execSensorConversion (n : Site) (i : Fin 6) (quarterC : Int) (s : State) : Outcome State Fault Refusal :=
  s.atSite n fun k p => p.setCore n (k.convert p.dial n i quarterC)

/-! ### Thermal limits of a site (R422) -/

/-- The level of a temperature. -/
def thermalLevel (t : Int) : Nat :=
  if t < 368 then 0 else if t < 380 then 1 else if t < 400 then 2 else if t < 420 then 3 else if t < 432 then 4 else 5

/-- The thermal cap after an evaluation, and whether it moved by a timed step. -/
def thermalCap (lvl thm : Nat) (msPassed hundredUs : Bool) : Nat × Bool :=
  match lvl with
  | 0 => if msPassed ∧ thm < 0x2C then (thm + 1, true) else (thm, false)
  | 1 => (thm, false)
  | 2 => if msPassed ∧ 0 < thm then (thm - 1, true) else (thm, false)
  | 3 => if hundredUs ∧ 0 < thm then (thm - 1, true) else (thm, false)
  | 4 => if 0x10 < thm then (0x10, true) else if hundredUs ∧ 0 < thm then (thm - 1, true) else (thm, false)
  | _ => (0, true)

/-- Throttled microseconds counted up to now. -/
def Core.countSlow (k : Core) (dial : Nat) : Core :=
  match k.heat.slowSince with
  | none => k
  | some t =>
    let n := (dial - t) / us
    { k.bump Reg.THM_THROTTLE_US n with heat := { k.heat with slowSince := some (t + n * us) } }

/-- One evaluation of a site. The answer says whether level 5 is entered. -/
def Core.evaluate (k : Core) (dial : Nat) : Core × Bool :=
  match k.tj with
  | none => (k.countSlow dial, false)
  | some t =>
    let lvl := thermalLevel t
    let old := bits (k.rd Reg.THM_SITE) 23 21
    let k := k.countSlow dial
    let x := thermalCap lvl k.thmCap (decide (k.heat.stepAt + ms ≤ dial)) (decide (k.heat.stepAt + 100 * us ≤ dial))
    let cap := if k.anyLost dial then min x.1 0x10 else x.1
    let k := if cap = k.thmCap then k else k.setThm dial cap
    let k := k.setF Reg.THM_SITE 23 21 lvl
    let enter := decide (lvl = 5 ∧ old ≠ 5)
    let k := if enter then k.bump Reg.THM_SHED_CNT else k
    let k := if lvl = 5 then { k.setFloor 0 with heat := { k.heat with lehr := 0 } } else k
    ({ k with heat := { k.heat with
        stepAt := if x.2 then dial else k.heat.stepAt
        hotSince := if lvl = 5 then some (k.heat.hotSince.getD dial) else none
        slowSince := if cap < 0x2C then some (k.heat.slowSince.getD dial) else none } }, enter)

/-- THERMAL_EVALUATION: every 100 µs. -/
def execThermalEvaluation (n : Site) (s : State) : Outcome State Fault Refusal :=
  s.atSite n fun k p =>
    let x := k.evaluate p.dial
    let p := p.setCore n x.1
    if x.2 then (p.logCore n { cls := 0x11, unit := 0, addr := (k.tj.map degrees).getD 0 }).alertOut else p

/-- THERMAL_SHED_RETIRE: 10 ms in a row at level 5. -/
def execThermalShedRetire (n : Site) (s : State) : Outcome State Fault Refusal :=
  s.atSite n fun k p => if p.heldFor k.heat.hotSince (10 * ms) then p.loseSite n 5 else p

/-! ### Edge dies (R423–R425) -/

/-- THERMAL_TRIP: a die's rail is turned off at 112 °C. -/
def execThermalTrip (die : Die) (s : State) : Outcome State Fault Refusal :=
  s.onPanel fun p =>
    let log (d : DieId) (p : Panel) : Panel :=
      let c := p.leader 0
      (p.bumpSh Reg.THM_DIE_TRIP_CNT).logCrown c d { cls := 0x11, level := 3, unit := 1, addr := 112 }
    match die with
    | .core n => if p.powered n then (log (.core n) p).loseSite n 5 else p
    | .hub h => if p.fuses.hubPresent h ∧ ¬ (p.hub h).lost then (log (.hub h) p).loseHub h 3 else p
    | .port d => if p.fuses.diePresent d ∧ ¬ (p.port d).lost then (log (.port d) p).losePortDie d else p
    | .crown c => if (p.crown c).lost then p else (log (.crown c) p).loseCrown c
    | .bar0 _ => p

/-- The index of an edge die in THM_EDGE_T; none for a core site or a function. -/
def edgeIndex : Die → Option Nat
  | .hub h => some h
  | .port d => some (24 + d)
  | .crown c => some (32 + c.num)
  | _ => none

/-- An edge die that is present and not lost. -/
def Panel.edgeUp (p : Panel) : Die → Bool
  | .hub h => p.fuses.hubPresent h && !(p.hub h).lost
  | .port d => p.fuses.diePresent d && !(p.port d).lost
  | .crown c => !(p.crown c).lost
  | _ => false

/-- Since when an edge die has stood at 108 °C. -/
def Panel.edgeHot (p : Panel) : Die → Option Nat
  | .hub h => (p.hub h).heatAt
  | .port d => (p.port d).heatAt
  | .crown c => (p.crown c).heatAt
  | _ => none
def Panel.setEdgeHot (p : Panel) (die : Die) (t : Option Nat) : Panel :=
  match die with
  | .hub h => p.modHub h fun k => { k with heatAt := t }
  | .port d => p.modPort d fun k => { k with heatAt := t }
  | .crown c => p.modCrown c fun k => { k with heatAt := t }
  | _ => p

/-- The rail of an edge die off. -/
def Panel.edgeOff (p : Panel) (die : Die) (t : Nat) : Panel :=
  let log (d : DieId) : Panel := p.logCrown (p.leader 0) d { cls := 0x11, level := 3, unit := 2, addr := t }
  match die with
  | .hub h => (log (.hub h)).loseHub h 3
  | .port d => (log (.port d)).losePortDie d
  | .crown c => (log (.crown c)).loseCrown c
  | _ => p

/-- EDGE_THERMAL_EVALUATION: a die without a usable pair is treated as at 100 °C and flagged. -/
def execEdgeThermalEvaluation (die : Die) (celsius : Option Nat) (s : State) : Outcome State Fault Refusal :=
  s.onPanel fun p =>
    match edgeIndex die with
    | none => p
    | some i =>
      if ¬ p.edgeUp die then p
      else
        let off := Reg.THM_EDGE_T + 4 * i
        let old := p.sh off
        let t := min 255 (celsius.getD 100)
        let was := old % 256
        let p := p.setSh off (b2n celsius.isSome * 2 ^ 31 + max (bits old 15 8) t * 256 + t)
        let p := if (was < 95 ∧ 95 ≤ t) ∨ (was < 105 ∧ 105 ≤ t) then p.alertOut else p
        let p := match die with
          | .hub h => if 105 ≤ t then p.modHub h fun k => { k with levels := put k.levels 2 p.dial } else p
          | _ => p
        let p := p.setEdgeHot die (heldSince (108 ≤ t) (p.edgeHot die) p.dial)
        if p.heldFor (p.edgeHot die) (10 * ms) then p.edgeOff die t else p

/-- HBM_LIMIT_STEP: the HBM limit falls while a stack is at level 3, and rises again; a stack whose last two readings, 1 ms
apart, are at 105 °C or more is lost. -/
def execHbmLimitStep (s : State) : Outcome State Fault Refusal :=
  s.onPanel fun p =>
    let here := (List.range 24).filter fun h => p.fuses.hubPresent h && !(p.hub h).lost
    let p := (here.filter fun h => let k := p.hub h; k.stack == 2 && decide (2 ≤ k.temps.length) && k.temps.all (105 ≤ ·)).foldl
      (fun p h => p.loseStack h 3) p
    let hot := here.any fun h => (p.hub h).stack == 2 && (p.hub h).tlvl == 3
    let w := p.pow
    match w.hbm with
    | none => if hot then { p with pow := { w with hbm := some (max 2800 w.avg), hbmAt := p.dial } } else p
    | some l =>
      if hot then
        if p.since w.hbmAt (10 * ms) then { p with pow := { w with hbm := some (max 2800 (l - 1000)), hbmAt := p.dial } } else p
      else
        let up := (p.dial - w.hbmAt) / (2 * ms)
        let l := l + up
        let others := ({ p with pow := { w with hbm := none } } : Panel).capEff.1
        { p with pow := { w with hbm := if others ≤ l then none else some l, hbmAt := w.hbmAt + up * 2 * ms } }

/-! ### Lehr mode (R426, R427) -/

/-- The lehr floor of a site in quarters of a degree: the warm one while the forecast of a model that would use it is nonzero. -/
def Panel.lehrFloor (p : Panel) (n : Nat) (k : Core) : Int :=
  let v := k.rd Reg.THM_LEHR
  let warm := decide (0 < p.fcastTop) && ((p.site n).state == 2 || p.warmSites.contains n)
  4 * (if warm then bits v 23 16 else bits v 15 8 : Nat)

/-- LEHR_ADJUST: half a watt per ms, up to 8 W, the rise drawn from the bucket. -/
def execLehrAdjust (n : Site) (s : State) : Outcome State Fault Refusal :=
  s.atSite n fun k p =>
    let applies := (k.rd Reg.THM_LEHR).testBit 31 && ((p.site n).state == 2 || k.seq.gated)
    let step := (p.dial - k.heat.lehrAt) / ms * 2
    let set (p : Panel) (q : Nat) : Panel := p.modCore n fun k =>
      ({ k with heat := { k.heat with lehr := q, lehrAt := p.dial } } : Core).setF Reg.THM_SITE 16 16 (b2n (decide (0 < q)))
    let yields : Bool := decide (p.capEff.1 ≤ p.pow.avg + 500) || p.capEff.2 == 2 || p.capEff.2 == 3
    let cold : Bool := match k.tj with
      | none => false
      | some t => decide (t < p.lehrFloor n k)
    if p.shedding ∨ ¬ applies then set p 0
    else if step = 0 then p
    else if yields ∨ ¬ cold then set p (k.heat.lehr - step)
    else
      let q := min 32 (k.heat.lehr + min step 2)
      match p.rise ((q - k.heat.lehr) * 250) with
      | none => p.rampWait
      | some p => set p q

/-- A write of THM_LEHR: a floor outside 40–80 °C keeps its value. -/
def Core.lehrWrite (k : Core) (value : W64) : Core :=
  let v := value.toNat
  let ok (x : Nat) : Bool := decide (40 ≤ x ∧ x ≤ 80)
  let k := k.setF Reg.THM_LEHR 31 31 (bits v 31 31)
  let k := if ok (bits v 23 16) then k.setF Reg.THM_LEHR 23 16 (bits v 23 16) else k
  if ok (bits v 15 8) then k.setF Reg.THM_LEHR 15 8 (bits v 15 8) else k

/-! ### Coolant (R428–R432, R525, R526) -/

/-- A thermistor after a reading: out of range for 10 ms it is unusable until it has read in range for 1 s. The second answer
says whether it has just become unusable. -/
def thermistor (dial : Nat) (r : Option Int) (b : Option (Nat × Bool)) : Option (Nat × Bool) × Bool :=
  match r, b with
  | none, none => (some (dial, false), false)
  | none, some (t, false) => if t + 10 * ms ≤ dial then (some (dial, true), true) else (some (t, false), false)
  | none, some (_, true) => (some (dial, true), false)
  | some _, some (t, true) => if t + 1000 * ms ≤ dial then (none, false) else (some (t, true), false)
  | some _, _ => (none, false)

def unusableT (b : Option (Nat × Bool)) : Bool := match b with
  | some (_, true) => true
  | _ => false

/-- A field of THM_COOL from a temperature in tenths of a degree. -/
def coolField (o : Option Int) : Nat := min 2047 ((o.getD 0).toNat)

/-- THERMISTOR_READ: every 1 ms. -/
def execThermistorRead (inletDeciC outletDeciC : Option Int) (s : State) : Outcome State Fault Refusal :=
  s.onPanel fun p =>
    let w := p.pow
    let a := thermistor p.dial inletDeciC w.badIn
    let b := thermistor p.dial outletDeciC w.badOut
    let tin := if unusableT a.1 then none else (inletDeciC <|> w.tin)
    let kept := w.tout.filter fun (x : Nat × Int) => decide (p.dial < x.1 + 101 * ms)
    let tout := if unusableT b.1 then [] else match outletDeciC with
      | none => kept
      | some t => (p.dial, t) :: kept
    let c := p.leader 0
    let note (n : Nat) (p : Panel) : Panel := p.logCrown c (.crown c) { cls := 0x10, unit := n }
    let p := if a.2 then note 0 p else p
    let p := if b.2 then note 1 p else p
    let p := (p.setShF Reg.THM_COOL 21 11 (coolField tin)).setShF Reg.THM_COOL 10 0 (coolField (tout.head?.map (·.2)))
    { p with pow := { w with
        badIn := a.1, badOut := b.1, tin := tin, tout := tout, hotAt := heldSince (decide (450 < tin.getD 0)) w.hotAt p.dial } }

/-- FLOW_PULSE. -/
def execFlowPulse (s : State) : Outcome State Fault Refusal :=
  s.onPanel fun p =>
    { p with pow := { p.pow with pulses := p.dial :: p.pow.pulses.filter fun (t : Nat) => decide (p.dial < t + 1000 * ms) } }

def Panel.kpl (p : Panel) : Nat := p.sh Reg.THM_FLOW_CFG % 16384

/-- Fm: the meter flow over the last second, in 0.1 L/min. -/
def Panel.meterFlow (p : Panel) : Nat :=
  (p.pow.pulses.filter fun (t : Nat) => decide (p.dial < t + 1000 * ms)).length * 600 / max 1 p.kpl

/-- Ft: the flow that the water's rise gives, in 0.1 L/min, when it is used. -/
def Panel.heatFlow (p : Panel) : Option Nat :=
  match p.pow.tin, p.pow.tout.head? with
  | some a, some (_, b) =>
    if 2000 ≤ p.pow.avg ∧ 10 ≤ b - a then some (57 * p.pow.avg * 100 / (4180 * (b - a).toNat)) else none
  | _, _ => none

/-- Fmin, in 0.1 L/min. -/
def Panel.minFlow (p : Panel) : Nat := 240 * (p.sh Reg.PWR_CAP % 65536 * 10) / 14000

/-- A coolant alert set or cleared; setting it is recorded and raised. -/
def Panel.coolAlert (p : Panel) (bit : Nat) (on : Bool) : Panel :=
  let was := (p.sh Reg.THM_COOL_ALERT).testBit bit
  let p := p.setShF Reg.THM_COOL_ALERT bit bit (b2n on)
  if on ∧ ¬ was then
    let c := p.leader 0
    (p.logCrown c (.crown c) { cls := 0x12, unit := bit, addr := bits (p.sh Reg.THM_COOL) 31 22 }).alertOut
  else p

/-- COOLANT_EVALUATION: every 100 ms. -/
def execCoolantEvaluation (s : State) : Outcome State Fault Refusal :=
  s.onPanel fun p =>
    let w := p.pow
    if ¬ p.since w.coolAt (100 * ms) then p
    else
      let fm := p.meterFlow
      let ft := p.heatFlow
      let f := min fm (ft.getD fm)
      let lim := 14000 * f / 240
      let flow := match w.flow with
        | none => lim
        | some l => if lim ≤ l then lim else min lim (l + (p.dial - w.coolAt) * 500 / (1000 * ms))
      let low := decide (10 * f < 9 * p.minFlow)
      let apart := match ft with
        | none => false
        | some t => decide (t < 4 * (fm - t) ∨ t < 4 * (t - fm))
      let inlet := match w.tin with
        | none => w.inlet
        | some t => if 400 < t then some (14000 - 100 * (t - 400).toNat) else none
      let p := p.setShF Reg.THM_COOL 31 22 (min 1023 f)
      let p := { p with pow := { w with
        flow := some flow, flow' := fm, inlet := inlet, coolAt := p.dial, lowFlowAt := heldSince low w.lowFlowAt p.dial
        meterAt := heldSince apart w.meterAt p.dial, fineFlow := heldSince (decide (9 * p.minFlow ≤ 10 * fm)) w.fineFlow p.dial } }
      let p := p.coolAlert 31 (p.heldFor p.pow.lowFlowAt (1000 * ms))
      let p := p.coolAlert 26 (p.heldFor p.pow.meterAt (10000 * ms))
      match w.tin with
      | none => p
      | some t => (p.coolAlert 30 (decide (400 < t))).coolAlert 29 (decide (t < 180))

/-- The outlet has risen over a time by at least an amount, in tenths of a degree. -/
def Panel.outletRise (p : Panel) (span : Nat) (by' : Int) : Bool :=
  match p.pow.tout with
  | [] => false
  | (t, v) :: rest => rest.any fun (x : Nat × Int) => decide (t ≤ x.1 + span ∧ by' ≤ v - x.2)

/-- The conditions of an abrupt stop. -/
def Panel.stopCause (p : Panel) : Bool :=
  let still := match p.pow.pulses.head? with
    | none => true
    | some t => p.since t (10 * ms)
  (decide (120 ≤ p.pow.flow' ∧ 1000 ≤ p.kpl) && still) || p.outletRise (8 * ms) 1 || p.heldFor p.pow.hotAt (1000 * ms)

/-- ABRUPT_STOP: the panel is shed to 2.8 kW. -/
def execAbruptStop (s : State) : Outcome State Fault Refusal :=
  s.onPanel fun p =>
    if p.pow.stopAt.isSome ∨ ¬ p.stopCause then p
    else
      let p := (p.coolAlert 28 true).bumpSh Reg.THM_COOL_SHED_CNT
      ({ p with pow := { p.pow with stopAt := some p.dial, fineFlow := none } } : Panel).shed

/-- SHED_LIFT: flow and outlet have recovered for 100 ms. -/
def execShedLift (s : State) : Outcome State Fault Refusal :=
  s.onPanel fun p =>
    if p.pow.stopAt.isSome ∧ p.heldFor p.pow.fineFlow (100 * ms) ∧ ¬ p.outletRise (100 * ms) 1 then
      (({ p with pow := { p.pow with stopAt := none } } : Panel).coolAlert 28 false).unshed
    else p

/-- Every region, stack, hub and port die off; the crowns stay. -/
def Panel.powerDown (p : Panel) : Panel :=
  let p := (List.range 24).reverse.foldl (fun p g =>
    let p := (regionSites g).reverse.foldl (fun p n => p.modCore n (Core.powerDown p.fuses n)) p
    if p.rgnState g = 3 then p else p.setRgn g 0) p
  let p := (List.range 24).foldl (fun p h => p.setHub h { Hub.blank with lost := true, stack := 3 }) p
  let p := (List.range 8).foldl (fun p d => p.setPort d { PortDie.blank with lost := true }) p
  let p := (List.range 8).foldl (fun p e => if p.edgeState e = 3 then p else p.setEdge e 0) p
  { p with agents := [], pow := { p.pow with rgnq := [], rgnNext := [], rises := [] } }

/-- ORDERLY_STOP: a shed that has not lifted in 2 s. -/
def execOrderlyStop (s : State) : Outcome State Fault Refusal :=
  s.onPanel fun p =>
    if ¬ p.heldFor p.pow.stopAt (2000 * ms) ∨ (p.sh Reg.THM_COOL_ALERT).testBit 27 then p
    else
      let parts := (p.allCtx.map fun x => x.2.part).foldl insertNat []
      let p := parts.foldl (fun p q => p.faultPart q 4) p
      let p := p.powerDown.coolAlert 27 true
      { p with fatal := true }

end Sys2Proof.Machine
end

