-- ==== Sys2Proof/Machine/Errors.lean ====
section
/-! DEFINITION. Table entries rewritten, rows restored from their shadow, and the crowns' error log (R502, R505, R508, R509, R513). -/

namespace Sys2Proof.Machine

open Host (Outcome)

/-! ### Table entries (R502) -/

/-- The entry that an offset names in a table of registers: its first register, stride and number of entries. -/
def entryOf (off base stride count : Nat) : Option Nat :=
  if base ≤ off ∧ off < base + stride * count then some ((off - base) / stride) else none

/-- A double-bit error of a table, and its rewriting, as the die's records give them (classes 0x04 and 0x05 of R511). -/
def dedItem (i : Nat) : LogItem := { cls := 0x04, level := 1, unit := 1, addr := i }
def tblItem (i : Nat) : LogItem := { cls := 0x05, level := 0, unit := 1, addr := i }

/-- TABLE_ENTRY_REWRITE: the entry takes the crown's copy: a route-map entry as R195 computes it, a window copy as WIN_ENT holds
it; the crown's copy of any other entry is what was last written. -/
def execTableEntryRewrite (die : Die) (off : Nat) (s : State) : Outcome State Fault Refusal :=
  s.onPanel fun p =>
    match die with
    | .core n =>
      let map := entryOf off Reg.MESH_RMAP 4 390
      match map <|> entryOf off Reg.MESH_RED 8 64 with
      | none => p
      | some i =>
        if ¬ p.powered n then p
        else
          let v := p.mapValue n i
          let p := p.modCore n fun k =>
            let k := if map.isSome then k.wr (Reg.MESH_RMAP + 4 * i) v else k
            (k.bump Reg.ERR_DED_CNT_core).bump Reg.ERR_TBL_CNT_core
          (p.logCore n (dedItem i)).logCore n (tblItem i)
    | .hub h =>
      match entryOf off Reg.HUB_BAND 4 192 with
      | none => p
      | some i =>
        if (p.hub h).lost then p
        else ((p.modHub h fun k => (k.bump Reg.ERR_DED_CNT_hub).bump Reg.ERR_TBL_CNT_hub).logHub h (dedItem i)).logHub h (tblItem i)
    | .port d =>
      match entryOf off Reg.WIN_ENT_COPY 32 256 with
      | none => p
      | some i =>
        if (p.port d).lost then p
        else
          let p := p.modPort d fun k =>
            let k := [0, 8, 16, 24].foldl (fun k j => k.wr (Reg.WIN_ENT_COPY + 32 * i + j) (p.sh (Reg.WIN_ENT + 32 * i + j))) k
            (k.bump Reg.ERR_DED_CNT_port).bump Reg.ERR_TBL_CNT_port
          (p.logPort d (dedItem i)).logPort d (tblItem i)
    | .crown c =>
      match entryOf off Reg.HOST_SEG 16 2048 <|> entryOf off Reg.WIN_ENT 32 256 with
      | none => p
      | some i =>
        if (p.crown c).lost then p
        else
          let p := p.modCrown c fun k => (k.bump Reg.ERR_DED_CNT_crown).bump Reg.ERR_TBL_CNT_crown
          (p.logCrown c (.crown c) (dedItem i)).logCrown c (.crown c) (tblItem i)
    | .bar0 _ => p

/-! ### Rows restored (R505) -/

/-- A byte of a scratchpad as the shadow of a model holds it, with the badness of its codeword; none where no data section of the
model covers it. -/
def Panel.shadowByte (p : Panel) (m n off : Nat) : MByte :=
  match (p.model m).table.find? fun t =>
      t.data && decide (t.target ≤ off) && decide (off < t.target + t.length) && t.site p == some n with
  | none => none
  | some t => match t.place p with
    | none => none
    | some (h, base) =>
      let at' := base + (off - t.target)
      let r := (p.hub h).peek (at' / 32)
      some (r.2.data.getD (at' % 32) 0, r.1 == .bad)

/-- One core's row restored, unless its shadow is bad. -/
def Panel.restoreRow (p : Panel) (n : Nat) : Panel :=
  match p.badRow n with
  | none => p
  | some (m, off) =>
    let row := off / 256
    let l := (List.range 256).map fun i => p.shadowByte m n (256 * row + i)
    if l.any MByte.bad then p
    else
      let p := p.modCore n fun k => ((k.writeRow (p.at' n) Own.dmaIn row l).2.wr Reg.SPAD_ERR_ADDR 0)
      p.logCrown (p.leaderOf n) (.core n) { cls := 0x03, level := 1, addr := off }

/-- SHADOW_ROW_RESTORE: before the second run of a step that an uncorrectable codeword failed. -/
def execShadowRowRestore (c : Crown) (step : Nat) (s : State) : Outcome State Fault Refusal :=
  s.atCrown c fun p =>
    match find (p.crown c).steps step with
    | none => p
    | some x =>
      if ¬ x.again ∨ x.restored then p
      else
        let p := p.modStep c step fun x => { x with restored := true }
        (p.restorable x).foldl Panel.restoreRow p

/-! ### The crown error log (R509) -/

/-- Records of one crown's flash log, on each of its devices. -/
def flashRing : Nat := 2097152

/-- Records written to the flash log of a crown and sent to the observers. -/
def Panel.keepRecs (p : Panel) (c : Crown) (rs : List ErrRec) : Panel :=
  if rs.isEmpty then p
  else
    let all := look [] p.flash.errs c.num ++ rs
    let gone := all.length - flashRing
    let fl : Flash := { p.flash with
      errs := put p.flash.errs c.num (all.drop gone), errSeq := put p.flash.errSeq c.num (look 0 p.flash.errSeq c.num + rs.length) }
    let p : Panel := { p with flash := fl }
    let p := if gone = 0 then p else p.modCrown c fun k => k.bump Reg.ERR_FLASH_WRAP_CNT_crown gone
    rs.foldl (fun p r => p.emit (.event 3 r.bytes)) p

/-- The log of a die read and released. -/
def ErrLog.drained (l : ErrLog) : ErrLog := l.ack 64

/-- A power-fail warning holds: nothing is programmed (R401, R433). -/
def Panel.powerFails (p : Panel) : Bool := (p.sh Reg.PWR_IN).testBit 7

/-- ERROR_LOG_POLL: the logs of the dies of a crown's half, or of both halves when the other crown is lost. -/
def execErrorLogPoll (c : Crown) (s : State) : Outcome State Fault Refusal :=
  s.atCrown c fun p =>
    if ¬ p.since (p.crown c).pollAt ms ∨ p.powerFails then p
    else
      let mine (half : Nat) : Bool := half == c.num || (p.crown c.other).lost
      let sites := (List.range 336).filter fun n => mine (halfOf n)
      let hubs := (List.range 24).filter fun h => p.fuses.hubPresent h && !(p.hub h).lost && mine (hubHalf h)
      let ports := (List.range 8).filter fun d => p.fuses.diePresent d && !(p.port d).lost && mine (d / 4)
      let rs := sites.flatMap (fun n => (p.core n).log.recs) ++ hubs.flatMap (fun h => (p.hub h).log.recs) ++
        ports.flatMap (fun d => (p.port d).log.recs) ++ (p.crown c).log.recs
      let p := sites.foldl (fun p n =>
        if (p.core n).log.recs.isEmpty then p else p.modCore n fun k => { k with log := k.log.drained }) p
      let p := hubs.foldl (fun p h => p.modHub h fun k => { k with log := k.log.drained }) p
      let p := ports.foldl (fun p d => p.modPort d fun k => { k with log := k.log.drained }) p
      (p.modCrown c fun k => { k with log := k.log.drained, pollAt := p.dial }).keepRecs c rs

end Sys2Proof.Machine
end

