-- ==== Sys2Proof/Machine/BootOps.lean ====
section
/-! DEFINITION. What the writes of BOOT_CMD and BOOT_TEST_REQ do: restarts, half retrains, vacates, and the queue of tests (R446,
R453, R456, R457, R459, R462). -/

namespace Sys2Proof.Machine

/-! ### BOOT_STATUS -/

def Panel.stage (p : Panel) : Nat := bits (p.sh Reg.BOOT_STATUS) 31 28
def Panel.bootState (p : Panel) : Nat := bits (p.sh Reg.BOOT_STATUS) 27 26
def Panel.fullStart (p : Panel) : Bool := (p.sh Reg.BOOT_STATUS).testBit 25

/-- BOOT_STATUS, with the crowns that lead. -/
def Panel.bootReg (p : Panel) : Nat :=
  let lead := if (p.crown .south).lost then 1 else if (p.crown .north).lost then 2 else 0
  (setFld (rfGet p.shared Reg.BOOT_STATUS) 23 22 lead).toNat

def Panel.ignBoot (p : Panel) : Panel := p.bumpSh Reg.BOOT_CMD_IGN_CNT

/-- A crown drives its HALT_N low (R523); otherwise the land is of high impedance (notes/assumptions/33.md). -/
def Panel.haltDriven (p : Panel) (c : Crown) : Bool :=
  p.live && !(p.crown c).lost &&
    (decide (2 ≤ p.bootState) || (p.sh Reg.THM_COOL_ALERT).testBit 27 || (p.sh Reg.CLK_ESC_STAT).testBit 25)

/-- A restart: the panel stands where PANEL_START begins, its straps not yet sampled. -/
def Panel.restart (p : Panel) (full : Bool) : Panel := { p.dark with boot := { forceFull := full } }

/-! ### Repairs and moves (R453, R456) -/

/-- The free spare of a row. -/
def Panel.freeSpare (p : Panel) (r : Nat) : Option Nat :=
  ((List.range 21).map fun c => siteOf c r).find? fun n =>
    let i := p.site n
    i.state == 2 && !i.split && p.powered n

/-- Steps 2 and 3 of R453 for a set of partitions: steps abandoned, no START, PAUSE and ABORT to every core. -/
def Panel.pauseParts (p : Panel) (parts : List Nat) : Panel :=
  let p := parts.foldl (fun p q => (p.abandonPart q).holdModels q true) p
  (parts.flatMap p.partSites).foldl (fun p n => p.modCore n fun k => (k.cmd 1).cmd 3) p

/-- A vacate begun (R456): its time counts as maintenance. -/
def Panel.beginVacate (p : Panel) (n : Nat) : Panel :=
  let parts := p.partsAt n
  let p : Panel := { p with repair := some { sites := [n], since := p.dial, parts := parts, vacate := true }, maint := true }
  p.pauseParts parts

/-- A vacate command. One that finds a repair under way waits for its end. -/
def Panel.vacateCmd (p : Panel) (c r : Nat) : Panel :=
  let n := siteOf c r
  if 21 ≤ c ∨ (p.site n).state ≠ 1 ∨ (p.freeSpare r).isNone then p.ignBoot
  else if p.repair.isSome then { p with boot := { p.boot with vacates := p.boot.vacates ++ [n] } }
  else p.beginVacate n

/-! ### Half retrains (R457) -/

def halfSites (half : Nat) : List Nat := (List.range 336).filter fun n => halfOf n = half
def Panel.halfHubs (p : Panel) (half : Nat) : List Nat := (List.range 24).filter fun h => p.fuses.hubPresent h && hubHalf h == half
def Panel.halfPorts (p : Panel) (half : Nat) : List (Nat × Nat) :=
  (p.fuses.ports.filter fun n => n / 8 == half).map fun n => (n / 2, n % 2)
def halfCrown (half : Nat) : Crown := if half = 0 then .north else .south

/-- Partitions with a core or an attachment in a half. -/
def Panel.halfParts (p : Panel) (half : Nat) : List Nat := ((halfSites half).flatMap p.partsAt).foldl insertNat []

/-- A half retrain begun: the partitions that use the half are faulted, its sites and ports go down, and its stacks are refused as
lost ones are. -/
def Panel.beginRetrain (p : Panel) (half : Nat) : Panel :=
  let p := (p.halfParts half).foldl (fun p q => p.faultPart q 4) p
  let c := halfCrown half
  let p := (p.crown c).steps.foldl (fun p s => p.abandon c s.2) p
  let p := p.modCrown c fun k => { k with rounds := [] }
  let p := (p.halfPorts half).foldl (fun p x => if p.portHere x.1 x.2 ∧ 2 ≤ (p.fport x.1 x.2).state then p.portFall x.1 x.2 3 else p) p
  let p := (p.halfHubs half).foldl (fun p h => if (p.hub h).stack = 2 then p.modHub h fun k => { k with stack := 3 } else p) p
  let p := (halfSites half).reverse.foldl (fun p n => if p.powered n then p.cutSite n else p) p
  let p := (List.range 24).foldl (fun p g => if g / 12 = half ∧ p.rgnState g = 2 then p.setRgn g 0 else p) p
  let mask := (p.halfHubs half).foldl (fun m h => m ||| 2 ^ h) p.lostStacks
  ({ p with lostStacks := mask, boot := { p.boot with retrainAt := p.dial } } : Panel).setShF Reg.BOOT_STATUS 20 19 (half + 1)

/-- A retrain command. -/
def Panel.retrainCmd (p : Panel) (half : Nat) (force : Bool) : Panel :=
  if p.bootState ≠ 1 ∨ p.retraining ≠ 0 ∨ (p.crown .north).lost ∨ (p.crown .south).lost ∨ (¬ force ∧ ¬ (p.halfParts half).isEmpty)
  then p.ignBoot
  else p.beginRetrain half

/-! ### BOOT_CMD and BOOT_TEST_REQ -/

/-- A write of BOOT_CMD. -/
def Panel.bootCmd (p : Panel) (value : W64) : Panel :=
  let v := value.toNat
  let cmd := bits v 31 28
  let force := v.testBit 27
  if cmd = 1 then p.restart false
  else if cmd = 2 then p.restart true
  else if cmd = 3 then { p with flash := { p.flash with fullNext := true } }
  else if cmd = 4 then p.retrainCmd 0 force
  else if cmd = 5 then p.retrainCmd 1 force
  else if cmd = 6 then p.vacateCmd (bits v 12 8) (v % 16)
  else p.ignBoot

/-- Fields of a test request. -/
def testKind (v : Nat) : Nat := bits v 63 60
def testSite (v : Nat) : Nat := siteOf (bits v 12 8) (v % 16)
def testPort (v : Nat) : Nat := bits v 7 5

/-- A write of BOOT_TEST_REQ: held behind the requests before it, or refused. A column that the grid does not have is refused as
an unnamed value is. -/
def Panel.testReq (p : Panel) (value : W64) : Panel :=
  let v := value.toNat
  let bad := ¬ (1 ≤ testKind v ∧ testKind v ≤ 4) ∨ bits v 58 32 ≠ 0 ∨ bits v 15 13 ≠ 0 ∨ v.testBit 4 ∨ 21 ≤ bits v 12 8
  if bad ∨ 16 ≤ p.tests.length then p.bumpSh Reg.BOOT_TEST_REFUSE_CNT else { p with tests := p.tests ++ [value] }

/-- BOOT_TEST_STAT. -/
def Panel.testStat (p : Panel) : Nat :=
  p.tests.length * 2 ^ 27 + (match p.testRun with
    | none => 0
    | some t => 2 ^ 26 + testKind t.req.toNat * 2 ^ 22)

end Sys2Proof.Machine
end

