-- ==== Sys2Proof/Machine/SecureOps.lean ====
section
/-! DEFINITION. Flash copies and their checks (R443, R473, R474), configuration items (R444), and the digest of the protection
set-up (R483). -/

namespace Sys2Proof.Machine

/-! ### Signed items (R473, R474) -/

/-- A digest as the number that a signature is made over. -/
def digestBits (b : List Byte) : BitVec 256 := BitVec.ofNat 256 (leNat (sm3 b))

/-- 64 bytes as a key or a signature. -/
def keyBits (b : List Byte) : BitVec 512 := BitVec.ofNat 512 (leNat b)

/-- The signature trailer of a body. -/
def trailer (body : List Byte) : List Byte := body.drop (body.length - 256)

/-- The security version of a body. -/
def itemSvn (body : List Byte) : Nat := leAt (trailer body) 144 4

/-- Whether a body of a signed kind is verifiable on a crown (R474). A configuration image of another variant is not valid (R444). -/
def Panel.verifiable (p : Panel) (c : Crown) (kind : Nat) (body : List Byte) : Bool :=
  let t := trailer body
  let pub := (t.drop 16).take 64
  let bind := leAt t 152 8
  decide (256 ≤ body.length) && leAt t 0 4 == 0x53494754 &&
    Config.sm2Verify Config.vendorKey (digestBits (t.take 80)) (keyBits ((t.drop 80).take 64)) &&
    Config.sm2Verify (keyBits pub) (digestBits (body.take (body.length - 256) ++ t.take 192)) (keyBits ((t.drop 192).take 64)) &&
    leAt t 148 1 == kind && (leAt t 5 1).testBit (kind - 1) && (kind == 3 || leAt t 4 1 == 1) &&
    (bind == 0 || bind == p.fuses.serial.toNat) && decide (look 0 p.fuses.floors (8 * c.num + kind) ≤ leAt t 144 4) &&
    (kind != 3 || leAt body 4 1 == p.fuses.variant)

/-! ### Copies (R443) -/

def copyKey (c : Crown) (kind i : Nat) : Nat := 16 * c.num + 2 * kind + i

/-- The valid copies of an item, that of the higher generation first. -/
def Panel.copiesOf (p : Panel) (c : Crown) (kind : Nat) : List (Nat × FlashCopy) :=
  match find p.flash.copies (copyKey c kind 0), find p.flash.copies (copyKey c kind 1) with
  | some x, some y => if x.gen < y.gen then [(1, y), (0, x)] else [(0, x), (1, y)]
  | some x, none => [(0, x)]
  | none, some y => [(1, y)]
  | none, none => []

/-- The copy that a crown uses: of a signed kind, the first that is verifiable. -/
def Panel.chooseCopy (p : Panel) (c : Crown) (kind : Nat) : Option (Nat × FlashCopy) :=
  (p.copiesOf c kind).find? fun x => decide (3 < kind) || p.verifiable c kind x.2.body

/-- The copy in use since the last start, and its contents. -/
def Panel.usedCopy (p : Panel) (c : Crown) (kind : Nat) : Nat := look 0 p.flash.used (8 * c.num + kind)
def Panel.inUse (p : Panel) (c : Crown) (kind : Nat) : Option FlashCopy :=
  find p.flash.copies (copyKey c kind (p.usedCopy c kind))

/-- A crown takes its copies of kinds 1 to 3 into use. -/
def Panel.takeCopies (p : Panel) (c : Crown) : Panel :=
  [1, 2, 3].foldl (fun p kind => match p.chooseCopy c kind with
    | none => p
    | some x => { p with flash := { p.flash with used := put p.flash.used (8 * c.num + kind) x.1 } }) p

/-- A crown finds what it needs of the three signed kinds; of a kind that the flash of the model holds no copy of, the stage's
outcome speaks (notes/assumptions/21.md). -/
def Panel.hasImages (p : Panel) (c : Crown) : Bool :=
  [1, 2, 3].all fun kind => (p.copiesOf c kind).isEmpty || (p.chooseCopy c kind).isSome

/-- A copy committed to the place not in use, with the next generation (R443). -/
def Panel.commitCopy (p : Panel) (c : Crown) (kind : Nat) (body : List Byte) : Panel :=
  let gen := ((p.copiesOf c kind).map fun x => x.2.gen).foldl max 0 + 1
  let i := 1 - p.usedCopy c kind % 2
  { p with flash := { p.flash with copies := put p.flash.copies (copyKey c kind i) { gen := gen % 2 ^ 32, body := body } } }

/-! ### Configuration items (R444) -/

/-- An item from its 16 bytes. -/
def itemAt (b : List Byte) : ConfigItem :=
  { after := leAt b 0 1, flags := leAt b 1 1, dtype := leAt b 2 1, index := leAt b 3 1, offset := leAt b 4 4
    value := BitVec.ofNat 64 (leAt b 8 8) }

/-- The 16 bytes of an item. -/
def itemBytes (i : ConfigItem) : List Byte :=
  leBytes 1 i.after ++ leBytes 1 i.flags ++ leBytes 1 i.dtype ++ leBytes 1 i.index ++ leBytes 4 i.offset ++ leBytes 8 i.value.toNat

/-- The items of a body from an offset on. -/
def itemsAt (b : List Byte) (start n : Nat) : List ConfigItem :=
  (List.range n).map fun i => itemAt ((b.drop (start + 16 * i)).take 16)

/-- The items of an image. -/
def imageItems (body : List Byte) : List ConfigItem := itemsAt body 64 (leAt body 0 4)

/-- The dies that an item names; a name outside the panel gives none. -/
def Panel.itemDies (p : Panel) (i : ConfigItem) : List Die :=
  let site (n : Nat) : List Die := if h : n < 336 then [.core ⟨n, h⟩] else []
  let hub (n : Nat) : List Die := if h : n < 24 then [.hub ⟨n, h⟩] else []
  let port (n : Nat) : List Die := if h : n < 8 then [.port ⟨n, h⟩] else []
  match i.dtype with
  | 1 => site (i.index % 256 + 256 * bits i.flags 2 2)
  | 2 => hub i.index
  | 3 => port i.index
  | 4 => [.crown .north]
  | 5 => [.crown .south]
  | 6 => [.crown .north, .crown .south]
  | 7 => ((List.range 8).filter p.fuses.diePresent).flatMap port
  | 8 => ((List.range 24).filter p.fuses.hubPresent).flatMap hub
  | 9 => p.poweredSites.flatMap site
  | _ => []

/-- An item is laid out as R444 says: names, reserved bits and `after`, which the caller bounds. -/
def itemOk (i : ConfigItem) (lo hi : Nat) : Bool :=
  decide (lo ≤ i.after) && decide (i.after ≤ hi) && decide (i.flags < 8) && decide (i.offset < 0x100000) &&
    decide (1 ≤ i.dtype) && decide (i.dtype ≤ 9) && (i.dtype == 1 || !i.flags.testBit 2) &&
    (match i.dtype with
      | 1 => decide (i.index % 256 + 256 * bits i.flags 2 2 < 336) && decide (i.index < 256)
      | 2 => decide (i.index < 24)
      | 3 => decide (i.index < 8)
      | _ => i.index == 0)

/-! ### The protection set-up (R483) -/

/-- The registers of the protection set-up, in the order of R483: partition map by site, bands by hub, windows, functions, queue
owners, segments, slot limits, device unblocking by port die, and credentials. -/
def Panel.protBytes (p : Panel) : List Byte :=
  let shared (base stride n : Nat) : List Byte := (List.range n).flatMap fun i => leBytes stride (p.sh (base + stride * i))
  let own (base stride n : Nat) : List Byte :=
    (List.range n).flatMap fun i => leBytes stride ((p.crown (p.leader 0)).rd (base + stride * i))
  (List.range 336).flatMap (fun n => leBytes 4 ((p.core n).rd Reg.CORE_PART)) ++ shared Reg.MGMT_PART 8 32 ++
    (List.range 24).flatMap (fun h => (List.range 192).flatMap fun i => leBytes 4 ((p.hub h).rd (Reg.HUB_BAND + 4 * i))) ++
    shared Reg.WIN_ENT 8 1024 ++ own Reg.HOST_FNPART 4 32 ++ own Reg.HOST_QOWN 4 1024 ++ own Reg.HOST_SEG 8 4096 ++
    own Reg.CTX_PLIM 4 32 ++
    (List.range 8).flatMap (fun d => (List.range 128).flatMap fun i => leBytes 4 ((p.port d).rd (Reg.PORT_DEVUNBLK + 4 * i))) ++
    shared Reg.MGMT_CRED 8 256

/-- MGMT_PROT_DIGEST: zero until root firmware runs. -/
def Panel.protDigest (p : Panel) : List Byte := if p.boot.records.isEmpty then List.replicate 32 0 else sm3 p.protBytes

end Sys2Proof.Machine
end

