-- ==== Sys2Proof/Machine/TaskWords.lean ====
section
/-! DEFINITION. The task sequencer's own steps: the start of a task, the task words, and the task fault (R63–R84). -/

namespace Sys2Proof.Machine

open Host (Outcome)

/-! ### Starting a task (R65, R161, R163) -/

/-- Codewords `n` to `n + m − 1` as the task-list copy reads them: number, bytes and failing status. -/
def Core.copyCws (w : At) : Nat → Nat → Core → Sparse (List Byte × Option Nat) × Core
  | _, 0, k => ([], k)
  | n, m + 1, k =>
    if k.reach (32 * n) then
      let r := (k.spad.mem.cw n).read
      let x := Core.copyCws w (n + 1) m (k.noteRead w Own.copy n r.1)
      ((n, (r.2.data, if r.1 = .bad then some St.uncorrectable else none)) :: x.1, x.2)
    else
      let x := Core.copyCws w (n + 1) m k
      ((n, ([], some St.bankAsleep)) :: x.1, x.2)

/-- The task word at an offset, out of copied codewords. -/
def wordFrom (m : Sparse (List Byte × Option Nat)) (off : Nat) : TaskWord :=
  let c := look ([], none) m (off / 32)
  { bits := BitVec.ofNat 128 (leAt c.1 (off % 32) 16), bad := c.2 }

/-- The task list of an entry, copied row by row (R65, R174). -/
def Core.copyList (k : Core) (w : At) (e : StartEntry) : List TaskWord × Core :=
  let first := e.offset / 256
  let last := (e.offset + 16 * (e.length + 1) - 1) / 256
  let x := Core.copyCws w (8 * first) (8 * (last - first + 1)) k
  let refused := ((List.range (last - first + 1)).filter fun i => !k.reach (256 * (first + i))).length
  ((List.range (e.length + 1)).map fun i => wordFrom x.1 (e.offset + 16 * i),
    if refused = 0 then x.2 else x.2.bump Reg.SPAD_ASLEEP_CNT refused)

/-- The slot plan that an entry names: plan 0 when it is not valid, and whether it was missed (R163). -/
def Core.planOf (k : Core) (n : Nat) : W64 × Nat × Nat × Bool :=
  let ctl := k.rd (Reg.SPAD_PLAN_CTL + 4 * n)
  if ctl.testBit 31 then (rfGet k.regs (Reg.SPAD_PLAN + 8 * n), ctl % 16, n, false)
  else (0x76543210, 7, 0, true)

/-- The registers at task start: g1–g8 from the entry, g9–g31 zero (R65). -/
def startG (args : List W64) : Sparse W64 :=
  (List.range 8).foldl (fun m i => putZ m (i + 1) (args.getD i 0)) []

/-- TASK_START at a core that takes its next entry. -/
def Core.startTask (k : Core) (w : At) (e : StartEntry) (rest : List StartEntry) : Core :=
  let (plan, len, num, missed) := k.planOf e.plan
  let k := if missed then k.bump Reg.SPAD_PLAN_MISS_CNT else k
  let x := k.copyList w e
  { x.2 with seq := { x.2.seq with
    state := .run, starts := rest, g := startG e.args
    task := some { entry := e, words := x.1, plan := plan, planLen := len, planNum := num } } }

/-- TASK_START: an idle, woken sequencer without a reshape takes its next start entry. -/
def execTaskStart (n : Site) (s : State) : Outcome State Fault Refusal :=
  s.atCore n fun k p =>
    match k.seq.starts with
    | [] => p
    | e :: rest =>
      if k.seq.state = .idle ∧ ¬ k.seq.gated ∧ k.spad.reshape.isNone then
        p.setCore n (k.startTask (p.at' n) e rest)
      else p

/-- TASK_LIST_COPY_END: the last row has been read; the first task word can issue. -/
def execTaskListCopyEnd (n : Site) (s : State) : Outcome State Fault Refusal :=
  s.onCore n fun k => k.modTask fun t => { t with copying := false }

/-! ### Words that end at once -/

/-- A word performed when it is the one that can issue. -/
def State.word (s : State) (n : Nat) (op : Nat) (f : Task → TaskWord → Core → Core) : Outcome State Fault Refusal :=
  s.onCore n fun k => match k.ready op with
    | none => k
    | some (t, w) => f t w k

/-- NOP. -/
def execNop (n : Site) (s : State) : Outcome State Fault Refusal := s.word n Tw.nop fun t _ k => k.advance t

/-- FENCE: with `remote`, also every remote operation of the task. -/
def execFence (n : Site) (s : State) : Outcome State Fault Refusal :=
  s.word n Tw.fence fun t w k => if w.f 111 111 = 1 ∧ ¬ k.remoteIdle then k else k.advance t

/-- Room in the queue of a unit (R75): 16 for an ME and the RU, 32 for the VE. -/
def Core.queueRoom (k : Core) (unit : Nat) : Bool :=
  if unit < 4 then decide ((k.eng unit).queue.length < 16)
  else if unit = 4 then decide (k.ve.queue.length < 32)
  else decide (k.ru.queue.length < 16)

/-- An operation placed at the end of a unit's queue. -/
def Core.enqueue (k : Core) (unit : Nat) (q : QOp) : Core :=
  if unit < 4 then
    let e := k.eng unit
    k.setEng unit { e with queue := e.queue ++ [q] }
  else if unit = 4 then { k with ve := { k.ve with queue := k.ve.queue ++ [q] } }
  else { k with ru := { k.ru with queue := k.ru.queue ++ [q] } }

/-- DISPATCH: the operation with the values of its base registers (R73). -/
def execDispatch (n : Site) (s : State) : Outcome State Fault Refusal :=
  s.word n Tw.dispatch fun t w k =>
    let unit := w.f 111 109
    if k.queueRoom unit then
      (k.enqueue unit
        { op := BitVec.ofNat 80 (w.f 79 0), a := k.g (w.f 99 95), b := k.g (w.f 94 90), c := k.g (w.f 89 85),
          sig := w.f 108 108 == 1, sem := w.f 107 100, pc := t.pc, opcode := Tw.dispatch }).advance t
    else k

/-- DMA_START: a descriptor offset to a channel's queue of 16. -/
def execDmaStart (n : Site) (s : State) : Outcome State Fault Refusal :=
  s.word n Tw.dmaStart fun t w k =>
    let c := w.f 111 110
    let ch := k.ch c
    if ch.queue.length < 16 then
      (k.setCh c { ch with queue := ch.queue ++
        [{ off := (k.g (w.f 109 105)).toNat % 2 ^ 27 + w.f 104 78, pc := t.pc }] }).advance t
    else k

/-- The word at the head begins to wait in dial time (R78). -/
def Core.waitAt (k : Core) (t : Task) (dial : Nat) : Core :=
  if t.waitFrom.isNone then k.setTask { t with waitFrom := some dial } else k

/-- The timeout of a waiting word has passed (R78). -/
def waitOver (t : Task) (units dial : Nat) : Bool :=
  match t.waitFrom with
  | none => false
  | some t0 => units != 0 && decide (t0 + 256 * units ≤ dial)

/-- A word performed with the panel's dial time at hand. -/
def State.wordAt (s : State) (n : Nat) (op : Nat) (f : Nat → Task → TaskWord → Core → Core) :
    Outcome State Fault Refusal :=
  s.word n op (f s.panel.dial)

/-- SEM_WAIT: issues when the value reaches the threshold; until then the word waits. -/
def execSemWait (n : Site) (s : State) : Outcome State Fault Refusal :=
  s.wordAt n Tw.semWait fun dial t w k =>
    let sem := w.f 111 104
    let th := w.f 97 66
    if th ≤ k.sem sem then
      ((if w.f 103 103 = 1 then k.semOp sem 2 th else k).setG (w.f 102 98) 0).advance t
    else k.waitAt t dial

/-- SEM_WAIT_TIMEOUT: gd receives TIMED_OUT, nothing is consumed (R78). -/
def execSemWaitTimeout (n : Site) (s : State) : Outcome State Fault Refusal :=
  s.wordAt n Tw.semWait fun dial t w k =>
    if ¬ w.f 97 66 ≤ k.sem (w.f 111 104) ∧ waitOver t (w.f 65 42) dial then
      (k.setG (w.f 102 98) (BitVec.ofNat 64 St.timedOut)).advance t
    else k

/-- SEM_READ. -/
def execSemRead (n : Site) (s : State) : Outcome State Fault Refusal :=
  s.word n Tw.semRead fun t w k => (k.setG (w.f 103 99) (BitVec.ofNat 64 (k.sem (w.f 111 104)))).advance t

/-- LDI. -/
def execLdi (n : Site) (s : State) : Outcome State Fault Refusal :=
  s.word n Tw.ldi fun t w k => (k.setG (w.f 111 107) (BitVec.ofNat 64 (w.f 63 0))).advance t

/-- The ALU functions of R72. -/
def aluFn (fn : Nat) (a b : W64) : W64 :=
  match fn with
  | 0x0 => a + b
  | 0x1 => a - b
  | 0x2 => a &&& b
  | 0x3 => a ||| b
  | 0x4 => a ^^^ b
  | 0x5 => a <<< (b.toNat % 64)
  | 0x6 => a >>> (b.toNat % 64)
  | 0x7 => a.sshiftRight (b.toNat % 64)
  | 0x8 => if a.toNat ≤ b.toNat then a else b
  | 0x9 => if a.toNat ≤ b.toNat then b else a
  | _ => a * b

/-- The second operand of an ALU word: gb, or the immediate sign-extended. -/
def Core.aluB (k : Core) (w : TaskWord) : W64 :=
  if w.f 92 92 = 1 then (BitVec.ofNat 32 (w.f 31 0)).signExtend 64 else k.g (w.f 101 97)

/-- ALU. -/
def execAlu (n : Site) (s : State) : Outcome State Fault Refusal :=
  s.word n Tw.alu fun t w k =>
    (k.setG (w.f 111 107) (aluFn (w.f 96 93) (k.g (w.f 106 102)) (k.aluB w))).advance t

/-- LOOP: a count of zero skips the body, else the first iteration begins with index 0 (R74). A skipped body counts as its
last word reached for the loops that enclose it (notes/assumptions/13.md). -/
def execLoop (n : Site) (s : State) : Outcome State Fault Refusal :=
  s.word n Tw.loop fun t w k =>
    let body := w.f 104 95
    let count := k.loopCount w
    if count = 0 then k.advance { t with pc := t.pc + body }
    else
      let l : LoopRec := { first := t.pc + 1, last := t.pc + body, count := count, index := 0, gi := w.f 62 58 }
      (k.setTask { t with loops := l :: t.loops, pc := t.pc + 1, waitFrom := none }).setG (w.f 62 58) 0

/-- The conditions of BR. -/
def brCond (cond : Nat) (a b : W64) : Bool :=
  match cond with
  | 0 => true
  | 1 => a == b
  | 2 => a != b
  | 3 => decide (a.toNat < b.toNat)
  | 4 => decide (b.toNat ≤ a.toNat)
  | 5 => decide (a.toInt < b.toInt)
  | _ => decide (b.toInt ≤ a.toInt)

/-- BR: a taken branch ends every loop whose body does not hold its target (R74). -/
def execBr (n : Site) (s : State) : Outcome State Fault Refusal :=
  s.word n Tw.br fun t w k =>
    let target := w.f 98 89
    if brCond (w.f 101 99) (k.g (w.f 111 107)) (k.g (w.f 106 102)) then
      k.setTask { t with
        pc := target, waitFrom := none
        loops := t.loops.dropWhile fun l => decide (target < l.first) || decide (l.last < target) }
    else k.advance t

/-! ### Messages -/

/-- What RECV writes to gd (R78). -/
def recvHead (m : InboxMsg) : Nat :=
  St.done + m.payload.length % 256 * 2 ^ 8 + m.tag % 65536 * 2 ^ 16 + m.sx % 32 * 2 ^ 32 + m.sy % 16 * 2 ^ 37 +
    m.kind % 4 * 2 ^ 41

/-- RECV: the oldest message into the registers, gd last (R81); until there is one, the word waits. -/
def execRecv (n : Site) (s : State) : Outcome State Fault Refusal :=
  s.wordAt n Tw.recv fun dial t w k =>
    match k.seq.inbox with
    | [] => k.waitAt t dial
    | m :: ms =>
      let first := w.f 111 107
      let k := { k with seq := { k.seq with inbox := ms } }
      let k := (List.range (w.f 106 103)).foldl
        (fun k i => Core.setG k (first + i) (BitVec.ofNat 64 (leAt m.payload (8 * i) 8))) k
      (k.setG (w.f 102 98) (BitVec.ofNat 64 (recvHead m))).advance t

/-- RECV_TIMEOUT (R78). -/
def execRecvTimeout (n : Site) (s : State) : Outcome State Fault Refusal :=
  s.wordAt n Tw.recv fun dial t w k =>
    if k.seq.inbox.isEmpty ∧ waitOver t (w.f 97 74) dial then
      (k.setG (w.f 102 98) (BitVec.ofNat 64 St.timedOut)).advance t
    else k

/-- The end of a remote operation with a status (R82). -/
def Core.remoteEnd (k : Core) (own : Bool) (st : Nat) : Core :=
  let k := if st = St.done then k
    else ({ k with seq := { k.seq with lastRemote := st } } : Core).bump Reg.SEQ_REMOTE_ERR_CNT
  if own then k.noteStatus st else k

/-- A remote operation of a word: injected under a fresh sequence number, answered locally when its source refuses it, or
held until the router and the 64 entries take it (R68, R82, R184). -/
def Panel.sendRemote (p : Panel) (n : Nat) (t : Task) (h : Header) (units : List Codeword) : Panel :=
  let k := p.core n
  if k.seq.remote.length ≥ 64 then p
  else
    let seq := k.freshSeq
    match p.inject (.core n) { h with seq := seq } units with
    | (.stall, _) => p
    | (.refused st, p) => p.modCore n fun k => (k.remoteEnd true st).advance ((k.remoteEnd true st).seq.task.getD t)
    | (.sent _, p) => p.modCore n fun k =>
      ({ k with seq := { k.seq with remote := k.seq.remote ++ [{ seq := seq }] } } : Core).advance t

/-- SEM_SIGNAL: local, or one packet to the register of the semaphore at another core (R72, R180). -/
def execSemSignal (n : Site) (s : State) : Outcome State Fault Refusal :=
  s.atCore n fun k p => match k.ready Tw.semSignal with
    | none => p
    | some (t, w) =>
      let sem := w.f 111 104
      let v := (w.f 86 55 + (k.g (w.f 100 96)).toNat) % 2 ^ 32
      if w.f 101 101 = 0 then p.setCore n ((k.semOp sem (w.f 103 102) v).advance t)
      else p.sendRemote n t
        { opcode := Opc.semSignal, ga := gaCoreReg (w.f 95 91) (w.f 90 87) (Reg.SEQ_SEM + 4 * sem),
          rtype := w.f 103 102, sval := v } []

/-- The bytes of `count` registers from `first` on. -/
def Core.gBytes (k : Core) (first count : Nat) : List Byte :=
  (List.range count).flatMap fun i => leBytes 8 (k.g (first + i)).toNat

/-- POST: up to eight registers as one MSG (R80). -/
def execPost (n : Site) (s : State) : Outcome State Fault Refusal :=
  s.atCore n fun k p => match k.ready Tw.post with
    | none => p
    | some (t, w) =>
      let kind := w.f 111 110
      let bs := k.gBytes (w.f 100 96) (w.f 95 92)
      p.sendRemote n t
        { opcode := Opc.msg, ga := msgGA kind (w.f 109 105) (w.f 104 101), bytes := bs.length,
          len := cdiv bs.length 32, mtag := w.f 91 76, mkind := if kind = 0 then 0 else 2 } (unitsOf 0 bs)

/-! ### Task end and task fault (R83, R84) -/

/-- END: waits for all accepted work and the remote operations, applies its sig, sends the report, and ends the task. -/
def execEndWord (n : Site) (s : State) : Outcome State Fault Refusal :=
  s.atCore n fun k p => match k.ready 0x01 with
    | none => p
    | some (t, w) =>
      if k.allIdle ∧ k.remoteIdle then
        let (cyc, p) := let x := p.draw; (x.1.toNat, x.2)
        let k := if w.f 111 111 = 1 then k.semOp (w.f 110 103) 0 1 else k
        let q := p.setCore n k
        let r := if t.entry.report then q.sendReport n t.entry (t.status.getD St.done) cyc else some q
        match r with
        | none => p
        | some q => q.modCore n fun k => k.endTask q.dial cyc
      else p

/-- What the running task faults with: cause, opcode, status and word (R84). -/
def Core.faultNow (k : Core) (t : Task) : Option (Nat × Nat × Nat × Nat) :=
  match t.unitFault with
  | some f => some (0x9, f.opcode, f.status, f.pc)
  | none => match k.wordFault t with
    | none => none
    | some (cause, st) =>
      let w := t.head.getD {}
      if k.fenceOk w.fmask then some (cause, w.op, st, t.pc) else none

/-- TASK_FAULT: accepted work has completed; SEQ_FAULT, the report whatever its bit says, and the next start entry. -/
def execTaskFault (n : Site) (s : State) : Outcome State Fault Refusal :=
  s.atCore n fun k p => match k.seq.state, k.seq.task with
    | .run, some t =>
      if t.copying ∨ ¬ k.allIdle then p
      else match k.faultNow t with
        | none => p
        | some (cause, opc, st, pc) =>
          let (cyc, p) := let x := p.draw; (x.1.toNat, x.2)
          match p.sendReport n t.entry (t.status.getD st) cyc with
          | none => p
          | some q => q.modCore n fun k => (k.recordFault cause opc st pc).endTask q.dial cyc
    | _, _ => p

/-- SEQ_FAULT_CLR: a write by the management ring; bit 0 clears SEQ_FAULT (R87). -/
def Core.seqFaultClr (k : Core) (value : W64) : Core := if value.getLsbD 0 then k.wr Reg.SEQ_FAULT 0 else k

end Sys2Proof.Machine
end

