-- ==== Sys2Proof/Machine/ElementOps.lean ====
section
/-! DEFINITION. Element programs (R125–R131, R139): the check of an instruction, and its effect on one element. -/

namespace Sys2Proof.Machine

/-! ### Instructions -/

/-- An instruction of R127. -/
structure EInstr where
  opc : Nat
  d : Nat
  a : Nat
  b : Nat
  msel : Nat
  mod : Nat
  deriving DecidableEq, Repr

def einstr (w : W32) : EInstr :=
  { opc := fld w 31 25, d := fld w 24 20, a := fld w 19 15, b := fld w 14 10, msel := fld w 9 7, mod := fld w 6 0 }

/-- How an opcode uses its fields (R130, R131). -/
inductive EShape
  | none          -- NOP
  | two           -- d, a and b are values
  | one           -- d and a are values
  | compare       -- d is a mask, a and b are values, mod selects 0–6
  | bitTest       -- d is a mask, a and b are values
  | toInt         -- d and a are values, mod selects 0–3
  | masks         -- d, a and b are masks
  | maskNot       -- d and a are masks
  | maskValue     -- d is a value, a a mask
  | reserved
  deriving DecidableEq, Repr

def eshape (opc : Nat) : EShape :=
  if opc = 0x00 then .none
  else if (0x01 ≤ opc ∧ opc ≤ 0x06) ∨ opc = 0x09 ∨ (0x10 ≤ opc ∧ opc ≤ 0x1A) then .two
  else if opc = 0x07 ∨ opc = 0x08 ∨ opc = 0x20 ∨ opc = 0x30 ∨ (0x40 ≤ opc ∧ opc ≤ 0x46) then .one
  else if opc = 0x0A ∨ opc = 0x1B then .compare
  else if opc = 0x1C then .bitTest
  else if opc = 0x21 then .toInt
  else if 0x28 ≤ opc ∧ opc ≤ 0x2A then .masks
  else if opc = 0x2B then .maskNot
  else if opc = 0x2C then .maskValue
  else .reserved

/-- An opcode that a BF16-mode program may not hold. -/
def fp32Only (opc : Nat) : Bool := decide (0x10 ≤ opc ∧ opc ≤ 0x1C) || opc == 0x20 || opc == 0x21 || opc == 0x2C

/-- Cycles per beat (R130). -/
def ecost (opc : Nat) : Nat := if 0x44 ≤ opc ∧ opc ≤ 0x46 then 2 else 1

/-- The check of R131. -/
def EInstr.ok (i : EInstr) : Bool :=
  let dv := decide (i.d < 18)
  let dm := decide (i.d < 8)
  match eshape i.opc with
  | .none => i.d == 0 && i.a == 0 && i.b == 0 && i.mod == 0
  | .two => dv && (i.mod == 0 || i.a == 23 || i.b == 23)
  | .one => dv && i.b == 0 && (i.mod == 0 || i.a == 23)
  | .compare => dm && i.a != 23 && i.b != 23 && decide (i.mod < 7)
  | .bitTest => dm && (i.mod == 0 || i.a == 23 || i.b == 23)
  | .toInt => dv && i.b == 0 && i.a != 23 && decide (i.mod < 4)
  | .masks => dm && decide (i.a < 8) && decide (i.b < 8) && i.mod == 0
  | .maskNot => dm && decide (i.a < 8) && i.b == 0 && i.mod == 0
  | .maskValue => dv && decide (i.a < 8) && i.b == 0 && i.mod == 0
  | .reserved => false

/-- Operand codes that an instruction reads as values. -/
def EInstr.sources (i : EInstr) : List Nat :=
  match eshape i.opc with
  | .two => [i.a, i.b]
  | .one => [i.a]
  | .compare => [i.a, i.b]
  | .bitTest => [i.a, i.b]
  | .toInt => [i.a]
  | _ => []

/-- The operand code that an instruction writes as a value. -/
def EInstr.dest (i : EInstr) : Option Nat :=
  match eshape i.opc with
  | .two => some i.d
  | .one => some i.d
  | .toInt => some i.d
  | .maskValue => some i.d
  | _ => none

/-! ### One element -/

/-- What the current element reads. -/
structure Elt where
  bf : Bool
  ins : List Nat
  rb : Nat
  cb : Nat
  rix : Nat
  cix : Nat
  ks : List Nat
  deriving DecidableEq, Repr

/-- The lane of the current element (R125). -/
structure Lane where
  t : List Nat
  m : Nat
  o0 : Option Nat := none
  o1 : Option Nat := none
  counts : List Count := []
  deriving DecidableEq, Repr

/-- The lane at the start of an element. -/
def Lane.start (m1 : Nat) : Lane := { t := List.replicate 16 0, m := 1 + 2 * m1 }

def eltFmt (bf : Bool) : FFmt := if bf then bf16 else fp32

/-- The short immediate (R127). -/
def shortImm (bf int : Bool) (mod : Nat) : Nat :=
  let v : Int := if mod < 64 then mod else (mod : Int) - 128
  if int then (BitVec.ofInt 32 v).toNat else (eltFmt bf).round (FVal.ofInt v)

/-- A source operand (R128). -/
def Elt.src (e : Elt) (l : Lane) (int : Bool) (mod c : Nat) : Nat :=
  if c < 16 then l.t.getD c 0
  else if c < 19 then e.ins.getD (c - 16) 0
  else if c = 19 then e.rb
  else if c = 20 then e.cb
  else if c = 21 then e.rix
  else if c = 22 then e.cix
  else if c = 23 then shortImm e.bf int mod
  else e.ks.getD (c - 24) 0

/-- A destination operand. -/
def Lane.write (l : Lane) (d v : Nat) : Lane :=
  if d < 16 then { l with t := l.t.set d v } else if d = 16 then { l with o0 := some v } else { l with o1 := some v }

/-- A mask written; m0 ignores writes. -/
def Lane.writeMask (l : Lane) (d : Nat) (v : Bool) : Lane :=
  if d = 0 then l else { l with m := (l.m &&& ((2 ^ 8 - 1) ^^^ 2 ^ d)) ||| (b2n v * 2 ^ d) }

/-- The addend of FMA: the temporary, or what was last written to the output stream. -/
def Lane.addend (l : Lane) (d : Nat) : Nat :=
  if d < 16 then l.t.getD d 0 else if d = 16 then l.o0.getD 0 else l.o1.getD 0

/-- FCMP (R130). -/
def fcmp (f : FFmt) (mod a b : Nat) : Bool :=
  let x := f.decode a
  let y := f.decode b
  let un := x.isNan || y.isNan
  let lt := x.lt y
  let gt := y.lt x
  match mod with
  | 0 => !un && !lt && !gt
  | 1 => un || lt || gt
  | 2 => !un && lt
  | 3 => !un && !gt
  | 4 => !un && gt
  | 5 => !un && !lt
  | _ => un

/-- ICMP (R130). -/
def icmp (mod a b : Nat) : Bool :=
  let x := int32 a
  let y := int32 b
  match mod with
  | 0 => decide (x = y)
  | 1 => decide (x ≠ y)
  | 2 => decide (x < y)
  | 3 => decide (x ≤ y)
  | 4 => decide (x > y)
  | 5 => decide (x ≥ y)
  | _ => decide (a < b)

/-- The two-source value opcodes but FMA and FSEL. -/
def eltTwo (f : FFmt) (opc a b : Nat) : Nat :=
  let x := f.decode a
  let y := f.decode b
  match opc with
  | 0x01 => f.round (x.add y)
  | 0x02 => f.round (x.add y.neg)
  | 0x03 => f.round (x.mul y)
  | 0x05 => f.max a b
  | 0x06 => f.min a b
  | 0x10 => (a + b) % 2 ^ 32
  | 0x11 => (2 ^ 32 + a - b) % 2 ^ 32
  | 0x12 => a * b % 2 ^ 32
  | 0x13 => imax a b
  | 0x14 => imin a b
  | 0x15 => a &&& b
  | 0x16 => a ||| b
  | 0x17 => a ^^^ b
  | 0x18 => (a <<< (b % 32)) % 2 ^ 32
  | 0x19 => a >>> (b % 32)
  | _ => ((BitVec.ofNat 32 a).sshiftRight (b % 32)).toNat

/-- A transcendental opcode in either mode (R140). -/
def eltTrans (bf : Bool) (opc a : Nat) : Nat :=
  if bf then bf16.round (fp32.decode (transcend opc (widenBf16 a))) else transcend opc a

/-- The one-source value opcodes (R130). NaN results are canonical (R90). -/
def eltOne (bf : Bool) (opc a : Nat) : Nat :=
  let f := eltFmt bf
  match opc with
  | 0x07 => if (f.decode a).isNan then f.qnan else a % 2 ^ (f.eb + f.mb)
  | 0x08 => if (f.decode a).isNan then f.qnan else a ^^^ 2 ^ (f.eb + f.mb)
  | 0x20 => fp32.round (FVal.ofInt (int32 a))
  | 0x30 => a
  | _ => eltTrans bf opc a

/-- The rounding of CVTFI. -/
def toIntMode (mod : Nat) : RMode :=
  match mod with
  | 0 => .nearest
  | 1 => .zero
  | 2 => .floor
  | _ => .ceil

/-- The integer opcodes, which take the short immediate as INT32. -/
def intImm (opc : Nat) : Bool := decide (0x10 ≤ opc ∧ opc ≤ 0x1C) || opc == 0x20

/-- One instruction on the current element (R129, R130). -/
def EInstr.run (i : EInstr) (e : Elt) (l : Lane) : Lane :=
  let on := l.m.testBit i.msel
  let a := e.src l (intImm i.opc) i.mod i.a
  let b := e.src l (intImm i.opc) i.mod i.b
  let f := eltFmt e.bf
  if i.opc = 0x09 then l.write i.d (if on then a else b)
  else if ¬ on then l
  else match eshape i.opc with
    | .none => l
    | .two =>
      if i.opc = 0x04 then
        l.write i.d (f.round (((f.decode a).mul (f.decode b)).add (f.decode (l.addend i.d))))
      else l.write i.d (eltTwo f i.opc a b)
    | .one => l.write i.d (eltOne e.bf i.opc a)
    | .compare => l.writeMask i.d (if i.opc = 0x0A then fcmp f i.mod a b else icmp i.mod a b)
    | .bitTest => l.writeMask i.d (a.testBit (b % 32))
    | .toInt =>
      let x := convertInt 32 (toIntMode i.mod) (fp32.decode a)
      { l.write i.d x.1 with counts := x.2 :: l.counts }
    | .masks =>
      let x := l.m.testBit i.a
      let y := l.m.testBit i.b
      l.writeMask i.d (if i.opc = 0x28 then x && y else if i.opc = 0x29 then x || y else x != y)
    | .maskNot => l.writeMask i.d (!l.m.testBit i.a)
    | .maskValue => l.write i.d (b2n (l.m.testBit i.a))
    | .reserved => l

/-- A program on one element. -/
def runElement (prog : List EInstr) (e : Elt) (m1 : Nat) : Lane := prog.foldl (fun l i => i.run e l) (Lane.start m1)

end Sys2Proof.Machine
end

