-- ==== Sys2Proof/Machine/EmapOps.lean ====
section
/-! DEFINITION. EMAP: the map descriptor, its checks, and the run over a tile (R133–R138, R142, R151). -/

namespace Sys2Proof.Machine

/-! ### The map descriptor (R133) -/

/-- An input or output stream. -/
structure EStream where
  en : Bool
  fmt : Nat
  reg : Bool
  stride : Nat
  off : Nat
  rnd : Nat
  inf : Bool
  aow : Nat
  deriving DecidableEq, Repr

structure MapDesc where
  words : List Nat
  deriving DecidableEq, Repr

def MapDesc.f (d : MapDesc) (i hi lo : Nat) : Nat := bits (d.words.getD i 0) hi lo
def MapDesc.rows (d : MapDesc) : Nat := d.f 0 63 52 + 1
def MapDesc.cols (d : MapDesc) : Nat := d.f 0 51 39 + 1
def MapDesc.bf (d : MapDesc) : Bool := d.f 0 38 38 == 1
def MapDesc.rbEn (d : MapDesc) : Bool := d.f 0 37 37 == 1
def MapDesc.rbv (d : MapDesc) : Nat := d.f 0 36 33
def MapDesc.cbEn (d : MapDesc) : Bool := d.f 0 32 32 == 1
def MapDesc.cbv (d : MapDesc) : Nat := d.f 0 31 28
def MapDesc.kEn (d : MapDesc) : Bool := d.f 0 27 27 == 1
def MapDesc.kv (d : MapDesc) : Nat := d.f 0 26 23
def MapDesc.seed (d : MapDesc) : W64 := BitVec.ofNat 64 (d.words.getD 6 0)

/-- Stream word i: 1–3 inputs, 4 and 5 outputs. -/
def MapDesc.stream (d : MapDesc) (i : Nat) : EStream :=
  { en := d.f i 63 63 == 1, fmt := d.f i 62 60, reg := d.f i 59 59 == 1, stride := d.f i 58 43, off := d.f i 26 0,
    rnd := if i < 4 then 0 else d.f i 42 41, inf := i ≥ 4 && d.f i 40 40 == 1, aow := if i < 4 then 0 else d.f i 39 38 }

def MapDesc.ins (d : MapDesc) : List EStream := [d.stream 1, d.stream 2, d.stream 3]
def MapDesc.outs (d : MapDesc) : List EStream := [d.stream 4, d.stream 5]

def EStream.elem (s : EStream) : Elem :=
  match s.fmt with
  | 0 => .f32
  | 1 => .b16
  | 2 => .i32
  | 3 => .e4
  | 4 => .e5
  | 5 => .i8
  | _ => .bit

/-- Where a stream begins: its base register's offset is added in the scratchpad. -/
def EStream.base (s : EStream) (b : Nat) : Nat := if s.reg then s.off else b + s.off

def EStream.len (s : EStream) (cols : Nat) : Nat := s.elem.rowBytes cols

/-- The whole extent of a stream: start and length (R137). -/
def EStream.extent (s : EStream) (b rows cols : Nat) : Nat × Nat :=
  (s.base b, 32 * s.stride * (rows - 1) + s.len cols)

def overlap (x y : Nat × Nat) : Bool := decide (x.1 < y.1 + y.2) && decide (y.1 < x.1 + x.2)

/-- Register-file ranges that an EMAP reads and writes (R134, R137). -/
def MapDesc.regReads (d : MapDesc) : List (Nat × Nat) :=
  (d.ins.filter fun s => s.en && s.reg).map (fun s => s.extent 0 d.rows d.cols) ++
    (if d.rbEn then [(4096 * d.rbv, 4 * d.cols)] else []) ++ (if d.cbEn then [(4096 * d.cbv, 4 * d.rows)] else []) ++
    (if d.kEn then [(4096 * d.kv, 32)] else [])
def MapDesc.regWrites (d : MapDesc) : List (Nat × Nat) :=
  (d.outs.filter fun s => s.en && s.reg).map fun s => s.extent 0 d.rows d.cols
def MapDesc.ranges (d : MapDesc) : List (Nat × Nat × Bool) :=
  d.regReads.map (fun x => (x.1, x.2, false)) ++ d.regWrites.map (fun x => (x.1, x.2, true))

/-! ### Checks (R138, R151) -/

/-- An accumulate-on-write setting that R114 does not allow. -/
def EStream.aowBad (s : EStream) : Bool :=
  s.aow != 0 && (s.reg || !((s.aow == 1 && (s.fmt == 0 || s.fmt == 1 || s.fmt == 2)) || (s.aow == 2 && s.fmt == 0)))

/-- The accumulate type of an output stream (R166); 0 for a plain write. -/
def EStream.accType (s : EStream) : Nat :=
  if s.aow = 0 then 0 else if s.aow = 2 then 4 else if s.fmt = 0 then 1 else if s.fmt = 1 then 2 else 3

/-- The checks made when an EMAP starts: of the op field and of the program slot. -/
def QOp.emapStartFault (q : QOp) (valid : Bool) : Option Nat :=
  firstCause
    [(0x1, decide (q.kind ≥ 4)), (0x2, !valid), (0x4, baseBad q.a || baseBad q.b || baseBad q.c || baseOff q.a % 64 != 0),
     (0x5, decide (baseOff q.a + 64 > spadTop)), (0x7, q.unnamed [(79, 71)])]

/-- The checks that need the descriptor. -/
def MapDesc.fault (d : MapDesc) (q : QOp) (prog : List EInstr) : Option Nat :=
  let b := baseOff q.b
  let c := baseOff q.c
  let tap := q.f 71 71 == 1
  let ins := (d.ins.map fun s => (s, b)).filter (·.1.en)
  let outs := (d.outs.map fun s => (s, c)).filter (·.1.en)
  let all := ins ++ outs
  let srcs := prog.flatMap EInstr.sources
  let dsts := prog.filterMap EInstr.dest
  let reads (n : Nat) : Bool := srcs.any (· == n)
  let en (i : Nat) : Bool := (d.stream i).en
  firstCause
    [(0x1, all.any (fun x => x.1.fmt == 7) || outs.any (fun x => x.1.rnd == 3 || x.1.aow == 3)),
     (0x2, (reads 16 && !en 1) || (reads 17 && !en 2) || (reads 18 && !en 3) || (reads 19 && !d.rbEn) ||
        (reads 20 && !d.cbEn) || (srcs.any (fun n => decide (24 ≤ n)) && !d.kEn) ||
        (dsts.any (· == 16) && !(en 4 || tap)) || (dsts.any (· == 17) && !en 5)),
     (0x3, (d.bf && (prog.any (fun i => fp32Only i.opc) || reads 21 || reads 22 || all.any (fun x => x.1.elem.isInt))) ||
        decide ((ins.filter fun x => x.1.elem == .bit).length > 1)),
     (0x4, all.any (fun x => x.1.base x.2 % 32 != 0)),
     (0x5, all.any (fun x =>
          let e := x.1.extent x.2 d.rows d.cols
          if x.1.reg then decide (e.1 + e.2 > 65536) || decide (x.1.off ≥ 65536) else decide (e.1 + e.2 > spadTop)) ||
        d.regReads.any (fun x => decide (x.1 + x.2 > 65536)) ||
        d.regWrites.any (fun x => d.regReads.any (overlap x))),
     (0x6, all.any (fun x => x.1.stride == 0 || decide (32 * x.1.stride < 32 * cdiv (x.1.len d.cols) 32)) ||
        outs.any (fun x => x.1.aowBad)),
     (0x7, d.f 0 22 0 != 0 || d.f 1 42 27 != 0 || d.f 2 42 27 != 0 || d.f 3 42 27 != 0 || d.f 4 37 27 != 0 ||
        d.f 5 37 27 != 0 || d.words.getD 7 0 != 0)]

/-! ### Elements (R135, R136) -/

/-- An input element as the program sees it. -/
def deliver (bf : Bool) (e : Elem) (raw : Nat) : Nat :=
  let f := eltFmt bf
  match e with
  | .f32 => if bf then f.round (fp32.decode raw) else raw
  | .b16 => if bf then raw else f.round (bf16.decode raw)
  | .f16 => f.round (fp16.decode raw)
  | .e4 => f.round (e4m3.decode raw)
  | .e5 => f.round (e5m2.decode raw)
  | .i8 => (BitVec.signExtend 32 (BitVec.ofNat 8 raw)).toNat
  | .i32 => raw
  | .bit => raw

/-- INT32 saturated to INT8. -/
def satI8 (v : Nat) : Nat × Count :=
  let x := int32 v
  if x > 127 then (0x7F, .sat) else if x < -128 then (0x80, .sat) else (v % 256, .none)

/-- An output element as it is written. -/
def convertOut (bf : Bool) (e : Elem) (mode : RMode) (inf : Bool) (v : Nat) : Nat × Count :=
  let x := (eltFmt bf).decode v
  match e with
  | .f32 => if bf then fp32.convert mode inf x else (v, .none)
  | .b16 => if bf then (v, .none) else bf16.convert mode inf x
  | .e4 => e4m3.convert mode inf x
  | .e5 => e5m2.convert mode inf x
  | .i8 => satI8 v
  | _ => (v, .none)

/-! ### The run -/

/-- Register-file bytes as rows of 256. -/
def regFetch (m : List Host.Cell) (rows : List Nat) : Fetch := rows.map fun r => (r, cellsAt m (256 * r) 256)

/-- A source that the run reads: the element format, where a row begins, and the bytes. -/
structure Src where
  s : EStream
  base : Nat
  f : Fetch
  deriving DecidableEq, Repr

def Src.at (x : Src) (bf : Bool) (r c : Nat) : Nat :=
  if x.s.en then deliver bf x.s.elem (x.s.elem.at x.f (x.base + 32 * x.s.stride * r) c) else 0

/-- A 32-bit word of the register file, rounded to BF16 in BF16 mode (R134). -/
def regWord (m : List Host.Cell) (bf : Bool) (off : Nat) : Nat :=
  let w := leNat (cellsAt m off 4)
  if bf then bf16.round (fp32.decode w) else w

/-- The current element of a run. -/
def MapDesc.elt (d : MapDesc) (m : List Host.Cell) (srcs : List Src) (r c : Nat) : Elt :=
  { bf := d.bf
    ins := srcs.map fun x => x.at d.bf r c
    rb := if d.rbEn then regWord m d.bf (4096 * d.rbv + 4 * c) else 0
    cb := if d.cbEn then regWord m d.bf (4096 * d.cbv + 4 * r) else 0
    rix := r, cix := c
    ks := (List.range 8).map fun j => if d.kEn then regWord m d.bf (4096 * d.kv + 4 * j) else 0 }

/-- m1 at the start of an element: the bit of the BIT input, or 0. -/
def bitIn (srcs : List Src) (e : Elt) : Nat :=
  ((srcs.zip e.ins).filter fun x => x.1.s.en && x.1.s.elem == .bit).foldl (fun _ x => x.2) 0

/-- The lanes of one row. -/
def MapDesc.lanes (d : MapDesc) (m : List Host.Cell) (srcs : List Src) (prog : List EInstr) (r : Nat) : List Lane :=
  (List.range d.cols).map fun c =>
    let e := d.elt m srcs r c
    runElement prog e (bitIn srcs e)

/-- Bits packed into bytes, bit c in byte c div 8. -/
def packBits (n : Nat) (l : List Bool) : List Byte :=
  (List.range n).map fun i => BitVec.ofNat 8 (((l.drop (8 * i)).take 8).foldr (fun b acc => b2n b + 2 * acc) 0)

/-- One output row: its bytes from the row's base on, and the counts of its conversions. -/
def MapDesc.outRow (d : MapDesc) (s : EStream) (base : Nat) (poison : Bool) (vals : List (Option Nat)) :
    List MByte × List Count :=
  let e := s.elem
  if e = .bit then (enabled (packBits (s.len d.cols) (vals.map fun v => (v.getD 0) != 0)) poison, [])
  else
    let n := e.bitsOf / 8
    let xs := vals.zipIdx.map fun x => match x.1 with
      | none => (List.replicate n none, Count.none)
      | some v =>
        let y := convertOut d.bf e (rmode s.rnd d.seed (base + n * x.2)) s.inf v
        (enabled (leBytes n y.1) poison, y.2)
    (xs.flatMap (·.1), xs.map (·.2))

/-- Bytes written to the register file; free values when the operation read bad data. -/
def writeRegs (m : List Host.Cell) (fresh : Option Nat) : Nat → List MByte → List Host.Cell
  | _, [] => m
  | off, b :: bs =>
    let m := match b with
      | none => m
      | some x => setCell m off (match fresh with
        | none => x.1
        | some base => BitVec.ofNat 8 (fv base (off % 65536)))
    writeRegs m fresh (off + 1) bs

/-- The output rows of one stream written. -/
def Core.emapOut (k : Core) (w : At) (s : EStream) (base : Nat) (fresh : Option Nat) (rows : List (List MByte)) :
    Nat × Core :=
  let pieces := rows.zipIdx.map fun x => (base + 32 * s.stride * x.2, x.1)
  if s.reg then
    (St.done, { k with ve := { k.ve with vregs := pieces.foldl (fun m x => writeRegs m fresh x.1 x.2) k.ve.vregs } })
  else k.storePieces w Own.ve s.accType pieces

/-- The scratchpad rows of a stream; none for a stream in the register file. -/
def MapDesc.streamRows (d : MapDesc) (s : EStream) (b : Nat) : List Nat :=
  if s.en && !s.reg then rowsOf (tileRanges (s.base b) s.stride (s.len d.cols) d.rows) else []
/-- The rows an EMAP reads: its descriptor's and its inputs' (R142, R533). -/
def MapDesc.readRows (d : MapDesc) (q : QOp) : List Nat :=
  baseOff q.a / 256 :: (d.ins.flatMap fun s => d.streamRows s (baseOff q.b))
/-- The rows an EMAP writes. -/
def MapDesc.writeRows (d : MapDesc) (q : QOp) : List Nat := d.outs.flatMap fun s => d.streamRows s (baseOff q.c)

/-- The rows that an EMAP touches in the scratchpad, as R142 counts them. -/
def MapDesc.touched (d : MapDesc) (q : QOp) : List Nat :=
  d.readRows q ++ (d.outs.flatMap fun s => let l := d.streamRows s (baseOff q.c); if s.aow = 0 then l else l ++ l)

/-- The cycle count of an EMAP by its fields (R142). -/
def Core.emapCycles (k : Core) (d : MapDesc) (q : QOp) (prog : List EInstr) (ruPace : Nat) : Nat :=
  let b := d.rows * cdiv d.cols (if d.bf then 512 else 256)
  let p := (prog.map fun i => ecost i.opc).sum
  12 + Nat.max (Nat.max (b * p) (k.fetchCyc Own.ve (d.touched q).length)) ruPace

/-- The scratchpad inputs fetched, and the sources of the run. -/
def Core.emapSources (w : At) (d : MapDesc) (b : Nat) : List EStream → Core → List Src × Nat × Core
  | [], k => ([], St.done, k)
  | s :: ss, k =>
    let base := s.base b
    let rows := rowsOf (tileRanges base s.stride (s.len d.cols) d.rows)
    let x := if ¬ s.en then ([], St.done, k)
      else if s.reg then (regFetch k.ve.vregs rows, St.done, k)
      else Core.fetch w Own.ve rows k
    let y := Core.emapSources w d b ss x.2.2
    ({ s := s, base := base, f := x.1 } :: y.1, St.merge x.2.1 y.2.1, y.2.2)

/-- The run of an EMAP from its first read after the descriptor to its last write: status, the o0 values, and the core. -/
def Core.emapRun (k : Core) (w : At) (base : Nat) (d : MapDesc) (q : QOp) (prog : List EInstr) :
    Nat × List (List (Option Nat)) × Core :=
  let x := Core.emapSources w d (baseOff q.b) d.ins k
  let st := x.2.1
  let k := x.2.2
  let lanes := (List.range d.rows).map (d.lanes k.ve.vregs x.1 prog)
  let fresh := if isBad st then some base else none
  let out (i : Nat) (get : Lane → Option Nat) : List (List MByte × List Count) :=
    let s := d.stream i
    if s.en then lanes.zipIdx.map fun l =>
      d.outRow s (s.base (baseOff q.c) + 32 * s.stride * l.2) (isBad st) (l.1.map get)
    else []
  let o0 := out 4 (·.o0)
  let o1 := out 5 (·.o1)
  let k := k.addCounts Reg.VE_SAT_CNT Reg.VE_NAN_CNT
    (lanes.flatMap (fun l => l.flatMap (·.counts)) ++ (o0 ++ o1).flatMap (·.2))
  let y := k.emapOut w (d.stream 4) ((d.stream 4).base (baseOff q.c)) fresh (o0.map (·.1))
  let z := y.2.emapOut w (d.stream 5) ((d.stream 5).base (baseOff q.c)) fresh (o1.map (·.1))
  (St.merge st (St.merge y.1 z.1), lanes.map (fun l => l.map (·.o0)), z.2)

end Sys2Proof.Machine
end

