-- ==== Sys2Proof/Machine/Reduction.lean ====
section
/-! DEFINITION. The reduction unit's commands (R143–R149, R151, R164). -/

namespace Sys2Proof.Machine

open Host (Outcome)

/-- The head operation of an idle RU with its source in the scratchpad: it completes at once without a slot or when it fails
its check, else it runs (R149, R151, R164). `kinds` are the kinds that the command starts. -/
def Core.ruStart (k : Core) (w : At) (base : Nat) (kinds : Nat → Bool) : Core :=
  match k.ru.queue with
  | [] => k
  | q :: rest =>
    if k.ru.run.isSome ∨ q.ru.tap ∨ ¬ kinds q.kind then k
    else
      let k := { k with ru := { k.ru with queue := rest } }
      if k.noSlot Own.ru then k.opNoSlot Reg.RU_OP_CNT Reg.RU_OP_CYC base q
      else match q.ruFault none with
        | some cause => k.ruFail base q cause
        | none =>
          let x := k.ruLocal w base q
          { x.2 with ru := { x.2.ru with run := some x.1, tapped := false } }

/-- RSUM, and an operation of a reserved kind, which fails its check (notes/assumptions/14.md). -/
def execRsum (n : Site) (s : State) : Outcome State Fault Refusal :=
  s.eng n fun b w k => k.ruStart w b fun c => c == 0 || decide (7 ≤ c)
/-- RMAX. -/
def execRmax (n : Site) (s : State) : Outcome State Fault Refusal := s.eng n fun b w k => k.ruStart w b (· == 1)
/-- RMIN. -/
def execRmin (n : Site) (s : State) : Outcome State Fault Refusal := s.eng n fun b w k => k.ruStart w b (· == 2)
/-- ARGMAX. -/
def execArgmax (n : Site) (s : State) : Outcome State Fault Refusal := s.eng n fun b w k => k.ruStart w b (· == 3)
/-- TOPK. -/
def execTopk (n : Site) (s : State) : Outcome State Fault Refusal := s.eng n fun b w k => k.ruStart w b (· == 4)
/-- SMPAIR. -/
def execSmpair (n : Site) (s : State) : Outcome State Fault Refusal := s.eng n fun b w k => k.ruStart w b (· == 5)
/-- PMERGE. -/
def execPmerge (n : Site) (s : State) : Outcome State Fault Refusal := s.eng n fun b w k => k.ruStart w b (· == 6)

/-- RU_OP_COMPLETE: a tapped operation ends only after its partner has (R149). -/
def Core.ruComplete (k : Core) : Core :=
  match k.ru.run with
  | none => k
  | some r =>
    if k.ru.tapped ∧ (k.ve.map.map (·.tap)).getD false then k
    else ({ k with ru := { k.ru with run := none, tapped := false } } : Core).opEnd Reg.RU_OP_CNT Reg.RU_OP_CYC r

def execRuOpComplete (n : Site) (s : State) : Outcome State Fault Refusal := s.onCore n Core.ruComplete

/-- A write of RU_FAULT_CLR. -/
def Core.ruFaultClr (k : Core) (value : W64) : Core := if value.getLsbD 0 then k.wr Reg.RU_FAULT 0 else k

end Sys2Proof.Machine
end

