-- ==== Sys2Proof/Machine/VectorEngine.lean ====
section
/-! DEFINITION. The vector engine's commands (R126, R132–R142, R148, R151, R164). -/

namespace Sys2Proof.Machine

open Host (Outcome)

def veFaultBits (cause kind prog instr : Nat) : Nat := 2 ^ 31 + cause * 2 ^ 27 + kind * 2 ^ 23 + prog * 2 ^ 19 + instr * 2 ^ 13

/-- A VE operation that fails a check. -/
def Core.veFail (k : Core) (base : Nat) (q : QOp) (cause : Nat) (st : Nat := St.notPermitted) (instr : Nat := 0) : Core :=
  let prog := if q.kind ≤ 1 then q.f 75 72 else 0
  (k.firstFault Reg.VE_FAULT (veFaultBits cause q.kind prog instr)).opFail Reg.VE_OP_CNT Reg.VE_OP_CYC base q st

def Core.veDrop (k : Core) : Core := { k with ve := { k.ve with queue := k.ve.queue.tail } }
def Core.setMap (k : Core) (m : Option MapRun) : Core := { k with ve := { k.ve with map := m } }
def Core.setXfer (k : Core) (r : Option RunOp) : Core := { k with ve := { k.ve with xfer := r } }

/-- Register-file ranges of a transfer operation. -/
def QOp.xferRanges (q : QOp) : List (Nat × Nat × Bool) :=
  if q.kind = 2 then [(256 * q.f 75 68, 256 * (q.f 67 59 + 1), true)]
  else if q.kind = 3 then [(256 * q.f 75 68, 256 * (q.f 67 59 + 1), false)]
  else []

/-- Two lists of ranges conflict: they overlap where one of them writes (R141). -/
def conflict (x y : List (Nat × Nat × Bool)) : Bool :=
  x.any fun a => y.any fun b => (a.2.2 || b.2.2) && overlap (a.1, a.2.1) (b.1, b.2.1)

/-- The map descriptor at an offset, as the scratchpad stands, for the hazards of R141. -/
def Core.peekDesc (k : Core) (off : Nat) : MapDesc :=
  { words := (List.range 8).map fun i => leNat (cellsAt k.spad.mem.cells (off + 8 * i) 8) }

/-- An EMAP may start beside the running transfer. -/
def Core.mapFree (k : Core) (q : QOp) : Bool :=
  match k.ve.xfer with
  | none => true
  | some r =>
    !(r.q.kind == 1 && r.q.f 75 72 == q.f 75 72) && !conflict (k.peekDesc (baseOff q.a)).ranges r.q.xferRanges

/-- A transfer may start beside the running map. -/
def Core.xferFree (k : Core) (q : QOp) : Bool :=
  match k.ve.map with
  | none => true
  | some m => m.read && !(q.kind == 1 && q.f 75 72 == m.q.f 75 72) && !conflict m.ranges q.xferRanges

def Core.program (k : Core) (slot : Nat) : List EInstr := (look [] k.ve.progs slot).map einstr
def Core.progValid (k : Core) (slot : Nat) : Bool := (find k.ve.progs slot).isSome

/-- EMAP: an untapped EMAP at the head starts; an operation of a reserved kind fails its check here. -/
def Core.emapStart (k : Core) (base : Nat) : Core :=
  match k.ve.queue with
  | [] => k
  | q :: _ =>
    if (q.kind = 0 ∧ q.f 71 71 = 0) ∨ q.kind ≥ 4 then
      if k.ve.map.isSome ∨ (q.kind = 0 ∧ ¬ k.mapFree q) then k
      else
        let k := k.veDrop
        if k.noSlot Own.ve then k.opNoSlot Reg.VE_OP_CNT Reg.VE_OP_CYC base q
        else match q.emapStartFault (k.progValid (q.f 75 72)) with
          | some cause => k.veFail base q cause
          | none => k.setMap (some { q := q })
    else k

def execEmap (n : Site) (s : State) : Outcome State Fault Refusal := s.eng n fun b _ k => k.emapStart b

/-- The RU partner of a tapped EMAP that ends without a tap: NOT_PERMITTED and cause 0x3 (R148). -/
def Core.partnerFail (k : Core) (base : Nat) : Core :=
  match k.ru.run with
  | none => k
  | some r =>
    if k.ru.tapped then ({ k with ru := { k.ru with run := none, tapped := false } } : Core).ruFail base r.q 0x3 else k

/-- TAP_PAIR_START: a tapped EMAP and its partner, both at the heads of their queues, start together; a half without a slot
completes here, and so does an EMAP that fails a check made at its start (R148, R164). -/
def Core.tapStart (k : Core) (base : Nat) : Core :=
  match k.veTap, k.ruTap with
  | some q, some r =>
    if k.ve.map.isSome ∨ ¬ k.mapFree q then k
    else
      let k := k.veDrop
      let k := { k with ru := { k.ru with queue := k.ru.queue.tail, run := some { q := r }, tapped := true } }
      let k := k.bump Reg.RU_TAP_WAIT_CNT (fv base 65534 % 2 ^ 32)
      if k.noSlot Own.ve then (k.opNoSlot Reg.VE_OP_CNT Reg.VE_OP_CYC base q).partnerFail base
      else match q.emapStartFault (k.progValid (q.f 75 72)) with
        | some cause => (k.veFail base q cause).partnerFail base
        | none =>
          if k.noSlot Own.ru then
            let k := { k with ru := { k.ru with run := none, tapped := false } }
            (k.opNoSlot Reg.RU_OP_CNT Reg.RU_OP_CYC base r).setMap (some { q := q })
          else k.setMap (some { q := q, tap := true })
  | _, _ => k

def execTapPairStart (n : Site) (s : State) : Outcome State Fault Refusal := s.eng n fun b _ k => k.tapStart b

/-- The values that a tap passes to the RU (R148). -/
def RuOp.tapVals (o : RuOp) (bf : Bool) (vals : List (List (Option Nat))) : List (List Nat) :=
  let none' := if o.rankKind || o.softKind then negInf else 0
  vals.map fun l => l.map fun v => match v with
    | none => none'
    | some x => if bf then widenBf16 x else x

/-- The RU half of a running pair, once the EMAP's values stand. -/
def Core.tapRun (k : Core) (w : At) (d : MapDesc) (vals : List (List (Option Nat))) (cycles : Nat) : Core :=
  match k.ru.run with
  | none => k
  | some r =>
    let o := r.q.ru
    let x := k.ruFinish w r.q (o.tapVals d.bf vals) St.done
    { x.2 with ru := { x.2.ru with run := some { q := r.q, status := x.1, cycles := cycles + o.drain + 2 } } }

/-- The RU half of a pair is checked: when it fails, it completes and the EMAP runs untapped (R148). -/
def Core.tapCheck (k : Core) (base : Nat) (d : MapDesc) : Bool × Core :=
  match k.ru.run with
  | none => (false, k)
  | some r =>
    match r.q.ruFault (some (d.rows, d.cols, d.bf)) with
    | none => (true, k)
    | some cause =>
      (false, ({ k with ru := { k.ru with run := none, tapped := false } } : Core).ruFail base r.q cause)

/-- A transfer that runs when a map reads shares its slots from then on, so that its count is free (R116, R141,
notes/assumptions/30.md). -/
def Core.xferShared (k : Core) (base : Nat) : Core :=
  { k with ve := { k.ve with xfer := k.ve.xfer.map fun r => { r with cycles := fv base 65533 } } }

/-- EMAP_DESCRIPTOR_READ: the descriptor row is read, the checks that need it are made, and the map runs. -/
def Core.emapRead (k : Core) (w : At) (base : Nat) : Core :=
  match k.ve.map with
  | none => k
  | some m =>
    if m.read then k
    else
      let off := baseOff m.q.a
      let fail (k : Core) : Core := if m.tap then k.partnerFail base else k
      let x := Core.fetch w Own.ve [off / 256] k
      let k := x.2.2.xferShared base
      if x.2.1 = St.bankAsleep then
        fail ((k.setMap none).opFail Reg.VE_OP_CNT Reg.VE_OP_CYC base m.q St.bankAsleep)
      else if isBad x.2.1 then fail ((k.setMap none).veFail base m.q 0x9 St.uncorrectable)
      else
        let d : MapDesc := { words := (List.range 8).map fun i => Fetch.le x.1 (off + 8 * i) 8 }
        let prog := k.program (m.q.f 75 72)
        match d.fault m.q prog with
        | some cause => fail ((k.setMap none).veFail base m.q cause)
        | none =>
          let c := if m.tap then k.tapCheck base d else (false, k)
          let k := c.2
          let pace := match k.ru.run with
            | some r => if c.1 then d.rows * r.q.ru.perRow else 0
            | none => 0
          let cycles := k.count base k.ve.xfer.isNone [d.readRows m.q, d.writeRows m.q] (k.emapCycles d m.q prog pace)
          let y := k.emapRun w base d m.q prog
          let k := y.2.2.setMap (some { m with
            read := true, tap := c.1, ranges := d.ranges, status := St.merge x.2.1 y.1, cycles := cycles })
          if c.1 then k.tapRun w d y.2.1 cycles else k

def execEmapDescriptorRead (n : Site) (s : State) : Outcome State Fault Refusal := s.eng n fun b w k => k.emapRead w b

/-! ### Transfers (R126, R132) -/

/-- The start checks of a transfer operation (R151). -/
def QOp.xferFault (q : QOp) : Option Nat :=
  if q.kind = 1 then
    firstCause [(0x4, baseBad q.a || baseOff q.a % 32 != 0), (0x5, decide (baseOff q.a + 4 * (q.f 69 64 + 1) > spadTop)),
      (0x7, q.unnamed [(79, 72), (69, 64)])]
  else
    let base := if q.kind = 2 then q.a else q.c
    firstCause [(0x4, baseBad base || baseOff base % 32 != 0),
      (0x5, decide (baseOff base + 256 * (q.f 67 59 + 1) > spadTop) || decide (q.f 75 68 + q.f 67 59 > 255)),
      (0x7, q.unnamed [(79, 59)])]

/-- EPROG: the program is read, checked instruction by instruction, and its slot set valid or invalid. -/
def Core.eprogRun (k : Core) (w : At) (base : Nat) (q : QOp) : Core :=
  let off := baseOff q.a
  let n := q.f 69 64 + 1
  let rows := rowsOf [(off, 4 * n)]
  let x := Core.fetch w Own.ve rows k
  let prog := (List.range n).map fun i => BitVec.ofNat 32 (Fetch.le x.1 (off + 4 * i) 4)
  let k := x.2.2
  match prog.findIdx? fun i => !(einstr i).ok with
  | some i =>
    let k := { k with ve := { k.ve with progs := drop k.ve.progs (q.f 75 72) } }
    if x.2.1 = St.bankAsleep then k.opFail Reg.VE_OP_CNT Reg.VE_OP_CYC base q St.bankAsleep
    else k.veFail base q 0x8 St.notPermitted i
  | none =>
    let cycles := k.count base k.ve.map.isNone [rows] (6 + k.fetchCyc Own.ve 1)
    let k := { k with ve := { k.ve with progs := put k.ve.progs (q.f 75 72) prog } }
    k.setXfer (some { q := q, status := x.2.1, cycles := cycles })

/-- VLOAD: rows to the register file; undefined values when a row read bad (R174). -/
def Core.vloadRun (k : Core) (w : At) (base : Nat) (q : QOp) : Core :=
  let off := baseOff q.a
  let n := 256 * (q.f 67 59 + 1)
  let rows := rowsOf [(off, n)]
  let x := Core.fetch w Own.ve rows k
  let bs := (List.range n).map fun i => Fetch.byte x.1 (off + i)
  let fresh := if isBad x.2.1 then some base else none
  let k := x.2.2
  let cycles := k.count base k.ve.map.isNone [rows] (4 + k.fetchCyc Own.ve rows.length)
  let k := { k with ve := { k.ve with vregs := writeRegs k.ve.vregs fresh (256 * q.f 75 68) (enabled bs) } }
  k.setXfer (some { q := q, status := x.2.1, cycles := cycles })

/-- VSTORE: register-file rows to the scratchpad. -/
def Core.vstoreRun (k : Core) (w : At) (base : Nat) (q : QOp) : Core :=
  let off := baseOff q.c
  let n := 256 * (q.f 67 59 + 1)
  let rows := rowsOf [(off, n)]
  let cycles := k.count base k.ve.map.isNone [rows] (4 + k.fetchCyc Own.ve rows.length)
  let x := k.writeBytes w Own.ve off (enabled (cellsAt k.ve.vregs (256 * q.f 75 68) n))
  x.2.setXfer (some { q := q, status := x.1, cycles := cycles })

/-- A map that runs when a transfer starts shares its slots from then on, so that its count is free (R116, R141,
notes/assumptions/30.md). -/
def Core.mapShared (k : Core) (base : Nat) : Core :=
  { k with ve := { k.ve with map := k.ve.map.map fun m => { m with cycles := fv base 65534 } } }

/-- The transfer operation of a kind at the head of the queue starts. -/
def Core.xferStart (k : Core) (base kind : Nat) (run : QOp → Core → Core) : Core :=
  match k.ve.queue with
  | [] => k
  | q :: _ =>
    if q.kind ≠ kind ∨ k.ve.xfer.isSome ∨ ¬ k.xferFree q then k
    else
      let k := k.veDrop
      if k.noSlot Own.ve then k.opNoSlot Reg.VE_OP_CNT Reg.VE_OP_CYC base q
      else match q.xferFault with
        | some cause => k.veFail base q cause
        | none => run q (k.mapShared base)

/-- EPROG. -/
def execEprog (n : Site) (s : State) : Outcome State Fault Refusal :=
  s.eng n fun b w k => k.xferStart b 1 fun q k => k.eprogRun w b q
/-- VLOAD. -/
def execVload (n : Site) (s : State) : Outcome State Fault Refusal :=
  s.eng n fun b w k => k.xferStart b 2 fun q k => k.vloadRun w b q
/-- VSTORE. -/
def execVstore (n : Site) (s : State) : Outcome State Fault Refusal :=
  s.eng n fun b w k => k.xferStart b 3 fun q k => k.vstoreRun w b q

/-- VE_OP_COMPLETE: of the map class once its descriptor has been read, or of the transfer class (R141). -/
def Core.veComplete (k : Core) (xfer : Bool) : Core :=
  if xfer then
    match k.ve.xfer with
    | none => k
    | some r => (k.setXfer none).opEnd Reg.VE_OP_CNT Reg.VE_OP_CYC r
  else
    match k.ve.map with
    | none => k
    | some m =>
      if m.read then (k.setMap none).opEnd Reg.VE_OP_CNT Reg.VE_OP_CYC { q := m.q, status := m.status, cycles := m.cycles }
      else k

def execVeOpComplete (n : Site) (xfer : Bool) (s : State) : Outcome State Fault Refusal := s.onCore n fun k => k.veComplete xfer

/-- A write of VE_FAULT_CLR. -/
def Core.veFaultClr (k : Core) (value : W64) : Core := if value.getLsbD 0 then k.wr Reg.VE_FAULT 0 else k

end Sys2Proof.Machine
end

