-- ==== Sys2Proof/Machine/Regs.lean ====
section
/-! DEFINITION. Register accesses: what a register shows, what a write of it does, and who may make the access (R12–R17, R53, R54,
R57, R87, R178, R212, R243–R245, R283, R309, R348, R371, R372, R398, R399, R434, R435, R462, R464, R465, R494–R496, R513). -/

namespace Sys2Proof.Machine

open Host (Outcome)

/-! ### What a core shows -/

def CoreState.code : CoreState → Nat
  | .test => 1
  | .idle => 2
  | .run => 3
  | .paused => 4
  | .draining => 5
  | .halted => 6

/-- SEQ_STATUS.wait, and the semaphore waited on. -/
def Core.waitCode (k : Core) : Nat × Nat :=
  match k.seq.task with
  | none => (0, 0)
  | some t =>
    if t.copying then (7, 0)
    else match t.head with
      | none => (0, 0)
      | some w =>
        let op := w.op
        if ¬ k.fenceOk w.fmask ∨ (op = Tw.fence ∧ w.f 111 111 = 1 ∧ ¬ k.remoteIdle) then (1, 0)
        else if (op = Tw.dispatch ∧ ¬ k.queueRoom (w.f 111 109)) ∨ (op = Tw.dmaStart ∧ 16 ≤ (k.ch (w.f 111 110)).queue.length) then (2, 0)
        else if op = Tw.semWait ∧ k.sem (w.f 111 104) < w.f 97 66 then (3, w.f 111 104)
        else if op = Tw.recv ∧ k.seq.inbox.isEmpty then (4, 0)
        else if (op = Tw.semSignal ∨ op = Tw.post) ∧ 64 ≤ k.seq.remote.length then (5, 0)
        else (0, 0)

def Core.seqStatus (k : Core) : Nat :=
  let w := k.waitCode
  let d := match k.seq.task with
    | none => (0, 0)
    | some t => (t.loops.length, t.pc)
  k.seq.lastRemote % 256 * 2 ^ 24 + w.1 * 2 ^ 21 + d.1 % 8 * 2 ^ 18 + w.2 * 2 ^ 10 + d.2 % 1024

def Core.seqQueues (k : Core) : Nat :=
  k.seq.inbox.length * 2 ^ 16 + k.seq.starts.length * 2 ^ 7 + k.seq.remote.length

/-- Four 5-bit queue lengths, and four busy bits at `lo`. -/
def queueBits (lens : List Nat) : Nat := lens.zipIdx.foldl (fun v x => v + x.1 % 32 * 2 ^ (5 * x.2)) 0
def busyBits (lo : Nat) (l : List Bool) : Nat := l.zipIdx.foldl (fun v x => v + b2n x.1 * 2 ^ (lo + x.2)) 0

def Core.meStatus (k : Core) : Nat :=
  let es := (List.range 4).map k.eng
  busyBits 28 (es.map (·.array.isSome)) + busyBits 24 (es.map (·.xfer.isSome)) + queueBits (es.map (·.queue.length))

def Core.veStatus (k : Core) : Nat :=
  b2n k.ve.map.isSome * 2 ^ 31 + b2n k.ve.xfer.isSome * 2 ^ 30 + b2n (k.veTap.isSome && k.ve.map.isNone) * 2 ^ 29 +
    ((k.ve.map.map fun m => m.q.f 75 72).getD 0) * 2 ^ 20 + k.ve.queue.length

def Core.ruStatus (k : Core) : Nat :=
  b2n k.ru.run.isSome * 2 ^ 31 + b2n (k.ruTap.isSome && k.ru.run.isNone) * 2 ^ 30 +
    ((k.ru.run.map fun r => r.q.kind).getD 0) * 2 ^ 26 + k.ru.queue.length

def Core.dmaStatus (k : Core) : Nat :=
  let cs := (List.range 4).map k.ch
  busyBits 28 (cs.map fun c => c.cur.isSome || !c.waiting.isEmpty) + queueBits (cs.map (·.queue.length))

def Core.spadStatus (k : Core) : Nat :=
  let t := match k.seq.task with
    | none => (0, 7)
    | some t => (t.planNum, t.planLen)
  t.1 % 32 * 2 ^ 27 + t.2 % 16 * 2 ^ 23 + b2n k.spad.reshape.isSome * 2 ^ 22 + k.spad.staging.length % 128 * 2 ^ 15 +
    k.awakeN * 2 ^ 10 + k.spad.wbq.length * 2 ^ 5

def Core.meshStatus (k : Core) : Nat :=
  let n := ((List.range 64).filter fun e => (k.red e).valid).length
  n * 2 ^ 25 + k.level 3 * 2 ^ 23 + k.level 2 * 2 ^ 21 + k.level 0 * 2 ^ 17 + b2n k.rt.mapped * 2 ^ 16

def Core.meshPorts (k : Core) : Nat :=
  (List.range 8).foldl (fun v i =>
    let l := k.link i
    v + (l.state % 4 + (l.modules - 1) % 4 * 4) * 2 ^ (4 * i)) 0

def Core.clkStat (k : Core) : Nat :=
  let v := BitVec.ofNat 64 (k.rd Reg.CLK_CORE_STAT)
  let v := if k.haltSince.isSome then setFld v 25 23 5 else v
  (setFld v 21 21 (b2n k.armed)).toNat

/-- The three registers of an error log that it shows beside its records. -/
def ErrLog.status (l : ErrLog) : Nat := l.recs.length * 2 ^ 25 + l.head * 2 ^ 19 + b2n (decide (64 ≤ l.recs.length)) * 2 ^ 18

/-- Word j of record slot i (R513): 32 bytes a slot; a slot that holds no record reads as zero. -/
def ErrLog.word (l : ErrLog) (i j : Nat) : Nat :=
  match l.recs[(i + 64 - l.head) % 64]? with
  | none => 0
  | some r => leAt r.bytes (4 * j) 4

/-- An offset within an ERR_ block, as the log shows it; none for a register that is stored. -/
def ErrLog.view (l : ErrLog) (off : Nat) : Option Nat :=
  if off = 0 then some l.status
  else if off = 0x18 then some l.seq
  else if 0x800 ≤ off then some (l.word ((off - 0x800) / 32) ((off - 0x800) / 4 % 8))
  else none

/-- The value of a core register. -/
def Panel.coreView (p : Panel) (n off : Nat) : Nat :=
  let k := p.core n
  let within (base size : Nat) : Bool := decide (base ≤ off ∧ off < base + size)
  if 0xB0000 ≤ off then (k.log.view (off - 0xB0000)).getD (k.rd off)
  else if off = Reg.CORE_STATE then k.seq.state.code
  else if off = Reg.CORE_CYC then (p.draw.1).toNat
  else if off = Reg.SEQ_STATUS then k.seqStatus
  else if off = Reg.SEQ_QUEUES then k.seqQueues
  else if within Reg.SEQ_G 0x100 then (k.g ((off - Reg.SEQ_G) / 8)).toNat
  else if within Reg.SEQ_SEM 0x400 then k.sem ((off - Reg.SEQ_SEM) / 4)
  else if off = Reg.ME_STATUS then k.meStatus
  else if off = Reg.VE_STATUS then k.veStatus
  else if off = Reg.VE_PROG_VALID then (List.range 16).foldl (fun v i => v + b2n (k.progValid i) * 2 ^ i) 0
  else if off = Reg.RU_STATUS then k.ruStatus
  else if off = Reg.SPAD_STATUS then k.spadStatus
  else if off = Reg.SPAD_GRP_STATE then k.grpState
  else if off = Reg.SPAD_SCRUB_STAT then k.spad.passes % 256 * 2 ^ 24 + k.spad.patrolRow * 2 ^ 12
  else if off = Reg.MESH_STATUS then k.meshStatus
  else if off = Reg.MESH_PORTS then k.meshPorts
  else if within Reg.MESH_RED 0x200 then k.redRead ((off - Reg.MESH_RED) / 8)
  else if off = Reg.DMA_STATUS then k.dmaStatus
  else if off = Reg.CLK_CORE_STAT then (k.takeRaise p.dial).clkStat
  else if off = Reg.CLK_DIAL then p.dial
  else if off = Reg.PWR_SITE_STAT then k.siteStat
  else if off = Reg.PWR_FLOOR then k.floorReg
  else if off = Reg.THM_THROTTLE_US then (k.countSlow p.dial).rd off
  else k.rd off

/-! ### What a hub shows -/

/-- A ring link is up: both hub dies are present and neither is lost. -/
def Panel.ringUp (p : Panel) (a b : Nat) : Bool :=
  p.fuses.hubPresent a && p.fuses.hubPresent b && !(p.hub a).lost && !(p.hub b).lost

def Panel.hubStatus (p : Panel) (h : Nat) : Nat :=
  let k := p.hub h
  let dig := (k.run.filter fun x => x.2.started && bits ((x.2.words.headD 0).toNat) 63 60 == Hc.digest).length
  (if p.fuses.hubPresent h then k.stack else 0) * 2 ^ 30 + b2n k.slow * 2 ^ 29 + k.tlvl % 4 * 2 ^ 27 +
    b2n (p.ringUp h ((h + 23) % 24)) * 2 ^ 26 + b2n (p.ringUp h ((h + 1) % 24)) * 2 ^ 25 + k.cmdq.length * 2 ^ 18 +
    k.run.length % 8 * 2 ^ 15 + dig * 2 ^ 10

def Panel.hubView (p : Panel) (h off : Nat) : Nat :=
  let k := p.hub h
  if 0x50000 ≤ off then (k.log.view (off - 0x50000)).getD (k.rd off)
  else if off = Reg.HUB_STATUS then p.hubStatus h
  else if off = Reg.HUB_SCRUB_STAT then k.passes % 256 * 2 ^ 24 + k.patrol / 4096 % 65536 * 256
  else k.rd off

/-! ### What a port die shows -/

def Panel.portView (p : Panel) (d off : Nat) : Nat :=
  let k := p.port d
  if 0x60000 ≤ off then (k.log.view (off - 0x60000)).getD (k.rd off)
  else if off = Reg.PORT_UPMASK then p.portsUp
  else if off = Reg.PORT_GRP_ALERT then k.alertView
  else if off = Reg.PORT_STAT then p.portStat d 0
  else if off = perPort Reg.PORT_STAT 1 then p.portStat d 1
  else k.rd off

/-! ### What a crown shows -/

def Panel.panelGrid (p : Panel) : Nat :=
  p.fuses.portCount * 2 ^ 24 + p.fuses.stackCount * 2 ^ 16 + p.fuses.lwidth * 2 ^ 8 + 16

/-- PANEL_AGENT[n]. -/
def Panel.agentReg (p : Panel) (g : Nat) : Nat :=
  min 255 (look 0 p.elections g) * 2 ^ 16 + (match find p.agents g with
    | none => 0
    | some n => 2 ^ 31 + siteC n * 256 + siteR n)

/-- PANEL_SITE_MAP of a site: zero until stage 7 has mapped it (R55, R56). -/
def Panel.siteReg (p : Panel) (n : Nat) : Nat :=
  let i := p.site n
  let st := i.state
  if ¬ p.boot.mapped then 0
  else st * 2 ^ 29 + (if st = 1 then i.lx * 2 ^ 21 + siteR n * 2 ^ 17 else 0) + regionOf n * 2 ^ 12 + halfOf n * 2 ^ 11 +
    b2n (p.agents.any fun x => x.2 == n) * 2 ^ 10 + b2n i.split * 2 ^ 9 +
    b2n (p.fuses.spareCol.getD (siteR n) 20 == siteC n) * 2 ^ 8 + i.cause % 16 * 16

/-- PANEL_LMAP of a core number. -/
def Panel.lmapReg (p : Panel) (i : Nat) : Nat :=
  let lw := p.fuses.lwidth
  if 16 * lw ≤ i ∨ ¬ p.boot.mapped then 0
  else match p.lsite (i % lw) (i / lw) with
    | none => 2 * 2 ^ 30
    | some n => 2 ^ 30 + siteC n * 256 + siteR n

/-- The crown that runs root commands: the north crown, or the one that is left (R482). -/
def Panel.master (p : Panel) : Crown := p.leader 0

/-- MGMT_STATUS: zero until the crown's root firmware runs. -/
def Panel.mgmtStatus (p : Panel) (c : Crown) : Nat :=
  if p.boot.records.contains c then
    b2n (p.crown c).svc * 2 ^ 31 + b2n (!(p.crown c).rngBad) * 2 ^ 30 + b2n (p.master == c) * 2 ^ 29 + p.rcmds.length % 8 * 2 ^ 26
  else 0

/-- MGMT_SVN: the anti-rollback floors. -/
def Panel.svnReg (p : Panel) (c : Crown) : Nat :=
  let at' (kind : Nat) : Nat := look 0 p.fuses.floors (8 * c.num + kind)
  at' 3 % 64 * 2 ^ 20 + at' 2 % 128 * 2 ^ 13 + at' 1 % 64

/-- Crown registers that each crown holds for itself (R283, R371, R496, R513). -/
def crownOwn (off : Nat) : Bool :=
  decide (off ∈ [Reg.MGMT_RING_STAT, Reg.MGMT_RING_REFUSE_CNT, Reg.MGMT_AUTH_FAIL_CNT, Reg.MGMT_SVC_RESTART_CNT, Reg.MGMT_SESS]) ||
    decide (off / 0x10000 ∈ [6, 7, 9])

def Panel.crownView (p : Panel) (c : Crown) (off : Nat) : Nat :=
  let k := p.crown c
  let within (base size : Nat) : Bool := decide (base ≤ off ∧ off < base + size)
  let blk := off / 0x10000
  if blk = 6 then
    if off = Reg.ERR_FLASH_SEQ_crown then look 0 p.flash.errSeq c.num else (k.log.view (off - 0x60000)).getD (k.rd off)
  else if off = Reg.PANEL_ID then 0x0336 * 2 ^ 16 + p.fuses.variant * 256 + p.fuses.stepMajor % 16 * 16 + p.fuses.stepMinor % 16
  else if off = Reg.PANEL_GRID then p.panelGrid
  else if off = Reg.PANEL_STACK_MAP then p.fuses.stacks.foldl (fun v h => v + 2 ^ h) 0
  else if off = Reg.PANEL_PORT_MAP then p.fuses.ports.foldl (fun v q => v + 2 ^ q) 0
  else if within Reg.PANEL_AGENT 0x60 then p.agentReg ((off - Reg.PANEL_AGENT) / 4)
  else if within Reg.PANEL_SITE_MAP 0x540 then p.siteReg ((off - Reg.PANEL_SITE_MAP) / 4)
  else if within Reg.PANEL_LMAP 0x500 then p.lmapReg ((off - Reg.PANEL_LMAP) / 4)
  else if off = Reg.CLK_DIAL_X then p.dial
  else if off = Reg.CLK_SP then p.spSettle.sh off
  else if off = Reg.CLK_SP_CTL then p.spSettle.sh off
  else if off = Reg.PWR_CAP_EFF then p.capEffReg
  else if off = Reg.BOOT_STATUS then p.bootReg
  else if off = Reg.BOOT_TEST_STAT then p.testStat
  else if within Reg.BOOT_MODEL 0x80 then (look {} p.models ((off - Reg.BOOT_MODEL) / 8)).bootReg
  else if off = Reg.MGMT_STATUS then p.mgmtStatus c
  else if within Reg.MGMT_PROT_DIGEST 32 then leAt p.protDigest (off - Reg.MGMT_PROT_DIGEST) 8
  else if off = Reg.MGMT_SESS then k.rd off + k.sessions.length
  else if off = Reg.MGMT_SVN then p.svnReg c
  else if off = Reg.CTX_STATUS then p.ctxStatus c
  else if off = Reg.CTX_OVF_HELD then p.heldRecs.length
  else if within Reg.CTX_PUSE 0x80 then p.slotsOf ((off - Reg.CTX_PUSE) / 4)
  else if crownOwn off then k.rd off
  else p.sh off

/-! ### Where an access lands (R12–R14, R17, R54) -/

/-- The registers that an offset of a die falls in. -/
def dieMap : Die → List RegRow
  | .core _ => coreMap
  | .hub _ => hubMap
  | .port _ => portMap
  | .crown _ => crownMap
  | .bar0 _ => bar0Map

/-- What an access of a number of bytes at an offset meets. -/
inductive Hit
  | reg (row : RegRow) (base : Nat)
  | half (row : RegRow) (base : Nat) (high : Bool)
  | rsv
  | wrong
  deriving DecidableEq, Repr

/-- The register of a row that an offset falls in. -/
def RegRow.base (r : RegRow) (off : Nat) : Option Nat :=
  if off < r.off ∨ r.count ≤ (off - r.off) / r.stride then none
  else
    let b := off - (off - r.off) % r.stride
    if off < b + (if r.wide then 8 else 4) then some b else none

/-- The row and register of an offset. -/
def rowAt : List RegRow → Nat → Option (RegRow × Nat)
  | [], _ => none
  | r :: rs, off => match r.base off with
    | some b => some (r, b)
    | none => rowAt rs off

def hitIn (m : List RegRow) (off bytes : Nat) (isWrite : Bool) : Hit :=
  match rowAt m off with
  | none => if off % 4 = 0 ∧ bytes = 4 then .rsv else .wrong
  | some (r, b) =>
    if r.wide then
      if off = b ∧ bytes = 8 then .reg r b
      else if bytes = 4 ∧ off % 4 = 0 ∧ ¬ isWrite then .half r b (off != b)
      else .wrong
    else if off = b ∧ bytes = 4 then .reg r b else .wrong

/-- The block map of R54 lists the offset. On the south crown HOST_ is RSV. -/
def inBlock (die : Die) (off : Nat) : Bool :=
  let b := off / 0x10000
  match die with
  | .core _ => decide (b < 12)
  | .hub _ => decide (b < 6)
  | .port _ => decide (b < 7)
  | .crown _ => decide (b < 10)
  | .bar0 _ => true

/-- The register that an access meets. -/
def dieHit (die : Die) (off bytes : Nat) (isWrite : Bool) : Hit :=
  match die with
  | .crown .south => if off / 0x10000 = 9 then (if off % 4 = 0 ∧ bytes = 4 then .rsv else .wrong) else hitIn crownMap off bytes isWrite
  | die => hitIn (dieMap die) off bytes isWrite

/-- The access code that an access meets, for the rules of who may make it: an RSV register counts as an RO one (R17). -/
def Hit.acc : Hit → Acc
  | .reg r _ => r.acc
  | .half r _ _ => r.acc
  | .rsv => .ro
  | .wrong => .ro

/-! ### Who may make an access -/

/-- The half of a die. -/
def dieHalf : Die → Nat
  | .core n => halfOf n
  | .hub h => hubHalf h
  | .port d => d / 4
  | .crown c => c.num
  | .bar0 _ => 0

/-- The sending crown of a ring frame: an agent's counts at the crown that leads its site. -/
def Panel.sender (p : Panel) : Requester → Option Crown
  | .ringRoot c => some c
  | .ringService c => some c
  | .ringAgent n => some (p.leaderOf n)
  | _ => none

/-- A crown reaches a die over the ring: of its own half, or after the merge, or when the other crown is lost (R464). -/
def Panel.ringReach (p : Panel) (who : Requester) (die : Die) : Bool :=
  match who with
  | .ringRoot c => dieHalf die == c.num || p.merged || (p.crown c.other).lost
  | .ringService c => dieHalf die == c.num || p.merged || (p.crown c.other).lost
  | _ => true

/-- A requester that is there to make an access. -/
def Panel.asks (p : Panel) : Requester → Bool
  | .ringRoot c => !(p.crown c).lost
  | .ringService c => !(p.crown c).lost
  | .ringAgent n => p.powered n
  | .ringDie => true
  | .meshCore n _ => p.powered n
  | .meshCrown _ => true
  | .meshEdge _ => true
  | .host _ => p.hostUp

/-- The edge converter of a hub or a port die is on (R402). -/
def Panel.hubOn (p : Panel) (h : Nat) : Bool := (List.range 8).any fun e => (edgeHubs e).contains h && p.edgeState e == 2
def Panel.portOn (p : Panel) (d : Nat) : Bool := (List.range 8).any fun e => (edgePorts e).contains d && p.edgeState e == 2

/-- The die answers: a site without power keeps its PWR_, THM_ and ERR_ blocks (R434, R513). -/
def Panel.answers (p : Panel) (die : Die) (off : Nat) : Bool :=
  match die with
  | .core n => p.powered n || decide (0x90000 ≤ off)
  | .hub h => p.fuses.hubPresent h && !(p.hub h).lost && p.hubOn h
  | .port d => p.fuses.diePresent d && !(p.port d).lost && p.portOn d
  | .crown c => !(p.crown c).lost
  | .bar0 _ => p.hostUp

/-- Registers reserved to root firmware (R465). -/
def rootOnly (die : Die) (off : Nat) : Bool :=
  let within (base size : Nat) : Bool := decide (base ≤ off ∧ off < base + size)
  match die with
  | .core _ => off == Reg.CORE_PART
  | .hub _ => within Reg.HUB_BAND 0x300
  | .port _ => within Reg.PORT_DEVUNBLK 0x200
  | .crown c =>
    within Reg.WIN_ENT 0x2000 || within Reg.CTX_PLIM 0x80 || within Reg.MGMT_PART 0x100 || within Reg.MGMT_CRED 0x800 ||
      (c == .north && (within Reg.HOST_FNPART 0x80 || within Reg.HOST_QOWN 0x1000 || within Reg.HOST_SEG 0x8000))
  | .bar0 _ => false

/-- Registers that a crown of the core's partition may write over the mesh (R178, R212). -/
def crownWrites (off : Nat) : Bool :=
  let within (base size : Nat) : Bool := decide (base ≤ off ∧ off < base + size)
  off == Reg.SPAD_GRP_PWR || within Reg.SPAD_PLAN 0x100 || within Reg.SPAD_PLAN_CTL 0x80 || within Reg.MESH_RED 0x200

/-- A mesh packet of a core's partition (R87). -/
def Core.admits (k : Core) (part : Nat) : Bool := k.partValid && part == k.part

def Panel.mayRead (p : Panel) (who : Requester) (die : Die) (off : Nat) (acc : Acc) : Bool :=
  let shown := acc == .ro || acc == .rc
  let b := off / 0x10000
  match who, die with
  | .ringRoot _, .bar0 _ => false
  | .ringService _, .bar0 _ => false
  | .ringAgent _, .bar0 _ => false
  | .ringDie, .bar0 _ => false
  | .ringRoot _, _ => true
  | .ringService _, _ => true
  | .ringAgent _, _ => true
  | .ringDie, _ => true
  | .meshCore _ part, .core n => shown && decide (1 ≤ b ∧ b ≤ 8) && (p.core n).admits part
  | .meshCrown part, .core n => shown && decide (1 ≤ b ∧ b ≤ 8) && (p.core n).admits part
  | .meshCrown _, .hub _ => shown && decide (b < 4)
  | .meshCrown _, .port _ => shown && decide (b < 4)
  | .host f, .bar0 g => f == g
  | _, _ => false

def Panel.mayWrite (p : Panel) (who : Requester) (die : Die) (off : Nat) (rsv : Bool) : Bool :=
  match who, die with
  | .ringRoot _, .bar0 _ => false
  | .ringService _, .bar0 _ => false
  | .ringRoot _, _ => true
  | .ringService _, die => !rootOnly die off
  | .ringAgent a, .core n =>
    regionOf a == regionOf n && !rootOnly die off && off != Reg.CLK_SP_ARMCTL && off != Reg.CLK_SP_ARM
  | .meshCore _ _, .hub _ => off == Reg.HUB_CMD_PTR || off == Reg.HUB_CMD_PTR + 4
  | .meshCrown _, .hub _ => off == Reg.HUB_CMD_PTR || off == Reg.HUB_CMD_PTR + 4
  | .meshCrown part, .core n => crownWrites off && !rsv && (p.core n).admits part
  | .host f, .bar0 g => f == g
  | _, _ => false

/-- A ring write of a reserved register by another origin is counted at the sending crown. -/
def Panel.refuseWrite (p : Panel) (who : Requester) (die : Die) (off : Nat) : Panel :=
  match p.sender who with
  | none => p
  | some c =>
    if rootOnly die off then p.modCrown c fun k => k.bump Reg.MGMT_RING_REFUSE_CNT else p

def Panel.badAcc (p : Panel) : Panel := p.bumpSh Reg.PANEL_BADACC_CNT

/-- A requester on the mesh. -/
def onMesh : Requester → Bool
  | .meshCore _ _ => true
  | .meshCrown _ => true
  | .meshEdge _ => true
  | _ => false

/-! ### Reads -/

/-- The granule to which a mesh read rounds a register of a core down; none where it is read as it stands (R494). -/
def coarseness (off : Nat) : Option Nat :=
  if off = Reg.CLK_DROOP_STAT ∨ off = Reg.CLK_CAL_ERR then some 0
  else if Reg.MESH_LINK_UNITS ≤ off ∧ off < Reg.MESH_LINK_UNITS + 64 then some (2 ^ 24)
  else if off ∈ snapRegs then some 1024
  else none

/-- The value that a register shows. -/
def Panel.view (p : Panel) (die : Die) (off : Nat) : Nat :=
  match die with
  | .core n => p.coreView n off
  | .hub h => p.hubView h off
  | .port d => p.portView d off
  | .crown c => p.crownView c off
  | .bar0 f => if off = Reg.HOST_FN_ID then p.fnId f else (rfGet (p.fn f).regs off).toNat

/-- An RC register cleared, restarting at the events of the same cycle (R15, R16). -/
def Panel.setCount (p : Panel) (die : Die) (off events : Nat) : Panel :=
  let v := min events cntTop
  match die with
  | .core n => p.modCore n fun k => (if off = Reg.THM_THROTTLE_US then k.countSlow p.dial else k).wr off v
  | .hub h => p.modHub h fun k => k.wr off v
  | .port d => p.modPort d fun k => k.wr off v
  | .crown c => if crownOwn off then p.modCrown c fun k => k.wr off v else p.setSh off v
  | .bar0 _ => p

/-- The latched high halves of a die. -/
def Panel.latches (p : Panel) : Die → List (Requester × Nat × Nat)
  | .core n => (p.core n).latch
  | .hub h => (p.hub h).latch
  | .port d => (p.port d).latch
  | .crown c => (p.crown c).latch
  | .bar0 f => (p.fn f).latch

def Panel.setLatches (p : Panel) (die : Die) (l : List (Requester × Nat × Nat)) : Panel :=
  match die with
  | .core n => p.modCore n fun k => { k with latch := l }
  | .hub h => p.modHub h fun k => { k with latch := l }
  | .port d => p.modPort d fun k => { k with latch := l }
  | .crown c => p.modCrown c fun k => { k with latch := l }
  | .bar0 f => p.modFn f fun k => { k with latch := l }

/-- A register's value as a requester reads it, and the panel after the read's side effects. -/
def Panel.shown (p : Panel) (who : Requester) (die : Die) (row : RegRow) (base events : Nat) : Nat × Panel :=
  let v := if row.acc = .wo then 0 else p.view die base
  let coarse := match die with
    | .core n => if onMesh who then (coarseness base).map fun g => if g = 0 then 0 else
        let s := (rfGet (p.core n).snap base).toNat
        s - s % g
      else none
    | _ => none
  match coarse with
  | some s => (s, p)
  | none =>
    let p := if (match die with
      | .core _ => base == Reg.CORE_CYC
      | _ => false) then (p.draw).2 else p
    (v, if row.acc = .rc then p.setCount die base events else p)

/-- A read of a register: status, value, and the panel. -/
def Panel.readAt (p : Panel) (who : Requester) (die : Die) (off bytes events : Nat) : Nat × Nat × Panel :=
  match dieHit die off bytes false with
  | .wrong => (St.done, 0, p.badAcc)
  | .rsv => (St.done, 0, p)
  | .reg row base =>
    let x := p.shown who die row base events
    (St.done, x.1, x.2)
  | .half row base high =>
    let l := p.latches die
    let rest := l.filter fun x => !(x.1 == who && x.2.1 == base)
    if high then
      match l.find? fun x => x.1 == who && x.2.1 == base with
      | some x => (St.done, x.2.2, p.setLatches die rest)
      | none =>
        let x := p.shown who die row base events
        (St.done, x.1 / 2 ^ 32, x.2)
    else
      let x := p.shown who die row base events
      (St.done, x.1 % 2 ^ 32, x.2.setLatches die (rest ++ [(who, base, x.1 / 2 ^ 32)]))

/-! ### The host's registers (R352, R357, R372, R495) -/

/-- Crown registers that the host read-only subset shows. -/
def hostShows (off : Nat) : Bool :=
  let b := off / 0x10000
  let within (base size : Nat) : Bool := decide (base ≤ off ∧ off < base + size)
  b == 0 || b == 7 || (off - off % 8 == Reg.CLK_DIAL_X) || (off - off % 8 == Reg.MGMT_BOOT_ID) || within Reg.MGMT_PROT_DIGEST 32 ||
    within Reg.BOOT_REC 0x500 || within Reg.BOOT_MODEL 0x80 ||
    decide (off ∈ [Reg.CLK_ESC_STAT, Reg.CLK_SP, Reg.PWR_CAP_EFF, Reg.PWR_ENERGY_T, Reg.THM_COOL_ALERT, Reg.BOOT_STATUS,
      Reg.MGMT_STATUS, Reg.MGMT_SVN])

/-- A read of the subset: it never clears a counter. -/
def Panel.subsetRead (p : Panel) (c : Crown) (off bytes : Nat) : Nat × Nat × Panel :=
  if (p.crown c).lost then (St.siteRetired, 0, p)
  else match dieHit (.crown c) off bytes false with
    | .wrong => (St.done, 0, p.badAcc)
    | .rsv => (St.done, 0, p)
    | .reg row base => (St.done, if hostShows off ∧ row.acc ≠ .wo then p.crownView c base else 0, p)
    | .half _ base high =>
      let v := if hostShows off then p.crownView c base else 0
      (St.done, if high then v / 2 ^ 32 else v % 2 ^ 32, p)

/-- A queue-set register of the set's own function. -/
def Panel.qView (p : Panel) (q off : Nat) : Nat :=
  let s := p.qset q
  if off = 0x28 then s.stat else if off = 4 then s.qmod else (rfGet s.regs off).toNat

def Panel.hostRead (p : Panel) (f off bytes : Nat) : Nat × Nat × Panel :=
  if 0x1000000 ≤ off then
    if f ≠ 0 then (St.done, 0, p)
    else if off < 0x1100000 then p.subsetRead .north (off - 0x1000000) bytes
    else if off < 0x1200000 then p.subsetRead .south (off - 0x1100000) bytes
    else (St.done, 0, p)
  else if 0x10000 ≤ off ∧ off < 0x10000 + 64 * 4096 then
    let q := (off - 0x10000) / 64
    let o := off % 64
    if p.qOwner q ≠ some f then (St.done, 0, p)
    else match hitIn bar0qMap o bytes false with
      | .wrong => (St.done, 0, p.badAcc)
      | .rsv => (St.done, 0, p)
      | .reg _ base => (St.done, p.qView q base, p)
      | .half _ base high => (St.done, if high then p.qView q base / 2 ^ 32 else p.qView q base % 2 ^ 32, p)
  else p.readAt (.host (Fin.ofNat 32 f)) (.bar0 (Fin.ofNat 32 f)) off bytes 0

/-- A read of a register by a requester: status, value, panel. -/
def Panel.regRead (p : Panel) (who : Requester) (die : Die) (off bytes events : Nat) : Nat × Nat × Panel :=
  let hit := dieHit die off bytes false
  if ¬ inBlock die off then (St.notPermitted, 0, p)
  else if ¬ p.answers die off then (St.siteRetired, 0, p)
  else if ¬ p.ringReach who die ∨ ¬ p.mayRead who die off hit.acc then (St.notPermitted, 0, p)
  else match die with
    | .bar0 f => p.hostRead f off bytes
    | die => p.readAt who die off bytes events

/-! ### Writes -/

/-- The plain effect of a write on a register's value: the bits that a write may set, set, cleared or ORed (R15). -/
def RegRow.written (r : RegRow) (old : Nat) (v : W64) : Nat :=
  let x := v.toNat &&& r.wmask
  match r.acc with
  | .rw => (old &&& (r.wmask ^^^ (2 ^ 64 - 1))) ||| x
  | .w1c => old &&& (x ^^^ (2 ^ 64 - 1))
  | .w1s => old ||| x
  | _ => old

/-- A write of a core register with an effect of its own; `base` is the register, `v` the value. -/
def Panel.coreWrite (p : Panel) (n : Nat) (row : RegRow) (base : Nat) (v : W64) : Panel :=
  let within (b size : Nat) : Bool := decide (b ≤ base ∧ base < b + size)
  let on (f : Core → Core) : Panel := p.modCore n f
  if base = Reg.CORE_CMD then on fun k => k.cmd (v.toNat % 16)
  else if base = Reg.CORE_PART then on fun k => k.wr base (v.toNat &&& 0x8000001F)
  else if base = Reg.SEQ_FAULT_CLR then on fun k => k.seqFaultClr v
  else if base = Reg.ME_FAULT_CLR then on fun k => k.meFaultClr v
  else if base = Reg.ME_TBLK_BAD_CLR then on fun k => k.meTblkBadClr v
  else if base = Reg.VE_FAULT_CLR then on fun k => k.veFaultClr v
  else if base = Reg.RU_FAULT_CLR then on fun k => k.ruFaultClr v
  else if base = Reg.SPAD_ERR_CLR then on fun k => k.spadErrClr v
  else if base = Reg.DMA_FAULT_CLR then on fun k => k.dmaFaultClr v
  else if base = Reg.SPAD_GRP_PWR then on fun k => k.grpPwrWrite p.dial v
  else if within Reg.SPAD_PLAN 0x100 then on fun k => k.planWrite ((base - Reg.SPAD_PLAN) / 8) v
  else if within Reg.SPAD_PLAN_CTL 0x80 then on fun k => k.planCtlWrite ((base - Reg.SPAD_PLAN_CTL) / 4) v
  else if within Reg.MESH_INJ_CFG 0x10 then on fun k => k.injWrite ((base - Reg.MESH_INJ_CFG) / 4) v
  else if within Reg.MESH_RED 0x200 then on fun k => k.redWrite ((base - Reg.MESH_RED) / 8) v
  else if within Reg.MESH_RMAP 0x618 then on fun k =>
    let k := k.wr base (row.written (k.rd base) v)
    { k with rt := { k.rt with mapped := true } }
  else if base = Reg.CLK_CAP then on fun k => k.capWrite p.dial v
  else if base = Reg.PWR_FLOOR then on fun k => k.floorWrite v
  else if base = Reg.THM_LEHR then on fun k => k.lehrWrite v
  else if base = Reg.ERR_ACK_core then on fun k => { k with log := k.log.ack (v.toNat % 128) }
  else on fun k => k.wr base (row.written (k.rd base) v)

/-- A pointer offered to a hub (R300): held with the partition and the crown flag of its packet, or refused. -/
def Hub.ptrWrite (k : Hub) (v part : Nat) (crown : Bool) : Nat × Hub :=
  if 64 ≤ k.cmdq.length then (St.timedOut, k.bump Reg.HUB_CMD_REFUSE_CNT)
  else (St.done, { k with cmdq := k.cmdq ++ [(v % 2 ^ 56, part, crown)] })

/-- Partition and crown flag of a pointer's requester; a ring frame carries no partition, which is then a free value. -/
def Panel.ptrPart (p : Panel) : Requester → Nat × Bool
  | .meshCore _ part => (part, false)
  | .meshCrown part => (part, true)
  | _ => ((p.draw.1).toNat % 32, true)

def Panel.hubWrite (p : Panel) (who : Requester) (h : Nat) (row : RegRow) (base : Nat) (v : W64) : Nat × Panel :=
  if base = Reg.HUB_CMD_PTR then
    let w := p.ptrPart who
    let x := (p.hub h).ptrWrite v.toNat w.1 w.2
    (x.1, Panel.hubTake h 4 ((if onMesh who then p else (p.draw).2).setHub h x.2))
  else if base = Reg.HUB_ERR_CLR then (St.done, p.modHub h fun k => k.errClr v)
  else if Reg.HUB_BAND ≤ base ∧ base < Reg.HUB_BAND + 0x300 then
    (St.done, p.modHub h fun k => k.bandWrite ((base - Reg.HUB_BAND) / 4) v)
  else if base = Reg.ERR_ACK_hub then (St.done, p.modHub h fun k => { k with log := k.log.ack (v.toNat % 128) })
  else (St.done, p.modHub h fun k => k.wr base (row.written (k.rd base) v))

def Panel.portWrite (p : Panel) (d : Nat) (row : RegRow) (base : Nat) (v : W64) : Panel :=
  let within (b size : Nat) : Bool := decide (b ≤ base ∧ base < b + size)
  if base = Reg.PORT_DEVNUM then p.devnumWrite d v
  else if base = Reg.PORT_CFG then p.portCfgWrite d 0 v
  else if base = perPort Reg.PORT_CFG 1 then p.portCfgWrite d 1 v
  else if base = Reg.PORT_PFC then p.portPfcWrite d 0 v
  else if base = perPort Reg.PORT_PFC 1 then p.portPfcWrite d 1 v
  else if within Reg.PORT_DEVBLK 0x200 then p.modPort d fun k => k.devblk ((base - Reg.PORT_DEVBLK) / 4) v
  else if within Reg.PORT_DEVUNBLK 0x200 then p.modPort d fun k => k.devunblk ((base - Reg.PORT_DEVUNBLK) / 4) v
  else if base = Reg.ERR_ACK_port then p.modPort d fun k => { k with log := k.log.ack (v.toNat % 128) }
  else p.modPort d fun k => k.wr base (row.written (k.rd base) v)

/-- The bits of a MGMT_CRED word that a write sets (R496). -/
def credMask (word : Nat) : Nat := if word = 0 then 0xFE00000000000000 else if word ≤ 8 then 2 ^ 64 - 1 else 0

def Panel.crownWriteReg (p : Panel) (c : Crown) (row : RegRow) (base : Nat) (v : W64) : Panel :=
  let within (b size : Nat) : Bool := decide (b ≤ base ∧ base < b + size)
  if base = Reg.CLK_ESC_CMD then p.handover v
  else if base = Reg.CLK_SP_CTL then p.spWrite v
  else if base = Reg.PWR_CAP then p.pwrCapWrite v
  else if base = Reg.PWR_RAMP then p.pwrRampWrite v
  else if base = Reg.PWR_RGN_CMD then p.rgnCmd v
  else if base = Reg.THM_FLOW_CFG then p.flowCfgWrite v
  else if base = Reg.BOOT_CMD then p.bootCmd v
  else if base = Reg.BOOT_TEST_REQ then p.testReq v
  else if base = Reg.ERR_ACK_crown then p.modCrown c fun k => { k with log := k.log.ack (v.toNat % 128) }
  else if base = Reg.CTX_CFG then p.ctxCfgWrite c v
  else if base = Reg.CTX_SVC_BASE then p.svcBaseWrite c v
  else if base = Reg.CTX_OVF_CFG then p.ovfCfgWrite c v
  else if base = Reg.CTX_GRP then p.bothCrowns base (v.toNat &&& row.wmask)
  else if within Reg.CTX_PLIM 0x80 then p.plimWrite ((base - Reg.CTX_PLIM) / 4) v
  else if within Reg.WIN_ENT 0x2000 then p.winWrite ((base - Reg.WIN_ENT) / 32) ((base - Reg.WIN_ENT) / 8 % 4) v
  else if within Reg.HOST_FNPART 0x80 then p.fnpartWrite ((base - Reg.HOST_FNPART) / 4) v
  else if within Reg.HOST_SEG 0x8000 then
    let i := (base - Reg.HOST_SEG) / 16
    p.segWrite (i / 64) (i % 64) (base / 8 % 2) v
  else if within Reg.MGMT_PART 0x100 then p.setSh base (v.toNat &&& 0xC000000000000000)
  else if within Reg.MGMT_CRED 0x800 then p.setSh base (v.toNat &&& credMask ((base - Reg.MGMT_CRED) / 8 % 16))
  else if crownOwn base then p.modCrown c fun k => k.wr base (row.written (k.rd base) v)
  else p.setSh base (row.written (p.sh base) v)

/-- A write of a function's own BAR0. -/
def Panel.hostWrite (p : Panel) (f off bytes : Nat) (v : W64) : Nat × Panel :=
  if 0x1000000 ≤ off then (St.done, p)
  else if 0x10000 ≤ off ∧ off < 0x10000 + 64 * 4096 then
    let q := (off - 0x10000) / 64
    if p.qOwner q ≠ some f then (St.done, p)
    else match hitIn bar0qMap (off % 64) bytes true with
      | .wrong => (St.done, p.badAcc)
      | .reg _ base => (St.done, if base = 0 then p.qctlWrite f q v else p.qregWrite f q base v)
      | _ => (St.done, p)
  else match hitIn bar0Map off bytes true with
    | .wrong => (St.done, p.badAcc)
    | .reg _ base =>
      (St.done, if base = Reg.HOST_FN_ERR_CLR ∧ v.getLsbD 0 then p.modFn f fun k => { k with regs := rfSet k.regs Reg.HOST_FN_ERR 0 } else p)
    | _ => (St.done, p)

/-- A write whose code says that it is performed: RO and RC registers ignore theirs, but CORE_PART, which root firmware writes. -/
def performed (die : Die) (row : RegRow) (base : Nat) : Bool :=
  match die with
  | .core _ => base == Reg.CORE_PART || !(row.acc == .ro || row.acc == .rc)
  | _ => !(row.acc == .ro || row.acc == .rc)

/-- A write of a register by a requester: status and panel. -/
def Panel.regWrite (p : Panel) (who : Requester) (die : Die) (off bytes : Nat) (v : W64) : Nat × Panel :=
  let hit := dieHit die off bytes true
  if ¬ inBlock die off then (St.notPermitted, p)
  else if ¬ p.answers die off then (St.siteRetired, p)
  else if ¬ p.ringReach who die ∨ ¬ p.mayWrite who die off (hit == .rsv) then (St.notPermitted, p.refuseWrite who die off)
  else match die, hit with
    | .bar0 f, _ => p.hostWrite f off bytes v
    | .hub h, .wrong =>
      if off - off % 8 = Reg.HUB_CMD_PTR ∧ bytes = 4 then (St.timedOut, p.badAcc.modHub h fun k => k.bump Reg.HUB_CMD_REFUSE_CNT)
      else (St.done, p.badAcc)
    | _, .wrong => (St.done, p.badAcc)
    | die, .reg row base =>
      if ¬ performed die row base then (St.done, p)
      else match die with
        | .core n => (St.done, p.coreWrite n row base v)
        | .hub h => p.hubWrite who h row base v
        | .port d => (St.done, p.portWrite d row base v)
        | .crown c => (St.done, p.crownWriteReg c row base v)
        | .bar0 _ => (St.done, p)
    | _, _ => (St.done, p)

end Sys2Proof.Machine
end

