-- ==== Sys2Proof/Machine/RegCommands.lean ====
section
/-! DEFINITION. The commands that are register accesses (R13–R16, R53, R61, R121, R152, R162, R172, R178, R202, R212, R233, R243,
R248, R309, R313, R348, R351, R353, R380, R389, R391, R393, R414, R446, R456, R457, R459, R513). -/

namespace Sys2Proof.Machine

open Host (Outcome)

/-! ### The general accesses -/

/-- A write made and answered. A requester that is not there makes none. -/
def Panel.wrote (p : Panel) (who : Requester) (die : Die) (off bytes : Nat) (v : W64) : Panel :=
  if ¬ p.asks who then p
  else
    let x := p.regWrite who die off bytes v
    x.2.emit (.answer who 0 x.1)

/-- A read made and answered; `events` count in the cycle in which it clears a counter. -/
def Panel.readBy (p : Panel) (who : Requester) (die : Die) (off bytes events : Nat) : Panel :=
  if ¬ p.asks who then p
  else
    let x := p.regRead who die off bytes events
    x.2.2.emit (.answer who (BitVec.ofNat 64 x.2.1).toNat x.1)

/-- The crown through which a requester reaches registers that both crowns show alike: its own. -/
def Panel.viaCrown (p : Panel) (who : Requester) : Crown := (p.sender who).getD (p.leader 0)

/-- A write of a crown register. -/
def State.crownReg (s : State) (who : Requester) (off bytes : Nat) (v : W64) : Outcome State Fault Refusal :=
  s.onPanel fun p => p.wrote who (.crown (p.viaCrown who)) off bytes v

/-- REGISTER_WRITE. -/
def execRegisterWrite (who : Requester) (die : Die) (off bytes : Nat) (value : W64) (s : State) : Outcome State Fault Refusal :=
  s.onPanel fun p => p.wrote who die off bytes value

/-- An access that R13 calls a wrong-width one. -/
def wrongWidth (die : Die) (off bytes : Nat) (isWrite : Bool) : Bool :=
  match die with
  | .bar0 _ =>
    if 0x1000000 ≤ off then dieHit (.crown (if off < 0x1100000 then .north else .south)) (off % 0x100000) bytes isWrite == .wrong
    else if 0x10000 ≤ off then hitIn bar0qMap (off % 64) bytes isWrite == .wrong
    else dieHit die off bytes isWrite == .wrong
  | _ => dieHit die off bytes isWrite == .wrong

/-- WRONG_WIDTH_ACCESS: a write is ignored, a read returns zero, and the access is counted. -/
def execWrongWidthAccess (who : Requester) (die : Die) (off bytes : Nat) (isWrite : Bool) (s : State) :
    Outcome State Fault Refusal :=
  s.onPanel fun p =>
    if ¬ wrongWidth die off bytes isWrite then p
    else if isWrite then p.wrote who die off bytes 0
    else p.readBy who die off bytes 0

/-- RC_COUNTER_READ. -/
def execRcCounterRead (who : Requester) (die : Die) (off events : Nat) (s : State) : Outcome State Fault Refusal :=
  s.onPanel fun p => match dieHit die off 4 false with
    | .reg row _ => if row.acc = .rc then p.readBy who die off 4 events else p
    | _ => p

/-- LOW_HALF_READ_LATCH. -/
def execLowHalfReadLatch (who : Requester) (die : Die) (off : Nat) (s : State) : Outcome State Fault Refusal :=
  s.onPanel fun p => match dieHit die off 4 false with
    | .half _ _ false => p.readBy who die off 4 0
    | _ => p

/-! ### Registers of a core -/

def execSeqFaultClr (who : Requester) (n : Site) (value : W64) (s : State) : Outcome State Fault Refusal :=
  s.onPanel fun p => p.wrote who (.core n) Reg.SEQ_FAULT_CLR 4 value

def execMeFaultClr (who : Requester) (n : Site) (value : W64) (s : State) : Outcome State Fault Refusal :=
  s.onPanel fun p => p.wrote who (.core n) Reg.ME_FAULT_CLR 4 value

def execMeTblkBadClr (who : Requester) (n : Site) (value : W64) (s : State) : Outcome State Fault Refusal :=
  s.onPanel fun p => p.wrote who (.core n) Reg.ME_TBLK_BAD_CLR 4 value

def execVeFaultClr (who : Requester) (n : Site) (value : W64) (s : State) : Outcome State Fault Refusal :=
  s.onPanel fun p => p.wrote who (.core n) Reg.VE_FAULT_CLR 4 value

def execRuFaultClr (who : Requester) (n : Site) (value : W64) (s : State) : Outcome State Fault Refusal :=
  s.onPanel fun p => p.wrote who (.core n) Reg.RU_FAULT_CLR 4 value

def execSpadPlanWrite (who : Requester) (n : Site) (plan : Fin 32) (value : W64) (s : State) : Outcome State Fault Refusal :=
  s.onPanel fun p => p.wrote who (.core n) (Reg.SPAD_PLAN + 8 * plan) 8 value

def execSpadPlanCtlWrite (who : Requester) (n : Site) (plan : Fin 32) (value : W64) (s : State) : Outcome State Fault Refusal :=
  s.onPanel fun p => p.wrote who (.core n) (Reg.SPAD_PLAN_CTL + 4 * plan) 4 value

def execReshape (who : Requester) (n : Site) (value : W64) (s : State) : Outcome State Fault Refusal :=
  s.onPanel fun p => p.wrote who (.core n) Reg.SPAD_GRP_PWR 4 value

def execSpadErrClr (who : Requester) (n : Site) (value : W64) (s : State) : Outcome State Fault Refusal :=
  s.onPanel fun p => p.wrote who (.core n) Reg.SPAD_ERR_CLR 4 value

def execMeshRedWrite (who : Requester) (n : Site) (e : Fin 64) (value : W64) (s : State) : Outcome State Fault Refusal :=
  s.onPanel fun p => p.wrote who (.core n) (Reg.MESH_RED + 8 * e) 8 value

def execMeshInjCfgWrite (who : Requester) (n : Site) (v : Fin 4) (value : W64) (s : State) : Outcome State Fault Refusal :=
  s.onPanel fun p => p.wrote who (.core n) (Reg.MESH_INJ_CFG + 4 * v) 4 value

def execDmaFaultClr (who : Requester) (n : Site) (value : W64) (s : State) : Outcome State Fault Refusal :=
  s.onPanel fun p => p.wrote who (.core n) Reg.DMA_FAULT_CLR 4 value

def execClkCapWrite (who : Requester) (n : Site) (value : W64) (s : State) : Outcome State Fault Refusal :=
  s.onPanel fun p => p.wrote who (.core n) Reg.CLK_CAP 4 value

/-! ### Registers of edge dies -/

def execHubErrClr (who : Requester) (h : HubIx) (value : W64) (s : State) : Outcome State Fault Refusal :=
  s.onPanel fun p => p.wrote who (.hub h) Reg.HUB_ERR_CLR 4 value

def execHubBandWrite (who : Requester) (h : HubIx) (q : Fin 192) (value : W64) (s : State) : Outcome State Fault Refusal :=
  s.onPanel fun p => p.wrote who (.hub h) (Reg.HUB_BAND + 4 * q) 4 value

def execPortCfgWrite (who : Requester) (d : PortIx) (q : Fin 2) (value : W64) (s : State) : Outcome State Fault Refusal :=
  s.onPanel fun p => p.wrote who (.port d) (perPort Reg.PORT_CFG q) 4 value

def execPortPfcWrite (who : Requester) (d : PortIx) (q : Fin 2) (value : W64) (s : State) : Outcome State Fault Refusal :=
  s.onPanel fun p => p.wrote who (.port d) (perPort Reg.PORT_PFC q) 4 value

def execPortDevnumWrite (who : Requester) (d : PortIx) (value : W64) (s : State) : Outcome State Fault Refusal :=
  s.onPanel fun p => p.wrote who (.port d) Reg.PORT_DEVNUM 4 value

def execPortDevblk (who : Requester) (d : PortIx) (k : Fin 128) (value : W64) (s : State) : Outcome State Fault Refusal :=
  s.onPanel fun p => p.wrote who (.port d) (Reg.PORT_DEVBLK + 4 * k) 4 value

def execPortDevunblk (who : Requester) (d : PortIx) (k : Fin 128) (value : W64) (s : State) : Outcome State Fault Refusal :=
  s.onPanel fun p => p.wrote who (.port d) (Reg.PORT_DEVUNBLK + 4 * k) 4 value

/-! ### Registers of a crown -/

def execWinEntWrite (who : Requester) (w : Fin 256) (word : Fin 4) (value : W64) (s : State) : Outcome State Fault Refusal :=
  s.crownReg who (Reg.WIN_ENT + 32 * w + 8 * word) 8 value

def execCtxCfgWrite (who : Requester) (c : Crown) (value : W64) (s : State) : Outcome State Fault Refusal :=
  s.onPanel fun p => p.wrote who (.crown c) Reg.CTX_CFG 4 value

def execCtxSvcBaseWrite (who : Requester) (c : Crown) (value : W64) (s : State) : Outcome State Fault Refusal :=
  s.onPanel fun p => p.wrote who (.crown c) Reg.CTX_SVC_BASE 8 value

def execHostFnpartWrite (who : Requester) (f : HostFn) (value : W64) (s : State) : Outcome State Fault Refusal :=
  s.onPanel fun p => p.wrote who (.crown .north) (Reg.HOST_FNPART + 4 * f) 4 value

def execHostSegWrite (who : Requester) (f : HostFn) (seg : Fin 64) (word : Fin 2) (value : W64) (s : State) :
    Outcome State Fault Refusal :=
  s.onPanel fun p => p.wrote who (.crown .north) (Reg.HOST_SEG + 16 * (64 * f + seg) + 8 * word) 8 value

def execHandover (who : Requester) (value : W64) (s : State) : Outcome State Fault Refusal := s.crownReg who Reg.CLK_ESC_CMD 4 value

/-- SETPOINT_CHANGE: a write of CLK_SP_CTL with `go`. -/
def execSetpointChange (who : Requester) (value : W64) (s : State) : Outcome State Fault Refusal :=
  s.crownReg who Reg.CLK_SP_CTL 4 (value ||| 0x80000000)

/-- SETPOINT_CANCEL: a write of CLK_SP_CTL with `cancel`. -/
def execSetpointCancel (who : Requester) (value : W64) (s : State) : Outcome State Fault Refusal :=
  s.crownReg who Reg.CLK_SP_CTL 4 (value ||| 0x40000000)

/-- REGION_POWER_ON and REGION_POWER_OFF: a write of PWR_RGN_CMD with and without `on`. -/
def execRegionPowerOn (who : Requester) (value : W64) (s : State) : Outcome State Fault Refusal :=
  s.crownReg who Reg.PWR_RGN_CMD 4 (value ||| 0x80000000)
def execRegionPowerOff (who : Requester) (value : W64) (s : State) : Outcome State Fault Refusal :=
  s.crownReg who Reg.PWR_RGN_CMD 4 (value &&& 0x7FFFFFFF)

/-- BOOT_CMD with a command code, `force`, and the site of a vacate. -/
def bootWord (cmd : Nat) (force : Bool) (n : Nat) : W64 := BitVec.ofNat 64 (cmd * 2 ^ 28 + b2n force * 2 ^ 27 + siteC n * 256 + siteR n)

def execRestartFast (who : Requester) (s : State) : Outcome State Fault Refusal := s.crownReg who Reg.BOOT_CMD 4 (bootWord 1 false 0)
def execRestartFull (who : Requester) (s : State) : Outcome State Fault Refusal := s.crownReg who Reg.BOOT_CMD 4 (bootWord 2 false 0)
def execFullStartNext (who : Requester) (s : State) : Outcome State Fault Refusal := s.crownReg who Reg.BOOT_CMD 4 (bootWord 3 false 0)
def execRetrainNorth (who : Requester) (force : Bool) (s : State) : Outcome State Fault Refusal :=
  s.crownReg who Reg.BOOT_CMD 4 (bootWord 4 force 0)
def execRetrainSouth (who : Requester) (force : Bool) (s : State) : Outcome State Fault Refusal :=
  s.crownReg who Reg.BOOT_CMD 4 (bootWord 5 force 0)
def execVacate (who : Requester) (n : Site) (s : State) : Outcome State Fault Refusal :=
  s.crownReg who Reg.BOOT_CMD 4 (bootWord 6 false n)

/-- BOOT_TEST_REQ with a kind. -/
def testWord (kind : Nat) (value : W64) : W64 := setFld value 63 60 kind

def execCoreSelfTest (who : Requester) (value : W64) (s : State) : Outcome State Fault Refusal :=
  s.crownReg who Reg.BOOT_TEST_REQ 8 (testWord 1 value)
def execScratchpadMarch (who : Requester) (value : W64) (s : State) : Outcome State Fault Refusal :=
  s.crownReg who Reg.BOOT_TEST_REQ 8 (testWord 2 value)
def execLinkRecalibration (who : Requester) (value : W64) (s : State) : Outcome State Fault Refusal :=
  s.crownReg who Reg.BOOT_TEST_REQ 8 (testWord 3 value)
def execSensorCalibration (who : Requester) (value : W64) (s : State) : Outcome State Fault Refusal :=
  s.crownReg who Reg.BOOT_TEST_REQ 8 (testWord 4 value)

/-! ### Error logs -/

/-- ERR_ACK of a die. -/
def errAckOff : Die → Option Nat
  | .core _ => some Reg.ERR_ACK_core
  | .hub _ => some Reg.ERR_ACK_hub
  | .port _ => some Reg.ERR_ACK_port
  | .crown _ => some Reg.ERR_ACK_crown
  | .bar0 _ => none

def execErrAck (who : Requester) (die : Die) (value : W64) (s : State) : Outcome State Fault Refusal :=
  s.onPanel fun p => match errAckOff die with
    | none => p
    | some off => p.wrote who die off 4 value

end Sys2Proof.Machine
end

