-- ==== Sys2Proof/Machine/Access.lean ====
section
/-! DEFINITION. Packets where they arrive: at a core (R63, R79, R80, R82, R166–R170, R184, R185, R201, R206, R221, R532), a hub
(R289–R292, R296, R300, R308), a port die (R348) and a crown (R52, R484, R532), and the hop that brings them there (R194). -/

namespace Sys2Proof.Machine

open Host (Outcome)

/-! ### Register accesses of packets (R12–R17, R87) -/

/-- The requester of a packet's register access. -/
def packetWho (h : Header) : Requester :=
  if h.fromCore then .meshCore (Fin.ofNat 336 (siteOf h.sc h.sr)) h.part
  else if h.fromCrown then .meshCrown h.part
  else .meshEdge h.part

/-- A register access over the mesh: performed under the block's rules, and answered. -/
def Panel.serveReg (p : Panel) (i : Issuer) (die : Die) (off : Nat) (x : Packet) : Panel :=
  let who := packetWho x.hdr
  if x.hdr.opcode = Opc.readReq then
    let ret := returnGA x
    let r := p.regRead who die off x.hdr.bytes 0
    if St.ok r.1 then
      r.2.2.readAnswer i x.hdr ret r.1 (readUnits x.hdr ret (unitsOf x.hdr.ga (leBytes x.hdr.bytes r.2.1)))
    else r.2.2.readRefuse i x.hdr ret r.1
  else
    let pl := x.payload
    if pl.2.1 then p.complete i x.hdr St.uncorrectable
    else
      let r := p.regWrite who die off x.hdr.bytes (BitVec.ofNat 64 (leNat pl.1))
      r.2.complete i x.hdr r.1

/-! ### At a core -/

/-- The packet passes the partition check of R184. -/
def Core.takes (k : Core) (x : Packet) : Bool := k.admits x.hdr.part

def Core.partRefuse (k : Core) : Core := k.bump Reg.MESH_PART_REFUSE_CNT

/-- A packet refused at a core: counted, and answered where it has an answer (R184, R532). -/
def Panel.coreRefuse (p : Panel) (n : Nat) (x : Packet) : Panel :=
  (p.modCore n Core.partRefuse).refuse (.core n) x St.notPermitted

/-- The packet at the head of a core's arrivals on a channel, when its opcode is the one named. -/
def Panel.nextArr (p : Panel) (n v op : Nat) : Option Packet :=
  match (p.core n).arrived v with
  | [] => none
  | x :: _ => if x.hdr.opcode = op then some x else none

/-- That packet taken. -/
def Panel.popArr (p : Panel) (n v : Nat) : Panel := p.modCore n fun k => k.popArr v

/-- A packet for the scratchpad staged; it stays at the head while staging has no room. While the groups are closed it is refused
with BANK_ASLEEP (R172, R173). -/
def Panel.stageIn (p : Panel) (n v : Nat) (kind : StageKind) (x : Packet) : Panel :=
  let k := p.core n
  if k.spad.reshape.isSome then ((p.popArr n v).modCore n Core.asleep).refuse (.core n) x St.bankAsleep
  else match k.stage kind x with
    | none => p
    | some k => p.setCore n (k.popArr v)

/-- A request for a core's scratchpad or registers: checked, then staged, or performed as a register access. -/
def Panel.coreRequest (p : Panel) (n : Nat) (op : Nat) (kind : StageKind) : Panel :=
  match p.nextArr n 0 op with
  | none => p
  | some x =>
    if ¬ (p.core n).takes x then (p.popArr n 0).coreRefuse n x
    else if bits x.hdr.ga 55 52 = 0 then p.stageIn n 0 kind x
    else if bits x.hdr.ga 55 52 = 1 ∧ op ≠ Opc.writeAcc then
      (p.popArr n 0).serveReg (.core n) (.core (Fin.ofNat 336 n)) (bits x.hdr.ga 19 0) x
    else (p.popArr n 0).coreRefuse n x

/-- WRITE. -/
def execWrite (n : Site) (s : State) : Outcome State Fault Refusal := s.atCore n fun _ p => p.coreRequest n Opc.write .write

/-- READ_REQ. -/
def execReadReq (n : Site) (s : State) : Outcome State Fault Refusal := s.atCore n fun _ p => p.coreRequest n Opc.readReq .read

/-- The accumulate type of a packet; a reserved one is not taken (R166, R179). -/
def accType (h : Header) : Option Nat := if 1 ≤ h.rtype ∧ h.rtype ≤ 4 then some h.rtype else none

/-- WRITE_ACC. -/
def execWriteAcc (n : Site) (s : State) : Outcome State Fault Refusal :=
  s.atCore n fun _ p => match p.nextArr n 0 Opc.writeAcc with
    | none => p
    | some x => match accType x.hdr with
      | some t => p.coreRequest n Opc.writeAcc (.acc t)
      | none => (p.popArr n 0).coreRefuse n x

/-- MCAST_WRITE: a copy delivered to a target core. -/
def execMcastWrite (n : Site) (s : State) : Outcome State Fault Refusal :=
  s.atCore n fun k p => match p.nextArr n 3 Opc.mcast with
    | none => p
    | some x => if k.takes x then p.stageIn n 3 .write x else (p.popArr n 3).coreRefuse n x

/-- A REDUCE that finds the groups closed is not applied (R173, R206). -/
def Core.reduceAsleep (k : Core) (dial n : Nat) (h : Header) : Core :=
  ((k.asleep).bump Reg.MESH_RED_FAIL_CNT).logErr dial n
    { cls := 0x17, level := 1, unit := 0, status := St.bankAsleep, addr := h.ga % 2 ^ 27 }

/-- REDUCE_DELIVERY. -/
def execReduceDelivery (n : Site) (s : State) : Outcome State Fault Refusal :=
  s.atCore n fun k p => match p.nextArr n 2 Opc.reduce with
    | none => p
    | some x => match k.takes x, accType x.hdr with
      | true, some t =>
        if k.spad.reshape.isSome then (p.popArr n 2).modCore n fun k => k.reduceAsleep p.dial n x.hdr
        else p.stageIn n 2 (.acc t) x
      | _, _ => (p.popArr n 2).modCore n Core.partRefuse

/-- Every entry staged before has been performed (R170). -/
def Core.drainedStaging (k : Core) : Bool := k.spad.staging.all (·.status.isSome)

/-- Where R63 takes a START from. -/
def startSource (h : Header) : StartFrom := if h.fromCore then .core else if h.fromCrown then .crown else .other

/-- A START packet at a core: the checks of R184, R532 and R63. -/
def Panel.startIn (p : Panel) (n : Nat) (x : Packet) : Panel :=
  let k := p.core n
  let count (p : Panel) : Panel := p.modCore n fun k => k.bump Reg.SEQ_START_REFUSE_CNT
  if ¬ k.takes x then (count p).coreRefuse n x
  else if x.hdr.bytes ≠ 96 then (count p).refuse (.core n) x St.notPermitted
  else
    let pl := x.payload
    let r := k.takeStart p.fuses.lwidth (startSource x.hdr) x.hdr.part pl.1 pl.2.1
    (p.setCore n r.2).complete (.core n) x.hdr r.1

/-- START: an entry written by the management ring, or the message at the head of the arrivals. -/
def execStart (n : Site) (ringEntry : Option (BitVec 768)) (s : State) : Outcome State Fault Refusal :=
  s.atCore n fun k p => match ringEntry with
    | some e =>
      let r := k.takeStart p.fuses.lwidth .ring 0 (leBytes 96 e.toNat) false
      (p.setCore n r.2).emit (.startAnswer n r.1)
    | none => match p.nextArr n 0 Opc.msg with
      | none => p
      | some x =>
        if x.hdr.mkind = 1 ∧ bits x.hdr.ga 19 0 = 0 ∧ k.drainedStaging then (p.popArr n 0).startIn n x else p

/-- The head of a message as the inbox keeps it: the sender's coordinates and kind. R78 gives none for a port or hub die: a free
value stands there. -/
def Panel.inboxMsg (p : Panel) (x : Packet) (payload : List Byte) : InboxMsg × Panel :=
  let h := x.hdr
  let src := siteOf h.sc h.sr
  if h.fromCore then
    ({ tag := h.mtag, sx := (p.site src).lx, sy := h.sr, kind := 0, payload := payload }, p)
  else match attDie src h.sedge with
    | some (.crown c _) => ({ tag := h.mtag, sx := 0, sy := 0, kind := c.num + 1, payload := payload }, p)
    | _ =>
      let d := p.draw
      let v := d.1.toNat
      ({ tag := h.mtag, sx := v % 32, sy := v / 32 % 16, kind := v / 512 % 4, payload := payload }, d.2)

/-- A message for the inbox (R80). -/
def Panel.inboxIn (p : Panel) (n : Nat) (x : Packet) : Panel :=
  let k := p.core n
  let refuse (st : Nat) : Panel := (p.modCore n fun k => k.bump Reg.SEQ_INBOX_REFUSE_CNT).refuse (.core n) x st
  let pl := x.payload
  if ¬ k.takes x then (p.modCore n fun k => k.bump Reg.SEQ_INBOX_REFUSE_CNT).coreRefuse n x
  else if 64 < x.hdr.bytes then refuse St.notPermitted
  else if pl.2.1 then refuse St.uncorrectable
  else if 128 ≤ k.seq.inbox.length then refuse St.timedOut
  else
    let m := p.inboxMsg x pl.1
    (m.2.modCore n fun k => { k with seq := { k.seq with inbox := k.seq.inbox ++ [m.1] } }).complete (.core n) x.hdr St.done

/-- MSG: placed in the inbox or the start queue once the rows staged before it are performed; one that a core does not take is
refused (R532). -/
def execMsg (n : Site) (s : State) : Outcome State Fault Refusal :=
  s.atCore n fun k p => match p.nextArr n 0 Opc.msg with
    | none => p
    | some x =>
      if ¬ k.drainedStaging then p
      else
        let p := p.popArr n 0
        if bits x.hdr.ga 19 0 ≠ 0 ∨ bits x.hdr.ga 55 52 ≠ 1 ∨ 2 ≤ x.hdr.mkind then p.coreRefuse n x
        else if x.hdr.mkind = 1 then p.startIn n x
        else p.inboxIn n x

/-- SEM_SIGNAL_PACKET: applied once the rows staged before it are performed (R79, R170). -/
def execSemSignalPacket (n : Site) (s : State) : Outcome State Fault Refusal :=
  s.atCore n fun k p => match p.nextArr n 0 Opc.semSignal with
    | none => p
    | some x =>
      if ¬ k.drainedStaging then p
      else
        let p := p.popArr n 0
        match entryOf (bits x.hdr.ga 19 0) Reg.SEQ_SEM 4 256 with
        | none => p.coreRefuse n x
        | some i =>
          if ¬ k.takes x then (p.modCore n fun k => k.bump Reg.SEQ_SEM_REFUSE_CNT).coreRefuse n x
          else if x.hdr.ga % 4 ≠ 0 ∨ bits x.hdr.ga 55 52 ≠ 1 ∨ 3 ≤ x.hdr.rtype then p.coreRefuse n x
          else (p.modCore n fun k => k.semOp i x.hdr.rtype x.hdr.sval).complete (.core n) x.hdr St.done

/-! ### Answers (R82, R185, R221, R512) -/

/-- A reserved status is logged with class 0x06 by its receiver. -/
def reservedItem (st part : Nat) : LogItem := { cls := 0x06, level := 1, status := st, part := part }

/-- A COMPLETION or READ_DATA at a core: matched to what awaits it, or discarded as late. -/
def Panel.coreAnswer (p : Panel) (n : Nat) (x : Packet) : Panel :=
  let k := p.core n
  if ¬ k.takes x then p.modCore n Core.partRefuse
  else
    let seq := x.hdr.seq
    let st := St.taken x.hdr.status
    let p := if 0x0C < x.hdr.status then p.logCore n (reservedItem x.hdr.status 0) else p
    let late (p : Panel) : Panel := p.modCore n fun k => k.bump Reg.DMA_LATE_CNT
    match k.trackOf seq with
    | some (ch, entry, t) =>
      if t.isRead then
        if x.hdr.opcode = Opc.readData then p.modCore n fun k => k.dmaReadData (p.at' n) ch entry t x
        else p.modCore n fun k => k.dmaCompletion ch entry t st
      else if x.hdr.opcode = Opc.completion then p.modCore n fun k => k.dmaCompletion ch entry t st
      else late p
    | none =>
      if x.hdr.opcode ≠ Opc.completion then late p
      else match k.seq.remote.find? (·.seq = seq) with
        | some o => p.modCore n fun k =>
            ({ k with seq := { k.seq with remote := k.seq.remote.filter (·.seq ≠ seq) } } : Core).remoteEnd o.own st
        | none =>
          if seq ∈ k.seq.reports then
            p.modCore n fun k => { k with seq := { k.seq with reports := k.seq.reports.filter (· ≠ seq) } }
          else late p

/-- An answer at a crown: matched to its own request, or discarded. -/
def Panel.crownIn (p : Panel) (c : Crown) (x : Packet) : Panel :=
  let k := p.crown c
  let p := if 0x0C < x.hdr.status then p.logCrown c (.crown c) (reservedItem x.hdr.status (0x80 + x.hdr.part)) else p
  match k.matched x.hdr.seq with
  | none => p
  | some (use, _) =>
    let pl := x.payload
    (p.modCrown c fun k => { k with asked := k.asked.filter (·.1 ≠ x.hdr.seq) }).crownAnswer c use (St.taken x.hdr.status) pl.1 pl.2.1

/-- The answer at the head of an endpoint's VC1 arrivals, when its opcode is the one named. -/
def Panel.arrAnswer (p : Panel) (e : Endpoint) (op : Nat) : Panel :=
  match e with
  | .core n =>
    if ¬ (p.core n).clocked then p
    else match p.nextArr n 1 op with
      | none => p
      | some x => (p.popArr n 1).coreAnswer n x
  | .hub h a =>
    let k := p.hub h
    match look [] k.arr (4 * a + 1) with
    | [] => p
    | x :: rest =>
      if k.lost ∨ x.hdr.opcode ≠ op then p
      else
        let p := p.setHub h { k with arr := put k.arr (4 * a + 1) rest }
        let p := if 0x0C < x.hdr.status then p.logHub h (reservedItem x.hdr.status (0x80 + x.hdr.part)) else p
        p.hubAnswer h x
  | .port d q =>
    match look [] (p.port d).arr (4 * q + 1) with
    | [] => p
    | x :: _ => if x.hdr.opcode ≠ op ∨ ¬ p.portHere d q then p else p.answerAt d q
  | .crown c =>
    let k := p.crown c
    match look [] k.arr 1 with
    | [] => p
    | x :: rest =>
      if k.lost ∨ x.hdr.opcode ≠ op then p
      else (p.setCrown c { k with arr := put k.arr 1 rest }).crownIn c x

/-- COMPLETION. -/
def execCompletion (e : Endpoint) (s : State) : Outcome State Fault Refusal := s.onPanel fun p => p.arrAnswer e Opc.completion

/-- READ_DATA. -/
def execReadData (e : Endpoint) (s : State) : Outcome State Fault Refusal := s.onPanel fun p => p.arrAnswer e Opc.readData

/-! ### At a hub (R289–R292, R296, R300, R308) -/

/-- The request at the head of a hub attachment's VC0 arrivals. -/
def Panel.hubHead (p : Panel) (h a : Nat) : Option Packet :=
  if (p.hub h).lost then none else (look [] (p.hub h).arr (4 * a)).head?

def Panel.popHub (p : Panel) (h a v : Nat) : Panel :=
  p.modHub h fun k => { k with arr := put k.arr (4 * a + v) (look [] k.arr (4 * a + v)).tail }

/-- The stack offset of a class 0x2 request at a hub. -/
def stackOff (f : Fuses) (ga : Nat) : Nat :=
  if ga.testBit 41 then bits ga 35 0
  else
    let a := bits ga 40 0
    a / 4096 / f.stacks.length * 4096 + a % 4096

/-- The status that refuses a class 0x2 request, and its counter. -/
def Hub.refuses (k : Hub) (off : Nat) (h : Header) (writes : Bool) : Option (Nat × Option Nat) :=
  if k.stack ≠ 2 then some (St.uncorrectable, none)
  else (k.refusal off h.bytes h.part h.fromCrown writes).map fun c => (St.notPermitted, some c)

/-- A request refused at a hub. -/
def Panel.hubRefuse (p : Panel) (h a : Nat) (x : Packet) (r : Nat × Option Nat) : Panel :=
  let p := match r.2 with
    | none => p
    | some c => p.modHub h fun k => k.bump c
  p.refuse (.hub h a) x r.1

/-- A write of the stack: unit by unit, and answered. -/
def Panel.stackWrite (p : Panel) (h a : Nat) (x : Packet) : Panel :=
  let k := p.hub h
  let off := stackOff p.fuses x.hdr.ga
  match k.refuses off x.hdr true with
  | some r => p.hubRefuse h a x r
  | none =>
    if k.overOpen off x.hdr.bytes then (p.setHub h (k.breakUnopened off x.hdr.bytes)).refuse (.hub h a) x St.notPermitted
    else
      let w : HubAt := { dial := p.dial, hub := h, src := 1, part := 0x80 + x.hdr.part }
      let r := k.writeBytes w off x.mbytes
      let pl := x.payload
      let st := St.merge (if pl.2.1 then St.uncorrectable else if pl.2.2 ≠ 0 then St.corrected else St.done) r.1
      (p.setHub h (r.2.sectionWrite off x.hdr.bytes (x.hdr.sc, x.hdr.sr, x.hdr.sedge))).complete (.hub h a) x.hdr st

/-- A read of the stack. -/
def Panel.stackRead (p : Panel) (h a : Nat) (x : Packet) : Panel :=
  let k := p.hub h
  let off := stackOff p.fuses x.hdr.ga
  match k.refuses off x.hdr false with
  | some r => p.hubRefuse h a x r
  | none =>
    let w : HubAt := { dial := p.dial, hub := h, src := 0, part := 0x80 + x.hdr.part }
    let r := Hub.readCws w (off / 32) (cdiv (off % 32 + x.hdr.bytes) 32) k
    let st :=
      if r.1.any (·.1 = .bad) then St.uncorrectable else if r.1.any (·.1 = .corrected) then St.corrected else St.done
    let ret := returnGA x
    (p.setHub h r.2).readAnswer (.hub h a) x.hdr ret st (readUnits x.hdr ret (r.1.map (·.2)))

/-- The offset of HUB_CMD_PTR, at either half. -/
def atPtr (ga : Nat) : Bool := bits ga 55 52 == 3 && (bits ga 19 0) / 8 * 8 == Reg.HUB_CMD_PTR

/-- HUB_WRITE. -/
def execHubWrite (h : HubIx) (a : Fin 2) (s : State) : Outcome State Fault Refusal :=
  s.onPanel fun p => match p.hubHead h a with
    | none => p
    | some x =>
      if x.hdr.opcode ≠ Opc.write ∨ atPtr x.hdr.ga then p
      else if bits x.hdr.ga 55 52 = 2 then (p.popHub h a 0).stackWrite h a x
      else (p.popHub h a 0).serveReg (.hub h a) (.hub h) (bits x.hdr.ga 19 0) x

/-- HUB_READ_REQ. -/
def execHubReadReq (h : HubIx) (a : Fin 2) (s : State) : Outcome State Fault Refusal :=
  s.onPanel fun p => match p.hubHead h a with
    | none => p
    | some x =>
      if x.hdr.opcode ≠ Opc.readReq then p
      else if bits x.hdr.ga 55 52 = 2 then (p.popHub h a 0).stackRead h a x
      else (p.popHub h a 0).serveReg (.hub h a) (.hub h) (bits x.hdr.ga 19 0) x

/-- HUB_CMD_PTR: a write of HUB_CMD_PTR; the pointer that it enqueues is taken by a free place. -/
def execHubCmdPtr (h : HubIx) (a : Fin 2) (s : State) : Outcome State Fault Refusal :=
  s.onPanel fun p => match p.hubHead h a with
    | none => p
    | some x =>
      if x.hdr.opcode ≠ Opc.write ∨ ¬ atPtr x.hdr.ga then p
      else (p.popHub h a 0).serveReg (.hub h a) (.hub h) (bits x.hdr.ga 19 0) x

/-! ### What an edge die answers as it takes a packet (R52, R289, R348, R484, R532) -/

/-- A hub does not take this packet. -/
def Panel.hubServe (p : Panel) (h a v : Nat) : Panel :=
  match look [] (p.hub h).arr (4 * a + v) with
  | [] => p
  | x :: _ =>
    if v = 0 ∧ (x.hdr.opcode = Opc.write ∨ x.hdr.opcode = Opc.readReq) then p
    else ((p.popHub h a v).modHub h fun k => k.bump Reg.HUB_PART_REFUSE_CNT).refuse (.hub h a) x St.notPermitted

/-- A port die serves its own registers; class 0x6 requests wait for REMOTE_REQUEST. -/
def Panel.portServe (p : Panel) (d : PortIx) (q v : Nat) : Panel :=
  match look [] (p.port d).arr (4 * q + v) with
  | [] => p
  | x :: rest =>
    if v = 0 ∧ bits x.hdr.ga 55 52 = 6 then p
    else
      let p := p.modPort d fun k => { k with arr := put k.arr (4 * q + v) rest }
      if x.hdr.opcode = Opc.write ∨ x.hdr.opcode = Opc.readReq then p.serveReg (.port d q) (.port d) (bits x.hdr.ga 19 0) x
      else p.refuse (.port d q) x St.notPermitted

/-- A context slot that a mesh read may see (R484). -/
def Panel.slotShown (p : Panel) (h : Header) (off : Nat) : Option CtxEntry :=
  let m := (off - 0x1000000) / 128
  let e := p.ent m
  if 0x1000000 ≤ off ∧ off + h.bytes ≤ 0x1000000 + 128 * (m + 1) ∧ (h.fromCore ∨ h.fromCrown) ∧ e.state ≠ 0 ∧ e.part = h.part ∧
      (p.sh (Reg.MGMT_PART + 8 * h.part)).testBit 62 then some e
  else none

/-- A crown serves reads of context slots, and refuses what it does not take; messages wait for CTX_MSG_RECEIVE. -/
def Panel.crownServe (p : Panel) (c : Crown) (v : Nat) : Panel :=
  match look [] (p.crown c).arr v with
  | [] => p
  | x :: rest =>
    if v = 0 ∧ x.hdr.opcode = Opc.msg then p
    else
      let i : Issuer := .crown c x.hdr.dc
      let p := p.modCrown c fun k => { k with arr := put k.arr v rest }
      if x.hdr.opcode = Opc.readReq then
        let off := bits x.hdr.ga 31 0
        let ret := returnGA x
        match p.slotShown x.hdr off with
        | some e =>
          let bs := (e.bytes.drop (off % 128)).take x.hdr.bytes
          p.readAnswer i x.hdr ret St.done (readUnits x.hdr ret (unitsOf x.hdr.ga bs))
        | none => p.readRefuse i x.hdr ret St.notPermitted
      else if x.hdr.opcode = Opc.write then p.complete i x.hdr St.notPermitted
      else (p.cbump c Reg.CTX_MSG_REFUSE_CNT).refuse i x St.notPermitted

/-- What a die behind an edge port of a site answers at once. -/
def Panel.edgeServe (p : Panel) (n which v : Nat) : Panel :=
  if v = 1 then p
  else match attDie n which with
    | some (.hub h a) => if (p.hub h).lost then p else p.hubServe h a v
    | some (.port d q) => if (p.port d).lost then p else p.portServe (Fin.ofNat 8 d) q v
    | some (.crown c _) => if (p.crown c).lost then p else p.crownServe c v
    | none => p

/-! ### PACKET_HOP (R182, R194) -/

/-- A crown behind an edge port injects what it holds while its router takes it. -/
def Panel.edgePull (p : Panel) (n input : Nat) : Panel :=
  match attDie n (input - 5) with
  | some (.crown c _) => if (p.crown c).lost then p else Panel.crownPull c 64 p
  | _ => p

/-- PACKET_HOP: the packet at the head of an input buffer moves a step, and a die that takes it answers what it serves at
once. -/
def execPacketHop (n : Site) (input : Fin 9) (vc : Fin 4) (s : State) : Outcome State Fault Refusal :=
  s.atCore n fun _ p =>
    let p := if input = 6 ∨ input = 7 then p.edgePull n input else p
    ((p.hop n input vc).edgeServe n 1 vc).edgeServe n 2 vc

end Sys2Proof.Machine
end

