-- ==== Sys2Proof/Machine/BootStages.lean ====
section
/-! DEFINITION. The ten start-up stages: what each does, its configuration items and its records (R31–R33, R436–R449). -/

namespace Sys2Proof.Machine

/-! ### Failed items (R439, R447) -/

/-- An item that failed in a stage, as bytes 16–24 of a record name it, and the half whose record names it. -/
structure Failing where
  half : Nat
  dtype : Nat := 0
  dindex : Nat := 0
  site : Option Nat := none
  wport : Nat := 0xFF
  module : Nat := 0xFF
  lane : Nat := 0xFF
  cause : Nat := 0
  status : Nat := 0
  deriving DecidableEq, Repr

def Failing.core (n cause : Nat) : Failing := { half := halfOf n, dtype := 1, site := some n, cause := cause }
def Failing.stack (h cause : Nat) : Failing := { half := hubHalf h, dtype := 8, dindex := h, cause := cause }

/-- The die of a failed item. -/
def Failing.die (die : Die) (cause status : Nat) : Failing :=
  match die with
  | .core n => { Failing.core n cause with status := status }
  | .hub h => { half := hubHalf h, dtype := 2, dindex := h, cause := cause, status := status }
  | .port d => { half := d / 4, dtype := 3, dindex := d, cause := cause, status := status }
  | .crown c => { half := c.num, dtype := 4, dindex := c.num, cause := cause, status := status }
  | .bar0 _ => { half := 0, cause := cause, status := status }

/-! ### Configuration items (R444) -/

/-- One item applied to one die and read back. -/
def Panel.applyAt (p : Panel) (c : Crown) (i : ConfigItem) (die : Die) : Panel × List Failing :=
  let who : Requester := if i.flags.testBit 0 then .ringRoot c else .ringService c
  let bytes := if i.flags.testBit 1 then 8 else 4
  let x := p.regWrite who die i.offset bytes i.value
  let y := x.2.regRead who die i.offset bytes 0
  if 1 < x.1 then (x.2, [.die die 1 x.1])
  else if 1 < y.1 then (y.2.2, [.die die 1 y.1])
  else if y.2.1 ≠ i.value.toNat % 2 ^ (8 * bytes) then (y.2.2, [.die die 3 0])
  else (y.2.2, [])

/-- The items of a stage, as a crown applies those of its half, or of both halves when it leads them. -/
def Panel.applyItems (p : Panel) (c : Crown) (stage : Nat) (only : Die → Bool) : Panel × List Failing :=
  let mine (d : Die) : Bool := (dieHalf d == c.num || (p.crown c.other).lost) && only d
  let items : List ConfigItem := match p.inUse c 3 with
    | none => []
    | some f => (imageItems f.body).filter fun (i : ConfigItem) => i.after == stage
  items.foldl (fun acc i =>
    if ¬ itemOk i 2 9 then (acc.1, acc.2 ++ [({ half := c.num, cause := 5 } : Failing)])
    else ((acc.1.itemDies i).filter mine).foldl (fun acc die =>
      let r := acc.1.applyAt c i die
      (r.1, acc.2 ++ r.2)) acc) (p, [])

/-! ### Stage records (R447) -/

/-- A stage record. -/
def recordBytes (stage result : Nat) (c : Crown) (kind elapsed dial : Nat) (fs : List Failing) (cause : Nat) (detail : List Byte) :
    List Byte :=
  let f : Failing := fs.head?.getD { half := 0, cause := cause }
  let n := f.site.getD 0
  let b := leBytes 1 stage ++ leBytes 1 result ++ leBytes 1 c.num ++ leBytes 1 kind ++ leBytes 4 elapsed ++ leBytes 8 dial ++
    leBytes 1 f.dtype ++ leBytes 1 f.dindex ++ leBytes 1 (siteC n) ++ leBytes 1 (siteR n) ++ leBytes 1 f.wport ++
    leBytes 1 f.module ++ leBytes 1 f.lane ++ leBytes 1 f.cause ++ leBytes 1 f.status ++ [0, 0, 0] ++ leBytes 4 fs.length ++
    padTo 28 detail
  b ++ leBytes 4 (crc32 b)

/-- BOOT_REC[s, h]. -/
def recOff (stage h : Nat) : Nat := Reg.BOOT_REC + 64 * (2 * (stage - 1) + h)

/-- A record kept in both crowns and, from stage 2, sent to the observers. -/
def Panel.keepRecord (p : Panel) (stage : Nat) (c : Crown) (b : List Byte) : Panel :=
  let p := (List.range 16).foldl (fun p i => p.setSh (recOff stage c.num + 4 * i) (leAt b (4 * i) 4)) p
  if 2 ≤ stage then p.emit (.event 1 b) else p

/-- Bits of a list of numbers. -/
def maskOf (l : List Nat) : Nat := l.foldl (fun m i => m ||| 2 ^ i) 0

/-- Time limits of R436, µs. -/
def stageLimit (full : Bool) (stage : Nat) : Nat :=
  match stage with
  | 1 => 50000
  | 2 => 1000000
  | 3 => 20000
  | 4 => 200000
  | 5 => if full then 40000000 else 2000000
  | 6 => if full then 60000000 else 4000000
  | 7 => 3000000
  | 8 => if full then 80000000 else 8000000
  | 9 => if full then 30000000 else 3000000
  | _ => 1000000

/-- FULL_N in bit 2 and STOP in bits 1:0, as a crown samples its straps (R440; notes/assumptions/22.md). -/
def Straps.ofCrown (s : Straps) (c : Crown) : Nat :=
  match c with
  | .north => b2n (!s.fullLowNorth) * 4 + s.stopNorth
  | .south => b2n (!s.fullLowSouth) * 4 + s.stopSouth

/-! ### The repair map (R445) -/

/-- The fast starts since the last full start, as an entry keeps them. -/
def Panel.fastStarts (p : Panel) : Nat := bits (p.sh Reg.BOOT_STATUS) 18 12

/-- Entries added to the map of this start. -/
def Panel.addEnts (p : Panel) (es : List RepairEnt) : Panel :=
  { p with boot := { p.boot with repairs := p.boot.repairs ++ es.map fun (e : RepairEnt) => { e with start := p.fastStarts } } }

/-- A full start tests again what the map names under a type. -/
def Panel.retest (p : Panel) (type : Nat) : Panel :=
  if p.fullStart then { p with boot := { p.boot with repairs := p.boot.repairs.filter fun e => e.type != type } } else p

/-- A site that the map retires. -/
def Panel.mapRetires (p : Panel) (n : Nat) : Bool := p.boot.repairs.any fun e => e.type == 1 && e.site == n

/-- A site retired while the panel starts. -/
def Panel.bootRetire (p : Panel) (n cause : Nat) : Panel :=
  let p := if p.powered n then p.cutSite n else p
  let p := p.setSite n { p.site n with state := 3, lx := 0, cause := cause }
  { p with agents := p.agents.filter fun (x : Nat × Nat) => x.2 != n }

/-! ### Stages 2 to 4 -/

/-- Stage 3 (R375, R377): the escapements of the crowns that are there lock, and the dial mark is sent. -/
def Panel.markDial (p : Panel) (o : StageOutcome) : Panel :=
  let north := o.lockNorth && !(p.crown .north).lost
  let south := o.lockSouth && !(p.crown .south).lost
  if ¬ north ∧ ¬ south then p
  else
    let p := (p.setEsc 30 north).setEsc 28 north
    let p := ((p.setEsc 29 south).setEsc 27 south).setEsc 31 (!north)
    { p with dial := 0, dialRuns := true }

/-- The agent of a region elected (R43). -/
def Panel.electAgent (p : Panel) (g : Nat) : Panel :=
  match p.eligible g with
  | none => p
  | some n =>
    { p with agents := put p.agents g n
             elections := put p.elections g (satAdd 0xFF (look 0 p.elections g) 1)
             summaryAt := put p.summaryAt g p.dial }

/-- A region of the wave (R437): its converter and the regulators of its sites. -/
def Panel.powerRegion (p : Panel) (g : Nat) (o : StageOutcome) : Panel × List Failing :=
  if o.failedRegions.any fun x => x.val = g then
    let p := (regionSites g).foldl (fun p n => if p.fuses.fusedOff n then p else p.bootRetire n 4) (p.setRgn g 3)
    (p, [({ half := if g < 12 then 0 else 1, dtype := 5, dindex := g, cause := 6 } : Failing)])
  else
    (regionSites g).foldl (fun acc n =>
      let p := acc.1
      if p.fuses.fusedOff n then acc
      else if p.mapRetires n ∧ ¬ p.fullStart then (p.bootRetire n 1, acc.2)
      else if o.failedSites.any fun x => x.val = n then (p.bootRetire n 3, acc.2 ++ [.core n 6])
      else (p.startSite n, acc.2)) (p.setRgn g 2, [])

/-- The order of R437: both waves. -/
def regionWave : List Nat := [0, 1, 2, 3, 4, 5, 6, 7, 8, 9, 10, 11, 21, 22, 23, 18, 19, 20, 15, 16, 17, 12, 13, 14]

/-- Stage 4. -/
def Panel.powerUp (p : Panel) (o : StageOutcome) : Panel × List Failing :=
  let p := (List.range 8).foldl (fun p e => p.setEdge e 2) p
  let r := regionWave.foldl (fun acc g =>
    let x := acc.1.powerRegion g o
    (x.1, acc.2 ++ x.2)) (p, ([] : List Failing))
  ((List.range 24).foldl Panel.electAgent r.1, r.2)

/-! ### Stage 5: links (R186, R191) -/

/-- Modules of a mesh port (R186). -/
def portModules (port : Nat) : Nat := if port = 4 ∨ port = 5 then 2 else 4

/-- The edge die behind an edge port is there and powered. -/
def Panel.edgeThere (p : Panel) (n edge : Nat) : Bool :=
  match attDie n edge with
  | none => false
  | some (.hub h _) => p.fuses.hubPresent h && !(p.hub h).lost
  | some (.port d q) => decide (2 * d + q ∈ p.fuses.ports) && !(p.port d).lost
  | some (.crown c _) => !(p.crown c).lost

/-- Modules of a port disabled: as either end names them. -/
def badModules (bad : List (Nat × Nat × Nat)) (n port : Nat) : Nat :=
  let here (m q : Nat) : List Nat := (bad.filter fun x => x.1 == m && x.2.1 == q).map fun x => x.2.2
  let there := match portSite n port with
    | some m => if port < 6 then here m (farPort port) else []
    | none => []
  ((here n port ++ there).foldl insertNat []).length

/-- One port of a site after training: up, degraded, down or absent. -/
def Panel.trainPort (p : Panel) (bad : List (Nat × Nat × Nat)) (n port : Nat) : Panel :=
  let left := portModules port - badModules bad n port
  let l : LinkState :=
    if left = 0 then { state := 3 } else { state := if left < portModules port then 2 else 1, modules := left }
  if port < 6 then
    match portSite n port with
    | none => p
    | some m =>
      if p.powered m then p.modCore n fun k => k.setLink port l
      else if p.fuses.fusedOff m then p
      else p.modCore n fun k => k.setLink port { state := 3 }
  else if p.edgeThere n (port - 5) then p.modCore n fun k => k.setLink port l
  else p

/-- A link that joins the halves (R449). -/
def seamPort (n port : Nat) : Bool := (siteR n == 7 && port == 2) || (siteR n == 8 && port == 0)

/-- Modules that this start disables: those that failed, and those of the map. -/
def Panel.badList (p : Panel) : List (Nat × Nat × Nat) :=
  (p.boot.repairs.filter fun e => e.type == 2).map fun e => (e.site, e.port, e.module)

/-- Links of some sites trained, but for the seam. -/
def Panel.trainLinks (p : Panel) (sites : List Nat) : Panel :=
  let bad := p.badList
  (sites.filter p.powered).foldl (fun p n =>
    ((List.range 8).filter fun q => !seamPort n q).foldl (fun p q => p.trainPort bad n q) p) p

/-- Stage 5. -/
def Panel.stageFive (p : Panel) (o : StageOutcome) : Panel × List Failing :=
  let p := (p.retest 2).addEnts (o.failedModules.map fun x => { type := 2, site := x.1, port := x.2.1, module := x.2.2 })
  let p := p.trainLinks (List.range 336)
  ({ p with boot := { p.boot with retrained := p.boot.retrained + o.retrained } },
   o.failedModules.map fun x =>
     { Failing.core x.1 2 with wport := x.2.1, module := x.2.2 })

/-! ### Stage 6 -/

/-- Rows newly repaired take the next spare row of their bank. -/
def Panel.rowEnts (p : Panel) (rows : List (Site × Nat × Nat)) : Panel :=
  rows.foldl (fun p x =>
    let used := (p.boot.repairs.filter fun e => e.type == 3 && e.site == x.1.val && e.bank == x.2.1).length
    p.addEnts [{ type := 3, site := x.1, bank := x.2.1, row := x.2.2, spare := used }]) p

/-- Stage 6: cores stay in TEST. -/
def Panel.stageSix (p : Panel) (o : StageOutcome) : Panel × List Failing :=
  let bad := o.failedSites.filter fun n => p.powered n
  let p := ((p.retest 1).retest 3).rowEnts o.rowsRepaired
  let p := bad.foldl (fun p n => (p.bootRetire n 1).addEnts [{ type := 1, cause := 1, site := n }]) p
  ((List.range 24).foldl (fun p g => if (p.agentOf g).isNone then p.electAgent g else p) p, bad.map fun n => .core n 3)

/-! ### Stage 7 (R31–R33, R449) -/

/-- Step 2 of R449 for one kind: the crown with the lower generation takes the other's copy; none when that cannot be done. -/
def Panel.alignKind (p : Panel) (kind : Nat) : Option Panel :=
  let take (p : Panel) (c : Crown) (f : FlashCopy) : Option Panel :=
    if p.verifiable c kind f.body then
      let i := 1 - p.usedCopy c kind % 2
      some { p with flash := { p.flash with
        copies := put p.flash.copies (copyKey c kind i) f, used := put p.flash.used (8 * c.num + kind) i } }
    else none
  match p.inUse .north kind, p.inUse .south kind with
  | some x, some y => if x = y then some p else if x.gen < y.gen then take p .north y else if y.gen < x.gen then take p .south x else none
  | none, some y => take p .north y
  | some x, none => take p .south x
  | none, none => some p

def Panel.alignImages (p : Panel) : Option Panel := (p.alignKind 2).bind fun p => p.alignKind 3

/-- Columns of the seam whose two sites are powered. -/
def Panel.seamCols (p : Panel) : List Nat := (List.range 21).filter fun c => p.powered (siteOf c 7) && p.powered (siteOf c 8)

/-- A seam link enabled. -/
def Panel.raiseSeam (p : Panel) (cols : List Nat) : Panel :=
  let bad := p.badList
  (List.range 21).foldl (fun p c =>
    if cols.contains c then (p.trainPort bad (siteOf c 7) 2).trainPort bad (siteOf c 8) 0
    else
      let down (p : Panel) (n q : Nat) : Panel := if p.powered n then p.modCore n fun k => k.setLink q { state := 3 } else p
      down (down p (siteOf c 7) 2) (siteOf c 8) 0) p

/-- Logical columns of one row (R31, R33). -/
def Panel.mapRow (p : Panel) (r : Nat) : Panel :=
  let sites := (List.range 21).map fun c => siteOf c r
  let here := sites.filter fun n => !p.fuses.fusedOff n && (p.site n).state != 3
  let p := (sites.filter p.fuses.fusedOff).foldl (fun p n => p.placeSite n { p.site n with state := 4 }) p
  if p.rowSplit r then
    let p := here.foldl (fun p n => p.placeSite n { p.site n with state := 2, lx := 0, split := true }) p
    (sites.filter fun n => !here.contains n).foldl (fun p n => p.setSite n { p.site n with split := true }) p
  else
    let spare := siteOf (p.fuses.spareCol.getD r 20) r
    let act := if p.fuses.lwidth < here.length then here.filter (· != spare) else here
    let p := if act.length < here.length then p.placeSite spare { p.site spare with state := 2, lx := 0, split := false } else p
    ((List.range act.length).zip act).foldl (fun p x =>
      p.placeSite x.2 { p.site x.2 with state := 1, lx := x.1, split := false }) p

/-- Columns and route maps. -/
def Panel.mapRows (p : Panel) (rows : List Nat) : Panel :=
  let p := rows.foldl Panel.mapRow p
  ({ p with boot := { p.boot with mapped := true } } : Panel).writeMaps

/-- Stage 7: the panel, or the cause of its failure. -/
def Panel.stageSeven (p : Panel) (o : StageOutcome) : Except Nat Panel :=
  let alone := (p.crown .north).lost || (p.crown .south).lost
  let p' := if alone then some p else if o.imagesAlign then p.alignImages else none
  match p' with
  | none => .error 8
  | some p =>
    if ¬ alone ∧ o.seamUp = 0 then .error 2
    else
      let cols := if alone then p.seamCols else p.seamCols.take o.seamUp
      .ok (((p.raiseSeam cols).mapRows (List.range 16)).setShF Reg.BOOT_STATUS 21 21 1)

/-! ### Stages 8 and 9 -/

/-- The sites that carry a hub. -/
def hubSites (h : Nat) : List Nat := [attSite (hubAtt h 0), attSite (hubAtt h 1)]

/-- A stack trained, tested and zeroed; or lost. -/
def Panel.trainStack (p : Panel) (h : Nat) (o : StageOutcome) : Panel × List Failing :=
  if (hubSites h).any fun n => !p.powered n then (p.loseStack h 3, [.stack h 1])
  else if o.failedStacks.any fun x => x.val = h then (p.loseStack h 4, [.stack h 2])
  else
    let named := p.boot.repairs.any fun e => e.type == 4 && e.site == h
    let slow := named || o.slowStacks.any fun x => x.val = h
    let p := if slow ∧ ¬ named then p.addEnts [{ type := 4, site := h }] else p
    (p.modHub h fun k => { k with stack := 2, slow := slow, mem := {}, wbq := [], badTimes := [] },
     if slow then [.stack h 2] else [])

/-- Ports of a list that are enabled and have their attachment site begin to train (R312). -/
def Panel.alignPorts (p : Panel) (ports : List (Nat × Nat)) : Panel :=
  ports.foldl (fun p x =>
    if p.portHere x.1 x.2 ∧ p.pen x.1 x.2 ∧ p.powered (attSite (portAtt x.1 x.2)) ∧ (p.fport x.1 x.2).state = 1 then
      p.modF x.1 x.2 fun f => f.aligned (bits (p.pcfg x.1 x.2) 30 30) p.dial
    else p) p

/-- The fabric ports of the panel. -/
def Panel.portList (p : Panel) : List (Nat × Nat) := p.fuses.ports.map fun n => (n / 2, n % 2)

/-- Stage 8. -/
def Panel.stageEight (p : Panel) (o : StageOutcome) : Panel × List Failing :=
  let p := p.retest 4
  let hubs := (List.range 24).filter fun h => p.fuses.hubPresent h && !(p.hub h).lost
  let r := hubs.foldl (fun acc h =>
    let x := acc.1.trainStack h o
    (x.1, acc.2 ++ x.2)) (p, ([] : List Failing))
  let p := r.1
  let gone := maskOf ((List.range 24).filter fun h => p.fuses.hubPresent h && ((p.hub h).lost || (p.hub h).stack == 3))
  ({ p with lostStacks := gone, boot := { p.boot with retrained := p.boot.retrained + o.retrained } }, r.2)

/-- Stage 9: ports whose INIT exchange ended stay up, others go down; the host link at the rate and width reached. -/
def Panel.stageNine (p : Panel) (o : StageOutcome) : Panel × List Failing :=
  let r := p.portList.foldl (fun acc x =>
    let p := acc.1
    let f := p.fport x.1 x.2
    if ¬ p.portHere x.1 x.2 ∨ ¬ p.pen x.1 x.2 then acc
    else if f.state = 3 ∧ o.portsUp.any fun y => y.val = 2 * x.1 + x.2 then acc
    else (if 2 ≤ f.state then p.portFall x.1 x.2 1 else p,
      acc.2 ++ [({ half := x.1 / 4, dtype := 3, dindex := x.1, wport := 2 * x.1 + x.2, cause := 2 } : Failing)])) (p, ([] : List Failing))
  let p := r.1
  if (p.crown .north).lost then r
  else if 1 ≤ o.hostRate ∧ o.hostRate ≤ 6 ∧ o.hostWidth ∈ [1, 2, 4, 8, 16] then
    (p.modCrown .north fun k =>
      (((k.setF Reg.HOST_STATUS 31 31 1).setF Reg.HOST_STATUS 30 30 (b2n (o.hostRate == 6))).setF Reg.HOST_STATUS 29 27 o.hostRate).setF
        Reg.HOST_STATUS 26 22 o.hostWidth, r.2)
  else (p, r.2 ++ [({ half := 0, dtype := 4, cause := 2 } : Failing)])

/-! ### Stage 10 -/

/-- CTX_SVC_BASE of the crowns that are there names a service band (R296). -/
def Panel.svcReady (p : Panel) : Bool :=
  [Crown.north, Crown.south].all fun c =>
    (p.crown c).lost || (match p.decodeGA ((p.crown c).rd Reg.CTX_SVC_BASE % 2 ^ 56) with
      | .ok (.hbm h off) => (p.hub h).serviceBands off
      | _ => false)

/-- What stage 10 commits: whether the cache, and whether the map. -/
def Panel.commits (p : Panel) : Bool × Bool :=
  (p.fullStart || decide (0 < p.boot.retrained), decide (p.boot.repairs ≠ p.flash.repair))

/-- Stage 10: cache and map committed, service ready. -/
def Panel.stageTen (p : Panel) : Panel :=
  let x := p.commits
  let gen := if x.2 then p.flash.repairGen + 1 else p.flash.repairGen
  { p with
    flash := { p.flash with
      repair := p.boot.repairs, repairGen := gen, cache := if x.1 then some gen else p.flash.cache }
    serving := true, goodputAt := p.dial / ms }

/-! ### One stage -/

/-- The crowns that complete a stage. -/
def Panel.stageCrowns (p : Panel) (o : StageOutcome) : List Crown :=
  [Crown.north, Crown.south].filter fun c =>
    if p.stage = 1 then o.crownOk.contains c
    else if p.stage = 2 then o.crownOk.contains c && p.sh (recOff 1 c.num) != 0 && p.hasImages c
    else !(p.crown c).lost

/-- Stage 2 of the crowns that complete it. -/
def Panel.startRoot (p : Panel) (o : StageOutcome) (cs : List Crown) : Panel :=
  let p := cs.foldl (fun p c => (p.takeCopies c).modCrown c fun k => { k with svc := true, svcAt := 0 }) p
  let p := if cs.any fun c => !(p.crown c).rngBad then p.setSh Reg.MGMT_BOOT_ID o.bootId.toNat else p
  { p with boot := { p.boot with records := cs } }

/-- The work of the stage that runs: the panel, its failed items, and the cause that fails the start. -/
def Panel.runStage (p : Panel) (o : StageOutcome) : Panel × List Failing × Option Nat :=
  let cs := p.stageCrowns o
  let none' : List Failing := []
  match p.stage with
  | 1 =>
    let p := cs.foldl (fun p c => p.modCrown c fun k => k.setF Reg.MGMT_RING_STAT 29 28 3) p
    (p, none', if cs.isEmpty then some 1 else none)
  | 2 => if cs.isEmpty then (p, none', some 5) else (p.startRoot o cs, none', none)
  | 3 =>
    let p := p.markDial o
    (p, none', if p.dialRuns then none else some 2)
  | 4 =>
    let x := p.powerUp o
    (x.1, x.2, if (List.range 24).any fun g => x.1.rgnState g = 2 then none else some 6)
  | 5 => let x := p.stageFive o; (x.1, x.2, none)
  | 6 => let x := p.stageSix o; (x.1, x.2, none)
  | 7 => match p.stageSeven o with
    | .ok p => (p, none', none)
    | .error e => (p, none', some e)
  | 8 => let x := p.stageEight o; (x.1, x.2, none)
  | 9 => let x := p.stageNine o; (x.1, x.2, none)
  | _ => if p.svcReady then (p.stageTen, none', none) else (p, none', some 3)

/-- The `detail` bytes of a record, of the panel as the stage left it; `mine` tells the halves that the record covers. -/
def Panel.detail (p : Panel) (before : Panel) (o : StageOutcome) (stage : Nat) (c : Crown) (mine : Nat → Bool) : List Byte :=
  let sites := (List.range 336).filter fun n => mine (halfOf n)
  let on := sites.filter p.powered
  let hubs := (List.range 24).filter fun h => p.fuses.hubPresent h && mine (hubHalf h)
  let regions := (List.range 24).filter fun g => mine (if g < 12 then 0 else 1)
  let links := on.flatMap fun n => ([1, 2, 4, 6, 7].filter fun q => (p.core n).link q != {}).map fun q => (q, (p.core n).link q)
  match stage with
  | 1 => leBytes 4 o.romVersion.toNat ++ leBytes 6 o.flashIds ++ leBytes 1 (((p.boot.straps).map fun s => Straps.ofCrown s c).getD 0)
  | 2 =>
    let used := maskOf (([1, 2, 3].filter fun k => p.usedCopy c k == 1).map (· - 1))
    leBytes 4 used ++ [1, 2, 3].flatMap fun k => leBytes 4 (((p.inUse c k).map fun f => f.gen).getD 0)
  | 3 => leBytes 4 p.activeEsc.num ++ leBytes 4 o.lockUs
  | 4 => leBytes 4 (maskOf (regions.filter fun g => p.rgnState g == 2)) ++ leBytes 4 (maskOf (regions.filter fun g => p.rgnState g == 3))
  | 5 =>
    let total := (links.map fun x => portModules x.1).sum
    let up := (links.map fun x => x.2.modules).sum
    leBytes 4 up ++ leBytes 4 (total - up) ++ leBytes 4 o.lanesRepaired ++
      leBytes 4 (links.filter fun x => x.2.state == 3).length ++ leBytes 4 o.retrained
  | 6 =>
    let rows := p.boot.repairs.filter fun e => e.type == 3 && mine (halfOf e.site)
    let fresh := (o.rowsRepaired.filter fun x => mine (halfOf x.1)).length
    leBytes 2 on.length ++ leBytes 2 (sites.filter fun n => (p.site n).state == 3).length ++ leBytes 4 (rows.length - fresh) ++ leBytes 4 fresh
  | 7 =>
    let lw := p.fuses.lwidth
    let rows := (List.range 16).filter fun r => mine (if r < 8 then 0 else 1)
    let vacant := (rows.flatMap fun y => (List.range lw).filter fun x => (p.lsite x y).isNone).length
    leBytes 2 vacant ++ leBytes 2 (maskOf (rows.filter p.rowSplit)) ++
      leBytes 1 (p.seamCols.filter fun c => (p.core (siteOf c 7)).linkUp 2).length ++
      leBytes 1 (regions.filter fun g => (p.agentOf g).isSome).length ++ leBytes 4 (on.length * (16 * lw + 70))
  | 8 =>
    leBytes 4 (maskOf (hubs.filter fun h => (p.hub h).stack == 2)) ++ leBytes 4 (maskOf (hubs.filter fun h => (p.hub h).slow)) ++
      leBytes 4 (maskOf (hubs.filter fun h => (p.hub h).stack == 3)) ++ [0, 0, 0, 0] ++ leBytes 4 o.retrained
  | 9 =>
    let up := p.portList.filter fun x => mine (x.1 / 4) && (p.fport x.1 x.2).state == 3
    let v := (p.crown .north).rd Reg.HOST_STATUS
    leBytes 2 (maskOf (up.map fun x => 2 * x.1 + x.2)) ++ leBytes 1 (bits v 29 27) ++ leBytes 1 (bits v 26 22)
  | _ =>
    let x := before.commits
    leBytes 4 p.boot.items ++ leBytes 1 (b2n x.1 + 2 * b2n x.2)

/-- A start that has failed: the crowns stay, the rest powers off (R439). -/
def Panel.startFails (p : Panel) : Panel := p.powerDown.setShF Reg.BOOT_STATUS 27 26 2

/-- The stage after which the straps stop the start; 10 for none (R440). -/
def Panel.stopStage (p : Panel) : Nat :=
  match p.boot.straps with
  | none => 10
  | some s => [10, 6, 8, 2].getD s.stopNorth 10

/-- The end of a stage: its work, its items, its records, and what follows. The items that failed because the stage ran past its
limit (`late`) have cause 4. -/
def Panel.endStage (p : Panel) (o : StageOutcome) (late : Bool) : Panel :=
  let stage := p.stage
  let cs := p.stageCrowns o
  let r := p.runStage o
  let q := r.1
  let items := if r.2.2.isSome ∨ stage < 2 ∨ 9 < stage then (q, [])
    else cs.foldl (fun (acc : Panel × List Failing) c =>
      let x := acc.1.applyItems c stage fun _ => true
      (x.1, acc.2 ++ x.2)) (q, [])
  let q : Panel := { items.1 with boot := { items.1.boot with items := items.1.boot.items + items.2.length } }
  let q := if stage = 8 then q.alignPorts q.portList else q
  let fs := (if late then r.2.1.map fun (f : Failing) => { f with cause := 4 } else r.2.1) ++ items.2
  let q := if fs.isEmpty then q else q.setShF Reg.BOOT_STATUS 24 24 1
  let result (fs : List Failing) : Nat := if r.2.2.isSome then 3 else if fs.isEmpty then 1 else 2
  let kind (c : Crown) : Nat := b2n q.fullStart + 2 * b2n (q.crown c.other).lost
  let q := cs.foldl (fun q c =>
    let mine (h : Nat) : Bool := h == c.num || (q.crown c.other).lost
    let fs := fs.filter fun f => mine f.half
    q.keepRecord stage c (recordBytes stage (result fs) c (kind c) o.elapsedUs (if stage < 3 then 0 else q.dial)
      fs (r.2.2.getD 0) (q.detail p o stage c mine))) q
  if r.2.2.isSome then q.startFails
  else if stage = 10 then q.setShF Reg.BOOT_STATUS 27 26 1
  else if stage = q.stopStage then
    let q := (List.range (10 - stage)).foldl (fun q i => cs.foldl (fun q c =>
      q.keepRecord (stage + 1 + i) c (recordBytes (stage + 1 + i) 4 c (kind c) 0 (if stage < 3 then 0 else q.dial) [] 0 [])) q) q
    q.setShF Reg.BOOT_STATUS 27 26 3
  else q.setShF Reg.BOOT_STATUS 31 28 (stage + 1)

/-- A start is under way: its straps are sampled and it neither ended nor failed. -/
def Panel.starting (p : Panel) : Bool := p.boot.straps.isSome && p.bootState == 0

/-- From stage 3 on, each crown has written its stage-2 record or is absent (R438). -/
def Panel.crownsKnown (p : Panel) : Bool :=
  decide (p.stage < 3) || [Crown.north, Crown.south].all fun c => p.boot.records.contains c || (p.crown c).lost

end Sys2Proof.Machine
end

