-- ==== Sys2Proof/Machine/Boot.lean ====
section
/-! DEFINITION. Start-up: how it begins, how a stage ends or runs late, an absent crown, and the end of a half retrain (R436–R449,
R457). -/

namespace Sys2Proof.Machine

open Host (Outcome)

/-! ### The beginning (R436, R440, R446) -/

/-- A start is full (R446). -/
def Panel.wantsFull (p : Panel) (straps : Straps) (forced : Bool) : Bool :=
  straps.fullLowNorth || p.flash.cache != some p.flash.repairGen || p.flash.fullNext || forced || decide (64 ≤ p.flash.starts)

/-- Stage 1 begins: the straps are sampled and the kind of the start is settled. Only flash and fuses are left of what was. -/
def Panel.beginStart (p : Panel) (straps : Straps) : Panel :=
  let full := p.wantsFull straps p.boot.forceFull
  let n := if full then 0 else p.flash.starts + 1
  let q : Panel := { p.dark with
    boot := { straps := some straps, repairs := p.flash.repair }
    flash := { p.flash with starts := n, fullNext := false } }
  (q.setShF Reg.BOOT_STATUS 25 25 (b2n full)).setShF Reg.BOOT_STATUS 18 12 (min 64 n)

/-- PANEL_START: of a panel that is off, held in reset, or restarted. A panel latched off does not start (R401). -/
def execPanelStart (straps : Straps) (s : State) : Outcome State Fault Refusal :=
  s.always fun p =>
    if ¬ p.boot.latched ∧ (¬ p.live ∨ p.boot.straps.isNone) then p.beginStart straps else p

/-! ### The end of a stage -/

/-- STAGE_COMPLETE: within the stage's limit. -/
def execStageComplete (outcome : StageOutcome) (s : State) : Outcome State Fault Refusal :=
  s.onPanel fun p =>
    if p.starting ∧ p.crownsKnown ∧ outcome.elapsedUs ≤ stageLimit p.fullStart p.stage then p.endStage outcome false else p

/-- What a stage yields that ends at its limit, before the item in progress is named. -/
def lateOutcome (us : Nat) : StageOutcome :=
  { crownOk := [.north, .south], elapsedUs := us, failedSites := [], failedModules := [], failedRegions := [], slowStacks := []
    failedStacks := [], portsUp := [], hostRate := 0, hostWidth := 0, lockNorth := false, lockSouth := false, lockUs := 0, seamUp := 0
    retrained := 0, lanesRepaired := 0, rowsRepaired := [], imagesAlign := false, bootId := 0, romVersion := 0, flashIds := 0 }

/-- One of a list, by a free value. -/
def chosen (v : Nat) (l : List Nat) : List Nat := ((l.drop (v % max 1 l.length)).take 1)

/-- The outcome of a stage that runs past its limit: the item in progress, which the manual leaves open, is a free choice
(notes/assumptions/23.md). In stage 9 every port still in training is in progress. -/
def Panel.lateStage (p : Panel) (v : Nat) : StageOutcome :=
  let o := lateOutcome (stageLimit p.fullStart p.stage)
  let site := chosen v p.poweredSites
  match p.stage with
  | 5 =>
    let ports (n : Nat) : List Nat := (List.range 8).filter fun q =>
      if q < 6 then (portSite n q).isSome && !seamPort n q else p.edgeThere n (q - 5)
    { o with failedModules := site.flatMap fun n => (chosen (v / 1024) (ports n)).map fun q =>
        (Fin.ofNat 336 n, Fin.ofNat 8 q, Fin.ofNat 4 (v / 65536 % portModules q)) }
  | 6 => { o with failedSites := site.map fun n => Fin.ofNat 336 n }
  | 8 =>
    let hubs := (List.range 24).filter fun h => p.fuses.hubPresent h && !(p.hub h).lost
    { o with failedStacks := (chosen v hubs).map fun h => Fin.ofNat 24 h }
  | _ =>
    { o with
      portsUp := (p.portList.filter fun x => (p.fport x.1 x.2).state == 3).map fun x => Fin.ofNat 16 (2 * x.1 + x.2)
      hostRate := v % 7, hostWidth := [1, 2, 4, 8, 16].getD (v / 8 % 5) 16 }

/-- A stage that fails the start by running late: its records say so. -/
def Panel.lateFail (p : Panel) : Panel :=
  let cs := if p.stage < 3 then [] else p.stageCrowns (lateOutcome 0)
  let kind (c : Crown) : Nat := b2n p.fullStart + 2 * b2n (p.crown c.other).lost
  let q := cs.foldl (fun q c =>
    q.keepRecord p.stage c (recordBytes p.stage 3 c (kind c) (stageLimit p.fullStart p.stage) p.dial [] 4 [])) p
  q.startFails

/-- STAGE_TIMEOUT: stages 5, 6, 8 and 9 end with the item in progress failed; any other fails the start (R439). -/
def execStageTimeout (s : State) : Outcome State Fault Refusal :=
  s.onPanel fun p =>
    if ¬ p.starting ∨ ¬ p.crownsKnown then p
    else if p.stage ∈ [5, 6, 8, 9] then
      let x := p.draw
      x.2.endStage (x.2.lateStage x.1.toNat) true
    else p.lateFail

/-- CROWN_ABSENT: no stage-2 record within 2 s of the start; the other crown leads both halves (R438). -/
def execCrownAbsent (c : Crown) (s : State) : Outcome State Fault Refusal :=
  s.onPanel fun p =>
    if p.starting ∧ p.stage = 3 ∧ ¬ p.boot.records.contains c ∧ p.boot.records.contains c.other ∧ ¬ (p.crown c).lost then p.loseCrown c
    else p

/-! ### The end of a half retrain (R457) -/

/-- The items of stages 4 to 9 applied again to the dies of a half. -/
def Panel.reapplyItems (p : Panel) (half : Nat) : Panel :=
  let only (d : Die) : Bool := match d with
    | .crown _ => false
    | .bar0 _ => false
    | d => dieHalf d == half
  let r := [4, 5, 6, 7, 8, 9].foldl (fun (acc : Panel × List Failing) stage =>
    let x := acc.1.applyItems (halfCrown half) stage only
    (x.1, acc.2 ++ x.2)) (p, [])
  if r.2.isEmpty then r.1 else r.1.setShF Reg.BOOT_STATUS 24 24 1

/-- A retrained half merged back: its sites, links, columns, maps, stacks and ports. -/
def Panel.endRetrain (p : Panel) (half : Nat) : Panel :=
  let sites := halfSites half
  let p := (List.range 24).foldl (fun p g => if g / 12 = half ∧ p.rgnState g = 0 then p.setRgn g 2 else p) p
  let p := sites.foldl (fun p n => if p.startable n ∧ ¬ p.powered n ∧ p.rgnState (regionOf n) = 2 then p.startSite n else p) p
  let p := (List.range 24).foldl (fun p g => if g / 12 = half ∧ (p.agentOf g).isNone then p.electAgent g else p) p
  let p := (p.trainLinks sites).raiseSeam p.seamCols
  let p := p.mapRows ((List.range 16).filter fun r => r / 8 = half)
  let p := (p.halfHubs half).foldl (fun p h => if (p.hub h).lost then p else (p.trainStack h (lateOutcome 0)).1) p
  let gone := maskOf ((List.range 24).filter fun h => p.fuses.hubPresent h && ((p.hub h).lost || (p.hub h).stack == 3))
  let p := (({ p with lostStacks := gone } : Panel).reapplyItems half).alignPorts (p.halfPorts half)
  p.setShF Reg.BOOT_STATUS 20 19 0

/-- HALF_RETRAIN_COMPLETE: within 230 s of the command. -/
def execHalfRetrainComplete (s : State) : Outcome State Fault Refusal :=
  s.onPanel fun p =>
    if p.retraining = 0 ∨ p.retraining = 3 ∨ p.since p.boot.retrainAt (230000 * ms + 1) then p else p.endRetrain (p.retraining - 1)

end Sys2Proof.Machine
end

