-- ==== Sys2Proof/Machine/Repair.lean ====
section
/-! DEFINITION. Route maps in service, repairs and vacates, firmware updates and tests in service (R195, R196, R453–R461). -/

namespace Sys2Proof.Machine

open Host (Outcome)

/-! ### Route maps in service (R195, R196) -/

/-- A router's map says that an entry is unreachable. -/
def Core.cutOff (k : Core) (i : Nat) : Bool := let e := k.rmap i; e.state == 3 || (e.state == 1 && e.turn == 3)

/-- Map entries that a partition uses: its cores, and the attachments of its bands and windows. -/
def Panel.partEntries (p : Panel) (part : Nat) : List Nat :=
  let cores := (p.partSites part).filterMap fun n =>
    let i := p.site n
    if i.state = 1 then some (siteR n * p.fuses.lwidth + i.lx) else none
  let hubs := ((List.range 24).filter fun h => p.fuses.hubPresent h && (p.hubParts h).contains part).flatMap fun h =>
    [320 + hubAtt h 0, 320 + hubAtt h 1]
  let ports := (p.portList.filter fun x => (p.portParts x.1).contains part).map fun x => 320 + portAtt x.1 x.2
  cores ++ hubs ++ ports

/-- The maps rewritten; a partition with a core or an attachment that one of its cores cannot reach is faulted. -/
def Panel.rewriteMaps (p : Panel) : Panel :=
  if ¬ p.boot.mapped then p
  else
    let p := p.writeMaps
    (List.range 32).foldl (fun p q =>
      if p.faulted.contains q then p
      else
        let entries := p.partEntries q
        if (p.partSites q).any fun n => entries.any fun i => (p.core n).cutOff i then p.faultPart q 3 else p) p

/-- ROUTE_MAP_REWRITE. -/
def execRouteMapRewrite (s : State) : Outcome State Fault Refusal := s.onPanel Panel.rewriteMaps

/-! ### Repairs (R453–R455) -/

/-- Two lists of partitions have one in common. -/
def meets (a b : List Nat) : Bool := a.any b.contains

/-- A loss during a load fails that load (R241, R455): a section of its table names a core that the loss has left vacant. -/
def Panel.failLoadsAt (p : Panel) (n : Nat) : Panel :=
  (p.models.filter fun (x : Nat × Model) => decide (1 ≤ x.2.state ∧ x.2.state ≤ 3) &&
    x.2.table.any fun s => s.aimed && s.y == siteR n && (s.site p).isNone).foldl
    (fun p x => p.failLoad x.1 5 St.siteRetired) p

/-- Steps 1 and 2 of R453 for a loss: the site retired, the partitions' steps abandoned, PAUSE and ABORT sent. A lost spare without
partitions needs no more. -/
def Panel.beginRepair (p : Panel) (x : LossRec) (rest : List LossRec) : Panel :=
  let off := (p.site x.site).state == 3
  let parts := if off then x.parts else p.partsAt x.site
  let p := { p with losses := rest }
  let p := if off then p else p.retireSite x.site x.cause
  let p := (p.failLoadsAt x.site).pauseParts parts
  if parts.isEmpty ∧ (p.site x.site).orphan.isNone then p
  else match p.repair with
    | none => { p with repair := some { sites := [x.site], since := x.since, parts := parts } }
    | some r => { p with repair := some { r with
        sites := r.sites ++ [x.site], since := max r.since x.since, parts := parts.foldl insertNat r.parts } }

/-- CORE_REPAIR: of a site whose loss was reported first among those that wait. It joins the repair that runs when they share a
partition and step 5 has not begun; otherwise it waits for that repair's end. -/
def execCoreRepair (n : Site) (s : State) : Outcome State Fault Refusal :=
  s.onPanel fun p =>
    match p.losses with
    | [] => p
    | x :: rest =>
      if x.site ≠ n then p
      else match p.repair with
        | none => p.beginRepair x rest
        | some r =>
          let parts := if (p.site x.site).state = 3 then x.parts else p.partsAt x.site
          if r.steps = 0 ∧ ¬ r.vacate ∧ meets parts r.parts then p.beginRepair x rest else p

/-- Every core of some partitions is IDLE, or held in TEST. -/
def Panel.partsIdle (p : Panel) (parts : List Nat) : Bool :=
  (parts.flatMap p.partSites).all fun n =>
    let q := (p.core n).seq
    (q.state == .idle || q.state == .test) && !q.aborting

/-- Reduction entries that models have at a site invalidated. -/
def Panel.dropSiteRed (p : Panel) (n : Nat) : Panel :=
  let gone := p.models.flatMap fun (x : Nat × Model) => x.2.red.filter fun y => y.1 == n
  let p := gone.foldl (fun p y => if p.powered n then p.modCore n fun k => k.wr (Reg.MESH_RED + 8 * y.2) 0 else p) p
  { p with models := p.models.map fun (x : Nat × Model) => (x.1, { x.2 with red := x.2.red.filter fun y => y.1 != n }) }

/-- A spare takes a logical core and its CORE_PART (R34, step 4 of R453). -/
def Panel.adopt (p : Panel) (old spare lx word : Nat) : Panel :=
  let p := (p.dropSiteRed old).placeSite spare { p.site spare with state := 1, lx := lx }
  let p := p.modCore spare fun k => k.wr Reg.CORE_PART word
  p.bumpSh Reg.BOOT_ADOPT_CNT

/-- One site of a repair adopted: the panel and the spare; none when the row has no free spare or is split. -/
def Panel.adoptFor (p : Panel) (n : Nat) (vacate : Bool) : Option (Panel × List (Nat × Nat)) :=
  let i := p.site n
  if vacate then
    match p.freeSpare (siteR n) with
    | none => none
    | some m =>
      let word := (p.core n).rd Reg.CORE_PART
      let p := p.placeSite n { i with state := 2, lx := 0 }
      let p := (p.modCore n fun k => (k.wr Reg.CORE_PART 0).cmd 5).adopt n m i.lx word
      some (p, [(m, n)])
  else match i.orphan with
    | none => if i.split then none else some (p, [])
    | some (lx, word) => match p.freeSpare (siteR n) with
      | none => none
      | some m =>
        let p := p.setSite n { i with orphan := none }
        some (p.adopt n m lx word, [(m, n)])

/-- Every site of a repair adopted, in order. -/
def Panel.adoptAll (vacate : Bool) : List Nat → Panel → Option (Panel × List (Nat × Nat))
  | [], p => some (p, [])
  | n :: ns, p => match p.adoptFor n vacate with
    | none => none
    | some (p, l) => (Panel.adoptAll vacate ns p).map fun x => (x.1, l ++ x.2)

/-- The sections of a model that name a core, in the order of step 5 of R453. -/
def Panel.sectionsOf (p : Panel) (x : Model) (n : Nat) : List SectEnt :=
  let here := x.table.filter fun s => s.aimed && s.site p == some n
  here.filter (fun s => s.type == 3) ++ here.filter (fun s => s.type == 2 || s.type == 4) ++ here.filter (fun s => s.type == 1) ++
    here.filter (fun s => s.type == 6)

/-- The digest of the weights as the shadow holds them now (R242). -/
def Panel.shadowWeights (p : Panel) (x : Model) : List Byte :=
  sm3 ((x.table.filter SectEnt.weights).flatMap fun s => sm3 (p.sectBytes s))

/-- Step 5 of R453 for one model and one site: whether every write and digest is good, and the panel. -/
def Panel.reapply (p : Panel) (m n : Nat) : Bool × Panel :=
  let x := p.model m
  let secs := p.sectionsOf x n
  let good := secs.all (fun s => s.type != 6) || p.shadowWeights x == x.weights
  let p := (secs.filter fun s => !s.data).foldl (fun p s => p.applyControl m s) p
  let r := Panel.streamAll x.part secs p
  (good && decide (r.1 ≤ 1), r.2)

/-- Step 5 of R453 for some sites. -/
def Panel.reapplyAll (p : Panel) (parts sites : List Nat) : Bool × Panel :=
  let ms := (p.models.filter fun (x : Nat × Model) => x.2.state == 4 && parts.contains x.2.part).map fun (x : Nat × Model) => x.1
  (ms.flatMap fun m => sites.map fun n => (m, n)).foldl (fun acc x =>
    let r := acc.2.reapply x.1 x.2
    (acc.1 && r.1, r.2)) (true, p)

/-- Limits of the steps of R453, counted from the last heartbeat. -/
def idleBy : Nat := 5 * ms
def adoptBy : Nat := 6 * ms
def repairBy : Nat := 60 * ms

/-- REPAIR_ADOPT: steps 4 and 5 of R453, between two protection changes (R488). -/
def execRepairAdopt (s : State) : Outcome State Fault Refusal :=
  s.onPanel fun p =>
    match p.repair with
    | none => p
    | some r =>
      if r.steps ≠ 0 ∨ r.failed ∨ p.change.isSome ∨ ¬ p.partsIdle r.parts ∨ p.since r.since (adoptBy + 1) then p
      else match Panel.adoptAll r.vacate r.sites p with
        | none => { p with repair := some { r with failed := true } }
        | some (p, taken) =>
          let p := p.rewriteMaps
          let x := p.reapplyAll r.parts (taken.map fun y => y.1)
          { x.2 with repair := some { r with taken := taken, steps := 1, failed := !x.1 } }

/-- The next vacate that waits. -/
def Panel.nextVacate (p : Panel) : Panel :=
  match p.boot.vacates with
  | [] => p
  | n :: rest =>
    let p : Panel := { p with boot := { p.boot with vacates := rest } }
    if (p.site n).state ≠ 1 ∨ (p.freeSpare (siteR n)).isNone then p.ignBoot else p.beginVacate n

/-- Drained partitions go on: every core leaves TEST (R461). -/
def Panel.resumeParts (p : Panel) (parts : List Nat) : Panel :=
  let p := (parts.flatMap p.partSites).foldl (fun p n => if (p.core n).seq.state = .test then p.modCore n fun k => k.cmd 2 else p) p
  { parts.foldl (fun p q => p.holdModels q false) p with maint := p.maint && parts.isEmpty }

/-- REPAIR_COMPLETE: step 6 of R453. After a failed forced test the partition's cores stand in TEST, and leave it now. -/
def execRepairComplete (s : State) : Outcome State Fault Refusal :=
  s.onPanel fun p =>
    match p.repair with
    | none => p
    | some r =>
      if r.steps = 0 ∨ r.failed ∨ p.since r.since (repairBy + 1) then p
      else
        let p := r.taken.foldl (fun p x => p.modCore x.1 fun k => k.cmd 2) p
        let p := if r.sites.any fun n => (p.site n).cause == 1 then p.resumeParts r.parts
          else r.parts.foldl (fun p q => p.holdModels q false) p
        ({ p with repair := none, maint := p.maint && !r.vacate } : Panel).nextVacate

/-- A repair cannot complete: no spare, a split row, a failed step, or a step past its time. -/
def Panel.repairLost (p : Panel) (r : Repair) : Bool :=
  r.failed ||
    (if r.steps = 0 then
      r.sites.any (fun n => (p.site n).split || ((p.site n).orphan.isSome && (p.freeSpare (siteR n)).isNone)) ||
        (p.since r.since (idleBy + 1) && !p.partsIdle r.parts) || p.since r.since (adoptBy + 1)
    else p.since r.since (repairBy + 1))

/-- REPAIR_FAIL: every partition of step 2 is faulted; the logical cores that nothing adopted are vacant (R34, R454). -/
def execRepairFail (s : State) : Outcome State Fault Refusal :=
  s.onPanel fun p =>
    match p.repair with
    | none => p
    | some r =>
      if ¬ p.repairLost r then p
      else
        let p := r.parts.foldl (fun p q => p.faultPart q 2) p
        let p := r.sites.foldl (fun p n => p.setSite n { p.site n with orphan := none }) p
        let p := { p with repair := none, maint := p.maint && !r.vacate }
        (p.bumpSh Reg.BOOT_REPAIR_FAIL_CNT).nextVacate

/-! ### Service firmware (R458, R469) -/

/-- A crown's service firmware starts again; the other crown leads its contexts meanwhile. -/
def Panel.restartSvc (p : Panel) (c : Crown) : Panel :=
  p.modCrown c fun k => { k with svc := false, restartAt := some p.dial, rounds := [] }

/-- The committed service image of a crown, newer than the one in use. -/
def Panel.newerSvc (p : Panel) (c : Crown) : Option Nat :=
  match p.chooseCopy c 2, p.inUse c 2 with
  | some x, some y => if y.gen < x.2.gen then some x.1 else none
  | some x, none => some x.1
  | none, _ => none

/-- SERVICE_FIRMWARE_UPDATE: once the crown's steps have completed, it restarts on its new image; the south crown goes first. The
restart ends with the crown's next report. -/
def execServiceFirmwareUpdate (c : Crown) (s : State) : Outcome State Fault Refusal :=
  s.onPanel fun p =>
    let southFirst := c == .north && !(p.crown .south).lost && (p.newerSvc .south).isSome
    match p.newerSvc c with
    | none => p
    | some i =>
      if (p.crown c).lost ∨ ¬ (p.crown c).steps.isEmpty ∨ p.away c ∨ p.away c.other ∨ southFirst ∨ p.bootState ≠ 1 then p
      else ({ p with flash := { p.flash with used := put p.flash.used (8 * c.num + 2) i } } : Panel).restartSvc c

/-! ### Tests in service (R459–R461) -/

/-- The ends of a test: the site, and for a link the site at its other end. -/
def testEnds (v : Nat) : List Nat :=
  let n := testSite v
  if testKind v = 3 ∧ testPort v < 6 then n :: (portSite n (testPort v)).toList else [n]

/-- A site is free for a test: a spare, or active, in no partition and IDLE. -/
def Panel.testFree (p : Panel) (n : Nat) : Bool :=
  let i := p.site n
  let k := p.core n
  k.powered && (i.state == 2 || (i.state == 1 && !k.partValid && k.seq.state == .idle))

/-- A site taken to TEST, and its former state. -/
def Panel.toTest (p : Panel) (n : Nat) : Panel × List (Nat × CoreState) :=
  let st := (p.core n).seq.state
  (if st = .idle then p.modCore n fun k => k.cmd 5 else p, [(n, st)])

/-- A test begins on sites that are free. -/
def Panel.runTest (p : Panel) (req : W64) (ends : List Nat) (drained : List Nat) : Panel :=
  let r := ends.foldl (fun (acc : Panel × List (Nat × CoreState)) n =>
    let x := acc.1.toTest n
    (x.1, acc.2 ++ x.2)) (p, [])
  { r.1 with tests := r.1.tests.drop 1, testRun := some { req := req, since := p.dial, back := r.2, drained := drained } }

/-- The drain of R461: DRAIN goes to the cores that have not taken it; once every one is in TEST the test runs. -/
def Panel.forceTest (p : Panel) (req : W64) (ends : List Nat) : Panel :=
  let parts := (ends.flatMap p.partsAt).foldl insertNat []
  let cores := parts.flatMap p.partSites
  if ends.any fun n => !p.powered n then p
  else if cores.all fun n => (p.core n).seq.state == .test then { p.runTest req ends parts with maint := true }
  else
    let p := parts.foldl (fun p q => p.holdModels q true) p
    cores.foldl (fun p n =>
      let st := (p.core n).seq.state
      if st = .run ∨ st = .idle ∨ st = .paused then p.modCore n fun k => k.cmd 4 else p) p

/-- TEST_START: the first request held. Whether a link has unused lanes for a calibration in traffic is a free value of the assembly
(notes/assumptions/24.md). -/
def execTestStart (s : State) : Outcome State Fault Refusal :=
  s.onPanel fun p =>
    match p.tests, p.testRun with
    | req :: _, none =>
      let v := req.toNat
      let ends := testEnds v
      if ends.all p.testFree then p.runTest req ends []
      else if testKind v = 3 ∧ p.powered (testSite v) then
        let x := p.draw
        if x.1.getLsbD 0 then x.2.runTest req [] [] else if v.testBit 59 then x.2.forceTest req ends else x.2
      else if v.testBit 59 then p.forceTest req ends
      else p
    | _, _ => p

/-- BOOT_TEST_RES. -/
def testRes (v result status : Nat) : Nat :=
  2 ^ 63 + result * 2 ^ 60 + testKind v * 2 ^ 56 + status * 2 ^ 48 + bits v 31 16 * 2 ^ 32 + v % 8192

/-- Limits of the tests (R459). -/
def testLimit (kind : Nat) : Nat := if kind = 1 then 200 * ms else if kind = 2 then 2000 * ms else if kind = 3 then 10 * ms else 50 * ms

/-- A site goes back to its former state. -/
def Panel.backFrom (p : Panel) (x : Nat × CoreState) : Panel :=
  if x.2 = .idle ∧ (p.core x.1).seq.state = .test then p.modCore x.1 fun k => k.cmd 2 else p

/-- A test passed: sites back, and after a drain the sections reapplied. A march leaves the rows clear, as that of stage 6 does
(R436; notes/assumptions/25.md). -/
def Panel.testPassed (p : Panel) (t : TestRun) : Panel :=
  let v := t.req.toNat
  let n := testSite v
  let p := if testKind v = 2 then p.modCore n fun k => { k with spad := { k.spad with mem := {} } } else p
  let p := t.back.foldl Panel.backFrom p
  if t.drained.isEmpty then p.setSh Reg.BOOT_TEST_RES (testRes v 0 0)
  else
    let r := p.reapplyAll t.drained (testEnds v)
    if r.1 then (r.2.resumeParts t.drained).setSh Reg.BOOT_TEST_RES (testRes v 3 0)
    else
      let p := t.drained.foldl (fun p q => p.faultPart q 2) r.2
      ((p.resumeParts t.drained).bumpSh Reg.BOOT_REPAIR_FAIL_CNT).setSh Reg.BOOT_TEST_RES (testRes v 3 St.uncorrectable)

/-- An entry of the repair map made in service; it is committed at once. -/
def Panel.noteRepair (p : Panel) (e : RepairEnt) : Panel :=
  { p with flash := { p.flash with repair := p.flash.repair ++ [{ e with start := p.fastStarts }], repairGen := p.flash.repairGen + 1 } }

/-- A module of a link disabled (R191). -/
def Panel.cutModule (p : Panel) (n port m : Nat) : Panel :=
  let one (p : Panel) (n q : Nat) : Panel :=
    let l := (p.core n).link q
    if l.state = 0 ∨ l.state = 3 then p
    else if l.modules ≤ 1 then p.linkDown n q
    else
      let p := p.modCore n fun k => k.setLink q { l with modules := l.modules - 1, state := 2 }
      p.logCore n { cls := 0x07, level := 0, unit := 4 * q + m }
  let p := one p n port
  match if port < 6 then portSite n port else none with
  | some o => if p.powered o then one p o (farPort port) else p
  | none => p

/-- A test failed: the module is disabled, or the site is retired and entered in the repair map; after a drain a repair begins at
step 4. -/
def Panel.testFailed (p : Panel) (t : TestRun) (m : Nat) : Panel :=
  let v := t.req.toNat
  let n := testSite v
  if testKind v = 3 then
    let m := m % portModules (testPort v)
    let p := (p.cutModule n (testPort v) m).noteRepair { type := 2, site := n, port := testPort v, module := m }
    let p := t.back.foldl Panel.backFrom p
    (p.resumeParts t.drained).setSh Reg.BOOT_TEST_RES (testRes v 2 0)
  else
    let word := (p.core n).rd Reg.CORE_PART
    let p := (p.retireSite n 1).noteRepair { type := 1, cause := 1, site := n }
    if t.drained.isEmpty then p.setSh Reg.BOOT_TEST_RES (testRes v 1 0)
    else
      let i := p.site n
      let p := if i.orphan.isSome then p.setSite n { i with orphan := i.orphan.map fun x => (x.1, word) } else p
      let p : Panel :=
        if p.repair.isSome then { p with losses := p.losses ++ [{ site := n, cause := 1, parts := t.drained, since := p.dial }] }
        else { p with repair := some { sites := [n], since := p.dial, parts := t.drained } }
      p.setSh Reg.BOOT_TEST_RES (testRes v 4 0)

/-- TEST_COMPLETE: within the test's limit a pass or a failure; past it, a failure. -/
def execTestComplete (passed : Bool) (module : Fin 4) (s : State) : Outcome State Fault Refusal :=
  s.onPanel fun p =>
    match p.testRun with
    | none => p
    | some t =>
      let late := p.since t.since (testLimit (testKind t.req.toNat) + 1)
      let p := { p with testRun := none }
      if passed ∧ ¬ late then p.testPassed t else p.testFailed t module

end Sys2Proof.Machine
end

