-- ==== Sys2Proof/Machine/Mgmt.lean ====
section
/-! DEFINITION. The management ring, the service compartment, the random source, and Hokuid's sessions and messages (R464–R466, R469,
R472, R476–R480, R489). -/

namespace Sys2Proof.Machine

open Host (Outcome)

/-! ### The management ring (R464–R466) -/

/-- A requester whose frames travel on the management ring. -/
def ringSender : Requester → Bool
  | .ringRoot _ => true
  | .ringService _ => true
  | .ringAgent _ => true
  | .ringDie => true
  | _ => false

/-- RING_FRAME: an access, a broadcast of a cap, a heartbeat, a sample or a message between crowns. What firmware makes of a message
is its own; the panel passes it on. -/
def execRingFrame (frame : RingFrame) (s : State) : Outcome State Fault Refusal :=
  s.onPanel fun p => match frame with
    | .write who die off bytes value => if ringSender who then p.wrote who die off bytes value else p
    | .read who die off bytes => if ringSender who then p.readBy who die off bytes 0 else p
    | .broadcastCap who code => match who with
      | .ringRoot c => if (p.crown c).lost ∨ 0x2C < code then p else p.broadcast code
      | .ringService c => if (p.crown c).lost ∨ 0x2C < code then p else p.broadcast code
      | _ => p
    | .heartbeat n =>
      let k := p.core n
      if k.powered ∧ k.seq.state ≠ .halted ∧ k.haltSince.isNone then p.sendHeartbeat n else p
    | .hubHeartbeat h => if (p.hub h).lost then p else p.modHub h fun k => { k with hbSent := p.dial, hbHeard := p.dial }
    | .telemetry d mv ma => p.sampleDomain d mv ma
    | .crownMessage _ _ => p

/-- RING_BREAK: the loop's traffic goes the other way round; both crowns show the break. -/
def execRingBreak (half : Crown) (s : State) : Outcome State Fault Refusal :=
  s.onPanel fun p =>
    let c := p.leader half.num
    let p := p.logCrown c (.crown c) { cls := 0x16, level := 0, unit := half.num }
    [Crown.north, Crown.south].foldl (fun p c =>
      if (p.crown c).lost then p else p.modCrown c fun k => k.setF Reg.MGMT_RING_STAT (31 - half.num) (31 - half.num) 1) p

/-! ### The service compartment (R469) -/

/-- SERVICE_REPORT: also the end of a restart. -/
def execServiceReport (c : Crown) (s : State) : Outcome State Fault Refusal :=
  s.onPanel fun p =>
    if (p.crown c).lost ∨ ¬ p.boot.records.contains c then p
    else p.modCrown c fun k => { k with svc := true, svcAt := p.dial, restartAt := none }

/-- SERVICE_RESTART: no report for 100 ms. -/
def execServiceRestart (c : Crown) (s : State) : Outcome State Fault Refusal :=
  s.onPanel fun p =>
    let k := p.crown c
    if k.lost ∨ ¬ k.svc ∨ ¬ p.since k.svcAt (100 * ms) then p
    else
      let p := k.steps.foldl (fun p x => p.abandon c x.2) p
      let p := (p.restartSvc c).modCrown c fun k => k.bump Reg.MGMT_SVC_RESTART_CNT
      p.logCrown c (.crown c) { cls := 0x0C, level := 0, unit := 1 }

/-! ### The random source (R472) -/

/-- RNG_HEALTH_FAIL. -/
def execRngHealthFail (c : Crown) (s : State) : Outcome State Fault Refusal :=
  s.onPanel fun p =>
    if (p.crown c).lost ∨ (p.crown c).rngBad then p else (p.modCrown c fun k => { k with rngBad := true }).alertOut

/-- RNG_HEALTH_PASS. -/
def execRngHealthPass (c : Crown) (s : State) : Outcome State Fault Refusal :=
  s.onPanel fun p => if (p.crown c).lost then p else p.modCrown c fun k => { k with rngBad := false }

/-- A draw of the random source. -/
def Panel.random (p : Panel) : W64 × Panel := (Config.random p.randoms, { p with randoms := p.randoms + 1 })

/-! ### Credentials (R478) -/

def Panel.cred (p : Panel) (k i : Nat) : Nat := p.sh (Reg.MGMT_CRED + 128 * k + 8 * i)

/-- The key of an entry. -/
def Panel.credKey (p : Panel) (k : Nat) : BitVec 512 := keyBits ((List.range 8).flatMap fun i => leBytes 8 (p.cred k (i + 1)))

/-- A valid entry of a kind. -/
def Panel.credIs (p : Panel) (k kind : Nat) : Bool := (p.cred k 0).testBit 63 && bits (p.cred k 0) 62 60 == kind
def Panel.credRoles (p : Panel) (k : Nat) : Nat := bits (p.cred k 0) 59 57

/-- Entries whose key signs root commands: kind 2 with the officer role. -/
def Panel.officers (p : Panel) : List Nat := (List.range 16).filter fun k => p.credIs k 2 && (p.credRoles k).testBit 2

/-- Roles of a client certificate: those of the entries that its chain ends in. -/
def Panel.certRoles (p : Panel) (ca : BitVec 512) : Option Nat :=
  let ks := (List.range 16).filter fun k => p.credIs k 1 && p.credKey k == ca
  if ks.isEmpty then none else some (ks.foldl (fun r k => r ||| p.credRoles k) 0)

/-! ### Sessions (R477) -/

/-- The service firmware of a crown runs. -/
def Panel.svcUp (p : Panel) (c : Crown) : Bool := !(p.crown c).lost && (p.crown c).svc && (p.crown c).restartAt.isNone

/-- An authentication that failed. -/
def Panel.authFail (p : Panel) (c : Crown) : Panel := p.modCrown c fun k => k.bump Reg.MGMT_AUTH_FAIL_CNT

/-- SESSION_ACCEPT: a ninth connection is closed and counted; a handshake fails without random numbers, or when the client's
certificate does not chain to an entry of kind 1. -/
def execSessionAccept (c : Crown) (cert : ClientCert) (s : State) : Outcome State Fault Refusal :=
  s.onPanel fun p =>
    let k := p.crown c
    if ¬ p.svcUp c then p
    else match (List.range 8).find? fun n => (find k.sessions n).isNone with
      | none => p.modCrown c fun k => k.setF Reg.MGMT_SESS 31 16 (satAdd 0xFFFF (bits (k.rd Reg.MGMT_SESS) 31 16) 1)
      | some n =>
        if k.rngBad then p
        else match p.certRoles cert.caKey with
          | none => p.authFail c
          | some roles =>
            if ¬ cert.verifies then p.authFail c
            else p.modCrown c fun k => { k with sessions := put k.sessions n { roles := roles, usedAt := p.dial } }

/-- SESSION_IDLE_CLOSE. -/
def execSessionIdleClose (c : Crown) (session : Fin 8) (s : State) : Outcome State Fault Refusal :=
  s.onPanel fun p => match find (p.crown c).sessions session with
    | none => p
    | some x => if p.since x.usedAt (600000 * ms) then p.modCrown c fun k => { k with sessions := drop k.sessions session } else p

/-- Roles as R478 names them: an operator may do what an observer may. -/
def mayObserve (roles : Nat) : Bool := roles.testBit 0 || roles.testBit 1
def mayOperate (roles : Nat) : Bool := roles.testBit 1
def mayCommand (roles : Nat) : Bool := roles.testBit 2

/-- A message of a session: it is held until it is answered. With 64 unanswered the panel does not read it; a role that the type needs
and the session has not is answered NOT_PERMITTED (R479). -/
def Panel.hokuid (p : Panel) (c : Crown) (n tag : Nat) (role : Nat → Bool) (f : Panel → Panel) : Panel :=
  match find (p.crown c).sessions n with
  | none => p
  | some x =>
    if ¬ p.svcUp c ∨ 64 ≤ x.waiting then p
    else
      let p := p.modCrown c fun k => { k with sessions := put k.sessions n { x with waiting := x.waiting + 1, usedAt := p.dial } }
      if role x.roles then f p else p.hokuidAnswer c n tag St.notPermitted []

/-! ### READ, WRITE, SUBMIT, MAINT (R480) -/

/-- An item that READ or WRITE may carry. -/
def readItem (i : ConfigItem) : Bool := itemOk i 0 9

/-- HOKUID_READ: the item with the value read; of an item that names several dies, the first one's. -/
def execHokuidRead (c : Crown) (session : Fin 8) (tag : W32) (item : ConfigItem) (s : State) : Outcome State Fault Refusal :=
  s.onPanel fun p => p.hokuid c session tag.toNat mayObserve fun p =>
    match (p.itemDies item).head? with
    | none => p.hokuidAnswer c session tag.toNat St.notPermitted []
    | some die =>
      if ¬ readItem item ∨ item.value ≠ 0 then p.hokuidAnswer c session tag.toNat St.notPermitted []
      else
        let x := p.regRead (.ringService c) die item.offset (if item.flags.testBit 1 then 8 else 4) 0
        x.2.2.hokuidAnswer c session tag.toNat x.1 (itemBytes { item with value := BitVec.ofNat 64 x.2.1 })

/-- A value written to every die that an item names: the merged status. -/
def Panel.writeItem (p : Panel) (who : Requester) (i : ConfigItem) : Nat × Panel :=
  (p.itemDies i).foldl (fun acc die =>
    let x := acc.2.regWrite who die i.offset (if i.flags.testBit 1 then 8 else 4) i.value
    (St.merge acc.1 x.1, x.2)) (St.done, p)

/-- HOKUID_WRITE. -/
def execHokuidWrite (c : Crown) (session : Fin 8) (tag : W32) (item : ConfigItem) (s : State) : Outcome State Fault Refusal :=
  s.onPanel fun p => p.hokuid c session tag.toNat mayOperate fun p =>
    if ¬ readItem item ∨ item.flags.testBit 0 ∨ (p.itemDies item).isEmpty then p.hokuidAnswer c session tag.toNat St.notPermitted []
    else
      let x := p.writeItem (.ringService c) item
      x.2.hokuidAnswer c session tag.toNat x.1 []

/-- SUBMIT: the request waits at the session's crown, and its completion is the answer. -/
def execSubmit (c : Crown) (session : Fin 8) (tag : W32) (part : Partition) (request : BitVec 512) (s : State) :
    Outcome State Fault Refusal :=
  s.onPanel fun p => p.hokuid c session tag.toNat mayOperate fun p =>
    let r : Req :=
      { src := .session c session tag.toNat, part := some part, bytes := (p.clampReq (leBytes 64 request.toNat)).1 }
    p.modCrown c fun k => { k with reqs := k.reqs ++ [r] }

/-- MAINT. -/
def execMaint (c : Crown) (session : Fin 8) (tag : W32) (start : Bool) (s : State) : Outcome State Fault Refusal :=
  s.onPanel fun p => p.hokuid c session tag.toNat mayOperate fun p =>
    ({ p with maint := start } : Panel).hokuidAnswer c session tag.toNat St.done []

/-! ### FLASH_PUT and FLASH_COMMIT (R442, R443, R489) -/

/-- Bytes of one copy of an item of flash, its header included (R442). -/
def itemArea (kind : Nat) : Nat := [0, 983040, 32505856, 16777216, 16777216, 1048576].getD kind 0

def putKey (c : Crown) (kind : Nat) : Nat := 8 * c.num + kind

/-- Bytes of the unused copy's body with some written at an offset; what nothing has written is erased flash. -/
def putBytes (old : List Byte) (off : Nat) (bs : List Byte) : List Byte :=
  (old ++ List.replicate (off - old.length) 0xFF).take off ++ bs ++ old.drop (off + bs.length)

/-- FLASH_PUT: the offset counts from the item header, which only root firmware writes. -/
def execFlashPut (c : Crown) (session : Fin 8) (tag : W32) (kind : Fin 6) (offset : Nat) (payload : List Byte) (s : State) :
    Outcome State Fault Refusal :=
  s.onPanel fun p => p.hokuid c session tag.toNat mayOperate fun p =>
    if kind.val = 0 ∨ 61440 < payload.length ∨ offset < 64 ∨ itemArea kind < offset + payload.length ∨ p.powerFails then
      p.hokuidAnswer c session tag.toNat St.notPermitted []
    else
      let body := putBytes (look [] p.flash.put (putKey c kind)) (offset - 64) payload
      let p : Panel := { p with flash := { p.flash with put := put p.flash.put (putKey c kind) body } }
      p.hokuidAnswer c session tag.toNat St.done []

/-- A repair map from its body (R445). -/
def repairMapAt (b : List Byte) : List RepairEnt :=
  (List.range (leAt b 0 4)).map fun i =>
    let e := (b.drop (64 + 16 * i)).take 16
    { type := leAt e 0 1, cause := leAt e 1 1, site := leAt e 2 2, port := leAt e 4 1, module := leAt e 5 1, bank := leAt e 6 1
      spare := leAt e 7 1, row := leAt e 8 2, start := leAt e 10 4 }

/-- The crowns that take a commit: the one that received it and the other, when it is there. -/
def Panel.commitOn (p : Panel) (c : Crown) (kind : Nat) (body : List Byte) : Panel :=
  let p := p.commitCopy c kind body
  let p := if (p.crown c.other).lost then p else p.commitCopy c.other kind body
  { p with flash := { p.flash with put := drop p.flash.put (putKey c kind) } }

/-- FLASH_COMMIT: signed kinds need an authorisation of this start and a verifiable body; the training cache and the repair map need
neither. Whether a cache that is put here is one of this panel, the manual gives no layout to tell: a free value
(notes/assumptions/27.md). -/
def execFlashCommit (c : Crown) (session : Fin 8) (tag : W32) (kind : Fin 6) (s : State) : Outcome State Fault Refusal :=
  s.onPanel fun p => p.hokuid c session tag.toNat mayOperate fun p =>
    let answer (p : Panel) (st : Nat) : Panel := p.hokuidAnswer c session tag.toNat st []
    match find p.flash.put (putKey c kind) with
    | none => answer p St.notPermitted
    | some body =>
      if p.powerFails then answer p St.notPermitted
      else if kind.val ≤ 3 then
        let dg := sm3 body
        if (p.auths.any fun x => x.1 == kind.val && x.2 == dg) ∧ p.verifiable c kind body then
          let p := p.commitOn c kind body
          answer { p with auths := p.auths.filter fun x => !(x.1 == kind.val && x.2 == dg) } St.done
        else answer p St.notPermitted
      else if kind.val = 4 then
        let x := p.draw
        let p := x.2.commitOn c 4 body
        answer { p with flash := { p.flash with cache := if x.1.getLsbD 0 then some p.flash.repairGen else none } } St.done
      else
        let p := p.commitOn c 5 body
        answer { p with flash := { p.flash with repair := repairMapAt body, repairGen := p.flash.repairGen + 1 } } St.done

end Sys2Proof.Machine
end

