-- ==== Sys2Proof/Machine/Protection.lean ====
section
/-! DEFINITION. Root commands (R475, R478, R481, R482, R489) and protection changes (R485–R488). -/

namespace Sys2Proof.Machine

open Host (Outcome)

/-! ### The checks of a root command (R481, R482) -/

def cmdKind (b : List Byte) : Nat := leAt b 6 1
def cmdCtr (b : List Byte) : Nat := leAt b 24 8
def cmdAt (b : List Byte) : Nat := leAt b 32 8
def cmdItems (b : List Byte) : List ConfigItem := itemsAt b 64 (leAt b 4 2)

/-- Order 1: a kind-2 entry with the officer role verifies the signature. -/
def Panel.cmdSigned (p : Panel) (b : List Byte) : Bool :=
  let m := b.take (b.length - 64)
  decide (64 ≤ b.length) &&
    p.officers.any fun k => Config.sm2Verify (p.credKey k) (digestBits m) (keyBits (b.drop (b.length - 64)))

/-- An item of a root command: root origin, no stage, and registers that its kind may change. -/
def Panel.cmdItemOk (p : Panel) (kind : Nat) (i : ConfigItem) : Bool :=
  itemOk i 0 0 && i.flags.testBit 0 && !(p.itemDies i).isEmpty &&
    (p.itemDies i).all fun d =>
      let cred := decide (Reg.MGMT_CRED ≤ i.offset ∧ i.offset < Reg.MGMT_CRED + 0x800) && match d with
        | .crown _ => true
        | _ => false
      rootOnly d i.offset && (if kind = 2 then cred else !cred)

/-- Order 4: layout, kind, reserved bytes and items. -/
def Panel.cmdLaidOut (p : Panel) (kind : Nat) (b : List Byte) : Bool :=
  let n := leAt b 4 2
  let zero (i n : Nat) : Bool := leAt b i n == 0
  let body := if kind ≤ 2 then 16 * n else if kind = 3 then 8 else 64
  leAt b 0 4 == 0x524F4F54 && cmdKind b == kind && decide (n ≤ 256) && zero 7 1 && zero 40 24 && b.length == 64 + body + 64 &&
    (if kind ≤ 2 then (cmdItems b).all (p.cmdItemOk kind)
     else n == 0 && decide (1 ≤ leAt b 64 1) && decide (leAt b 64 1 ≤ 3) && zero 65 3 && (kind == 3 || zero 68 28))

/-- Orders 1 to 6: the first check that fails, by its order and status. -/
def Panel.cmdFault (p : Panel) (kind : Nat) (b : List Byte) : Option (Nat × Nat) :=
  if ¬ p.cmdSigned b then some (1, St.notPermitted)
  else if leAt b 8 8 ≠ p.fuses.serial.toNat ∨ leAt b 16 8 ≠ p.sh Reg.MGMT_BOOT_ID then some (2, St.notPermitted)
  else if cmdCtr b ≤ p.sh Reg.MGMT_RCMD_CTR then some (3, St.notPermitted)
  else if ¬ p.cmdLaidOut kind b then some (4, St.notPermitted)
  else if cmdAt b ≠ 0 ∧ cmdAt b < p.dial + 2 * ms then some (5, St.notPermitted)
  else if 4 ≤ p.rcmds.length then some (6, St.timedOut)
  else none

/-- The answer of a root command: MGMT_RCMD_STAT. -/
def Panel.cmdAnswer (p : Panel) (c : Crown) (n tag status : Nat) : Panel :=
  p.hokuidAnswer c n tag status (leBytes 8 (p.sh Reg.MGMT_RCMD_STAT))

/-- A root command of a kind: checked, its counter taken, and performed by `f`. -/
def Panel.rootCmd (p : Panel) (c : Crown) (n : Nat) (tag : W32) (kind : Nat) (b : List Byte) (f : Panel → Panel) : Panel :=
  p.hokuid c n tag.toNat mayCommand fun p =>
    match p.cmdFault kind b with
    | some (order, st) => (if order ≤ 3 then p.authFail c else p).cmdAnswer c n tag.toNat st
    | none => f (p.setSh Reg.MGMT_RCMD_CTR (cmdCtr b))

/-- A command of kind 2, 3 or 4 ended at once. -/
def Panel.cmdEnd (p : Panel) (c : Crown) (n : Nat) (tag : W32) (b : List Byte) (status : Nat) : Panel :=
  (p.showStat (if status = 0 then 4 else 5) 0 status (cmdKind b) (cmdCtr b)).cmdAnswer c n tag.toNat status

/-! ### Kinds 2 to 4 (R475, R478, R489) -/

/-- Items written with root origin, in order. -/
def Panel.writeItems (p : Panel) (is : List ConfigItem) : Panel :=
  is.foldl (fun p i => (p.writeItem (.ringRoot p.master) i).2) p

/-- CREDENTIAL_CHANGE: refused when it would leave no officer's key. -/
def execCredentialChange (c : Crown) (session : Fin 8) (tag : W32) (command : List Byte) (s : State) : Outcome State Fault Refusal :=
  s.onPanel fun p => p.rootCmd c session tag 2 command fun p =>
    let q := p.writeItems (cmdItems command)
    if q.officers.isEmpty then p.cmdEnd c session tag command St.notPermitted else q.cmdEnd c session tag command St.done

/-- Steps of the thermometer fuses of a kind (R475). -/
def floorTop (kind : Nat) : Nat := if kind = 2 then 127 else 63

/-- Security version of the copy in use on a crown; a crown that is not there sets no limit. -/
def Panel.svnUsed (p : Panel) (c : Crown) (kind : Nat) : Nat := ((p.inUse c kind).map fun f => itemSvn f.body).getD 0

/-- A floor that a command may set. -/
def Panel.floorOk (p : Panel) (kind v : Nat) : Bool :=
  decide (v ≤ floorTop kind) && !p.powerFails && [Crown.north, Crown.south].all fun c =>
    (p.crown c).lost || (decide (v ≤ p.svnUsed c kind) && decide (look 0 p.fuses.floors (8 * c.num + kind) ≤ v))

/-- ANTI_ROLLBACK_COMMIT: the floor rises in both crowns' fuses. -/
def execAntiRollbackCommit (c : Crown) (session : Fin 8) (tag : W32) (command : List Byte) (s : State) :
    Outcome State Fault Refusal :=
  s.onPanel fun p => p.rootCmd c session tag 3 command fun p =>
    let kind := leAt command 64 1
    let v := leAt command 68 4
    if ¬ p.floorOk kind v then p.cmdEnd c session tag command St.notPermitted
    else
      let fl := [Crown.north, Crown.south].foldl (fun m c => if (p.crown c).lost then m else put m (8 * c.num + kind) v) p.fuses.floors
      ({ p with fuses := { p.fuses with floors := fl } } : Panel).cmdEnd c session tag command St.done

/-- UPDATE_AUTHORISATION. -/
def execUpdateAuthorisation (c : Crown) (session : Fin 8) (tag : W32) (command : List Byte) (s : State) :
    Outcome State Fault Refusal :=
  s.onPanel fun p => p.rootCmd c session tag 4 command fun p =>
    ({ p with auths := p.auths ++ [(leAt command 64 1, (command.drop 96).take 32)] } : Panel).cmdEnd c session tag command St.done

/-! ### The close of a protection change (R486) -/

/-- What an item writes at a register: the item's value, or its half of the register. -/
def itemValue (i : ConfigItem) : Nat := if i.flags.testBit 1 then i.value.toNat else i.value.toNat % 2 ^ 32

/-- The last value that a list of items writes at a register of a die. -/
def Panel.itemFor (p : Panel) (is : List ConfigItem) (die : Die) (off : Nat) : Option Nat :=
  (is.reverse.find? fun i => i.offset == off && (p.itemDies i).contains die).map itemValue

/-- The crown whose block holds a shared table. -/
def Panel.newShared (p : Panel) (is : List ConfigItem) (off : Nat) : Nat :=
  (p.itemFor is (.crown .north) off <|> p.itemFor is (.crown .south) off).getD (p.sh off)

/-- A window of which a right is removed: what stands in its place until T. -/
def Panel.closeWindow (p : Panel) (is : List ConfigItem) (w : Nat) : Panel :=
  let a := Reg.WIN_ENT + 32 * w
  let old (j : Nat) : Nat := p.sh (a + 8 * j)
  let new (j : Nat) : Nat := p.newShared is (a + 8 * j)
  let o := WinEnt.ofWords (old 0) (old 1) (old 2)
  let n := WinEnt.ofWords (new 0) (new 1) (new 2)
  let words : Nat × Nat × Nat :=
    if o.base = n.base ∧ o.part = n.part then
      let both := old 0 &&& new 0
      (both, old 1 &&& new 1, o.part * 2 ^ 20 + min o.size n.size)
    else (setFld (BitVec.ofNat 64 (old 0)) 62 62 0 |>.toNat, old 1, old 2)
  if ¬ o.valid ∨ (old 0, old 1, old 2) = words then p
  else (List.range 8).foldl (fun p d =>
    if p.fuses.diePresent d then p.modPort d fun k => { k with shut := put k.shut w words } else p) p

/-- Bands of a word of HUB_BAND whose owner is removed or changed. -/
def changedBands (old new q : Nat) : List Nat :=
  ([0, 1, 2, 3].filter fun j => bits old (8 * j + 7) (8 * j + 6) != 0 && bits old (8 * j + 7) (8 * j) != bits new (8 * j + 7) (8 * j)).map
    fun j => 4 * q + j

/-- A queue set disabled under R358. -/
def Panel.disableSet (p : Panel) (q : Nat) : Panel :=
  let s := p.qset q
  if ¬ s.on then p
  else p.setQ q { s with
    on := false, busy := true, due := [], tdue := [], unsig := 0, downAt := p.dial
    regs := rfSet s.regs 0 (BitVec.ofNat 64 ((rfGet s.regs 0).toNat % 2 ^ 31)) }

/-- Sets of a function. -/
def Panel.setsOf (p : Panel) (f : Nat) : List Nat :=
  (p.qsets.filter fun (x : Nat × QueueSet) => p.qOwner x.1 == some f).map fun (x : Nat × QueueSet) => x.1

/-- A segment whose rights are reduced or which is mapped elsewhere. -/
def Panel.segReduced (p : Panel) (f s new0 new1 : Nat) : Bool :=
  let o0 := p.seg f s 0
  let o1 := p.seg f s 1
  o0.testBit 63 && (o0 % 2 ^ 56 != new0 % 2 ^ 56 || (o0 &&& new0) / 2 ^ 61 != o0 / 2 ^ 61 || decide (new1 % 2 ^ 20 < o1 % 2 ^ 20))

/-- The rights that one item removes withdrawn from one die. -/
def Panel.closeItem (p : Panel) (is : List ConfigItem) (i : ConfigItem) (die : Die) : Panel :=
  let v := itemValue i
  let within (base size : Nat) : Bool := decide (base ≤ i.offset ∧ i.offset < base + size)
  match die with
  | .core n =>
    let k := p.core n
    if ¬ k.powered ∨ k.rd Reg.CORE_PART = v &&& 0x8000001F then p
    else
      let st := k.seq.state
      let k := if st = .run ∨ st = .idle ∨ st = .paused then k.cmd 4 else k
      p.setCore n { k with staged := some (BitVec.ofNat 64 v) }
  | .hub h => p.modHub h fun k =>
      let q := (i.offset - Reg.HUB_BAND) / 4
      { k with shut := (changedBands (k.rd i.offset) v q).foldl insertNat k.shut }
  | .port _ => p
  | .crown _ =>
    if within Reg.WIN_ENT 0x2000 then p.closeWindow is ((i.offset - Reg.WIN_ENT) / 32)
    else if within Reg.HOST_SEG 0x8000 then
      let e := (i.offset - Reg.HOST_SEG) / 16
      let w (j : Nat) : Nat := (p.itemFor is (.crown .north) (Reg.HOST_SEG + 16 * e + 8 * j)).getD (p.seg (e / 64) (e % 64) j)
      if p.segReduced (e / 64) (e % 64) (w 0) (w 1) then p.modFn (e / 64) fun k => { k with shut := insertNat k.shut (e % 64) } else p
    else if within Reg.HOST_FNPART 0x80 then
      let f := (i.offset - Reg.HOST_FNPART) / 4
      if (p.crown .north).rd i.offset = v then p else (p.setsOf f).foldl Panel.disableSet p
    else if within Reg.HOST_QOWN 0x1000 then
      let k := (i.offset - Reg.HOST_QOWN) / 4
      let old := (p.crown .north).rd i.offset
      ([0, 1, 2, 3].filter fun j => bits old (8 * j + 7) (8 * j) != bits v (8 * j + 7) (8 * j)).foldl (fun p j => p.disableSet (4 * k + j)) p
    else p
  | .bar0 _ => p

/-- Step 1 of R485: every right that the change removes is withdrawn. -/
def Panel.closeAll (p : Panel) (is : List ConfigItem) : Panel :=
  is.foldl (fun p i => (p.itemDies i).foldl (fun p die => p.closeItem is i die) p) p

/-- A command waits while an adoption is due, and while it names a core or a partition under repair (R488). -/
def Panel.cmdWaits (p : Panel) (is : List ConfigItem) : Bool :=
  match p.repair with
  | none => false
  | some r => (r.steps == 0 && !r.failed) || is.any fun i => (p.itemDies i).any fun d => match d with
    | .core n => r.sites.contains n.val || r.taken.any (fun x => x.1 == n.val) || (match p.partOf n with
      | some q => r.parts.contains q
      | none => false)
    | .crown _ =>
      r.parts.any fun q => i.offset == Reg.MGMT_PART + 8 * q || i.offset == Reg.CTX_PLIM + 4 * q
    | _ => false

/-- The next command of kind 1 begins when none runs. -/
def Panel.nextChange (p : Panel) : Panel :=
  match p.change, p.rcmds with
  | none, r :: _ =>
    if p.cmdWaits r.items then p
    else
      let r := if r.at' = 0 then { r with at' := p.dial + 2 * ms } else r
      ({ p with change := some { cmd := r } } : Panel).closeAll r.items |>.showStat 2 0 0 1 r.ctr
  | _, _ => p

/-- PROTECTION_CHANGE: a command of kind 1 checked and held; it closes at once when none runs before it. -/
def execProtectionChange (c : Crown) (session : Fin 8) (tag : W32) (command : List Byte) (s : State) : Outcome State Fault Refusal :=
  s.onPanel fun p => p.rootCmd c session tag 1 command fun p =>
    let r : RootCmd :=
      { c := c, session := session, tag := tag.toNat, at' := cmdAt command, ctr := cmdCtr command, items := cmdItems command }
    ({ p with rcmds := p.rcmds ++ [r] } : Panel).nextChange

/-! ### Steps 2 to 5 of R485 -/

/-- T moves 1 ms later, at most 10 times; then the change ends TIMED_OUT. -/
def Panel.moveChange (p : Panel) (ch : Change) : Panel :=
  if 10 ≤ ch.moves then (p.endChange ch 5 St.timedOut).nextChange
  else
    let ch := { ch with moves := ch.moves + 1, cmd := { ch.cmd with at' := ch.cmd.at' + ms } }
    ({ p with change := some ch } : Panel).showStat (if ch.staged then 3 else 2) ch.moves 0 1 ch.cmd.ctr

/-- PROTECTION_STAGE_CHECK: staged by T − 1 ms, or T moves. With no change running, the next command begins. -/
def execProtectionStageCheck (s : State) : Outcome State Fault Refusal :=
  s.onPanel fun p =>
    match p.change with
    | none => p.nextChange
    | some ch =>
      if ch.staged then p
      else if p.dial + ms ≤ ch.cmd.at' then
        ({ p with change := some { ch with staged := true } } : Panel).showStat 3 ch.moves 0 1 ch.cmd.ctr
      else p.moveChange ch

/-- No access admitted under a withdrawn right is still unanswered, for one item at one die (R486). -/
def Panel.drainedAt (p : Panel) (i : ConfigItem) (die : Die) : Bool :=
  let within (base size : Nat) : Bool := decide (base ≤ i.offset ∧ i.offset < base + size)
  match die with
  | .core n => let k := p.core n; !k.powered || k.staged.isNone || k.seq.state == .test
  | .hub h =>
    let k := p.hub h
    let q := (i.offset - Reg.HUB_BAND) / 4
    let old := k.rd i.offset
    k.lost || [0, 1, 2, 3].all fun j =>
      let b := 4 * q + j
      let owner := bits old (8 * j + 4) (8 * j)
      !k.shut.contains b ||
        (k.cmdq.all (fun x => x.2.1 != owner) && k.run.all (fun x => x.2.part != owner) &&
          k.arr.all fun x => x.2.all fun y => y.hdr.part != owner ||
            !(match p.decodeGA y.hdr.ga with
              | .ok (.hbm x off) => x == h && off / 0x4000000 == b
              | _ => false))
  | .port _ => true
  | .crown _ =>
    if within Reg.WIN_ENT 0x2000 then
      let w := (i.offset - Reg.WIN_ENT) / 32
      p.ports.all fun x => (find x.2.shut w).isNone || x.2.fab.all fun f => f.2.inc.all fun t => t.2.win != w
    else if within Reg.HOST_SEG 0x8000 then
      let e := (i.offset - Reg.HOST_SEG) / 16
      let k := p.fn (e / 64)
      !k.shut.contains (e % 64) || k.reads.all fun r => r.off / (barSize (e / 64) / 64) != e % 64
    else if within Reg.HOST_FNPART 0x80 then (p.setsOf ((i.offset - Reg.HOST_FNPART) / 4)).all fun q => !(p.qset q).busy
    else if within Reg.HOST_QOWN 0x1000 then [0, 1, 2, 3].all fun j => !(p.qset (4 * ((i.offset - Reg.HOST_QOWN) / 4) + j)).busy
    else true
  | .bar0 _ => true

/-- A core cleared for its new partition (R487). -/
def Core.clearOut (k : Core) : Core :=
  let k := { k with
    spad := { k.spad with mem := {} }, ve := { k.ve with vregs := [], progs := [] }
    me := k.me.map fun (x : Nat × MatEng) => (x.1, { x.2 with tiles := [] })
    seq := { k.seq with sem := [], inbox := [], starts := [] } }
  (List.range 31).foldl (fun k i => (k.wr (Reg.SPAD_PLAN + 8 * (i + 1)) 0).wr (Reg.SPAD_PLAN_CTL + 4 * (i + 1)) 0) k

/-- A band zeroed, but for its sealed pages, which take no write (R242). -/
def Hub.zeroBand (k : Hub) (b : Nat) : Hub :=
  let goes (a : Nat) : Bool := a / 0x4000000 == b && !k.sealed a 1
  { k with mem := {
      cells := k.mem.cells.filter fun (x : Nat × Byte) => !goes x.1
      chk := k.mem.chk.filter fun (x : Nat × Byte) => !goes (x.1 / 4 * 32)
      poison := k.mem.poison.filter fun n => !goes (32 * n) } }

/-- Moved resources cleared: cores that change, and bands that a new owner takes (R487). -/
def Panel.clearMoved (p : Panel) (i : ConfigItem) (die : Die) : Panel :=
  match die with
  | .core n => p.modCore n fun k => if k.staged.isSome then k.clearOut else k
  | .hub h =>
    let q := (i.offset - Reg.HUB_BAND) / 4
    let old := (p.hub h).rd i.offset
    let v := itemValue i
    if (p.hub h).stack ≠ 2 then p
    else ([0, 1, 2, 3].filter fun j =>
        bits v (8 * j + 7) (8 * j + 6) != 0 && bits old (8 * j + 7) (8 * j) != bits v (8 * j + 7) (8 * j)).foldl (fun p j =>
      p.modHub h fun k => k.zeroBand (4 * q + j)) p
  | _ => p

/-- PROTECTION_DRAIN_CHECK: drained and cleared by T − 100 µs, or T moves. -/
def execProtectionDrainCheck (s : State) : Outcome State Fault Refusal :=
  s.onPanel fun p =>
    match p.change with
    | none => p
    | some ch =>
      if ch.drained then p
      else if p.dial + 100 * us ≤ ch.cmd.at' then
        let all (f : ConfigItem → Die → Bool) : Bool := ch.cmd.items.all fun i => (p.itemDies i).all (f i)
        if all p.drainedAt then
          let p := ch.cmd.items.foldl (fun p i => (p.itemDies i).foldl (fun p d => p.clearMoved i d) p) p
          { p with change := some { ch with drained := true } }
        else p
      else p.moveChange ch

/-- PROTECTION_SWITCH: at T every die switches; the command is answered and the next begins. -/
def execProtectionSwitch (s : State) : Outcome State Fault Refusal :=
  s.onPanel fun p =>
    match p.change with
    | none => p
    | some ch =>
      if ¬ ch.staged ∨ ¬ ch.drained ∨ p.dial < ch.cmd.at' then p
      else ((p.writeItems ch.cmd.items).endChange ch 4 St.done).nextChange

end Sys2Proof.Machine
end

