-- ==== Sys2Proof/Machine/Spdm.lean ====
section
/-! DEFINITION. Attestation: measurements, the SPDM messages of the PF's DOE instance, and Hokuid's ATTEST (R368, R471, R491–R493).
The layout of the messages is that of SPDM 1.3 (PRESUMED, notes/assumptions/26.md). -/

namespace Sys2Proof.Machine

open Host (Outcome)

/-! ### Measurements (R492, R493) -/

/-- The repair map's body (R445). -/
def repairMapBytes (es : List RepairEnt) : List Byte :=
  padTo 64 (leBytes 4 es.length) ++ es.flatMap fun e =>
    leBytes 1 e.type ++ leBytes 1 e.cause ++ leBytes 2 e.site ++ leBytes 1 e.port ++ leBytes 1 e.module ++ leBytes 1 e.bank ++
      leBytes 1 e.spare ++ leBytes 2 e.row ++ leBytes 4 e.start ++ [0, 0]

/-- A model block (R493). -/
def Model.block (x : Model) (m : Nat) : List Byte :=
  leBytes 1 x.part ++ leBytes 1 m ++ [0, 0] ++ padTo 32 x.programs ++ padTo 32 x.weights ++ padTo 32 ((x.header.drop 16).take 32) ++
    leBytes 4 (leAt x.header 6 2)

/-- The value of a block on a crown, with the DMTF type of its value; none where there is no such block. -/
def Panel.measurement (p : Panel) (c : Crown) (i : Nat) : Option (Nat × List Byte) :=
  let body (kind : Nat) : Option (List Byte) := (p.inUse c kind).map fun f => sm3 f.body
  let svn (kind : Nat) : List Byte := leBytes 4 (((p.inUse c kind).map fun f => itemSvn f.body).getD 0)
  let floor (kind : Nat) : List Byte := leBytes 1 (look 0 p.fuses.floors (8 * c.num + kind))
  if i = 1 then some (0, padTo 32 (Config.romDigest c.num))
  else if i = 2 then (body 1).map fun b => (1, b)
  else if i = 3 then (body 2).map fun b => (1, b)
  else if i = 4 then (body 3).map fun b => (2, b)
  else if i = 5 then some (2, padTo 32 (Config.fuseDigest p.fuses.floors))
  else if i = 6 then some (2, sm3 (repairMapBytes p.flash.repair))
  else if i = 7 then some (2, p.protDigest)
  else if i = 8 then some (0x80, floor 1 ++ floor 2 ++ floor 3 ++ [0] ++ svn 1 ++ svn 2 ++ svn 3)
  else if 0x20 ≤ i ∧ i < 0x30 then
    let x := p.model (i - 0x20)
    if x.state = 4 then some (0x80, x.block (i - 0x20)) else none
  else none

/-- The indices that a crown has blocks for. -/
def Panel.measured (p : Panel) (c : Crown) : List Nat := (List.range 0x30).filter fun i => (p.measurement c i).isSome

/-- One block as a measurement record holds it. -/
def Panel.blockBytes (p : Panel) (c : Crown) (i : Nat) : List Byte := match p.measurement c i with
  | none => []
  | some (t, v) => leBytes 1 i ++ [1] ++ leBytes 2 (v.length + 3) ++ leBytes 1 t ++ leBytes 2 v.length ++ v

/-- A 32-byte nonce of the random source. -/
def Panel.nonce (p : Panel) : List Byte × Panel :=
  [0, 1, 2, 3].foldl (fun (acc : List Byte × Panel) _ =>
    let x := acc.2.random
    (acc.1 ++ leBytes 8 x.1.toNat, x.2)) ([], p)

/-- A body signed with the attestation key over the requester's nonce and the body. -/
def Panel.signed (p : Panel) (c : Crown) (asked : List Byte) (body : List Byte) : List Byte × Panel :=
  let sig := Config.sm2Sign (Config.attestKey c.num) (digestBits (asked ++ body)) p.randoms
  (body ++ leBytes 64 sig.toNat, { p with randoms := p.randoms + 1 })

/-- The MEASUREMENTS response with some blocks, signed over a nonce. -/
def Panel.measurements (p : Panel) (c : Crown) (slot count : Nat) (is : List Nat) (asked : List Byte) : List Byte × Panel :=
  let record := is.flatMap (p.blockBytes c)
  let x := p.nonce
  x.2.signed c asked ([0x13, 0x60] ++ leBytes 1 count ++ leBytes 1 slot ++ leBytes 1 is.length ++ leBytes 3 record.length ++ record ++
    x.1 ++ [0, 0] ++ List.replicate 8 0)

/-! ### SPDM over DOE (R368, R491) -/

/-- An ERROR response. -/
def spdmError (code data : Nat) : List Byte := [0x13, 0x7F] ++ leBytes 1 code ++ leBytes 1 data

/-- The request at the head, taken and answered. -/
def Panel.spdmAnswer (p : Panel) (r : SpdmRequest) (body : List Byte) : Panel :=
  { p with doe := p.doe.drop 1 }.emit (.spdm r body)

/-- Requests at the head that no message of the profile answers get ERROR (unsupported request). -/
def Panel.spdmOthers : Nat → Panel → Panel
  | 0, p => p
  | n + 1, p => match p.doe with
    | .other code :: _ => Panel.spdmOthers n (p.spdmAnswer (.other code) (spdmError 7 code))
    | _ => p

/-- A message of the profile: `f` answers the head request when it is of this message's kind. While the random source fails, the
request fails (R472); before the algorithms have been negotiated only the first three messages are served. -/
def State.spdm (s : State) (first : Bool) (f : Panel → SpdmRequest → Option (List Byte × Panel)) : Outcome State Fault Refusal :=
  s.onPanel fun p =>
    if ¬ p.hostUp ∨ p.doeError then p
    else
      let p := Panel.spdmOthers p.doe.length p
      match p.doe with
      | [] => p
      | r :: _ => match f p r with
        | none => p
        | some (body, q) =>
          if (p.crown .north).rngBad then p.spdmAnswer r (spdmError 5 0)
          else if ¬ first ∧ ¬ p.spdmAlgos then p.spdmAnswer r (spdmError 4 0)
          else q.spdmAnswer r body

/-- GET_VERSION: SPDM 1.3; negotiation begins anew. -/
def execGetVersion (s : State) : Outcome State Fault Refusal :=
  s.spdm true fun p r => match r with
    | .getVersion => some ([0x10, 0x04, 0, 0, 0, 1, 0x00, 0x13], { p with spdmAlgos := false })
    | _ => none

/-- GET_CAPABILITIES: CERT_CAP, CHAL_CAP and MEAS_CAP = 2; the response time exponent is a free value. -/
def execGetCapabilities (s : State) : Outcome State Fault Refusal :=
  s.spdm true fun p r => match r with
    | .getCapabilities =>
      let x := p.draw
      some ([0x13, 0x61, 0, 0, 0] ++ leBytes 1 x.1.toNat ++ [0, 0] ++ leBytes 4 0x16 ++ leBytes 4 16384 ++ leBytes 4 16384, x.2)
    | _ => none

/-- NEGOTIATE_ALGORITHMS: SM2, SM3 for both hashes, and the DMTF specification; ERROR when one of them is not offered. -/
def execNegotiateAlgorithms (s : State) : Outcome State Fault Refusal :=
  s.spdm true fun p r => match r with
    | .negotiateAlgorithms sm2 sm3Base sm3Meas dmtf =>
      if sm2 ∧ sm3Base ∧ sm3Meas ∧ dmtf then
        some ([0x13, 0x63, 0, 0] ++ leBytes 2 36 ++ [1, 0] ++ leBytes 4 0x80 ++ leBytes 4 0x200 ++ leBytes 4 0x40 ++ List.replicate 16 0,
          { p with spdmAlgos := true })
      else some (spdmError 1 0, p)
    | _ => none

/-- GET_DIGESTS: slot 0 alone is provisioned. -/
def execGetDigests (s : State) : Outcome State Fault Refusal :=
  s.spdm false fun p r => match r with
    | .getDigests => some ([0x13, 0x01, 0x01, 0x01] ++ sm3 (Config.attestChain 0), p)
    | _ => none

/-- GET_CERTIFICATE. -/
def execGetCertificate (s : State) : Outcome State Fault Refusal :=
  s.spdm false fun p r => match r with
    | .getCertificate slot offset length =>
      let chain := Config.attestChain 0
      if slot ≠ 0 ∨ chain.length ≤ offset then some (spdmError 1 0, p)
      else
        let part := (chain.drop offset).take length
        some ([0x13, 0x02] ++ leBytes 1 slot ++ [0] ++ leBytes 2 part.length ++ leBytes 2 (chain.length - offset - part.length) ++ part, p)
    | _ => none

/-- CHALLENGE. -/
def execChallenge (s : State) : Outcome State Fault Refusal :=
  s.spdm false fun p r => match r with
    | .challenge slot nonce =>
      if slot ≠ 0 then some (spdmError 1 0, p)
      else
        let x := p.nonce
        some (x.2.signed .north (leBytes 32 nonce.toNat)
          ([0x13, 0x03, 0, 0x01] ++ sm3 (Config.attestChain 0) ++ x.1 ++ [0, 0] ++ List.replicate 8 0))
    | _ => none

/-- GET_MEASUREMENTS: the number of blocks (index 0), one block, or all (index 0xFF). -/
def execGetMeasurements (s : State) : Outcome State Fault Refusal :=
  s.spdm false fun p r => match r with
    | .getMeasurements slot nonce index =>
      let all := p.measured .north
      let is := if index = 0 then [] else if index = 0xFF then all else all.filter (· == index)
      if slot ≠ 0 ∨ (index ≠ 0 ∧ is.isEmpty) then some (spdmError 1 0, p)
      else some (p.measurements .north slot (if index = 0 then all.length else 0) is (leBytes 32 nonce.toNat))
    | _ => none

/-! ### ATTEST (R480, R493) -/

/-- ATTEST: the MEASUREMENTS response over the nonce, with the blocks asked for, or all. While the random source fails, nothing is
signed. -/
def execAttest (c : Crown) (session : Fin 8) (tag : W32) (nonce : BitVec 256) (indices : List Byte) (s : State) :
    Outcome State Fault Refusal :=
  s.onPanel fun p => p.hokuid c session tag.toNat mayObserve fun p =>
    let all := p.measured c
    let want := indices.map BitVec.toNat
    let is := if want.contains 0xFF then all else all.filter want.contains
    if (p.crown c).rngBad then p.hokuidAnswer c session tag.toNat St.notPermitted []
    else
      let x := p.measurements c 0 0 is (leBytes 32 nonce.toNat)
      x.2.hokuidAnswer c session tag.toNat St.done x.1

end Sys2Proof.Machine
end

