-- ==== Sys2Proof/Machine/Dispatch.lean ====
section
/-! DEFINITION. One arm for each command of the opcode table: each is one direct call of the command's meaning. -/

namespace Sys2Proof.Machine

/-- What a command does to everything but the queue. -/
def exec (i : Instr) (s : State) : Host.Outcome State Fault Refusal :=
  match i with
  | .registerWrite a1 a2 a3 a4 a5 => Sys2Proof.Machine.execRegisterWrite a1 a2 a3 a4 a5 s
  | .wrongWidthAccess a1 a2 a3 a4 a5 => Sys2Proof.Machine.execWrongWidthAccess a1 a2 a3 a4 a5 s
  | .rcCounterRead a1 a2 a3 a4 => Sys2Proof.Machine.execRcCounterRead a1 a2 a3 a4 s
  | .lowHalfReadLatch a1 a2 a3 => Sys2Proof.Machine.execLowHalfReadLatch a1 a2 a3 s
  | .pause a1 => Sys2Proof.Machine.execPause a1 s
  | .resume a1 => Sys2Proof.Machine.execResume a1 s
  | .abort a1 => Sys2Proof.Machine.execAbort a1 s
  | .abortComplete a1 => Sys2Proof.Machine.execAbortComplete a1 s
  | .drain a1 => Sys2Proof.Machine.execDrain a1 s
  | .drainComplete a1 => Sys2Proof.Machine.execDrainComplete a1 s
  | .test a1 => Sys2Proof.Machine.execTest a1 s
  | .heartbeat a1 => Sys2Proof.Machine.execHeartbeat a1 s
  | .coreLossDetect a1 => Sys2Proof.Machine.execCoreLossDetect a1 s
  | .regionSummary a1 => Sys2Proof.Machine.execRegionSummary a1 s
  | .agentLossDetect a1 => Sys2Proof.Machine.execAgentLossDetect a1 s
  | .heartbeatReroute a1 => Sys2Proof.Machine.execHeartbeatReroute a1 s
  | .agentAppoint a1 => Sys2Proof.Machine.execAgentAppoint a1 s
  | .start a1 a2 => Sys2Proof.Machine.execStart a1 a2 s
  | .taskStart a1 => Sys2Proof.Machine.execTaskStart a1 s
  | .taskListCopyEnd a1 => Sys2Proof.Machine.execTaskListCopyEnd a1 s
  | .engineGate a1 => Sys2Proof.Machine.execEngineGate a1 s
  | .engineWake a1 => Sys2Proof.Machine.execEngineWake a1 s
  | .nop a1 => Sys2Proof.Machine.execNop a1 s
  | .endWord a1 => Sys2Proof.Machine.execEndWord a1 s
  | .fence a1 => Sys2Proof.Machine.execFence a1 s
  | .dispatch a1 => Sys2Proof.Machine.execDispatch a1 s
  | .dmaStart a1 => Sys2Proof.Machine.execDmaStart a1 s
  | .semWait a1 => Sys2Proof.Machine.execSemWait a1 s
  | .semWaitTimeout a1 => Sys2Proof.Machine.execSemWaitTimeout a1 s
  | .semSignal a1 => Sys2Proof.Machine.execSemSignal a1 s
  | .semRead a1 => Sys2Proof.Machine.execSemRead a1 s
  | .post a1 => Sys2Proof.Machine.execPost a1 s
  | .recv a1 => Sys2Proof.Machine.execRecv a1 s
  | .recvTimeout a1 => Sys2Proof.Machine.execRecvTimeout a1 s
  | .ldi a1 => Sys2Proof.Machine.execLdi a1 s
  | .alu a1 => Sys2Proof.Machine.execAlu a1 s
  | .loop a1 => Sys2Proof.Machine.execLoop a1 s
  | .br a1 => Sys2Proof.Machine.execBr a1 s
  | .taskFault a1 => Sys2Proof.Machine.execTaskFault a1 s
  | .seqFaultClr a1 a2 a3 => Sys2Proof.Machine.execSeqFaultClr a1 a2 a3 s
  | .semSignalPacket a1 => Sys2Proof.Machine.execSemSignalPacket a1 s
  | .msg a1 => Sys2Proof.Machine.execMsg a1 s
  | .completion a1 => Sys2Proof.Machine.execCompletion a1 s
  | .readData a1 => Sys2Proof.Machine.execReadData a1 s
  | .mm a1 a2 => Sys2Proof.Machine.execMm a1 a2 s
  | .mv a1 a2 => Sys2Proof.Machine.execMv a1 a2 s
  | .accZero a1 a2 => Sys2Proof.Machine.execAccZero a1 a2 s
  | .accLoad a1 a2 => Sys2Proof.Machine.execAccLoad a1 a2 s
  | .accStore a1 a2 => Sys2Proof.Machine.execAccStore a1 a2 s
  | .meOpComplete a1 a2 a3 => Sys2Proof.Machine.execMeOpComplete a1 a2 a3 s
  | .meFaultClr a1 a2 a3 => Sys2Proof.Machine.execMeFaultClr a1 a2 a3 s
  | .meTblkBadClr a1 a2 a3 => Sys2Proof.Machine.execMeTblkBadClr a1 a2 a3 s
  | .emap a1 => Sys2Proof.Machine.execEmap a1 s
  | .emapDescriptorRead a1 => Sys2Proof.Machine.execEmapDescriptorRead a1 s
  | .eprog a1 => Sys2Proof.Machine.execEprog a1 s
  | .vload a1 => Sys2Proof.Machine.execVload a1 s
  | .vstore a1 => Sys2Proof.Machine.execVstore a1 s
  | .veOpComplete a1 a2 => Sys2Proof.Machine.execVeOpComplete a1 a2 s
  | .rsum a1 => Sys2Proof.Machine.execRsum a1 s
  | .rmax a1 => Sys2Proof.Machine.execRmax a1 s
  | .rmin a1 => Sys2Proof.Machine.execRmin a1 s
  | .argmax a1 => Sys2Proof.Machine.execArgmax a1 s
  | .topk a1 => Sys2Proof.Machine.execTopk a1 s
  | .smpair a1 => Sys2Proof.Machine.execSmpair a1 s
  | .pmerge a1 => Sys2Proof.Machine.execPmerge a1 s
  | .tapPairStart a1 => Sys2Proof.Machine.execTapPairStart a1 s
  | .ruOpComplete a1 => Sys2Proof.Machine.execRuOpComplete a1 s
  | .veFaultClr a1 a2 a3 => Sys2Proof.Machine.execVeFaultClr a1 a2 a3 s
  | .ruFaultClr a1 a2 a3 => Sys2Proof.Machine.execRuFaultClr a1 a2 a3 s
  | .spadPlanWrite a1 a2 a3 a4 => Sys2Proof.Machine.execSpadPlanWrite a1 a2 a3 a4 s
  | .spadPlanCtlWrite a1 a2 a3 a4 => Sys2Proof.Machine.execSpadPlanCtlWrite a1 a2 a3 a4 s
  | .reshape a1 a2 a3 => Sys2Proof.Machine.execReshape a1 a2 a3 s
  | .reshapeDrainTimeout a1 => Sys2Proof.Machine.execReshapeDrainTimeout a1 s
  | .reshapeSupplySettled a1 => Sys2Proof.Machine.execReshapeSupplySettled a1 s
  | .reshapeComplete a1 => Sys2Proof.Machine.execReshapeComplete a1 s
  | .accReadTurn a1 a2 => Sys2Proof.Machine.execAccReadTurn a1 a2 s
  | .accWriteTurn a1 a2 => Sys2Proof.Machine.execAccWriteTurn a1 a2 s
  | .ingressWrite a1 a2 => Sys2Proof.Machine.execIngressWrite a1 a2 s
  | .ingressRead a1 a2 => Sys2Proof.Machine.execIngressRead a1 a2 s
  | .scrubPatrol a1 a2 => Sys2Proof.Machine.execScrubPatrol a1 a2 s
  | .scrubWriteBack a1 => Sys2Proof.Machine.execScrubWriteBack a1 s
  | .spadErrClr a1 a2 a3 => Sys2Proof.Machine.execSpadErrClr a1 a2 a3 s
  | .flitReceive a1 a2 a3 => Sys2Proof.Machine.execFlitReceive a1 a2 a3 s
  | .flitReplay a1 a2 => Sys2Proof.Machine.execFlitReplay a1 a2 s
  | .packetHop a1 a2 a3 => Sys2Proof.Machine.execPacketHop a1 a2 a3 s
  | .write a1 => Sys2Proof.Machine.execWrite a1 s
  | .writeAcc a1 => Sys2Proof.Machine.execWriteAcc a1 s
  | .readReq a1 => Sys2Proof.Machine.execReadReq a1 s
  | .mcastWrite a1 => Sys2Proof.Machine.execMcastWrite a1 s
  | .reduce a1 a2 => Sys2Proof.Machine.execReduce a1 a2 s
  | .reduceDelivery a1 => Sys2Proof.Machine.execReduceDelivery a1 s
  | .reduceRoundTimeout a1 a2 => Sys2Proof.Machine.execReduceRoundTimeout a1 a2 s
  | .meshRedWrite a1 a2 a3 a4 => Sys2Proof.Machine.execMeshRedWrite a1 a2 a3 a4 s
  | .meshInjCfgWrite a1 a2 a3 a4 => Sys2Proof.Machine.execMeshInjCfgWrite a1 a2 a3 a4 s
  | .throttleLevelEnd a1 a2 => Sys2Proof.Machine.execThrottleLevelEnd a1 a2 s
  | .linkDown a1 a2 => Sys2Proof.Machine.execLinkDown a1 a2 s
  | .laneRepair a1 a2 a3 a4 => Sys2Proof.Machine.execLaneRepair a1 a2 a3 a4 s
  | .laneRepairDone a1 a2 a3 a4 => Sys2Proof.Machine.execLaneRepairDone a1 a2 a3 a4 s
  | .routeMapRewrite => Sys2Proof.Machine.execRouteMapRewrite s
  | .descriptorRead a1 a2 => Sys2Proof.Machine.execDescriptorRead a1 a2 s
  | .dmaCopy a1 a2 => Sys2Proof.Machine.execDmaCopy a1 a2 s
  | .dmaFill a1 a2 => Sys2Proof.Machine.execDmaFill a1 a2 s
  | .dmaSignal a1 a2 => Sys2Proof.Machine.execDmaSignal a1 a2 s
  | .dmaReduce a1 a2 => Sys2Proof.Machine.execDmaReduce a1 a2 s
  | .dmaPieceIssue a1 a2 => Sys2Proof.Machine.execDmaPieceIssue a1 a2 s
  | .dmaRequestTimeout a1 a2 a3 => Sys2Proof.Machine.execDmaRequestTimeout a1 a2 a3 s
  | .dmaDescriptorComplete a1 a2 => Sys2Proof.Machine.execDmaDescriptorComplete a1 a2 s
  | .dmaFaultClr a1 a2 a3 => Sys2Proof.Machine.execDmaFaultClr a1 a2 a3 s
  | .winEntWrite a1 a2 a3 a4 => Sys2Proof.Machine.execWinEntWrite a1 a2 a3 a4 s
  | .loadBegin a1 => Sys2Proof.Machine.execLoadBegin a1 s
  | .loadCommit a1 => Sys2Proof.Machine.execLoadCommit a1 s
  | .loadIdleTimeout a1 => Sys2Proof.Machine.execLoadIdleTimeout a1 s
  | .loadTargetsIdle a1 => Sys2Proof.Machine.execLoadTargetsIdle a1 s
  | .loadReady a1 => Sys2Proof.Machine.execLoadReady a1 s
  | .unload a1 => Sys2Proof.Machine.execUnload a1 s
  | .admitSlot a1 => Sys2Proof.Machine.execAdmit a1 s
  | .cancel a1 => Sys2Proof.Machine.execCancel a1 s
  | .ctxMsgReceive a1 => Sys2Proof.Machine.execCtxMsgReceive a1 s
  | .swapIn a1 => Sys2Proof.Machine.execSwapIn a1 s
  | .pageIn a1 a2 => Sys2Proof.Machine.execPageIn a1 a2 s
  | .stepStart a1 a2 => Sys2Proof.Machine.execStepStart a1 a2 s
  | .stepComplete a1 a2 => Sys2Proof.Machine.execStepComplete a1 a2 s
  | .stepTimeout a1 a2 => Sys2Proof.Machine.execStepTimeout a1 a2 s
  | .sampleRow a1 a2 => Sys2Proof.Machine.execSampleRow a1 a2 s
  | .mirrorAck a1 a2 => Sys2Proof.Machine.execMirrorAck a1 a2 s
  | .deadlineExpire a1 a2 => Sys2Proof.Machine.execDeadlineExpire a1 a2 s
  | .contextFree a1 a2 => Sys2Proof.Machine.execContextFree a1 a2 s
  | .outputPathTimeout a1 a2 => Sys2Proof.Machine.execOutputPathTimeout a1 a2 s
  | .crownLoss a1 => Sys2Proof.Machine.execCrownLoss a1 s
  | .forecastPost a1 => Sys2Proof.Machine.execForecastPost a1 s
  | .stepCommand a1 => Sys2Proof.Machine.execStepCommand a1 s
  | .stepReport a1 => Sys2Proof.Machine.execStepReport a1 s
  | .mirrorUpdate a1 => Sys2Proof.Machine.execMirrorUpdate a1 s
  | .tokenRecordMessage a1 => Sys2Proof.Machine.execTokenRecordMessage a1 s
  | .fabricRecordResend a1 a2 => Sys2Proof.Machine.execFabricRecordResend a1 a2 s
  | .ctxCfgWrite a1 a2 a3 => Sys2Proof.Machine.execCtxCfgWrite a1 a2 a3 s
  | .ctxSvcBaseWrite a1 a2 a3 => Sys2Proof.Machine.execCtxSvcBaseWrite a1 a2 a3 s
  | .hubWrite a1 a2 => Sys2Proof.Machine.execHubWrite a1 a2 s
  | .hubReadReq a1 a2 => Sys2Proof.Machine.execHubReadReq a1 a2 s
  | .hubWriteBack a1 => Sys2Proof.Machine.execHubWriteBack a1 s
  | .hubPatrol a1 => Sys2Proof.Machine.execHubPatrol a1 s
  | .hubTempRead a1 a2 => Sys2Proof.Machine.execHubTempRead a1 a2 s
  | .hbmRefresh a1 a2 => Sys2Proof.Machine.execHbmRefresh a1 a2 s
  | .hubCmdPtr a1 a2 => Sys2Proof.Machine.execHubCmdPtr a1 a2 s
  | .hubCopy a1 => Sys2Proof.Machine.execHubCopy a1 s
  | .hubZero a1 => Sys2Proof.Machine.execHubZero a1 s
  | .hubDigest a1 => Sys2Proof.Machine.execHubDigest a1 s
  | .hubScrub a1 => Sys2Proof.Machine.execHubScrub a1 s
  | .hubCmdComplete a1 a2 => Sys2Proof.Machine.execHubCmdComplete a1 a2 s
  | .hubRingCodeword a1 a2 a3 => Sys2Proof.Machine.execHubRingCodeword a1 a2 a3 s
  | .hubErrClr a1 a2 a3 => Sys2Proof.Machine.execHubErrClr a1 a2 a3 s
  | .hubBandWrite a1 a2 a3 a4 => Sys2Proof.Machine.execHubBandWrite a1 a2 a3 a4 s
  | .hubHeartbeat a1 => Sys2Proof.Machine.execHubHeartbeat a1 s
  | .hubHeartbeatLoss a1 => Sys2Proof.Machine.execHubHeartbeatLoss a1 s
  | .stackLoss a1 a2 => Sys2Proof.Machine.execStackLoss a1 a2 s
  | .lostStackMaskWrite => Sys2Proof.Machine.execLostStackMaskWrite s
  | .portDown a1 a2 a3 => Sys2Proof.Machine.execPortDown a1 a2 a3 s
  | .portRetrain a1 a2 a3 => Sys2Proof.Machine.execPortRetrain a1 a2 a3 s
  | .initSend a1 a2 => Sys2Proof.Machine.execInitSend a1 a2 s
  | .init a1 a2 a3 => Sys2Proof.Machine.execInit a1 a2 a3 s
  | .ctrl a1 a2 a3 => Sys2Proof.Machine.execCtrl a1 a2 a3 s
  | .ctrlSend a1 a2 => Sys2Proof.Machine.execCtrlSend a1 a2 s
  | .data a1 a2 a3 => Sys2Proof.Machine.execData a1 a2 a3 s
  | .replayTimeout a1 a2 => Sys2Proof.Machine.execReplayTimeout a1 a2 s
  | .beacon a1 a2 a3 => Sys2Proof.Machine.execBeacon a1 a2 a3 s
  | .beaconSend a1 => Sys2Proof.Machine.execBeaconSend a1 s
  | .ethernetFrame a1 a2 a3 => Sys2Proof.Machine.execEthernetFrame a1 a2 a3 s
  | .pfcFrame a1 a2 a3 => Sys2Proof.Machine.execPfcFrame a1 a2 a3 s
  | .pfcRepeat a1 a2 a3 => Sys2Proof.Machine.execPfcRepeat a1 a2 a3 s
  | .ethRequestTimeout a1 a2 a3 => Sys2Proof.Machine.execEthRequestTimeout a1 a2 a3 s
  | .remoteRequest a1 a2 => Sys2Proof.Machine.execRemoteRequest a1 a2 s
  | .remoteAnswer a1 a2 => Sys2Proof.Machine.execRemoteAnswer a1 a2 s
  | .upMaskCopy => Sys2Proof.Machine.execUpMaskCopy s
  | .portCfgWrite a1 a2 a3 a4 => Sys2Proof.Machine.execPortCfgWrite a1 a2 a3 a4 s
  | .portPfcWrite a1 a2 a3 a4 => Sys2Proof.Machine.execPortPfcWrite a1 a2 a3 a4 s
  | .portDevnumWrite a1 a2 a3 => Sys2Proof.Machine.execPortDevnumWrite a1 a2 a3 s
  | .portDevblk a1 a2 a3 a4 => Sys2Proof.Machine.execPortDevblk a1 a2 a3 a4 s
  | .portDevunblk a1 a2 a3 a4 => Sys2Proof.Machine.execPortDevunblk a1 a2 a3 a4 s
  | .seenMask a1 => Sys2Proof.Machine.execSeenMask a1 s
  | .seenMaskReceive a1 => Sys2Proof.Machine.execSeenMaskReceive a1 s
  | .suspectDecision a1 a2 => Sys2Proof.Machine.execSuspectDecision a1 a2 s
  | .expulsionLimitEnd a1 => Sys2Proof.Machine.execExpulsionLimitEnd a1 s
  | .managerTakeover a1 => Sys2Proof.Machine.execManagerTakeover a1 s
  | .groupFence a1 => Sys2Proof.Machine.execGroupFence a1 s
  | .groupUnfence a1 => Sys2Proof.Machine.execGroupUnfence a1 s
  | .groupExpel a1 => Sys2Proof.Machine.execGroupExpel a1 s
  | .groupAdopt a1 => Sys2Proof.Machine.execGroupAdopt a1 s
  | .groupTakeover a1 => Sys2Proof.Machine.execGroupTakeover a1 s
  | .groupReady a1 => Sys2Proof.Machine.execGroupReady a1 s
  | .goodputTick a1 => Sys2Proof.Machine.execGoodputTick a1 s
  | .queueSetEnable a1 a2 a3 => Sys2Proof.Machine.execQueueSetEnable a1 a2 a3 s
  | .queueSetDisable a1 a2 a3 => Sys2Proof.Machine.execQueueSetDisable a1 a2 a3 s
  | .queueDisableDone a1 => Sys2Proof.Machine.execQueueDisableDone a1 s
  | .sqTailDoorbell a1 a2 a3 => Sys2Proof.Machine.execSqTailDoorbell a1 a2 a3 s
  | .rcqHeadDoorbell a1 a2 a3 => Sys2Proof.Machine.execRcqHeadDoorbell a1 a2 a3 s
  | .tcqHeadDoorbell a1 a2 a3 => Sys2Proof.Machine.execTcqHeadDoorbell a1 a2 a3 s
  | .doorbellRelease a1 => Sys2Proof.Machine.execDoorbellRelease a1 s
  | .sqFetch a1 a2 => Sys2Proof.Machine.execSqFetch a1 a2 s
  | .hostNop a1 => Sys2Proof.Machine.execHostNop a1 s
  | .requestCompletionWrite a1 => Sys2Proof.Machine.execRequestCompletionWrite a1 s
  | .interruptDelayExpire a1 => Sys2Proof.Machine.execInterruptDelayExpire a1 s
  | .bar4Read a1 a2 a3 => Sys2Proof.Machine.execBar4Read a1 a2 a3 s
  | .bar4Write a1 a2 a3 => Sys2Proof.Machine.execBar4Write a1 a2 a3 s
  | .bar4ReadTimeout a1 => Sys2Proof.Machine.execBar4ReadTimeout a1 s
  | .hostFnpartWrite a1 a2 a3 => Sys2Proof.Machine.execHostFnpartWrite a1 a2 a3 s
  | .hostSegWrite a1 a2 a3 a4 a5 => Sys2Proof.Machine.execHostSegWrite a1 a2 a3 a4 a5 s
  | .hostFnErrClr a1 a2 => Sys2Proof.Machine.execHostFnErrClr a1 a2 s
  | .flrVf a1 => Sys2Proof.Machine.execFlrVf a1 s
  | .flrPf => Sys2Proof.Machine.execFlrPf s
  | .hostReset => Sys2Proof.Machine.execHostReset s
  | .doeRequest a1 a2 => Sys2Proof.Machine.execDoeRequest a1 a2 s
  | .doeAbort => Sys2Proof.Machine.execDoeAbort s
  | .getVersion => Sys2Proof.Machine.execGetVersion s
  | .getCapabilities => Sys2Proof.Machine.execGetCapabilities s
  | .negotiateAlgorithms => Sys2Proof.Machine.execNegotiateAlgorithms s
  | .getDigests => Sys2Proof.Machine.execGetDigests s
  | .getCertificate => Sys2Proof.Machine.execGetCertificate s
  | .challenge => Sys2Proof.Machine.execChallenge s
  | .getMeasurements => Sys2Proof.Machine.execGetMeasurements s
  | .referenceLoss a1 => Sys2Proof.Machine.execReferenceLoss a1 s
  | .escapementLock a1 => Sys2Proof.Machine.execEscapementLock a1 s
  | .escapementTakeover a1 => Sys2Proof.Machine.execEscapementTakeover a1 s
  | .handover a1 a2 => Sys2Proof.Machine.execHandover a1 a2 s
  | .treeLossFatal => Sys2Proof.Machine.execTreeLossFatal s
  | .calibrationWindow a1 a2 => Sys2Proof.Machine.execCalibrationWindow a1 a2 s
  | .droopStretch a1 a2 => Sys2Proof.Machine.execDroopStretch a1 a2 s
  | .supplyHalt a1 => Sys2Proof.Machine.execSupplyHalt a1 s
  | .haltSupplyFault a1 => Sys2Proof.Machine.execHaltSupplyFault a1 s
  | .clkCapWrite a1 a2 a3 => Sys2Proof.Machine.execClkCapWrite a1 a2 a3 s
  | .capRaiseApply a1 => Sys2Proof.Machine.execCapRaiseApply a1 s
  | .setpointChange a1 a2 => Sys2Proof.Machine.execSetpointChange a1 a2 s
  | .setpointCancel a1 a2 => Sys2Proof.Machine.execSetpointCancel a1 a2 s
  | .setpointArmCheck => Sys2Proof.Machine.execSetpointArmCheck s
  | .setpointSwitch a1 => Sys2Proof.Machine.execSetpointSwitch a1 s
  | .busSample a1 a2 a3 => Sys2Proof.Machine.execBusSample a1 a2 a3 s
  | .phaseFailure a1 a2 => Sys2Proof.Machine.execPhaseFailure a1 a2 s
  | .regionSupplyLoss a1 => Sys2Proof.Machine.execRegionSupplyLoss a1 s
  | .edgeConverterFault a1 => Sys2Proof.Machine.execEdgeConverterFault a1 s
  | .rampBucketGrant => Sys2Proof.Machine.execRampBucketGrant s
  | .floorLower => Sys2Proof.Machine.execFloorLower s
  | .preRampStart a1 => Sys2Proof.Machine.execPreRampStart a1 s
  | .regionPowerOn a1 a2 => Sys2Proof.Machine.execRegionPowerOn a1 a2 s
  | .regionPowerOff a1 a2 => Sys2Proof.Machine.execRegionPowerOff a1 a2 s
  | .rampGrant a1 => Sys2Proof.Machine.execRampGrant a1 s
  | .siteRegulatorStart a1 => Sys2Proof.Machine.execSiteRegulatorStart a1 s
  | .powerCapCheck a1 a2 => Sys2Proof.Machine.execPowerCapCheck a1 a2 s
  | .capRestore => Sys2Proof.Machine.execCapRestore s
  | .telemetrySample a1 a2 a3 => Sys2Proof.Machine.execTelemetrySample a1 a2 a3 s
  | .energyTick a1 => Sys2Proof.Machine.execEnergyTick a1 s
  | .energyTenantUpdate => Sys2Proof.Machine.execEnergyTenantUpdate s
  | .sensorConversion a1 a2 a3 => Sys2Proof.Machine.execSensorConversion a1 a2 a3 s
  | .thermalEvaluation a1 => Sys2Proof.Machine.execThermalEvaluation a1 s
  | .thermalShedRetire a1 => Sys2Proof.Machine.execThermalShedRetire a1 s
  | .thermalTrip a1 => Sys2Proof.Machine.execThermalTrip a1 s
  | .edgeThermalEvaluation a1 a2 => Sys2Proof.Machine.execEdgeThermalEvaluation a1 a2 s
  | .hbmLimitStep => Sys2Proof.Machine.execHbmLimitStep s
  | .lehrAdjust a1 => Sys2Proof.Machine.execLehrAdjust a1 s
  | .thermistorRead a1 a2 => Sys2Proof.Machine.execThermistorRead a1 a2 s
  | .flowPulse => Sys2Proof.Machine.execFlowPulse s
  | .coolantEvaluation => Sys2Proof.Machine.execCoolantEvaluation s
  | .abruptStop => Sys2Proof.Machine.execAbruptStop s
  | .shedLift => Sys2Proof.Machine.execShedLift s
  | .orderlyStop => Sys2Proof.Machine.execOrderlyStop s
  | .powerLoss => Sys2Proof.Machine.execPowerLoss s
  | .panelStart a1 => Sys2Proof.Machine.execPanelStart a1 s
  | .stageComplete a1 => Sys2Proof.Machine.execStageComplete a1 s
  | .stageTimeout => Sys2Proof.Machine.execStageTimeout s
  | .crownAbsent a1 => Sys2Proof.Machine.execCrownAbsent a1 s
  | .restartFast a1 => Sys2Proof.Machine.execRestartFast a1 s
  | .restartFull a1 => Sys2Proof.Machine.execRestartFull a1 s
  | .fullStartNext a1 => Sys2Proof.Machine.execFullStartNext a1 s
  | .retrainNorth a1 a2 => Sys2Proof.Machine.execRetrainNorth a1 a2 s
  | .retrainSouth a1 a2 => Sys2Proof.Machine.execRetrainSouth a1 a2 s
  | .halfRetrainComplete => Sys2Proof.Machine.execHalfRetrainComplete s
  | .vacate a1 a2 => Sys2Proof.Machine.execVacate a1 a2 s
  | .coreRepair a1 => Sys2Proof.Machine.execCoreRepair a1 s
  | .repairAdopt => Sys2Proof.Machine.execRepairAdopt s
  | .repairComplete => Sys2Proof.Machine.execRepairComplete s
  | .repairFail => Sys2Proof.Machine.execRepairFail s
  | .serviceFirmwareUpdate a1 => Sys2Proof.Machine.execServiceFirmwareUpdate a1 s
  | .coreSelfTest a1 a2 => Sys2Proof.Machine.execCoreSelfTest a1 a2 s
  | .scratchpadMarch a1 a2 => Sys2Proof.Machine.execScratchpadMarch a1 a2 s
  | .linkRecalibration a1 a2 => Sys2Proof.Machine.execLinkRecalibration a1 a2 s
  | .sensorCalibration a1 a2 => Sys2Proof.Machine.execSensorCalibration a1 a2 s
  | .testStart => Sys2Proof.Machine.execTestStart s
  | .testComplete a1 a2 => Sys2Proof.Machine.execTestComplete a1 a2 s
  | .ringFrame a1 => Sys2Proof.Machine.execRingFrame a1 s
  | .ringBreak a1 => Sys2Proof.Machine.execRingBreak a1 s
  | .serviceReport a1 => Sys2Proof.Machine.execServiceReport a1 s
  | .serviceRestart a1 => Sys2Proof.Machine.execServiceRestart a1 s
  | .rngHealthFail a1 => Sys2Proof.Machine.execRngHealthFail a1 s
  | .sessionAccept a1 a2 => Sys2Proof.Machine.execSessionAccept a1 a2 s
  | .sessionIdleClose a1 a2 => Sys2Proof.Machine.execSessionIdleClose a1 a2 s
  | .hokuidRead a1 a2 a3 a4 => Sys2Proof.Machine.execHokuidRead a1 a2 a3 a4 s
  | .hokuidWrite a1 a2 a3 a4 => Sys2Proof.Machine.execHokuidWrite a1 a2 a3 a4 s
  | .submit a1 a2 a3 a4 a5 => Sys2Proof.Machine.execSubmit a1 a2 a3 a4 a5 s
  | .attest a1 a2 a3 a4 a5 => Sys2Proof.Machine.execAttest a1 a2 a3 a4 a5 s
  | .flashPut a1 a2 a3 a4 a5 a6 => Sys2Proof.Machine.execFlashPut a1 a2 a3 a4 a5 a6 s
  | .flashCommit a1 a2 a3 a4 => Sys2Proof.Machine.execFlashCommit a1 a2 a3 a4 s
  | .maint a1 a2 a3 a4 => Sys2Proof.Machine.execMaint a1 a2 a3 a4 s
  | .protectionChange a1 a2 a3 a4 => Sys2Proof.Machine.execProtectionChange a1 a2 a3 a4 s
  | .credentialChange a1 a2 a3 a4 => Sys2Proof.Machine.execCredentialChange a1 a2 a3 a4 s
  | .antiRollbackCommit a1 a2 a3 a4 => Sys2Proof.Machine.execAntiRollbackCommit a1 a2 a3 a4 s
  | .updateAuthorisation a1 a2 a3 a4 => Sys2Proof.Machine.execUpdateAuthorisation a1 a2 a3 a4 s
  | .protectionStageCheck => Sys2Proof.Machine.execProtectionStageCheck s
  | .protectionDrainCheck => Sys2Proof.Machine.execProtectionDrainCheck s
  | .protectionSwitch => Sys2Proof.Machine.execProtectionSwitch s
  | .tableEntryRewrite a1 a2 => Sys2Proof.Machine.execTableEntryRewrite a1 a2 s
  | .shadowRowRestore a1 a2 => Sys2Proof.Machine.execShadowRowRestore a1 a2 s
  | .errorLogPoll a1 => Sys2Proof.Machine.execErrorLogPoll a1 s
  | .errAck a1 a2 a3 => Sys2Proof.Machine.execErrAck a1 a2 a3 s
  | .resetInput a1 => Sys2Proof.Machine.execResetInput a1 s
  | .groupMessageResend a1 => Sys2Proof.Machine.execGroupMessageResend a1 s
  | .pfcPauseExpire a1 a2 a3 => Sys2Proof.Machine.execPfcPauseExpire a1 a2 a3 s
  | .supplyRecovery a1 => Sys2Proof.Machine.execSupplyRecovery a1 s
  | .rngHealthPass a1 => Sys2Proof.Machine.execRngHealthPass a1 s

end Sys2Proof.Machine
end

