-- ==== Sys2Proof/WellFormed.lean ====
section
/-! DEFINITION. Well-formed commands: operands that the interfaces of the panel can carry. What a command does with operands that
are well formed but refused by a rule is its meaning. -/

namespace Sys2Proof

/-- Size of the register map of a die: the 1 MiB block of R54, or a function's BAR0 (R352). -/
def mapTop : Die → Nat
  | .core _ => 0x100000
  | .hub _ => 0x100000
  | .port _ => 0x100000
  | .crown _ => 0x100000
  | .bar0 f => if f.val = 0 then 0x4000000 else 0x100000

/-- An offset within a die's map. -/
def accessOk (die : Die) (off : Nat) : Bool := decide (off < mapTop die)

/-- The longest frame of a fabric port (R316, R325): a DATA frame of 33 units in an Ethernet frame. -/
def frameSize (frame : List Byte) : Bool := decide (frame.length ≤ 1518)

/-- Size of a function's BAR4 (R352). -/
def barTop (fn : HostFn) : Nat := if fn.val = 0 then 64 * 2 ^ 30 else 2 ^ 30

/-- The figures of a stage record fit their fields (R447). -/
def outcomeOk (o : StageOutcome) : Bool :=
  decide (o.elapsedUs < 2 ^ 32) && decide (o.hostRate ≤ 6) && decide (o.hostWidth ≤ 16) && decide (o.seamUp ≤ 21) &&
    decide (o.flashIds < 2 ^ 48) && o.rowsRepaired.all fun x => decide (x.2.1 < 128) && decide (x.2.2 < 2 ^ 16)

/-- The fields of an item fit its 16 bytes (R444). -/
def itemFields (i : ConfigItem) : Bool :=
  decide (i.after < 256) && decide (i.flags < 256) && decide (i.dtype < 256) && decide (i.index < 256) && decide (i.offset < 2 ^ 32)

/-- What a management-ring frame carries (R464): a 32-bit or 64-bit access within a map, a cap of 6 bits. -/
def ringOk : RingFrame → Bool
  | .write _ die off bytes _ => accessOk die off && (bytes == 4 || bytes == 8)
  | .read _ die off bytes => accessOk die off && (bytes == 4 || bytes == 8)
  | .broadcastCap _ code => decide (code < 64)
  | .heartbeat _ => true
  | .hubHeartbeat _ => true
  | .telemetry _ _ _ => true
  | .crownMessage _ _ => true

/-- A command whose operands the panel's interfaces can carry. -/
def Instr.wf (i : Instr) : Bool :=
  match i with
  | .registerWrite _ die off bytes _ => accessOk die off && (bytes == 4 || bytes == 8)
  | .wrongWidthAccess _ die off bytes _ => accessOk die off && decide (bytes ≤ 8)
  | .rcCounterRead _ die off _ => accessOk die off
  | .lowHalfReadLatch _ die off => accessOk die off
  | .pause _ => true
  | .resume _ => true
  | .abort _ => true
  | .abortComplete _ => true
  | .drain _ => true
  | .drainComplete _ => true
  | .test _ => true
  | .heartbeat _ => true
  | .coreLossDetect _ => true
  | .regionSummary _ => true
  | .agentLossDetect _ => true
  | .heartbeatReroute _ => true
  | .agentAppoint _ => true
  | .start _ _ => true
  | .taskStart _ => true
  | .taskListCopyEnd _ => true
  | .engineGate _ => true
  | .engineWake _ => true
  | .nop _ => true
  | .endWord _ => true
  | .fence _ => true
  | .dispatch _ => true
  | .dmaStart _ => true
  | .semWait _ => true
  | .semWaitTimeout _ => true
  | .semSignal _ => true
  | .semRead _ => true
  | .post _ => true
  | .recv _ => true
  | .recvTimeout _ => true
  | .ldi _ => true
  | .alu _ => true
  | .loop _ => true
  | .br _ => true
  | .taskFault _ => true
  | .seqFaultClr _ _ _ => true
  | .semSignalPacket _ => true
  | .msg _ => true
  | .completion _ => true
  | .readData _ => true
  | .mm _ _ => true
  | .mv _ _ => true
  | .accZero _ _ => true
  | .accLoad _ _ => true
  | .accStore _ _ => true
  | .meOpComplete _ _ _ => true
  | .meFaultClr _ _ _ => true
  | .meTblkBadClr _ _ _ => true
  | .emap _ => true
  | .emapDescriptorRead _ => true
  | .eprog _ => true
  | .vload _ => true
  | .vstore _ => true
  | .veOpComplete _ _ => true
  | .rsum _ => true
  | .rmax _ => true
  | .rmin _ => true
  | .argmax _ => true
  | .topk _ => true
  | .smpair _ => true
  | .pmerge _ => true
  | .tapPairStart _ => true
  | .ruOpComplete _ => true
  | .veFaultClr _ _ _ => true
  | .ruFaultClr _ _ _ => true
  | .spadPlanWrite _ _ _ _ => true
  | .spadPlanCtlWrite _ _ _ _ => true
  | .reshape _ _ _ => true
  | .reshapeDrainTimeout _ => true
  | .reshapeSupplySettled _ => true
  | .reshapeComplete _ => true
  | .accReadTurn _ _ => true
  | .accWriteTurn _ _ => true
  | .ingressWrite _ _ => true
  | .ingressRead _ _ => true
  | .scrubPatrol _ _ => true
  | .scrubWriteBack _ => true
  | .spadErrClr _ _ _ => true
  | .flitReceive _ _ _ => true
  | .flitReplay _ _ => true
  | .packetHop _ _ _ => true
  | .write _ => true
  | .writeAcc _ => true
  | .readReq _ => true
  | .mcastWrite _ => true
  | .reduce _ _ => true
  | .reduceDelivery _ => true
  | .reduceRoundTimeout _ _ => true
  | .meshRedWrite _ _ _ _ => true
  | .meshInjCfgWrite _ _ _ _ => true
  | .throttleLevelEnd _ _ => true
  | .linkDown _ _ => true
  | .laneRepair _ _ _ lane => decide (lane < 68)
  | .laneRepairDone _ _ _ _ => true
  | .routeMapRewrite => true
  | .descriptorRead _ _ => true
  | .dmaCopy _ _ => true
  | .dmaFill _ _ => true
  | .dmaSignal _ _ => true
  | .dmaReduce _ _ => true
  | .dmaPieceIssue _ _ => true
  | .dmaRequestTimeout _ _ _ => true
  | .dmaDescriptorComplete _ _ => true
  | .dmaFaultClr _ _ _ => true
  | .winEntWrite _ _ _ _ => true
  | .loadBegin _ => true
  | .loadCommit _ => true
  | .loadIdleTimeout _ => true
  | .loadTargetsIdle _ => true
  | .loadReady _ => true
  | .unload _ => true
  | .admitSlot _ => true
  | .cancel _ => true
  | .ctxMsgReceive _ => true
  | .swapIn _ => true
  | .pageIn _ _ => true
  | .stepStart _ _ => true
  | .stepComplete _ _ => true
  | .stepTimeout _ _ => true
  | .sampleRow _ _ => true
  | .mirrorAck _ _ => true
  | .deadlineExpire _ _ => true
  | .contextFree _ _ => true
  | .outputPathTimeout _ _ => true
  | .crownLoss _ => true
  | .forecastPost _ => true
  | .stepCommand _ => true
  | .stepReport _ => true
  | .mirrorUpdate _ => true
  | .tokenRecordMessage _ => true
  | .fabricRecordResend _ _ => true
  | .ctxCfgWrite _ _ _ => true
  | .ctxSvcBaseWrite _ _ _ => true
  | .hubWrite _ _ => true
  | .hubReadReq _ _ => true
  | .hubWriteBack _ => true
  | .hubPatrol _ => true
  | .hubTempRead _ _ => true
  | .hbmRefresh _ _ => true
  | .hubCmdPtr _ _ => true
  | .hubCopy _ => true
  | .hubZero _ => true
  | .hubDigest _ => true
  | .hubScrub _ => true
  | .hubCmdComplete _ _ => true
  | .hubRingCodeword _ _ _ => true
  | .hubErrClr _ _ _ => true
  | .hubBandWrite _ _ _ _ => true
  | .hubHeartbeat _ => true
  | .hubHeartbeatLoss _ => true
  | .stackLoss _ _ => true
  | .lostStackMaskWrite => true
  | .portDown _ _ _ => true
  | .portRetrain _ _ _ => true
  | .initSend _ _ => true
  | .init _ _ frame => frameSize frame
  | .ctrl _ _ frame => frameSize frame
  | .ctrlSend _ _ => true
  | .data _ _ frame => frameSize frame
  | .replayTimeout _ _ => true
  | .beacon _ _ frame => frameSize frame
  | .beaconSend _ => true
  | .ethernetFrame _ _ frame => frameSize frame
  | .pfcFrame _ _ frame => frameSize frame
  | .pfcRepeat _ _ _ => true
  | .ethRequestTimeout _ _ _ => true
  | .remoteRequest _ _ => true
  | .remoteAnswer _ _ => true
  | .upMaskCopy => true
  | .portCfgWrite _ _ _ _ => true
  | .portPfcWrite _ _ _ _ => true
  | .portDevnumWrite _ _ _ => true
  | .portDevblk _ _ _ _ => true
  | .portDevunblk _ _ _ _ => true
  | .seenMask _ => true
  | .seenMaskReceive _ => true
  | .suspectDecision _ _ => true
  | .expulsionLimitEnd _ => true
  | .managerTakeover _ => true
  | .groupFence _ => true
  | .groupUnfence _ => true
  | .groupExpel _ => true
  | .groupAdopt _ => true
  | .groupTakeover _ => true
  | .groupReady _ => true
  | .goodputTick _ => true
  | .queueSetEnable _ _ _ => true
  | .queueSetDisable _ _ _ => true
  | .queueDisableDone _ => true
  | .sqTailDoorbell _ _ _ => true
  | .rcqHeadDoorbell _ _ _ => true
  | .tcqHeadDoorbell _ _ _ => true
  | .doorbellRelease _ => true
  | .sqFetch _ entries => decide (entries.length ≤ 32)
  | .hostNop _ => true
  | .requestCompletionWrite _ => true
  | .interruptDelayExpire _ => true
  | .bar4Read fn off len => decide (off < barTop fn) && decide (len ≤ 4096)
  | .bar4Write fn off payload => decide (off < barTop fn) && decide (payload.length ≤ 512)
  | .bar4ReadTimeout _ => true
  | .hostFnpartWrite _ _ _ => true
  | .hostSegWrite _ _ _ _ _ => true
  | .hostFnErrClr _ _ => true
  | .flrVf _ => true
  | .flrPf => true
  | .hostReset => true
  | .doeRequest _ _ => true
  | .doeAbort => true
  | .getVersion => true
  | .getCapabilities => true
  | .negotiateAlgorithms => true
  | .getDigests => true
  | .getCertificate => true
  | .challenge => true
  | .getMeasurements => true
  | .referenceLoss _ => true
  | .escapementLock _ => true
  | .escapementTakeover _ => true
  | .handover _ _ => true
  | .treeLossFatal => true
  | .calibrationWindow _ _ => true
  | .droopStretch _ _ => true
  | .supplyHalt _ => true
  | .haltSupplyFault _ => true
  | .clkCapWrite _ _ _ => true
  | .capRaiseApply _ => true
  | .setpointChange _ _ => true
  | .setpointCancel _ _ => true
  | .setpointArmCheck => true
  | .setpointSwitch _ => true
  | .busSample _ _ westLugPercent => decide (westLugPercent ≤ 100)
  | .phaseFailure _ _ => true
  | .regionSupplyLoss _ => true
  | .edgeConverterFault _ => true
  | .rampBucketGrant => true
  | .floorLower => true
  | .preRampStart _ => true
  | .regionPowerOn _ _ => true
  | .regionPowerOff _ _ => true
  | .rampGrant _ => true
  | .siteRegulatorStart _ => true
  | .powerCapCheck _ _ => true
  | .capRestore => true
  | .telemetrySample _ _ _ => true
  | .energyTick _ => true
  | .energyTenantUpdate => true
  | .sensorConversion _ _ _ => true
  | .thermalEvaluation _ => true
  | .thermalShedRetire _ => true
  | .thermalTrip _ => true
  | .edgeThermalEvaluation _ _ => true
  | .hbmLimitStep => true
  | .lehrAdjust _ => true
  | .thermistorRead _ _ => true
  | .flowPulse => true
  | .coolantEvaluation => true
  | .abruptStop => true
  | .shedLift => true
  | .orderlyStop => true
  | .powerLoss => true
  | .panelStart _ => true
  | .stageComplete outcome => outcomeOk outcome
  | .stageTimeout => true
  | .crownAbsent _ => true
  | .restartFast _ => true
  | .restartFull _ => true
  | .fullStartNext _ => true
  | .retrainNorth _ _ => true
  | .retrainSouth _ _ => true
  | .halfRetrainComplete => true
  | .vacate _ _ => true
  | .coreRepair _ => true
  | .repairAdopt => true
  | .repairComplete => true
  | .repairFail => true
  | .serviceFirmwareUpdate _ => true
  | .coreSelfTest _ _ => true
  | .scratchpadMarch _ _ => true
  | .linkRecalibration _ _ => true
  | .sensorCalibration _ _ => true
  | .testStart => true
  | .testComplete _ _ => true
  | .ringFrame frame => ringOk frame
  | .ringBreak _ => true
  | .serviceReport _ => true
  | .serviceRestart _ => true
  | .rngHealthFail _ => true
  | .sessionAccept _ _ => true
  | .sessionIdleClose _ _ => true
  | .hokuidRead _ _ _ item => itemFields item
  | .hokuidWrite _ _ _ item => itemFields item
  | .submit _ _ _ _ _ => true
  | .attest _ _ _ _ indices => decide (indices.length ≤ 65504)
  | .flashPut _ _ _ _ _ payload => decide (payload.length ≤ 65528)
  | .flashCommit _ _ _ _ => true
  | .maint _ _ _ _ => true
  | .protectionChange _ _ _ command => decide (command.length ≤ 65536)
  | .credentialChange _ _ _ command => decide (command.length ≤ 65536)
  | .antiRollbackCommit _ _ _ command => decide (command.length ≤ 65536)
  | .updateAuthorisation _ _ _ command => decide (command.length ≤ 65536)
  | .protectionStageCheck => true
  | .protectionDrainCheck => true
  | .protectionSwitch => true
  | .tableEntryRewrite die off => accessOk die off
  | .shadowRowRestore _ _ => true
  | .errorLogPoll _ => true
  | .errAck _ _ _ => true
  | .resetInput _ => true
  | .groupMessageResend _ => true
  | .pfcPauseExpire _ _ _ => true
  | .supplyRecovery _ => true
  | .rngHealthPass _ => true

end Sys2Proof
end

