-- ==== Sys2Proof/Safety.lean ====
section
/-! DEFINITION. What a safe run is, and the invariants of the state that statements use. -/

namespace Sys2Proof.Machine

open Host (Outcome)

/-! ### Steps -/

/-- One step goes on to a state. -/
def Goes (s t : State) : Prop := step s = .next t

/-- A run from one state to another, step by step. -/
inductive Runs : State → State → Prop
  | done (s : State) : Runs s s
  | more {s t u : State} : Goes s t → Runs t u → Runs s u

/-- The next step goes on: neither a fault nor a refusal. -/
def Safe (s : State) : Prop := ∃ t, Goes s t

/-- Every command that waits is well formed. -/
def State.queueOk (s : State) : Bool := s.pending.all Instr.wf

/-! ### Memories (R153, R290, R123) -/

/-- Every memory of a core in its canonical form: scratchpad and vector registers. -/
def Core.memOk (k : Core) : Bool := k.spad.mem.wf && cellsWf k.ve.vregs

/-- Every memory of the panel in its canonical form. -/
def Panel.memOk (p : Panel) : Bool := p.cores.all (fun x => x.2.memOk) && p.hubs.all fun x => x.2.mem.wf

/-! ### Registers (R67) -/

/-- No core lists g0, which reads as zero. -/
def Panel.g0Ok (p : Panel) : Bool := p.cores.all fun x => (find x.2.seq.g 0).isNone

/-! ### Fuses (R451, R475) -/

/-- A legal fuse map: one of the three variants, and floors within their thermometer fuses. -/
def Fuses.legal (f : Fuses) : Bool :=
  (f.variant == 0x41 || f.variant == 0x42 || f.variant == 0x43) &&
    [Crown.north, Crown.south].all fun c => [1, 2, 3].all fun kind =>
      decide (look 0 f.floors (8 * c.num + kind) ≤ if kind = 2 then 127 else 63)

/-- Two fuse maps that differ in their floors alone, none of them lower in the second. -/
def Fuses.grows (f g : Fuses) : Prop :=
  g = { f with floors := g.floors } ∧ ∀ i, look 0 f.floors i ≤ look 0 g.floors i

/-! ### Task words (R74) -/

/-- The word at the head is not the last word of the body of the innermost loop, so that no loop goes back or ends after it. -/
def Task.midBody (k : Task) : Bool :=
  match k.loops with
  | [] => true
  | l :: _ => l.last != k.pc

/-! ### Who may make an access (R17, R87, R178, R212, R309, R348, R465) -/

/-- Somebody is there to write a register of a die, the die answers, and the rules let the requester write it. -/
def Panel.granted (p : Panel) (who : Requester) (die : Die) (off : Nat) : Bool :=
  p.live && p.asks who && inBlock die off && p.answers die off && p.ringReach who die && p.mayWrite who die off false

/-- Somebody is there to read an offset of a die with an access code, the die answers, and the rules let the requester
read it. -/
def Panel.readable (p : Panel) (who : Requester) (die : Die) (off : Nat) (acc : Acc) : Bool :=
  p.live && p.asks who && inBlock die off && p.answers die off && p.ringReach who die && p.mayRead who die off acc

/-! ### Crowns and requests (R246, R363, R457) -/

/-- The panel is on, and the crown is neither lost nor restarting its service firmware. -/
def Panel.engineOn (p : Panel) (c : Crown) : Bool := p.live && !(p.crown c).lost && (p.crown c).restartAt.isNone

/-- From one panel to the next, a request of a queue set that is still enabled has its completion due. -/
def Panel.completes (p t : Panel) (r : Req) (handle status : Nat) (held : Bool) (model : Nat) : Prop :=
  ∀ q gen fn, r.src = .set q gen fn → (p.qset q).on = true → (p.qset q).gen = gen →
    (t.qset q).due = (p.qset q).due ++ [r.completion handle status held model]

/-! ### Sessions (R477–R480) -/

/-- A session of a crown whose next message the service firmware takes, its role being enough for it. -/
def Panel.sessionOpen (p : Panel) (c : Crown) (n : Nat) (role : Nat → Bool) : Bool :=
  p.live && p.svcUp c && match find (p.crown c).sessions n with
    | none => false
    | some x => decide (x.waiting < 64) && role x.roles

/-- The panel as a message of a session that it takes leaves it, before the message is acted upon. -/
def Panel.heard (p : Panel) (c : Crown) (n : Nat) : Panel := match find (p.crown c).sessions n with
  | none => p
  | some x => p.modCrown c fun k =>
    { k with sessions := put k.sessions n { x with waiting := x.waiting + 1, usedAt := p.dial } }

end Sys2Proof.Machine
end

