-- ==== Sys2Proof/Certificates/Slice0/Obligations.lean ====
section
/-! DEFINITION. What is claimed of the model, one proposition per claim. Most are stated from the numbered rules of spec/; each
docstring names them, and says where a clause is the model's own choice. -/

open Sys2Proof Sys2Proof.Machine


/-! ### Register accesses -/

/-- REGISTER_WRITE, WRONG_WIDTH_ACCESS, RC_COUNTER_READ and LOW_HALF_READ_LATCH complete (R13–R17): a granted write of a plain
RW register of a core takes the value in its writable bits and answers DONE; a wrong-width write, and a wrong-width read,
change no die, answer zero with DONE, and count once in PANEL_BADACC_CNT, which holds at all ones; a read of an RC counter
of a hub returns its value and restarts it at the events of that cycle; a 32-bit read of the low half of a 64-bit register
of a port die returns the low half and latches the high half for its requester. -/
def Completion.RegisterAccessesComplete : Prop :=
  (∀ (s : State) (who : Requester) (n : Site) (v : W64) (off mask : Nat),
    (off, mask) ∈ [(Reg.SPAD_SCRUB_CFG, 0x8000FFFF), (Reg.MESH_RED_CFG, 0x8000FFFF), (Reg.DMA_CFG, 0xFFFF),
      (Reg.PWR_GATE_CFG, 0xFFFF), (Reg.CLK_SP_ARMCTL, 0xC000003F)] →
    s.panel.granted who (.core n) off →
    ∃ t, exec (.registerWrite who (.core n) off 4 v) s = .next t ∧ t.panel.out = .answer who 0 St.done :: s.panel.out ∧
      (t.panel.core n).rd off = (((s.panel.core n).rd off &&& (mask ^^^ (2 ^ 64 - 1))) ||| (v.toNat &&& mask)) % 2 ^ 64) ∧
  (∀ (s : State) (who : Requester) (n : Site) (off bytes : Nat),
    s.panel.granted who (.core n) off → wrongWidth (.core n) off bytes true →
    ∃ t, exec (.wrongWidthAccess who (.core n) off bytes true) s = .next t ∧
      t.panel.out = .answer who 0 St.done :: s.panel.out ∧ t.panel.cores = s.panel.cores ∧
      t.panel.sh Reg.PANEL_BADACC_CNT = min cntTop (s.panel.sh Reg.PANEL_BADACC_CNT + 1)) ∧
  (∀ (s : State) (who : Requester) (n : Site) (off bytes : Nat),
    s.panel.readable who (.core n) off .ro → wrongWidth (.core n) off bytes false →
    ∃ t, exec (.wrongWidthAccess who (.core n) off bytes false) s = .next t ∧
      t.panel.out = .answer who 0 St.done :: s.panel.out ∧ t.panel.cores = s.panel.cores ∧
      t.panel.sh Reg.PANEL_BADACC_CNT = min cntTop (s.panel.sh Reg.PANEL_BADACC_CNT + 1)) ∧
  (∀ (s : State) (who : Requester) (h : HubIx) (off events : Nat) (row : RegRow),
    s.panel.readable who (.hub h) off .rc → dieHit (.hub h) off 4 false = .reg row off → row.acc = .rc →
    ∃ t, exec (.rcCounterRead who (.hub h) off events) s = .next t ∧
      t.panel.out = .answer who (s.panel.hubView h off % 2 ^ 64) St.done :: s.panel.out ∧
      (t.panel.hub h).rd off = min events cntTop) ∧
  (∀ (s : State) (who : Requester) (d : PortIx) (off : Nat) (row : RegRow),
    s.panel.readable who (.port d) off row.acc → dieHit (.port d) off 4 false = .half row off false → row.acc = .ro ∨ row.acc = .rw →
    ∃ t, exec (.lowHalfReadLatch who (.port d) off) s = .next t ∧
      t.panel.out = .answer who (s.panel.portView d off % 2 ^ 32) St.done :: s.panel.out ∧
      (who, off, s.panel.portView d off / 2 ^ 32) ∈ (t.panel.port d).latch)

/-- A high half that was latched is what its requester reads next, once; without a latch the requester reads the live value, and
so it does from then on (R14). -/
def Completion.HighHalfReadsTheLatch : Prop :=
  (∀ (p : Panel) (who : Requester) (d : PortIx) (off : Nat) (row : RegRow) (x : Requester × Nat × Nat),
    dieHit (.port d) (off + 4) 4 false = .half row off true →
    ((p.port d).latch.find? fun x => x.1 == who && x.2.1 == off) = some x →
    (p.readAt who (.port d) (off + 4) 4 0).2.1 = x.2.2 ∧
      ∀ y ∈ ((p.readAt who (.port d) (off + 4) 4 0).2.2.port d).latch, ¬ (y.1 = who ∧ y.2.1 = off)) ∧
  (∀ (p : Panel) (who : Requester) (d : PortIx) (off : Nat) (row : RegRow),
    dieHit (.port d) (off + 4) 4 false = .half row off true → row.acc ≠ .wo →
    (∀ y ∈ (p.port d).latch, ¬ (y.1 = who ∧ y.2.1 = off)) →
    (p.readAt who (.port d) (off + 4) 4 0).2.1 = p.portView d off / 2 ^ 32)


/-! ### Core states and their commands -/

/-- PAUSE, RESUME, ABORT, DRAIN and TEST take a core from the states that R61 allows to the state that it names. -/
def Completion.CoreCommandsComplete : Prop :=
  ∀ (s : State) (n : Site), s.panel.live → (s.panel.core n).powered → (s.panel.core n).seq.aborting = false →
    ((s.panel.core n).seq.state = .run ∨ (s.panel.core n).seq.state = .idle →
      ∃ t, exec (.pause n) s = .next t ∧ (t.panel.core n).seq.state = .paused ∧
        ∀ k, (t.panel.core n).seq.task = some k → k.waitFrom = none) ∧
    ((s.panel.core n).seq.state = .paused →
      ∃ t, exec (.resume n) s = .next t ∧
        (t.panel.core n).seq.state = (if (s.panel.core n).seq.task.isSome then .run else .idle)) ∧
    ((s.panel.core n).seq.state = .test → ∃ t, exec (.resume n) s = .next t ∧ (t.panel.core n).seq.state = .idle) ∧
    ((s.panel.core n).seq.state = .paused →
      ∃ t, exec (.abort n) s = .next t ∧ (t.panel.core n).seq.aborting = true) ∧
    ((s.panel.core n).seq.state = .run ∨ (s.panel.core n).seq.state = .idle ∨ (s.panel.core n).seq.state = .paused →
      ∃ t, exec (.drain n) s = .next t ∧ (t.panel.core n).seq.state = .draining) ∧
    ((s.panel.core n).seq.state = .idle → ∃ t, exec (.test n) s = .next t ∧ (t.panel.core n).seq.state = .test)

/-- A command that R61 does not allow in the core's state is ignored and counted: nothing else of the core changes. -/
def Completion.CoreCommandIgnored : Prop :=
  ∀ (k : Core) (code : Nat), k.seq.aborting = false →
    (code = 1 ∧ k.seq.state ≠ .run ∧ k.seq.state ≠ .idle) ∨ (code = 2 ∧ k.seq.state ≠ .paused ∧ k.seq.state ≠ .test) ∨
      (code = 3 ∧ k.seq.state ≠ .paused) ∨
      (code = 4 ∧ k.seq.state ≠ .run ∧ k.seq.state ≠ .idle ∧ k.seq.state ≠ .paused) ∨ (code = 5 ∧ k.seq.state ≠ .idle) →
    ({ k.cmd code with regs := k.regs } : Core) = k ∧
      (k.cmd code).rd Reg.CORE_CMD_IGN_CNT = min cntTop (k.rd Reg.CORE_CMD_IGN_CNT + 1) ∧
      ∀ off, off ≠ Reg.CORE_CMD_IGN_CNT → (k.cmd code).rd off = k.rd off

/-- ABORT_COMPLETE: once accepted work has completed, the core is idle with neither task nor start entries, each of which is
counted in SEQ_ABORT_CNT, and nothing is reported (R61). DRAIN_COMPLETE: a drained core whose entries ask for no reports
ends in TEST without task or start entries, once its work and its remote operations have completed. -/
def Completion.AbortAndDrainComplete : Prop :=
  (∀ (s : State) (n : Site), s.panel.live → (s.panel.core n).clocked → (s.panel.core n).seq.aborting → (s.panel.core n).allIdle →
    (s.panel.core n).seq.task.isSome ∨ (s.panel.core n).seq.starts ≠ [] →
    ∃ t, exec (.abortComplete n) s = .next t ∧ (t.panel.core n).seq.state = .idle ∧ (t.panel.core n).seq.task = none ∧
      (t.panel.core n).seq.starts = [] ∧ (t.panel.core n).seq.aborting = false ∧
      (t.panel.core n).rd Reg.SEQ_ABORT_CNT =
        min cntTop ((s.panel.core n).rd Reg.SEQ_ABORT_CNT +
          ((s.panel.core n).seq.starts.length + b2n (s.panel.core n).seq.task.isSome)) ∧
      (t.panel.core n).seq.reports = (s.panel.core n).seq.reports) ∧
  (∀ (s : State) (n : Site), s.panel.live → (s.panel.core n).clocked → (s.panel.core n).seq.state = .draining →
    (s.panel.core n).allIdle → (s.panel.core n).remoteIdle → (∀ e ∈ (s.panel.core n).seq.starts, e.report = false) →
    (∀ k, (s.panel.core n).seq.task = some k → k.entry.report = false ∧ k.unitFault = none) →
    ∃ t, exec (.drainComplete n) s = .next t ∧ (t.panel.core n).seq.state = .test ∧ (t.panel.core n).seq.task = none ∧
      (t.panel.core n).seq.starts = [])

/-! ### Heartbeats, agents and engine gating -/

/-- HEARTBEAT, CORE_LOSS_DETECT, REGION_SUMMARY, AGENT_LOSS_DETECT, HEARTBEAT_REROUTE and AGENT_APPOINT (R43, R45, R46, R62), at the
20, 80, 20, 80 and 40 µs of those rules. -/
def Completion.HeartbeatsComplete : Prop :=
  (∀ (s : State) (n : Site), s.panel.live → (s.panel.core n).powered → (s.panel.core n).haltSince = none →
    (s.panel.core n).seq.state ≠ .halted → (s.panel.core n).hbSent + 20000 ≤ s.panel.dial →
    ∃ t, exec (.heartbeat n) s = .next t ∧ (t.panel.core n).hbSent = s.panel.dial ∧
      (t.panel.core n).rd Reg.CORE_HB_CNT = ((s.panel.core n).rd Reg.CORE_HB_CNT + 1) % 2 ^ 32 ∧
      ((s.panel.agentOf (regionOf n)).isSome → (t.panel.core n).hbHeard = s.panel.dial ∧ (t.panel.core n).hbToCrown = false) ∧
      (s.panel.agentOf (regionOf n) = none → (s.panel.core n).hbToCrown → (t.panel.core n).hbHeard = s.panel.dial)) ∧
  (∀ (s : State) (n : Site), s.panel.live → (s.panel.core n).powered → s.panel.lastHeard n + 80000 ≤ s.panel.dial →
    s.panel.losses.any (·.site = n) = false →
    ∃ t, exec (.coreLossDetect n) s = .next t ∧
      t.panel.losses = s.panel.losses ++ [{ site := n, cause := 2, parts := [], since := s.panel.lastHeard n }]) ∧
  (∀ (s : State) (g : Region) (a : Nat), s.panel.live → s.panel.agentOf g = some a →
    look 0 s.panel.summaryAt g + 20000 ≤ s.panel.dial →
    ∃ t, exec (.regionSummary g) s = .next t ∧ look 0 t.panel.summaryAt g = s.panel.dial ∧
      ∀ n ∈ regionSites g, n = a ∨ (s.panel.powered n ∧ s.panel.dial ≤ (s.panel.core n).hbHeard + 20000) →
        look 0 t.panel.namedAt n = s.panel.dial) ∧
  (∀ (s : State) (g : Region) (a : Nat), s.panel.live → find s.panel.agents g = some a →
    look 0 s.panel.summaryAt g + 80000 ≤ s.panel.dial →
    ∃ t, exec (.agentLossDetect g) s = .next t ∧ find t.panel.agents g = none ∧ t.panel.losses.any (·.site = a)) ∧
  (∀ (s : State) (n : Site), s.panel.live → (s.panel.core n).powered → (s.panel.core n).hbAcked + 40000 ≤ s.panel.dial →
    ∃ t, exec (.heartbeatReroute n) s = .next t ∧ (t.panel.core n).hbToCrown = true) ∧
  (∀ (s : State) (g : Region) (n : Nat), s.panel.live → s.panel.agentOf g = none → s.panel.eligible g = some n →
    ∃ t, exec (.agentAppoint g) s = .next t ∧ find t.panel.agents g = some n ∧
      look 0 t.panel.elections g = min 0xFF (look 0 s.panel.elections g + 1))

/-- The site that a region's agent is appointed to is powered, neither retired nor fused off, and no such site of the region comes
before it in row-major order (R43). -/
def Completion.AgentComesFirst : Prop :=
  ∀ (p : Panel) (g : Region) (n : Nat), p.eligible g = some n →
    regionOf n = g ∧ p.powered n ∧ (p.site n).state ≠ 3 ∧ (p.site n).state ≠ 4 ∧
    ∀ m, regionOf m = g → m < 336 → m < n → ¬ p.powered m ∨ (p.site m).state = 3 ∨ (p.site m).state = 4 ∨
      (p.losses.any (·.site = m)) ∨ (p.core m).seq.state = .halted

/-- ENGINE_GATE gates a core that has run no task for PWR_GATE_CFG.idle µs, and never with idle 0; ENGINE_WAKE wakes it for a start
entry (R409). -/
def Completion.EngineGatingCompletes : Prop :=
  (∀ (s : State) (n : Site), s.panel.live → (s.panel.core n).powered → (s.panel.core n).rd Reg.PWR_GATE_CFG % 65536 ≠ 0 →
    (s.panel.core n).seq.task = none →
    (s.panel.core n).seq.idleSince + (s.panel.core n).rd Reg.PWR_GATE_CFG % 65536 * 1000 ≤ s.panel.dial →
    ∃ t, exec (.engineGate n) s = .next t ∧ (t.panel.core n).seq.gated = true) ∧
  (∀ (s : State) (n : Site), (s.panel.core n).rd Reg.PWR_GATE_CFG % 65536 = 0 → exec (.engineGate n) s = .next s) ∧
  (∀ (s : State) (n : Site), s.panel.live → (s.panel.core n).clocked → (s.panel.core n).seq.starts ≠ [] →
    ∃ t, exec (.engineWake n) s = .next t ∧ (t.panel.core n).seq.gated = false)


/-! ### Tasks -/

/-- START, TASK_START, TASK_LIST_COPY_END and SEQ_FAULT_CLR complete (R63–R65, R87): an entry that passes the checks is queued and
answered with DONE; an idle core takes its oldest entry, goes to RUN, finds the arguments in g1–g8 and zero in every other
register; the end of the copy lets the first word issue; bit 0 of a granted write clears SEQ_FAULT. -/
def Completion.TaskStartCompletes : Prop :=
  (∀ (s : State) (n : Site) (b : BitVec 768) (e : StartEntry), s.panel.live → (s.panel.core n).clocked →
    parseStart s.panel.fuses.lwidth (leBytes 96 b.toNat) = some e → (s.panel.core n).partValid → e.part = (s.panel.core n).part →
    (s.panel.core n).seq.state = .idle ∨ (s.panel.core n).seq.state = .run ∨ (s.panel.core n).seq.state = .paused →
    (s.panel.core n).seq.starts.length < 8 →
    ∃ t, exec (.start n (some b)) s = .next t ∧ t.panel.out = .startAnswer n St.done :: s.panel.out ∧
      (t.panel.core n).seq.starts = (s.panel.core n).seq.starts ++ [e]) ∧
  (∀ (s : State) (n : Site) (e : StartEntry) (rest : List StartEntry), s.panel.live → (s.panel.core n).clocked →
    (s.panel.core n).seq.starts = e :: rest → (s.panel.core n).seq.state = .idle → (s.panel.core n).seq.gated = false →
    (s.panel.core n).spad.reshape = none →
    ∃ t, exec (.taskStart n) s = .next t ∧ (t.panel.core n).seq.state = .run ∧ (t.panel.core n).seq.starts = rest ∧
      (∀ i, 1 ≤ i → i ≤ 8 → (t.panel.core n).g i = e.args.getD (i - 1) 0) ∧ (∀ i, i = 0 ∨ 9 ≤ i → (t.panel.core n).g i = 0) ∧
      ((t.panel.core n).seq.task.map fun k => (k.entry, k.copying, k.pc)) = some (e, true, 0)) ∧
  (∀ (s : State) (n : Site) (k : Task), s.panel.live → (s.panel.core n).clocked → (s.panel.core n).seq.task = some k →
    ∃ t, exec (.taskListCopyEnd n) s = .next t ∧ (t.panel.core n).seq.task = some { k with copying := false }) ∧
  (∀ (s : State) (who : Requester) (n : Site) (v : W64), s.panel.granted who (.core n) Reg.SEQ_FAULT_CLR →
    ∃ t, exec (.seqFaultClr who n v) s = .next t ∧ t.panel.out = .answer who 0 St.done :: s.panel.out ∧
      (t.panel.core n).rd Reg.SEQ_FAULT = if v.getLsbD 0 then 0 else (s.panel.core n).rd Reg.SEQ_FAULT)

/-- A START that fails a check of R63 is refused with the status of the first one that it fails, counted, and leaves the start queue
as it was: TEST and DRAINING answer DRAINED, HALTED answers SITE_RETIRED, a full queue answers TIMED_OUT. -/
def Completion.StartRefused : Prop :=
  ∀ (k : Core) (lw part : Nat) (bs : List Byte) (bad : Bool) (src : StartFrom),
    let r := k.takeStart lw src part bs bad
    (r.1 ≠ St.done → r.2.seq = k.seq ∧
      r.2.rd Reg.SEQ_START_REFUSE_CNT = min cntTop (k.rd Reg.SEQ_START_REFUSE_CNT + 1)) ∧
    (src = .other → r.1 = St.notPermitted) ∧
    (src = .core → (k.partValid && part == k.part) = false → r.1 = St.notPermitted) ∧
    (src = .ring ∨ src = .crown → bad → r.1 = St.uncorrectable) ∧
    (src = .ring ∨ src = .crown → bad = false → parseStart lw bs = none → r.1 = St.notPermitted) ∧
    (∀ e, src = .ring ∨ src = .crown → bad = false → parseStart lw bs = some e →
      (¬ (k.partValid ∧ e.part = k.part) → r.1 = St.notPermitted) ∧
      (k.partValid → e.part = k.part →
        (k.seq.state = .test ∨ k.seq.state = .draining → r.1 = St.drained) ∧
        (k.seq.state = .halted → r.1 = St.siteRetired) ∧
        (k.seq.state = .idle ∨ k.seq.state = .run ∨ k.seq.state = .paused → 8 ≤ k.seq.starts.length → r.1 = St.timedOut)))

/-- END and a task fault end the task (R66, R83, R84): once accepted work and remote operations are complete and the router takes the
report, the task is gone, and END's `sig` has added 1 to its semaphore; a fault is counted, and is held in SEQ_FAULT unless
an earlier one stands there. -/
def Completion.TaskEndCompletes : Prop :=
  (∀ (s : State) (n : Site) (k : Task) (w : TaskWord), s.panel.live → (s.panel.core n).clocked →
    (s.panel.core n).ready 0x01 = some (k, w) → (s.panel.core n).allIdle → (s.panel.core n).remoteIdle → k.entry.report = false →
    ∃ t, exec (.endWord n) s = .next t ∧ (t.panel.core n).seq.task = none ∧ (t.panel.core n).seq.state = .idle ∧
      (t.panel.core n).seq.idleSince = s.panel.dial ∧
      (w.f 111 111 = 1 →
        (t.panel.core n).sem (w.f 110 103) = min cntTop ((s.panel.core n).sem (w.f 110 103) + 1))) ∧
  (∀ (s : State) (n : Site) (k : Task) (w : TaskWord) (q : Panel), s.panel.live → (s.panel.core n).clocked →
    (s.panel.core n).ready 0x01 = some (k, w) → (s.panel.core n).allIdle → (s.panel.core n).remoteIdle → k.entry.report = true →
    (s.panel.draw.2.modCore n fun c => if w.f 111 111 = 1 then c.semOp (w.f 110 103) 0 1 else c).sendReport n k.entry
      (k.status.getD St.done) s.panel.draw.1.toNat = some q →
    ∃ t, exec (.endWord n) s = .next t ∧ (t.panel.core n).seq.task = none ∧ (t.panel.core n).seq.reports = (q.core n).seq.reports) ∧
  (∀ (s : State) (n : Site) (k : Task) (cause opc st pc : Nat) (q : Panel), s.panel.live → (s.panel.core n).clocked →
    (s.panel.core n).seq.state = .run → (s.panel.core n).seq.task = some k → k.copying = false → (s.panel.core n).allIdle →
    (s.panel.core n).faultNow k = some (cause, opc, st, pc) →
    s.panel.draw.2.sendReport n k.entry (k.status.getD st) s.panel.draw.1.toNat = some q →
    ∃ t, exec (.taskFault n) s = .next t ∧ (t.panel.core n).seq.task = none ∧
      (t.panel.core n).rd Reg.SEQ_FAULT_CNT = min cntTop ((q.core n).rd Reg.SEQ_FAULT_CNT + 1) ∧
      (t.panel.core n).rd Reg.SEQ_FAULT =
        if ((q.core n).rd Reg.SEQ_FAULT).testBit 31 then (q.core n).rd Reg.SEQ_FAULT else seqFaultBits cause opc st pc)

/-! ### Task words -/

/-- The register words complete (R67, R72, R73): LDI and ALU write gd, and g0 reads as zero whatever is written to it; SEM_READ
writes the semaphore's value; each word that stands outside every loop body issues its successor next. -/
def Completion.RegisterWordsComplete : Prop :=
  (∀ (s : State) (n : Site) (k : Task) (w : TaskWord), s.panel.live → (s.panel.core n).clocked →
    (s.panel.core n).ready Tw.nop = some (k, w) → k.midBody →
    ∃ t, exec (.nop n) s = .next t ∧ (t.panel.core n).seq.task = some { k with pc := k.pc + 1, waitFrom := none }) ∧
  (∀ (s : State) (n : Site) (k : Task) (w : TaskWord), s.panel.live → (s.panel.core n).clocked →
    (s.panel.core n).ready Tw.fence = some (k, w) → k.midBody → (w.f 111 111 = 0 ∨ (s.panel.core n).remoteIdle) →
    ∃ t, exec (.fence n) s = .next t ∧ (t.panel.core n).seq.task = some { k with pc := k.pc + 1, waitFrom := none }) ∧
  (∀ (s : State) (n : Site) (k : Task) (w : TaskWord), s.panel.live → (s.panel.core n).clocked →
    (s.panel.core n).ready Tw.ldi = some (k, w) → k.midBody →
    ∃ t, exec (.ldi n) s = .next t ∧ (t.panel.core n).seq.task = some { k with pc := k.pc + 1, waitFrom := none } ∧
      (t.panel.core n).g (w.f 111 107) = (if w.f 111 107 = 0 then 0 else BitVec.ofNat 64 (w.f 63 0)) ∧
      ∀ i, i ≠ w.f 111 107 → (t.panel.core n).g i = (s.panel.core n).g i) ∧
  (∀ (s : State) (n : Site) (k : Task) (w : TaskWord), s.panel.live → (s.panel.core n).clocked →
    (s.panel.core n).ready Tw.alu = some (k, w) → k.midBody →
    ∃ t, exec (.alu n) s = .next t ∧ (t.panel.core n).seq.task = some { k with pc := k.pc + 1, waitFrom := none } ∧
      (t.panel.core n).g (w.f 111 107) =
        (if w.f 111 107 = 0 then 0
        else aluFn (w.f 96 93) ((s.panel.core n).g (w.f 106 102)) ((s.panel.core n).aluB w)) ∧
      ∀ i, i ≠ w.f 111 107 → (t.panel.core n).g i = (s.panel.core n).g i) ∧
  (∀ (s : State) (n : Site) (k : Task) (w : TaskWord), s.panel.live → (s.panel.core n).clocked →
    (s.panel.core n).ready Tw.semRead = some (k, w) → k.midBody →
    ∃ t, exec (.semRead n) s = .next t ∧ (t.panel.core n).seq.task = some { k with pc := k.pc + 1, waitFrom := none } ∧
      (t.panel.core n).g (w.f 103 99) =
        (if w.f 103 99 = 0 then 0 else BitVec.ofNat 64 ((s.panel.core n).sem (w.f 111 104))) ∧
      ∀ i, i ≠ w.f 103 99 → (t.panel.core n).g i = (s.panel.core n).g i)

/-- The ALU functions of R72: sums, differences and products modulo 2^64, bitwise functions, shifts by the low six bits of the
second operand, unsigned minimum and maximum. -/
def Obligations.AluFunctions : Prop :=
  ∀ a b : W64,
    (aluFn 0x0 a b).toNat = (a.toNat + b.toNat) % 2 ^ 64 ∧
    ((aluFn 0x1 a b).toNat + b.toNat) % 2 ^ 64 = a.toNat ∧
    (aluFn 0x2 a b).toNat = a.toNat &&& b.toNat ∧
    (aluFn 0x3 a b).toNat = a.toNat ||| b.toNat ∧
    (aluFn 0x4 a b).toNat = a.toNat ^^^ b.toNat ∧
    (aluFn 0x5 a b).toNat = a.toNat * 2 ^ (b.toNat % 64) % 2 ^ 64 ∧
    (aluFn 0x6 a b).toNat = a.toNat / 2 ^ (b.toNat % 64) ∧
    (aluFn 0x7 a b).toInt = a.toInt / 2 ^ (b.toNat % 64) ∧
    (aluFn 0x8 a b).toNat = min a.toNat b.toNat ∧
    (aluFn 0x9 a b).toNat = max a.toNat b.toNat ∧
    (aluFn 0xA a b).toNat = a.toNat * b.toNat % 2 ^ 64

/-- DISPATCH and DMA_START queue their work (R73, R75) when the unit has room: the operation with the values of its base registers, or
the descriptor's offset. -/
def Completion.DispatchCompletes : Prop :=
  (∀ (s : State) (n : Site) (k : Task) (w : TaskWord), s.panel.live → (s.panel.core n).clocked →
    (s.panel.core n).ready Tw.dispatch = some (k, w) → k.midBody → (s.panel.core n).queueRoom (w.f 111 109) →
    ∃ t, exec (.dispatch n) s = .next t ∧ (t.panel.core n).seq.task = some { k with pc := k.pc + 1, waitFrom := none } ∧
      (let q : QOp := { op := BitVec.ofNat 80 (w.f 79 0), a := (s.panel.core n).g (w.f 99 95), b := (s.panel.core n).g (w.f 94 90),
                        c := (s.panel.core n).g (w.f 89 85), sig := w.f 108 108 == 1, sem := w.f 107 100, pc := k.pc, opcode := 4 }
       (w.f 111 109 < 4 → ((t.panel.core n).eng (w.f 111 109)).queue = ((s.panel.core n).eng (w.f 111 109)).queue ++ [q]) ∧
       (w.f 111 109 = 4 → (t.panel.core n).ve.queue = (s.panel.core n).ve.queue ++ [q]) ∧
       (w.f 111 109 = 5 → (t.panel.core n).ru.queue = (s.panel.core n).ru.queue ++ [q]))) ∧
  (∀ (s : State) (n : Site) (k : Task) (w : TaskWord), s.panel.live → (s.panel.core n).clocked →
    (s.panel.core n).ready Tw.dmaStart = some (k, w) → k.midBody → ((s.panel.core n).ch (w.f 111 110)).queue.length < 16 →
    ∃ t, exec (.dmaStart n) s = .next t ∧ (t.panel.core n).seq.task = some { k with pc := k.pc + 1, waitFrom := none } ∧
      ((t.panel.core n).ch (w.f 111 110)).queue = ((s.panel.core n).ch (w.f 111 110)).queue ++
        [{ off := ((s.panel.core n).g (w.f 109 105)).toNat % 2 ^ 27 + w.f 104 78, pc := k.pc }])

/-- SEM_WAIT, SEM_WAIT_TIMEOUT, RECV and RECV_TIMEOUT complete (R78, R81). A wait whose semaphore has reached the threshold
writes 0 to gd, and takes the threshold off the semaphore when `consume` is set. A wait that has lasted its timeout, in
units of 256 ns, writes TIMED_OUT and takes nothing. RECV takes the oldest message. -/
def Completion.WaitsComplete : Prop :=
  (∀ (s : State) (n : Site) (k : Task) (w : TaskWord), s.panel.live → (s.panel.core n).clocked →
    (s.panel.core n).ready Tw.semWait = some (k, w) → k.midBody → w.f 97 66 ≤ (s.panel.core n).sem (w.f 111 104) →
    ∃ t, exec (.semWait n) s = .next t ∧ (t.panel.core n).g (w.f 102 98) = 0 ∧
      (t.panel.core n).seq.task = some { k with pc := k.pc + 1, waitFrom := none } ∧
      (t.panel.core n).sem (w.f 111 104) =
        (s.panel.core n).sem (w.f 111 104) - (if w.f 103 103 = 1 then w.f 97 66 else 0)) ∧
  (∀ (s : State) (n : Site) (k : Task) (w : TaskWord) (t0 : Nat), s.panel.live → (s.panel.core n).clocked →
    (s.panel.core n).ready Tw.semWait = some (k, w) → k.midBody → (s.panel.core n).sem (w.f 111 104) < w.f 97 66 →
    k.waitFrom = some t0 → w.f 65 42 ≠ 0 → t0 + 256 * w.f 65 42 ≤ s.panel.dial →
    ∃ t, exec (.semWaitTimeout n) s = .next t ∧
      (t.panel.core n).g (w.f 102 98) = (if w.f 102 98 = 0 then 0 else BitVec.ofNat 64 St.timedOut) ∧
      (t.panel.core n).seq.task = some { k with pc := k.pc + 1, waitFrom := none } ∧
      (t.panel.core n).seq.sem = (s.panel.core n).seq.sem) ∧
  (∀ (s : State) (n : Site) (k : Task) (w : TaskWord) (m : InboxMsg) (ms : List InboxMsg), s.panel.live →
    (s.panel.core n).clocked → (s.panel.core n).ready Tw.recv = some (k, w) → k.midBody →
    (s.panel.core n).seq.inbox = m :: ms → w.f 102 98 ≠ 0 →
    ∃ t, exec (.recv n) s = .next t ∧ (t.panel.core n).seq.inbox = ms ∧
      (t.panel.core n).seq.task = some { k with pc := k.pc + 1, waitFrom := none } ∧
      (t.panel.core n).g (w.f 102 98) = BitVec.ofNat 64 (recvHead m) ∧
      ∀ i, i < w.f 106 103 → w.f 111 107 + i ≠ 0 → w.f 111 107 + i ≠ w.f 102 98 →
        (t.panel.core n).g (w.f 111 107 + i) = BitVec.ofNat 64 (leAt m.payload (8 * i) 8)) ∧
  (∀ (s : State) (n : Site) (k : Task) (w : TaskWord) (t0 : Nat), s.panel.live → (s.panel.core n).clocked →
    (s.panel.core n).ready Tw.recv = some (k, w) → k.midBody → (s.panel.core n).seq.inbox = [] →
    k.waitFrom = some t0 → w.f 97 74 ≠ 0 → t0 + 256 * w.f 97 74 ≤ s.panel.dial →
    ∃ t, exec (.recvTimeout n) s = .next t ∧
      (t.panel.core n).g (w.f 102 98) = (if w.f 102 98 = 0 then 0 else BitVec.ofNat 64 St.timedOut) ∧
      (t.panel.core n).seq.task = some { k with pc := k.pc + 1, waitFrom := none })

/-- The last word of a loop's body goes back to the body's first word while iterations remain, with the new index in gi; after the
last iteration the loop ends, and what its last word does for the enclosing loop is what a word there does (R74). -/
def Completion.LoopGoesBack : Prop :=
  ∀ (k : Core) (t : Task) (l : LoopRec) (ls : List LoopRec), t.loops = l :: ls → l.last = t.pc →
    (l.index + 1 < l.count →
      (k.advance t).seq.task = some { t with
        pc := l.first, waitFrom := none, loops := { l with index := l.index + 1 } :: ls } ∧
      (l.gi ≠ 0 → (k.advance t).g l.gi = BitVec.ofNat 64 (l.index + 1)) ∧
      ∀ i, i ≠ l.gi → (k.advance t).g i = k.g i) ∧
    (l.count ≤ l.index + 1 → ls.length ≤ 3 → k.advance t = k.advance { t with loops := ls })

/-- LOOP and BR complete (R74): a count of zero skips the body; any other begins its first iteration with index 0; a taken branch goes
to its target and ends every loop whose body does not hold it, and one not taken goes on. -/
def Completion.ControlWordsComplete : Prop :=
  (∀ (s : State) (n : Site) (k : Task) (w : TaskWord), s.panel.live → (s.panel.core n).clocked →
    (s.panel.core n).ready Tw.loop = some (k, w) → (s.panel.core n).loopCount w = 0 →
    ({ k with pc := k.pc + w.f 104 95 } : Task).midBody →
    ∃ t, exec (.loop n) s = .next t ∧
      (t.panel.core n).seq.task = some { k with pc := k.pc + w.f 104 95 + 1, waitFrom := none }) ∧
  (∀ (s : State) (n : Site) (k : Task) (w : TaskWord), s.panel.live → (s.panel.core n).clocked →
    (s.panel.core n).ready Tw.loop = some (k, w) → (s.panel.core n).loopCount w ≠ 0 →
    ∃ t, exec (.loop n) s = .next t ∧ (t.panel.core n).g (w.f 62 58) = 0 ∧
      (t.panel.core n).seq.task = some { k with
        pc := k.pc + 1, waitFrom := none
        loops := { first := k.pc + 1, last := k.pc + w.f 104 95,
                   count := (s.panel.core n).loopCount w, index := 0, gi := w.f 62 58 } :: k.loops }) ∧
  (∀ (s : State) (n : Site) (k : Task) (w : TaskWord), s.panel.live → (s.panel.core n).clocked →
    (s.panel.core n).ready Tw.br = some (k, w) →
    brCond (w.f 101 99) ((s.panel.core n).g (w.f 111 107)) ((s.panel.core n).g (w.f 106 102)) →
    ∃ t, exec (.br n) s = .next t ∧ ∃ k', (t.panel.core n).seq.task = some k' ∧ k'.pc = w.f 98 89 ∧
      (∀ l ls, k'.loops = l :: ls → l.first ≤ w.f 98 89 ∧ w.f 98 89 ≤ l.last) ∧ k'.loops <:+ k.loops) ∧
  (∀ (s : State) (n : Site) (k : Task) (w : TaskWord), s.panel.live → (s.panel.core n).clocked →
    (s.panel.core n).ready Tw.br = some (k, w) → k.midBody →
    ¬ brCond (w.f 101 99) ((s.panel.core n).g (w.f 111 107)) ((s.panel.core n).g (w.f 106 102)) →
    ∃ t, exec (.br n) s = .next t ∧ (t.panel.core n).seq.task = some { k with pc := k.pc + 1, waitFrom := none })

/-- SEM_SIGNAL and POST complete (R68, R72, R80, R82): a local signal applies its operation at once; a remote signal, or a post,
that the router takes awaits its COMPLETION under a sequence number that no other request of the core uses, and the next
word issues. -/
def Completion.RemoteWordsComplete : Prop :=
  (∀ (s : State) (n : Site) (k : Task) (w : TaskWord), s.panel.live → (s.panel.core n).clocked →
    (s.panel.core n).ready Tw.semSignal = some (k, w) → k.midBody → w.f 101 101 = 0 →
    ∃ t, exec (.semSignal n) s = .next t ∧
      (∀ i, (t.panel.core n).sem i = ((s.panel.core n).semOp (w.f 111 104) (w.f 103 102)
        ((w.f 86 55 + ((s.panel.core n).g (w.f 100 96)).toNat) % 2 ^ 32)).sem i) ∧
      (t.panel.core n).seq.task = some { k with pc := k.pc + 1, waitFrom := none }) ∧
  (∀ (s : State) (n : Site) (k : Task) (w : TaskWord) (i : Nat) (q : Panel), s.panel.live → (s.panel.core n).clocked →
    (s.panel.core n).ready Tw.semSignal = some (k, w) → w.f 101 101 = 1 → (s.panel.core n).seq.remote.length < 64 →
    s.panel.inject (.core n)
      { opcode := Opc.semSignal, ga := gaCoreReg (w.f 95 91) (w.f 90 87) (Reg.SEQ_SEM + 4 * w.f 111 104), rtype := w.f 103 102,
        sval := (w.f 86 55 + ((s.panel.core n).g (w.f 100 96)).toNat) % 2 ^ 32, seq := (s.panel.core n).freshSeq } [] =
      (.sent i, q) →
    ∃ t, exec (.semSignal n) s = .next t ∧
      (t.panel.core n).seq.remote = (q.core n).seq.remote ++ [{ seq := (s.panel.core n).freshSeq }]) ∧
  (∀ (s : State) (n : Site) (k : Task) (w : TaskWord) (i : Nat) (q : Panel), s.panel.live → (s.panel.core n).clocked →
    (s.panel.core n).ready Tw.post = some (k, w) → (s.panel.core n).seq.remote.length < 64 →
    s.panel.inject (.core n)
      { opcode := Opc.msg, ga := msgGA (w.f 111 110) (w.f 109 105) (w.f 104 101), bytes := 8 * w.f 95 92,
        len := cdiv (8 * w.f 95 92) 32, mtag := w.f 91 76, mkind := if w.f 111 110 = 0 then 0 else 2,
        seq := (s.panel.core n).freshSeq }
      (unitsOf 0 ((s.panel.core n).gBytes (w.f 100 96) (w.f 95 92))) = (.sent i, q) →
    ∃ t, exec (.post n) s = .next t ∧
      (t.panel.core n).seq.remote = (q.core n).seq.remote ++ [{ seq := (s.panel.core n).freshSeq }])

/-- A semaphore operation saturates (R77): an add that would pass 0xFFFF_FFFF leaves 0xFFFF_FFFF and a subtract that would go
below zero leaves zero, and either sets the semaphore's bit in SEQ_SEM_SAT and is counted; no other operation does. -/
def Obligations.SemaphoresSaturate : Prop :=
  ∀ (k : Core) (i v : Nat), i < 256 → v < 2 ^ 32 →
    (k.semOp i 0 v).sem i = min cntTop (k.sem i + v) ∧ (k.semOp i 1 v).sem i = v ∧ (k.semOp i 2 v).sem i = k.sem i - v ∧
    (∀ j mode, j ≠ i → (k.semOp i mode v).sem j = k.sem j) ∧
    (∀ mode, (mode = 0 ∧ cntTop < k.sem i + v) ∨ (mode = 2 ∧ k.sem i < v) →
      ((k.semOp i mode v).rd (Reg.SEQ_SEM_SAT + 4 * (i / 32))).testBit (i % 32) = true ∧
      (k.semOp i mode v).rd Reg.SEQ_SEM_SAT_CNT = min cntTop (k.rd Reg.SEQ_SEM_SAT_CNT + 1)) ∧
    (∀ mode, ¬ ((mode = 0 ∧ cntTop < k.sem i + v) ∨ (mode = 2 ∧ k.sem i < v)) → mode ≤ 2 → (k.semOp i mode v).regs = k.regs)


/-! ### Packets that arrive at a core -/

/-- WRITE, WRITE_ACC, READ_REQ, MCAST_WRITE and REDUCE_DELIVERY complete (R166, R169, R201, R206): the packet at the head of its
channel, of the core's partition, leaves the arrivals and its rows stand in staging, when staging has room and the groups are
open. -/
def Completion.ArrivalsAreStaged : Prop :=
  ∀ (s : State) (n : Site) (x : Packet), s.panel.live → (s.panel.core n).clocked → (s.panel.core n).takes x →
    (s.panel.core n).spad.reshape = none →
    (∀ (v : Nat) (op : Nat) (kind : StageKind) (c : Instr),
      (v, op, kind, c) ∈ [(0, Opc.write, StageKind.write, Instr.write n), (0, Opc.readReq, .read, .readReq n),
        (0, Opc.writeAcc, .acc x.hdr.rtype, .writeAcc n), (3, Opc.mcast, .write, .mcastWrite n),
        (2, Opc.reduce, .acc x.hdr.rtype, .reduceDelivery n)] →
      s.panel.nextArr n v op = some x → (v = 0 → bits x.hdr.ga 55 52 = 0) →
      (kind = .acc x.hdr.rtype → 1 ≤ x.hdr.rtype ∧ x.hdr.rtype ≤ 4) →
      (s.panel.core n).spad.held + (stageEntries (s.panel.core n).spad.nextPid kind x).length ≤ 56 →
      ∃ t, exec c s = .next t ∧ (t.panel.core n).arrived v = ((s.panel.core n).arrived v).tail ∧
        (t.panel.core n).spad.staging =
          (s.panel.core n).spad.staging ++ stageEntries (s.panel.core n).spad.nextPid kind x)

/-- SEM_SIGNAL_PACKET and MSG complete (R79, R80, R170): once every row staged before them has been performed, a signal of the core's
partition acts on its semaphore, and a message of up to 64 good bytes joins an inbox that has room; either leaves the arrivals. -/
def Completion.SignalsAndMessagesArrive : Prop :=
  (∀ (s : State) (n : Site) (x : Packet) (i : Nat), s.panel.live → (s.panel.core n).clocked →
    s.panel.nextArr n 0 Opc.semSignal = some x → (s.panel.core n).drainedStaging → (s.panel.core n).takes x →
    entryOf (bits x.hdr.ga 19 0) Reg.SEQ_SEM 4 256 = some i → x.hdr.ga % 4 = 0 → bits x.hdr.ga 55 52 = 1 → x.hdr.rtype < 3 →
    ∃ t, exec (.semSignalPacket n) s = .next t ∧ (t.panel.core n).arrived 0 = ((s.panel.core n).arrived 0).tail ∧
      ∀ j, (t.panel.core n).sem j = ((s.panel.core n).semOp i x.hdr.rtype x.hdr.sval).sem j) ∧
  (∀ (s : State) (n : Site) (x : Packet), s.panel.live → (s.panel.core n).clocked →
    s.panel.nextArr n 0 Opc.msg = some x → (s.panel.core n).drainedStaging → (s.panel.core n).takes x →
    bits x.hdr.ga 19 0 = 0 → bits x.hdr.ga 55 52 = 1 → x.hdr.mkind = 0 → x.hdr.bytes ≤ 64 → x.payload.2.1 = false →
    (s.panel.core n).seq.inbox.length < 128 →
    ∃ t, exec (.msg n) s = .next t ∧ (t.panel.core n).arrived 0 = ((s.panel.core n).arrived 0).tail ∧
      ∃ m : InboxMsg, (t.panel.core n).seq.inbox = (s.panel.core n).seq.inbox ++ [m] ∧ m.payload = x.payload.1 ∧
        m.tag = x.hdr.mtag ∧
        (x.hdr.fromCore → m.kind = 0 ∧ m.sx = (s.panel.site (siteOf x.hdr.sc x.hdr.sr)).lx ∧ m.sy = x.hdr.sr))

/-- COMPLETION and READ_DATA complete at a core (R82, R221): an answer to a remote operation of the task takes it off the list and a
failing one is held in SEQ_STATUS; an answer to a tracked request frees its entry. -/
def Completion.AnswersArrive : Prop :=
  (∀ (s : State) (n : Site) (x : Packet) (o : RemoteOp), s.panel.live → (s.panel.core n).clocked →
    s.panel.nextArr n 1 Opc.completion = some x → (s.panel.core n).takes x → x.hdr.status ≤ 0x0C →
    (s.panel.core n).trackOf x.hdr.seq = none → (s.panel.core n).seq.remote.find? (·.seq = x.hdr.seq) = some o →
    ∃ t, exec (.completion (.core n)) s = .next t ∧
      (t.panel.core n).seq.remote = (s.panel.core n).seq.remote.filter (·.seq ≠ x.hdr.seq) ∧
      (t.panel.core n).seq.lastRemote =
        (if x.hdr.status = St.done then (s.panel.core n).seq.lastRemote else x.hdr.status)) ∧
  (∀ (s : State) (n : Site) (x : Packet) (ch entry : Nat) (k : Track), s.panel.live → (s.panel.core n).clocked →
    s.panel.nextArr n 1 Opc.completion = some x → (s.panel.core n).takes x → x.hdr.status ≤ 0x0C →
    (s.panel.core n).trackOf x.hdr.seq = some (ch, entry, k) → k.left ≤ 1 →
    ∃ t, exec (.completion (.core n)) s = .next t ∧ find ((t.panel.core n).ch ch).track entry = none) ∧
  (∀ (s : State) (n : Site) (x : Packet) (ch entry : Nat) (k : Track), s.panel.live → (s.panel.core n).clocked →
    s.panel.nextArr n 1 Opc.readData = some x → (s.panel.core n).takes x → x.hdr.status ≤ 0x0C →
    (s.panel.core n).trackOf x.hdr.seq = some (ch, entry, k) → k.isRead →
    ∃ t, exec (.readData (.core n)) s = .next t ∧ find ((t.panel.core n).ch ch).track entry = none)

/-! ### Scratchpad -/

/-- INGRESS_WRITE, INGRESS_READ, ACC_READ_TURN and ACC_WRITE_TURN perform the entry whose turn it is in its bank (R167, R169, R170,
R175). A write stores every enabled byte of its row, and a read changes no byte; a read turn copies the row into a buffer; a write
turn stores the buffer combined with the incoming bytes, and releases it. -/
def Completion.StagedRowsArePerformed : Prop :=
  (∀ (s : State) (n : Site) (bank : Fin 128) (e : StageEntry) (es : List StageEntry), s.panel.live → (s.panel.core n).clocked →
    (s.panel.core n).inBank bank = e :: es → e.kind = .write → (s.panel.core n).inCapacity e.row →
    ∃ t, exec (.ingressWrite n bank) s = .next t ∧
      (∀ i b q, i < 256 → e.bytes[i]? = some (some (b, q)) → (t.panel.core n).spad.mem.byte (256 * e.row + i) = b) ∧
      ∀ a, a < 256 * e.row ∨ 256 * e.row + 256 ≤ a → (t.panel.core n).spad.mem.byte a = (s.panel.core n).spad.mem.byte a) ∧
  (∀ (s : State) (n : Site) (bank : Fin 128) (e : StageEntry) (es : List StageEntry), s.panel.live → (s.panel.core n).clocked →
    (s.panel.core n).inBank bank = e :: es → e.kind = .read → (s.panel.core n).inCapacity e.row →
    ∃ t, exec (.ingressRead n bank) s = .next t ∧ (t.panel.core n).spad.mem = (s.panel.core n).spad.mem ∧
      ∀ y ∈ (t.panel.core n).spad.staging, y.pid = e.pid → y.row = e.row → y.status.isSome) ∧
  (∀ (s : State) (n : Site) (bank : Fin 128) (e : StageEntry), s.panel.live → (s.panel.core n).clocked →
    nextReadTurn ((s.panel.core n).inBank bank) = some e → (s.panel.core n).inCapacity e.row →
    ∃ t, exec (.accReadTurn n bank) s = .next t ∧ (t.panel.core n).spad.mem = (s.panel.core n).spad.mem ∧
      (t.panel.core n).spad.acc = (s.panel.core n).spad.acc ++
        [{ bank := (s.panel.core n).bankOf e.row, row := e.row, pid := e.pid, cws := (s.panel.core n).spad.mem.cws (8 * e.row) 8 }]) ∧
  (∀ (s : State) (n : Site) (bank : Fin 128) (e : StageEntry) (es : List StageEntry) (type : Nat) (b : AccBuf), s.panel.live →
    (s.panel.core n).clocked → (s.panel.core n).inBank bank = e :: es → e.kind = .acc type → e.turned →
    ((s.panel.core n).spad.acc.find? fun b => b.pid == e.pid && b.row == e.row) = some b →
    ∃ t, exec (.accWriteTurn n bank) s = .next t ∧
      (t.panel.core n).spad.mem = (s.panel.core n).spad.mem.setCws (8 * e.row) (accRow type b.cws e.bytes).1 ∧
      ∀ y ∈ (t.panel.core n).spad.acc, ¬ (y.pid = e.pid ∧ y.row = e.row))

/-- RESHAPE, RESHAPE_DRAIN_TIMEOUT, RESHAPE_SUPPLY_SETTLED and RESHAPE_COMPLETE (R172): a changed mask starts a reshape of a core in
IDLE or TEST; ten microseconds after the close staging and the buffers are empty; once drained, every byte reads zero; and then the
new groups are awake. -/
def Completion.ReshapeCompletes : Prop :=
  (∀ (s : State) (who : Requester) (n : Site) (v : W64), s.panel.granted who (.core n) Reg.SPAD_GRP_PWR → v.toNat % 65536 ≠ 0 →
    v.toNat % 65536 ≠ (s.panel.core n).rd Reg.SPAD_GRP_PWR →
    (s.panel.core n).seq.state = .idle ∨ (s.panel.core n).seq.state = .test → (s.panel.core n).spad.reshape = none →
    ∃ t, exec (.reshape who n v) s = .next t ∧ t.panel.out = .answer who 0 St.done :: s.panel.out ∧
      (t.panel.core n).rd Reg.SPAD_GRP_PWR = v.toNat % 65536 ∧
      (t.panel.core n).spad.reshape = some { mask := v.toNat % 65536, since := s.panel.dial }) ∧
  (∀ (s : State) (n : Site) (r : Reshape), s.panel.live → (s.panel.core n).clocked → (s.panel.core n).spad.reshape = some r →
    r.settled = false → r.since + 10000 ≤ s.panel.dial → (s.panel.core n).spad.staging ≠ [] →
    ∃ t, exec (.reshapeDrainTimeout n) s = .next t ∧ (t.panel.core n).spad.staging = [] ∧ (t.panel.core n).spad.acc = []) ∧
  (∀ (s : State) (n : Site) (r : Reshape), s.panel.live → (s.panel.core n).powered → (s.panel.core n).spad.reshape = some r →
    r.settled = false → (s.panel.core n).spad.staging = [] →
    ∃ t, exec (.reshapeSupplySettled n) s = .next t ∧ (∀ a, (t.panel.core n).spad.mem.byte a = 0) ∧
      (t.panel.core n).spad.reshape = some { r with settled := true }) ∧
  (∀ (s : State) (n : Site) (r : Reshape), s.panel.live → (s.panel.core n).clocked → (s.panel.core n).spad.reshape = some r →
    r.settled →
    ∃ t, exec (.reshapeComplete n) s = .next t ∧ (t.panel.core n).spad.awake = r.mask ∧ (t.panel.core n).spad.reshape = none)

/-- SPAD_PLAN_WRITE and SPAD_PLAN_CTL_WRITE (R162): plan 0 never changes; the owners of a plan that is valid do not change, and the
write is counted; a plan becomes valid exactly when L is 4 to 16, every slot below L holds a code 0x0–0x8, one of them holds 0x6
and every slot from L on holds zero, and a write of `valid` that fails this is counted. -/
def Obligations.SlotPlanWrites : Prop :=
  ∀ (s : State) (who : Requester) (n : Site) (i : Fin 32) (v : W64),
    (s.panel.granted who (.core n) (Reg.SPAD_PLAN + 8 * i) →
      ∃ t, exec (.spadPlanWrite who n i v) s = .next t ∧
        (if i.val = 0 then (t.panel.core n).regs = (s.panel.core n).regs
        else if ((s.panel.core n).rd (Reg.SPAD_PLAN_CTL + 4 * i)).testBit 31 then
          (t.panel.core n).rd (Reg.SPAD_PLAN + 8 * i) = (s.panel.core n).rd (Reg.SPAD_PLAN + 8 * i) ∧
          (t.panel.core n).rd Reg.SPAD_CFG_IGN_CNT = min cntTop ((s.panel.core n).rd Reg.SPAD_CFG_IGN_CNT + 1)
        else (t.panel.core n).rd (Reg.SPAD_PLAN + 8 * i) = v.toNat)) ∧
    (s.panel.granted who (.core n) (Reg.SPAD_PLAN_CTL + 4 * i) → i.val = 0 →
      ∃ t, exec (.spadPlanCtlWrite who n i v) s = .next t ∧ (t.panel.core n).regs = (s.panel.core n).regs) ∧
    (s.panel.granted who (.core n) (Reg.SPAD_PLAN_CTL + 4 * i) → i.val ≠ 0 →
      ∃ t, exec (.spadPlanCtlWrite who n i v) s = .next t ∧
        (let L := fld v 3 0 + 1
         let owner := fun j => bits ((s.panel.core n).rd (Reg.SPAD_PLAN + 8 * i)) (4 * j + 3) (4 * j)
         let good := 4 ≤ L ∧ (∀ j, j < L → owner j ≤ 8) ∧ (∃ j, j < L ∧ owner j = 6) ∧ (∀ j, L ≤ j → j < 16 → owner j = 0)
         (((t.panel.core n).rd (Reg.SPAD_PLAN_CTL + 4 * i)).testBit 31 = true ↔ v.getLsbD 31 = true ∧ good) ∧
         (v.getLsbD 31 = true → ¬ good →
           (t.panel.core n).rd Reg.SPAD_CFG_IGN_CNT = min cntTop ((s.panel.core n).rd Reg.SPAD_CFG_IGN_CNT + 1))))

/-- SCRUB_PATROL, SCRUB_WRITE_BACK and SPAD_ERR_CLR complete (R174, R176, R178): the patrol reads a bank's row, changing no stored byte, and
does not read that bank again in this bank row; the oldest queued row is stored again with every correctable codeword corrected;
bit 0 of a granted write clears SPAD_ERR_ADDR. -/
def Completion.ScrubbingCompletes : Prop :=
  (∀ (s : State) (n : Site) (bank : Fin 128) (row : Nat), s.panel.live → (s.panel.core n).clocked →
    (s.panel.core n).rowAt bank (s.panel.core n).spad.patrolRow = some row → (s.panel.core n).patrolOn →
    bank.val ∉ (s.panel.core n).spad.patrolDone →
    ∃ t, exec (.scrubPatrol n bank) s = .next t ∧ (t.panel.core n).spad.mem = (s.panel.core n).spad.mem ∧
      (bank.val ∈ (t.panel.core n).spad.patrolDone ∧ (t.panel.core n).spad.patrolRow = (s.panel.core n).spad.patrolRow ∨
        (t.panel.core n).spad.patrolDone = [] ∧
          (t.panel.core n).spad.patrolRow =
            (if (s.panel.core n).spad.patrolRow < 3583 then (s.panel.core n).spad.patrolRow + 1 else 0))) ∧
  (∀ (s : State) (n : Site) (row : Nat) (rest : List Nat), s.panel.live → (s.panel.core n).clocked →
    (s.panel.core n).spad.wbq = row :: rest →
    ∃ t, exec (.scrubWriteBack n) s = .next t ∧ (t.panel.core n).spad.wbq = rest ∧
      (t.panel.core n).spad.mem = (s.panel.core n).spad.mem.setCws (8 * row)
        (((s.panel.core n).spad.mem.cws (8 * row) 8).map fun c =>
          if c.read.1 = .corrected then Codeword.fresh c.read.2.data false else c)) ∧
  (∀ (s : State) (who : Requester) (n : Site) (v : W64), s.panel.granted who (.core n) Reg.SPAD_ERR_CLR →
    ∃ t, exec (.spadErrClr who n v) s = .next t ∧
      (t.panel.core n).rd Reg.SPAD_ERR_ADDR = if v.getLsbD 0 then 0 else (s.panel.core n).rd Reg.SPAD_ERR_ADDR)

/-! ### DMA channels -/

/-- DESCRIPTOR_READ, DMA_COPY, DMA_FILL, DMA_REDUCE and DMA_SIGNAL complete (R213, R218, R219, R227, R230): a free channel takes its oldest
entry; a descriptor whose row reads good and meets no fault becomes the one that issues, and a faulted one issues nothing and is
recorded in DMA_FAULT unless an earlier fault stands there; a transfer whose extents decode starts with all its pieces to issue; a
local SIGNAL waits until every earlier descriptor of its channel is complete. -/
def Completion.DescriptorsStart : Prop :=
  (∀ (s : State) (n : Site) (ch : Fin 4) (q : DmaQ) (rest : List DmaQ), s.panel.live → (s.panel.core n).clocked →
    ((s.panel.core n).ch ch).cur = none → ((s.panel.core n).ch ch).queue = q :: rest →
    (let x := (s.panel.core n).readRow (s.panel.at' n) Own.dmaOut (q.off / 256)
     let bs := (x.1.drop (q.off % 256)).take 64
     let ws := (List.range 7).map fun i => BitVec.ofNat 64 (leAt bs (8 * i) 8)
     x.2.1 ≠ St.bankAsleep →
     ∃ t, exec (.descriptorRead n ch) s = .next t ∧ ((t.panel.core n).ch ch).queue = rest ∧
      (descFault x.2.2 ws (isBad x.2.1) = none →
        ((t.panel.core n).ch ch).cur =
          some { id := ((s.panel.core n).ch ch).nextId, off := q.off, pc := q.pc, words := ws }) ∧
      ∀ cause, descFault x.2.2 ws (isBad x.2.1) = some cause →
        ((t.panel.core n).ch ch).cur = none ∧
        (((s.panel.core n).rd (Reg.DMA_FAULT + 4 * ch)).testBit 31 = false →
          (t.panel.core n).rd (Reg.DMA_FAULT + 4 * ch) = (2 ^ 31 + cause * 2 ^ 27 + q.off) % 2 ^ 64))) ∧
  (∀ (s : State) (n : Site) (ch : Fin 4) (r : DescRun) (kind : Nat) (c : Instr),
    (kind, c) ∈ [(Dk.copy, Instr.dmaCopy n ch), (Dk.fill, .dmaFill n ch), (Dk.reduce, .dmaReduce n ch)] → s.panel.live →
    (s.panel.core n).clocked → ((s.panel.core n).ch ch).cur = some r → r.started = false → r.desc.kind = kind →
    s.panel.descEarly r.desc = none → r.issued < r.desc.pieces → r.fails = [] →
    ∃ t, exec c s = .next t ∧
      ((t.panel.core n).ch ch).cur = some { r with started := true, pieces := r.desc.pieces, early := none }) ∧
  (∀ (s : State) (n : Site) (ch : Fin 4) (r : DescRun), s.panel.live → (s.panel.core n).clocked →
    ((s.panel.core n).ch ch).cur = some r → r.started = false → r.desc.kind = Dk.signal → r.desc.rsig = false →
    r.issued = r.pieces →
    (((s.panel.core n).ch ch).waiting = [] →
      ∃ t, exec (.dmaSignal n ch) s = .next t ∧ ((t.panel.core n).ch ch).cur = none ∧
        ((t.panel.core n).ch ch).waiting = [{ r with started := true }]) ∧
    (((s.panel.core n).ch ch).waiting ≠ [] → exec (.dmaSignal n ch) s = .next s))

/-- DMA_PIECE_ISSUE completes (R220, R222, R223): a piece of a FILL into the core's own scratchpad stores the pattern by address, byte by
byte, and nothing outside it, and is counted in bytes. -/
def Completion.FillPieceCompletes : Prop :=
  ∀ (s : State) (n : Site) (ch : Fin 4) (r : DescRun), s.panel.live → (s.panel.core n).clocked →
    ((s.panel.core n).ch ch).cur = some r → r.started → r.issueOver = false → r.desc.kind = Dk.fill → r.desc.acc = 0 →
    r.desc.mcast = false → (s.panel.core n).isOwn r.desc.dst → (s.panel.core n).spad.reshape = none → r.pos < r.desc.rowbytes →
    (let ta := (rowStart r.desc.dst r.desc.dstride r.row + r.pos) % 2 ^ 56
     let len := r.desc.pieceLen r.row r.pos
     ta % 2 ^ 27 + len ≤ (s.panel.core n).capacity →
     ∃ t, exec (.dmaPieceIssue n ch) s = .next t ∧
      (∀ i, i < len → (t.panel.core n).spad.mem.byte (ta % 2 ^ 27 + i) =
        BitVec.ofNat 8 (r.desc.pattern >>> (8 * ((ta + i) % 8)))) ∧
      (∀ a, a / 32 < ta % 2 ^ 27 / 32 ∨ (ta % 2 ^ 27 + len - 1) / 32 < a / 32 →
        (t.panel.core n).spad.mem.byte a = (s.panel.core n).spad.mem.byte a) ∧
      (t.panel.core n).rd (Reg.DMA_BYTES + 8 * ch) = ((s.panel.core n).rd (Reg.DMA_BYTES + 8 * ch) + len) % 2 ^ 64)

/-- DMA_REQUEST_TIMEOUT, DMA_DESCRIPTOR_COMPLETE and DMA_FAULT_CLR complete (R221, R224–R226, R243): a request unanswered for DMA_CFG.timeout
µs frees its entry and is counted; the oldest issued descriptor, once its pieces have ended, leaves the channel, is counted, has its
word 7 written, and signals whatever its status; bits 3:0 of a granted write clear the channels' fault registers. -/
def Completion.DescriptorsEnd : Prop :=
  (∀ (s : State) (n : Site) (ch : Fin 4) (entry : Fin 32) (k : Track), s.panel.live → (s.panel.core n).clocked →
    find ((s.panel.core n).ch ch).track entry = some k → (s.panel.core n).rd Reg.DMA_CFG % 65536 ≠ 0 →
    k.since + (s.panel.core n).rd Reg.DMA_CFG % 65536 * 1000 ≤ s.panel.dial →
    ∃ t, exec (.dmaRequestTimeout n ch entry) s = .next t ∧ find ((t.panel.core n).ch ch).track entry = none ∧
      (t.panel.core n).rd Reg.DMA_TIMEOUT_CNT = min cntTop ((s.panel.core n).rd Reg.DMA_TIMEOUT_CNT + 1)) ∧
  (∀ (s : State) (n : Site) (ch : Fin 4) (d : DescRun) (rest : List DescRun), s.panel.live → (s.panel.core n).clocked →
    ((s.panel.core n).ch ch).waiting = d :: rest → ((s.panel.core n).ch ch).over d → d.desc.rsig = false → d.faulted = false →
    d.words ≠ [] → d.off % 64 = 0 → (s.panel.core n).reach d.off → (s.panel.core n).reach (256 * (d.off / 256)) →
    ∃ t, exec (.dmaDescriptorComplete n ch) s = .next t ∧ ((t.panel.core n).ch ch).waiting = rest ∧
      (∀ i, i < 8 → (t.panel.core n).spad.mem.byte (d.off + 56 + i) = (leBytes 8 d.word7).getD i 0) ∧
      (d.desc.sig → (t.panel.core n).sem d.desc.sem = min cntTop ((s.panel.core n).sem d.desc.sem + 1))) ∧
  (∀ (s : State) (who : Requester) (n : Site) (v : W64), s.panel.granted who (.core n) Reg.DMA_FAULT_CLR →
    ∃ t, exec (.dmaFaultClr who n v) s = .next t ∧ ∀ ch, ch < 4 →
      (t.panel.core n).rd (Reg.DMA_FAULT + 4 * ch) =
        if v.getLsbD ch then 0 else (s.panel.core n).rd (Reg.DMA_FAULT + 4 * ch))


/-! ### Matrix engines -/

/-- MM and MV complete (R107, R115, R118): the operation at the head of an engine's queue, which owns a slot, passes its checks and
finds its class and tile free, runs; where its operands read good, every word of its output is the chunk-by-chunk sum of R107
over the operands in the scratchpad, from the tile's word or from zero. -/
def Completion.MatrixMultiplyCompletes : Prop :=
  ∀ (s : State) (n : Site) (e : Fin 4) (q : QOp) (rest : List QOp) (kind : Nat) (c : Instr),
    (kind, c) ∈ [(0, Instr.mm n e), (1, .mv n e)] → s.panel.live → (s.panel.core n).clocked →
    ((s.panel.core n).eng e).queue = q :: rest → q.kind = kind → ((s.panel.core n).eng e).free q →
    (s.panel.core n).noSlot (Own.me e) = false → q.meFault = none →
    ∃ t, exec c s = .next t ∧ ((t.panel.core n).eng e).queue = rest ∧ (((t.panel.core n).eng e).array.map (·.q)) = some q ∧
      (let fa := q.f 73 70
       let fb := q.f 69 66
       let x := Core.fetch (s.panel.at' n) (Own.me e)
         (rowsOf (operandRanges (baseOff q.a) fa q.mmK q.mmM ++ operandRanges (baseOff q.b) fb q.mmK q.mmN)) (s.panel.core n)
       let a : Operand := { c := fa, base := baseOff q.a, k := q.mmK, r := q.mmM, f := x.1 }
       let b : Operand := { c := fb, base := baseOff q.b, k := q.mmK, r := q.mmN, f := x.1 }
       isBad x.2.1 = false → ∀ i j, i < q.mmM → j < q.mmN →
         ((t.panel.core n).eng e).word q.tile i j =
           (mmElement a b i j (if q.f 65 65 = 1 then ((s.panel.core n).eng e).word q.tile i j else 0)).1 % 2 ^ 32)

/-- ACC_ZERO and ACC_LOAD complete (R111, R114, R118): a tile is cleared, or takes FP32 and INT32 words as stored and BF16 words
widened exactly. -/
def Completion.TileLoadsComplete : Prop :=
  ∀ (s : State) (n : Site) (e : Fin 4) (q : QOp) (rest : List QOp), s.panel.live → (s.panel.core n).clocked →
    ((s.panel.core n).eng e).queue = q :: rest → ((s.panel.core n).eng e).free q →
    (s.panel.core n).noSlot (Own.me e) = false → q.meFault = none →
    (q.kind = 2 → ∃ t, exec (.accZero n e) s = .next t ∧ (((t.panel.core n).eng e).xfer.map (·.q)) = some q ∧
      ∀ i j, i < 64 → j < 128 → ((t.panel.core n).eng e).word q.tile i j = 0) ∧
    (q.kind = 3 → ∃ t, exec (.accLoad n e) s = .next t ∧ (((t.panel.core n).eng e).xfer.map (·.q)) = some q ∧
      (let b := fmtBytes (q.f 73 70)
       let x := Core.fetch (s.panel.at' n) (Own.me e) (rowsOf (tileRanges (baseOff q.a) q.stride (q.tN * b) q.tM)) (s.panel.core n)
       isBad x.2.1 = false → ∀ i j, i < q.tM → j < q.tN →
         ((t.panel.core n).eng e).word q.tile i j =
           (let raw := Fetch.le x.1 (baseOff q.a + 32 * q.stride * i + b * j) b
            if q.f 73 70 = 1 then fp32.round (bf16.decode raw) else raw) % 2 ^ 32))

/-- ACC_STORE completes (R113, R118): a row-major store without accumulation writes each converted element at its place, and no byte
outside the codewords that its ranges touch. -/
def Completion.TileStoreCompletes : Prop :=
  ∀ (s : State) (n : Site) (e : Fin 4) (q : QOp) (rest : List QOp), s.panel.live → (s.panel.core n).clocked →
    ((s.panel.core n).eng e).queue = q :: rest → q.kind = 4 → ((s.panel.core n).eng e).free q →
    (s.panel.core n).noSlot (Own.me e) = false → q.meFault = none → (s.panel.core n).spad.reshape = none →
    (∀ x ∈ q.storeRanges, x.1 + x.2 ≤ (s.panel.core n).capacity) →
    ∃ t, exec (.accStore n e) s = .next t ∧ (((t.panel.core n).eng e).xfer.map (·.q)) = some q ∧
      (q.chunked = false → q.aow = 0 → ∀ i j b, i < q.tM → j < q.tN → b < fmtBytes q.fo →
        (let off := baseOff q.c + 32 * q.stride * i + fmtBytes q.fo * j
         (t.panel.core n).spad.mem.byte (off + b) =
          (leBytes (fmtBytes q.fo) (q.storeElem (((s.panel.core n).eng e).word q.tile i j) off).1).getD b 0)) ∧
      ∀ a, (∀ x ∈ q.storeRanges, x.2 ≠ 0 → a / 32 < x.1 / 32 ∨ (x.1 + x.2 - 1) / 32 < a / 32) →
        (t.panel.core n).spad.mem.byte a = (s.panel.core n).spad.mem.byte a

/-- An operation of a matrix engine that fails its check completes without a result (R118, R121): it is counted, NOT_PERMITTED is
reported to the task, and its cause is recorded unless an earlier fault stands there; tiles and scratchpad stay as they are. -/
def Obligations.MatrixFaultWritesNothing : Prop :=
  ∀ (k : Core) (base e : Nat) (q : QOp) (cause : Nat), e < 4 →
    let k' := k.meFail base e q cause
    k'.me = k.me ∧ k'.spad = k.spad ∧ k'.rd (Reg.ME_OP_CNT + 4 * e) = min cntTop (k.rd (Reg.ME_OP_CNT + 4 * e) + 1) ∧
    ((k.rd (Reg.ME_FAULT + 4 * e)).testBit 31 = true → k'.rd (Reg.ME_FAULT + 4 * e) = k.rd (Reg.ME_FAULT + 4 * e)) ∧
    ((k.rd (Reg.ME_FAULT + 4 * e)).testBit 31 = false →
      k'.rd (Reg.ME_FAULT + 4 * e) = meFaultBits cause q.kind q.tile % 2 ^ 64) ∧
    (∀ t, k.seq.task = some t → t.unitFault = none →
      k'.seq.task = some { t with unitFault := some ⟨q.pc, q.opcode, St.notPermitted⟩ })

/-- ME_OP_COMPLETE, ME_FAULT_CLR and ME_TBLK_BAD_CLR complete (R115, R121): the running operation of a class ends, is counted, and signals
when it succeeded. -/
def Completion.MatrixOperationsEnd : Prop :=
  (∀ (s : State) (n : Site) (e : Fin 4) (xfer : Bool) (r : RunOp), s.panel.live → (s.panel.core n).clocked →
    (if xfer then ((s.panel.core n).eng e).xfer else ((s.panel.core n).eng e).array) = some r →
    ∃ t, exec (.meOpComplete n e xfer) s = .next t ∧
      (if xfer then ((t.panel.core n).eng e).xfer else ((t.panel.core n).eng e).array) = none ∧
      (t.panel.core n).rd (Reg.ME_OP_CNT + 4 * e) = min cntTop ((s.panel.core n).rd (Reg.ME_OP_CNT + 4 * e) + 1) ∧
      (t.panel.core n).sem r.q.sem =
        (if St.ok r.status ∧ r.q.sig then min cntTop ((s.panel.core n).sem r.q.sem + 1) else (s.panel.core n).sem r.q.sem)) ∧
  (∀ (s : State) (who : Requester) (n : Site) (v : W64), s.panel.granted who (.core n) Reg.ME_FAULT_CLR →
    ∃ t, exec (.meFaultClr who n v) s = .next t ∧ ∀ e, e < 4 →
      (t.panel.core n).rd (Reg.ME_FAULT + 4 * e) = if v.getLsbD e then 0 else (s.panel.core n).rd (Reg.ME_FAULT + 4 * e)) ∧
  (∀ (s : State) (who : Requester) (n : Site) (v : W64), s.panel.granted who (.core n) Reg.ME_TBLK_BAD_CLR →
    ∃ t, exec (.meTblkBadClr who n v) s = .next t ∧
      (t.panel.core n).rd Reg.ME_TBLK_BAD_ADDR = if v.getLsbD 0 then 0 else (s.panel.core n).rd Reg.ME_TBLK_BAD_ADDR)

/-! ### Vector engine -/

/-- EMAP, EMAP_DESCRIPTOR_READ and EPROG complete (R126, R131, R138): an untapped EMAP that passes its first checks starts; its descriptor
row reads good and passes the second, and it runs, writing what the element program gives; EPROG makes its slot hold a program of
which every instruction is valid. -/
def Completion.VectorMapsComplete : Prop :=
  (∀ (s : State) (n : Site) (q : QOp) (rest : List QOp), s.panel.live → (s.panel.core n).clocked →
    (s.panel.core n).ve.queue = q :: rest → q.kind = 0 → q.f 71 71 = 0 → (s.panel.core n).ve.map = none →
    (s.panel.core n).mapFree q → (s.panel.core n).noSlot Own.ve = false →
    q.emapStartFault ((s.panel.core n).progValid (q.f 75 72)) = none →
    ∃ t, exec (.emap n) s = .next t ∧ (t.panel.core n).ve.queue = rest ∧ (t.panel.core n).ve.map = some { q := q }) ∧
  (∀ (s : State) (n : Site) (m : MapRun), s.panel.live → (s.panel.core n).clocked → (s.panel.core n).ve.map = some m →
    m.read = false → m.tap = false →
    (let x := Core.fetch (s.panel.at' n) Own.ve [baseOff m.q.a / 256] (s.panel.core n)
     let d : MapDesc := { words := (List.range 8).map fun i => Fetch.le x.1 (baseOff m.q.a + 8 * i) 8 }
     let prog := (s.panel.core n).program (m.q.f 75 72)
     St.ok x.2.1 → d.fault m.q prog = none →
     ∃ t, exec (.emapDescriptorRead n) s = .next t ∧
      ((t.panel.core n).ve.map.map fun y => (y.q, y.read, y.tap, y.ranges)) = some (m.q, true, false, d.ranges) ∧
      (t.panel.core n).spad.mem = (x.2.2.emapRun (s.panel.at' n) s.panel.free d m.q prog).2.2.spad.mem ∧
      (t.panel.core n).ve.vregs = (x.2.2.emapRun (s.panel.at' n) s.panel.free d m.q prog).2.2.ve.vregs)) ∧
  (∀ (s : State) (n : Site) (q : QOp) (rest : List QOp), s.panel.live → (s.panel.core n).clocked →
    (s.panel.core n).ve.queue = q :: rest → q.kind = 1 → (s.panel.core n).ve.xfer = none → (s.panel.core n).xferFree q →
    (s.panel.core n).noSlot Own.ve = false → q.xferFault = none →
    (let x := Core.fetch (s.panel.at' n) Own.ve (rowsOf [(baseOff q.a, 4 * (q.f 69 64 + 1))]) (s.panel.core n)
     let prog := (List.range (q.f 69 64 + 1)).map fun i => BitVec.ofNat 32 (Fetch.le x.1 (baseOff q.a + 4 * i) 4)
     (∀ w ∈ prog, (einstr w).ok) →
     ∃ t, exec (.eprog n) s = .next t ∧ (t.panel.core n).program (q.f 75 72) = prog.map einstr ∧
      ((t.panel.core n).ve.xfer.map (·.q)) = some q))

/-- VLOAD and VSTORE complete (R126, R132): rows of 256 bytes move between the scratchpad and the register file, byte for byte. -/
def Completion.VectorTransfersComplete : Prop :=
  ∀ (s : State) (n : Site) (q : QOp) (rest : List QOp), s.panel.live → (s.panel.core n).clocked →
    (s.panel.core n).ve.queue = q :: rest → (s.panel.core n).ve.xfer = none → (s.panel.core n).xferFree q →
    (s.panel.core n).noSlot Own.ve = false → q.xferFault = none →
    (q.kind = 2 →
      (let len := 256 * (q.f 67 59 + 1)
       let x := Core.fetch (s.panel.at' n) Own.ve (rowsOf [(baseOff q.a, len)]) (s.panel.core n)
       isBad x.2.1 = false →
       ∃ t, exec (.vload n) s = .next t ∧ ((t.panel.core n).ve.xfer.map (·.q)) = some q ∧
        ∀ i, i < len → cellAt (t.panel.core n).ve.vregs (256 * q.f 75 68 + i) = Fetch.byte x.1 (baseOff q.a + i))) ∧
    (q.kind = 3 → (s.panel.core n).spad.reshape = none → baseOff q.c + 256 * (q.f 67 59 + 1) ≤ (s.panel.core n).capacity →
      ∃ t, exec (.vstore n) s = .next t ∧ ((t.panel.core n).ve.xfer.map (·.q)) = some q ∧
        (∀ i, i < 256 * (q.f 67 59 + 1) →
          (t.panel.core n).spad.mem.byte (baseOff q.c + i) = cellAt (s.panel.core n).ve.vregs (256 * q.f 75 68 + i)) ∧
        ∀ a, a < baseOff q.c / 32 * 32 ∨ baseOff q.c + 256 * (q.f 67 59 + 1) + 32 ≤ a →
          (t.panel.core n).spad.mem.byte a = (s.panel.core n).spad.mem.byte a)

/-- VE_OP_COMPLETE and VE_FAULT_CLR complete (R141, R152). -/
def Completion.VectorOperationsEnd : Prop :=
  (∀ (s : State) (n : Site) (r : RunOp), s.panel.live → (s.panel.core n).clocked → (s.panel.core n).ve.xfer = some r →
    ∃ t, exec (.veOpComplete n true) s = .next t ∧ (t.panel.core n).ve.xfer = none ∧
      (t.panel.core n).rd Reg.VE_OP_CNT = min cntTop ((s.panel.core n).rd Reg.VE_OP_CNT + 1)) ∧
  (∀ (s : State) (n : Site) (m : MapRun), s.panel.live → (s.panel.core n).clocked → (s.panel.core n).ve.map = some m → m.read →
    ∃ t, exec (.veOpComplete n false) s = .next t ∧ (t.panel.core n).ve.map = none ∧
      (t.panel.core n).rd Reg.VE_OP_CNT = min cntTop ((s.panel.core n).rd Reg.VE_OP_CNT + 1)) ∧
  (∀ (s : State) (who : Requester) (n : Site) (v : W64), s.panel.granted who (.core n) Reg.VE_FAULT_CLR →
    ∃ t, exec (.veFaultClr who n v) s = .next t ∧
      (t.panel.core n).rd Reg.VE_FAULT = if v.getLsbD 0 then 0 else (s.panel.core n).rd Reg.VE_FAULT)

/-! ### Reduction unit -/

/-- RSUM, RMAX, RMIN, ARGMAX, TOPK, SMPAIR and PMERGE complete (R143–R147, R149, R151): the operation at the head of an idle unit, which owns
a slot and passes its checks, runs over the rows of the scratchpad, and its results stand at its destination. -/
def Completion.ReductionsComplete : Prop :=
  ∀ (s : State) (n : Site) (q : QOp) (rest : List QOp) (kind : Nat) (c : Instr),
    (kind, c) ∈ [(0, Instr.rsum n), (1, .rmax n), (2, .rmin n), (3, .argmax n), (4, .topk n), (5, .smpair n), (6, .pmerge n)] →
    s.panel.live → (s.panel.core n).clocked → (s.panel.core n).ru.queue = q :: rest → q.kind = kind →
    (s.panel.core n).ru.run = none → q.ru.tap = false → (s.panel.core n).noSlot Own.ru = false → q.ruFault none = none →
    (s.panel.core n).spad.reshape = none → baseOff q.c + q.ru.results * q.ru.resBytes ≤ (s.panel.core n).capacity →
    (let src := tileRanges (baseOff q.a) q.ru.stride (q.ru.cols * q.ru.elemBytes) q.ru.rows
     let x := Core.fetch (s.panel.at' n) Own.ru (rowsOf src) (s.panel.core n)
     let rows := src.map fun r => q.ru.rowVals x.1 r.1
     ∃ t, exec c s = .next t ∧ (t.panel.core n).ru.queue = rest ∧ ((t.panel.core n).ru.run.map (·.q)) = some q ∧
      (q.ru.acc = false → ∀ i b, (q.ru.resultsOf (q.b.toNat % 2 ^ 32) rows none).1[i]? = some b →
        i < q.ru.results * q.ru.resBytes → (t.panel.core n).spad.mem.byte (baseOff q.c + i) = b) ∧
      ∀ a, a < baseOff q.c / 32 * 32 ∨ baseOff q.c + q.ru.results * q.ru.resBytes + 32 ≤ a →
        (t.panel.core n).spad.mem.byte a = (s.panel.core n).spad.mem.byte a)

/-- TAP_PAIR_START, RU_OP_COMPLETE and RU_FAULT_CLR complete (R148, R149, R152): a tapped EMAP and its partner at the heads of their queues
start together. -/
def Completion.ReductionUnitPairsAndEnds : Prop :=
  (∀ (s : State) (n : Site) (q r : QOp), s.panel.live → (s.panel.core n).clocked → (s.panel.core n).veTap = some q →
    (s.panel.core n).ruTap = some r → (s.panel.core n).ve.map = none → (s.panel.core n).mapFree q →
    (s.panel.core n).noSlot Own.ve = false → (s.panel.core n).noSlot Own.ru = false →
    q.emapStartFault ((s.panel.core n).progValid (q.f 75 72)) = none →
    ∃ t, exec (.tapPairStart n) s = .next t ∧ (t.panel.core n).ve.map = some { q := q, tap := true } ∧
      (t.panel.core n).ru.run = some { q := r } ∧ (t.panel.core n).ru.tapped = true ∧
      (t.panel.core n).ve.queue = (s.panel.core n).ve.queue.tail ∧ (t.panel.core n).ru.queue = (s.panel.core n).ru.queue.tail) ∧
  (∀ (s : State) (n : Site) (r : RunOp), s.panel.live → (s.panel.core n).clocked → (s.panel.core n).ru.run = some r →
    ((s.panel.core n).ru.tapped = true → (s.panel.core n).ve.map.map (·.tap) ≠ some true) →
    ∃ t, exec (.ruOpComplete n) s = .next t ∧ (t.panel.core n).ru.run = none ∧
      (t.panel.core n).rd Reg.RU_OP_CNT = min cntTop ((s.panel.core n).rd Reg.RU_OP_CNT + 1) ∧
      (t.panel.core n).sem r.q.sem =
        (if St.ok r.status ∧ r.q.sig then min cntTop ((s.panel.core n).sem r.q.sem + 1) else (s.panel.core n).sem r.q.sem)) ∧
  (∀ (s : State) (who : Requester) (n : Site) (v : W64), s.panel.granted who (.core n) Reg.RU_FAULT_CLR →
    ∃ t, exec (.ruFaultClr who n v) s = .next t ∧
      (t.panel.core n).rd Reg.RU_FAULT = if v.getLsbD 0 then 0 else (s.panel.core n).rd Reg.RU_FAULT)



/-! ### Mesh -/

/-- FLIT_RECEIVE, FLIT_REPLAY and PACKET_HOP complete (R182, R187–R189, R194, R196): a flit whose CRC agrees under the expected
number is accepted, and every fourth is acknowledged; the first one whose CRC does not agree leaves the number as it is and
is answered with a NAK; a NAK sends the flits from the one that it names again; a unicast packet goes to the buffer of the
router that its next step names, to its core, or to the hub behind the edge port, and one with a bad header is discarded and
counted. -/
def Completion.PacketsHop : Prop :=
  (∀ (s : State) (n : Site) (port : Fin 8) (flit : BitVec 2048), s.panel.live → (s.panel.core n).clocked →
    (s.panel.core n).linkUp port →
    (let l := (s.panel.core n).link port
     let f : Flit := ⟨leBytes 256 flit.toNat⟩
     (f.crcOk l.rxSeq →
      ∃ t, exec (.flitReceive n port flit) s = .next t ∧ ((t.panel.core n).link port).rxSeq = (l.rxSeq + 1) % 65536 ∧
        (l.rxCount = 3 → t.panel.out = .hopAck n port l.rxSeq :: s.panel.out)) ∧
     (f.crcOk l.rxSeq = false → l.rxNak = false →
      ∃ t, exec (.flitReceive n port flit) s = .next t ∧ (t.panel.core n).link port = { l with rxNak := true } ∧
        t.panel.out = .hopNak n port l.rxSeq :: s.panel.out))) ∧
  (∀ (s : State) (n : Site) (port : Fin 8) (seq : Nat), s.panel.live → (s.panel.core n).clocked →
    ((s.panel.core n).link port).nakAt = some seq →
    ∃ t, exec (.flitReplay n port) s = .next t ∧ ((t.panel.core n).link port).nakAt = none ∧
      ((t.panel.core n).link port).replay =
        (((s.panel.core n).link port).replay.filter fun f => decide ((f.1 + 65536 - seq) % 65536 < 32768)) ∧
      (t.panel.core n).rd Reg.MESH_RETRY_CNT = min cntTop ((s.panel.core n).rd Reg.MESH_RETRY_CNT + 1)) ∧
  (∀ (s : State) (n : Site) (input : Fin 9) (vc : Fin 4) (x : Packet) (rest : List Packet), s.panel.live →
    (s.panel.core n).clocked → input.val ≠ 6 → input.val ≠ 7 → attDie n 1 = none → attDie n 2 = none →
    (s.panel.core n).rt.inbuf input vc = x :: rest → x.hdr.vc = vc.val →
    (x.hdr.bad = false → x.hdr.opcode ≠ Opc.mcast → x.hdr.opcode ≠ Opc.reduce →
      (∀ port m, s.panel.nextHop n x.hdr = .hop port m → m ≠ n.val → (s.panel.core n).carries port →
        roomFor ((s.panel.core m).rt.inbuf (farPort port) vc) x →
        ∃ t, exec (.packetHop n input vc) s = .next t ∧ (t.panel.core n).rt.inbuf input vc = rest ∧
          (t.panel.core m).rt.inbuf (farPort port) vc = (s.panel.core m).rt.inbuf (farPort port) vc ++ [x]) ∧
      (s.panel.nextHop n x.hdr = .core → (s.panel.core n).arrived vc = [] →
        ∃ t, exec (.packetHop n input vc) s = .next t ∧ (t.panel.core n).rt.inbuf input vc = rest ∧
          (t.panel.core n).arrived vc = [x])) ∧
    (x.hdr.bad →
      ∃ t, exec (.packetHop n input vc) s = .next t ∧ (t.panel.core n).rt.inbuf input vc = rest ∧
        (t.panel.core n).rd Reg.MESH_HDR_ERR_CNT = min cntTop ((s.panel.core n).rd Reg.MESH_HDR_ERR_CNT + 1))) ∧
  (∀ (s : State) (n : Site) (input : Fin 9) (x : Packet) (rest : List Packet) (h a : Nat), s.panel.live →
    (s.panel.core n).clocked → input.val ≠ 6 → input.val ≠ 7 → attDie n 1 = none → attDie n 2 = some (.hub h a) →
    (s.panel.core n).rt.inbuf input 0 = x :: rest → x.hdr.vc = 0 → x.hdr.bad = false → x.hdr.opcode = Opc.write →
    s.panel.nextHop n x.hdr = .edge 2 → s.panel.edgeLives n 2 → look [] (s.panel.hub h).arr (4 * a) = [] →
    ∃ t, exec (.packetHop n input 0) s = .next t ∧ (t.panel.core n).rt.inbuf input 0 = rest ∧
      look [] (t.panel.hub h).arr (4 * a) = [x])

/-- REDUCE and REDUCE_ROUND_TIMEOUT complete (R202, R203, R205): a contribution that does not complete its round leaves its buffer and
adds 1 and its weight, held at 511, to the round's; a partial result that leaves sets the entry's pass bit and is counted. -/
def Completion.ReductionsInTheMesh : Prop :=
  (∀ (s : State) (n : Site) (input : Fin 9) (x : Packet) (rest : List Packet) (e : Nat), s.panel.live →
    (s.panel.core n).clocked → (s.panel.core n).rt.inbuf input 2 = x :: rest → x.hdr.bad = false →
    x.hdr.opcode = Opc.reduce → s.panel.redTurn n x.hdr = .take e →
    (let old := ((find (s.panel.core n).rt.rounds e).map fun r => (r.arrived, r.weight)).getD (0, 0)
     old.1 + 1 < ((s.panel.core n).red e).count →
     ∃ t, exec (.reduce n input) s = .next t ∧ (t.panel.core n).rt.inbuf input 2 = rest ∧
      (find (t.panel.core n).rt.rounds e).map (fun r => (r.arrived, r.weight)) =
        some (old.1 + 1, min (old.2 + x.hdr.weight) 511))) ∧
  (∀ (s : State) (n : Site) (e : Fin 64) (r : RedRound) (q : Panel), s.panel.live → (s.panel.core n).clocked →
    find (s.panel.core n).rt.rounds e = some r → (s.panel.core n).rd Reg.MESH_RED_CFG % 65536 ≠ 0 →
    r.since + (s.panel.core n).rd Reg.MESH_RED_CFG % 65536 * 1000 ≤ s.panel.dial → r.arrived < ((s.panel.core n).red e).count →
    s.panel.sendRound n e = some q →
    ∃ t, exec (.reduceRoundTimeout n e) s = .next t ∧ ((t.panel.core n).red e).pass ∧
      find (t.panel.core n).rt.rounds e = none ∧
      (t.panel.core n).rd Reg.MESH_RED_TIMEOUT_CNT = min cntTop ((q.core n).rd Reg.MESH_RED_TIMEOUT_CNT + 1))

/-- MESH_RED_WRITE, MESH_INJ_CFG_WRITE and THROTTLE_LEVEL_END complete (R202, R207, R212): an allowed value is held in the
fields that the register keeps; one with a zero count or a type outside 1–4, an entry whose round is open, or a rate outside
1–16 is ignored and counted; levels whose threshold the occupancy no longer reaches end. -/
def Completion.MeshRegistersComplete : Prop :=
  (∀ (s : State) (who : Requester) (n : Site) (e : Fin 64) (v : W64), s.panel.granted who (.core n) (Reg.MESH_RED + 8 * e) →
    (let x := v.toNat
     let open' := find (s.panel.core n).rt.rounds e
     (∀ r, open' = some r → r.arrived ≠ 0 →
       ∃ t, exec (.meshRedWrite who n e v) s = .next t ∧
        (t.panel.core n).rd (Reg.MESH_RED + 8 * e) = (s.panel.core n).rd (Reg.MESH_RED + 8 * e) ∧
        (t.panel.core n).rd Reg.MESH_CFG_IGN_CNT = min cntTop ((s.panel.core n).rd Reg.MESH_CFG_IGN_CNT + 1)) ∧
     (open' = none → x.testBit 63 = false ∨ (bits x 41 33 ≠ 0 ∧ 1 ≤ bits x 49 47 ∧ bits x 49 47 ≤ 4) →
       ∃ t, exec (.meshRedWrite who n e v) s = .next t ∧
        (t.panel.core n).rd (Reg.MESH_RED + 8 * e) = x &&& 0xBFFFFFFFC0000000) ∧
     (open' = none → x.testBit 63 → bits x 41 33 = 0 ∨ bits x 49 47 = 0 ∨ 4 < bits x 49 47 →
       ∃ t, exec (.meshRedWrite who n e v) s = .next t ∧
        (t.panel.core n).rd (Reg.MESH_RED + 8 * e) = (s.panel.core n).rd (Reg.MESH_RED + 8 * e) ∧
        (t.panel.core n).rd Reg.MESH_CFG_IGN_CNT = min cntTop ((s.panel.core n).rd Reg.MESH_CFG_IGN_CNT + 1)))) ∧
  (∀ (s : State) (who : Requester) (n : Site) (v : Fin 4) (value : W64),
    s.panel.granted who (.core n) (Reg.MESH_INJ_CFG + 4 * v) → v.val ≠ 1 →
    (let x := value.toNat % 2 ^ 32
     let ok (r : Nat) : Prop := 1 ≤ r ∧ r ≤ 16
     (ok (bits x 31 27) ∧ ok (bits x 26 22) ∧ ok (bits x 21 17) →
       ∃ t, exec (.meshInjCfgWrite who n v value) s = .next t ∧
        (t.panel.core n).rd (Reg.MESH_INJ_CFG + 4 * v) = x &&& 0xFFFE3FFF) ∧
     (¬ (ok (bits x 31 27) ∧ ok (bits x 26 22) ∧ ok (bits x 21 17)) →
       ∃ t, exec (.meshInjCfgWrite who n v value) s = .next t ∧
        (t.panel.core n).rd (Reg.MESH_INJ_CFG + 4 * v) = (s.panel.core n).rd (Reg.MESH_INJ_CFG + 4 * v) ∧
        (t.panel.core n).rd Reg.MESH_CFG_IGN_CNT = min cntTop ((s.panel.core n).rd Reg.MESH_CFG_IGN_CNT + 1)))) ∧
  (∀ (s : State) (n : Site) (v : Fin 4), s.panel.live → (s.panel.core n).clocked →
    (let cfg := (s.panel.core n).rd (Reg.MESH_INJ_CFG + 4 * v)
     let o := (s.panel.core n).rt.occupancy v
     o < 4 * bits cfg 13 7 →
     ∃ t, exec (.throttleLevelEnd n v) s = .next t ∧
      (o < 4 * bits cfg 6 0 → (t.panel.core n).level v = 0) ∧
      (4 * bits cfg 6 0 ≤ o → bits cfg 6 0 ≠ 0 → (look 0 (s.panel.core n).rt.level v).testBit 0 →
        (t.panel.core n).level v = 1)))

/-- LINK_DOWN, LANE_REPAIR, LANE_REPAIR_DONE and ROUTE_MAP_REWRITE complete (R190, R191, R195, R196): a failed link is down at both
its ends; a link under lane repair holds its traffic, and resumes, degrades by a module, or goes down with its last one; every
entry of every powered router's map takes the value that the construction of R195 gives it. -/
def Completion.LinksAndMapsComplete : Prop :=
  (∀ (s : State) (n : Site) (port : Fin 8), s.panel.live → (s.panel.core n).powered → (s.panel.core n).linkUp port →
    ∃ t, exec (.linkDown n port) s = .next t ∧ ((t.panel.core n).link port).state = 3 ∧
      ∀ m, port.val < 6 → portSite n port = some m → s.panel.powered m → ((t.panel.core m).link (farPort port)).state = 3) ∧
  (∀ (s : State) (n : Site) (port : Fin 8) (module : Fin 4) (lane : Nat), s.panel.live → (s.panel.core n).powered →
    (s.panel.core n).carries port → module.val < ((s.panel.core n).link port).modules →
    ∃ t, exec (.laneRepair n port module lane) s = .next t ∧ (t.panel.core n).carries port = false ∧
      (t.panel.core n).link port = { (s.panel.core n).link port with held := some (module.val, lane) }) ∧
  (∀ (s : State) (n : Site) (port : Fin 8) (module : Fin 4) (lane : Nat), s.panel.live → (s.panel.core n).powered →
    ((s.panel.core n).link port).held = some (module.val, lane) →
    (let l := (s.panel.core n).link port
     (∃ t, exec (.laneRepairDone n port module true) s = .next t ∧ (t.panel.core n).link port = { l with held := none } ∧
       (t.panel.core n).rd Reg.MESH_LANE_REPAIR_CNT = min cntTop ((s.panel.core n).rd Reg.MESH_LANE_REPAIR_CNT + 1)) ∧
     (1 < l.modules → ∃ t, exec (.laneRepairDone n port module false) s = .next t ∧
       (t.panel.core n).link port = { l with held := none, modules := l.modules - 1, state := 2 }) ∧
     (l.modules ≤ 1 → ∃ t, exec (.laneRepairDone n port module false) s = .next t ∧
       ((t.panel.core n).link port).state = 3))) ∧
  (∀ (s : State), s.panel.live → s.panel.boot.mapped →
    ∃ t, exec .routeMapRewrite s = .next t ∧ ∀ n i, n < 336 → s.panel.powered n → i < 390 →
      (t.panel.core n).rd (Reg.MESH_RMAP + 4 * i) = s.panel.mapValue n i)


/-! ### Windows and models -/

/-- WIN_ENT_WRITE completes (R231, R233): a word that leaves a legal entry is held in the bits that the entry keeps, in the crowns and
in every port die that lives; one that would leave an entry that R233 refuses changes nothing but WIN_CFG_IGN_CNT. -/
def Completion.WindowWritesComplete : Prop :=
  ∀ (s : State) (who : Requester) (w : Fin 256) (word : Fin 4) (v : W64),
    s.panel.granted who (.crown (s.panel.viaCrown who)) (Reg.WIN_ENT + 32 * w + 8 * word) →
    (let off := Reg.WIN_ENT + 32 * w
     let x := v.toNat &&& [0xFCFFFFFFFFFFFFFF, 2 ^ 64 - 1, 0x1FFFFFF, 0].getD word 0
     let at' (i : Nat) : Nat := if i = word then x else s.panel.sh (off + 8 * i)
     let bad := s.panel.winBad (WinEnt.ofWords (at' 0) (at' 1) (at' 2))
     ∃ t, exec (.winEntWrite who w word v) s = .next t ∧ t.panel.cores = s.panel.cores ∧ t.panel.hubs = s.panel.hubs ∧
      (bad = false → t.panel.sh (off + 8 * word) = x ∧
        ∀ d, d < 8 → s.panel.fuses.diePresent d → (s.panel.port d).lost = false →
          (t.panel.port d).rd (Reg.WIN_ENT_COPY + 32 * w + 8 * word) = x) ∧
      (bad → t.panel.ports = s.panel.ports ∧
        t.panel.sh Reg.WIN_CFG_IGN_CNT = min cntTop (s.panel.sh Reg.WIN_CFG_IGN_CNT + 1) ∧
        ∀ o, o ≠ Reg.WIN_CFG_IGN_CNT → t.panel.sh o = s.panel.sh o))

/-- LOAD_BEGIN, LOAD_COMMIT and UNLOAD complete (R240, R241, R244): a good image gives a number that no model has to a model that
receives it, a table that breaks R237 fails it with cause 3; a commit that passes the checks of step 3 seals the image, one that fails
a check fails the model with that check's cause and status; a model that no context names is unloaded. -/
def Completion.LoadRequestsComplete : Prop :=
  (∀ (s : State) (c : Crown) (r : Req) (rest : List Req) (part h off n : Nat) (b : List Byte), s.panel.engineOn c →
    (s.panel.crown c).reqs = r :: rest → r.op = 3 →
    r.part = some part → (∃ m, m < 16 ∧ find s.panel.models m = none) →
    s.panel.readHeader part (leAt r.bytes 8 8 % 2 ^ 56) = some (h, off, b, n) →
    (let tab := (List.range n).map fun i => SectEnt.ofBytes (s.panel.rawAt h (off + 256 + 32 * i) 32)
     ∃ t m, exec (.loadBegin c) s = .next t ∧ m < 16 ∧ (s.panel.model m).state = 0 ∧ (t.panel.crown c).reqs = rest ∧
      (t.panel.model m).part = part ∧ (t.panel.model m).image = leAt r.bytes 8 8 % 2 ^ 56 ∧ (t.panel.model m).table = tab ∧
      (s.panel.tableOk part tab → leAt b 9 7 = 0 → leAt b 48 208 = 0 → (t.panel.model m).state = 1) ∧
      (s.panel.tableOk part tab = false → (t.panel.model m).state = 5 ∧ (t.panel.model m).cause = 3))) ∧
  (∀ (s : State) (c : Crown) (r : Req) (rest : List Req) (m : Nat) (x : Model), s.panel.engineOn c →
    (s.panel.crown c).reqs = r :: rest → r.op = 4 →
    s.panel.ownModel r = some (m, x) → x.state = 1 →
    ∃ t, exec (.loadCommit c) s = .next t ∧ (t.panel.crown c).reqs = rest ∧
      (s.panel.loadFault m x = none → (t.panel.model m).state = 3 ∧ (t.panel.model m).since = s.panel.dial ∧
        (t.panel.model m).req = some r) ∧
      ∀ cause st, s.panel.loadFault m x = some (cause, st) →
        (t.panel.model m).state = 5 ∧ (t.panel.model m).cause = cause ∧ (t.panel.model m).status = st) ∧
  (∀ (s : State) (c : Crown) (r : Req) (rest : List Req) (m : Nat) (x : Model), s.panel.engineOn c →
    (s.panel.crown c).reqs = r :: rest → r.op = 5 →
    s.panel.ownModel r = some (m, x) → x.state = 4 ∨ x.state = 5 → s.panel.modelNamed m = false →
    ∃ t, exec (.unload c) s = .next t ∧ (t.panel.crown c).reqs = rest ∧ find t.panel.models m = none ∧
      s.panel.completes t.panel r 0 St.done false m)

/-- LOAD_IDLE_TIMEOUT, LOAD_TARGETS_IDLE and LOAD_READY complete (R240, R241): targets that are not idle within 1 ms fail the model with
cause 9; once they are, the control sections are applied and the data sections streamed, and a status that fails any of them fails
the model with cause 10; an applied model is ready, with the digests of R242 over its sections. -/
def Completion.LoadsComplete : Prop :=
  (∀ (s : State) (m : Fin 16), s.panel.live → (s.panel.model m).state = 3 → (s.panel.model m).applied = false →
    s.panel.targetsIdle (s.panel.model m).table = false → (s.panel.model m).since + 1000000 ≤ s.panel.dial →
    ∃ t, exec (.loadIdleTimeout m) s = .next t ∧ (t.panel.model m).state = 5 ∧ (t.panel.model m).cause = 9 ∧
      (t.panel.model m).status = St.timedOut) ∧
  (∀ (s : State) (m : Fin 16), s.panel.live → (s.panel.model m).state = 3 → (s.panel.model m).applied = false →
    s.panel.targetsIdle (s.panel.model m).table →
    (∀ e ∈ (s.panel.model m).table, e.type = 3 → ∀ n, e.site s.panel = some n → (s.panel.core n).spad.staging = []) →
    (let tab := (s.panel.model m).table
     let p := (tab.filter fun e => e.type = 3).foldl (fun p e => Panel.applyControl p m e) s.panel
     let p := (tab.filter fun e => e.type ≠ 3).foldl (fun p e => Panel.applyControl p m e) p
     let r := Panel.streamAll (s.panel.model m).part tab p
     ∃ t, exec (.loadTargetsIdle m) s = .next t ∧
      (r.1 ≤ 1 → (t.panel.model m).applied ∧ t.panel.cores = r.2.cores ∧ t.panel.hubs = r.2.hubs) ∧
      (1 < r.1 → (t.panel.model m).state = 5 ∧ (t.panel.model m).cause = 10 ∧ (t.panel.model m).status = r.1))) ∧
  (∀ (s : State) (m : Fin 16), s.panel.live → (s.panel.model m).state = 3 → (s.panel.model m).applied →
    (let x := s.panel.model m
     let dh := ((s.panel.sectionOf m none).bind (·.digest)).getD []
     ∃ t, exec (.loadReady m) s = .next t ∧ (t.panel.model m).state = 4 ∧
      (t.panel.model m).programs = sm3 (dh ++ s.panel.digests m x.table false) ∧
      (t.panel.model m).weights = sm3 (s.panel.digests m x.table true)))


/-! ### Contexts -/

/-- ADMIT and CANCEL complete (R252, R254, R255, R273, R361): an accepted context takes a new handle and the free slot, or a record of the
overflow list, and its requester's completion names the handle; without either it gets CONTEXTS_FULL; a cancelled context drains at
once, or at the boundary of the step that it is in. -/
def Completion.AdmissionsComplete : Prop :=
  (∀ (s : State) (c : Crown) (r : Req) (p0 q q' : Panel) (e : CtxEntry) (h : Nat), s.panel.engineOn c →
    s.panel.nextReq c (· == 1) = some (r, p0) → p0.ctxRole c ≠ 2 → p0.admitCheck c r = some (e, q) → q.newHandle = some (h, q') →
    (let limit := (q.crown c).rd (Reg.CTX_PLIM + 4 * e.part) % 2 ^ 17
     let ovf := (q.crown c).rd Reg.CTX_OVF_CFG
     (∀ n, q.slotsOf e.part < limit → q.freeSlot = some n →
       ∃ t, exec (.admitSlot c) s = .next t ∧ t.panel.ent n = { e with handle := h } ∧ t.panel.whereIs h = some (.slot n) ∧
        (t.panel.crown c).rd Reg.CTX_ADMIT_CNT = min cntTop ((q.crown c).rd Reg.CTX_ADMIT_CNT + 1) ∧
        s.panel.completes t.panel r h St.done false e.model) ∧
     (limit ≤ q.slotsOf e.part ∨ q.freeSlot = none → ovf.testBit 31 → q.heldRecs.length < bits ovf 20 0 →
       q.heldRecs.length < 2 ^ 20 →
       ∃ t j, exec (.admitSlot c) s = .next t ∧ find q.heldRecs j = none ∧ t.panel.whereIs h = some (.held j) ∧
        find t.panel.heldRecs j = some { e with handle := h, state := 4, held := true } ∧
        s.panel.completes t.panel r h St.done true e.model) ∧
     (limit ≤ q.slotsOf e.part ∨ q.freeSlot = none → ovf.testBit 31 = false →
       ∃ t, exec (.admitSlot c) s = .next t ∧ t.panel.heldRecs = q.heldRecs ∧
        (t.panel.crown c).rd Reg.CTX_FULL_CNT = min cntTop ((q.crown c).rd Reg.CTX_FULL_CNT + 1) ∧
        s.panel.completes t.panel r 0 St.contextsFull false e.model))) ∧
  (∀ (s : State) (c : Crown) (r : Req) (p0 : Panel) (n : Nat) (e : CtxEntry), s.panel.engineOn c →
    s.panel.nextReq c (· == 2) = some (r, p0) → s.panel.ctxOf (leAt r.bytes 4 4) = some (.slot n, e) → r.part = some e.part →
    e.state ≠ 0 → e.state ≠ 5 →
    ∃ t, exec (.cancel c) s = .next t ∧
      (s.panel.inStep e.handle → t.panel.ent n = { e with cancel := true }) ∧
      (s.panel.inStep e.handle = false →
        t.panel.ent n = { e with state := 5, cancel := false, failing := none, waiting := false }))

/-- CTX_MSG_RECEIVE, SWAP_IN and PAGE_IN complete (R250, R257, R267): a message of kind 2 to offset 0 is queued, and one of another kind is
refused and counted; the best held context takes a free slot, parked, with its handle; a context that the pager brings in is active
or prefills again, and one for which no pool page is free waits, counted. -/
def Completion.MessagesSwapsAndPagesComplete : Prop :=
  (∀ (s : State) (c : Crown) (x : Packet) (rest : List Packet), s.panel.engineOn c →
    look [] (s.panel.crown c).arr 0 = x :: rest → x.hdr.opcode = Opc.msg →
    (x.hdr.mkind = 2 → bits x.hdr.ga 31 0 = 0 → x.hdr.bytes ≤ 64 → x.payload.2.1 = false →
      x.hdr.bytes ≠ 32 ∨ x.hdr.mtag ≠ 0xFFFF → (s.panel.crown c).msgq.length < 256 →
      ∃ t, exec (.ctxMsgReceive c) s = .next t ∧ look [] (t.panel.crown c).arr 0 = rest ∧
        (t.panel.crown c).msgq = (s.panel.crown c).msgq ++
          [{ tag := x.hdr.mtag, sc := x.hdr.sc, sr := x.hdr.sr, sedge := x.hdr.sedge, part := x.hdr.part, payload := x.payload.1 }]) ∧
    (x.hdr.mkind ≠ 2 →
      ∃ t, exec (.ctxMsgReceive c) s = .next t ∧ look [] (t.panel.crown c).arr 0 = rest ∧
        (t.panel.crown c).msgq = (s.panel.crown c).msgq ∧
        (t.panel.crown c).rd Reg.CTX_MSG_REFUSE_CNT = min cntTop ((s.panel.crown c).rd Reg.CTX_MSG_REFUSE_CNT + 1))) ∧
  (∀ (s : State) (c : Crown) (j n : Nat) (e : CtxEntry), s.panel.engineOn c → s.panel.nextHeld = some (j, e) →
    s.panel.freeSlot = some n →
    ∃ t, exec (.swapIn c) s = .next t ∧ find t.panel.heldRecs j = none ∧ t.panel.whereIs e.handle = some (.slot n) ∧
      t.panel.ent n = { e with state := 3, slice := 0, swaps := min (2 ^ 32 - 1) (e.swaps + 1), swapped := true }) ∧
  (∀ (s : State) (c : Crown) (handle : W32) (n : Nat) (e : CtxEntry) (d : ModelDesc), s.panel.engineOn c →
    s.panel.ctxOf handle.toNat = some (.slot n, e) → s.panel.slotLeader n = c → e.state ≠ 0 → e.state ≠ 5 →
    s.panel.inStep e.handle = false → s.panel.readyDesc e.model = some d →
    (∀ q, s.panel.bringIn n e d = .ok q →
      ∃ t, exec (.pageIn c handle) s = .next t ∧ t.panel = q ∧ (t.panel.ent n).waiting = false ∧
        (t.panel.ent n).state = if e.state = 3 then (if e.pos < e.plen then 1 else 2) else e.state) ∧
    (s.panel.bringIn n e d = .error .pool →
      ∃ t, exec (.pageIn c handle) s = .next t ∧ t.panel.ent n = { e with waiting := true } ∧ t.panel.kv = s.panel.kv ∧
        (t.panel.crown c).rd Reg.CTX_KV_WAIT_CNT = min cntTop ((s.panel.crown c).rd Reg.CTX_KV_WAIT_CNT + 1)))

/-- STEP_START, STEP_COMPLETE, STEP_TIMEOUT and SAMPLE_ROW complete (R260–R264, R269): a batch filled in the order of R261 goes out as a new
step; a step whose cores have all reported DONE reads its result rows, or, without rows, leaves flight and is counted; the first run of
a step whose reports are missing after `steptmo` ms has failed and is to be run again; a row whose lists are in is sampled. -/
def Obligations.StepsComplete : Prop :=
  (∀ (s : State) (c : Crown) (m : Fin 16) (d : ModelDesc) (y : Nat × CtxEntry × Nat × BatchEnt) (ys : List (Nat × CtxEntry × Nat × BatchEnt))
    (q : Panel), s.panel.engineOn c → s.panel.readyDesc m = some d → (s.panel.model m).stopped = false → s.panel.fatal = false →
    s.panel.shedding = false → s.panel.ctxRole c ≠ 2 → s.panel.writingTo d = false →
    (∀ z ∈ (s.panel.crown c).steps, z.2.again = false) → (s.panel.inflight m).length < d.inflight →
    (∀ z ∈ d.cores, (s.panel.crown c).startsAt (s.panel.coreNumber z) < 4) →
    (let all := s.panel.candidates c m d
     let p := s.panel.noteStalls c all
     let ok := all.filter fun z => p.queueTakes z.2.1 (recordsOf z.2.2.1 z.2.1 z.2.2.2)
     let batch := fillBatch d y.2.2.1 p.roomWith ok [] []
     ok = y :: ys → batch ≠ [] → p.powerGate m d batch.length = .ok q →
     ∃ t x, exec (.stepStart c m) s = .next t ∧ find (t.panel.crown c).steps ((2 * (q.crown c).nextStep + c.num) % 2 ^ 32) = some x ∧
      x.model = m.val ∧ x.kind = y.2.2.1 ∧ x.batch = batch ∧ x.reported = [] ∧ x.sentAt = q.dial ∧
      (t.panel.crown c).nextStep = (q.crown c).nextStep + 1)) ∧
  (∀ (s : State) (c : Crown) (x : Step) (d : ModelDesc), s.panel.engineOn c → find (s.panel.crown c).takeReports.steps x.num = some x →
    x.again = false → x.reports ≠ 1 → x.failed = none → x.wfail = none → x.workers = [] → x.reading = false →
    (∀ r ∈ x.reported, r.2 = St.done) → (∀ n ∈ x.cores, x.reported.any (·.1 = n)) → (s.panel.model x.model).desc = some d →
    ((x.batch.map (·.rows)).sum ≠ 0 →
      ∃ t, exec (.stepComplete c x.num) s = .next t ∧
        find (t.panel.crown c).steps x.num = some { x with reading := true, asked := true }) ∧
    ((x.batch.map (·.rows)).sum = 0 →
      ∃ t, exec (.stepComplete c x.num) s = .next t ∧ find (t.panel.crown c).steps x.num = none ∧
        (t.panel.crown c).rd Reg.CTX_STEPS = ((s.panel.crown c).rd Reg.CTX_STEPS + 1) % 2 ^ 64)) ∧
  (∀ (s : State) (c : Crown) (x : Step) (n : Nat), s.panel.engineOn c → find (s.panel.crown c).takeReports.steps x.num = some x →
    x.again = false → x.reports ≠ 1 → x.second = false → n ∈ x.cores → x.reported.any (·.1 = n) = false →
    x.sentAt + bits ((s.panel.crown c).rd Reg.CTX_CFG) 23 16 * 1000000 ≤ s.panel.dial →
    ∃ t, exec (.stepTimeout c x.num) s = .next t ∧
      find (t.panel.crown c).steps x.num = some { x with again := true, failed := some St.timedOut } ∧
      (t.panel.crown c).rd Reg.CTX_STEP_FAIL_CNT = min cntTop ((s.panel.crown c).rd Reg.CTX_STEP_FAIL_CNT + 1)) ∧
  (∀ (s : State) (c : Crown) (x : Step) (d : ModelDesc) (b : BatchEnt) (w : Place) (e : CtxEntry), s.panel.engineOn c →
    find (s.panel.crown c).steps x.num = some x → (s.panel.model x.model).desc = some d → x.reading → x.again = false →
    x.failed = none →
    (let i := x.sampled.length
     let lists := (List.range d.nlist).map fun j => find x.lists (512 * i + j)
     let side := (s.panel.readSide e).2.1
     let place := s.panel.rowPlace x e b (i - b.row)
     (x.batch.find? fun b => decide (b.row ≤ i) && decide (i < b.row + b.rows)) = some b → (∀ l ∈ lists, l.isSome) →
     s.panel.ctxOf b.handle = some (w, e) → i + 1 < (x.batch.map (·.rows)).sum →
     ∃ t, exec (.sampleRow c x.num) s = .next t ∧
      (find (t.panel.crown c).steps x.num).map (·.sampled) =
        some (x.sampled ++ [sampleOf d.vocab e place.1 (s.panel.recentFor e side place.2) (lists.map fun l => l.getD [])])))


/-- MIRROR_ACK, DEADLINE_EXPIRE, CONTEXT_FREE, OUTPUT_PATH_TIMEOUT, CROWN_LOSS and FORECAST_POST complete (R252, R273, R275, R276, R279,
R282): the oldest commit of a context is posted when no standby answer is missing; a context past its deadline drains; a drained one
leaves its slot, pages and handle; one whose path has been down for `outtmo` ms drains with its final record counted as lost; a lost
crown stays lost, and both lost stop the panel; the forecast registers name the millisecond that they were written in. -/
def Obligations.ContextEndsComplete : Prop :=
  (∀ (s : State) (c : Crown) (handle : W32) (m : Commit) (rest : List Commit) (w : Place) (e : CtxEntry), s.panel.engineOn c →
    pluck (fun m => m.handle == handle.toNat) (s.panel.crown c).commits = some (m, rest) → m.standby = 0 →
    s.panel.ctxOf m.handle = some (w, e) →
    ∃ t, exec (.mirrorAck c handle) s = .next t ∧ (t.panel.crown c).commits = rest ∧
      (e.oqf = false → (s.panel.qset e.oq).on → (t.panel.qset e.oq).tdue = (s.panel.qset e.oq).tdue ++ m.recs)) ∧
  (∀ (s : State) (c : Crown) (handle : W32) (n : Nat) (e : CtxEntry), s.panel.engineOn c →
    s.panel.ctxOf handle.toNat = some (.slot n, e) → e.deadline ≠ 0 → e.deadline ≤ s.panel.dial → e.state ≠ 5 →
    s.panel.inStep e.handle = false →
    ∃ t, exec (.deadlineExpire c handle) s = .next t ∧
      t.panel.ent n = { e with state := 5, cancel := false, failing := none, waiting := false }) ∧
  (∀ (s : State) (c : Crown) (handle : W32) (n : Nat) (e : CtxEntry), s.panel.engineOn c →
    s.panel.ctxOf handle.toNat = some (.slot n, e) → e.state = 5 → s.panel.slotLeader n = c →
    (∀ m ∈ (s.panel.crown c).commits, m.handle ≠ e.handle) → s.panel.inStep e.handle = false →
    ∃ t, exec (.contextFree c handle) s = .next t ∧ t.panel.ent n = {} ∧ t.panel.whereIs e.handle = none ∧
      t.panel.kvOf e.handle = none) ∧
  (∀ (s : State) (c : Crown) (handle : W32) (n t0 : Nat) (e : CtxEntry), s.panel.engineOn c →
    s.panel.ctxOf handle.toNat = some (.slot n, e) → s.panel.pathDown e = some t0 →
    t0 + bits ((s.panel.crown c).rd Reg.CTX_CFG) 15 8 * 1000000 ≤ s.panel.dial → e.state ≠ 0 → e.state ≠ 5 →
    s.panel.inStep e.handle = false →
    ∃ t, exec (.outputPathTimeout c handle) s = .next t ∧ (t.panel.ent n).state = 5 ∧
      (let o := s.panel.slotLeader n
       (t.panel.crown o).rd Reg.CTX_OUT_LOST_CNT = min cntTop ((s.panel.crown o).rd Reg.CTX_OUT_LOST_CNT + 1))) ∧
  (∀ (s : State) (c : Crown), s.panel.live → (s.panel.crown c).lost = false →
    ∃ t, exec (.crownLoss c) s = .next t ∧ (t.panel.crown c).lost ∧ (t.panel.crown c).ctx = [] ∧
      (t.panel.crown c.other).lost = (s.panel.crown c.other).lost ∧ ((s.panel.crown c.other).lost → t.panel.fatal)) ∧
  (∀ (s : State) (c : Crown), s.panel.engineOn c →
    (let base := Reg.PWR_FCAST + 32 * c.num
     let now := s.panel.dial / 1000000 * 1000000
     s.panel.sh base + s.panel.sh (base + 4) * 2 ^ 32 < now →
     ∃ t, exec (.forecastPost c) s = .next t ∧ t.panel.sh base = now % 2 ^ 32 ∧ t.panel.sh (base + 4) = now / 2 ^ 32 % 2 ^ 32 ∧
      ∀ i, i < 5 → t.panel.sh (base + 8 + 4 * i) = s.panel.forecast c % 2 ^ 32))

/-- STEP_COMMAND, STEP_REPORT, MIRROR_UPDATE, TOKEN_RECORD_MESSAGE and FABRIC_RECORD_RESEND complete (R281, R337–R339): a follower takes a step
command of its own epoch as a step in flight, and ignores and counts one of another; a worker's report counts toward the manager's
step; a mirror update writes the words that its mask names; records of a fabric queue go to the panel's own token queue; a message
whose wait is over is sent again. -/
def Completion.GroupStepsComplete : Prop :=
  (∀ (s : State) (c : Crown) (m : CtxMsg) (p0 : Panel), s.panel.engineOn c → s.panel.fatal = false → s.panel.shedding = false →
    s.panel.nextMsg c (· == 0x4701) = some (m, p0) →
    (∀ d, leAt m.payload 8 2 = grpEpoch s.panel.grp → s.panel.ctxRole c = 2 →
      s.panel.readyDesc (leAt m.payload 10 1 % 16) = some d →
      ∃ t x, exec (.stepCommand c) s = .next t ∧ find (t.panel.crown c).steps (leAt m.payload 4 4) = some x ∧ x.reports = 1 ∧
        x.model = leAt m.payload 10 1 % 16 ∧ x.cores = d.cores.map s.panel.coreNumber ∧ x.sentAt = s.panel.dial) ∧
    (∀ d, leAt m.payload 8 2 ≠ grpEpoch s.panel.grp → s.panel.firstPort = some d →
      ∃ t, exec (.stepCommand c) s = .next t ∧ (t.panel.crown c).steps = (s.panel.crown c).steps ∧
        (t.panel.port d).rd Reg.PORT_STEP_STALE_CNT = min cntTop ((s.panel.port d).rd Reg.PORT_STEP_STALE_CNT + 1))) ∧
  (∀ (s : State) (c : Crown) (m : CtxMsg) (p0 : Panel) (x : Step), s.panel.engineOn c →
    s.panel.nextMsg c (· == 0x4702) = some (m, p0) → find (s.panel.crown c).steps (leAt m.payload 4 4) = some x →
    ∃ t y, exec (.stepReport c) s = .next t ∧ find (t.panel.crown c).steps (leAt m.payload 4 4) = some y ∧
      y.workers = x.workers.drop 1 ∧
      y.wfail = if St.taken (leAt m.payload 10 1) ≠ St.done ∧ x.wfail.isNone then some (St.taken (leAt m.payload 10 1)) else x.wfail) ∧
  (∀ (s : State) (c : Crown) (m : CtxMsg) (p0 : Panel) (n : Nat) (old : CtxEntry), s.panel.engineOn c →
    s.panel.nextMsg c (· == 0x4703) = some (m, p0) → s.panel.ctxOf (leAt m.payload 0 4) = some (.slot n, old) →
    (let idx := (List.range 16).filter fun i => (leAt m.payload 4 2).testBit i
     let new := ((List.range idx.length).zip idx).foldl (fun e x => CtxEntry.setWord e x.2 (leAt m.payload (8 + 8 * x.1) 8)) old
     new.state ≠ 0 → new.state ≠ 4 → ∃ t, exec (.mirrorUpdate c) s = .next t ∧ t.panel.ent n = new)) ∧
  (∀ (s : State) (c : Crown) (m : CtxMsg) (p0 : Panel), s.panel.engineOn c →
    s.panel.nextMsg c (fun t => 0x8000 ≤ t && t ≤ 0x8FFF) = some (m, p0) →
    (let q := m.tag - 0x8000
     let n := m.payload.length / 16
     (s.panel.qset q).on → n ≤ (s.panel.qset q).tcqRoom →
     ∃ t, exec (.tokenRecordMessage c) s = .next t ∧ (t.panel.crown c).msgq = (p0.crown c).msgq ∧
      (t.panel.qset q).tdue = (s.panel.qset q).tdue ++ (List.range n).map fun i => (m.payload.drop (16 * i)).take 16)) ∧
  (∀ (s : State) (c : Crown) (queue : Fin 4096) (key t0 : Nat) (q : FabQueue), s.panel.engineOn c →
    (s.panel.crown c).fab = [(key, q)] → key % 4096 = queue.val → q.resendAt = some t0 → t0 ≤ s.panel.dial →
    ∃ t, exec (.fabricRecordResend c queue) s = .next t ∧ (t.panel.crown c).fab = [(key, { q with resendAt := none })] ∧
      (t.panel.crown c).asked = (s.panel.crown c).asked ++ [((s.panel.crown c).nextSeq, .tokens key)])

/-- CTX_CFG_WRITE and CTX_SVC_BASE_WRITE complete (R248, R283): a legal value is held; one with role 3, with a zero time-out, that would change
the role while contexts exist, or that places the service region where it may not lie, is ignored and counted. -/
def Completion.ContextRegistersComplete : Prop :=
  (∀ (s : State) (who : Requester) (c : Crown) (v : W64), s.panel.granted who (.crown c) Reg.CTX_CFG →
    (let x := v.toNat % 2 ^ 32
     let same : Prop := bits x 31 30 = bits ((s.panel.crown c).rd Reg.CTX_CFG) 31 30 ∨ s.panel.anyCtx = false
     (bits x 31 30 ≠ 3 ∧ bits x 23 16 ≠ 0 ∧ bits x 15 8 ≠ 0 ∧ same →
       ∃ t, exec (.ctxCfgWrite who c v) s = .next t ∧ (t.panel.crown c).rd Reg.CTX_CFG = x &&& 0xC0FFFF00) ∧
     (¬ (bits x 31 30 ≠ 3 ∧ bits x 23 16 ≠ 0 ∧ bits x 15 8 ≠ 0 ∧ same) →
       ∃ t, exec (.ctxCfgWrite who c v) s = .next t ∧ (t.panel.crown c).rd Reg.CTX_CFG = (s.panel.crown c).rd Reg.CTX_CFG ∧
        (t.panel.crown c).rd Reg.CTX_CFG_IGN_CNT = min cntTop ((s.panel.crown c).rd Reg.CTX_CFG_IGN_CNT + 1)))) ∧
  (∀ (s : State) (who : Requester) (c : Crown) (v : W64), s.panel.granted who (.crown c) Reg.CTX_SVC_BASE →
    (let x := v.toNat % 2 ^ 56
     (∀ h off, s.panel.anyCtx = false → s.panel.decodeGA x = .ok (.hbm h off) → x.testBit 41 → x % 2 ^ 20 = 0 →
       off + 0x10000000 ≤ stackTop → (s.panel.hub h).serviceBands off →
       ∃ t, exec (.ctxSvcBaseWrite who c v) s = .next t ∧ (t.panel.crown c).rd Reg.CTX_SVC_BASE = x) ∧
     (s.panel.anyCtx ∨ x.testBit 41 = false →
       ∃ t, exec (.ctxSvcBaseWrite who c v) s = .next t ∧
        (t.panel.crown c).rd Reg.CTX_SVC_BASE = (s.panel.crown c).rd Reg.CTX_SVC_BASE ∧
        (t.panel.crown c).rd Reg.CTX_CFG_IGN_CNT = min cntTop ((s.panel.crown c).rd Reg.CTX_CFG_IGN_CNT + 1))))


/-! ### Hubs -/

/-- HUB_WRITE, HUB_READ_REQ and HUB_CMD_PTR complete (R289–R291, R296, R300): a permitted write stores its bytes and changes none outside
the codewords that they touch; a permitted read counts the codewords that it reads and changes no byte; a pointer is held with the
partition of its packet. -/
def Completion.HubRequestsComplete : Prop :=
  (∀ (s : State) (h : HubIx) (a : Fin 2) (x : Packet), s.panel.live → s.panel.hubHead h a = some x → x.hdr.opcode = Opc.write →
    bits x.hdr.ga 55 52 = 2 →
    (let k := s.panel.hub h
     let off := stackOff s.panel.fuses x.hdr.ga
     k.refuses off x.hdr true = none → k.overOpen off x.hdr.bytes = false → x.payload.1.length = x.hdr.bytes →
     ∃ t, exec (.hubWrite h a) s = .next t ∧ look [] (t.panel.hub h).arr (4 * a) = (look [] k.arr (4 * a)).tail ∧
      (∀ i, i < x.hdr.bytes → (t.panel.hub h).mem.byte (off + i) = x.payload.1.getD i 0) ∧
      ∀ b, b / 32 < off / 32 ∨ (off + x.hdr.bytes - 1) / 32 < b / 32 → (t.panel.hub h).mem.byte b = k.mem.byte b)) ∧
  (∀ (s : State) (h : HubIx) (a : Fin 2) (x : Packet), s.panel.live → s.panel.hubHead h a = some x → x.hdr.opcode = Opc.readReq →
    bits x.hdr.ga 55 52 = 2 →
    (let k := s.panel.hub h
     let off := stackOff s.panel.fuses x.hdr.ga
     k.refuses off x.hdr false = none →
     ∃ t, exec (.hubReadReq h a) s = .next t ∧ look [] (t.panel.hub h).arr (4 * a) = (look [] k.arr (4 * a)).tail ∧
      (t.panel.hub h).mem = k.mem ∧
      (t.panel.hub h).rd Reg.HUB_RD_BYTES = (k.rd Reg.HUB_RD_BYTES + 32 * cdiv (off % 32 + x.hdr.bytes) 32) % 2 ^ 64)) ∧
  (∀ (s : State) (h : HubIx) (a : Fin 2) (x : Packet), s.panel.hubHead h a = some x → x.hdr.opcode = Opc.write →
    bits x.hdr.ga 55 52 = 3 → bits x.hdr.ga 19 0 = Reg.HUB_CMD_PTR → x.hdr.fromCore → x.hdr.bytes = 8 → x.payload.2.1 = false →
    s.panel.granted (packetWho x.hdr) (.hub h) Reg.HUB_CMD_PTR → (s.panel.hub h).freeSlot = none → (s.panel.hub h).cmdq.length < 64 →
    ∃ t, exec (.hubCmdPtr h a) s = .next t ∧
      look [] (t.panel.hub h).arr (4 * a) = (look [] (s.panel.hub h).arr (4 * a)).tail ∧
      (t.panel.hub h).cmdq = (s.panel.hub h).cmdq ++ [(leNat x.payload.1 % 2 ^ 56, x.hdr.part, false)])

/-- HUB_WRITE_BACK, HUB_PATROL, HUB_TEMP_READ and HBM_REFRESH complete (R292, R298, R299): the oldest queued granule is rewritten and no
byte outside it changes; the patrol moves on by a granule; a reading enters HUB_TEMP and its maximum; a refresh changes nothing. -/
def Completion.HubCareCompletes : Prop :=
  (∀ (s : State) (h : HubIx) (g : Nat) (rest : List Nat), s.panel.live → (s.panel.hub h).wbq = g :: rest →
    (s.panel.hub h).lost = false → (s.panel.hub h).stack = 2 →
    ∃ t, exec (.hubWriteBack h) s = .next t ∧ (t.panel.hub h).wbq = rest ∧
      (∀ b, b < 256 * g ∨ 256 * g + 256 ≤ b → (t.panel.hub h).mem.byte b = (s.panel.hub h).mem.byte b) ∧
      ∀ i b, i < 8 → b < 32 → ((s.panel.hub h).peek (8 * g + i)).1 = .corrected →
        (t.panel.hub h).mem.byte (32 * (8 * g + i) + b) = ((s.panel.hub h).peek (8 * g + i)).2.data.getD b 0) ∧
  (∀ (s : State) (h : HubIx), s.panel.live → (s.panel.hub h).lost = false → (s.panel.hub h).stack = 2 →
    ((s.panel.hub h).rd Reg.HUB_SCRUB_CFG).testBit 31 → (s.panel.hub h).rd Reg.HUB_SCRUB_CFG % 65536 ≠ 0 →
    ∃ t, exec (.hubPatrol h) s = .next t ∧ (t.panel.hub h).mem = (s.panel.hub h).mem ∧
      (t.panel.hub h).patrol = if (s.panel.hub h).patrol + 1 < granules then (s.panel.hub h).patrol + 1 else 0) ∧
  (∀ (s : State) (h : HubIx) (celsius : Nat), s.panel.live → (s.panel.hub h).lost = false →
    ∃ t, exec (.hubTempRead h celsius) s = .next t ∧ (t.panel.hub h).temps.head? = some (min celsius 255) ∧
      (t.panel.hub h).rd Reg.HUB_TEMP =
        max (bits ((s.panel.hub h).rd Reg.HUB_TEMP) 15 8) (min celsius 255) * 256 + min celsius 255) ∧
  (∀ (s : State) (h : HubIx) (pc : Fin 64), exec (.hbmRefresh h pc) s = .next s)

/-- HUB_ERR_CLR, HUB_BAND_WRITE, HUB_HEARTBEAT, HUB_HEARTBEAT_LOSS, STACK_LOSS and LOST_STACK_MASK_WRITE complete (R295, R307–R309): a band of
kind 3 or with bit 5 set refuses the whole word; a hub that has been silent for 400 µs is lost with its stack; every lost stack is
in the mask that the decoders take. -/
def Completion.HubStateCommandsComplete : Prop :=
  (∀ (s : State) (who : Requester) (h : HubIx) (v : W64), s.panel.granted who (.hub h) Reg.HUB_ERR_CLR →
    ∃ t, exec (.hubErrClr who h v) s = .next t ∧
      (t.panel.hub h).rd Reg.HUB_ERR_ADDR = if v.getLsbD 0 then 0 else (s.panel.hub h).rd Reg.HUB_ERR_ADDR) ∧
  (∀ (s : State) (who : Requester) (h : HubIx) (q : Fin 192) (v : W64), s.panel.granted who (.hub h) (Reg.HUB_BAND + 4 * q) →
    (let x := v.toNat % 2 ^ 32
     let bad : Prop := ∃ i, i < 4 ∧ (bits x (8 * i + 7) (8 * i + 6) = 3 ∨ x.testBit (8 * i + 5))
     ∃ t, exec (.hubBandWrite who h q v) s = .next t ∧
      (¬ bad → (t.panel.hub h).rd (Reg.HUB_BAND + 4 * q) = x) ∧
      (bad → (t.panel.hub h).rd (Reg.HUB_BAND + 4 * q) = (s.panel.hub h).rd (Reg.HUB_BAND + 4 * q) ∧
        (t.panel.hub h).rd Reg.HUB_PART_REFUSE_CNT = min cntTop ((s.panel.hub h).rd Reg.HUB_PART_REFUSE_CNT + 1)))) ∧
  (∀ (s : State) (h : HubIx), s.panel.live → (s.panel.hub h).lost = false → (s.panel.hub h).hbSent + 100000 ≤ s.panel.dial →
    ∃ t, exec (.hubHeartbeat h) s = .next t ∧ (t.panel.hub h).hbSent = s.panel.dial ∧ (t.panel.hub h).hbHeard = s.panel.dial) ∧
  (∀ (s : State) (h : HubIx), s.panel.live → s.panel.fuses.hubPresent h → (s.panel.hub h).lost = false →
    (s.panel.hub h).hbHeard ≠ 0 → (s.panel.hub h).hbHeard + 400000 ≤ s.panel.dial →
    ∃ t, exec (.hubHeartbeatLoss h) s = .next t ∧ (t.panel.hub h).lost ∧ (t.panel.hub h).stack = 3) ∧
  (∀ (s : State) (h : HubIx) (cause : Fin 4), s.panel.live → s.panel.fuses.hubPresent h → (s.panel.hub h).lost = false →
    (s.panel.hub h).stack ≠ 3 →
    ∃ t, exec (.stackLoss h cause) s = .next t ∧ (t.panel.hub h).stack = 3 ∧ (t.panel.hub h).lost = false) ∧
  (∀ (s : State), s.panel.live →
    ∃ t, exec .lostStackMaskWrite s = .next t ∧ ∀ h, h < 24 →
      t.panel.lostStacks.testBit h = ((s.panel.hub h).lost || (s.panel.hub h).stack == 3))

/-- HUB_COPY, HUB_ZERO, HUB_DIGEST and HUB_SCRUB complete (R301, R302): the oldest command whose words have been read, which passes its
checks, works on its ranges in the hub's own stack: the destination takes the corrected data, zeros, or the SM3 digest; a scrub reads
every codeword of its range; the command has then ended. -/
def Completion.HubCommandsComplete : Prop :=
  ∀ (s : State) (h : HubIx) (slot : Nat) (c : HubCmd) (r : Ranges), s.panel.live → (s.panel.hub h).lost = false →
    (∀ x ∈ (s.panel.hub h).run, x.2.sent ∧ x.2.way ≠ 3) → (s.panel.hub h).nextCmd = some (slot, c) →
    s.panel.cmdCheck h c = .ok r →
    (let k := s.panel.hub h
     let n := c.length / 32
     let c' := { c with started := true }
     let done (t : State) : Prop := (find (t.panel.hub h).run slot).map (fun c => (c.started, c.ended)) = some (true, true)
     (∀ a o q, c.op = Hc.copy → r.src = some (a, o) → r.dst = some (h.val, q) → k.overOpen q c.length = false → c.way = 0 →
       ∃ t, exec (.hubCopy h) s = .next t ∧ done t ∧ ∀ i b, i < n → b < 32 →
        (t.panel.hub h).mem.byte (32 * (q / 32 + i) + b) = (k.peek (o / 32 + i)).2.data.getD b 0) ∧
     (∀ b q, c.op = Hc.zero → r.dst = some (b, q) → k.overOpen q c.length = false →
       ∃ t, exec (.hubZero h) s = .next t ∧ done t ∧ ∀ i, i < 32 * n → (t.panel.hub h).mem.byte (32 * (q / 32) + i) = 0) ∧
     (∀ a o q, c.op = Hc.digest → k.openSections < 16 → r.src = some (a, o) → r.dst = some (h.val, q) → k.overOpen q 32 = false →
       (let x := Hub.digestCws (c'.at s.panel h) (o / 32) n c' k
        St.ok x.2.1.status → ∃ t, exec (.hubDigest h) s = .next t ∧ done t ∧
          ∀ i, i < (sm3 x.1).length → (t.panel.hub h).mem.byte (q + i) = (sm3 x.1).getD i 0)) ∧
     (∀ a o, c.op = Hc.scrub → r.src = some (a, o) →
       ∃ t, exec (.hubScrub h) s = .next t ∧ done t ∧
        ∀ g ∈ (t.panel.hub h).wbq, g < o / 256 ∨ (o + c.length - 1) / 256 < g))

/-- HUB_CMD_COMPLETE and HUB_RING_CODEWORD complete (R303, R305): a command of which nothing is left has its word 7 written, and its place is
free and counted; a codeword on the ring is passed on, or stored in the stack that it is for. -/
def Completion.HubCommandsEnd : Prop :=
  (∀ (s : State) (h : HubIx) (slot : Fin 4) (c : HubCmd), s.panel.live → (s.panel.hub h).lost = false →
    find (s.panel.hub h).run slot = some c → c.ended → c.waits = 0 → c.notify = false → (s.panel.hub h).cmdq = [] →
    (c.word7 = 2 → ∃ t, exec (.hubCmdComplete h slot) s = .next t ∧ find (t.panel.hub h).run slot = none ∧
      (t.panel.hub h).mem = (s.panel.hub h).mem ∧
      (t.panel.hub h).rd Reg.HUB_CMD_CNT = min cntTop ((s.panel.hub h).rd Reg.HUB_CMD_CNT + 1)) ∧
    (∀ o, c.word7 = 0 → s.panel.decodeGA (c.ptr + 56) = .ok (.hbm h o) →
      (s.panel.hub h).refusal o 8 c.part c.crown true = none →
      ∃ t, exec (.hubCmdComplete h slot) s = .next t ∧ find (t.panel.hub h).run slot = none ∧
        ∀ i, i < 8 → (t.panel.hub h).mem.byte (o + i) = (leBytes 8 c.word7v).getD i 0)) ∧
  (∀ (s : State) (h : HubIx) (clockwise : Bool) (x : RingItem) (rest : List RingItem), s.panel.live → (s.panel.hub h).lost = false →
    (s.panel.hub h).ringIn clockwise = x :: rest → x.ack = false →
    (let next := if clockwise then (h.val + 1) % 24 else (h.val + 23) % 24
     (x.dst ≠ h.val → s.panel.fuses.hubPresent next → (s.panel.hub next).lost = false →
       ((s.panel.hub next).ringIn clockwise).length < 448 →
       ∃ t, exec (.hubRingCodeword h clockwise false) s = .next t ∧ (t.panel.hub h).ringIn clockwise = rest ∧
        (t.panel.hub next).ringIn clockwise = (s.panel.hub next).ringIn clockwise ++ [x]) ∧
     (x.dst = h.val → x.last = false → x.cw.data.length = 32 →
       ∃ t, exec (.hubRingCodeword h clockwise false) s = .next t ∧ (t.panel.hub h).ringIn clockwise = rest ∧
        ∀ b, b < 32 → (t.panel.hub h).mem.byte (32 * x.index + b) = x.cw.data.getD b 0))) ∧
  (∀ (s : State) (h : HubIx) (clockwise : Bool) (slot a o b q : Nat) (c : HubCmd), s.panel.live → (s.panel.hub h).lost = false →
    (s.panel.hub h).mover (if clockwise then 1 else 2) = some (slot, c) → s.panel.cmdRange c.src c.length = .ok (a, o) →
    s.panel.cmdRange c.dst c.length = .ok (b, q) →
    (let next := if clockwise then (h.val + 1) % 24 else (h.val + 23) % 24
     s.panel.fuses.hubPresent next → (s.panel.hub next).lost = false → ((s.panel.hub next).ringIn clockwise).length < 448 →
     ∃ t x, exec (.hubRingCodeword h clockwise true) s = .next t ∧
      (t.panel.hub next).ringIn clockwise = (s.panel.hub next).ringIn clockwise ++ [x] ∧ x.dst = b ∧
      x.index = q / 32 + c.next ∧ x.cw.data = ((s.panel.hub h).peek (o / 32 + c.next)).2.data ∧
      (find (t.panel.hub h).run slot).map (·.next) = some (c.next + 1)))


/-! ### Fabric ports -/

/-- PORT_DOWN, PORT_RETRAIN, INIT_SEND and INIT complete (R312, R319): a port goes down counted; a trained one is up in Ethernet mode and
trains in native mode; INIT is sent until one has come, and the port is up once both have passed; grants and the partner's device number
come from the INIT received. -/
def Completion.PortLinksComplete : Prop :=
  ∀ (s : State) (d : PortIx) (q : Fin 2), s.panel.live → s.panel.portHere d q →
    (let f := s.panel.fport d q
     (∀ cause : Fin 4, 2 ≤ f.state →
       ∃ t, exec (.portDown d q cause) s = .next t ∧ (t.panel.fport d q).state = 1 ∧ (t.panel.fport d q).downAt = s.panel.dial ∧
        (t.panel.port d).rd (perPort Reg.PORT_DOWN_CNT q) = min cntTop ((s.panel.port d).rd (perPort Reg.PORT_DOWN_CNT q) + 1)) ∧
     (s.panel.pen d q → f.state = 1 → s.panel.powered (attSite (portAtt d q)) → f.downAt + 1000000000 ≤ s.panel.dial →
       (∃ t, exec (.portRetrain d q true) s = .next t ∧
        (t.panel.fport d q).state = if (s.panel.pcfg d q).testBit 30 then 3 else 2) ∧
       ∃ t, exec (.portRetrain d q false) s = .next t ∧ t.panel.fport d q = { f with downAt := s.panel.dial }) ∧
     (f.state = 2 → f.initSent = false →
       ∃ t, exec (.initSend d q) s = .next t ∧ (t.panel.fport d q).initSent ∧
        t.panel.out = .frame (2 * d + q) (initFrame ((s.panel.devnum d).getD 0) f) :: s.panel.out ∧
        (t.panel.fport d q).state = if f.initGot then 3 else 2) ∧
     (∀ frame : List Byte, f.state = 2 → f.mode ≠ 1 → frameOk frame 4 32 → leAt frame 8 2 = 1 → 19 ≤ leAt frame 12 2 →
       19 ≤ leAt frame 14 2 →
       ∃ t, exec (.init d q frame) s = .next t ∧ (t.panel.fport d q).initGot ∧
        (t.panel.fport d q).partner = leAt frame 10 2 % 4096 ∧ look 0 (t.panel.fport d q).grant 0 = leAt frame 12 2 ∧
        look 0 (t.panel.fport d q).grant 1 = leAt frame 14 2 ∧
        (t.panel.fport d q).state = if f.initSent then 3 else 2))

/-- CTRL, CTRL_SEND, DATA and REPLAY_TIMEOUT complete (R318, R320, R321): a good CTRL frame gives back credits; one goes out a
microsecond after the last; the DATA frame of the expected number advances it, one out of sequence or with a bad CRC is
discarded with a NAK; a replay time-out sends again, counted, and the eighth in a row takes the port down. -/
def Completion.PortFramesComplete : Prop :=
  ∀ (s : State) (d : PortIx) (q : Fin 2), s.panel.live → s.panel.portHere d q → (s.panel.fport d q).state = 3 →
    (let f := s.panel.fport d q
     (∀ frame : List Byte, f.mode ≠ 1 → frameOk frame 2 32 → (leAt frame 8 1).testBit 0 = false →
       ∃ t, exec (.ctrl d q frame) s = .next t ∧ look 0 (t.panel.fport d q).returned 0 = leAt frame 12 2 ∧
        look 0 (t.panel.fport d q).returned 1 = leAt frame 14 2 ∧
        (t.panel.port d).rd (perPort Reg.PORT_RX_BYTES q) = ((s.panel.port d).rd (perPort Reg.PORT_RX_BYTES q) + 32) % 2 ^ 64) ∧
     (f.mode = 0 → f.ctrlAt + 1000 ≤ s.panel.dial →
       ∃ t, exec (.ctrlSend d q) s = .next t ∧ (t.panel.fport d q).ctrlAt = s.panel.dial ∧
        OutRec.frame (2 * d + q) (ctrlFrame f none) ∈ t.panel.out) ∧
     (∀ frame : List Byte, f.mode ≠ 1 → frameOk frame 1 (dataLen (rxAt frame 8).pkt) →
       (leAt frame 1 2 % 4096 = f.rxSeq →
         ∃ t, exec (.data d q frame) s = .next t ∧ (t.panel.fport d q).rxSeq = (f.rxSeq + 1) % 4096 ∧ (t.panel.fport d q).rxAny) ∧
       (leAt frame 1 2 % 4096 ≠ f.rxSeq → f.nak = none →
         ∃ t, exec (.data d q frame) s = .next t ∧ (t.panel.fport d q).rxSeq = f.rxSeq ∧
          (t.panel.fport d q).nak = some (f.rxSeq, s.panel.dial))) ∧
     (∀ frame : List Byte, f.mode ≠ 1 → crcGood frame = false →
       ∃ t, exec (.data d q frame) s = .next t ∧ (t.panel.fport d q).rxSeq = f.rxSeq ∧
        (t.panel.port d).rd (perPort Reg.PORT_CRC_ERR_CNT q) =
          min cntTop ((s.panel.port d).rd (perPort Reg.PORT_CRC_ERR_CNT q) + 1)) ∧
     (f.replay ≠ [] → f.ackAt + 20000 ≤ s.panel.dial →
       ∃ t, exec (.replayTimeout d q) s = .next t ∧
        (t.panel.port d).rd (perPort Reg.PORT_REPLAY_CNT q) = min cntTop ((s.panel.port d).rd (perPort Reg.PORT_REPLAY_CNT q) + 1) ∧
        (f.goBacks < 7 → (t.panel.fport d q).goBacks = f.goBacks + 1 ∧ (t.panel.fport d q).state = 3) ∧
        (7 ≤ f.goBacks → (t.panel.fport d q).state = 1)))

/-- ETHERNET_FRAME, PFC_FRAME, PFC_PAUSE_EXPIRE, PFC_REPEAT, ETH_REQUEST_TIMEOUT, BEACON, BEACON_SEND, SEEN_MASK and UP_MASK_COPY complete (R314,
R326–R328, R340, R341): a frame that passes R326 enters the receive buffer of its VC; a pause lasts its quanta of 512 bit times at
1.6 Tb/s, and its microseconds are counted; a request unanswered for its time-out frees its entry; a beacon of the own group is seen;
beacons go out on every up port; the seen mask starts anew each interval; the decoders take the up mask. -/
def Completion.PortEventsComplete : Prop :=
  (∀ (s : State) (d : PortIx) (q : Fin 2), s.panel.live → s.panel.portHere d q → (s.panel.fport d q).state = 3 →
    (let f := s.panel.fport d q
     let g := (s.panel.port d).rd Reg.PORT_GRP
     (∀ frame : List Byte, f.mode = 1 → 64 ≤ frame.length → crcGood frame → frame.take 6 = s.panel.ownMac d q →
       beAt frame 12 = 0x8100 → beAt frame 16 = 0x88B5 → bits (leAt frame 18 8) 31 29 = 0 →
       (let x := rxAt frame 18
        let v := x.pkt.hdr.vc % 2
        ∃ t p, exec (.ethernetFrame d q frame) s = .next t ∧ (p.fport d q).rxq v = f.rxq v ++ [x] ∧
          t.panel = Panel.portPump (Panel.pfcCheck p d q v) d q)) ∧
     (∀ frame : List Byte, f.mode = 1 → crcGood frame → beAt frame 12 = 0x8808 → beAt frame 14 = 0x0101 →
       (let pcp := s.panel.pcp d q 0
        let quanta := beAt frame (18 + 2 * pcp)
        (beAt frame 16).testBit pcp → quanta ≠ 0 →
        ∃ t, exec (.pfcFrame d q frame) s = .next t ∧
          find (t.panel.fport d q).paused 0 = some (s.panel.dial, s.panel.dial + (quanta * 8 + 24) / 25))) ∧
     (∀ (frame : List Byte) (i : Nat), f.mode ≠ 1 → frameOk frame 3 52 → grpValid g →
       leAt ((frame.drop 16).take 32) 0 2 = grpGid g → leAt ((frame.drop 16).take 32) 6 1 % 64 = i →
       ∃ t, exec (.beacon d q frame) s = .next t ∧ (t.panel.port d).seen.testBit i ∧
        find (t.panel.port d).health i = some (s.panel.dial, leAt ((frame.drop 16).take 32) 5 1)))) ∧
  (∀ (s : State) (d : PortIx) (q : Fin 2) (vc : Fin 2) (since till : Nat), s.panel.live → s.panel.portHere d q →
    find (s.panel.fport d q).paused vc = some (since, till) → till ≤ s.panel.dial →
    ∃ t, exec (.pfcPauseExpire d q vc) s = .next t ∧ find (t.panel.fport d q).paused vc = none ∧
      (t.panel.port d).rd (perPort Reg.PORT_PFC_RX_US q) =
        min cntTop ((s.panel.port d).rd (perPort Reg.PORT_PFC_RX_US q) + (till - since) / 1000)) ∧
  (∀ (s : State) (d : PortIx) (q : Fin 2) (vc : Fin 2) (t0 : Nat), s.panel.live → s.panel.portHere d q →
    find (s.panel.fport d q).pausing vc = some t0 → (s.panel.fport d q).state = 3 → t0 + 10000 ≤ s.panel.dial →
    (s.panel.fport d q).free vc < bits ((s.panel.port d).rd (perPort Reg.PORT_PFC q)) 31 16 * 1024 →
    ∃ t, exec (.pfcRepeat d q vc) s = .next t ∧ find (t.panel.fport d q).pausing vc = some s.panel.dial ∧
      (t.panel.port d).rd (perPort Reg.PORT_PFC_TX_CNT q) =
        min cntTop ((s.panel.port d).rd (perPort Reg.PORT_PFC_TX_CNT q) + 1)) ∧
  (∀ (s : State) (d : PortIx) (q : Fin 2) (entry : Fin 4096) (k : OutTrk), s.panel.live → s.panel.portHere d q →
    find (s.panel.fport d q).out entry = some k → (s.panel.fport d q).mode = 1 →
    k.since + bits (s.panel.pcfg d q) 7 0 * 1000 ≤ s.panel.dial →
    ∃ t, exec (.ethRequestTimeout d q entry) s = .next t ∧ find (t.panel.fport d q).out entry = none ∧
      (t.panel.port d).rd (perPort Reg.PORT_ETH_TMO_CNT q) =
        min cntTop ((s.panel.port d).rd (perPort Reg.PORT_ETH_TMO_CNT q) + 1)) ∧
  (∀ (s : State) (d : PortIx), s.panel.live → (s.panel.port d).lost = false → grpValid ((s.panel.port d).rd Reg.PORT_GRP) →
    (s.panel.port d).bcnAt + 100000 ≤ s.panel.dial →
    ∃ t, exec (.beaconSend d) s = .next t ∧ (t.panel.port d).bcnAt = s.panel.dial ∧
      t.panel.out.length = s.panel.out.length +
        ([0, 1].filter fun q => s.panel.portHere d q && (s.panel.fport d q).state == 3).length * s.panel.beaconTo.length) ∧
  (∀ (s : State) (d : PortIx), s.panel.live → (s.panel.port d).lost = false → s.panel.fuses.diePresent d →
    grpValid ((s.panel.port d).rd Reg.PORT_GRP) → (s.panel.port d).seenIv < s.panel.dial / 100000 →
    ∃ t, exec (.seenMask d) s = .next t ∧ (t.panel.port d).seen = 0 ∧ (t.panel.port d).seenIv = s.panel.dial / 100000) ∧
  (∀ (s : State), s.panel.live → ∃ t, exec .upMaskCopy s = .next t ∧ t.panel.upMask = s.panel.portsUp ∧
    ∀ d g, s.panel.firstPort = some d → g < 64 → look 0 t.panel.devrt g = (s.panel.port d).rd (Reg.PORT_DEVRT + 4 * g))

/-- REMOTE_REQUEST and REMOTE_ANSWER complete (R313, R331, R332): a request takes a free entry of the outgoing tracker, or is refused and
counted without a device number or while the port is down; a translated request's answer frees its entry, and one that matches none is
counted. -/
def Completion.RemotePacketsComplete : Prop :=
  ∀ (s : State) (d : PortIx) (q : Fin 2) (x : Packet) (rest : List Packet), s.panel.live → s.panel.portHere d q →
    (let f := s.panel.fport d q
     let k := s.panel.port d
     (look [] k.arr (4 * q) = x :: rest →
       (∀ dev, s.panel.devnum d = some dev → f.state = 3 → f.rxq 1 = [] → (f.txq 0).length < txTop →
         (∃ i, i < 4096 ∧ find f.out i = none) →
         ∃ t i, exec (.remoteRequest d q) s = .next t ∧ look [] (t.panel.port d).arr (4 * q) = rest ∧ i < 4096 ∧ find f.out i = none ∧
          find (t.panel.fport d q).out i = some { hdr := x.hdr, since := s.panel.dial }) ∧
       (s.panel.devnum d = none →
         ∃ t, exec (.remoteRequest d q) s = .next t ∧ look [] (t.panel.port d).arr (4 * q) = rest ∧
          (t.panel.port d).rd Reg.PORT_DEV_REFUSE_CNT = min cntTop (k.rd Reg.PORT_DEV_REFUSE_CNT + 1)) ∧
       (∀ dev, s.panel.devnum d = some dev → f.state ≠ 3 →
         ∃ t, exec (.remoteRequest d q) s = .next t ∧ look [] (t.panel.port d).arr (4 * q) = rest ∧
          (t.panel.port d).rd (perPort Reg.PORT_DOWN_ANS_CNT q) = min cntTop (k.rd (perPort Reg.PORT_DOWN_ANS_CNT q) + 1))) ∧
     (look [] k.arr (4 * q + 1) = x :: rest → (f.txq 1).length < txTop → x.hdr.seq ∉ k.own →
       (∀ y, find f.inc x.hdr.seq = some y → f.rxq 0 = [] →
         ∃ t, exec (.remoteAnswer d q) s = .next t ∧ look [] (t.panel.port d).arr (4 * q + 1) = rest ∧
          find (t.panel.fport d q).inc x.hdr.seq = none) ∧
       (find f.inc x.hdr.seq = none →
         ∃ t, exec (.remoteAnswer d q) s = .next t ∧ look [] (t.panel.port d).arr (4 * q + 1) = rest ∧
          (t.panel.port d).rd Reg.PORT_LATE_ANS_CNT = min cntTop (k.rd Reg.PORT_LATE_ANS_CNT + 1))))

/-- PORT_CFG_WRITE, PORT_PFC_WRITE, PORT_DEVNUM_WRITE, PORT_DEVBLK and PORT_DEVUNBLK complete (R313, R348): legal values are held, illegal
ones ignored and counted; PORT_DEVBLK sets the bits written 1 and PORT_DEVUNBLK clears them. -/
def Completion.PortRegistersComplete : Prop :=
  (∀ (s : State) (who : Requester) (d : PortIx) (q : Fin 2) (v : W64), s.panel.granted who (.port d) (perPort Reg.PORT_CFG q) →
    (let x := v.toNat % 2 ^ 32
     let old := s.panel.pcfg d q
     let bad : Prop := (old.testBit 31 ∧ bits x 30 28 ≠ bits old 30 28) ∨ bits x 29 28 = 3 ∨ bits x 27 25 = bits x 24 22 ∨
       bits x 21 10 = 0 ∨ bits x 21 10 = 4095 ∨ bits x 7 0 = 0
     ∃ t, exec (.portCfgWrite who d q v) s = .next t ∧ (¬ bad → t.panel.pcfg d q = x &&& 0xFFFFFCFF) ∧
      (bad → t.panel.pcfg d q = old ∧
        (t.panel.port d).rd Reg.PORT_CFG_IGN_CNT = min cntTop ((s.panel.port d).rd Reg.PORT_CFG_IGN_CNT + 1)))) ∧
  (∀ (s : State) (who : Requester) (d : PortIx) (q : Fin 2) (v : W64), s.panel.granted who (.port d) (perPort Reg.PORT_PFC q) →
    (let x := v.toNat % 2 ^ 32
     let bad : Prop := bits x 31 16 ≤ bits x 15 0 ∨ 3226 < bits x 31 16
     ∃ t, exec (.portPfcWrite who d q v) s = .next t ∧ (¬ bad → (t.panel.port d).rd (perPort Reg.PORT_PFC q) = x) ∧
      (bad → (t.panel.port d).rd (perPort Reg.PORT_PFC q) = (s.panel.port d).rd (perPort Reg.PORT_PFC q) ∧
        (t.panel.port d).rd Reg.PORT_CFG_IGN_CNT = min cntTop ((s.panel.port d).rd Reg.PORT_CFG_IGN_CNT + 1)))) ∧
  (∀ (s : State) (who : Requester) (d : PortIx) (v : W64), s.panel.granted who (.port d) Reg.PORT_DEVNUM →
    (s.panel.fport d 0).state ≠ 3 → (s.panel.fport d 1).state ≠ 3 →
    ∃ t, exec (.portDevnumWrite who d v) s = .next t ∧ (t.panel.port d).rd Reg.PORT_DEVNUM = v.toNat &&& 0x80000FFF) ∧
  (∀ (s : State) (who : Requester) (d : PortIx) (k : Fin 128) (v : W64),
    s.panel.granted who (.port d) (Reg.PORT_DEVBLK + 4 * k) →
    ∃ t, exec (.portDevblk who d k v) s = .next t ∧ ∀ i, i < 32 →
      ((t.panel.port d).rd (Reg.PORT_DEVBLK + 4 * k)).testBit i =
        (((s.panel.port d).rd (Reg.PORT_DEVBLK + 4 * k)).testBit i || v.getLsbD i)) ∧
  (∀ (s : State) (who : Requester) (d : PortIx) (k : Fin 128) (v : W64),
    s.panel.granted who (.port d) (Reg.PORT_DEVUNBLK + 4 * k) →
    ∃ t, exec (.portDevunblk who d k v) s = .next t ∧ ∀ i, i < 32 →
      ((t.panel.port d).rd (Reg.PORT_DEVBLK + 4 * k)).testBit i =
        (((s.panel.port d).rd (Reg.PORT_DEVBLK + 4 * k)).testBit i && !v.getLsbD i))


/-! ### Groups of panels -/

/-- SEEN_MASK_RECEIVE, SUSPECT_DECISION, EXPULSION_LIMIT_END, MANAGER_TAKEOVER, GROUP_MESSAGE_RESEND and GOODPUT_TICK complete (R341–R346): masks of an
interval are or-ed, and the last one closes it, when each member's misses are counted; a suspect that is back is active again, else it
is expelled when an active spare is there, and else fenced; the takeover raises the epoch and makes the standby the manager; a group
message is sent again; the goodput counter counts a millisecond once. -/
def Obligations.GroupDecisionsComplete : Prop :=
  ∀ (s : State) (c : Crown) (d : Nat), s.panel.engineOn c → s.panel.firstPort = some d →
    (let p := s.panel
     let k := p.crown c
     (∀ (m : CtxMsg) (p0 : Panel), p.nextMsg c (· == 0x4710) = some (m, p0) → leAt m.payload 8 4 = k.seenIv →
       (let from' := insertNat k.seenFrom (100 * siteOf m.sc m.sr + m.sedge)
        let mask := k.seenMask ||| leAt m.payload 0 8
        (from'.length < p.liveDies →
          ∃ t, exec (.seenMaskReceive c) s = .next t ∧ (t.panel.crown c).seenMask = mask ∧ (t.panel.crown c).seenFrom = from') ∧
        (p.liveDies ≤ from'.length →
          ∃ t, exec (.seenMaskReceive c) s = .next t ∧ (t.panel.crown c).seenMask = 0 ∧ (t.panel.crown c).seenFrom = [] ∧
            ∀ i, i < 64 → p.viewed i → membMiss (t.panel.memb i) = if mask.testBit i then 0 else min 255 (look 0 k.miss i + 1)))) ∧
     (∀ i : Fin 64, grpRole p.grp = 1 → membValid (p.memb i) → membState (p.memb i) = 1 →
       (∀ at' h, p.lastBeacon i = some (at', h) → h.testBit 0 → h.testBit 3 = false → membMiss (p.memb i) = 0 →
         ∃ t, exec (.suspectDecision c i) s = .next t ∧ membState (t.panel.memb i) = 0) ∧
       (p.beaconFatal i → membRole (p.memb i) = 4 →
         ∃ t, exec (.suspectDecision c i) s = .next t ∧ membState (t.panel.memb i) = 3) ∧
       (p.beaconFatal i → membRole (p.memb i) ≠ 4 → p.activeSpare = none →
         ∃ t, exec (.suspectDecision c i) s = .next t ∧ membState (t.panel.memb i) = 2) ∧
       (∀ sp, p.beaconFatal i → membRole (p.memb i) ≠ 4 → p.activeSpare = some sp → grpQuorum p.grp ≤ p.membersLeft - 1 →
         p.recentExp = false →
         ∃ t, exec (.suspectDecision c i) s = .next t ∧ membDev (t.panel.memb i) = membDev (p.memb sp) ∧
           membState (t.panel.memb i) = 0 ∧ t.panel.memb sp = 0 ∧ grpEpoch t.panel.grp = (grpEpoch p.grp + 1) % 65536)) ∧
     (∀ i : Nat, i < 64 → grpRole p.grp = 1 → p.recentExp = false → p.limited = [i] →
       (p.absentMember i = false →
         ∃ t, exec (.expulsionLimitEnd c) s = .next t ∧ t.panel.limited = [] ∧ t.panel.memb i = p.memb i) ∧
       (∀ sp, p.beaconFatal i → membRole (p.memb i) ≠ 4 → p.activeSpare = some sp → sp ≠ i →
         grpQuorum p.grp ≤ p.membersLeft - 1 →
         ∃ t, exec (.expulsionLimitEnd c) s = .next t ∧ t.panel.limited = [] ∧
           membDev (t.panel.memb i) = membDev (p.memb sp))) ∧
     (∀ own i : Nat, p.ownIndex = some own → i ≠ own → grpRole p.grp = 2 →
       ((List.range 64).find? fun i => membValid (p.memb i) && membRole (p.memb i) == 1) = some i → membState (p.memb i) = 1 →
       ∃ t, exec (.managerTakeover c) s = .next t ∧ grpRole t.panel.grp = 1 ∧ grpEpoch t.panel.grp = (grpEpoch p.grp + 1) % 65536 ∧
         membRole (t.panel.memb own) = 1 ∧ membRole (t.panel.memb i) = 3) ∧
     (∀ g t0, k.group = [g] → g.resendAt = some t0 → t0 ≤ p.dial →
       ∃ t, exec (.groupMessageResend c) s = .next t ∧ (t.panel.crown c).group = [{ g with resendAt := none }] ∧
         (t.panel.crown c).asked = k.asked ++ [(k.nextSeq, .group g.id)]) ∧
     (p.ctxRole c ≠ 2 → p.maint = false → p.goodputAt < p.dial / 1000000 →
       ∃ t, exec (.goodputTick c) s = .next t ∧ t.panel.goodputAt = p.dial / 1000000 ∧
         (t.panel.port d).rd Reg.PORT_GP_TOTAL = ((p.port d).rd Reg.PORT_GP_TOTAL + 1) % 2 ^ 64 ∧
         (p.uselessMs = false → (t.panel.port d).rd Reg.PORT_GP_USEFUL = ((p.port d).rd Reg.PORT_GP_USEFUL + 1) % 2 ^ 64)))

/-- GROUP_FENCE, GROUP_UNFENCE, GROUP_EXPEL, GROUP_ADOPT, GROUP_TAKEOVER and GROUP_READY complete on a control message of the group's own epoch (R336, R344,
R345): the member that it names is fenced, or active again; the expelled device is blocked; the spare's device takes the index; the
sender is the one manager; the models that waited for the spare go on. -/
def Completion.GroupControlCompletes : Prop :=
  ∀ (s : State) (c : Crown) (d : Nat) (m : CtxMsg) (p0 : Panel), s.panel.engineOn c → s.panel.firstPort = some d →
    s.panel.nextMsg c (· == 0x4705) = some (m, p0) → leAt m.payload 2 2 = grpEpoch s.panel.grp →
    (let i := leAt m.payload 1 1 % 64
     let dev := leAt m.payload 4 2 % 4096
     (leAt m.payload 0 1 = 1 → ∃ t, exec (.groupFence c) s = .next t ∧ membState (t.panel.memb i) = 2) ∧
     (leAt m.payload 0 1 = 2 → ∃ t, exec (.groupUnfence c) s = .next t ∧ membState (t.panel.memb i) = 0) ∧
     (leAt m.payload 0 1 = 3 → ∃ t, exec (.groupExpel c) s = .next t ∧
       ((t.panel.port d).rd (Reg.PORT_DEVBLK + 4 * (dev / 32))).testBit (dev % 32)) ∧
     (leAt m.payload 0 1 = 4 → ∃ t, exec (.groupAdopt c) s = .next t ∧ membDev (t.panel.memb i) = dev ∧
       membState (t.panel.memb i) = 0) ∧
     (leAt m.payload 0 1 = 5 → ∃ t, exec (.groupTakeover c) s = .next t ∧ membRole (t.panel.memb i) = 1 ∧
       ∀ j, j < 64 → j ≠ i → membValid (t.panel.memb j) → membRole (t.panel.memb j) ≠ 1) ∧
     (leAt m.payload 0 1 = 6 → ∃ t, exec (.groupReady c) s = .next t ∧ find t.panel.awaited i = none ∧
       (∀ x, s.panel.awaited = [(i, x)] → ∀ n, (t.panel.model n).stopped = false)))

/-! ### The host port -/

/-- Doorbells and queue sets complete (R355–R359): a write of HOST_QCTL by the set's function enables it, its indexes zero, or disables it, and
it is busy until QUEUE_DISABLE_DONE; a doorbell of an enabled set moves its index, or waits behind its function's BAR4 writes;
DOORBELL_RELEASE lets the oldest go; a doorbell of another function is refused and counted. -/
def Completion.QueueSetsComplete : Prop :=
  ∀ (s : State) (fn : HostFn) (q : QSet) (value : W64), s.panel.live →
    (let p := s.panel
     let k := p.qset q
     let v := value.toNat % 2 ^ 32
     (p.qOwner q = some fn.val → k.on = false → k.busy = false → v.testBit 31 →
       ∃ t, exec (.queueSetEnable fn q value) s = .next t ∧ (t.panel.qset q).on ∧ (t.panel.qset q).gen = k.gen + 1 ∧
         (t.panel.qset q).sqh = 0 ∧ (t.panel.qset q).rcqt = 0 ∧ (t.panel.qset q).tcqt = 0) ∧
     (p.qOwner q = some fn.val → k.on → v.testBit 31 = false →
       ∃ t, exec (.queueSetDisable fn q value) s = .next t ∧ (t.panel.qset q).on = false ∧ (t.panel.qset q).busy ∧
         (t.panel.qset q).due = [] ∧ (t.panel.qset q).tdue = []) ∧
     (∃ t, exec (.queueDisableDone q) s = .next t ∧ t.panel.qset q = { k with busy := false }) ∧
     (p.qOwner q = some fn.val → (p.fn fn).writes = [] → (p.fn fn).bells = [] → k.on →
       (v < k.sqSize → ∃ t, exec (.sqTailDoorbell fn q value) s = .next t ∧ t.panel.qset q = { k with sqTail := v }) ∧
       (v < k.rcqSize → ∃ t, exec (.rcqHeadDoorbell fn q value) s = .next t ∧ t.panel.qset q = { k with rcqHead := v }) ∧
       (v < k.tcqSize → ∃ t, exec (.tcqHeadDoorbell fn q value) s = .next t ∧ t.panel.qset q = { k with tcqHead := v }) ∧
       (k.sqSize ≤ v → ∃ t, exec (.sqTailDoorbell fn q value) s = .next t ∧
         t.panel.qset q = { k with sqTail := k.sqSize - 1 } ∧
         (t.panel.crown .north).rd (Reg.HOST_CLAMP_CNT + 4 * q) =
           min cntTop ((p.crown .north).rd (Reg.HOST_CLAMP_CNT + 4 * q) + 1))) ∧
     (∀ w, p.qOwner q = some fn.val → (p.fn fn).writes.getLast? = some w →
       ∃ t, exec (.sqTailDoorbell fn q value) s = .next t ∧ t.panel.qset q = k ∧
         (t.panel.fn fn).bells = (p.fn fn).bells ++ [{ after := w.1, which := 0, set := q, value := v }]) ∧
     (∀ b rest, (p.fn fn).bells = b :: rest → (∀ w ∈ (p.fn fn).writes, b.after < w.1) →
       ∃ t, exec (.doorbellRelease fn) s = .next t ∧ (t.panel.fn fn).bells = rest ∧
         (b.which = 0 → (p.qset b.set).on → b.value < (p.qset b.set).sqSize → (t.panel.qset b.set).sqTail = b.value)) ∧
     (p.qOwner q ≠ some fn.val →
       ∃ t, exec (.sqTailDoorbell fn q value) s = .next t ∧ t.panel.qset q = k ∧
         (t.panel.crown .north).rd Reg.HOST_PROT_CNT = min cntTop ((p.crown .north).rd Reg.HOST_PROT_CNT + 1)))

/-- SQ_FETCH, HOST_NOP, REQUEST_COMPLETION_WRITE and INTERRUPT_DELAY_EXPIRE complete (R360, R366, R367): requests are fetched from the head in order as
far as there is room for their completions; more entries than 32 are none that the hardware fetches; a NOP completes with DONE; the
oldest completion, or token record, is written at its ring's tail, which advances; the interrupt of records that waited covers all. -/
def Completion.HostQueuesComplete : Prop :=
  (∀ (s : State) (q : QSet) (entries : List (BitVec 512)), entries.length ≤ 32 → s.panel.live → (s.panel.qset q).on → s.panel.hostUp →
    (let k := s.panel.qset q
     let room := k.rcqSize - 1 - (k.rcqt + k.rcqSize - k.rcqHead) % k.rcqSize - k.fetched - k.due.length
     let n := min (min ((k.sqTail + k.sqSize - k.sqh) % k.sqSize) (k.sqSize - k.sqh)) (min room entries.length)
     n ≠ 0 →
     ∃ t, exec (.sqFetch q entries) s = .next t ∧ (t.panel.qset q).sqh = (k.sqh + n) % k.sqSize ∧
       (t.panel.qset q).fetched = k.fetched + n ∧
       (t.panel.crown .north).reqs = (s.panel.crown .north).reqs ++ (entries.take n).map fun e =>
         { src := .set q k.gen ((s.panel.qOwner q).getD 0), part := s.panel.fnPart ((s.panel.qOwner q).getD 0)
           bytes := (s.panel.clampReq (leBytes 64 e.toNat)).1 })) ∧
  (∀ (s : State) (q : QSet) (entries : List (BitVec 512)), 32 < entries.length →
    exec (.sqFetch q entries) s = .fault (.noSuchOperand "SQ_FETCH")) ∧
  (∀ (s : State) (c : Crown) (r : Req) (p0 : Panel), s.panel.live →
    s.panel.nextReq c (fun op => op == 0 || decide (5 < op)) = some (r, p0) →
    ∃ t, exec (.hostNop c) s = .next t ∧ (t.panel.crown c).reqs = (s.panel.crown c).reqs.drop 1 ∧
      s.panel.completes t.panel r 0 St.done false 0) ∧
  (∀ (s : State) (q : QSet) (bs : List Byte) (rest : List (List Byte)), s.panel.live → s.panel.hostUp → (s.panel.qset q).on →
    (let k := s.panel.qset q
     (k.due = bs :: rest →
       ∃ t, exec (.requestCompletionWrite q) s = .next t ∧ (t.panel.qset q).due = rest ∧
        (t.panel.qset q).rcqt = (k.rcqt + 1) % k.rcqSize ∧
        OutRec.hostWrite ((rfGet k.regs 0x10).toNat + 16 * k.rcqt) bs ∈ t.panel.out) ∧
     (k.due = [] → k.tdue = bs :: rest →
       ∃ t, exec (.requestCompletionWrite q) s = .next t ∧ (t.panel.qset q).tdue = rest ∧
        (t.panel.qset q).tcqt = (k.tcqt + 1) % k.tcqSize ∧
        OutRec.hostWrite ((rfGet k.regs 0x18).toNat + 16 * k.tcqt) bs ∈ t.panel.out))) ∧
  (∀ (s : State) (q : QSet), s.panel.live → s.panel.hostUp → (s.panel.qset q).on →
    (rfGet (s.panel.qset q).regs 0).toNat.testBit 30 → 0 < (s.panel.qset q).unsig →
    (s.panel.qset q).unsigAt + (s.panel.qset q).qmod % 256 * 1000 ≤ s.panel.dial →
    ∃ t, exec (.interruptDelayExpire q) s = .next t ∧ (t.panel.qset q).unsig = 0 ∧
      t.panel.out = .interrupt ((s.panel.qOwner q).getD 0) (bits (rfGet (s.panel.qset q).regs 0).toNat 29 24) :: s.panel.out)

/-- BAR4_READ, BAR4_WRITE and BAR4_READ_TIMEOUT complete (R353, R354): an access that its segment allows goes out in packets cut at
1,024-byte boundaries and is awaited; one that it does not is refused, counted and recorded; the oldest read unanswered for 5 ms is
ended with a completer abort. -/
def Completion.BarAccessesComplete : Prop :=
  (∀ (s : State) (fn : HostFn) (off part ga : Nat) (payload : List Byte), s.panel.live → s.panel.hostUp → payload ≠ [] →
    s.panel.barCheck fn off payload.length true = .ok (part, ga) →
    (let cuts := barCuts (payload.length / 1024 + 2) ga payload.length
     ∃ t, exec (.bar4Write fn off payload) s = .next t ∧
       (t.panel.fn fn).writes = (s.panel.fn fn).writes ++ [((s.panel.fn fn).nextId, cuts.length, off / (barSize fn / 64), off)] ∧
       (t.panel.crown .north).outq.length = (s.panel.crown .north).outq.length + cuts.length)) ∧
  (∀ (s : State) (fn : HostFn) (off len part ga : Nat), s.panel.live → s.panel.hostUp → len ≠ 0 →
    s.panel.barCheck fn off len false = .ok (part, ga) →
    (let cuts := barCuts (len / 1024 + 2) ga len
     ∃ t, exec (.bar4Read fn off len) s = .next t ∧
       (t.panel.fn fn).reads = (s.panel.fn fn).reads ++
         [{ id := (s.panel.fn fn).nextId, since := s.panel.dial, off := off, len := len, left := cuts.length }] ∧
       (t.panel.crown .north).outq.length = (s.panel.crown .north).outq.length + cuts.length)) ∧
  (∀ (s : State) (fn : HostFn) (off len st : Nat) (p0 : Panel), s.panel.live → s.panel.hostUp → len ≠ 0 →
    s.panel.barCheck fn off len false = .error (st, p0) →
    ∃ t, exec (.bar4Read fn off len) s = .next t ∧ OutRec.hostAbort fn off ∈ t.panel.out ∧
      (t.panel.crown .north).rd Reg.HOST_PROT_CNT = min cntTop ((s.panel.crown .north).rd Reg.HOST_PROT_CNT + 1) ∧
      (t.panel.fn fn).reads = (s.panel.fn fn).reads) ∧
  (∀ (s : State) (fn : HostFn) (r : BarRead) (rest : List BarRead), s.panel.live → (s.panel.fn fn).reads = r :: rest →
    r.since + 5000000 ≤ s.panel.dial →
    ∃ t, exec (.bar4ReadTimeout fn) s = .next t ∧ (t.panel.fn fn).reads = rest ∧ OutRec.hostAbort fn r.off ∈ t.panel.out)

/-- HOST_FNPART_WRITE, HOST_SEG_WRITE and HOST_FN_ERR_CLR complete (R351, R353, R372): a function is bound to a partition, a write for a partition
that another function has being ignored and counted; a segment is held when it lies in one target; the error record clears. -/
def Completion.HostRegistersComplete : Prop :=
  (∀ (s : State) (who : Requester) (f : HostFn) (v : W64), s.panel.granted who (.crown .north) (Reg.HOST_FNPART + 4 * f) →
    (let x := v.toNat % 2 ^ 32 &&& 0x8000001F
     let taken : Prop := ∃ g, g < 32 ∧ g ≠ f.val ∧ s.panel.fnPart g = some (x % 32)
     ((x.testBit 31 = false ∨ ¬ taken) →
       ∃ t, exec (.hostFnpartWrite who f v) s = .next t ∧ (t.panel.crown .north).rd (Reg.HOST_FNPART + 4 * f) = x) ∧
     (x.testBit 31 → taken →
       ∃ t, exec (.hostFnpartWrite who f v) s = .next t ∧
         (t.panel.crown .north).rd (Reg.HOST_FNPART + 4 * f) = (s.panel.crown .north).rd (Reg.HOST_FNPART + 4 * f) ∧
         (t.panel.crown .north).rd Reg.HOST_CFG_IGN_CNT = min cntTop ((s.panel.crown .north).rd Reg.HOST_CFG_IGN_CNT + 1)))) ∧
  (∀ (s : State) (who : Requester) (f : HostFn) (g : Fin 64) (v : W64),
    (∀ w : Fin 2, s.panel.granted who (.crown .north) (Reg.HOST_SEG + 16 * (64 * f + g) + 8 * w)) →
    (s.panel.seg f g 0).testBit 63 = false →
    (∃ t, exec (.hostSegWrite who f g 1 v) s = .next t ∧ t.panel.seg f g 1 = v.toNat % 2 ^ 20) ∧
    (v.toNat.testBit 63 = false →
      ∃ t, exec (.hostSegWrite who f g 0 v) s = .next t ∧ t.panel.seg f g 0 = (v.toNat &&& 0xE0FFFFFFFFFFFFFF)) ∧
    (let x := v.toNat &&& 0xE0FFFFFFFFFFFFFF
     let base := x % 2 ^ 56
     x.testBit 63 → (bits base 55 52 = 0 ∨ bits base 55 52 = 2) → base % 4096 = 0 →
     s.panel.sameTarget base (base + 4096 * (s.panel.seg f g 1 + 1) - 1) →
      ∃ t, exec (.hostSegWrite who f g 0 v) s = .next t ∧ t.panel.seg f g 0 = x) ∧
    (v.toNat.testBit 63 → v.toNat % 4096 ≠ 0 →
      ∃ t, exec (.hostSegWrite who f g 0 v) s = .next t ∧ t.panel.seg f g 0 = s.panel.seg f g 0 ∧
        (t.panel.crown .north).rd Reg.HOST_CFG_IGN_CNT = min cntTop ((s.panel.crown .north).rd Reg.HOST_CFG_IGN_CNT + 1))) ∧
  (∀ (s : State) (fn : HostFn) (v : W64), s.panel.live → v.getLsbD 0 →
    ∃ t, exec (.hostFnErrClr fn v) s = .next t ∧ rfGet (t.panel.fn fn).regs Reg.HOST_FN_ERR = 0)

/-- FLR_VF, FLR_PF, HOST_RESET, DOE_REQUEST and DOE_ABORT complete (R368, R369): a function reset has its sets disabled and its accesses gone, and is
counted; the physical function's reset takes every function and clears VF Enable; a request of up to 16 KiB waits for its answer, a
longer one sets DOE Error, and an abort clears both. -/
def Completion.HostResetsComplete : Prop :=
  ∀ (s : State), s.panel.live →
    ((s.panel.crown .north).lost = false →
      (∀ fn : HostFn, fn.val ≠ 0 →
        ∃ t, exec (.flrVf fn) s = .next t ∧ t.panel.fn fn = { nextId := (s.panel.fn fn).nextId } ∧
          (∀ q, s.panel.qOwner q = some fn.val → (t.panel.qset q).on = false) ∧
          (t.panel.crown .north).rd Reg.HOST_FLR_CNT = min cntTop ((s.panel.crown .north).rd Reg.HOST_FLR_CNT + 1)) ∧
      (∃ t, exec .flrPf s = .next t ∧ t.panel.doe = [] ∧ t.panel.doeError = false ∧
        (∀ f, f < 32 → t.panel.fn f = { nextId := (s.panel.fn f).nextId }) ∧
        (t.panel.crown .north).rd Reg.HOST_STATUS % 64 = 0 ∧
        (t.panel.crown .north).rd Reg.HOST_FLR_CNT = min cntTop ((s.panel.crown .north).rd Reg.HOST_FLR_CNT + 1)) ∧
      (∃ t, exec .hostReset s = .next t ∧ t.panel.doe = [] ∧ t.panel.doeError = false ∧
        (∀ f, f < 32 → t.panel.fn f = { nextId := (s.panel.fn f).nextId }) ∧
        (t.panel.crown .north).rd Reg.HOST_RESET_CNT = min cntTop ((s.panel.crown .north).rd Reg.HOST_RESET_CNT + 1))) ∧
    (∀ (r : SpdmRequest) (n : Nat), s.panel.hostUp → s.panel.doeError = false →
      (n ≤ 16384 → ∃ t, exec (.doeRequest r n) s = .next t ∧ t.panel.doe = s.panel.doe ++ [r] ∧ t.panel.doeError = false) ∧
      (16384 < n → ∃ t, exec (.doeRequest r n) s = .next t ∧ t.panel.doe = s.panel.doe ∧ t.panel.doeError)) ∧
    ∃ t, exec .doeAbort s = .next t ∧ t.panel.doe = [] ∧ t.panel.doeError = false


/-! ### Clocks -/

/-- REFERENCE_LOSS, ESCAPEMENT_LOCK, ESCAPEMENT_TAKEOVER, HANDOVER and TREE_LOSS_FATAL complete (R374, R380–R382): a lost input unlocks its escapement,
and with both lost the active one is in holdover; a locked standby takes over, its role and count recorded, and dial time never goes
back; the loss of both trees takes the panel out of service. -/
def Completion.EscapementsComplete : Prop :=
  ∀ (s : State), s.panel.live →
    (let p := s.panel
     let taken (t : State) : Prop := t.panel.activeEsc = p.activeEsc.other ∧
       t.panel.sh Reg.CLK_TAKEOVER_CNT = min cntTop (p.sh Reg.CLK_TAKEOVER_CNT + 1) ∧
       (t.panel.dial = p.dial ∨ ∃ n, n ≤ 8 ∧ t.panel.dial = (p.dial + n) % 2 ^ 64)
     (∀ c, p.refHere c →
       ∃ t, exec (.referenceLoss c) s = .next t ∧ t.panel.refHere c = false ∧ t.panel.locked c = false ∧
        t.panel.sh Reg.CLK_REF_LOSS_CNT = min cntTop (p.sh Reg.CLK_REF_LOSS_CNT + 1) ∧
        (p.refHere c.other = false → t.panel.esc 26)) ∧
     (∀ c, p.dialRuns → (p.crown c).lost = false →
       ∃ t, exec (.escapementLock c) s = .next t ∧ t.panel.refHere c ∧ t.panel.locked c ∧
        (p.activeEsc = c → t.panel.esc 26 = false)) ∧
     (∀ tree : Bool, p.standbyReady → (tree ∨ p.locked p.activeEsc = false ∨ (p.crown p.activeEsc).lost) →
       ∃ t, exec (.escapementTakeover tree) s = .next t ∧ taken t) ∧
     (∀ (who : Requester) (v : W64), p.granted who (.crown (p.viaCrown who)) Reg.CLK_ESC_CMD → v.getLsbD 0 → p.standbyReady →
       ∃ t, exec (.handover who v) s = .next t ∧ taken t) ∧
     (p.dialRuns → p.esc 25 = false → ∃ t, exec .treeLossFatal s = .next t ∧ t.panel.esc 25 ∧ t.panel.fatal))

/-- CALIBRATION_WINDOW, DROOP_STRETCH, SUPPLY_HALT, HALT_SUPPLY_FAULT, SUPPLY_RECOVERY, CLK_CAP_WRITE and CAP_RAISE_APPLY complete (R383–R385, R389): a core
with power holds its calibration error and its deepest stretch; its clock halts, is reported after 1 µs, and runs again; a management
cap of at most 0x2C is held; a raised cap takes effect at its instant. -/
def Completion.CoreClocksComplete : Prop :=
  ∀ (s : State) (n : Site), s.panel.live → s.panel.powered n →
    (let k := s.panel.core n
     (∀ err : Int, ∃ t, exec (.calibrationWindow n err) s = .next t ∧
       bits ((t.panel.core n).rd Reg.CLK_CAL_ERR) 15 0 = (err % 65536).toNat) ∧
     (∀ steps, k.haltSince = none → steps ≠ 0 →
       ∃ t, exec (.droopStretch n steps) s = .next t ∧
        (t.panel.core n).rd Reg.CLK_STRETCH_CNT = min cntTop (k.rd Reg.CLK_STRETCH_CNT + 1) ∧
        (t.panel.core n).rd Reg.CLK_DROOP_STAT % 16 = max (k.rd Reg.CLK_DROOP_STAT % 16) (min steps 8)) ∧
     (k.haltSince = none →
       ∃ t, exec (.supplyHalt n) s = .next t ∧ (t.panel.core n).haltSince = some s.panel.dial ∧
        (t.panel.core n).rd Reg.CLK_HALT_CNT = min cntTop (k.rd Reg.CLK_HALT_CNT + 1)) ∧
     (∀ t0, k.haltSince = some t0 → t0 + 1000 ≤ s.panel.dial → k.clk.faulted = false →
       ∃ t, exec (.haltSupplyFault n) s = .next t ∧ (t.panel.core n).clk.faulted ∧
        (t.panel.core n).rd Reg.PWR_SUPPLY_FLT_CNT = min cntTop (k.rd Reg.PWR_SUPPLY_FLT_CNT + 1)) ∧
     (∃ t, exec (.supplyRecovery n) s = .next t ∧ (t.panel.core n).haltSince = none) ∧
     (∀ (who : Requester) (v : W64), s.panel.granted who (.core n) Reg.CLK_CAP →
       ∃ t, exec (.clkCapWrite who n v) s = .next t ∧
        (t.panel.core n).mgmtCap = if v.toNat % 64 ≤ 0x2C then v.toNat % 64 else k.mgmtCap) ∧
     (∀ t0, k.haltSince = none → k.clk.raiseAt = some t0 → t0 ≤ s.panel.dial →
       ∃ t, exec (.capRaiseApply n) s = .next t ∧ (t.panel.core n).code = k.target.1 ∧ (t.panel.core n).clk.raiseAt = none))

/-- SETPOINT_CHANGE, SETPOINT_CANCEL, SETPOINT_ARM_CHECK and SETPOINT_SWITCH complete (R391–R393): a change that may be accepted arms every powered site for
its instant; one while another is pending is ignored and counted; a cancel 2 ms ahead disarms every site; the check cancels a change
that some site is not armed for; a core switches to the code of its arm. -/
def Obligations.SetpointChangesComplete : Prop :=
  ∀ (s : State), s.panel.live →
    (let p := s.panel
     (∀ (who : Requester) (v : W64), p.granted who (.crown (p.viaCrown who)) Reg.CLK_SP_CTL → v.toNat.testBit 30 = false →
       (p.spPending = false → v.toNat % 64 ≤ 0x2C → p.dial + 5000000 ≤ p.sh Reg.CLK_SP_AT → p.merged →
         ∃ t, exec (.setpointChange who v) s = .next t ∧ t.panel.spState = 2 ∧ t.panel.spAt = p.sh Reg.CLK_SP_AT ∧
          ∀ n, n < 336 → p.powered n → (t.panel.core n).rd Reg.CLK_SP_ARM = p.sh Reg.CLK_SP_AT ∧
            (t.panel.core n).rd Reg.CLK_SP_ARMCTL = 2 ^ 31 + b2n (v.toNat.testBit 27) * 2 ^ 30 + v.toNat % 64) ∧
       (p.spPending → p.dial < p.spAt + 2 →
         ∃ t, exec (.setpointChange who v) s = .next t ∧ t.panel.spAt = p.spAt ∧ t.panel.cores = p.cores ∧
          t.panel.sh Reg.CLK_SP_IGN_CNT = min cntTop (p.sh Reg.CLK_SP_IGN_CNT + 1))) ∧
     (∀ (who : Requester) (v : W64), p.granted who (.crown (p.viaCrown who)) Reg.CLK_SP_CTL → v.toNat.testBit 31 = false →
       p.spPending → p.dial + 2000000 ≤ p.spAt →
       ∃ t, exec (.setpointCancel who v) s = .next t ∧ t.panel.spState = 3 ∧
        t.panel.sh Reg.CLK_SP_ABORT_CNT = min cntTop (p.sh Reg.CLK_SP_ABORT_CNT + 1) ∧
        ∀ n, n < 336 → p.powered n → (t.panel.core n).armed = false) ∧
     (p.spPending → p.spChecked = false → p.spAt ≤ p.dial + 4000000 → p.dial + 1000000 ≤ p.spAt →
       ((∀ n, n < 336 → p.powered n → (p.site n).state = 3 ∨ (p.core n).armed) →
         ∃ t, exec .setpointArmCheck s = .next t ∧ t.panel.spChecked ∧ t.panel.spState = p.spState) ∧
       (∀ n, n < 336 → p.powered n → (p.site n).state ≠ 3 → (p.core n).armed = false →
         ∃ t, exec .setpointArmCheck s = .next t ∧ t.panel.spState = 3)) ∧
     (∀ n : Site, (p.core n).clocked → (p.core n).armed → (p.core n).rd Reg.CLK_SP_ARM + 2 ≤ p.dial →
       ∃ t, exec (.setpointSwitch n) s = .next t ∧ (t.panel.core n).clk.sp = (p.core n).rd Reg.CLK_SP_ARMCTL % 64 ∧
        (t.panel.core n).armed = false))

/-! ### Power -/

/-- BUS_SAMPLE, POWER_LOSS and RESET_INPUT complete (R401, R433, R529): a sample in the service range is held; 50 µs below 39 V warn of power
failure and shed the panel; 10 µs below 36 V, or above 62 V, take it down, the latter latched; without supply, or under reset,
only fuses and flash are kept. -/
def Completion.SuppliesComplete : Prop :=
  ∀ (s : State),
    (let p := s.panel
     (∀ dv qa west : Nat, p.live →
       (400 ≤ dv → dv ≤ 620 →
         ∃ t, exec (.busSample dv qa west) s = .next t ∧ bits (t.panel.sh Reg.PWR_IN) 31 20 = dv ∧
          bits (t.panel.sh Reg.PWR_IN) 19 8 = min 4095 qa ∧ t.panel.pow.lowAt = none) ∧
       (∀ t0, 360 ≤ dv → dv < 390 → p.pow.lowAt = some t0 → t0 + 50000 ≤ p.dial → (p.sh Reg.PWR_IN).testBit 7 = false →
         ∃ t, exec (.busSample dv qa west) s = .next t ∧ (t.panel.sh Reg.PWR_IN).testBit 7 ∧ t.panel.shedding ∧
          t.panel.sh Reg.PWR_PFAIL_CNT = min cntTop (p.sh Reg.PWR_PFAIL_CNT + 1)) ∧
       (∀ t0, dv < 360 → p.pow.deadAt = some t0 → t0 + 10000 ≤ p.dial →
         ∃ t, exec (.busSample dv qa west) s = .next t ∧ t.panel.boot.off ∧ t.panel.boot.latched = false ∧ t.panel.cores = [] ∧
          t.panel.fuses = p.fuses ∧ t.panel.flash = p.flash) ∧
       (∀ t0, 620 < dv → p.pow.highAt = some t0 → t0 + 10000 ≤ p.dial →
         ∃ t, exec (.busSample dv qa west) s = .next t ∧ t.panel.boot.off ∧ t.panel.boot.latched)) ∧
     (∃ t, exec .powerLoss s = .next t ∧ t.panel.boot.off ∧ t.panel.cores = [] ∧ t.panel.hubs = [] ∧ t.panel.crowns = [] ∧
       t.panel.fuses = p.fuses ∧ t.panel.flash = p.flash) ∧
     (∀ c, ∃ t, exec (.resetInput c) s = .next t ∧ c ∈ t.panel.boot.held ∧ t.panel.live = false ∧ t.panel.cores = [] ∧
       t.panel.fuses = p.fuses ∧ t.panel.flash = p.flash))

/-- PHASE_FAILURE, REGION_SUPPLY_LOSS, EDGE_CONVERTER_FAULT, REGION_POWER_ON, REGION_POWER_OFF, RAMP_GRANT and SITE_REGULATOR_START complete (R405–R407, R414):
failed phases are counted, lower the power cap from three on, and retire the site at five; a converter latches off; a region asked
on waits its turn, is granted by the headroom, and starts its sites from the bucket; one without ready tenants is turned off. -/
def Completion.RegionPowerCompletes : Prop :=
  ∀ (s : State), s.panel.live →
    (let p := s.panel
     (∀ (n : Site) (ph : Fin 8), p.powered n →
       (let v := (p.core n).rd Reg.PWR_SITE_STAT
        (bits v 29 22).testBit ph = false →
        (bits v 21 18 < 4 →
          ∃ t, exec (.phaseFailure n ph) s = .next t ∧ bits ((t.panel.core n).rd Reg.PWR_SITE_STAT) 21 18 = bits v 21 18 + 1 ∧
            (bits ((t.panel.core n).rd Reg.PWR_SITE_STAT) 29 22).testBit ph ∧
            (2 ≤ bits v 21 18 → bits ((t.panel.core n).rd Reg.CLK_CAP) 23 18 = phaseCap (bits v 21 18 + 1))) ∧
        (bits v 21 18 = 4 → (p.site n).state ≠ 4 →
          ∃ t, exec (.phaseFailure n ph) s = .next t ∧ (t.panel.site n).state = 3))) ∧
     (∀ g : Region, (p.rgnState g = 1 ∨ p.rgnState g = 2) →
       ∃ t, exec (.regionSupplyLoss g) s = .next t ∧ t.panel.rgnState g = 3) ∧
     (∀ e : Fin 8, p.edgeState e = 2 → ∃ t, exec (.edgeConverterFault e) s = .next t ∧ t.panel.edgeState e = 3) ∧
     (∀ (who : Requester) (v : W64), p.granted who (.crown (p.viaCrown who)) Reg.PWR_RGN_CMD → v.toNat % 32 < 24 →
       (let g := v.toNat % 32
        (p.rgnState g = 0 →
          ∃ t, exec (.regionPowerOn who v) s = .next t ∧ bits (t.panel.sh (Reg.PWR_RGN + 4 * g)) 29 29 = 1 ∧
            t.panel.pow.rgnq = insertNat p.pow.rgnq g) ∧
        (p.rgnState g = 2 → (∀ n ∈ regionSites g, (p.site n).state ≠ 1 ∨ p.partOf n = none) →
          ∃ t, exec (.regionPowerOff who v) s = .next t ∧ t.panel.rgnState g = 0 ∧ find t.panel.pow.rgnNext g = none))) ∧
     (∀ g : Region, p.pow.rgnq.head? = some g.val → p.sh Reg.PWR_RGN_BUDGET % 65536 + p.pow.avg + p.fcastTop ≤ p.capEff.1 →
       ∃ t, exec (.rampGrant g) s = .next t ∧ t.panel.rgnState g = 1 ∧ t.panel.pow.rgnq = p.pow.rgnq.drop 1 ∧
        find t.panel.pow.rgnNext g = some (0, p.dial)) ∧
     (∀ (g : Region) (i t0 : Nat), find p.pow.rgnNext g = some (i, t0) → t0 + 100000 ≤ p.dial →
       (let n := (regionSites g).getD i 0
        p.startable n → p.powered n = false →
        (rampCost (Config.startCost n) ≤ p.bucketNow →
          ∃ t, exec (.siteRegulatorStart g) s = .next t ∧ t.panel.powered n ∧
            find t.panel.pow.rgnNext g = if i = 13 then none else some (i + 1, p.dial)) ∧
        (p.bucketNow < rampCost (Config.startCost n) →
          ∃ t, exec (.siteRegulatorStart g) s = .next t ∧ t.panel.cores = p.cores ∧ t.panel.pow = p.pow))))

/-- RAMP_BUCKET_GRANT, PRE_RAMP_START, FLOOR_LOWER, POWER_CAP_CHECK and CAP_RESTORE complete (R410–R412, R416): a waiting floor rises by what the bucket
covers; the floors begin to rise in time for a forecast interval; lowering raises none; above the cap the bucket is emptied; a
broadcast cap rises by one code. -/
def Completion.RampGovernorCompletes : Prop :=
  ∀ (s : State), s.panel.live →
    (let p := s.panel
     (∀ n q, p.pow.rises = [(n, q)] → q ≤ 128 → (p.core n).floorMw < 250 * q →
       ∃ t, exec .rampBucketGrant s = .next t ∧
        (t.panel.core n).floorMw = 250 * min ((p.core n).floorMw / 250 + p.bucketNow * 88 / 100 / 250) q) ∧
     (∀ k : Fin 5,
       (let t1 := if p.fcastAt .north = 0 then p.fcastAt .south else p.fcastAt .north
        let tk := t1 + k * 1000000
        let dp := p.fcastFor tk - p.stepWatts
        let pc := dp * 1000 / p.warmSites.length
        let r := (p.warmSites.map fun n => pc - max (p.core n).siteMw (p.core n).floorMw).sum
        t1 ≠ 0 → p.dial < tk → dp ≠ 0 → p.warmSites ≠ [] → p.shedding = false →
        tk ≤ p.dial + r * 1000 * 100 / (88 * 1000 * max 1 (bits (p.sh Reg.PWR_RAMP) 23 16)) →
        ∃ t, exec (.preRampStart k) s = .next t ∧ t.panel = p.raiseFloors p.warmSites pc)) ∧
     (∃ t, exec .floorLower s = .next t ∧ t.panel.pow.loweredAt = p.dial ∧
       ∀ n, (t.panel.core n).floorMw ≤ (p.core n).floorMw) ∧
     (∀ w10 w1 : Nat,
       (w1 ≤ p.capEff.1 → w10 ≤ p.excursion →
         ∃ t, exec (.powerCapCheck w10 w1) s = .next t ∧ t.panel.pow.avg = w1 ∧ t.panel.pow.overAt = none ∧
          t.panel.sh Reg.PWR_PANEL_P % 65536 = min 65535 (w1 / 10) ∧ t.panel.cores = p.cores ∧ t.panel.bucket = p.bucket) ∧
       (p.capEff.1 < w1 → ∃ t, exec (.powerCapCheck w10 w1) s = .next t ∧ t.panel.pow.avg = w1 ∧ t.panel.bucket = 0 ∧
          t.panel.bucketAt = p.dial)) ∧
     (∀ c t0, p.pow.bcast = some c → p.shedding = false → p.pow.underAt = some t0 → t0 + 100000000 ≤ p.dial →
       p.pow.raisedAt + 10000000 ≤ p.dial →
       rampCost ((p.poweredSites.map fun n => scaledMw n (p.core n).siteMw c (c + 1) - (p.core n).siteMw).sum) ≤ p.bucketNow →
       ∃ t, exec .capRestore s = .next t ∧ t.panel.pow.bcast = (if 0x2C ≤ c + 1 then none else some (c + 1)) ∧
        t.panel.pow.raisedAt = p.dial ∧ ∀ n, n < 336 → p.powered n → (t.panel.core n).mgmtCap = min 0x2C (c + 1)))

/-- TELEMETRY_SAMPLE, ENERGY_TICK and ENERGY_TENANT_UPDATE complete (R418, R419): a domain's sample is held in its register's units, each field at
all ones when the sample exceeds it; the energy counter counts; tenants see it once per 100 ms in units of 10 J. -/
def Completion.TelemetryCompletes : Prop :=
  ∀ (s : State), s.panel.live →
    (let p := s.panel
     (∀ mv ma : Nat,
       (∀ n : Site, p.powered n →
         ∃ t, exec (.telemetrySample (.site n) mv ma) s = .next t ∧ (t.panel.core n).rd Reg.PWR_SITE_VI =
          min 4095 mv * 2 ^ 20 + min 1023 (ma / 100) * 2 ^ 10 + min 1023 (mv * ma / 100000)) ∧
       (∀ d : Fin 58, ∃ t, exec (.telemetrySample (.edge d) mv ma) s = .next t ∧
         t.panel.sh (Reg.PWR_DOM + 4 * d) = min 4095 mv * 2 ^ 20 + min (2 ^ 20 - 1) ma) ∧
       (∀ g : Region, ∃ t, exec (.telemetrySample (.region g) mv ma) s = .next t ∧
         bits (t.panel.sh (Reg.PWR_RGN + 4 * g)) 15 0 = min 65535 (mv * ma / 1000000) ∧ t.panel.rgnState g = p.rgnState g) ∧
       (∀ e : Fin 8, ∃ t, exec (.telemetrySample (.edgeConverter e) mv ma) s = .next t ∧
         bits (t.panel.sh (Reg.PWR_EDGE + 4 * e)) 15 0 = min 65535 (mv * ma / 1000000) ∧ t.panel.edgeState e = p.edgeState e)) ∧
     (∀ mj : Nat, ∃ t, exec (.energyTick mj) s = .next t ∧ t.panel.sh Reg.PWR_ENERGY = (p.sh Reg.PWR_ENERGY + mj) % 2 ^ 64) ∧
     (p.pow.tenant < p.dial / 100000000 →
       ∃ t, exec .energyTenantUpdate s = .next t ∧ t.panel.pow.tenant = p.dial / 100000000 ∧
        t.panel.sh Reg.PWR_ENERGY_T = p.sh Reg.PWR_ENERGY / 10000 % 2 ^ 32))

/-! ### Temperature -/

/-- SENSOR_CONVERSION, THERMAL_EVALUATION, THERMAL_SHED_RETIRE and LEHR_ADJUST complete (R420–R422, R426): a reading in range is held, one out of range
counted; the level of a site follows its temperature and its cap the table; 10 ms at level 5 retire the site; the lehr load falls
by half a watt per ms when it yields, rises from the bucket while the site is cold, and is zero where it does not apply. -/
def Completion.SiteTemperaturesComplete : Prop :=
  ∀ (s : State) (n : Site), s.panel.live → s.panel.powered n →
    (let p := s.panel
     let k := p.core n
     (∀ (i : Fin 6) (q : Int),
       (-160 ≤ q → q ≤ 600 → ∃ t, exec (.sensorConversion n i q) s = .next t ∧
         (t.panel.core n).rd (Reg.THM_SENS + 4 * i) = 2 ^ 31 + (q % 4096).toNat) ∧
       (q < -160 ∨ 600 < q → ∃ t, exec (.sensorConversion n i q) s = .next t ∧
         (t.panel.core n).rd Reg.THM_SENS_BAD_CNT = min cntTop (k.rd Reg.THM_SENS_BAD_CNT + 1))) ∧
     (∀ x, k.tj = some x →
       ∃ t, exec (.thermalEvaluation n) s = .next t ∧ bits ((t.panel.core n).rd Reg.THM_SITE) 23 21 = thermalLevel x ∧
        (k.anyLost p.dial = false → (t.panel.core n).thmCap = (thermalCap (thermalLevel x) k.thmCap
          (decide (k.heat.stepAt + 1000000 ≤ p.dial)) (decide (k.heat.stepAt + 100000 ≤ p.dial))).1)) ∧
     (∀ t0, k.heat.hotSince = some t0 → t0 + 10000000 ≤ p.dial → (p.site n).state ≠ 4 →
       ∃ t, exec (.thermalShedRetire n) s = .next t ∧ (t.panel.site n).state = 3) ∧
     (let applies : Prop := (k.rd Reg.THM_LEHR).testBit 31 ∧ ((p.site n).state = 2 ∨ k.seq.gated)
      let step := (p.dial - k.heat.lehrAt) / 1000000 * 2
      (p.shedding ∨ ¬ applies → ∃ t, exec (.lehrAdjust n) s = .next t ∧ (t.panel.core n).heat.lehr = 0) ∧
      (p.shedding = false → applies → step ≠ 0 → p.capEff.1 ≤ p.pow.avg + 500 →
        ∃ t, exec (.lehrAdjust n) s = .next t ∧ (t.panel.core n).heat.lehr = k.heat.lehr - step) ∧
      (∀ x, p.shedding = false → applies → step ≠ 0 → p.pow.avg + 500 < p.capEff.1 → p.capEff.2 ≠ 2 → p.capEff.2 ≠ 3 →
        k.tj = some x → x < p.lehrFloor n k →
        (let q := min 32 (k.heat.lehr + min step 2)
         rampCost ((q - k.heat.lehr) * 250) ≤ p.bucketNow →
         ∃ t, exec (.lehrAdjust n) s = .next t ∧ (t.panel.core n).heat.lehr = q))))

/-- THERMAL_TRIP, EDGE_THERMAL_EVALUATION and HBM_LIMIT_STEP complete (R423–R425): a die at 112 °C loses its rail; a reading of an edge die is held with its
peak, and 10 ms at 108 °C take its rail; the HBM limit begins at the present power, and falls by 1 kW per 10 ms, while a stack is at level 3. -/
def Completion.DieTemperaturesComplete : Prop :=
  ∀ (s : State), s.panel.live →
    (let p := s.panel
     ((∀ n : Site, p.powered n → (p.site n).state ≠ 4 →
        ∃ t, exec (.thermalTrip (.core n)) s = .next t ∧ (t.panel.site n).state = 3) ∧
      (∀ h : HubIx, p.fuses.hubPresent h → (p.hub h).lost = false →
        ∃ t, exec (.thermalTrip (.hub h)) s = .next t ∧ (t.panel.hub h).lost) ∧
      (∀ d : PortIx, p.fuses.diePresent d → (p.port d).lost = false →
        ∃ t, exec (.thermalTrip (.port d)) s = .next t ∧ (t.panel.port d).lost) ∧
      ∀ c : Crown, (p.crown c).lost = false → ∃ t, exec (.thermalTrip (.crown c)) s = .next t ∧ (t.panel.crown c).lost) ∧
     (∀ (die : Die) (celsius : Option Nat) (i : Nat), edgeIndex die = some i → p.edgeUp die →
       (let x := min 255 (celsius.getD 100)
        (x < 108 → ∃ t, exec (.edgeThermalEvaluation die celsius) s = .next t ∧ t.panel.edgeHot die = none ∧
          t.panel.sh (Reg.THM_EDGE_T + 4 * i) =
            b2n celsius.isSome * 2 ^ 31 + max (bits (p.sh (Reg.THM_EDGE_T + 4 * i)) 15 8) x * 256 + x) ∧
        (∀ t0, 108 ≤ x → p.edgeHot die = some t0 → t0 + 10000000 ≤ p.dial →
          ∃ t, exec (.edgeThermalEvaluation die celsius) s = .next t ∧ t.panel.edgeUp die = false))) ∧
     (∀ h, h < 24 → p.fuses.hubPresent h → (p.hub h).lost = false → (p.hub h).stack = 2 → (p.hub h).tlvl = 3 →
       (∀ j, j < 24 → (p.hub j).temps.length < 2 ∨ ∃ x ∈ (p.hub j).temps, x < 105) →
       (p.pow.hbm = none → ∃ t, exec .hbmLimitStep s = .next t ∧ t.panel.pow.hbm = some (max 2800 p.pow.avg)) ∧
       (∀ l, p.pow.hbm = some l → p.pow.hbmAt + 10000000 ≤ p.dial →
         ∃ t, exec .hbmLimitStep s = .next t ∧ t.panel.pow.hbm = some (max 2800 (l - 1000)))))

/-- THERMISTOR_READ, FLOW_PULSE, COOLANT_EVALUATION, ABRUPT_STOP, SHED_LIFT and ORDERLY_STOP complete (R428–R432, R525, R526): readings are held; the flow is
evaluated each 100 ms; a cause of an abrupt stop sheds the panel and sets its alert; the shed lifts when flow and outlet have recovered; one
that has not lifted in 2 s takes the panel out of service. -/
def Completion.CoolantCompletes : Prop :=
  ∀ (s : State), s.panel.live →
    (let p := s.panel
     (∀ a b : Int, p.pow.badIn = none → p.pow.badOut = none →
       ∃ t, exec (.thermistorRead (some a) (some b)) s = .next t ∧ t.panel.pow.tin = some a ∧
        t.panel.pow.tout.head? = some (p.dial, b) ∧ bits (t.panel.sh Reg.THM_COOL) 21 11 = min 2047 a.toNat ∧
        bits (t.panel.sh Reg.THM_COOL) 10 0 = min 2047 b.toNat) ∧
     (∃ t, exec .flowPulse s = .next t ∧ t.panel.pow.pulses.head? = some p.dial) ∧
     (p.pow.coolAt + 100000000 ≤ p.dial →
       ∃ t, exec .coolantEvaluation s = .next t ∧ t.panel.pow.coolAt = p.dial ∧
        bits (t.panel.sh Reg.THM_COOL) 31 22 = min 1023 (min p.meterFlow (p.heatFlow.getD p.meterFlow))) ∧
     (p.pow.stopAt = none → p.stopCause →
       ∃ t, exec .abruptStop s = .next t ∧ t.panel.pow.stopAt = some p.dial ∧ t.panel.shedding ∧
        (t.panel.sh Reg.THM_COOL_ALERT).testBit 28 ∧
        t.panel.sh Reg.THM_COOL_SHED_CNT = min cntTop (p.sh Reg.THM_COOL_SHED_CNT + 1)) ∧
     (∀ t0 t1, p.pow.stopAt = some t0 → p.pow.fineFlow = some t1 → t1 + 100000000 ≤ p.dial → p.outletRise 100000000 1 = false →
       ∃ t, exec .shedLift s = .next t ∧ t.panel.pow.stopAt = none ∧ (t.panel.sh Reg.THM_COOL_ALERT).testBit 28 = false ∧
        t.panel.shedding = (p.sh Reg.PWR_IN).testBit 7) ∧
     (∀ t0, p.pow.stopAt = some t0 → t0 + 2000000000 ≤ p.dial → (p.sh Reg.THM_COOL_ALERT).testBit 27 = false →
       ∃ t, exec .orderlyStop s = .next t ∧ t.panel.fatal ∧ (t.panel.sh Reg.THM_COOL_ALERT).testBit 27 ∧
        ∀ h, h < 24 → (t.panel.hub h).lost))


/-! ### Start-up -/

/-- PANEL_START, STAGE_COMPLETE, STAGE_TIMEOUT and CROWN_ABSENT complete (R436–R440, R446): a start samples the straps, its kind as R446 says, over fuses
and flash alone; stage 1 leads to stage 2 with the record of each crown that completes it; stage 10 ends the start, ready with its
service up, or failed; a stage that may not end late fails the start at its limit; an absent crown is lost. -/
def Completion.StartsComplete : Prop :=
  (∀ (s : State) (straps : Straps), s.panel.boot.latched = false → (s.panel.live = false ∨ s.panel.boot.straps = none) →
    ∃ t, exec (.panelStart straps) s = .next t ∧ t.panel.boot.straps = some straps ∧
      t.panel.fullStart = s.panel.wantsFull straps s.panel.boot.forceFull ∧ t.panel.cores = [] ∧ t.panel.hubs = [] ∧
      t.panel.crowns = [] ∧ t.panel.fuses = s.panel.fuses ∧ t.panel.boot.repairs = s.panel.flash.repair ∧
      t.panel.flash.starts = if t.panel.fullStart then 0 else s.panel.flash.starts + 1) ∧
  (∀ (s : State) (o : StageOutcome), s.panel.live → s.panel.starting → s.panel.stage = 1 → o.elapsedUs ≤ 50000 → o.crownOk ≠ [] →
    ∃ t, exec (.stageComplete o) s = .next t ∧ t.panel.stage = 2 ∧ t.panel.bootState = 0 ∧
      ∀ c ∈ o.crownOk, t.panel.sh (recOff 1 c.num) % 65536 = 257) ∧
  (∀ (s : State) (o : StageOutcome), s.panel.live → s.panel.starting → s.panel.stage = 10 → s.panel.crownsKnown →
    o.elapsedUs ≤ 1000000 →
    (s.panel.svcReady → ∃ t, exec (.stageComplete o) s = .next t ∧ t.panel.bootState = 1 ∧ t.panel.serving ∧
      t.panel.flash.repair = s.panel.boot.repairs) ∧
    (s.panel.svcReady = false → ∃ t, exec (.stageComplete o) s = .next t ∧ t.panel.bootState = 2)) ∧
  (∀ (s : State), s.panel.live → s.panel.starting → s.panel.crownsKnown →
    (s.panel.stage ∉ [5, 6, 8, 9] → ∃ t, exec .stageTimeout s = .next t ∧ t.panel.bootState = 2) ∧
    (s.panel.stage = 5 → (∀ c, s.panel.inUse c 3 = none) →
      ∃ t, exec .stageTimeout s = .next t ∧ t.panel.bootState = 0 ∧ t.panel.stage = 6)) ∧
  (∀ (s : State) (c : Crown), s.panel.live → s.panel.starting → s.panel.stage = 3 → c ∉ s.panel.boot.records →
    c.other ∈ s.panel.boot.records → (s.panel.crown c).lost = false →
    ∃ t, exec (.crownAbsent c) s = .next t ∧ (t.panel.crown c).lost)

/-- RESTART_FAST, RESTART_FULL, FULL_START_NEXT, RETRAIN_NORTH, RETRAIN_SOUTH, HALF_RETRAIN_COMPLETE and VACATE complete (R446, R453, R456, R457, R462): a restart leaves
fuses and flash alone and waits for its start; the next start is full; a half that may be retrained is, and merges back; a vacate begins, or
waits for the repair under way; a command that may not be is ignored and counted. -/
def Completion.BootCommandsComplete : Prop :=
  ∀ (s : State) (who : Requester), s.panel.granted who (.crown (s.panel.viaCrown who)) Reg.BOOT_CMD →
    (let p := s.panel
     (∃ t, exec (.restartFast who) s = .next t ∧ t.panel.boot.straps = none ∧ t.panel.boot.forceFull = false ∧ t.panel.cores = [] ∧
       t.panel.fuses = p.fuses ∧ t.panel.flash = p.flash) ∧
     (∃ t, exec (.restartFull who) s = .next t ∧ t.panel.boot.straps = none ∧ t.panel.boot.forceFull ∧ t.panel.cores = [] ∧
       t.panel.fuses = p.fuses ∧ t.panel.flash = p.flash) ∧
     (∃ t, exec (.fullStartNext who) s = .next t ∧ t.panel.flash = { p.flash with fullNext := true } ∧ t.panel.cores = p.cores) ∧
     (∀ force : Bool, p.bootState = 1 → p.retraining = 0 → (p.crown .north).lost = false → (p.crown .south).lost = false →
       ((force ∨ p.halfParts 0 = []) → ∃ t, exec (.retrainNorth who force) s = .next t ∧ t.panel.retraining = 1) ∧
       ((force ∨ p.halfParts 1 = []) → ∃ t, exec (.retrainSouth who force) s = .next t ∧ t.panel.retraining = 2) ∧
       (force = false → p.halfParts 0 ≠ [] → ∃ t, exec (.retrainNorth who force) s = .next t ∧ t.panel.retraining = 0 ∧
         t.panel.sh Reg.BOOT_CMD_IGN_CNT = min cntTop (p.sh Reg.BOOT_CMD_IGN_CNT + 1))) ∧
     (∀ n : Site, (p.site n).state = 1 → (p.freeSpare (siteR n)).isSome →
       (p.repair = none → ∃ t r, exec (.vacate who n) s = .next t ∧ t.panel.repair = some r ∧ r.sites = [n.val] ∧ r.vacate ∧
         r.parts = p.partsAt n ∧ t.panel.maint) ∧
       (p.repair.isSome → ∃ t, exec (.vacate who n) s = .next t ∧ t.panel.boot.vacates = p.boot.vacates ++ [n.val] ∧
         t.panel.repair = p.repair))) ∧
  (∀ (s : State), s.panel.live → (s.panel.retraining = 1 ∨ s.panel.retraining = 2) →
    s.panel.dial ≤ s.panel.boot.retrainAt + 230000000000 →
    ∃ t, exec .halfRetrainComplete s = .next t ∧ t.panel.retraining = 0)

/-- CORE_REPAIR, REPAIR_ADOPT, REPAIR_COMPLETE and REPAIR_FAIL complete (R453–R455): the loss reported first begins a repair; the spares adopt while the
partitions are idle and no protection change runs, and one without a spare fails it; after that it completes, and the partitions' models go on; a repair that cannot
complete faults its partitions. -/
def Completion.RepairsComplete : Prop :=
  ∀ (s : State), s.panel.live →
    (let p := s.panel
     (∀ (n : Site) (x : LossRec) (rest : List LossRec), p.losses = x :: rest → x.site = n → p.repair = none → (p.site n).state = 3 →
       x.parts ≠ [] →
       ∃ t r, exec (.coreRepair n) s = .next t ∧ t.panel.losses = rest ∧ t.panel.repair = some r ∧ r.sites = [n.val] ∧
        r.parts = x.parts ∧ r.since = x.since ∧ r.steps = 0) ∧
     (∀ r, p.repair = some r → r.steps = 0 → r.failed = false → p.change = none → p.partsIdle r.parts → p.dial ≤ r.since + 6000000 →
       (Panel.adoptAll r.vacate r.sites p = none →
         ∃ t, exec .repairAdopt s = .next t ∧ t.panel.repair = some { r with failed := true } ∧ t.panel.cores = p.cores) ∧
       (∀ q taken, Panel.adoptAll r.vacate r.sites p = some (q, taken) →
         ∃ t b, exec .repairAdopt s = .next t ∧ t.panel.repair = some { r with taken := taken, steps := 1, failed := b })) ∧
     (∀ r, p.repair = some r → r.steps ≠ 0 → r.failed = false → p.dial ≤ r.since + 60000000 → p.boot.vacates = [] →
       ∃ t, exec .repairComplete s = .next t ∧ t.panel.repair = none ∧
        ∀ m, (p.model m).part ∈ r.parts → (t.panel.model m).stopped = false) ∧
     (∀ r, p.repair = some r → p.repairLost r → p.boot.vacates = [] →
       ∃ t, exec .repairFail s = .next t ∧ t.panel.repair = none ∧ ∀ q ∈ r.parts, q ∈ t.panel.faulted))

/-- Tests in service complete (R458–R461): a request laid out as R462 says waits its turn, a seventeenth is refused and counted; the first
begins when its sites are free; a pass is shown, a failure retires the site and enters it in the repair map; a crown's service
firmware is restarted on its newer image. -/
def Completion.TestsComplete : Prop :=
  (∀ (s : State) (who : Requester) (v : W64), s.panel.granted who (.crown (s.panel.viaCrown who)) Reg.BOOT_TEST_REQ →
    bits v.toNat 58 32 = 0 → bits v.toNat 15 13 = 0 → v.toNat.testBit 4 = false → bits v.toNat 12 8 < 21 →
    (s.panel.tests.length < 16 →
      (∃ t, exec (.coreSelfTest who v) s = .next t ∧ t.panel.tests = s.panel.tests ++ [testWord 1 v]) ∧
      (∃ t, exec (.scratchpadMarch who v) s = .next t ∧ t.panel.tests = s.panel.tests ++ [testWord 2 v]) ∧
      (∃ t, exec (.linkRecalibration who v) s = .next t ∧ t.panel.tests = s.panel.tests ++ [testWord 3 v]) ∧
      (∃ t, exec (.sensorCalibration who v) s = .next t ∧ t.panel.tests = s.panel.tests ++ [testWord 4 v])) ∧
    (16 ≤ s.panel.tests.length →
      ∃ t, exec (.coreSelfTest who v) s = .next t ∧ t.panel.tests = s.panel.tests ∧
        t.panel.sh Reg.BOOT_TEST_REFUSE_CNT = min cntTop (s.panel.sh Reg.BOOT_TEST_REFUSE_CNT + 1))) ∧
  (∀ (s : State), s.panel.live →
    (let p := s.panel
     (∀ req rest, p.tests = req :: rest → p.testRun = none → (testEnds req.toNat).all p.testFree →
       ∃ t r, exec .testStart s = .next t ∧ t.panel.tests = rest ∧ t.panel.testRun = some r ∧ r.req = req ∧ r.since = p.dial ∧
        r.drained = []) ∧
     (∀ (r : TestRun) (m : Fin 4), p.testRun = some r → r.drained = [] →
       (p.dial ≤ r.since + testLimit (testKind r.req.toNat) →
         ∃ t, exec (.testComplete true m) s = .next t ∧ t.panel.testRun = none ∧
          t.panel.sh Reg.BOOT_TEST_RES = testRes r.req.toNat 0 0 ∧ t.panel.flash = p.flash) ∧
       (testKind r.req.toNat ≠ 3 →
         ∃ t, exec (.testComplete false m) s = .next t ∧ t.panel.testRun = none ∧
          t.panel.sh Reg.BOOT_TEST_RES = testRes r.req.toNat 1 0 ∧
          t.panel.flash.repairGen = p.flash.repairGen + 1 ∧
          ∃ e ∈ t.panel.flash.repair, e.type = 1 ∧ e.site = testSite r.req.toNat)) ∧
     (∀ (c : Crown) (i : Nat), p.newerSvc c = some i → (p.crown c).lost = false → (p.crown c).steps = [] → p.away c = false →
       p.away c.other = false → (c = .north → (p.crown .south).lost ∨ p.newerSvc .south = none) → p.bootState = 1 →
       ∃ t, exec (.serviceFirmwareUpdate c) s = .next t ∧ (t.panel.crown c).restartAt = some p.dial ∧
        (t.panel.crown c).svc = false ∧ t.panel.usedCopy c 2 = i)))

/-! ### Errors -/

/-- TABLE_ENTRY_REWRITE, SHADOW_ROW_RESTORE, ERROR_LOG_POLL and ERR_ACK complete (R502, R505, R509, R513): an entry takes the crown's copy; the rows of a step that
is run again are restored once; the logs of the dies of a crown's half are read and released, but for a power-fail warning; an
acknowledgement releases the oldest records of a die's log. -/
def Completion.ErrorsComplete : Prop :=
  (∀ (s : State), s.panel.live →
    (let p := s.panel
     (∀ (n : Site) (i : Nat), i < 390 → p.powered n →
       ∃ t, exec (.tableEntryRewrite (.core n) (Reg.MESH_RMAP + 4 * i)) s = .next t ∧
        (t.panel.core n).rd (Reg.MESH_RMAP + 4 * i) = p.mapValue n i % 2 ^ 64 ∧
        (t.panel.core n).rd Reg.ERR_TBL_CNT_core = min cntTop ((p.core n).rd Reg.ERR_TBL_CNT_core + 1)) ∧
     (∀ (h : HubIx) (i : Nat), i < 192 → (p.hub h).lost = false →
       ∃ t, exec (.tableEntryRewrite (.hub h) (Reg.HUB_BAND + 4 * i)) s = .next t ∧
        (t.panel.hub h).rd (Reg.HUB_BAND + 4 * i) = (p.hub h).rd (Reg.HUB_BAND + 4 * i) ∧
        (t.panel.hub h).rd Reg.ERR_TBL_CNT_hub = min cntTop ((p.hub h).rd Reg.ERR_TBL_CNT_hub + 1)) ∧
     (∀ (d : PortIx) (i j : Nat), i < 256 → j < 4 → (p.port d).lost = false →
       ∃ t, exec (.tableEntryRewrite (.port d) (Reg.WIN_ENT_COPY + 32 * i)) s = .next t ∧
        (t.panel.port d).rd (Reg.WIN_ENT_COPY + 32 * i + 8 * j) = p.sh (Reg.WIN_ENT + 32 * i + 8 * j) ∧
        (t.panel.port d).rd Reg.ERR_TBL_CNT_port = min cntTop ((p.port d).rd Reg.ERR_TBL_CNT_port + 1)) ∧
     (∀ (c : Crown) (i : Nat), i < 2048 → (p.crown c).lost = false →
       ∃ t, exec (.tableEntryRewrite (.crown c) (Reg.HOST_SEG + 16 * i)) s = .next t ∧
        (t.panel.crown c).rd (Reg.HOST_SEG + 16 * i) = (p.crown c).rd (Reg.HOST_SEG + 16 * i) ∧
        (t.panel.crown c).rd Reg.ERR_TBL_CNT_crown = min cntTop ((p.crown c).rd Reg.ERR_TBL_CNT_crown + 1)))) ∧
  (∀ (s : State) (c : Crown) (step : Nat) (x : Step), s.panel.engineOn c → find (s.panel.crown c).steps step = some x → x.again →
    x.restored = false →
    ∃ t, exec (.shadowRowRestore c step) s = .next t ∧ find (t.panel.crown c).steps step = some { x with restored := true }) ∧
  (∀ (s : State) (c : Crown), s.panel.engineOn c → (s.panel.crown c).pollAt + 1000000 ≤ s.panel.dial → s.panel.powerFails = false →
    ∃ t, exec (.errorLogPoll c) s = .next t ∧ (t.panel.crown c).pollAt = s.panel.dial ∧
      (t.panel.crown c).log = (s.panel.crown c).log.drained ∧
      ∀ n, n < 336 → halfOf n = c.num → (s.panel.core n).log.recs ≠ [] → (t.panel.core n).log = (s.panel.core n).log.drained) ∧
  (∀ (s : State) (who : Requester) (v : W64),
    (∀ n : Site, s.panel.granted who (.core n) Reg.ERR_ACK_core →
      ∃ t, exec (.errAck who (.core n) v) s = .next t ∧ (t.panel.core n).log = (s.panel.core n).log.ack (v.toNat % 128)) ∧
    (∀ h : HubIx, s.panel.granted who (.hub h) Reg.ERR_ACK_hub →
      ∃ t, exec (.errAck who (.hub h) v) s = .next t ∧ (t.panel.hub h).log = (s.panel.hub h).log.ack (v.toNat % 128)) ∧
    (∀ d : PortIx, s.panel.granted who (.port d) Reg.ERR_ACK_port →
      ∃ t, exec (.errAck who (.port d) v) s = .next t ∧ (t.panel.port d).log = (s.panel.port d).log.ack (v.toNat % 128)) ∧
    (∀ c : Crown, s.panel.granted who (.crown c) Reg.ERR_ACK_crown →
      ∃ t, exec (.errAck who (.crown c) v) s = .next t ∧ (t.panel.crown c).log = (s.panel.crown c).log.ack (v.toNat % 128)))

/-! ### Management -/

/-- RING_FRAME, RING_BREAK, SERVICE_REPORT, SERVICE_RESTART, RNG_HEALTH_FAIL and RNG_HEALTH_PASS complete (R464–R466, R469, R472): a frame has the effect of what it
carries; a broadcast cap reaches every powered site; both crowns show a break; a report is noted and ends a restart; 100 ms without one restart
the service firmware; the health of the random source is noted. -/
def Completion.RingAndServiceComplete : Prop :=
  ∀ (s : State), s.panel.live →
    (let p := s.panel
     (∀ (who : Requester) (die : Die) (off bytes : Nat) (v : W64), ringSender who →
       exec (.ringFrame (.write who die off bytes v)) s = .next { s with panel := p.wrote who die off bytes v }) ∧
     (∀ c code, (p.crown c).lost = false → code ≤ 0x2C →
       ∃ t, exec (.ringFrame (.broadcastCap (.ringRoot c) code)) s = .next t ∧ t.panel.pow.bcast = some code ∧
        ∀ n, n < 336 → p.powered n → (t.panel.core n).mgmtCap = code) ∧
     (∀ h : HubIx, (p.hub h).lost = false →
       ∃ t, exec (.ringFrame (.hubHeartbeat h)) s = .next t ∧ t.panel.hub h = { p.hub h with hbSent := p.dial, hbHeard := p.dial }) ∧
     (∀ half : Crown, ∃ t, exec (.ringBreak half) s = .next t ∧
       ∀ c, (p.crown c).lost = false → ((t.panel.crown c).rd Reg.MGMT_RING_STAT).testBit (31 - half.num)) ∧
     (∀ c, (p.crown c).lost = false → c ∈ p.boot.records →
       ∃ t, exec (.serviceReport c) s = .next t ∧ (t.panel.crown c).svc ∧ (t.panel.crown c).svcAt = p.dial ∧
        (t.panel.crown c).restartAt = none) ∧
     (∀ c, (p.crown c).lost = false → (p.crown c).svc → (p.crown c).svcAt + 100000000 ≤ p.dial →
       ∃ t, exec (.serviceRestart c) s = .next t ∧ (t.panel.crown c).svc = false ∧ (t.panel.crown c).restartAt = some p.dial) ∧
     (∀ c, (p.crown c).lost = false →
       (∃ t, exec (.rngHealthFail c) s = .next t ∧ (t.panel.crown c).rngBad) ∧
       ∃ t, exec (.rngHealthPass c) s = .next t ∧ (t.panel.crown c).rngBad = false))

/-- Hokuid sessions and their messages complete (R477–R480, R489, R493): a connection with a good certificate takes a free session, a ninth is
counted; an idle one closes after 600 s; a message that a session's role allows is acted upon and answered, SUBMIT by its request's
completion. -/
def Completion.SessionsComplete : Prop :=
  (∀ (s : State) (c : Crown) (cert : ClientCert), s.panel.live → s.panel.svcUp c →
    (∀ roles, (∃ n, n < 8 ∧ find (s.panel.crown c).sessions n = none) → (s.panel.crown c).rngBad = false →
      s.panel.certRoles cert.caKey = some roles → cert.verifies →
      ∃ t n, exec (.sessionAccept c cert) s = .next t ∧ n < 8 ∧ find (s.panel.crown c).sessions n = none ∧
        find (t.panel.crown c).sessions n = some { roles := roles, usedAt := s.panel.dial }) ∧
    ((∀ n, n < 8 → (find (s.panel.crown c).sessions n).isSome) →
      ∃ t, exec (.sessionAccept c cert) s = .next t ∧ (t.panel.crown c).sessions = (s.panel.crown c).sessions ∧
        bits ((t.panel.crown c).rd Reg.MGMT_SESS) 31 16 = min 0xFFFF (bits ((s.panel.crown c).rd Reg.MGMT_SESS) 31 16 + 1))) ∧
  (∀ (s : State) (c : Crown) (n : Fin 8) (x : Session), s.panel.live → find (s.panel.crown c).sessions n = some x →
    x.usedAt + 600000000000 ≤ s.panel.dial →
    ∃ t, exec (.sessionIdleClose c n) s = .next t ∧ find (t.panel.crown c).sessions n = none) ∧
  (∀ (s : State) (c : Crown) (n : Fin 8) (tag : W32) (item : ConfigItem) (die : Die), s.panel.sessionOpen c n mayObserve →
    (s.panel.itemDies item).head? = some die → readItem item → item.value = 0 →
    (let x := (s.panel.heard c n).regRead (.ringService c) die item.offset (if item.flags.testBit 1 then 8 else 4) 0
     ∃ t, exec (.hokuidRead c n tag item) s = .next t ∧
      OutRec.hokuid c n tag.toNat x.1 (itemBytes { item with value := BitVec.ofNat 64 x.2.1 }) ∈ t.panel.out)) ∧
  (∀ (s : State) (c : Crown) (n : Fin 8) (tag : W32), s.panel.sessionOpen c n mayOperate →
    (∀ item : ConfigItem, readItem item → item.flags.testBit 0 = false → s.panel.itemDies item ≠ [] →
      (let x := (s.panel.heard c n).writeItem (.ringService c) item
       exec (.hokuidWrite c n tag item) s = .next { s with panel := x.2.hokuidAnswer c n tag.toNat x.1 [] })) ∧
    (∀ (part : Partition) (request : BitVec 512),
      ∃ t, exec (.submit c n tag part request) s = .next t ∧ (t.panel.crown c).reqs = (s.panel.crown c).reqs ++
        [{ src := .session c n tag.toNat, part := some part.val, bytes := (s.panel.clampReq (leBytes 64 request.toNat)).1 }]) ∧
    (∀ start : Bool, ∃ t, exec (.maint c n tag start) s = .next t ∧ t.panel.maint = start ∧
      t.panel.out = .hokuid c n tag.toNat St.done [] :: s.panel.out) ∧
    (∀ (kind : Fin 6) (off : Nat) (payload : List Byte), kind.val ≠ 0 → payload.length ≤ 61440 → 64 ≤ off →
      off + payload.length ≤ itemArea kind → s.panel.powerFails = false →
      ∃ t, exec (.flashPut c n tag kind off payload) s = .next t ∧
        find t.panel.flash.put (putKey c kind) =
          some (putBytes (look [] s.panel.flash.put (putKey c kind)) (off - 64) payload) ∧
        OutRec.hokuid c n tag.toNat St.done [] ∈ t.panel.out) ∧
    (∀ (body : List Byte), s.panel.powerFails = false → find s.panel.flash.put (putKey c 5) = some body →
      ∃ t, exec (.flashCommit c n tag 5) s = .next t ∧ t.panel.flash.repair = repairMapAt body ∧
        t.panel.flash.repairGen = s.panel.flash.repairGen + 1) ∧
    (∀ (kind : Fin 6) (body : List Byte), kind.val ≤ 3 → s.panel.powerFails = false →
      find s.panel.flash.put (putKey c kind) = some body →
      ((s.panel.auths.any fun x => x.1 == kind.val && x.2 == sm3 body) → s.panel.verifiable c kind body →
        ∃ t f, exec (.flashCommit c n tag kind) s = .next t ∧ f.body = body ∧
          find t.panel.flash.copies (copyKey c kind (1 - s.panel.usedCopy c kind % 2)) = some f ∧
          (t.panel.auths.any fun x => x.1 == kind.val && x.2 == sm3 body) = false) ∧
      (s.panel.verifiable c kind body = false →
        ∃ t, exec (.flashCommit c n tag kind) s = .next t ∧ t.panel.flash = s.panel.flash ∧
          OutRec.hokuid c n tag.toNat St.notPermitted [] ∈ t.panel.out))) ∧
  (∀ (s : State) (c : Crown) (n : Fin 8) (tag : W32) (nonce : BitVec 256) (is : List Byte), s.panel.sessionOpen c n mayObserve →
    (s.panel.crown c).rngBad = false →
    ∃ t body, exec (.attest c n tag nonce is) s = .next t ∧ OutRec.hokuid c n tag.toNat St.done body ∈ t.panel.out ∧
      body.take 2 = [0x13, 0x60])

/-- Root commands complete (R475, R478, R481, R485–R489): one that every check passes takes its counter; a protection change is
held in order; credentials change unless that would leave no officer; a floor rises in the fuses of the crowns that are there; an
authorisation is held. One that a check refuses is answered with the check's status. -/
def Completion.RootCommandsComplete : Prop :=
  ∀ (s : State) (c : Crown) (n : Fin 8) (tag : W32) (b : List Byte), s.panel.sessionOpen c n mayCommand →
    (let p := (s.panel.heard c n).setSh Reg.MGMT_RCMD_CTR (cmdCtr b)
     ((s.panel.heard c n).cmdFault 1 b = none → s.panel.change = none → s.panel.rcmds = [] → s.panel.repair = none →
       ∃ t ch, exec (.protectionChange c n tag b) s = .next t ∧ t.panel.sh Reg.MGMT_RCMD_CTR = cmdCtr b ∧
        t.panel.change = some ch ∧ ch.cmd.items = cmdItems b ∧ ch.cmd.ctr = cmdCtr b ∧ ch.staged = false ∧ ch.drained = false ∧
        ch.cmd.at' = if cmdAt b = 0 then s.panel.dial + 2000000 else cmdAt b) ∧
     ((s.panel.heard c n).cmdFault 2 b = none →
       (let q := p.writeItems (cmdItems b)
        (q.officers ≠ [] → ∃ t, exec (.credentialChange c n tag b) s = .next t ∧
          t.panel.sh Reg.MGMT_RCMD_STAT = rcmdStat 4 0 St.done (cmdKind b) (cmdCtr b) ∧
          ∀ k i, k < 16 → i < 16 → t.panel.cred k i = q.cred k i) ∧
        (q.officers = [] → ∃ t, exec (.credentialChange c n tag b) s = .next t ∧
          t.panel.sh Reg.MGMT_RCMD_STAT = rcmdStat 5 0 St.notPermitted (cmdKind b) (cmdCtr b) ∧
          ∀ k i, k < 16 → i < 16 → t.panel.cred k i = s.panel.cred k i))) ∧
     ((s.panel.heard c n).cmdFault 3 b = none →
       (let kind := leAt b 64 1
        let v := leAt b 68 4
        (p.floorOk kind v → ∃ t, exec (.antiRollbackCommit c n tag b) s = .next t ∧
          ∀ d, look 0 t.panel.fuses.floors (8 * d.num + kind) =
            if (s.panel.crown d).lost then look 0 s.panel.fuses.floors (8 * d.num + kind) else v) ∧
        (p.floorOk kind v = false → ∃ t, exec (.antiRollbackCommit c n tag b) s = .next t ∧ t.panel.fuses = s.panel.fuses))) ∧
     ((s.panel.heard c n).cmdFault 4 b = none →
       ∃ t, exec (.updateAuthorisation c n tag b) s = .next t ∧
        t.panel.auths = s.panel.auths ++ [(leAt b 64 1, (b.drop 96).take 32)] ∧ t.panel.sh Reg.MGMT_RCMD_CTR = cmdCtr b) ∧
     (∀ order st, (s.panel.heard c n).cmdFault 3 b = some (order, st) →
       ∃ t, exec (.antiRollbackCommit c n tag b) s = .next t ∧ t.panel.fuses = s.panel.fuses ∧
        t.panel.sh Reg.MGMT_RCMD_CTR = s.panel.sh Reg.MGMT_RCMD_CTR ∧
        OutRec.hokuid c n tag.toNat st (leBytes 8 (s.panel.sh Reg.MGMT_RCMD_STAT)) ∈ t.panel.out))

/-- PROTECTION_STAGE_CHECK, PROTECTION_DRAIN_CHECK and PROTECTION_SWITCH complete (R485, R488): the change is staged by T − 1 ms and drained by
T − 100 µs, or T moves by 1 ms; at T every item is written, the command ends DONE, and the next begins. -/
def Completion.ProtectionStepsComplete : Prop :=
  ∀ (s : State) (ch : Change), s.panel.live → s.panel.change = some ch →
    (let p := s.panel
     (ch.staged = false → p.dial + 1000000 ≤ ch.cmd.at' →
       ∃ t, exec .protectionStageCheck s = .next t ∧ t.panel.change = some { ch with staged := true }) ∧
     (ch.staged = false → ch.cmd.at' < p.dial + 1000000 → ch.moves < 10 →
       ∃ t, exec .protectionStageCheck s = .next t ∧ t.panel.change =
        some { ch with moves := ch.moves + 1, cmd := { ch.cmd with at' := ch.cmd.at' + 1000000 } }) ∧
     (ch.drained = false → p.dial + 100000 ≤ ch.cmd.at' → (∀ i ∈ ch.cmd.items, ∀ d ∈ p.itemDies i, p.drainedAt i d) →
       ∃ t, exec .protectionDrainCheck s = .next t ∧ t.panel.change = some { ch with drained := true }) ∧
     (ch.staged → ch.drained → ch.cmd.at' ≤ p.dial →
       exec .protectionSwitch s = .next { s with panel := ((p.writeItems ch.cmd.items).endChange ch 4 St.done).nextChange }))

/-- The SPDM messages complete (R368, R472, R491): the request at the head is answered and leaves the queue; GET_VERSION begins negotiation
anew, NEGOTIATE_ALGORITHMS ends it, and the other requests are served after it; while the random source fails, every one
is refused. -/
def Completion.SpdmMessagesComplete : Prop :=
  ∀ (s : State) (r : SpdmRequest) (rest : List SpdmRequest), s.panel.live → s.panel.hostUp → s.panel.doeError = false →
    s.panel.doe = r :: rest →
    (let p := s.panel
     let answered (cmd : Instr) (good : List Byte → Prop) : Prop :=
       ∃ t body, exec cmd s = .next t ∧ t.panel.doe = rest ∧ t.panel.out = .spdm r body :: p.out ∧ good body
     let refused : List Byte → Prop := fun body => body.take 2 = [0x13, 0x7F]
     ((p.crown .north).rngBad = false →
       (r = .getVersion → ∃ t body, exec .getVersion s = .next t ∧ t.panel.doe = rest ∧ t.panel.spdmAlgos = false ∧
         t.panel.out = .spdm r body :: p.out ∧ body.drop 6 = [0x00, 0x13]) ∧
       (r = .getCapabilities → answered .getCapabilities fun body => (body.drop 8).take 4 = leBytes 4 0x16) ∧
       (r = .negotiateAlgorithms true true true true → ∃ t body, exec .negotiateAlgorithms s = .next t ∧ t.panel.doe = rest ∧
         t.panel.spdmAlgos ∧ t.panel.out = .spdm r body :: p.out) ∧
       (p.spdmAlgos →
         (r = .getDigests → answered .getDigests fun body => body.drop 4 = sm3 (Config.attestChain 0)) ∧
         (∀ off len, r = .getCertificate 0 off len → off < (Config.attestChain 0).length →
           answered .getCertificate fun body => body.drop 8 = ((Config.attestChain 0).drop off).take len) ∧
         (∀ nonce, r = .challenge 0 nonce → answered .challenge fun body => body.take 4 = [0x13, 0x03, 0, 0x01]) ∧
         (∀ nonce, r = .getMeasurements 0 nonce 0xFF → answered .getMeasurements fun body =>
           body.take 5 = [0x13, 0x60, 0, 0, BitVec.ofNat 8 (p.measured .north).length])) ∧
       (p.spdmAlgos = false → r = .getDigests → answered .getDigests refused)) ∧
     ((p.crown .north).rngBad → r = .getDigests → answered .getDigests refused))


/-! ### Frames of the cores -/

/-- The core that a command of a core's sequencer, engines, scratchpad or supervisor is given to, for the commands that act on
that core alone. -/
def Frame.oneCore : Instr → Option Nat
  | .nop n | .fence n | .dispatch n | .dmaStart n | .semRead n | .ldi n | .alu n | .loop n | .br n => some n
  | .semWait n | .semWaitTimeout n | .recv n | .recvTimeout n => some n
  | .mm n _ | .mv n _ | .accZero n _ | .accLoad n _ | .accStore n _ => some n
  | .emap n | .emapDescriptorRead n | .eprog n | .vload n | .vstore n | .tapPairStart n => some n
  | .rsum n | .rmax n | .rmin n | .argmax n | .topk n | .smpair n | .pmerge n => some n
  | .taskListCopyEnd n | .engineWake n | .meOpComplete n _ _ | .veOpComplete n _ | .ruOpComplete n => some n
  | .reshapeComplete n | .scrubWriteBack n | .throttleLevelEnd n _ | .droopStretch n _ => some n
  | .pause n | .resume n | .abort n | .drain n | .test n => some n
  | .reshapeSupplySettled n | .laneRepair n _ _ _ | .calibrationWindow n _ | .supplyRecovery n => some n
  | _ => none

/-- A task word, an operation of an engine, its completion, or a command to a core acts on its own core alone: no other core, no
hub, port die, crown, register or other state of the panel changes but the count of free values drawn. -/
def Obligations.CoreCommandsStayInTheCore : Prop :=
  ∀ (s t : State) (i : Instr) (n : Nat), Frame.oneCore i = some n → exec i s = .next t →
    t.pending = s.pending ∧ (∀ m, m ≠ n → t.panel.core m = s.panel.core m) ∧
    { t.panel with cores := s.panel.cores, free := s.panel.free } = s.panel

/-- The registers that the task word at the head writes when it issues under an opcode (R72, R74, R78, R81). -/
def Frame.dests (k : Core) (op : Nat) : List Nat :=
  match k.ready op with
  | none => []
  | some (t, w) =>
    t.loops.map (·.gi) ++
      (if op = Tw.ldi ∨ op = Tw.alu then [w.f 111 107]
      else if op = Tw.semRead then [w.f 103 99]
      else if op = Tw.loop then [w.f 62 58]
      else if op = Tw.semWait then [w.f 102 98]
      else if op = Tw.recv then w.f 102 98 :: (List.range (w.f 106 103)).map (w.f 111 107 + ·)
      else [])

/-- NOP, FENCE, DISPATCH, DMA_START, SEM_READ, LDI, ALU, LOOP, BR, SEM_WAIT and RECV, and the time-outs of the last two, change of
their core no register but their destination and the index of a loop whose body they end, no semaphore but the one that
SEM_WAIT consumes from, no message but the one that RECV takes, no byte of the scratchpad or of the vector registers, no tile
and no register of its blocks but the two of saturation (R67, R72, R74, R76, R78, R81). -/
def Obligations.TaskWordFrame : Prop :=
  ∀ (s t : State) (n : Site) (op : Nat) (c : Instr),
    (op, c) ∈ [(Tw.nop, Instr.nop n), (Tw.fence, .fence n), (Tw.dispatch, .dispatch n), (Tw.dmaStart, .dmaStart n),
      (Tw.semRead, .semRead n), (Tw.ldi, .ldi n), (Tw.alu, .alu n), (Tw.loop, .loop n), (Tw.br, .br n),
      (Tw.semWait, .semWait n), (Tw.semWait, .semWaitTimeout n), (Tw.recv, .recv n), (Tw.recv, .recvTimeout n)] →
    exec c s = .next t →
    (let k := s.panel.core n
     let k' := t.panel.core n
     (∀ i, i ∉ Frame.dests k op → k'.g i = k.g i) ∧
     (∀ i, (∀ x w, c = .semWait n → k.ready Tw.semWait = some (x, w) → w.f 103 103 = 1 → i ≠ w.f 111 104) → k'.sem i = k.sem i) ∧
     (c ≠ .recv n → k'.seq.inbox = k.seq.inbox) ∧ k'.seq.starts = k.seq.starts ∧ k'.seq.state = k.seq.state ∧
     k'.seq.remote = k.seq.remote ∧ k'.seq.reports = k.seq.reports ∧
     k'.spad = k.spad ∧ k'.ve.vregs = k.ve.vregs ∧ k'.ve.progs = k.ve.progs ∧ (∀ e, (k'.eng e).tiles = (k.eng e).tiles) ∧
     k'.rt = k.rt ∧ k'.arr = k.arr ∧ k'.log = k.log ∧
     ∀ off, off ≠ Reg.SEQ_SEM_SAT_CNT → (∀ i, i < 8 → off ≠ Reg.SEQ_SEM_SAT + 4 * i) → k'.rd off = k.rd off)

/-- A byte lies outside the codewords that byte ranges (start, length) touch. -/
def Frame.outside (ranges : List (Nat × Nat)) (a : Nat) : Prop :=
  ∀ x ∈ ranges, x.2 = 0 ∨ a / 32 < x.1 / 32 ∨ (x.1 + x.2 - 1) / 32 < a / 32

/-- MM, MV, ACC_ZERO, ACC_LOAD and ACC_STORE change of their core no word of a tile but the one that their operation names, no byte of the
scratchpad but in the codewords of the places that an ACC_STORE computes for its rows, no vector register, register of the
sequencer, semaphore or message (R105, R111, R113, R118). -/
def Obligations.MatrixEngineFrame : Prop :=
  ∀ (s t : State) (n : Site) (e : Fin 4) (c : Instr), c ∈ [Instr.mm n e, .mv n e, .accZero n e, .accLoad n e, .accStore n e] →
    exec c s = .next t →
    (let k := s.panel.core n
     let k' := t.panel.core n
     (∀ e' tile i j, tile < 4 → i < 64 → j < 128 → (e' = e.val → ∀ q, (k.eng e).queue.head? = some q → tile ≠ q.tile) →
       (k'.eng e').word tile i j = (k.eng e').word tile i j) ∧
     (c ≠ .accStore n e → k'.spad.mem = k.spad.mem) ∧
     (∀ a, (∀ q, (k.eng e).queue.head? = some q → Frame.outside q.storeRanges a) → k'.spad.mem.byte a = k.spad.mem.byte a) ∧
     k'.ve = k.ve ∧ k'.ru = k.ru ∧ k'.dma = k.dma ∧ k'.rt = k.rt ∧ k'.seq.g = k.seq.g ∧ k'.seq.sem = k.seq.sem ∧
     k'.seq.inbox = k.seq.inbox ∧ k'.seq.starts = k.seq.starts ∧ k'.seq.state = k.seq.state ∧
     k'.spad.awake = k.spad.awake ∧ k'.spad.staging = k.spad.staging)

/-- The bytes that an EMAP's descriptor gives its output streams in the scratchpad (R134, R137). -/
def Frame.mapRanges (d : MapDesc) (q : QOp) : List (Nat × Nat) :=
  [d.stream 4, d.stream 5].flatMap fun s =>
    if s.en && !s.reg then tileRanges (s.base (baseOff q.c)) s.stride (s.len d.cols) d.rows else []

/-- The bytes that an RU operation's results take (R144). -/
def Frame.ruRanges (q : QOp) : List (Nat × Nat) := [(baseOff q.c, q.ru.results * q.ru.resBytes)]

/-- EMAP, EMAP_DESCRIPTOR_READ, EPROG, VLOAD, VSTORE, TAP_PAIR_START and the reduction unit's operations change of their core no byte of the
scratchpad but in the codewords of the places that VSTORE, an RU operation, or a map's descriptor computes for its results; no
byte of the vector registers but those that VLOAD or a map's output streams name; no tile, register of the sequencer, semaphore
or message; and only EPROG changes programs (R126, R132, R134, R144, R148). -/
def Obligations.VectorAndReductionFrame : Prop :=
  ∀ (s t : State) (n : Site) (c : Instr),
    c ∈ [Instr.emap n, .emapDescriptorRead n, .eprog n, .vload n, .vstore n, .tapPairStart n, .rsum n, .rmax n, .rmin n,
      .argmax n, .topk n, .smpair n, .pmerge n] → exec c s = .next t →
    (let k := s.panel.core n
     let k' := t.panel.core n
     (c ∈ [Instr.emap n, .eprog n, .vload n, .tapPairStart n] → k'.spad.mem = k.spad.mem) ∧
     (c = .vstore n → ∀ a, (∀ q, k.ve.queue.head? = some q → Frame.outside [(baseOff q.c, 256 * (q.f 67 59 + 1))] a) →
       k'.spad.mem.byte a = k.spad.mem.byte a) ∧
     (c ∈ [Instr.rsum n, .rmax n, .rmin n, .argmax n, .topk n, .smpair n, .pmerge n] →
       ∀ a, (∀ q, k.ru.queue.head? = some q → Frame.outside (Frame.ruRanges q) a) → k'.spad.mem.byte a = k.spad.mem.byte a) ∧
     (c = .emapDescriptorRead n → ∀ a, (∀ m, k.ve.map = some m →
         (let x := Core.fetch (s.panel.at' n) Own.ve [baseOff m.q.a / 256] k
          let d : MapDesc := { words := (List.range 8).map fun i => Fetch.le x.1 (baseOff m.q.a + 8 * i) 8 }
          Frame.outside (Frame.mapRanges d m.q) a) ∧
         ∀ r, k.ru.run = some r → Frame.outside (Frame.ruRanges r.q) a) →
       k'.spad.mem.byte a = k.spad.mem.byte a) ∧
     (c = .vload n → ∀ i, (∀ q, k.ve.queue.head? = some q → i < 256 * q.f 75 68 ∨ 256 * q.f 75 68 + 256 * (q.f 67 59 + 1) ≤ i) →
       cellAt k'.ve.vregs i = cellAt k.ve.vregs i) ∧
     (c = .emapDescriptorRead n → ∀ i, (∀ m, k.ve.map = some m →
         (let x := Core.fetch (s.panel.at' n) Own.ve [baseOff m.q.a / 256] k
          let d : MapDesc := { words := (List.range 8).map fun i => Fetch.le x.1 (baseOff m.q.a + 8 * i) 8 }
          ∀ y ∈ d.regWrites, i < y.1 ∨ y.1 + y.2 ≤ i)) →
       cellAt k'.ve.vregs i = cellAt k.ve.vregs i) ∧
     (c ≠ .vload n → c ≠ .emapDescriptorRead n → k'.ve.vregs = k.ve.vregs) ∧ (c ≠ .eprog n → k'.ve.progs = k.ve.progs) ∧
     k'.me = k.me ∧ k'.dma = k.dma ∧ k'.rt = k.rt ∧ k'.seq.g = k.seq.g ∧ k'.seq.sem = k.seq.sem ∧
     k'.seq.inbox = k.seq.inbox ∧ k'.seq.starts = k.seq.starts ∧ k'.seq.state = k.seq.state)


/-! ### Frames of the hubs -/

/-- What hub commands leave as it was. HUB_WRITE_BACK, HUB_PATROL, HUB_TEMP_READ, HBM_REFRESH, HUB_HEARTBEAT and HUB_RING_CODEWORD change nothing of
the panel but hubs, and of the memories of the stacks only the granule or the codeword that they store. HUB_COPY, HUB_ZERO, HUB_DIGEST,
HUB_SCRUB and HUB_CMD_COMPLETE change no other hub's memory, in their own only the codewords of the destination, of the scrubbed
range or of word 7, and of a core neither scratchpad, engines nor sequencer (R292, R299, R301–R305). -/
def Obligations.HubFrame : Prop :=
  (∀ (s t : State) (h : HubIx) (c : Instr) (pc : Fin 64) (celsius : Nat) (clockwise own : Bool),
    c ∈ [Instr.hubWriteBack h, .hubPatrol h, .hubTempRead h celsius, .hbmRefresh h pc, .hubHeartbeat h, .hubRingCodeword h clockwise own] →
    exec c s = .next t →
    { t.panel with hubs := s.panel.hubs } = s.panel ∧
    (∀ m, m ≠ h.val → (t.panel.hub m).mem = (s.panel.hub m).mem) ∧
    (c ∈ [Instr.hubPatrol h, .hubTempRead h celsius, .hbmRefresh h pc, .hubHeartbeat h] →
      (t.panel.hub h).mem = (s.panel.hub h).mem) ∧
    (c = .hubWriteBack h → ∀ a, (s.panel.hub h).wbq.head? ≠ some (a / 256) →
      (t.panel.hub h).mem.byte a = (s.panel.hub h).mem.byte a) ∧
    (c = .hubRingCodeword h clockwise own →
      ∀ a, (own = false → ∀ x, ((s.panel.hub h).ringIn clockwise).head? = some x → x.ack ∨ x.dst ≠ h.val ∨ a / 32 ≠ x.index) →
        (t.panel.hub h).mem.byte a = (s.panel.hub h).mem.byte a)) ∧
  (∀ (s t : State) (h : HubIx) (c : Instr) (slot : Fin 4),
    c ∈ [Instr.hubCopy h, .hubZero h, .hubDigest h, .hubScrub h, .hubCmdComplete h slot] → exec c s = .next t →
    t.panel.crowns = s.panel.crowns ∧ t.panel.sites = s.panel.sites ∧
    (∀ m, m ≠ h.val → (t.panel.hub m).mem = (s.panel.hub m).mem) ∧
    (∀ m, (t.panel.core m).spad = (s.panel.core m).spad ∧ (t.panel.core m).seq = (s.panel.core m).seq ∧
      (t.panel.core m).me = (s.panel.core m).me ∧ (t.panel.core m).ve = (s.panel.core m).ve ∧
      (t.panel.core m).ru = (s.panel.core m).ru ∧ (t.panel.core m).dma = (s.panel.core m).dma) ∧
    (c ≠ .hubCmdComplete h slot → (∀ x ∈ (s.panel.hub h).run, x.2.sent ∧ x.2.way ≠ 3) → ∀ a,
      (∀ place k r, (s.panel.hub h).nextCmd = some (place, k) → s.panel.cmdCheck h k = .ok r →
        (∀ q, r.dst = some (h.val, q) → Frame.outside [(q, if k.op = Hc.digest then 32 else k.length)] a) ∧
        (∀ o, k.op = Hc.scrub → r.src = some (h.val, o) → a / 256 < o / 256 ∨ (o + k.length - 1) / 256 < a / 256)) →
      (t.panel.hub h).mem.byte a = (s.panel.hub h).mem.byte a) ∧
    (c = .hubCmdComplete h slot → ∀ a,
      (∀ k o, find (s.panel.hub h).run slot = some k → s.panel.decodeGA (k.ptr + 56) = .ok (.hbm h o) → Frame.outside [(o, 8)] a) →
      (t.panel.hub h).mem.byte a = (s.panel.hub h).mem.byte a))


/-! ### Frames of the outside: host, management, clocks, groups -/

/-- Writes of queue-set registers and doorbells, and the end of a disable. -/
def Frame.queues : Instr → Bool
  | .queueSetEnable .. | .queueSetDisable .. | .sqTailDoorbell .. | .rcqHeadDoorbell .. | .tcqHeadDoorbell ..
  | .doorbellRelease .. | .queueDisableDone .. => true
  | _ => false

/-- The fetch of queue entries, and what is posted to host memory. -/
def Frame.fetches : Instr → Bool
  | .sqFetch .. | .hostNop .. | .requestCompletionWrite .. | .interruptDelayExpire .. => true
  | _ => false

/-- Accesses to BAR4, the end of one, and the clearing of a function error. -/
def Frame.bar4 : Instr → Bool
  | .bar4Read .. | .bar4Write .. | .bar4ReadTimeout .. | .hostFnErrClr .. => true
  | _ => false

/-- DOE objects and the SPDM messages in them. -/
def Frame.doe : Instr → Bool
  | .doeRequest .. | .doeAbort | .getVersion | .getCapabilities | .negotiateAlgorithms | .getDigests | .getCertificate
  | .challenge | .getMeasurements => true
  | _ => false

/-- QUEUE_SET_ENABLE, QUEUE_SET_DISABLE, the doorbells, DOORBELL_RELEASE, QUEUE_DISABLE_DONE, SQ_FETCH, HOST_NOP, REQUEST_COMPLETION_WRITE,
INTERRUPT_DELAY_EXPIRE, BAR4 accesses, HOST_FN_ERR_CLR, DOE_REQUEST, DOE_ABORT and the SPDM messages change queue sets, host functions, the crowns'
own state, what the panel sends and the DOE mailbox alone: no core, hub or port die, no memory, no site, model, fuse or flash
(R351, R356–R369, R491). -/
def Obligations.HostFrame : Prop :=
  ∀ (s t : State) (c : Instr), exec c s = .next t →
    (Frame.queues c →
      { t.panel with crowns := s.panel.crowns, fns := s.panel.fns, qsets := s.panel.qsets } = s.panel) ∧
    (Frame.fetches c →
      { t.panel with crowns := s.panel.crowns, qsets := s.panel.qsets, out := s.panel.out } = s.panel) ∧
    (Frame.bar4 c →
      { t.panel with crowns := s.panel.crowns, fns := s.panel.fns, out := s.panel.out, shared := s.panel.shared } = s.panel) ∧
    (Frame.doe c →
      { t.panel with doe := s.panel.doe, doeError := s.panel.doeError, spdmAlgos := s.panel.spdmAlgos, free := s.panel.free, randoms := s.panel.randoms, out := s.panel.out } = s.panel)

/-- Sessions, the service firmware and the random source. -/
def Frame.service : Instr → Bool
  | .ringBreak .. | .serviceReport .. | .rngHealthFail .. | .rngHealthPass .. | .sessionAccept ..
  | .sessionIdleClose .. | .submit .. | .attest .. | .maint .. => true
  | _ => false

/-- Writes of the flash and their authorisation. -/
def Frame.flashing : Instr → Bool
  | .updateAuthorisation .. | .flashPut .. | .flashCommit .. | .serviceFirmwareUpdate .. => true
  | _ => false

/-- Clock-tree supervision, energy and ramp metering, and coolant. -/
def Frame.meters : Instr → Bool
  | .referenceLoss .. | .escapementLock .. | .treeLossFatal | .energyTick .. | .energyTenantUpdate | .rampGrant ..
  | .flowPulse | .thermistorRead .. | .coolantEvaluation | .shedLift => true
  | _ => false

/-- Sessions, service reports and flash writes change crowns, flash and what the panel sends alone; the supervision of the clock tree, energy,
the ramp governor and coolant change the crown registers and the panel's meters alone: neither changes a core, hub or port die,
a memory, a queue set or a fuse (R374–R382, R410–R419, R428–R432, R464–R481, R489). -/
def Obligations.ManagementAndMeterFrame : Prop :=
  ∀ (s t : State) (c : Instr), exec c s = .next t →
    (Frame.service c →
      { t.panel with crowns := s.panel.crowns, randoms := s.panel.randoms, maint := s.panel.maint, out := s.panel.out } = s.panel) ∧
    (Frame.flashing c →
      { t.panel with crowns := s.panel.crowns, flash := s.panel.flash, auths := s.panel.auths, free := s.panel.free, shared := s.panel.shared, out := s.panel.out } = s.panel) ∧
    (Frame.meters c →
      { t.panel with crowns := s.panel.crowns, pow := s.panel.pow, shared := s.panel.shared, fatal := s.panel.fatal, shedding := s.panel.shedding, out := s.panel.out } = s.panel)

/-- Training and beacons of ports, and the goodput counters. -/
def Frame.links : Instr → Bool
  | .portRetrain .. | .initSend .. | .init .. | .beaconSend .. | .pfcRepeat .. | .goodputTick .. => true
  | _ => false

/-- Group messages, seen masks and beacons. -/
def Frame.groups : Instr → Bool
  | .beacon .. | .seenMaskReceive .. | .groupFence .. | .groupUnfence .. | .groupExpel .. | .groupTakeover ..
  | .groupMessageResend .. | .groupAdopt .. | .managerTakeover .. => true
  | _ => false

/-- Heartbeats of cores and agents. -/
def Frame.agents : Instr → Bool
  | .coreLossDetect .. | .regionSummary .. | .agentLossDetect .. | .agentAppoint .. => true
  | _ => false

/-- Messages and reports of steps, and forecasts. -/
def Frame.reports : Instr → Bool
  | .mirrorAck .. | .tokenRecordMessage .. | .fabricRecordResend .. | .stepReport .. | .stepCommand ..
  | .forecastPost .. => true
  | _ => false

/-- Training, beacons and group messages change ports, crowns and queue sets alone; the detection of losses and the appointment of agents
change those records alone; reports and forecasts change the crowns, their counters and the queue sets: none changes a core, a
hub, a memory, a site, a fuse or the flash (R43–R46, R62, R276, R282, R312, R340–R346). -/
def Obligations.GroupAndAgentFrame : Prop :=
  ∀ (s t : State) (c : Instr), exec c s = .next t →
    (Frame.links c →
      { t.panel with ports := s.panel.ports, goodputAt := s.panel.goodputAt, out := s.panel.out } = s.panel) ∧
    (Frame.groups c →
      { t.panel with crowns := s.panel.crowns, ports := s.panel.ports, qsets := s.panel.qsets, adopting := s.panel.adopting, awaited := s.panel.awaited } = s.panel) ∧
    (Frame.agents c →
      { t.panel with crowns := s.panel.crowns, losses := s.panel.losses, agents := s.panel.agents, elections := s.panel.elections, summaryAt := s.panel.summaryAt, namedAt := s.panel.namedAt } = s.panel) ∧
    (Frame.reports c →
      { t.panel with crowns := s.panel.crowns, ports := s.panel.ports, qsets := s.panel.qsets, models := s.panel.models, shared := s.panel.shared } = s.panel)



/-! ### The machine as a whole -/

/-- A step performs the command at the front of the queue with the queue's rest. -/
def Obligations.StepRunsTheHeadCommand : Prop :=
  ∀ (s : State) (c : Instr) (rest : List Instr), step { s with pending := c :: rest } = exec c { s with pending := rest }

/-- On an empty queue a step is a nanosecond in which nothing is commanded (the model's choice, notes/assumptions/5.md): dial time stands until
the dial mark, counts on by one modulo 2^64 when no backward correction is owed, and else counts on once in two steps, absorbing one
count of the correction; nothing else changes but the counters that R494 takes at a boundary of 100 ms. -/
def Obligations.EmptyQueueIdles : Prop :=
  ∀ s : State, s.pending = [] → ∃ t, step s = .next t ∧ t.pending = [] ∧
    { t.panel with dial := s.panel.dial, clkOwed := s.panel.clkOwed, clkHalf := s.panel.clkHalf, cores := s.panel.cores } = s.panel ∧
    (∀ n, { t.panel.core n with snap := (s.panel.core n).snap } = s.panel.core n) ∧
    (s.panel.dialRuns = false → t = s) ∧
    (s.panel.dialRuns → s.panel.clkOwed = 0 → t.panel.dial = (s.panel.dial + 1) % 2 ^ 64 ∧ t.panel.clkOwed = 0) ∧
    (s.panel.dialRuns → s.panel.clkOwed ≠ 0 → s.panel.clkHalf = false → t.panel.dial = s.panel.dial ∧ t.panel.clkHalf) ∧
    (s.panel.dialRuns → s.panel.clkOwed ≠ 0 → s.panel.clkHalf →
      t.panel.dial = (s.panel.dial + 1) % 2 ^ 64 ∧ t.panel.clkOwed = s.panel.clkOwed - 1 ∧ t.panel.clkHalf = false)

/-- The state after panel reset (R61, R87, R162, R178, R243, R283, R309, R348, R398): every core in TEST, unpowered, without task, message or
semaphore value; registers at the reset values of their maps; no command waits; and the invariants of memories, of g0 and of the
fuses hold. -/
def Obligations.ResetState : Prop :=
  State.reset.pending = [] ∧ State.reset.queueOk ∧ State.reset.panel.memOk ∧ State.reset.panel.g0Ok ∧ State.reset.panel.fuses.legal ∧
  (∀ n, n < 336 →
    (let k := State.reset.panel.core n
     k.seq.state = .test ∧ k.powered = false ∧ k.seq.task = none ∧ k.seq.starts = [] ∧ k.seq.inbox = [] ∧
     (∀ i, k.g i = 0) ∧ (∀ i, k.sem i = 0) ∧ (∀ a, k.spad.mem.byte a = 0) ∧
     k.rd Reg.CORE_STATE = 1 ∧ k.rd Reg.CORE_PART = 0 ∧ k.rd Reg.SPAD_GRP_PWR = 0xFFFF ∧ k.rd Reg.SPAD_SCRUB_CFG = 0x80000E10 ∧
     k.rd Reg.SPAD_PLAN = 0x76543210 ∧ k.rd Reg.SPAD_PLAN_CTL = 0x80000007 ∧ k.rd Reg.MESH_RED_CFG = 0x80000064 ∧
     k.rd Reg.DMA_CFG = 1000 ∧ k.rd Reg.PWR_GATE_CFG = 1000 ∧ k.rd Reg.SEQ_FAULT = 0 ∧ k.rd Reg.CLK_CAP = 0xB2C02C)) ∧
  (∀ h, h < 24 → (State.reset.panel.hub h).rd Reg.HUB_SCRUB_CFG = 0x80001518 ∧ (State.reset.panel.hub h).rd Reg.HUB_BAND = 0) ∧
  (∀ d, d < 8 → (State.reset.panel.port d).rd Reg.PORT_DEVNUM = 0 ∧ (State.reset.panel.port d).rd Reg.PORT_CFG = 0x70004C8 ∧
    ∀ g, g < 64 → (State.reset.panel.port d).rd (Reg.PORT_DEVRT + 4 * g) = 0xFFFF) ∧
  (∀ c, (State.reset.panel.crown c).rd Reg.CTX_CFG = 0xA6400) ∧
  State.reset.panel.sh Reg.CLK_SP = 0x8000022 ∧ State.reset.panel.sh Reg.PWR_CAP = 1400 ∧ State.reset.panel.dial = 0

/-- No command changes the queue, no command is refused, and every well-formed command goes on to a next state. The one stop is an SQ_FETCH of
more than 32 entries, which no read of R365 brings. -/
def Obligations.CommandsGoOn : Prop :=
  (∀ (s t : State) (c : Instr), exec c s = .next t → t.pending = s.pending) ∧
  (∀ (s : State) (c : Instr), c.wf → ∃ t, exec c s = .next t) ∧
  (∀ (s : State) (c : Instr) (r : Refusal), exec c s ≠ .refused r) ∧
  (∀ (s : State) (c : Instr) (f : Fault), exec c s = .fault f → ∃ q es, c = .sqFetch q es ∧ 32 < es.length)

/-- A queue of well-formed commands runs to its end, whatever state it is given in: each step takes the oldest command and leaves the rest
waiting in order, and no step stops. -/
def Obligations.QueuesRunToTheEnd : Prop :=
  (∀ (s t : State), s.queueOk → Goes s t → t.queueOk ∧ t.pending = s.pending.tail) ∧
  (∀ s : State, s.queueOk → Safe s ∧ ∃ t, Runs s t ∧ t.pending = [] ∧ t.queueOk)

/-- Every step keeps the memories of the panel in their canonical form, and g0 of every core unlisted, so that it reads as zero (R67, R153, R290). -/
def Obligations.StepsKeepMemoriesCanonical : Prop :=
  ∀ s t : State, Goes s t → (s.panel.memOk → t.panel.memOk) ∧ (s.panel.g0Ok → t.panel.g0Ok)

/-- Fuses change in the field only as R451 and R475 allow: a step keeps a legal fuse map legal, no anti-rollback floor ever falls and nothing else of
the map changes, and only ANTI_ROLLBACK_COMMIT at the front of the queue changes it at all. -/
def Obligations.FusesOnlyRise : Prop :=
  ∀ s t : State, Goes s t →
    (s.panel.fuses.legal → t.panel.fuses.legal) ∧ s.panel.fuses.grows t.panel.fuses ∧
    ((∀ c n tag b rest, s.pending ≠ .antiRollbackCommit c n tag b :: rest) → t.panel.fuses = s.panel.fuses)


/-! ### Rules of task words, plans and descriptors -/

/-- R81: RECV takes the oldest message; the words of its payload go in order into the registers from gfirst on, a register past the payload's end
receives zero, no register past `count` is written, and gd, written last, shows the status DONE and the full length. -/
def Obligations.RecvTakesTheOldestMessage : Prop :=
  ∀ (s : State) (n : Site) (k : Task) (w : TaskWord) (m : InboxMsg) (ms : List InboxMsg), s.panel.live →
    (s.panel.core n).clocked → (s.panel.core n).ready Tw.recv = some (k, w) → k.midBody → (s.panel.core n).seq.inbox = m :: ms →
    m.payload.length < 256 →
    (let first := w.f 111 107
     let count := w.f 106 103
     let gd := w.f 102 98
     ∃ t, exec (.recv n) s = .next t ∧ (t.panel.core n).seq.inbox = ms ∧
      (∀ i, i < count → first + i ≠ 0 → first + i ≠ gd →
        (t.panel.core n).g (first + i) =
          if 8 * i < m.payload.length then BitVec.ofNat 64 (leNat ((m.payload.drop (8 * i)).take 8)) else 0) ∧
      (∀ j, j < first ∨ first + count ≤ j → j ≠ gd → (t.panel.core n).g j = (s.panel.core n).g j) ∧
      (gd ≠ 0 → ((t.panel.core n).g gd).toNat % 256 = St.done ∧
        ((t.panel.core n).g gd).toNat / 256 % 256 = m.payload.length))

/-- R163: TASK_START copies the plan that the start entry names, when it is valid, and else plan 0, which is counted in SPAD_PLAN_MISS_CNT; the
slots of the running task come from the copy, whatever is written to the plan registers later; the task's report status is not
affected. -/
def Obligations.TaskStartCopiesThePlan : Prop :=
  ∀ (s : State) (n : Site) (e : StartEntry) (rest : List StartEntry), s.panel.live → (s.panel.core n).clocked →
    (s.panel.core n).seq.starts = e :: rest → (s.panel.core n).seq.state = .idle → (s.panel.core n).seq.gated = false →
    (s.panel.core n).spad.reshape = none →
    ∃ t k, exec (.taskStart n) s = .next t ∧ (t.panel.core n).seq.task = some k ∧ k.entry = e ∧ k.status = none ∧
      (let ctl := (s.panel.core n).rd (Reg.SPAD_PLAN_CTL + 4 * e.plan)
       (ctl.testBit 31 → k.plan.toNat = (s.panel.core n).rd (Reg.SPAD_PLAN + 8 * e.plan) ∧ k.planLen = ctl % 16 ∧
        (t.panel.core n).rd Reg.SPAD_PLAN_MISS_CNT = (s.panel.core n).rd Reg.SPAD_PLAN_MISS_CNT) ∧
       (ctl.testBit 31 = false → k.plan.toNat = 0x76543210 ∧ k.planLen = 7 ∧
        (t.panel.core n).rd Reg.SPAD_PLAN_MISS_CNT = min cntTop ((s.panel.core n).rd Reg.SPAD_PLAN_MISS_CNT + 1))) ∧
      ∀ (regs : RegFile) (code : Nat), ({ t.panel.core n with regs := regs } : Core).slots code = (t.panel.core n).slots code

/-- R225: a descriptor that completes with a status other than DONE and DONE_CORRECTED is counted in DMA_ERR_CNT, sets the status of the running
task when none is set, and the task continues. -/
def Obligations.FailedDescriptorSetsTheStatus : Prop :=
  ∀ (s : State) (n : Site) (ch : Fin 4) (d : DescRun) (rest : List DescRun), s.panel.live → (s.panel.core n).clocked →
    ((s.panel.core n).ch ch).waiting = d :: rest → ((s.panel.core n).ch ch).over d → d.faulted = false → St.ok d.status = false →
    ∃ t, exec (.dmaDescriptorComplete n ch) s = .next t ∧ ((t.panel.core n).ch ch).waiting = rest ∧
      (t.panel.core n).rd Reg.DMA_ERR_CNT = min cntTop ((s.panel.core n).rd Reg.DMA_ERR_CNT + 1) ∧
      (t.panel.core n).seq.state = (s.panel.core n).seq.state ∧
      (t.panel.core n).seq.task = (s.panel.core n).seq.task.map fun k =>
        { k with status := if k.status.isNone then some d.status else k.status }

/-! ### Completion: what the commands of each family do where they complete -/

/-- Register accesses complete: writes, wrong widths, RC counters and halves of 64-bit registers:
`Completion.RegisterAccessesComplete`, `Completion.HighHalfReadsTheLatch`. -/
def Obligations.RegisterAccesses : Prop :=
  Completion.RegisterAccessesComplete ∧ Completion.HighHalfReadsTheLatch

/-- PAUSE, RESUME, ABORT, DRAIN and TEST act as R61 says in the states that it allows, and are ignored elsewhere:
`Completion.CoreCommandsComplete`, `Completion.CoreCommandIgnored`, `Completion.AbortAndDrainComplete`. -/
def Obligations.CoreCommands : Prop :=
  Completion.CoreCommandsComplete ∧ Completion.CoreCommandIgnored ∧ Completion.AbortAndDrainComplete

/-- Heartbeats, region agents and engine gating complete at their times: `Completion.HeartbeatsComplete`,
`Completion.AgentComesFirst`, `Completion.EngineGatingCompletes`. -/
def Obligations.HeartbeatsAndGating : Prop :=
  Completion.HeartbeatsComplete ∧ Completion.AgentComesFirst ∧ Completion.EngineGatingCompletes

/-- START, task start, END and task faults complete, and a START that fails a check is refused:
`Completion.TaskStartCompletes`, `Completion.StartRefused`, `Completion.TaskEndCompletes`. -/
def Obligations.TaskStartAndEnd : Prop :=
  Completion.TaskStartCompletes ∧ Completion.StartRefused ∧ Completion.TaskEndCompletes

/-- DISPATCH, DMA_START, SEM_WAIT and RECV complete: `Completion.DispatchCompletes`, `Completion.WaitsComplete`. -/
def Obligations.DispatchAndWaits : Prop :=
  Completion.DispatchCompletes ∧ Completion.WaitsComplete

/-- The register words and the words that send over the mesh complete: `Completion.RegisterWordsComplete`,
`Completion.RemoteWordsComplete`. -/
def Obligations.RegisterAndRemoteWords : Prop :=
  Completion.RegisterWordsComplete ∧ Completion.RemoteWordsComplete

/-- LOOP and BR complete, and the last word of a body goes back while iterations remain: `Completion.LoopGoesBack`,
`Completion.ControlWordsComplete`. -/
def Obligations.LoopsAndBranches : Prop :=
  Completion.LoopGoesBack ∧ Completion.ControlWordsComplete

/-- Packets that arrive at a core are staged, signalled, received or matched to their requests:
`Completion.ArrivalsAreStaged`, `Completion.SignalsAndMessagesArrive`, `Completion.AnswersArrive`. -/
def Obligations.PacketsArriveAtCores : Prop :=
  Completion.ArrivalsAreStaged ∧ Completion.SignalsAndMessagesArrive ∧ Completion.AnswersArrive

/-- Staged rows, reshape and scrubbing complete at the scratchpad: `Completion.StagedRowsArePerformed`,
`Completion.ReshapeCompletes`, `Completion.ScrubbingCompletes`. -/
def Obligations.ScratchpadWork : Prop :=
  Completion.StagedRowsArePerformed ∧ Completion.ReshapeCompletes ∧ Completion.ScrubbingCompletes

/-- DMA descriptors are read, start, issue pieces, time out and complete: `Completion.DescriptorsStart`,
`Completion.FillPieceCompletes`, `Completion.DescriptorsEnd`. -/
def Obligations.DmaDescriptors : Prop :=
  Completion.DescriptorsStart ∧ Completion.FillPieceCompletes ∧ Completion.DescriptorsEnd

/-- MM, MV, ACC_ZERO, ACC_LOAD and ACC_STORE complete with the values of their rules:
`Completion.MatrixMultiplyCompletes`, `Completion.TileLoadsComplete`, `Completion.TileStoreCompletes`. -/
def Obligations.MatrixOperations : Prop :=
  Completion.MatrixMultiplyCompletes ∧ Completion.TileLoadsComplete ∧ Completion.TileStoreCompletes

/-- EMAP, its descriptor read, EPROG, VLOAD and VSTORE complete: `Completion.VectorMapsComplete`,
`Completion.VectorTransfersComplete`. -/
def Obligations.VectorOperations : Prop :=
  Completion.VectorMapsComplete ∧ Completion.VectorTransfersComplete

/-- Engine operations end counted and signalled, and the reduction unit reduces rows of the scratchpad:
`Completion.MatrixOperationsEnd`, `Completion.VectorOperationsEnd`, `Completion.ReductionUnitPairsAndEnds`,
`Completion.ReductionsComplete`. -/
def Obligations.EngineOperationsEnd : Prop :=
  Completion.MatrixOperationsEnd ∧ Completion.VectorOperationsEnd ∧ Completion.ReductionUnitPairsAndEnds ∧ Completion.ReductionsComplete

/-- Flits and packets hop, and contributions meet in the mesh: `Completion.PacketsHop`, `Completion.ReductionsInTheMesh`. -/
def Obligations.MeshTraffic : Prop :=
  Completion.PacketsHop ∧ Completion.ReductionsInTheMesh

/-- Reduction entries, throttles, links, lane repair and the route map: `Completion.MeshRegistersComplete`,
`Completion.LinksAndMapsComplete`. -/
def Obligations.MeshRegistersAndLinks : Prop :=
  Completion.MeshRegistersComplete ∧ Completion.LinksAndMapsComplete

/-- Window entries and the registers of the context engine take legal values and count illegal ones:
`Completion.WindowWritesComplete`, `Completion.ContextRegistersComplete`. -/
def Obligations.WindowAndContextRegisters : Prop :=
  Completion.WindowWritesComplete ∧ Completion.ContextRegistersComplete

/-- LOAD_BEGIN, LOAD_COMMIT, UNLOAD and the steps of a load complete: `Completion.LoadRequestsComplete`,
`Completion.LoadsComplete`. -/
def Obligations.ModelLoading : Prop :=
  Completion.LoadRequestsComplete ∧ Completion.LoadsComplete

/-- ADMIT, CANCEL, engine messages, swap-in and page-in complete: `Completion.AdmissionsComplete`,
`Completion.MessagesSwapsAndPagesComplete`. -/
def Obligations.ContextAdmission : Prop :=
  Completion.AdmissionsComplete ∧ Completion.MessagesSwapsAndPagesComplete

/-- Step commands, reports, mirrors, records and the members of a group: `Completion.GroupStepsComplete`,
`Completion.GroupControlCompletes`. -/
def Obligations.GroupSteps : Prop :=
  Completion.GroupStepsComplete ∧ Completion.GroupControlCompletes

/-- Requests at a hub, write-backs, patrol, temperature and refresh complete: `Completion.HubRequestsComplete`,
`Completion.HubCareCompletes`. -/
def Obligations.HubRequestsAndCare : Prop :=
  Completion.HubRequestsComplete ∧ Completion.HubCareCompletes

/-- Hub registers, heartbeats, losses and hub commands complete: `Completion.HubStateCommandsComplete`,
`Completion.HubCommandsComplete`, `Completion.HubCommandsEnd`. -/
def Obligations.HubCommands : Prop :=
  Completion.HubStateCommandsComplete ∧ Completion.HubCommandsComplete ∧ Completion.HubCommandsEnd

/-- Fabric ports train, exchange frames and replay them: `Completion.PortLinksComplete`, `Completion.PortFramesComplete`. -/
def Obligations.FabricPorts : Prop :=
  Completion.PortLinksComplete ∧ Completion.PortFramesComplete

/-- Ethernet frames, pauses, beacons, remote packets and port registers: `Completion.PortEventsComplete`,
`Completion.RemotePacketsComplete`, `Completion.PortRegistersComplete`. -/
def Obligations.PortEventsAndRegisters : Prop :=
  Completion.PortEventsComplete ∧ Completion.RemotePacketsComplete ∧ Completion.PortRegistersComplete

/-- Queue sets, doorbells, fetches, completions and interrupts: `Completion.QueueSetsComplete`,
`Completion.HostQueuesComplete`. -/
def Obligations.HostQueueSets : Prop :=
  Completion.QueueSetsComplete ∧ Completion.HostQueuesComplete

/-- BAR4 accesses, host registers, DOE and the resets of the host: `Completion.BarAccessesComplete`,
`Completion.HostRegistersComplete`, `Completion.HostResetsComplete`. -/
def Obligations.HostPort : Prop :=
  Completion.BarAccessesComplete ∧ Completion.HostRegistersComplete ∧ Completion.HostResetsComplete

/-- Escapements, dial time and the clocks of the cores: `Completion.EscapementsComplete`, `Completion.CoreClocksComplete`. -/
def Obligations.ClockTree : Prop :=
  Completion.EscapementsComplete ∧ Completion.CoreClocksComplete

/-- Supplies, converters, telemetry and energy: `Completion.SuppliesComplete`, `Completion.TelemetryCompletes`. -/
def Obligations.SuppliesAndTelemetry : Prop :=
  Completion.SuppliesComplete ∧ Completion.TelemetryCompletes

/-- Regions are powered on and off, and the ramp governor grants power: `Completion.RegionPowerCompletes`,
`Completion.RampGovernorCompletes`. -/
def Obligations.RegionPowerAndRamp : Prop :=
  Completion.RegionPowerCompletes ∧ Completion.RampGovernorCompletes

/-- Site and die temperatures, lehr mode and coolant: `Completion.SiteTemperaturesComplete`,
`Completion.DieTemperaturesComplete`, `Completion.CoolantCompletes`. -/
def Obligations.Temperatures : Prop :=
  Completion.SiteTemperaturesComplete ∧ Completion.DieTemperaturesComplete ∧ Completion.CoolantCompletes

/-- Starts, boot stages and their commands: `Completion.StartsComplete`, `Completion.BootCommandsComplete`. -/
def Obligations.StartUp : Prop :=
  Completion.StartsComplete ∧ Completion.BootCommandsComplete

/-- Repairs, retraining, vacates and tests: `Completion.RepairsComplete`, `Completion.TestsComplete`. -/
def Obligations.RepairsAndTests : Prop :=
  Completion.RepairsComplete ∧ Completion.TestsComplete

/-- Error logs, table entries, the management ring and the service firmware: `Completion.ErrorsComplete`,
`Completion.RingAndServiceComplete`. -/
def Obligations.ErrorsAndService : Prop :=
  Completion.ErrorsComplete ∧ Completion.RingAndServiceComplete

/-- Hokuid sessions, their messages and the SPDM messages: `Completion.SessionsComplete`,
`Completion.SpdmMessagesComplete`. -/
def Obligations.SessionsAndSpdm : Prop :=
  Completion.SessionsComplete ∧ Completion.SpdmMessagesComplete

/-- Root commands and the steps of a protection change: `Completion.RootCommandsComplete`,
`Completion.ProtectionStepsComplete`. -/
def Obligations.RootCommands : Prop :=
  Completion.RootCommandsComplete ∧ Completion.ProtectionStepsComplete
end

