-- ==== Sys2Proof/Laws/State.lean ====
section
/-! SUPPORT. What each update of the panel leaves in each of its principal fields: one lemma per field per update, each
true by definition and tagged for simp, so that no later proof unfolds a record update. The updates of one register of a
core follow. -/

namespace Sys2Proof.Machine

variable (p : Panel)

/-! ### setCore -/

@[simp] theorem Panel.setCore_fuses (n : Nat) (k : Core) : (p.setCore n k).fuses = p.fuses := rfl
@[simp] theorem Panel.setCore_dial (n : Nat) (k : Core) : (p.setCore n k).dial = p.dial := rfl
@[simp] theorem Panel.setCore_dialRuns (n : Nat) (k : Core) : (p.setCore n k).dialRuns = p.dialRuns := rfl
@[simp] theorem Panel.setCore_free (n : Nat) (k : Core) : (p.setCore n k).free = p.free := rfl
@[simp] theorem Panel.setCore_out (n : Nat) (k : Core) : (p.setCore n k).out = p.out := rfl
@[simp] theorem Panel.setCore_cores (n : Nat) (k : Core) : (p.setCore n k).cores = put p.cores n k := rfl
@[simp] theorem Panel.setCore_hubs (n : Nat) (k : Core) : (p.setCore n k).hubs = p.hubs := rfl
@[simp] theorem Panel.setCore_ports (n : Nat) (k : Core) : (p.setCore n k).ports = p.ports := rfl
@[simp] theorem Panel.setCore_crowns (n : Nat) (k : Core) : (p.setCore n k).crowns = p.crowns := rfl
@[simp] theorem Panel.setCore_shared (n : Nat) (k : Core) : (p.setCore n k).shared = p.shared := rfl
@[simp] theorem Panel.setCore_sites (n : Nat) (k : Core) : (p.setCore n k).sites = p.sites := rfl
@[simp] theorem Panel.setCore_agents (n : Nat) (k : Core) : (p.setCore n k).agents = p.agents := rfl
@[simp] theorem Panel.setCore_losses (n : Nat) (k : Core) : (p.setCore n k).losses = p.losses := rfl
@[simp] theorem Panel.setCore_handles (n : Nat) (k : Core) : (p.setCore n k).handles = p.handles := rfl
@[simp] theorem Panel.setCore_heldRecs (n : Nat) (k : Core) : (p.setCore n k).heldRecs = p.heldRecs := rfl
@[simp] theorem Panel.setCore_kv (n : Nat) (k : Core) : (p.setCore n k).kv = p.kv := rfl
@[simp] theorem Panel.setCore_models (n : Nat) (k : Core) : (p.setCore n k).models = p.models := rfl
@[simp] theorem Panel.setCore_qsets (n : Nat) (k : Core) : (p.setCore n k).qsets = p.qsets := rfl
@[simp] theorem Panel.setCore_fns (n : Nat) (k : Core) : (p.setCore n k).fns = p.fns := rfl
@[simp] theorem Panel.setCore_lostStacks (n : Nat) (k : Core) : (p.setCore n k).lostStacks = p.lostStacks := rfl
@[simp] theorem Panel.setCore_upMask (n : Nat) (k : Core) : (p.setCore n k).upMask = p.upMask := rfl
@[simp] theorem Panel.setCore_maint (n : Nat) (k : Core) : (p.setCore n k).maint = p.maint := rfl
@[simp] theorem Panel.setCore_pow (n : Nat) (k : Core) : (p.setCore n k).pow = p.pow := rfl
@[simp] theorem Panel.setCore_flash (n : Nat) (k : Core) : (p.setCore n k).flash = p.flash := rfl
@[simp] theorem Panel.setCore_boot (n : Nat) (k : Core) : (p.setCore n k).boot = p.boot := rfl
@[simp] theorem Panel.setCore_repair (n : Nat) (k : Core) : (p.setCore n k).repair = p.repair := rfl
@[simp] theorem Panel.setCore_tests (n : Nat) (k : Core) : (p.setCore n k).tests = p.tests := rfl
@[simp] theorem Panel.setCore_testRun (n : Nat) (k : Core) : (p.setCore n k).testRun = p.testRun := rfl
@[simp] theorem Panel.setCore_rcmds (n : Nat) (k : Core) : (p.setCore n k).rcmds = p.rcmds := rfl
@[simp] theorem Panel.setCore_change (n : Nat) (k : Core) : (p.setCore n k).change = p.change := rfl
@[simp] theorem Panel.setCore_auths (n : Nat) (k : Core) : (p.setCore n k).auths = p.auths := rfl

/-! ### modCore -/

@[simp] theorem Panel.modCore_fuses (n : Nat) (f : Core → Core) : (p.modCore n f).fuses = p.fuses := rfl
@[simp] theorem Panel.modCore_dial (n : Nat) (f : Core → Core) : (p.modCore n f).dial = p.dial := rfl
@[simp] theorem Panel.modCore_dialRuns (n : Nat) (f : Core → Core) : (p.modCore n f).dialRuns = p.dialRuns := rfl
@[simp] theorem Panel.modCore_free (n : Nat) (f : Core → Core) : (p.modCore n f).free = p.free := rfl
@[simp] theorem Panel.modCore_out (n : Nat) (f : Core → Core) : (p.modCore n f).out = p.out := rfl
@[simp] theorem Panel.modCore_cores (n : Nat) (f : Core → Core) : (p.modCore n f).cores = put p.cores n (f (p.core n)) := rfl
@[simp] theorem Panel.modCore_hubs (n : Nat) (f : Core → Core) : (p.modCore n f).hubs = p.hubs := rfl
@[simp] theorem Panel.modCore_ports (n : Nat) (f : Core → Core) : (p.modCore n f).ports = p.ports := rfl
@[simp] theorem Panel.modCore_crowns (n : Nat) (f : Core → Core) : (p.modCore n f).crowns = p.crowns := rfl
@[simp] theorem Panel.modCore_shared (n : Nat) (f : Core → Core) : (p.modCore n f).shared = p.shared := rfl
@[simp] theorem Panel.modCore_sites (n : Nat) (f : Core → Core) : (p.modCore n f).sites = p.sites := rfl
@[simp] theorem Panel.modCore_agents (n : Nat) (f : Core → Core) : (p.modCore n f).agents = p.agents := rfl
@[simp] theorem Panel.modCore_losses (n : Nat) (f : Core → Core) : (p.modCore n f).losses = p.losses := rfl
@[simp] theorem Panel.modCore_handles (n : Nat) (f : Core → Core) : (p.modCore n f).handles = p.handles := rfl
@[simp] theorem Panel.modCore_heldRecs (n : Nat) (f : Core → Core) : (p.modCore n f).heldRecs = p.heldRecs := rfl
@[simp] theorem Panel.modCore_kv (n : Nat) (f : Core → Core) : (p.modCore n f).kv = p.kv := rfl
@[simp] theorem Panel.modCore_models (n : Nat) (f : Core → Core) : (p.modCore n f).models = p.models := rfl
@[simp] theorem Panel.modCore_qsets (n : Nat) (f : Core → Core) : (p.modCore n f).qsets = p.qsets := rfl
@[simp] theorem Panel.modCore_fns (n : Nat) (f : Core → Core) : (p.modCore n f).fns = p.fns := rfl
@[simp] theorem Panel.modCore_lostStacks (n : Nat) (f : Core → Core) : (p.modCore n f).lostStacks = p.lostStacks := rfl
@[simp] theorem Panel.modCore_upMask (n : Nat) (f : Core → Core) : (p.modCore n f).upMask = p.upMask := rfl
@[simp] theorem Panel.modCore_maint (n : Nat) (f : Core → Core) : (p.modCore n f).maint = p.maint := rfl
@[simp] theorem Panel.modCore_pow (n : Nat) (f : Core → Core) : (p.modCore n f).pow = p.pow := rfl
@[simp] theorem Panel.modCore_flash (n : Nat) (f : Core → Core) : (p.modCore n f).flash = p.flash := rfl
@[simp] theorem Panel.modCore_boot (n : Nat) (f : Core → Core) : (p.modCore n f).boot = p.boot := rfl
@[simp] theorem Panel.modCore_repair (n : Nat) (f : Core → Core) : (p.modCore n f).repair = p.repair := rfl
@[simp] theorem Panel.modCore_tests (n : Nat) (f : Core → Core) : (p.modCore n f).tests = p.tests := rfl
@[simp] theorem Panel.modCore_testRun (n : Nat) (f : Core → Core) : (p.modCore n f).testRun = p.testRun := rfl
@[simp] theorem Panel.modCore_rcmds (n : Nat) (f : Core → Core) : (p.modCore n f).rcmds = p.rcmds := rfl
@[simp] theorem Panel.modCore_change (n : Nat) (f : Core → Core) : (p.modCore n f).change = p.change := rfl
@[simp] theorem Panel.modCore_auths (n : Nat) (f : Core → Core) : (p.modCore n f).auths = p.auths := rfl

/-! ### setHub -/

@[simp] theorem Panel.setHub_fuses (n : Nat) (k : Hub) : (p.setHub n k).fuses = p.fuses := rfl
@[simp] theorem Panel.setHub_dial (n : Nat) (k : Hub) : (p.setHub n k).dial = p.dial := rfl
@[simp] theorem Panel.setHub_dialRuns (n : Nat) (k : Hub) : (p.setHub n k).dialRuns = p.dialRuns := rfl
@[simp] theorem Panel.setHub_free (n : Nat) (k : Hub) : (p.setHub n k).free = p.free := rfl
@[simp] theorem Panel.setHub_out (n : Nat) (k : Hub) : (p.setHub n k).out = p.out := rfl
@[simp] theorem Panel.setHub_cores (n : Nat) (k : Hub) : (p.setHub n k).cores = p.cores := rfl
@[simp] theorem Panel.setHub_hubs (n : Nat) (k : Hub) : (p.setHub n k).hubs = put p.hubs n k := rfl
@[simp] theorem Panel.setHub_ports (n : Nat) (k : Hub) : (p.setHub n k).ports = p.ports := rfl
@[simp] theorem Panel.setHub_crowns (n : Nat) (k : Hub) : (p.setHub n k).crowns = p.crowns := rfl
@[simp] theorem Panel.setHub_shared (n : Nat) (k : Hub) : (p.setHub n k).shared = p.shared := rfl
@[simp] theorem Panel.setHub_sites (n : Nat) (k : Hub) : (p.setHub n k).sites = p.sites := rfl
@[simp] theorem Panel.setHub_agents (n : Nat) (k : Hub) : (p.setHub n k).agents = p.agents := rfl
@[simp] theorem Panel.setHub_losses (n : Nat) (k : Hub) : (p.setHub n k).losses = p.losses := rfl
@[simp] theorem Panel.setHub_handles (n : Nat) (k : Hub) : (p.setHub n k).handles = p.handles := rfl
@[simp] theorem Panel.setHub_heldRecs (n : Nat) (k : Hub) : (p.setHub n k).heldRecs = p.heldRecs := rfl
@[simp] theorem Panel.setHub_kv (n : Nat) (k : Hub) : (p.setHub n k).kv = p.kv := rfl
@[simp] theorem Panel.setHub_models (n : Nat) (k : Hub) : (p.setHub n k).models = p.models := rfl
@[simp] theorem Panel.setHub_qsets (n : Nat) (k : Hub) : (p.setHub n k).qsets = p.qsets := rfl
@[simp] theorem Panel.setHub_fns (n : Nat) (k : Hub) : (p.setHub n k).fns = p.fns := rfl
@[simp] theorem Panel.setHub_lostStacks (n : Nat) (k : Hub) : (p.setHub n k).lostStacks = p.lostStacks := rfl
@[simp] theorem Panel.setHub_upMask (n : Nat) (k : Hub) : (p.setHub n k).upMask = p.upMask := rfl
@[simp] theorem Panel.setHub_maint (n : Nat) (k : Hub) : (p.setHub n k).maint = p.maint := rfl
@[simp] theorem Panel.setHub_pow (n : Nat) (k : Hub) : (p.setHub n k).pow = p.pow := rfl
@[simp] theorem Panel.setHub_flash (n : Nat) (k : Hub) : (p.setHub n k).flash = p.flash := rfl
@[simp] theorem Panel.setHub_boot (n : Nat) (k : Hub) : (p.setHub n k).boot = p.boot := rfl
@[simp] theorem Panel.setHub_repair (n : Nat) (k : Hub) : (p.setHub n k).repair = p.repair := rfl
@[simp] theorem Panel.setHub_tests (n : Nat) (k : Hub) : (p.setHub n k).tests = p.tests := rfl
@[simp] theorem Panel.setHub_testRun (n : Nat) (k : Hub) : (p.setHub n k).testRun = p.testRun := rfl
@[simp] theorem Panel.setHub_rcmds (n : Nat) (k : Hub) : (p.setHub n k).rcmds = p.rcmds := rfl
@[simp] theorem Panel.setHub_change (n : Nat) (k : Hub) : (p.setHub n k).change = p.change := rfl
@[simp] theorem Panel.setHub_auths (n : Nat) (k : Hub) : (p.setHub n k).auths = p.auths := rfl

/-! ### modHub -/

@[simp] theorem Panel.modHub_fuses (n : Nat) (f : Hub → Hub) : (p.modHub n f).fuses = p.fuses := rfl
@[simp] theorem Panel.modHub_dial (n : Nat) (f : Hub → Hub) : (p.modHub n f).dial = p.dial := rfl
@[simp] theorem Panel.modHub_dialRuns (n : Nat) (f : Hub → Hub) : (p.modHub n f).dialRuns = p.dialRuns := rfl
@[simp] theorem Panel.modHub_free (n : Nat) (f : Hub → Hub) : (p.modHub n f).free = p.free := rfl
@[simp] theorem Panel.modHub_out (n : Nat) (f : Hub → Hub) : (p.modHub n f).out = p.out := rfl
@[simp] theorem Panel.modHub_cores (n : Nat) (f : Hub → Hub) : (p.modHub n f).cores = p.cores := rfl
@[simp] theorem Panel.modHub_hubs (n : Nat) (f : Hub → Hub) : (p.modHub n f).hubs = put p.hubs n (f (p.hub n)) := rfl
@[simp] theorem Panel.modHub_ports (n : Nat) (f : Hub → Hub) : (p.modHub n f).ports = p.ports := rfl
@[simp] theorem Panel.modHub_crowns (n : Nat) (f : Hub → Hub) : (p.modHub n f).crowns = p.crowns := rfl
@[simp] theorem Panel.modHub_shared (n : Nat) (f : Hub → Hub) : (p.modHub n f).shared = p.shared := rfl
@[simp] theorem Panel.modHub_sites (n : Nat) (f : Hub → Hub) : (p.modHub n f).sites = p.sites := rfl
@[simp] theorem Panel.modHub_agents (n : Nat) (f : Hub → Hub) : (p.modHub n f).agents = p.agents := rfl
@[simp] theorem Panel.modHub_losses (n : Nat) (f : Hub → Hub) : (p.modHub n f).losses = p.losses := rfl
@[simp] theorem Panel.modHub_handles (n : Nat) (f : Hub → Hub) : (p.modHub n f).handles = p.handles := rfl
@[simp] theorem Panel.modHub_heldRecs (n : Nat) (f : Hub → Hub) : (p.modHub n f).heldRecs = p.heldRecs := rfl
@[simp] theorem Panel.modHub_kv (n : Nat) (f : Hub → Hub) : (p.modHub n f).kv = p.kv := rfl
@[simp] theorem Panel.modHub_models (n : Nat) (f : Hub → Hub) : (p.modHub n f).models = p.models := rfl
@[simp] theorem Panel.modHub_qsets (n : Nat) (f : Hub → Hub) : (p.modHub n f).qsets = p.qsets := rfl
@[simp] theorem Panel.modHub_fns (n : Nat) (f : Hub → Hub) : (p.modHub n f).fns = p.fns := rfl
@[simp] theorem Panel.modHub_lostStacks (n : Nat) (f : Hub → Hub) : (p.modHub n f).lostStacks = p.lostStacks := rfl
@[simp] theorem Panel.modHub_upMask (n : Nat) (f : Hub → Hub) : (p.modHub n f).upMask = p.upMask := rfl
@[simp] theorem Panel.modHub_maint (n : Nat) (f : Hub → Hub) : (p.modHub n f).maint = p.maint := rfl
@[simp] theorem Panel.modHub_pow (n : Nat) (f : Hub → Hub) : (p.modHub n f).pow = p.pow := rfl
@[simp] theorem Panel.modHub_flash (n : Nat) (f : Hub → Hub) : (p.modHub n f).flash = p.flash := rfl
@[simp] theorem Panel.modHub_boot (n : Nat) (f : Hub → Hub) : (p.modHub n f).boot = p.boot := rfl
@[simp] theorem Panel.modHub_repair (n : Nat) (f : Hub → Hub) : (p.modHub n f).repair = p.repair := rfl
@[simp] theorem Panel.modHub_tests (n : Nat) (f : Hub → Hub) : (p.modHub n f).tests = p.tests := rfl
@[simp] theorem Panel.modHub_testRun (n : Nat) (f : Hub → Hub) : (p.modHub n f).testRun = p.testRun := rfl
@[simp] theorem Panel.modHub_rcmds (n : Nat) (f : Hub → Hub) : (p.modHub n f).rcmds = p.rcmds := rfl
@[simp] theorem Panel.modHub_change (n : Nat) (f : Hub → Hub) : (p.modHub n f).change = p.change := rfl
@[simp] theorem Panel.modHub_auths (n : Nat) (f : Hub → Hub) : (p.modHub n f).auths = p.auths := rfl

/-! ### setPort -/

@[simp] theorem Panel.setPort_fuses (n : Nat) (k : PortDie) : (p.setPort n k).fuses = p.fuses := rfl
@[simp] theorem Panel.setPort_dial (n : Nat) (k : PortDie) : (p.setPort n k).dial = p.dial := rfl
@[simp] theorem Panel.setPort_dialRuns (n : Nat) (k : PortDie) : (p.setPort n k).dialRuns = p.dialRuns := rfl
@[simp] theorem Panel.setPort_free (n : Nat) (k : PortDie) : (p.setPort n k).free = p.free := rfl
@[simp] theorem Panel.setPort_out (n : Nat) (k : PortDie) : (p.setPort n k).out = p.out := rfl
@[simp] theorem Panel.setPort_cores (n : Nat) (k : PortDie) : (p.setPort n k).cores = p.cores := rfl
@[simp] theorem Panel.setPort_hubs (n : Nat) (k : PortDie) : (p.setPort n k).hubs = p.hubs := rfl
@[simp] theorem Panel.setPort_ports (n : Nat) (k : PortDie) : (p.setPort n k).ports = put p.ports n k := rfl
@[simp] theorem Panel.setPort_crowns (n : Nat) (k : PortDie) : (p.setPort n k).crowns = p.crowns := rfl
@[simp] theorem Panel.setPort_shared (n : Nat) (k : PortDie) : (p.setPort n k).shared = p.shared := rfl
@[simp] theorem Panel.setPort_sites (n : Nat) (k : PortDie) : (p.setPort n k).sites = p.sites := rfl
@[simp] theorem Panel.setPort_agents (n : Nat) (k : PortDie) : (p.setPort n k).agents = p.agents := rfl
@[simp] theorem Panel.setPort_losses (n : Nat) (k : PortDie) : (p.setPort n k).losses = p.losses := rfl
@[simp] theorem Panel.setPort_handles (n : Nat) (k : PortDie) : (p.setPort n k).handles = p.handles := rfl
@[simp] theorem Panel.setPort_heldRecs (n : Nat) (k : PortDie) : (p.setPort n k).heldRecs = p.heldRecs := rfl
@[simp] theorem Panel.setPort_kv (n : Nat) (k : PortDie) : (p.setPort n k).kv = p.kv := rfl
@[simp] theorem Panel.setPort_models (n : Nat) (k : PortDie) : (p.setPort n k).models = p.models := rfl
@[simp] theorem Panel.setPort_qsets (n : Nat) (k : PortDie) : (p.setPort n k).qsets = p.qsets := rfl
@[simp] theorem Panel.setPort_fns (n : Nat) (k : PortDie) : (p.setPort n k).fns = p.fns := rfl
@[simp] theorem Panel.setPort_lostStacks (n : Nat) (k : PortDie) : (p.setPort n k).lostStacks = p.lostStacks := rfl
@[simp] theorem Panel.setPort_upMask (n : Nat) (k : PortDie) : (p.setPort n k).upMask = p.upMask := rfl
@[simp] theorem Panel.setPort_maint (n : Nat) (k : PortDie) : (p.setPort n k).maint = p.maint := rfl
@[simp] theorem Panel.setPort_pow (n : Nat) (k : PortDie) : (p.setPort n k).pow = p.pow := rfl
@[simp] theorem Panel.setPort_flash (n : Nat) (k : PortDie) : (p.setPort n k).flash = p.flash := rfl
@[simp] theorem Panel.setPort_boot (n : Nat) (k : PortDie) : (p.setPort n k).boot = p.boot := rfl
@[simp] theorem Panel.setPort_repair (n : Nat) (k : PortDie) : (p.setPort n k).repair = p.repair := rfl
@[simp] theorem Panel.setPort_tests (n : Nat) (k : PortDie) : (p.setPort n k).tests = p.tests := rfl
@[simp] theorem Panel.setPort_testRun (n : Nat) (k : PortDie) : (p.setPort n k).testRun = p.testRun := rfl
@[simp] theorem Panel.setPort_rcmds (n : Nat) (k : PortDie) : (p.setPort n k).rcmds = p.rcmds := rfl
@[simp] theorem Panel.setPort_change (n : Nat) (k : PortDie) : (p.setPort n k).change = p.change := rfl
@[simp] theorem Panel.setPort_auths (n : Nat) (k : PortDie) : (p.setPort n k).auths = p.auths := rfl

/-! ### modPort -/

@[simp] theorem Panel.modPort_fuses (n : Nat) (f : PortDie → PortDie) : (p.modPort n f).fuses = p.fuses := rfl
@[simp] theorem Panel.modPort_dial (n : Nat) (f : PortDie → PortDie) : (p.modPort n f).dial = p.dial := rfl
@[simp] theorem Panel.modPort_dialRuns (n : Nat) (f : PortDie → PortDie) : (p.modPort n f).dialRuns = p.dialRuns := rfl
@[simp] theorem Panel.modPort_free (n : Nat) (f : PortDie → PortDie) : (p.modPort n f).free = p.free := rfl
@[simp] theorem Panel.modPort_out (n : Nat) (f : PortDie → PortDie) : (p.modPort n f).out = p.out := rfl
@[simp] theorem Panel.modPort_cores (n : Nat) (f : PortDie → PortDie) : (p.modPort n f).cores = p.cores := rfl
@[simp] theorem Panel.modPort_hubs (n : Nat) (f : PortDie → PortDie) : (p.modPort n f).hubs = p.hubs := rfl
@[simp] theorem Panel.modPort_ports (n : Nat) (f : PortDie → PortDie) : (p.modPort n f).ports = put p.ports n (f (p.port n)) := rfl
@[simp] theorem Panel.modPort_crowns (n : Nat) (f : PortDie → PortDie) : (p.modPort n f).crowns = p.crowns := rfl
@[simp] theorem Panel.modPort_shared (n : Nat) (f : PortDie → PortDie) : (p.modPort n f).shared = p.shared := rfl
@[simp] theorem Panel.modPort_sites (n : Nat) (f : PortDie → PortDie) : (p.modPort n f).sites = p.sites := rfl
@[simp] theorem Panel.modPort_agents (n : Nat) (f : PortDie → PortDie) : (p.modPort n f).agents = p.agents := rfl
@[simp] theorem Panel.modPort_losses (n : Nat) (f : PortDie → PortDie) : (p.modPort n f).losses = p.losses := rfl
@[simp] theorem Panel.modPort_handles (n : Nat) (f : PortDie → PortDie) : (p.modPort n f).handles = p.handles := rfl
@[simp] theorem Panel.modPort_heldRecs (n : Nat) (f : PortDie → PortDie) : (p.modPort n f).heldRecs = p.heldRecs := rfl
@[simp] theorem Panel.modPort_kv (n : Nat) (f : PortDie → PortDie) : (p.modPort n f).kv = p.kv := rfl
@[simp] theorem Panel.modPort_models (n : Nat) (f : PortDie → PortDie) : (p.modPort n f).models = p.models := rfl
@[simp] theorem Panel.modPort_qsets (n : Nat) (f : PortDie → PortDie) : (p.modPort n f).qsets = p.qsets := rfl
@[simp] theorem Panel.modPort_fns (n : Nat) (f : PortDie → PortDie) : (p.modPort n f).fns = p.fns := rfl
@[simp] theorem Panel.modPort_lostStacks (n : Nat) (f : PortDie → PortDie) : (p.modPort n f).lostStacks = p.lostStacks := rfl
@[simp] theorem Panel.modPort_upMask (n : Nat) (f : PortDie → PortDie) : (p.modPort n f).upMask = p.upMask := rfl
@[simp] theorem Panel.modPort_maint (n : Nat) (f : PortDie → PortDie) : (p.modPort n f).maint = p.maint := rfl
@[simp] theorem Panel.modPort_pow (n : Nat) (f : PortDie → PortDie) : (p.modPort n f).pow = p.pow := rfl
@[simp] theorem Panel.modPort_flash (n : Nat) (f : PortDie → PortDie) : (p.modPort n f).flash = p.flash := rfl
@[simp] theorem Panel.modPort_boot (n : Nat) (f : PortDie → PortDie) : (p.modPort n f).boot = p.boot := rfl
@[simp] theorem Panel.modPort_repair (n : Nat) (f : PortDie → PortDie) : (p.modPort n f).repair = p.repair := rfl
@[simp] theorem Panel.modPort_tests (n : Nat) (f : PortDie → PortDie) : (p.modPort n f).tests = p.tests := rfl
@[simp] theorem Panel.modPort_testRun (n : Nat) (f : PortDie → PortDie) : (p.modPort n f).testRun = p.testRun := rfl
@[simp] theorem Panel.modPort_rcmds (n : Nat) (f : PortDie → PortDie) : (p.modPort n f).rcmds = p.rcmds := rfl
@[simp] theorem Panel.modPort_change (n : Nat) (f : PortDie → PortDie) : (p.modPort n f).change = p.change := rfl
@[simp] theorem Panel.modPort_auths (n : Nat) (f : PortDie → PortDie) : (p.modPort n f).auths = p.auths := rfl

/-! ### setCrown -/

@[simp] theorem Panel.setCrown_fuses (c : Crown) (k : CrownDie) : (p.setCrown c k).fuses = p.fuses := rfl
@[simp] theorem Panel.setCrown_dial (c : Crown) (k : CrownDie) : (p.setCrown c k).dial = p.dial := rfl
@[simp] theorem Panel.setCrown_dialRuns (c : Crown) (k : CrownDie) : (p.setCrown c k).dialRuns = p.dialRuns := rfl
@[simp] theorem Panel.setCrown_free (c : Crown) (k : CrownDie) : (p.setCrown c k).free = p.free := rfl
@[simp] theorem Panel.setCrown_out (c : Crown) (k : CrownDie) : (p.setCrown c k).out = p.out := rfl
@[simp] theorem Panel.setCrown_cores (c : Crown) (k : CrownDie) : (p.setCrown c k).cores = p.cores := rfl
@[simp] theorem Panel.setCrown_hubs (c : Crown) (k : CrownDie) : (p.setCrown c k).hubs = p.hubs := rfl
@[simp] theorem Panel.setCrown_ports (c : Crown) (k : CrownDie) : (p.setCrown c k).ports = p.ports := rfl
@[simp] theorem Panel.setCrown_crowns (c : Crown) (k : CrownDie) : (p.setCrown c k).crowns = put p.crowns c.num k := rfl
@[simp] theorem Panel.setCrown_shared (c : Crown) (k : CrownDie) : (p.setCrown c k).shared = p.shared := rfl
@[simp] theorem Panel.setCrown_sites (c : Crown) (k : CrownDie) : (p.setCrown c k).sites = p.sites := rfl
@[simp] theorem Panel.setCrown_agents (c : Crown) (k : CrownDie) : (p.setCrown c k).agents = p.agents := rfl
@[simp] theorem Panel.setCrown_losses (c : Crown) (k : CrownDie) : (p.setCrown c k).losses = p.losses := rfl
@[simp] theorem Panel.setCrown_handles (c : Crown) (k : CrownDie) : (p.setCrown c k).handles = p.handles := rfl
@[simp] theorem Panel.setCrown_heldRecs (c : Crown) (k : CrownDie) : (p.setCrown c k).heldRecs = p.heldRecs := rfl
@[simp] theorem Panel.setCrown_kv (c : Crown) (k : CrownDie) : (p.setCrown c k).kv = p.kv := rfl
@[simp] theorem Panel.setCrown_models (c : Crown) (k : CrownDie) : (p.setCrown c k).models = p.models := rfl
@[simp] theorem Panel.setCrown_qsets (c : Crown) (k : CrownDie) : (p.setCrown c k).qsets = p.qsets := rfl
@[simp] theorem Panel.setCrown_fns (c : Crown) (k : CrownDie) : (p.setCrown c k).fns = p.fns := rfl
@[simp] theorem Panel.setCrown_lostStacks (c : Crown) (k : CrownDie) : (p.setCrown c k).lostStacks = p.lostStacks := rfl
@[simp] theorem Panel.setCrown_upMask (c : Crown) (k : CrownDie) : (p.setCrown c k).upMask = p.upMask := rfl
@[simp] theorem Panel.setCrown_maint (c : Crown) (k : CrownDie) : (p.setCrown c k).maint = p.maint := rfl
@[simp] theorem Panel.setCrown_pow (c : Crown) (k : CrownDie) : (p.setCrown c k).pow = p.pow := rfl
@[simp] theorem Panel.setCrown_flash (c : Crown) (k : CrownDie) : (p.setCrown c k).flash = p.flash := rfl
@[simp] theorem Panel.setCrown_boot (c : Crown) (k : CrownDie) : (p.setCrown c k).boot = p.boot := rfl
@[simp] theorem Panel.setCrown_repair (c : Crown) (k : CrownDie) : (p.setCrown c k).repair = p.repair := rfl
@[simp] theorem Panel.setCrown_tests (c : Crown) (k : CrownDie) : (p.setCrown c k).tests = p.tests := rfl
@[simp] theorem Panel.setCrown_testRun (c : Crown) (k : CrownDie) : (p.setCrown c k).testRun = p.testRun := rfl
@[simp] theorem Panel.setCrown_rcmds (c : Crown) (k : CrownDie) : (p.setCrown c k).rcmds = p.rcmds := rfl
@[simp] theorem Panel.setCrown_change (c : Crown) (k : CrownDie) : (p.setCrown c k).change = p.change := rfl
@[simp] theorem Panel.setCrown_auths (c : Crown) (k : CrownDie) : (p.setCrown c k).auths = p.auths := rfl

/-! ### modCrown -/

@[simp] theorem Panel.modCrown_fuses (c : Crown) (f : CrownDie → CrownDie) : (p.modCrown c f).fuses = p.fuses := rfl
@[simp] theorem Panel.modCrown_dial (c : Crown) (f : CrownDie → CrownDie) : (p.modCrown c f).dial = p.dial := rfl
@[simp] theorem Panel.modCrown_dialRuns (c : Crown) (f : CrownDie → CrownDie) : (p.modCrown c f).dialRuns = p.dialRuns := rfl
@[simp] theorem Panel.modCrown_free (c : Crown) (f : CrownDie → CrownDie) : (p.modCrown c f).free = p.free := rfl
@[simp] theorem Panel.modCrown_out (c : Crown) (f : CrownDie → CrownDie) : (p.modCrown c f).out = p.out := rfl
@[simp] theorem Panel.modCrown_cores (c : Crown) (f : CrownDie → CrownDie) : (p.modCrown c f).cores = p.cores := rfl
@[simp] theorem Panel.modCrown_hubs (c : Crown) (f : CrownDie → CrownDie) : (p.modCrown c f).hubs = p.hubs := rfl
@[simp] theorem Panel.modCrown_ports (c : Crown) (f : CrownDie → CrownDie) : (p.modCrown c f).ports = p.ports := rfl
@[simp] theorem Panel.modCrown_crowns (c : Crown) (f : CrownDie → CrownDie) : (p.modCrown c f).crowns = put p.crowns c.num (f (p.crown c)) := rfl
@[simp] theorem Panel.modCrown_shared (c : Crown) (f : CrownDie → CrownDie) : (p.modCrown c f).shared = p.shared := rfl
@[simp] theorem Panel.modCrown_sites (c : Crown) (f : CrownDie → CrownDie) : (p.modCrown c f).sites = p.sites := rfl
@[simp] theorem Panel.modCrown_agents (c : Crown) (f : CrownDie → CrownDie) : (p.modCrown c f).agents = p.agents := rfl
@[simp] theorem Panel.modCrown_losses (c : Crown) (f : CrownDie → CrownDie) : (p.modCrown c f).losses = p.losses := rfl
@[simp] theorem Panel.modCrown_handles (c : Crown) (f : CrownDie → CrownDie) : (p.modCrown c f).handles = p.handles := rfl
@[simp] theorem Panel.modCrown_heldRecs (c : Crown) (f : CrownDie → CrownDie) : (p.modCrown c f).heldRecs = p.heldRecs := rfl
@[simp] theorem Panel.modCrown_kv (c : Crown) (f : CrownDie → CrownDie) : (p.modCrown c f).kv = p.kv := rfl
@[simp] theorem Panel.modCrown_models (c : Crown) (f : CrownDie → CrownDie) : (p.modCrown c f).models = p.models := rfl
@[simp] theorem Panel.modCrown_qsets (c : Crown) (f : CrownDie → CrownDie) : (p.modCrown c f).qsets = p.qsets := rfl
@[simp] theorem Panel.modCrown_fns (c : Crown) (f : CrownDie → CrownDie) : (p.modCrown c f).fns = p.fns := rfl
@[simp] theorem Panel.modCrown_lostStacks (c : Crown) (f : CrownDie → CrownDie) : (p.modCrown c f).lostStacks = p.lostStacks := rfl
@[simp] theorem Panel.modCrown_upMask (c : Crown) (f : CrownDie → CrownDie) : (p.modCrown c f).upMask = p.upMask := rfl
@[simp] theorem Panel.modCrown_maint (c : Crown) (f : CrownDie → CrownDie) : (p.modCrown c f).maint = p.maint := rfl
@[simp] theorem Panel.modCrown_pow (c : Crown) (f : CrownDie → CrownDie) : (p.modCrown c f).pow = p.pow := rfl
@[simp] theorem Panel.modCrown_flash (c : Crown) (f : CrownDie → CrownDie) : (p.modCrown c f).flash = p.flash := rfl
@[simp] theorem Panel.modCrown_boot (c : Crown) (f : CrownDie → CrownDie) : (p.modCrown c f).boot = p.boot := rfl
@[simp] theorem Panel.modCrown_repair (c : Crown) (f : CrownDie → CrownDie) : (p.modCrown c f).repair = p.repair := rfl
@[simp] theorem Panel.modCrown_tests (c : Crown) (f : CrownDie → CrownDie) : (p.modCrown c f).tests = p.tests := rfl
@[simp] theorem Panel.modCrown_testRun (c : Crown) (f : CrownDie → CrownDie) : (p.modCrown c f).testRun = p.testRun := rfl
@[simp] theorem Panel.modCrown_rcmds (c : Crown) (f : CrownDie → CrownDie) : (p.modCrown c f).rcmds = p.rcmds := rfl
@[simp] theorem Panel.modCrown_change (c : Crown) (f : CrownDie → CrownDie) : (p.modCrown c f).change = p.change := rfl
@[simp] theorem Panel.modCrown_auths (c : Crown) (f : CrownDie → CrownDie) : (p.modCrown c f).auths = p.auths := rfl

/-! ### setSite -/

@[simp] theorem Panel.setSite_fuses (n : Nat) (k : SiteInfo) : (p.setSite n k).fuses = p.fuses := rfl
@[simp] theorem Panel.setSite_dial (n : Nat) (k : SiteInfo) : (p.setSite n k).dial = p.dial := rfl
@[simp] theorem Panel.setSite_dialRuns (n : Nat) (k : SiteInfo) : (p.setSite n k).dialRuns = p.dialRuns := rfl
@[simp] theorem Panel.setSite_free (n : Nat) (k : SiteInfo) : (p.setSite n k).free = p.free := rfl
@[simp] theorem Panel.setSite_out (n : Nat) (k : SiteInfo) : (p.setSite n k).out = p.out := rfl
@[simp] theorem Panel.setSite_cores (n : Nat) (k : SiteInfo) : (p.setSite n k).cores = p.cores := rfl
@[simp] theorem Panel.setSite_hubs (n : Nat) (k : SiteInfo) : (p.setSite n k).hubs = p.hubs := rfl
@[simp] theorem Panel.setSite_ports (n : Nat) (k : SiteInfo) : (p.setSite n k).ports = p.ports := rfl
@[simp] theorem Panel.setSite_crowns (n : Nat) (k : SiteInfo) : (p.setSite n k).crowns = p.crowns := rfl
@[simp] theorem Panel.setSite_shared (n : Nat) (k : SiteInfo) : (p.setSite n k).shared = p.shared := rfl
@[simp] theorem Panel.setSite_sites (n : Nat) (k : SiteInfo) : (p.setSite n k).sites = put p.sites n k := rfl
@[simp] theorem Panel.setSite_agents (n : Nat) (k : SiteInfo) : (p.setSite n k).agents = p.agents := rfl
@[simp] theorem Panel.setSite_losses (n : Nat) (k : SiteInfo) : (p.setSite n k).losses = p.losses := rfl
@[simp] theorem Panel.setSite_handles (n : Nat) (k : SiteInfo) : (p.setSite n k).handles = p.handles := rfl
@[simp] theorem Panel.setSite_heldRecs (n : Nat) (k : SiteInfo) : (p.setSite n k).heldRecs = p.heldRecs := rfl
@[simp] theorem Panel.setSite_kv (n : Nat) (k : SiteInfo) : (p.setSite n k).kv = p.kv := rfl
@[simp] theorem Panel.setSite_models (n : Nat) (k : SiteInfo) : (p.setSite n k).models = p.models := rfl
@[simp] theorem Panel.setSite_qsets (n : Nat) (k : SiteInfo) : (p.setSite n k).qsets = p.qsets := rfl
@[simp] theorem Panel.setSite_fns (n : Nat) (k : SiteInfo) : (p.setSite n k).fns = p.fns := rfl
@[simp] theorem Panel.setSite_lostStacks (n : Nat) (k : SiteInfo) : (p.setSite n k).lostStacks = p.lostStacks := rfl
@[simp] theorem Panel.setSite_upMask (n : Nat) (k : SiteInfo) : (p.setSite n k).upMask = p.upMask := rfl
@[simp] theorem Panel.setSite_maint (n : Nat) (k : SiteInfo) : (p.setSite n k).maint = p.maint := rfl
@[simp] theorem Panel.setSite_pow (n : Nat) (k : SiteInfo) : (p.setSite n k).pow = p.pow := rfl
@[simp] theorem Panel.setSite_flash (n : Nat) (k : SiteInfo) : (p.setSite n k).flash = p.flash := rfl
@[simp] theorem Panel.setSite_boot (n : Nat) (k : SiteInfo) : (p.setSite n k).boot = p.boot := rfl
@[simp] theorem Panel.setSite_repair (n : Nat) (k : SiteInfo) : (p.setSite n k).repair = p.repair := rfl
@[simp] theorem Panel.setSite_tests (n : Nat) (k : SiteInfo) : (p.setSite n k).tests = p.tests := rfl
@[simp] theorem Panel.setSite_testRun (n : Nat) (k : SiteInfo) : (p.setSite n k).testRun = p.testRun := rfl
@[simp] theorem Panel.setSite_rcmds (n : Nat) (k : SiteInfo) : (p.setSite n k).rcmds = p.rcmds := rfl
@[simp] theorem Panel.setSite_change (n : Nat) (k : SiteInfo) : (p.setSite n k).change = p.change := rfl
@[simp] theorem Panel.setSite_auths (n : Nat) (k : SiteInfo) : (p.setSite n k).auths = p.auths := rfl

/-! ### modSite -/

@[simp] theorem Panel.modSite_fuses (n : Nat) (f : SiteInfo → SiteInfo) : (p.modSite n f).fuses = p.fuses := rfl
@[simp] theorem Panel.modSite_dial (n : Nat) (f : SiteInfo → SiteInfo) : (p.modSite n f).dial = p.dial := rfl
@[simp] theorem Panel.modSite_dialRuns (n : Nat) (f : SiteInfo → SiteInfo) : (p.modSite n f).dialRuns = p.dialRuns := rfl
@[simp] theorem Panel.modSite_free (n : Nat) (f : SiteInfo → SiteInfo) : (p.modSite n f).free = p.free := rfl
@[simp] theorem Panel.modSite_out (n : Nat) (f : SiteInfo → SiteInfo) : (p.modSite n f).out = p.out := rfl
@[simp] theorem Panel.modSite_cores (n : Nat) (f : SiteInfo → SiteInfo) : (p.modSite n f).cores = p.cores := rfl
@[simp] theorem Panel.modSite_hubs (n : Nat) (f : SiteInfo → SiteInfo) : (p.modSite n f).hubs = p.hubs := rfl
@[simp] theorem Panel.modSite_ports (n : Nat) (f : SiteInfo → SiteInfo) : (p.modSite n f).ports = p.ports := rfl
@[simp] theorem Panel.modSite_crowns (n : Nat) (f : SiteInfo → SiteInfo) : (p.modSite n f).crowns = p.crowns := rfl
@[simp] theorem Panel.modSite_shared (n : Nat) (f : SiteInfo → SiteInfo) : (p.modSite n f).shared = p.shared := rfl
@[simp] theorem Panel.modSite_sites (n : Nat) (f : SiteInfo → SiteInfo) : (p.modSite n f).sites = put p.sites n (f (p.site n)) := rfl
@[simp] theorem Panel.modSite_agents (n : Nat) (f : SiteInfo → SiteInfo) : (p.modSite n f).agents = p.agents := rfl
@[simp] theorem Panel.modSite_losses (n : Nat) (f : SiteInfo → SiteInfo) : (p.modSite n f).losses = p.losses := rfl
@[simp] theorem Panel.modSite_handles (n : Nat) (f : SiteInfo → SiteInfo) : (p.modSite n f).handles = p.handles := rfl
@[simp] theorem Panel.modSite_heldRecs (n : Nat) (f : SiteInfo → SiteInfo) : (p.modSite n f).heldRecs = p.heldRecs := rfl
@[simp] theorem Panel.modSite_kv (n : Nat) (f : SiteInfo → SiteInfo) : (p.modSite n f).kv = p.kv := rfl
@[simp] theorem Panel.modSite_models (n : Nat) (f : SiteInfo → SiteInfo) : (p.modSite n f).models = p.models := rfl
@[simp] theorem Panel.modSite_qsets (n : Nat) (f : SiteInfo → SiteInfo) : (p.modSite n f).qsets = p.qsets := rfl
@[simp] theorem Panel.modSite_fns (n : Nat) (f : SiteInfo → SiteInfo) : (p.modSite n f).fns = p.fns := rfl
@[simp] theorem Panel.modSite_lostStacks (n : Nat) (f : SiteInfo → SiteInfo) : (p.modSite n f).lostStacks = p.lostStacks := rfl
@[simp] theorem Panel.modSite_upMask (n : Nat) (f : SiteInfo → SiteInfo) : (p.modSite n f).upMask = p.upMask := rfl
@[simp] theorem Panel.modSite_maint (n : Nat) (f : SiteInfo → SiteInfo) : (p.modSite n f).maint = p.maint := rfl
@[simp] theorem Panel.modSite_pow (n : Nat) (f : SiteInfo → SiteInfo) : (p.modSite n f).pow = p.pow := rfl
@[simp] theorem Panel.modSite_flash (n : Nat) (f : SiteInfo → SiteInfo) : (p.modSite n f).flash = p.flash := rfl
@[simp] theorem Panel.modSite_boot (n : Nat) (f : SiteInfo → SiteInfo) : (p.modSite n f).boot = p.boot := rfl
@[simp] theorem Panel.modSite_repair (n : Nat) (f : SiteInfo → SiteInfo) : (p.modSite n f).repair = p.repair := rfl
@[simp] theorem Panel.modSite_tests (n : Nat) (f : SiteInfo → SiteInfo) : (p.modSite n f).tests = p.tests := rfl
@[simp] theorem Panel.modSite_testRun (n : Nat) (f : SiteInfo → SiteInfo) : (p.modSite n f).testRun = p.testRun := rfl
@[simp] theorem Panel.modSite_rcmds (n : Nat) (f : SiteInfo → SiteInfo) : (p.modSite n f).rcmds = p.rcmds := rfl
@[simp] theorem Panel.modSite_change (n : Nat) (f : SiteInfo → SiteInfo) : (p.modSite n f).change = p.change := rfl
@[simp] theorem Panel.modSite_auths (n : Nat) (f : SiteInfo → SiteInfo) : (p.modSite n f).auths = p.auths := rfl

/-! ### setSh -/

@[simp] theorem Panel.setSh_fuses (o v : Nat) : (p.setSh o v).fuses = p.fuses := rfl
@[simp] theorem Panel.setSh_dial (o v : Nat) : (p.setSh o v).dial = p.dial := rfl
@[simp] theorem Panel.setSh_dialRuns (o v : Nat) : (p.setSh o v).dialRuns = p.dialRuns := rfl
@[simp] theorem Panel.setSh_free (o v : Nat) : (p.setSh o v).free = p.free := rfl
@[simp] theorem Panel.setSh_out (o v : Nat) : (p.setSh o v).out = p.out := rfl
@[simp] theorem Panel.setSh_cores (o v : Nat) : (p.setSh o v).cores = p.cores := rfl
@[simp] theorem Panel.setSh_hubs (o v : Nat) : (p.setSh o v).hubs = p.hubs := rfl
@[simp] theorem Panel.setSh_ports (o v : Nat) : (p.setSh o v).ports = p.ports := rfl
@[simp] theorem Panel.setSh_crowns (o v : Nat) : (p.setSh o v).crowns = p.crowns := rfl
@[simp] theorem Panel.setSh_shared (o v : Nat) : (p.setSh o v).shared = rfSet p.shared o (BitVec.ofNat 64 v) := rfl
@[simp] theorem Panel.setSh_sites (o v : Nat) : (p.setSh o v).sites = p.sites := rfl
@[simp] theorem Panel.setSh_agents (o v : Nat) : (p.setSh o v).agents = p.agents := rfl
@[simp] theorem Panel.setSh_losses (o v : Nat) : (p.setSh o v).losses = p.losses := rfl
@[simp] theorem Panel.setSh_handles (o v : Nat) : (p.setSh o v).handles = p.handles := rfl
@[simp] theorem Panel.setSh_heldRecs (o v : Nat) : (p.setSh o v).heldRecs = p.heldRecs := rfl
@[simp] theorem Panel.setSh_kv (o v : Nat) : (p.setSh o v).kv = p.kv := rfl
@[simp] theorem Panel.setSh_models (o v : Nat) : (p.setSh o v).models = p.models := rfl
@[simp] theorem Panel.setSh_qsets (o v : Nat) : (p.setSh o v).qsets = p.qsets := rfl
@[simp] theorem Panel.setSh_fns (o v : Nat) : (p.setSh o v).fns = p.fns := rfl
@[simp] theorem Panel.setSh_lostStacks (o v : Nat) : (p.setSh o v).lostStacks = p.lostStacks := rfl
@[simp] theorem Panel.setSh_upMask (o v : Nat) : (p.setSh o v).upMask = p.upMask := rfl
@[simp] theorem Panel.setSh_maint (o v : Nat) : (p.setSh o v).maint = p.maint := rfl
@[simp] theorem Panel.setSh_pow (o v : Nat) : (p.setSh o v).pow = p.pow := rfl
@[simp] theorem Panel.setSh_flash (o v : Nat) : (p.setSh o v).flash = p.flash := rfl
@[simp] theorem Panel.setSh_boot (o v : Nat) : (p.setSh o v).boot = p.boot := rfl
@[simp] theorem Panel.setSh_repair (o v : Nat) : (p.setSh o v).repair = p.repair := rfl
@[simp] theorem Panel.setSh_tests (o v : Nat) : (p.setSh o v).tests = p.tests := rfl
@[simp] theorem Panel.setSh_testRun (o v : Nat) : (p.setSh o v).testRun = p.testRun := rfl
@[simp] theorem Panel.setSh_rcmds (o v : Nat) : (p.setSh o v).rcmds = p.rcmds := rfl
@[simp] theorem Panel.setSh_change (o v : Nat) : (p.setSh o v).change = p.change := rfl
@[simp] theorem Panel.setSh_auths (o v : Nat) : (p.setSh o v).auths = p.auths := rfl

/-! ### bumpSh -/

@[simp] theorem Panel.bumpSh_fuses (o n : Nat) : (p.bumpSh o n).fuses = p.fuses := rfl
@[simp] theorem Panel.bumpSh_dial (o n : Nat) : (p.bumpSh o n).dial = p.dial := rfl
@[simp] theorem Panel.bumpSh_dialRuns (o n : Nat) : (p.bumpSh o n).dialRuns = p.dialRuns := rfl
@[simp] theorem Panel.bumpSh_free (o n : Nat) : (p.bumpSh o n).free = p.free := rfl
@[simp] theorem Panel.bumpSh_out (o n : Nat) : (p.bumpSh o n).out = p.out := rfl
@[simp] theorem Panel.bumpSh_cores (o n : Nat) : (p.bumpSh o n).cores = p.cores := rfl
@[simp] theorem Panel.bumpSh_hubs (o n : Nat) : (p.bumpSh o n).hubs = p.hubs := rfl
@[simp] theorem Panel.bumpSh_ports (o n : Nat) : (p.bumpSh o n).ports = p.ports := rfl
@[simp] theorem Panel.bumpSh_crowns (o n : Nat) : (p.bumpSh o n).crowns = p.crowns := rfl
@[simp] theorem Panel.bumpSh_shared (o n : Nat) : (p.bumpSh o n).shared = rfBump p.shared o n := rfl
@[simp] theorem Panel.bumpSh_sites (o n : Nat) : (p.bumpSh o n).sites = p.sites := rfl
@[simp] theorem Panel.bumpSh_agents (o n : Nat) : (p.bumpSh o n).agents = p.agents := rfl
@[simp] theorem Panel.bumpSh_losses (o n : Nat) : (p.bumpSh o n).losses = p.losses := rfl
@[simp] theorem Panel.bumpSh_handles (o n : Nat) : (p.bumpSh o n).handles = p.handles := rfl
@[simp] theorem Panel.bumpSh_heldRecs (o n : Nat) : (p.bumpSh o n).heldRecs = p.heldRecs := rfl
@[simp] theorem Panel.bumpSh_kv (o n : Nat) : (p.bumpSh o n).kv = p.kv := rfl
@[simp] theorem Panel.bumpSh_models (o n : Nat) : (p.bumpSh o n).models = p.models := rfl
@[simp] theorem Panel.bumpSh_qsets (o n : Nat) : (p.bumpSh o n).qsets = p.qsets := rfl
@[simp] theorem Panel.bumpSh_fns (o n : Nat) : (p.bumpSh o n).fns = p.fns := rfl
@[simp] theorem Panel.bumpSh_lostStacks (o n : Nat) : (p.bumpSh o n).lostStacks = p.lostStacks := rfl
@[simp] theorem Panel.bumpSh_upMask (o n : Nat) : (p.bumpSh o n).upMask = p.upMask := rfl
@[simp] theorem Panel.bumpSh_maint (o n : Nat) : (p.bumpSh o n).maint = p.maint := rfl
@[simp] theorem Panel.bumpSh_pow (o n : Nat) : (p.bumpSh o n).pow = p.pow := rfl
@[simp] theorem Panel.bumpSh_flash (o n : Nat) : (p.bumpSh o n).flash = p.flash := rfl
@[simp] theorem Panel.bumpSh_boot (o n : Nat) : (p.bumpSh o n).boot = p.boot := rfl
@[simp] theorem Panel.bumpSh_repair (o n : Nat) : (p.bumpSh o n).repair = p.repair := rfl
@[simp] theorem Panel.bumpSh_tests (o n : Nat) : (p.bumpSh o n).tests = p.tests := rfl
@[simp] theorem Panel.bumpSh_testRun (o n : Nat) : (p.bumpSh o n).testRun = p.testRun := rfl
@[simp] theorem Panel.bumpSh_rcmds (o n : Nat) : (p.bumpSh o n).rcmds = p.rcmds := rfl
@[simp] theorem Panel.bumpSh_change (o n : Nat) : (p.bumpSh o n).change = p.change := rfl
@[simp] theorem Panel.bumpSh_auths (o n : Nat) : (p.bumpSh o n).auths = p.auths := rfl

/-! ### wrapSh -/

@[simp] theorem Panel.wrapSh_fuses (o n : Nat) : (p.wrapSh o n).fuses = p.fuses := rfl
@[simp] theorem Panel.wrapSh_dial (o n : Nat) : (p.wrapSh o n).dial = p.dial := rfl
@[simp] theorem Panel.wrapSh_dialRuns (o n : Nat) : (p.wrapSh o n).dialRuns = p.dialRuns := rfl
@[simp] theorem Panel.wrapSh_free (o n : Nat) : (p.wrapSh o n).free = p.free := rfl
@[simp] theorem Panel.wrapSh_out (o n : Nat) : (p.wrapSh o n).out = p.out := rfl
@[simp] theorem Panel.wrapSh_cores (o n : Nat) : (p.wrapSh o n).cores = p.cores := rfl
@[simp] theorem Panel.wrapSh_hubs (o n : Nat) : (p.wrapSh o n).hubs = p.hubs := rfl
@[simp] theorem Panel.wrapSh_ports (o n : Nat) : (p.wrapSh o n).ports = p.ports := rfl
@[simp] theorem Panel.wrapSh_crowns (o n : Nat) : (p.wrapSh o n).crowns = p.crowns := rfl
@[simp] theorem Panel.wrapSh_shared (o n : Nat) : (p.wrapSh o n).shared = rfWrap p.shared o n := rfl
@[simp] theorem Panel.wrapSh_sites (o n : Nat) : (p.wrapSh o n).sites = p.sites := rfl
@[simp] theorem Panel.wrapSh_agents (o n : Nat) : (p.wrapSh o n).agents = p.agents := rfl
@[simp] theorem Panel.wrapSh_losses (o n : Nat) : (p.wrapSh o n).losses = p.losses := rfl
@[simp] theorem Panel.wrapSh_handles (o n : Nat) : (p.wrapSh o n).handles = p.handles := rfl
@[simp] theorem Panel.wrapSh_heldRecs (o n : Nat) : (p.wrapSh o n).heldRecs = p.heldRecs := rfl
@[simp] theorem Panel.wrapSh_kv (o n : Nat) : (p.wrapSh o n).kv = p.kv := rfl
@[simp] theorem Panel.wrapSh_models (o n : Nat) : (p.wrapSh o n).models = p.models := rfl
@[simp] theorem Panel.wrapSh_qsets (o n : Nat) : (p.wrapSh o n).qsets = p.qsets := rfl
@[simp] theorem Panel.wrapSh_fns (o n : Nat) : (p.wrapSh o n).fns = p.fns := rfl
@[simp] theorem Panel.wrapSh_lostStacks (o n : Nat) : (p.wrapSh o n).lostStacks = p.lostStacks := rfl
@[simp] theorem Panel.wrapSh_upMask (o n : Nat) : (p.wrapSh o n).upMask = p.upMask := rfl
@[simp] theorem Panel.wrapSh_maint (o n : Nat) : (p.wrapSh o n).maint = p.maint := rfl
@[simp] theorem Panel.wrapSh_pow (o n : Nat) : (p.wrapSh o n).pow = p.pow := rfl
@[simp] theorem Panel.wrapSh_flash (o n : Nat) : (p.wrapSh o n).flash = p.flash := rfl
@[simp] theorem Panel.wrapSh_boot (o n : Nat) : (p.wrapSh o n).boot = p.boot := rfl
@[simp] theorem Panel.wrapSh_repair (o n : Nat) : (p.wrapSh o n).repair = p.repair := rfl
@[simp] theorem Panel.wrapSh_tests (o n : Nat) : (p.wrapSh o n).tests = p.tests := rfl
@[simp] theorem Panel.wrapSh_testRun (o n : Nat) : (p.wrapSh o n).testRun = p.testRun := rfl
@[simp] theorem Panel.wrapSh_rcmds (o n : Nat) : (p.wrapSh o n).rcmds = p.rcmds := rfl
@[simp] theorem Panel.wrapSh_change (o n : Nat) : (p.wrapSh o n).change = p.change := rfl
@[simp] theorem Panel.wrapSh_auths (o n : Nat) : (p.wrapSh o n).auths = p.auths := rfl

/-! ### emit -/

@[simp] theorem Panel.emit_fuses (o : OutRec) : (p.emit o).fuses = p.fuses := rfl
@[simp] theorem Panel.emit_dial (o : OutRec) : (p.emit o).dial = p.dial := rfl
@[simp] theorem Panel.emit_dialRuns (o : OutRec) : (p.emit o).dialRuns = p.dialRuns := rfl
@[simp] theorem Panel.emit_free (o : OutRec) : (p.emit o).free = p.free := rfl
@[simp] theorem Panel.emit_out (o : OutRec) : (p.emit o).out = o :: p.out := rfl
@[simp] theorem Panel.emit_cores (o : OutRec) : (p.emit o).cores = p.cores := rfl
@[simp] theorem Panel.emit_hubs (o : OutRec) : (p.emit o).hubs = p.hubs := rfl
@[simp] theorem Panel.emit_ports (o : OutRec) : (p.emit o).ports = p.ports := rfl
@[simp] theorem Panel.emit_crowns (o : OutRec) : (p.emit o).crowns = p.crowns := rfl
@[simp] theorem Panel.emit_shared (o : OutRec) : (p.emit o).shared = p.shared := rfl
@[simp] theorem Panel.emit_sites (o : OutRec) : (p.emit o).sites = p.sites := rfl
@[simp] theorem Panel.emit_agents (o : OutRec) : (p.emit o).agents = p.agents := rfl
@[simp] theorem Panel.emit_losses (o : OutRec) : (p.emit o).losses = p.losses := rfl
@[simp] theorem Panel.emit_handles (o : OutRec) : (p.emit o).handles = p.handles := rfl
@[simp] theorem Panel.emit_heldRecs (o : OutRec) : (p.emit o).heldRecs = p.heldRecs := rfl
@[simp] theorem Panel.emit_kv (o : OutRec) : (p.emit o).kv = p.kv := rfl
@[simp] theorem Panel.emit_models (o : OutRec) : (p.emit o).models = p.models := rfl
@[simp] theorem Panel.emit_qsets (o : OutRec) : (p.emit o).qsets = p.qsets := rfl
@[simp] theorem Panel.emit_fns (o : OutRec) : (p.emit o).fns = p.fns := rfl
@[simp] theorem Panel.emit_lostStacks (o : OutRec) : (p.emit o).lostStacks = p.lostStacks := rfl
@[simp] theorem Panel.emit_upMask (o : OutRec) : (p.emit o).upMask = p.upMask := rfl
@[simp] theorem Panel.emit_maint (o : OutRec) : (p.emit o).maint = p.maint := rfl
@[simp] theorem Panel.emit_pow (o : OutRec) : (p.emit o).pow = p.pow := rfl
@[simp] theorem Panel.emit_flash (o : OutRec) : (p.emit o).flash = p.flash := rfl
@[simp] theorem Panel.emit_boot (o : OutRec) : (p.emit o).boot = p.boot := rfl
@[simp] theorem Panel.emit_repair (o : OutRec) : (p.emit o).repair = p.repair := rfl
@[simp] theorem Panel.emit_tests (o : OutRec) : (p.emit o).tests = p.tests := rfl
@[simp] theorem Panel.emit_testRun (o : OutRec) : (p.emit o).testRun = p.testRun := rfl
@[simp] theorem Panel.emit_rcmds (o : OutRec) : (p.emit o).rcmds = p.rcmds := rfl
@[simp] theorem Panel.emit_change (o : OutRec) : (p.emit o).change = p.change := rfl
@[simp] theorem Panel.emit_auths (o : OutRec) : (p.emit o).auths = p.auths := rfl

/-! ### setShF -/

@[simp] theorem Panel.setShF_fuses (o hi lo n : Nat) : (p.setShF o hi lo n).fuses = p.fuses := rfl
@[simp] theorem Panel.setShF_dial (o hi lo n : Nat) : (p.setShF o hi lo n).dial = p.dial := rfl
@[simp] theorem Panel.setShF_dialRuns (o hi lo n : Nat) : (p.setShF o hi lo n).dialRuns = p.dialRuns := rfl
@[simp] theorem Panel.setShF_free (o hi lo n : Nat) : (p.setShF o hi lo n).free = p.free := rfl
@[simp] theorem Panel.setShF_out (o hi lo n : Nat) : (p.setShF o hi lo n).out = p.out := rfl
@[simp] theorem Panel.setShF_cores (o hi lo n : Nat) : (p.setShF o hi lo n).cores = p.cores := rfl
@[simp] theorem Panel.setShF_hubs (o hi lo n : Nat) : (p.setShF o hi lo n).hubs = p.hubs := rfl
@[simp] theorem Panel.setShF_ports (o hi lo n : Nat) : (p.setShF o hi lo n).ports = p.ports := rfl
@[simp] theorem Panel.setShF_crowns (o hi lo n : Nat) : (p.setShF o hi lo n).crowns = p.crowns := rfl
@[simp] theorem Panel.setShF_sites (o hi lo n : Nat) : (p.setShF o hi lo n).sites = p.sites := rfl
@[simp] theorem Panel.setShF_agents (o hi lo n : Nat) : (p.setShF o hi lo n).agents = p.agents := rfl
@[simp] theorem Panel.setShF_losses (o hi lo n : Nat) : (p.setShF o hi lo n).losses = p.losses := rfl
@[simp] theorem Panel.setShF_handles (o hi lo n : Nat) : (p.setShF o hi lo n).handles = p.handles := rfl
@[simp] theorem Panel.setShF_heldRecs (o hi lo n : Nat) : (p.setShF o hi lo n).heldRecs = p.heldRecs := rfl
@[simp] theorem Panel.setShF_kv (o hi lo n : Nat) : (p.setShF o hi lo n).kv = p.kv := rfl
@[simp] theorem Panel.setShF_models (o hi lo n : Nat) : (p.setShF o hi lo n).models = p.models := rfl
@[simp] theorem Panel.setShF_qsets (o hi lo n : Nat) : (p.setShF o hi lo n).qsets = p.qsets := rfl
@[simp] theorem Panel.setShF_fns (o hi lo n : Nat) : (p.setShF o hi lo n).fns = p.fns := rfl
@[simp] theorem Panel.setShF_lostStacks (o hi lo n : Nat) : (p.setShF o hi lo n).lostStacks = p.lostStacks := rfl
@[simp] theorem Panel.setShF_upMask (o hi lo n : Nat) : (p.setShF o hi lo n).upMask = p.upMask := rfl
@[simp] theorem Panel.setShF_maint (o hi lo n : Nat) : (p.setShF o hi lo n).maint = p.maint := rfl
@[simp] theorem Panel.setShF_pow (o hi lo n : Nat) : (p.setShF o hi lo n).pow = p.pow := rfl
@[simp] theorem Panel.setShF_flash (o hi lo n : Nat) : (p.setShF o hi lo n).flash = p.flash := rfl
@[simp] theorem Panel.setShF_boot (o hi lo n : Nat) : (p.setShF o hi lo n).boot = p.boot := rfl
@[simp] theorem Panel.setShF_repair (o hi lo n : Nat) : (p.setShF o hi lo n).repair = p.repair := rfl
@[simp] theorem Panel.setShF_tests (o hi lo n : Nat) : (p.setShF o hi lo n).tests = p.tests := rfl
@[simp] theorem Panel.setShF_testRun (o hi lo n : Nat) : (p.setShF o hi lo n).testRun = p.testRun := rfl
@[simp] theorem Panel.setShF_rcmds (o hi lo n : Nat) : (p.setShF o hi lo n).rcmds = p.rcmds := rfl
@[simp] theorem Panel.setShF_change (o hi lo n : Nat) : (p.setShF o hi lo n).change = p.change := rfl
@[simp] theorem Panel.setShF_auths (o hi lo n : Nat) : (p.setShF o hi lo n).auths = p.auths := rfl

/-! ### Registers of a core -/

variable (k : Core)

@[simp] theorem Core.wr_powered (o v : Nat) : (k.wr o v).powered = k.powered := rfl
@[simp] theorem Core.wr_latch (o v : Nat) : (k.wr o v).latch = k.latch := rfl
@[simp] theorem Core.wr_seq (o v : Nat) : (k.wr o v).seq = k.seq := rfl
@[simp] theorem Core.wr_me (o v : Nat) : (k.wr o v).me = k.me := rfl
@[simp] theorem Core.wr_ve (o v : Nat) : (k.wr o v).ve = k.ve := rfl
@[simp] theorem Core.wr_ru (o v : Nat) : (k.wr o v).ru = k.ru := rfl
@[simp] theorem Core.wr_spad (o v : Nat) : (k.wr o v).spad = k.spad := rfl
@[simp] theorem Core.wr_rt (o v : Nat) : (k.wr o v).rt = k.rt := rfl
@[simp] theorem Core.wr_dma (o v : Nat) : (k.wr o v).dma = k.dma := rfl
@[simp] theorem Core.wr_arr (o v : Nat) : (k.wr o v).arr = k.arr := rfl
@[simp] theorem Core.wr_log (o v : Nat) : (k.wr o v).log = k.log := rfl
@[simp] theorem Core.wr_hbSent (o v : Nat) : (k.wr o v).hbSent = k.hbSent := rfl
@[simp] theorem Core.wr_hbHeard (o v : Nat) : (k.wr o v).hbHeard = k.hbHeard := rfl
@[simp] theorem Core.wr_hbAcked (o v : Nat) : (k.wr o v).hbAcked = k.hbAcked := rfl
@[simp] theorem Core.wr_hbToCrown (o v : Nat) : (k.wr o v).hbToCrown = k.hbToCrown := rfl
@[simp] theorem Core.wr_haltSince (o v : Nat) : (k.wr o v).haltSince = k.haltSince := rfl
@[simp] theorem Core.wr_clk (o v : Nat) : (k.wr o v).clk = k.clk := rfl
@[simp] theorem Core.wr_heat (o v : Nat) : (k.wr o v).heat = k.heat := rfl
@[simp] theorem Core.wr_staged (o v : Nat) : (k.wr o v).staged = k.staged := rfl
@[simp] theorem Core.wr_snap (o v : Nat) : (k.wr o v).snap = k.snap := rfl
@[simp] theorem Core.bump_powered (o n : Nat) : (k.bump o n).powered = k.powered := rfl
@[simp] theorem Core.bump_latch (o n : Nat) : (k.bump o n).latch = k.latch := rfl
@[simp] theorem Core.bump_seq (o n : Nat) : (k.bump o n).seq = k.seq := rfl
@[simp] theorem Core.bump_me (o n : Nat) : (k.bump o n).me = k.me := rfl
@[simp] theorem Core.bump_ve (o n : Nat) : (k.bump o n).ve = k.ve := rfl
@[simp] theorem Core.bump_ru (o n : Nat) : (k.bump o n).ru = k.ru := rfl
@[simp] theorem Core.bump_spad (o n : Nat) : (k.bump o n).spad = k.spad := rfl
@[simp] theorem Core.bump_rt (o n : Nat) : (k.bump o n).rt = k.rt := rfl
@[simp] theorem Core.bump_dma (o n : Nat) : (k.bump o n).dma = k.dma := rfl
@[simp] theorem Core.bump_arr (o n : Nat) : (k.bump o n).arr = k.arr := rfl
@[simp] theorem Core.bump_log (o n : Nat) : (k.bump o n).log = k.log := rfl
@[simp] theorem Core.bump_hbSent (o n : Nat) : (k.bump o n).hbSent = k.hbSent := rfl
@[simp] theorem Core.bump_hbHeard (o n : Nat) : (k.bump o n).hbHeard = k.hbHeard := rfl
@[simp] theorem Core.bump_hbAcked (o n : Nat) : (k.bump o n).hbAcked = k.hbAcked := rfl
@[simp] theorem Core.bump_hbToCrown (o n : Nat) : (k.bump o n).hbToCrown = k.hbToCrown := rfl
@[simp] theorem Core.bump_haltSince (o n : Nat) : (k.bump o n).haltSince = k.haltSince := rfl
@[simp] theorem Core.bump_clk (o n : Nat) : (k.bump o n).clk = k.clk := rfl
@[simp] theorem Core.bump_heat (o n : Nat) : (k.bump o n).heat = k.heat := rfl
@[simp] theorem Core.bump_staged (o n : Nat) : (k.bump o n).staged = k.staged := rfl
@[simp] theorem Core.bump_snap (o n : Nat) : (k.bump o n).snap = k.snap := rfl
@[simp] theorem Core.wrap_powered (o n : Nat) : (k.wrap o n).powered = k.powered := rfl
@[simp] theorem Core.wrap_latch (o n : Nat) : (k.wrap o n).latch = k.latch := rfl
@[simp] theorem Core.wrap_seq (o n : Nat) : (k.wrap o n).seq = k.seq := rfl
@[simp] theorem Core.wrap_me (o n : Nat) : (k.wrap o n).me = k.me := rfl
@[simp] theorem Core.wrap_ve (o n : Nat) : (k.wrap o n).ve = k.ve := rfl
@[simp] theorem Core.wrap_ru (o n : Nat) : (k.wrap o n).ru = k.ru := rfl
@[simp] theorem Core.wrap_spad (o n : Nat) : (k.wrap o n).spad = k.spad := rfl
@[simp] theorem Core.wrap_rt (o n : Nat) : (k.wrap o n).rt = k.rt := rfl
@[simp] theorem Core.wrap_dma (o n : Nat) : (k.wrap o n).dma = k.dma := rfl
@[simp] theorem Core.wrap_arr (o n : Nat) : (k.wrap o n).arr = k.arr := rfl
@[simp] theorem Core.wrap_log (o n : Nat) : (k.wrap o n).log = k.log := rfl
@[simp] theorem Core.wrap_hbSent (o n : Nat) : (k.wrap o n).hbSent = k.hbSent := rfl
@[simp] theorem Core.wrap_hbHeard (o n : Nat) : (k.wrap o n).hbHeard = k.hbHeard := rfl
@[simp] theorem Core.wrap_hbAcked (o n : Nat) : (k.wrap o n).hbAcked = k.hbAcked := rfl
@[simp] theorem Core.wrap_hbToCrown (o n : Nat) : (k.wrap o n).hbToCrown = k.hbToCrown := rfl
@[simp] theorem Core.wrap_haltSince (o n : Nat) : (k.wrap o n).haltSince = k.haltSince := rfl
@[simp] theorem Core.wrap_clk (o n : Nat) : (k.wrap o n).clk = k.clk := rfl
@[simp] theorem Core.wrap_heat (o n : Nat) : (k.wrap o n).heat = k.heat := rfl
@[simp] theorem Core.wrap_staged (o n : Nat) : (k.wrap o n).staged = k.staged := rfl
@[simp] theorem Core.wrap_snap (o n : Nat) : (k.wrap o n).snap = k.snap := rfl
@[simp] theorem Core.setF_powered (o hi lo n : Nat) : (k.setF o hi lo n).powered = k.powered := rfl
@[simp] theorem Core.setF_latch (o hi lo n : Nat) : (k.setF o hi lo n).latch = k.latch := rfl
@[simp] theorem Core.setF_seq (o hi lo n : Nat) : (k.setF o hi lo n).seq = k.seq := rfl
@[simp] theorem Core.setF_me (o hi lo n : Nat) : (k.setF o hi lo n).me = k.me := rfl
@[simp] theorem Core.setF_ve (o hi lo n : Nat) : (k.setF o hi lo n).ve = k.ve := rfl
@[simp] theorem Core.setF_ru (o hi lo n : Nat) : (k.setF o hi lo n).ru = k.ru := rfl
@[simp] theorem Core.setF_spad (o hi lo n : Nat) : (k.setF o hi lo n).spad = k.spad := rfl
@[simp] theorem Core.setF_rt (o hi lo n : Nat) : (k.setF o hi lo n).rt = k.rt := rfl
@[simp] theorem Core.setF_dma (o hi lo n : Nat) : (k.setF o hi lo n).dma = k.dma := rfl
@[simp] theorem Core.setF_arr (o hi lo n : Nat) : (k.setF o hi lo n).arr = k.arr := rfl
@[simp] theorem Core.setF_log (o hi lo n : Nat) : (k.setF o hi lo n).log = k.log := rfl
@[simp] theorem Core.setF_hbSent (o hi lo n : Nat) : (k.setF o hi lo n).hbSent = k.hbSent := rfl
@[simp] theorem Core.setF_hbHeard (o hi lo n : Nat) : (k.setF o hi lo n).hbHeard = k.hbHeard := rfl
@[simp] theorem Core.setF_hbAcked (o hi lo n : Nat) : (k.setF o hi lo n).hbAcked = k.hbAcked := rfl
@[simp] theorem Core.setF_hbToCrown (o hi lo n : Nat) : (k.setF o hi lo n).hbToCrown = k.hbToCrown := rfl
@[simp] theorem Core.setF_haltSince (o hi lo n : Nat) : (k.setF o hi lo n).haltSince = k.haltSince := rfl
@[simp] theorem Core.setF_clk (o hi lo n : Nat) : (k.setF o hi lo n).clk = k.clk := rfl
@[simp] theorem Core.setF_heat (o hi lo n : Nat) : (k.setF o hi lo n).heat = k.heat := rfl
@[simp] theorem Core.setF_staged (o hi lo n : Nat) : (k.setF o hi lo n).staged = k.staged := rfl
@[simp] theorem Core.setF_snap (o hi lo n : Nat) : (k.setF o hi lo n).snap = k.snap := rfl

end Sys2Proof.Machine
end

