-- ==== Sys2Proof/Laws/Maps.lean ====
section
/-! SUPPORT. The laws of the sparse maps: what is found after a key is set or unlisted, and the same of the dies, sites and
registers that stand in them. -/

namespace Sys2Proof.Machine

/-! ### Sparse maps -/

@[simp] theorem find_put_same {α : Type} (m : Sparse α) (n : Nat) (v : α) : find (put m n v) n = some v := by
  induction m with
  | nil => simp [put, find]
  | cons x m ih =>
    obtain ⟨k, w⟩ := x
    simp only [put]
    split_ifs with h1 h2
    · simp [find]
    · simp [find]
    · simp [find, h2, ih]

theorem find_put_other {α : Type} (m : Sparse α) {n j : Nat} (v : α) (h : j ≠ n) : find (put m n v) j = find m j := by
  induction m with
  | nil => simp [put, find, h]
  | cons x m ih =>
    obtain ⟨k, w⟩ := x
    simp only [put]
    split_ifs with h1 h2
    · simp [find, h]
    · subst h2; simp [find, h]
    · simp [find, ih]

@[simp] theorem find_drop_same {α : Type} (m : Sparse α) (n : Nat) : find (drop m n) n = none := by
  induction m with
  | nil => simp [drop, find]
  | cons x m ih =>
    obtain ⟨k, w⟩ := x
    simp only [drop]
    split_ifs with h
    · exact ih
    · simp [find, h, ih]

theorem find_drop_other {α : Type} (m : Sparse α) {n j : Nat} (h : j ≠ n) : find (drop m n) j = find m j := by
  induction m with
  | nil => simp [drop, find]
  | cons x m ih =>
    obtain ⟨k, w⟩ := x
    simp only [drop]
    split_ifs with hk
    · subst hk; simp [find, h, ih]
    · simp [find, ih]

@[simp] theorem look_put_same {α : Type} (d : α) (m : Sparse α) (n : Nat) (v : α) : look d (put m n v) n = v := by
  simp [look]

theorem look_put_other {α : Type} (d : α) (m : Sparse α) {n j : Nat} (v : α) (h : j ≠ n) :
    look d (put m n v) j = look d m j := by simp [look, find_put_other m v h]

@[simp] theorem look_putZ_same {w : Nat} (m : Sparse (BitVec w)) (n : Nat) (v : BitVec w) : look 0 (putZ m n v) n = v := by
  unfold putZ
  split_ifs with h
  · simp [look, h]
  · simp

theorem look_putZ_other {w : Nat} (m : Sparse (BitVec w)) {n j : Nat} (v : BitVec w) (h : j ≠ n) :
    look 0 (putZ m n v) j = look 0 m j := by
  unfold putZ
  split_ifs
  · simp [look, find_drop_other m h]
  · exact look_put_other 0 m v h

@[simp] theorem look_alter_same {α : Type} (d : α) (m : Sparse α) (n : Nat) (f : α → α) :
    look d (alter d m n f) n = f (look d m n) := by simp [alter]

theorem look_alter_other {α : Type} (d : α) (m : Sparse α) {n j : Nat} (f : α → α) (h : j ≠ n) :
    look d (alter d m n f) j = look d m j := look_put_other d m _ h

/-! ### Dies and sites -/

theorem Crown.num_injective {a b : Crown} (h : a.num = b.num) : a = b := by
  cases a <;> cases b <;> first | rfl | simp [Crown.num] at h

@[simp] theorem Panel.core_setCore (p : Panel) (n : Nat) (k : Core) : (p.setCore n k).core n = k := by
  simp [Panel.core]
theorem Panel.core_setCore_other (p : Panel) {n m : Nat} (k : Core) (h : m ≠ n) : (p.setCore n k).core m = p.core m := by
  simp [Panel.core, look_put_other _ _ _ h]
@[simp] theorem Panel.core_modCore (p : Panel) (n : Nat) (f : Core → Core) : (p.modCore n f).core n = f (p.core n) := by
  simp [Panel.modCore]
theorem Panel.core_modCore_other (p : Panel) {n m : Nat} (f : Core → Core) (h : m ≠ n) :
    (p.modCore n f).core m = p.core m := p.core_setCore_other _ h

@[simp] theorem Panel.hub_setHub (p : Panel) (n : Nat) (k : Hub) : (p.setHub n k).hub n = k := by simp [Panel.hub]
theorem Panel.hub_setHub_other (p : Panel) {n m : Nat} (k : Hub) (h : m ≠ n) : (p.setHub n k).hub m = p.hub m := by
  simp [Panel.hub, look_put_other _ _ _ h]
@[simp] theorem Panel.hub_modHub (p : Panel) (n : Nat) (f : Hub → Hub) : (p.modHub n f).hub n = f (p.hub n) := by
  simp [Panel.modHub]
theorem Panel.hub_modHub_other (p : Panel) {n m : Nat} (f : Hub → Hub) (h : m ≠ n) : (p.modHub n f).hub m = p.hub m :=
  p.hub_setHub_other _ h

@[simp] theorem Panel.port_setPort (p : Panel) (n : Nat) (k : PortDie) : (p.setPort n k).port n = k := by simp [Panel.port]
theorem Panel.port_setPort_other (p : Panel) {n m : Nat} (k : PortDie) (h : m ≠ n) : (p.setPort n k).port m = p.port m := by
  simp [Panel.port, look_put_other _ _ _ h]
@[simp] theorem Panel.port_modPort (p : Panel) (n : Nat) (f : PortDie → PortDie) : (p.modPort n f).port n = f (p.port n) := by
  simp [Panel.modPort]
theorem Panel.port_modPort_other (p : Panel) {n m : Nat} (f : PortDie → PortDie) (h : m ≠ n) :
    (p.modPort n f).port m = p.port m := p.port_setPort_other _ h

@[simp] theorem Panel.crown_setCrown (p : Panel) (c : Crown) (k : CrownDie) : (p.setCrown c k).crown c = k := by
  simp [Panel.crown]
theorem Panel.crown_setCrown_other (p : Panel) {c d : Crown} (k : CrownDie) (h : d ≠ c) :
    (p.setCrown c k).crown d = p.crown d := by
  have : d.num ≠ c.num := fun e => h (Crown.num_injective e)
  simp [Panel.crown, look_put_other _ _ _ this]
@[simp] theorem Panel.crown_modCrown (p : Panel) (c : Crown) (f : CrownDie → CrownDie) :
    (p.modCrown c f).crown c = f (p.crown c) := by simp [Panel.modCrown]
theorem Panel.crown_modCrown_other (p : Panel) {c d : Crown} (f : CrownDie → CrownDie) (h : d ≠ c) :
    (p.modCrown c f).crown d = p.crown d := p.crown_setCrown_other _ h

@[simp] theorem Panel.site_setSite (p : Panel) (n : Nat) (k : SiteInfo) : (p.setSite n k).site n = k := by simp [Panel.site]
theorem Panel.site_setSite_other (p : Panel) {n m : Nat} (k : SiteInfo) (h : m ≠ n) : (p.setSite n k).site m = p.site m := by
  simp [Panel.site, look_put_other _ _ _ h]

/-! A die is read through the maps and the fuses alone. -/

@[simp] theorem Panel.core_emit (p : Panel) (o : OutRec) (n : Nat) : (p.emit o).core n = p.core n := rfl
@[simp] theorem Panel.hub_emit (p : Panel) (o : OutRec) (n : Nat) : (p.emit o).hub n = p.hub n := rfl
@[simp] theorem Panel.port_emit (p : Panel) (o : OutRec) (n : Nat) : (p.emit o).port n = p.port n := rfl
@[simp] theorem Panel.crown_emit (p : Panel) (o : OutRec) (c : Crown) : (p.emit o).crown c = p.crown c := rfl
@[simp] theorem Panel.site_emit (p : Panel) (o : OutRec) (n : Nat) : (p.emit o).site n = p.site n := rfl
@[simp] theorem Panel.core_setHub (p : Panel) (n m : Nat) (k : Hub) : (p.setHub n k).core m = p.core m := rfl
@[simp] theorem Panel.core_setPort (p : Panel) (n m : Nat) (k : PortDie) : (p.setPort n k).core m = p.core m := rfl
@[simp] theorem Panel.core_setCrown (p : Panel) (c : Crown) (m : Nat) (k : CrownDie) : (p.setCrown c k).core m = p.core m := rfl
@[simp] theorem Panel.core_setSh (p : Panel) (o v m : Nat) : (p.setSh o v).core m = p.core m := rfl
@[simp] theorem Panel.core_bumpSh (p : Panel) (o n m : Nat) : (p.bumpSh o n).core m = p.core m := rfl
@[simp] theorem Panel.hub_setCore (p : Panel) (n m : Nat) (k : Core) : (p.setCore n k).hub m = p.hub m := rfl
@[simp] theorem Panel.hub_setSh (p : Panel) (o v m : Nat) : (p.setSh o v).hub m = p.hub m := rfl
@[simp] theorem Panel.port_setSh (p : Panel) (o v m : Nat) : (p.setSh o v).port m = p.port m := rfl
@[simp] theorem Panel.crown_setSh (p : Panel) (o v : Nat) (c : Crown) : (p.setSh o v).crown c = p.crown c := rfl
@[simp] theorem Panel.crown_setCore (p : Panel) (n : Nat) (k : Core) (c : Crown) : (p.setCore n k).crown c = p.crown c := rfl
@[simp] theorem Panel.site_setCore (p : Panel) (n m : Nat) (k : Core) : (p.setCore n k).site m = p.site m := rfl
@[simp] theorem Panel.sh_setCore (p : Panel) (n o : Nat) (k : Core) : (p.setCore n k).sh o = p.sh o := rfl
@[simp] theorem Panel.sh_setCrown (p : Panel) (c : Crown) (o : Nat) (k : CrownDie) : (p.setCrown c k).sh o = p.sh o := rfl

/-! ### Registers -/

@[simp] theorem rfGet_rfSet_same (m : RegFile) (o : Nat) (v : W64) : rfGet (rfSet m o v) o = v := look_putZ_same m o v
theorem rfGet_rfSet_other (m : RegFile) {o j : Nat} (v : W64) (h : j ≠ o) : rfGet (rfSet m o v) j = rfGet m j :=
  look_putZ_other m v h

@[simp] theorem Core.rd_wr_same (k : Core) (o v : Nat) : (k.wr o v).rd o = v % 2 ^ 64 := by simp [Core.rd, Core.wr]
theorem Core.rd_wr_other (k : Core) {o j : Nat} (v : Nat) (h : j ≠ o) : (k.wr o v).rd j = k.rd j := by
  simp [Core.rd, Core.wr, rfGet_rfSet_other _ _ h]
@[simp] theorem Hub.rd_wr_same (k : Hub) (o v : Nat) : (k.wr o v).rd o = v % 2 ^ 64 := by simp [Hub.rd, Hub.wr]
@[simp] theorem PortDie.rd_wr_same (k : PortDie) (o v : Nat) : (k.wr o v).rd o = v % 2 ^ 64 := by
  simp [PortDie.rd, PortDie.wr]
@[simp] theorem CrownDie.rd_wr_same (k : CrownDie) (o v : Nat) : (k.wr o v).rd o = v % 2 ^ 64 := by
  simp [CrownDie.rd, CrownDie.wr]
@[simp] theorem Panel.sh_setSh_same (p : Panel) (o v : Nat) : (p.setSh o v).sh o = v % 2 ^ 64 := by simp [Panel.sh]
theorem Panel.sh_setSh_other (p : Panel) {o j : Nat} (v : Nat) (h : j ≠ o) : (p.setSh o v).sh j = p.sh j := by
  simp [Panel.sh, rfGet_rfSet_other _ _ h]

/-- A counter of events holds at all ones (R11). -/
theorem rfGet_rfBump_same (m : RegFile) (o n : Nat) :
    (rfGet (rfBump m o n) o).toNat = min cntTop ((rfGet m o).toNat + n) := by
  have h : cntTop < 18446744073709551616 := by decide
  simp [rfBump, satAdd, Or.inl h]
theorem Core.rd_bump_same (k : Core) (o n : Nat) : (k.bump o n).rd o = min cntTop (k.rd o + n) := rfGet_rfBump_same ..
theorem Core.rd_bump_other (k : Core) {o j : Nat} (n : Nat) (h : j ≠ o) : (k.bump o n).rd j = k.rd j := by
  simp [Core.rd, Core.bump, rfBump, rfGet_rfSet_other _ _ h]

end Sys2Proof.Machine
end

