-- ==== Sys2Proof/Laws/Memory.lean ====
section
/-! SUPPORT. The laws of the memories: a read after a write, and that every operation keeps the canonical form. -/

namespace Sys2Proof.Machine

/-! ### Read after write -/

@[simp] theorem cellAt_setCell_same (m : List Host.Cell) (a : Nat) (b : Byte) : cellAt (setCell m a b) a = b :=
  look_putZ_same m a b
theorem cellAt_setCell_other (m : List Host.Cell) {a j : Nat} (b : Byte) (h : j ≠ a) :
    cellAt (setCell m a b) j = cellAt m j := look_putZ_other m b h

/-- A byte outside the bytes written reads as before. -/
theorem cellAt_setCells_outside (bs : List Byte) (m : List Host.Cell) (a j : Nat) (h : j < a ∨ a + bs.length ≤ j) :
    cellAt (setCells m a bs) j = cellAt m j := by
  induction bs generalizing m a with
  | nil => rfl
  | cons b bs ih =>
    simp only [List.length_cons] at h
    rw [setCells, ih _ _ (by omega), cellAt_setCell_other _ _ (by omega)]

/-- A byte written reads as written. -/
theorem cellAt_setCells_inside (bs : List Byte) (m : List Host.Cell) (a i : Nat) (h : i < bs.length) :
    cellAt (setCells m a bs) (a + i) = bs[i] := by
  induction bs generalizing m a i with
  | nil => simp at h
  | cons b bs ih =>
    rw [setCells]
    cases i with
    | zero => rw [cellAt_setCells_outside _ _ _ _ (by omega)]; simp
    | succ i =>
      have := ih (setCell m a b) (a + 1) i (by simpa using h)
      simpa [Nat.add_assoc, Nat.add_comm 1 i] using this

/-! ### The canonical form -/

/-- A canonical list that starts later also starts earlier. -/
theorem cellsWfFrom_mono {lo lo' : Nat} {m : List Host.Cell} (h : cellsWfFrom lo m) (hl : lo' ≤ lo) : cellsWfFrom lo' m := by
  cases m with
  | nil => rfl
  | cons x m =>
    obtain ⟨k, w⟩ := x
    simp only [cellsWfFrom, Bool.and_eq_true, decide_eq_true_eq] at h ⊢
    exact ⟨⟨by omega, h.1.2⟩, h.2⟩

theorem cellsWfFrom_put {lo : Nat} {m : List Host.Cell} (h : cellsWfFrom lo m) {n : Nat} (hn : lo ≤ n) {v : Byte}
    (hv : v ≠ Mem.unlisted) : cellsWfFrom lo (put m n v) := by
  induction m generalizing lo with
  | nil => simp [put, cellsWfFrom, hn, hv]
  | cons x m ih =>
    obtain ⟨k, w⟩ := x
    simp only [cellsWfFrom, Bool.and_eq_true, decide_eq_true_eq] at h
    simp only [put]
    split_ifs with h1 h2
    · simp [cellsWfFrom, hn, hv, h.1.2, h.2]; omega
    · subst h2; simp [cellsWfFrom, hn, hv, h.2]
    · simp [cellsWfFrom, h.1.1, h.1.2, ih h.2 (by omega)]

theorem cellsWfFrom_drop {lo : Nat} {m : List Host.Cell} (h : cellsWfFrom lo m) (n : Nat) : cellsWfFrom lo (drop m n) := by
  induction m generalizing lo with
  | nil => rfl
  | cons x m ih =>
    obtain ⟨k, w⟩ := x
    simp only [cellsWfFrom, Bool.and_eq_true, decide_eq_true_eq] at h
    simp only [drop]
    split_ifs with h1
    · exact cellsWfFrom_mono (ih h.2) (by omega)
    · simp [cellsWfFrom, h.1.1, h.1.2, ih h.2]

theorem cellsWf_setCell {m : List Host.Cell} (h : cellsWf m) (a : Nat) (b : Byte) : cellsWf (setCell m a b) := by
  unfold setCell putZ
  split_ifs with hb
  · exact cellsWfFrom_drop h a
  · exact cellsWfFrom_put h (Nat.zero_le a) hb

theorem cellsWf_setCells {m : List Host.Cell} (h : cellsWf m) (a : Nat) (bs : List Byte) : cellsWf (setCells m a bs) := by
  induction bs generalizing m a with
  | nil => exact h
  | cons b bs ih => exact ih (cellsWf_setCell h a b) (a + 1)

theorem cellsWf_filter {lo : Nat} {m : List Host.Cell} (h : cellsWfFrom lo m) (f : Host.Cell → Bool) :
    cellsWfFrom lo (m.filter f) := by
  induction m generalizing lo with
  | nil => rfl
  | cons x m ih =>
    obtain ⟨k, w⟩ := x
    simp only [cellsWfFrom, Bool.and_eq_true, decide_eq_true_eq] at h
    rw [List.filter_cons]
    split_ifs
    · simp [cellsWfFrom, h.1.1, h.1.2, ih h.2]
    · exact cellsWfFrom_mono (ih h.2) (by omega)

theorem risingFrom_mono {lo lo' : Nat} {m : List Nat} (h : risingFrom lo m) (hl : lo' ≤ lo) : risingFrom lo' m := by
  cases m with
  | nil => rfl
  | cons k m =>
    simp only [risingFrom, Bool.and_eq_true, decide_eq_true_eq] at h ⊢
    exact ⟨by omega, h.2⟩

theorem risingFrom_filter {lo : Nat} {m : List Nat} (h : risingFrom lo m) (f : Nat → Bool) : risingFrom lo (m.filter f) := by
  induction m generalizing lo with
  | nil => rfl
  | cons k m ih =>
    simp only [risingFrom, Bool.and_eq_true, decide_eq_true_eq] at h
    rw [List.filter_cons]
    split_ifs
    · simp [risingFrom, h.1, ih h.2]
    · exact risingFrom_mono (ih h.2) (by omega)

theorem risingFrom_insertNat {lo : Nat} {m : List Nat} (h : risingFrom lo m) {n : Nat} (hn : lo ≤ n) :
    risingFrom lo (insertNat m n) := by
  induction m generalizing lo with
  | nil => simp [insertNat, risingFrom, hn]
  | cons k m ih =>
    simp only [risingFrom, Bool.and_eq_true, decide_eq_true_eq] at h
    simp only [insertNat]
    split_ifs with h1 h2
    · simp [risingFrom, hn, h.2]; omega
    · subst h2; simp [risingFrom, hn, h.2]
    · simp [risingFrom, h.1, ih h.2 (by omega)]

theorem Mem.wf_iff (m : Mem) : m.wf = true ↔ cellsWf m.cells = true ∧ cellsWf m.chk = true ∧ risingFrom 0 m.poison = true := by
  simp [Mem.wf, and_assoc]

/-- Storing a codeword keeps the canonical form. -/
theorem Mem.wf_setCw {m : Mem} (h : m.wf) (n : Nat) (c : Codeword) : (m.setCw n c).wf := by
  obtain ⟨h1, h2, h3⟩ := (Mem.wf_iff m).1 h
  refine (Mem.wf_iff _).2 ⟨cellsWf_setCells h1 _ _, cellsWf_setCells h2 _ _, ?_⟩
  simp only [Mem.setCw]
  split_ifs
  · exact risingFrom_insertNat h3 (Nat.zero_le _)
  · exact risingFrom_filter h3 _

theorem Mem.wf_setCws {m : Mem} (h : m.wf) (n : Nat) (cs : List Codeword) : (m.setCws n cs).wf := by
  induction cs generalizing m n with
  | nil => exact h
  | cons c cs ih => exact ih (Mem.wf_setCw h n c) (n + 1)

/-- An empty memory is canonical. -/
@[simp] theorem Mem.wf_empty : ({} : Mem).wf = true := rfl

/-- A data byte outside a stored codeword reads as before. -/
theorem Mem.byte_setCw_outside (m : Mem) (n : Nat) (c : Codeword) (a : Nat) (h : a < 32 * n ∨ 32 * n + 32 ≤ a) :
    (m.setCw n c).byte a = m.byte a := by
  have hl : (padTo 32 c.data).length = 32 := by simp [padTo]; omega
  exact cellAt_setCells_outside _ _ _ _ (by rw [hl]; exact h)

end Sys2Proof.Machine
end

