-- ==== Sys2Proof/Laws/Ops.lean ====
section
/-! SUPPORT. What the shapes that every meaning has can do: a meaning of each shape answers a next state, keeps the queue, and performs
its change where the panel is on and the site concerned has its supply or its clock. Then what a granted register write is. -/

namespace Sys2Proof.Machine

open Host (Outcome)

theorem always_eq (s : State) (f : Panel → Panel) : s.always f = .next { s with panel := f s.panel } := rfl

theorem onPanel_live {s : State} (h : s.panel.live = true) (f : Panel → Panel) :
    s.onPanel f = .next { s with panel := f s.panel } := by simp [State.onPanel, State.always, h]

theorem onPanel_dead {s : State} (h : s.panel.live = false) (f : Panel → Panel) : s.onPanel f = .next s := by
  simp [State.onPanel, State.always, h]

theorem onCore_clocked {s : State} {n : Nat} (h : s.panel.live = true) (hc : (s.panel.core n).clocked = true) (f : Core → Core) :
    s.onCore n f = .next { s with panel := s.panel.modCore n f } := by simp [State.onCore, onPanel_live h, hc]

theorem atCore_clocked {s : State} {n : Nat} (h : s.panel.live = true) (hc : (s.panel.core n).clocked = true)
    (f : Core → Panel → Panel) : s.atCore n f = .next { s with panel := f (s.panel.core n) s.panel } := by
  simp [State.atCore, onPanel_live h, hc]

theorem onSite_powered {s : State} {n : Nat} (h : s.panel.live = true) (hc : (s.panel.core n).powered = true) (f : Core → Core) :
    s.onSite n f = .next { s with panel := s.panel.modCore n f } := by simp [State.onSite, onPanel_live h, hc]

theorem atSite_powered {s : State} {n : Nat} (h : s.panel.live = true) (hc : (s.panel.core n).powered = true)
    (f : Core → Panel → Panel) : s.atSite n f = .next { s with panel := f (s.panel.core n) s.panel } := by
  simp [State.atSite, onPanel_live h, hc]

/-- Every shape answers a next state with the queue as it was. -/
theorem always_pending {s t : State} {f : Panel → Panel} (h : s.always f = .next t) : t.pending = s.pending := by
  cases h; rfl

/-! ### Granted register accesses -/

theorem granted_iff (p : Panel) (who : Requester) (die : Die) (off : Nat) : p.granted who die off = true ↔
    p.live = true ∧ p.asks who = true ∧ inBlock die off = true ∧ p.answers die off = true ∧ p.ringReach who die = true ∧
      p.mayWrite who die off false = true := by simp [Panel.granted, and_assoc]

theorem readable_iff (p : Panel) (who : Requester) (die : Die) (off : Nat) (acc : Acc) : p.readable who die off acc = true ↔
    p.live = true ∧ p.asks who = true ∧ inBlock die off = true ∧ p.answers die off = true ∧ p.ringReach who die = true ∧
      p.mayRead who die off acc = true := by simp [Panel.readable, and_assoc]

theorem sh_badAcc (p : Panel) : p.badAcc.sh Reg.PANEL_BADACC_CNT = min cntTop (p.sh Reg.PANEL_BADACC_CNT + 1) := by
  simp [Panel.badAcc, Panel.sh, Panel.bumpSh, rfGet_rfBump_same]

theorem wrote_core {p : Panel} {who : Requester} {n : Site} {off : Nat} (h : p.granted who (.core n) off = true) (bytes : Nat)
    (v : W64) (row : RegRow) (hh : dieHit (.core n) off bytes true = .reg row off) (hp : performed (.core n) row off = true) :
    p.wrote who (.core n) off bytes v = (p.coreWrite n row off v).emit (.answer who 0 St.done) := by
  obtain ⟨-, h1, h2, h3, h4, h5⟩ := (granted_iff ..).1 h
  have hb : (Hit.reg row off == Hit.rsv) = false := by simp
  simp [Panel.wrote, h1, Panel.regWrite, h2, h3, h4, h5, hh, hb, hp]

theorem wrote_hub {p : Panel} {who : Requester} {n : HubIx} {off : Nat} (h : p.granted who (.hub n) off = true) (bytes : Nat)
    (v : W64) (row : RegRow) (hh : dieHit (.hub n) off bytes true = .reg row off) (hp : performed (.hub n) row off = true) :
    p.wrote who (.hub n) off bytes v =
      (p.hubWrite who n row off v).2.emit (.answer who 0 (p.hubWrite who n row off v).1) := by
  obtain ⟨-, h1, h2, h3, h4, h5⟩ := (granted_iff ..).1 h
  have hb : (Hit.reg row off == Hit.rsv) = false := by simp
  simp [Panel.wrote, h1, Panel.regWrite, h2, h3, h4, h5, hh, hb, hp]

theorem wrote_port {p : Panel} {who : Requester} {n : PortIx} {off : Nat} (h : p.granted who (.port n) off = true) (bytes : Nat)
    (v : W64) (row : RegRow) (hh : dieHit (.port n) off bytes true = .reg row off) (hp : performed (.port n) row off = true) :
    p.wrote who (.port n) off bytes v = (p.portWrite n row off v).emit (.answer who 0 St.done) := by
  obtain ⟨-, h1, h2, h3, h4, h5⟩ := (granted_iff ..).1 h
  have hb : (Hit.reg row off == Hit.rsv) = false := by simp
  simp [Panel.wrote, h1, Panel.regWrite, h2, h3, h4, h5, hh, hb, hp]

theorem wrote_crown {p : Panel} {who : Requester} {c : Crown} {off : Nat} (h : p.granted who (.crown c) off = true) (bytes : Nat)
    (v : W64) (row : RegRow) (hh : dieHit (.crown c) off bytes true = .reg row off) (hp : performed (.crown c) row off = true) :
    p.wrote who (.crown c) off bytes v = (p.crownWriteReg c row off v).emit (.answer who 0 St.done) := by
  obtain ⟨-, h1, h2, h3, h4, h5⟩ := (granted_iff ..).1 h
  have hb : (Hit.reg row off == Hit.rsv) = false := by simp
  simp [Panel.wrote, h1, Panel.regWrite, h2, h3, h4, h5, hh, hb, hp]

end Sys2Proof.Machine
end

