-- ==== Sys2Proof/Laws/Seq.lean ====
section
/-! SUPPORT. The sequencer's shared operations: registers, semaphores and the advance past a word. -/

namespace Sys2Proof.Machine

/-! ### Registers (R67) -/

@[simp] theorem Core.g_zero (k : Core) : k.g 0 = 0 := rfl
theorem Core.g_setG_same (k : Core) (i : Nat) (v : W64) : (k.setG i v).g i = if i = 0 then 0 else v := by
  by_cases h : i = 0
  · simp [Core.setG, Core.g, h]
  · simp only [Core.setG, Core.g, h, if_false]; exact look_putZ_same ..
theorem Core.g_setG_other (k : Core) {i j : Nat} (v : W64) (h : j ≠ i) : (k.setG i v).g j = k.g j := by
  by_cases hi : i = 0
  · simp [Core.setG, hi]
  · simp only [Core.setG, Core.g, hi, if_false]; rw [look_putZ_other _ _ h]
@[simp] theorem Core.g_setTask (k : Core) (t : Task) (i : Nat) : (k.setTask t).g i = k.g i := rfl
@[simp] theorem Core.task_setTask (k : Core) (t : Task) : (k.setTask t).seq.task = some t := rfl
@[simp] theorem Core.inbox_setTask (k : Core) (t : Task) : (k.setTask t).seq.inbox = k.seq.inbox := rfl
@[simp] theorem Core.task_setG (k : Core) (i : Nat) (v : W64) : (k.setG i v).seq.task = k.seq.task := by
  unfold Core.setG; split <;> rfl
@[simp] theorem Core.inbox_setG (k : Core) (i : Nat) (v : W64) : (k.setG i v).seq.inbox = k.seq.inbox := by
  unfold Core.setG; split <;> rfl
@[simp] theorem Core.semaphores_setG (k : Core) (i : Nat) (v : W64) : (k.setG i v).seq.sem = k.seq.sem := by
  unfold Core.setG; split <;> rfl

/-! ### Semaphores (R76, R77) -/

@[simp] theorem Core.sem_setTask (k : Core) (t : Task) (i : Nat) : (k.setTask t).sem i = k.sem i := rfl
@[simp] theorem Core.sem_setG (k : Core) (i j : Nat) (v : W64) : (k.setG i v).sem j = k.sem j := by simp [Core.sem]
@[simp] theorem Core.sem_setSem (k : Core) (i v : Nat) : (k.setSem i v).sem i = v % 2 ^ 32 := by
  simp only [Core.sem, Core.setSem]; rw [look_putZ_same]; simp
theorem Core.sem_setSem_other (k : Core) {i j : Nat} (v : Nat) (h : j ≠ i) : (k.setSem i v).sem j = k.sem j := by
  simp only [Core.sem, Core.setSem]; rw [look_putZ_other _ _ h]
@[simp] theorem Core.sem_semSat (k : Core) (i j : Nat) : (k.semSat i).sem j = k.sem j := rfl
theorem Core.sem_lt (k : Core) (i : Nat) : k.sem i < 2 ^ 32 := (look 0 k.seq.sem i).isLt

/-! ### The advance past a word (R74) -/

theorem loopStep_midBody {t : Task} (h : t.midBody = true) (m : Nat) :
    loopStep (m + 1) t.loops t.pc = (t.loops, t.pc + 1, []) := by
  unfold Task.midBody at h
  cases hl : t.loops with
  | nil => rfl
  | cons l ls => simp [hl] at h; simp [loopStep, h]

/-- A word that ends no loop body goes on to its successor. -/
theorem Core.advance_midBody {t : Task} (h : t.midBody = true) (k : Core) :
    k.advance t = k.setTask { t with pc := t.pc + 1, waitFrom := none } := by
  simp [Core.advance, loopStep_midBody h]

/-- A word performed when it can issue. -/
theorem word_ready {s : State} {n : Nat} {op : Nat} {t : Task} {w : TaskWord} (hl : s.panel.live = true)
    (hc : (s.panel.core n).clocked = true) (h : (s.panel.core n).ready op = some (t, w)) (f : Task → TaskWord → Core → Core) :
    s.word n op f = .next { s with panel := s.panel.setCore n (f t w (s.panel.core n)) } := by
  simp [State.word, onCore_clocked hl hc, Panel.modCore, h]

end Sys2Proof.Machine
end

