-- ==== Sys2Proof/Laws/Mesh.lean ====
section
/-! SUPPORT. The mesh's shared operations: what the buffers, links and records of a router hold after each, and that the rest of the
core is as it was. -/

namespace Sys2Proof.Machine

/-! ### Records (R508) -/

theorem Core.logErr_rt (k : Core) (dial n : Nat) (i : LogItem) : (k.logErr dial n i).rt = k.rt := by
  unfold Core.logErr; simp only; split_ifs <;> rfl
theorem Core.logErr_seq (k : Core) (dial n : Nat) (i : LogItem) : (k.logErr dial n i).seq = k.seq := by
  unfold Core.logErr; simp only; split_ifs <;> rfl
theorem Core.logErr_spad (k : Core) (dial n : Nat) (i : LogItem) : (k.logErr dial n i).spad = k.spad := by
  unfold Core.logErr; simp only; split_ifs <;> rfl
theorem Core.logErr_arr (k : Core) (dial n : Nat) (i : LogItem) : (k.logErr dial n i).arr = k.arr := by
  unfold Core.logErr; simp only; split_ifs <;> rfl
theorem Core.logErr_powered (k : Core) (dial n : Nat) (i : LogItem) : (k.logErr dial n i).powered = k.powered := by
  unfold Core.logErr; simp only; split_ifs <;> rfl
theorem Core.logErr_rd (k : Core) (dial n : Nat) (i : LogItem) {off : Nat} (h : off ≠ Reg.ERR_LOST_CNT_core) :
    (k.logErr dial n i).rd off = k.rd off := by
  unfold Core.logErr
  simp only
  split_ifs
  · rfl
  · exact Core.rd_bump_other _ _ h

/-! ### Links (R187, R191) -/

@[simp] theorem Core.link_setLink (k : Core) (port : Nat) (l : LinkState) : (k.setLink port l).link port = l := by
  simp [Core.link, Core.setLink]
theorem Core.link_setLink_other (k : Core) {port q : Nat} (l : LinkState) (h : q ≠ port) :
    (k.setLink port l).link q = k.link q := by simp [Core.link, Core.setLink, look_put_other _ _ _ h]

/-! ### Buffers (R189) -/

theorem Core.throttle_link (k : Core) (v q : Nat) : (k.throttle v).link q = k.link q := by
  unfold Core.throttle; split_ifs <;> rfl
theorem Core.throttle_regs (k : Core) (v : Nat) : (k.throttle v).regs = k.regs := by
  unfold Core.throttle; split_ifs <;> rfl
theorem Core.throttle_inq (k : Core) (v : Nat) : (k.throttle v).rt.inq = k.rt.inq := by
  unfold Core.throttle; split_ifs <;> rfl
theorem Core.throttle_rounds (k : Core) (v : Nat) : (k.throttle v).rt.rounds = k.rt.rounds := by
  unfold Core.throttle; split_ifs <;> rfl
theorem Core.pushIn_link (k : Core) (i v : Nat) (x : Packet) (q : Nat) : (k.pushIn i v x).link q = k.link q := by
  unfold Core.pushIn; split_ifs; rfl; rw [Core.throttle_link]; rfl
theorem Core.pushIn_regs (k : Core) (i v : Nat) (x : Packet) : (k.pushIn i v x).regs = k.regs := by
  unfold Core.pushIn; split_ifs; rfl; rw [Core.throttle_regs]
theorem Core.pushIn_rounds (k : Core) (i v : Nat) (x : Packet) : (k.pushIn i v x).rt.rounds = k.rt.rounds := by
  unfold Core.pushIn; split_ifs; rfl; rw [Core.throttle_rounds]
theorem Core.inbuf_pushIn (k : Core) (i v : Nat) (x : Packet) : (k.pushIn i v x).rt.inbuf i v = k.rt.inbuf i v ++ [x] := by
  unfold Core.pushIn Router.inbuf; split_ifs
  · simp
  · rw [Core.throttle_inq]; simp
theorem Core.inbuf_popIn (k : Core) (i v : Nat) : (k.popIn i v).rt.inbuf i v = (k.rt.inbuf i v).tail := by
  simp [Core.popIn, Router.inbuf]

/-! ### The hop layer (R188) -/

theorem LinkState.control_rxSeq (l : LinkState) (bs : List Byte) : (l.control bs).rxSeq = l.rxSeq := by
  have h : ∀ (xs : List Nat) (f : LinkState → Nat → LinkState), (∀ l v, (f l v).rxSeq = l.rxSeq) →
      ∀ l, (xs.foldl f l).rxSeq = l.rxSeq := by
    intro xs f hf
    induction xs with
    | nil => exact fun _ => rfl
    | cons a xs ih => exact fun l => by simp [ih, hf]
  unfold LinkState.control
  simp only
  rw [h _ _ (by intro l v; rfl)]
  split_ifs <;> rfl

theorem Core.assemble_rxSeq (port : Nat) : ∀ (n : Nat) (k : Core), ((Core.assemble port n k).link port).rxSeq = (k.link port).rxSeq := by
  intro n
  induction n with
  | zero => exact fun _ => rfl
  | succ n ih =>
    intro k
    unfold Core.assemble
    split
    · rfl
    · rw [ih, Core.pushIn_link, Core.link_setLink]

/-- Sending outside changes no core. -/
theorem core_foldl_emit {α : Type} (f : α → OutRec) (l : List α) : ∀ (p : Panel) (n : Nat),
    (l.foldl (fun p x => p.emit (f x)) p).core n = p.core n := by
  induction l with
  | nil => exact fun _ _ => rfl
  | cons a l ih => exact fun p n => by simp [ih]

end Sys2Proof.Machine
end

