-- ==== Sys2Proof/Tests/Slice0.lean ====
section
/-! SUPPORT. Tests of the model: a smoke test of every check of WellFormed, and, for every statement that has hypotheses, concrete
states and operands that meet them. Expected values come from the rules cited beside them. -/

namespace Sys2Proof.Tests

set_option Elab.async false

open Sys2Proof Sys2Proof.Machine

/-! ### Helpers -/

/-- A task word: its opcode, and its other fields as value and lowest bit. -/
def word (op : Nat) (fs : List (Nat × Nat) := []) : TaskWord :=
  { bits := BitVec.ofNat 128 (op * 2 ^ 122 + (fs.map fun x => x.1 * 2 ^ x.2).sum) }

/-- A core with power, of partition 3, in a state; its map leads logical core (0, 0) to site 0. -/
def core (st : CoreState := .idle) : Core :=
  { ((Core.blank {} 0).wr Reg.CORE_PART 0x80000003).wr Reg.MESH_RMAP 0x40000000 with powered := true, seq := { state := st } }

/-- A core with some of its registers set. -/
def regs (rs : List (Nat × Nat)) (k : Core := core) : Core := rs.foldl (fun k r => k.wr r.1 r.2) k

/-- A core that runs a task of two words, the first at the head. -/
def running (w : TaskWord) (k : Core := core) : Core :=
  { k with seq := { k.seq with state := .run, task := some { copying := false, words := [w, word 1] } } }

/-- A panel at 1000 s of dial time, started and merged, with its edge dies on, and one core. -/
def panel (k : Core := core) : Panel :=
  let p : Panel := { dial := 1000000000000, dialRuns := true, cores := [(0, k)], sites := [(0, { state := 1 })] }
  let p := p.setSh Reg.BOOT_STATUS (10 * 2 ^ 28 + 2 ^ 26 + 2 ^ 21)
  (List.range 8).foldl (fun p e => p.setSh (Reg.PWR_EDGE + 4 * e) (2 ^ 31)) p

/-- The state with that panel, no command waiting. -/
def on (k : Core := core) (f : Panel → Panel := id) : State := { panel := f (panel k) }

/-- The running task of a core made by `running`, and its word at the head. -/
def taskOf (w : TaskWord) : Task := { copying := false, words := [w, word 1] }

/-- A packet with good units for the bytes that it carries. -/
def packet (h : Header) (bytes : List Byte := []) : Packet :=
  Packet.mk' { h with part := 3, vc := Opc.vc h.opcode } (if bytes.isEmpty then [] else unitsOf h.ga bytes)

/-- A core with a packet at the head of its arrivals. -/
def arrived (x : Packet) (k : Core := core) : Core := { k with arr := [(Opc.vc x.hdr.opcode, [x])] }

/-! ### Decoding and well-formedness -/

/-- No row of the command table gives bits. -/
theorem test_no_words : decodeTableWord 32 0x12345678 = none := by decide

theorem test_wf_register_write : (Instr.registerWrite .ringDie (.core 0) 0x100000 4 0).wf = false := by decide
theorem test_wf_register_width : (Instr.registerWrite .ringDie (.core 0) 0 2 0).wf = false := by decide
theorem test_wf_wrong_width : (Instr.wrongWidthAccess .ringDie (.core 0) 0 9 true).wf = false := by decide
theorem test_wf_rc_read : (Instr.rcCounterRead .ringDie (.hub 0) 0x100000 0).wf = false := by decide
theorem test_wf_half_read : (Instr.lowHalfReadLatch .ringDie (.bar0 1) 0x100000).wf = false := by decide
theorem test_wf_table_entry : (Instr.tableEntryRewrite (.port 0) 0x100000).wf = false := by decide
theorem test_wf_lane_repair : (Instr.laneRepair 0 0 0 68).wf = false := by decide

/-- A frame longer than any port sends. -/
theorem long_frame : frameSize (List.replicate 1519 0) = false := by
  rw [frameSize, List.length_replicate]; decide

theorem test_wf_init : (Instr.init 0 0 (List.replicate 1519 0)).wf = false := long_frame
theorem test_wf_ctrl : (Instr.ctrl 0 0 (List.replicate 1519 0)).wf = false := long_frame
theorem test_wf_data : (Instr.data 0 0 (List.replicate 1519 0)).wf = false := long_frame
theorem test_wf_beacon : (Instr.beacon 0 0 (List.replicate 1519 0)).wf = false := long_frame
theorem test_wf_ethernet : (Instr.ethernetFrame 0 0 (List.replicate 1519 0)).wf = false := long_frame
theorem test_wf_pfc : (Instr.pfcFrame 0 0 (List.replicate 1519 0)).wf = false := long_frame
theorem test_wf_sq_fetch : (Instr.sqFetch 0 (List.replicate 33 0)).wf = false := by decide
theorem test_wf_bar4_read : (Instr.bar4Read 1 0x40000000 4).wf = false := by decide
theorem test_wf_bar4_length : (Instr.bar4Read 1 0 4097).wf = false := by decide
theorem test_wf_bar4_write : (Instr.bar4Write 0 0 (List.replicate 513 0)).wf = false := by
  simp only [Instr.wf, List.length_replicate]; decide
theorem test_wf_bus_sample : (Instr.busSample 480 100 101).wf = false := by decide
theorem test_wf_hokuid_read : (Instr.hokuidRead .north 0 0 ⟨256, 0, 0, 0, 0, 0⟩).wf = false := by decide
theorem test_wf_hokuid_write : (Instr.hokuidWrite .north 0 0 ⟨0, 0, 0, 0, 0x100000000, 0⟩).wf = false := by decide
theorem test_wf_ring_frame : (Instr.ringFrame (.write .ringDie (.core 0) 0 3 0)).wf = false := by decide
theorem test_wf_broadcast_cap : (Instr.ringFrame (.broadcastCap .ringDie 64)).wf = false := by decide
theorem test_wf_attest : (Instr.attest .north 0 0 0 (List.replicate 65505 0)).wf = false := by
  simp only [Instr.wf, List.length_replicate]; decide
theorem test_wf_flash_put : (Instr.flashPut .north 0 0 0 64 (List.replicate 65529 0)).wf = false := by
  simp only [Instr.wf, List.length_replicate]; decide
theorem test_wf_protection_change : (Instr.protectionChange .north 0 0 (List.replicate 65537 0)).wf = false := by
  simp only [Instr.wf, List.length_replicate]; decide
theorem test_wf_credential_change : (Instr.credentialChange .north 0 0 (List.replicate 65537 0)).wf = false := by
  simp only [Instr.wf, List.length_replicate]; decide
theorem test_wf_anti_rollback : (Instr.antiRollbackCommit .north 0 0 (List.replicate 65537 0)).wf = false := by
  simp only [Instr.wf, List.length_replicate]; decide
theorem test_wf_update_authorisation : (Instr.updateAuthorisation .north 0 0 (List.replicate 65537 0)).wf = false := by
  simp only [Instr.wf, List.length_replicate]; decide

/-- An outcome that a stage can have. -/
def outcome : StageOutcome :=
  { crownOk := [.north, .south], elapsedUs := 1, failedSites := [], failedModules := [], failedRegions := [], slowStacks := []
    failedStacks := [], portsUp := [], hostRate := 6, hostWidth := 16, lockNorth := true, lockSouth := true, lockUs := 0, seamUp := 21
    retrained := 0, lanesRepaired := 0, rowsRepaired := [], imagesAlign := true, bootId := 0, romVersion := 0, flashIds := 0 }

theorem test_wf_stage_complete : (Instr.stageComplete outcome).wf = true := by decide
theorem test_wf_stage_lanes : (Instr.stageComplete { outcome with hostWidth := 17 }).wf = false := by decide
theorem test_wf_stage_seam : (Instr.stageComplete { outcome with seamUp := 22 }).wf = false := by decide
theorem test_wf_stage_elapsed : (Instr.stageComplete { outcome with elapsedUs := 0x100000000 }).wf = false := by decide
theorem test_wf_stage_row : (Instr.stageComplete { outcome with rowsRepaired := [(0, 128, 0)] }).wf = false := by decide

/-! ### Registers, core states, heartbeats -/

/-- REGISTER_WRITE: a write of DMA_CFG that the root firmware of the north crown may make. -/
theorem witness_register_write :
    (Reg.DMA_CFG, 0xFFFF) ∈ [(Reg.SPAD_SCRUB_CFG, 0x8000FFFF), (Reg.MESH_RED_CFG, 0x8000FFFF), (Reg.DMA_CFG, 0xFFFF),
      (Reg.PWR_GATE_CFG, 0xFFFF), (Reg.CLK_SP_ARMCTL, 0xC000003F)] ∧
    (on).panel.granted (.ringRoot .north) (.core 0) Reg.DMA_CFG := by decide +kernel

/-- Wrong widths: a 64-bit write, and a 16-bit read, of a 32-bit register. -/
theorem witness_wrong_width :
    (on).panel.granted (.ringRoot .north) (.core 0) Reg.DMA_CFG ∧ wrongWidth (.core 0) Reg.DMA_CFG 8 true ∧
    (on).panel.readable (.ringRoot .north) (.core 0) Reg.DMA_CFG .ro ∧ wrongWidth (.core 0) Reg.DMA_CFG 2 false := by
  decide +kernel

/-- An RC counter of a hub, and a 64-bit register of a port die, with a half latched and without. -/
theorem witness_rc_and_halves :
    (let row : RegRow := ⟨"HUB_ADDR_ERR_CNT", 8, 4, 1, false, .rc, 0, 0⟩
     (on).panel.readable (.ringRoot .north) (.hub 0) 8 .rc ∧ dieHit (.hub 0) 8 4 false = .reg row 8 ∧ row.acc = .rc) ∧
    (let row : RegRow := ⟨"PORT_RX_BYTES", 0x140, 128, 2, true, .ro, 0, 0⟩
     (on).panel.readable (.ringRoot .north) (.port 0) Reg.PORT_RX_BYTES row.acc ∧
      dieHit (.port 0) Reg.PORT_RX_BYTES 4 false = .half row Reg.PORT_RX_BYTES false ∧
      dieHit (.port 0) (Reg.PORT_RX_BYTES + 4) 4 false = .half row Reg.PORT_RX_BYTES true ∧ row.acc = .ro) ∧
    ([(Requester.ringDie, Reg.PORT_RX_BYTES, 7)].find? fun x => x.1 == .ringDie && x.2.1 == Reg.PORT_RX_BYTES) =
      some (.ringDie, Reg.PORT_RX_BYTES, 7) ∧
    ∀ y ∈ ((on).panel.port 0).latch, ¬ (y.1 = .ringDie ∧ y.2.1 = Reg.PORT_RX_BYTES) := by
  decide +kernel

/-- R61: each core state that a command needs, with power and no abort pending. -/
theorem witness_core_commands : ∀ st ∈ [CoreState.run, .idle, .paused, .test, .draining, .halted],
    (on (core st)).panel.live ∧ ((on (core st)).panel.core 0).powered ∧ ((on (core st)).panel.core 0).seq.aborting = false ∧
      ((on (core st)).panel.core 0).seq.state = st := by decide +kernel

/-- A core under abort with a start entry, and a draining one with a task and an entry that ask for no reports. -/
theorem witness_abort_drain :
    (let s := on { core .paused with seq := { state := .paused, aborting := true, starts := [{}] } }
     s.panel.live ∧ (s.panel.core 0).clocked ∧ (s.panel.core 0).seq.aborting ∧ (s.panel.core 0).allIdle ∧
      (s.panel.core 0).seq.starts ≠ []) ∧
    (let s := on { core .draining with seq := { state := .draining, task := some {}, starts := [{}] } }
     s.panel.live ∧ (s.panel.core 0).clocked ∧ (s.panel.core 0).seq.state = .draining ∧ (s.panel.core 0).allIdle ∧
      (s.panel.core 0).remoteIdle ∧ (∀ e ∈ (s.panel.core 0).seq.starts, e.report = false) ∧
      (s.panel.core 0).seq.task = some {} ∧ ({} : Task).entry.report = false ∧ ({} : Task).unitFault = none) := by
  decide +kernel

/-- Heartbeats, with an agent and without; a silent core; a region with its agent, a silent agent, and none. -/
theorem witness_heartbeats :
    (let s := on
     s.panel.live ∧ (s.panel.core 0).powered ∧ (s.panel.core 0).haltSince = none ∧ (s.panel.core 0).seq.state ≠ .halted ∧
      (s.panel.core 0).hbSent + 20000 ≤ s.panel.dial ∧ s.panel.agentOf (regionOf 0) = none ∧
      s.panel.lastHeard 0 + 80000 ≤ s.panel.dial ∧ s.panel.losses.any (·.site = 0) = false ∧
      (s.panel.core 0).hbAcked + 40000 ≤ s.panel.dial ∧ s.panel.eligible (regionOf 0) = some 0) ∧
    (let s := on { core with hbToCrown := true }
     s.panel.agentOf (regionOf 0) = none ∧ (s.panel.core 0).hbToCrown) ∧
    (let s := on core fun p => { p with agents := [(0, 0)] }
     s.panel.live ∧ (s.panel.core 0).powered ∧ (s.panel.agentOf (regionOf 0)).isSome ∧ s.panel.agentOf (0 : Region) = some 0 ∧
      look 0 s.panel.summaryAt (0 : Region) + 80000 ≤ s.panel.dial ∧ find s.panel.agents (0 : Region) = some 0 ∧
      0 ∈ regionSites 0) := by decide +kernel

/-- A core past its idle time, one that is never gated, and one with a start entry. -/
theorem witness_gating :
    (let s := on
     s.panel.live ∧ (s.panel.core 0).powered ∧ (s.panel.core 0).rd Reg.PWR_GATE_CFG % 65536 ≠ 0 ∧
      (s.panel.core 0).seq.task = none ∧
      (s.panel.core 0).seq.idleSince + (s.panel.core 0).rd Reg.PWR_GATE_CFG % 65536 * 1000 ≤ s.panel.dial) ∧
    ((on (regs [(Reg.PWR_GATE_CFG, 0)])).panel.core 0).rd Reg.PWR_GATE_CFG % 65536 = 0 ∧
    (let s := on { core with seq := { state := .idle, starts := [{}], gated := true } }
     s.panel.live ∧ (s.panel.core 0).clocked ∧ (s.panel.core 0).seq.starts ≠ []) := by decide +kernel

/-! ### Tasks and task words -/

/-- A START of 96 bytes for partition 3 that passes the checks of R63; a core with an entry and one that copies its list. -/
theorem witness_task_start :
    (let s := on
     let b : BitVec 768 := BitVec.ofNat 768 (3 * 2 ^ 37)
     s.panel.live ∧ (s.panel.core 0).clocked ∧
      (parseStart s.panel.fuses.lwidth (leBytes 96 b.toNat)).map (fun e => (e.part, e.args.length)) = some (3, 8) ∧
      (s.panel.core 0).partValid ∧ (s.panel.core 0).part = 3 ∧ (s.panel.core 0).seq.state = .idle ∧
      (s.panel.core 0).seq.starts.length < 8 ∧ s.panel.granted (.ringRoot .north) (.core 0) Reg.SEQ_FAULT_CLR) ∧
    (let s := on { core with seq := { state := .idle, starts := [{}] } }
     s.panel.live ∧ (s.panel.core 0).clocked ∧ (s.panel.core 0).seq.starts = {} :: [] ∧ (s.panel.core 0).seq.state = .idle ∧
      (s.panel.core 0).seq.gated = false ∧ (s.panel.core 0).spad.reshape = none ∧
      ((s.panel.core 0).rd (Reg.SPAD_PLAN_CTL + 4 * 0)).testBit 31 ∧
      ((s.panel.core 0).rd (Reg.SPAD_PLAN_CTL + 4 * 5)).testBit 31 = false) ∧
    ((on (running (word Tw.nop))).panel.core 0).seq.task = some (taskOf (word Tw.nop)) := by decide +kernel

/-- START refused for each cause of R63. -/
theorem witness_start_refused :
    (parseStart 20 (leBytes 96 (3 * 2 ^ 37))).isSome ∧ parseStart 20 (leBytes 96 8) = none ∧
    (core.takeStart 20 .other 3 [] false).1 ≠ St.done ∧ (core.partValid && 4 == core.part) = false ∧
    ¬ ((parseStart 20 (leBytes 96 0)).map (·.part) = some core.part) ∧
    (∀ st ∈ [CoreState.test, .draining, .halted], (core st).partValid ∧ (core st).part = 3 ∧ (core st).seq.state = st) ∧
    8 ≤ ({ core with seq := { state := .run, starts := List.replicate 8 {} } } : Core).seq.starts.length := by decide +kernel

/-- An END with a signal, with a report that the router takes, and a fault reported by a unit. -/
theorem witness_task_end :
    (let w := word 1 [(1, 111), (7, 103)]
     let s := on (running w)
     s.panel.live ∧ (s.panel.core 0).clocked ∧ (s.panel.core 0).ready 0x01 = some (taskOf w, w) ∧ (s.panel.core 0).allIdle ∧
      (s.panel.core 0).remoteIdle ∧ (taskOf w).entry.report = false ∧ w.f 111 111 = 1) ∧
    (let w := word 0x3F
     let k := { taskOf w with entry := { report := false } }
     (on (running w)).panel.live ∧ ((on (running w)).panel.core 0).clocked ∧
      ((on (running w)).panel.core 0).seq.state = .run ∧ ((on (running w)).panel.core 0).seq.task = some k ∧
      k.copying = false ∧ ((on (running w)).panel.core 0).allIdle ∧
      ((on (running w)).panel.core 0).faultNow k = some (1, 0x3F, St.notPermitted, 0)) := by decide +kernel

/-- The report of an END, and of a fault, that the router takes. -/
theorem witness_task_report :
    (let w := word 1
     let k := { taskOf w with entry := { report := true } }
     let s := on { running w with seq := { (running w).seq with task := some k } }
     (s.panel.core 0).ready 0x01 = some (k, w) ∧
      ((s.panel.draw.2.modCore 0 fun c => if w.f 111 111 = 1 then c.semOp (w.f 110 103) 0 1 else c).sendReport 0 k.entry
        (k.status.getD St.done) s.panel.draw.1.toNat).isSome) ∧
    ((on (running (word 0x3F))).panel.draw.2.sendReport 0 (taskOf (word 0x3F)).entry
      ((taskOf (word 0x3F)).status.getD St.notPermitted) (on (running (word 0x3F))).panel.draw.1.toNat).isSome := by
  decide +kernel

/-- Every register word of the table at the head of a task, outside every loop body. -/
theorem witness_register_words :
    ∀ op ∈ [Tw.nop, Tw.fence, Tw.ldi, Tw.alu, Tw.semRead, Tw.dispatch, Tw.dmaStart, Tw.semWait, Tw.recv, Tw.semSignal, Tw.post],
      (on (running (word op))).panel.live ∧ ((on (running (word op))).panel.core 0).clocked ∧
      ((on (running (word op))).panel.core 0).ready op = some (taskOf (word op), word op) ∧ (taskOf (word op)).midBody ∧
      (word op).f 111 111 = 0 := by decide +kernel

/-- A FENCE that also waits for remote operations, of which none is left. -/
theorem witness_fence_remote :
    (let w := word Tw.fence [(1, 111)]
     ((on (running w)).panel.core 0).ready Tw.fence = some (taskOf w, w) ∧ w.f 111 111 = 1 ∧
      ((on (running w)).panel.core 0).remoteIdle) := by decide +kernel

/-- DISPATCH to a matrix engine, the vector engine and the reduction unit, and DMA_START on channel 3, each with room. -/
theorem witness_dispatch :
    (∀ unit ∈ [0, 3, 4, 5], ((on (running (word Tw.dispatch [(unit, 109)]))).panel.core 0).ready Tw.dispatch =
        some (taskOf (word Tw.dispatch [(unit, 109)]), word Tw.dispatch [(unit, 109)]) ∧
      ((on (running (word Tw.dispatch [(unit, 109)]))).panel.core 0).queueRoom unit) ∧
    (let w := word Tw.dmaStart [(3, 110), (64, 78)]
     ((on (running w)).panel.core 0).ready Tw.dmaStart = some (taskOf w, w) ∧
      (((on (running w)).panel.core 0).ch (w.f 111 110)).queue.length < 16) := by decide +kernel

/-- A core whose task waits since an instant. -/
def waiting (w : TaskWord) (t0 : Nat) : Core :=
  { running w with seq := { (running w).seq with task := some { taskOf w with waitFrom := some t0 } } }

/-- SEM_WAIT with its threshold reached, and timed out; RECV with a message, and timed out. -/
theorem witness_waits :
    (let w := word Tw.semWait [(5, 104), (1, 103), (2, 98), (0, 66)]
     ((on (running w)).panel.core 0).ready Tw.semWait = some (taskOf w, w) ∧ (taskOf w).midBody ∧
      w.f 97 66 ≤ ((on (running w)).panel.core 0).sem (w.f 111 104)) ∧
    (let w := word Tw.semWait [(5, 104), (2, 98), (1, 66), (4, 42)]
     let k := waiting w 7
     (k.ready Tw.semWait).map (·.2) = some w ∧ (k.ready Tw.semWait).map (·.1.waitFrom) = some (some 7) ∧
      (k.ready Tw.semWait).map (·.1.midBody) = some true ∧ k.sem (w.f 111 104) < w.f 97 66 ∧ w.f 65 42 ≠ 0 ∧
      7 + 256 * w.f 65 42 ≤ (on k).panel.dial) ∧
    (let w := word Tw.recv [(3, 107), (2, 103), (1, 98)]
     let m : InboxMsg := ⟨9, 0, 0, 0, [1, 2, 3, 4, 5, 6, 7, 8, 9]⟩
     let k : Core := { running w with seq := { (running w).seq with inbox := [m] } }
     k.ready Tw.recv = some (taskOf w, w) ∧ (taskOf w).midBody ∧ k.seq.inbox = m :: [] ∧ w.f 102 98 ≠ 0 ∧ w.f 106 103 = 2 ∧
      m.payload.length < 256) ∧
    (let w := word Tw.recv [(3, 107), (2, 103), (1, 98), (4, 74)]
     let k := waiting w 7
     (k.ready Tw.recv).map (·.2) = some w ∧ (k.ready Tw.recv).map (·.1.midBody) = some true ∧ k.seq.inbox = [] ∧
      (k.ready Tw.recv).map (·.1.waitFrom) = some (some 7) ∧ w.f 97 74 ≠ 0 ∧ 7 + 256 * w.f 97 74 ≤ (on k).panel.dial) := by
  decide +kernel

/-- The last word of a loop's body with an iteration left, and after the last one. -/
theorem witness_loop_back :
    (let t : Task := { pc := 1, loops := [⟨1, 1, 2, 0, 3⟩] }
     t.loops = ⟨1, 1, 2, 0, 3⟩ :: [] ∧ (⟨1, 1, 2, 0, 3⟩ : LoopRec).last = t.pc ∧ 0 + 1 < 2) ∧
    (let t : Task := { pc := 1, loops := [⟨1, 1, 2, 1, 3⟩] }
     t.loops = ⟨1, 1, 2, 1, 3⟩ :: [] ∧ 2 ≤ 1 + 1 ∧ ([] : List LoopRec).length ≤ 3) := by decide +kernel

/-- A LOOP of count zero and of count two, and a BR taken and not taken. -/
theorem witness_control_words :
    (∀ c ∈ [0, 2], (let w := word Tw.loop [(1, 95), (c, 63), (2, 58)]
     ((on (running w)).panel.core 0).ready Tw.loop = some (taskOf w, w) ∧
      ((on (running w)).panel.core 0).loopCount w = c ∧
      ({ taskOf w with pc := (taskOf w).pc + w.f 104 95 } : Task).midBody)) ∧
    (∀ cond ∈ [0, 2], (let w := word Tw.br [(cond, 99), (1, 89)]
     ((on (running w)).panel.core 0).ready Tw.br = some (taskOf w, w) ∧ (taskOf w).midBody)) ∧
    (let k := (on (running (word Tw.br))).panel.core 0
     brCond 0 (k.g 0) (k.g 0) ∧ ¬ brCond 2 (k.g 0) (k.g 0)) := by decide +kernel

/-- A local SEM_SIGNAL, a remote one and a POST that the router takes. -/
theorem witness_remote_words :
    (word Tw.semSignal).f 101 101 = 0 ∧
    (let w := word Tw.semSignal [(5, 104), (1, 101), (1, 55)]
     let s := on (running w)
     (s.panel.core 0).ready Tw.semSignal = some (taskOf w, w) ∧ w.f 101 101 = 1 ∧ (s.panel.core 0).seq.remote.length < 64 ∧
      (s.panel.inject (.core 0)
        { opcode := Opc.semSignal, ga := gaCoreReg (w.f 95 91) (w.f 90 87) (Reg.SEQ_SEM + 4 * w.f 111 104), rtype := w.f 103 102,
          sval := (w.f 86 55 + ((s.panel.core 0).g (w.f 100 96)).toNat) % 2 ^ 32, seq := (s.panel.core 0).freshSeq } []).1 =
        .sent 1) ∧
    (let w := word Tw.post [(1, 96), (1, 92), (7, 76)]
     let s := on (running w)
     (s.panel.core 0).ready Tw.post = some (taskOf w, w) ∧
      (s.panel.inject (.core 0)
        { opcode := Opc.msg, ga := msgGA (w.f 111 110) (w.f 109 105) (w.f 104 101), bytes := 8 * w.f 95 92,
          len := cdiv (8 * w.f 95 92) 32, mtag := w.f 91 76, mkind := if w.f 111 110 = 0 then 0 else 2,
          seq := (s.panel.core 0).freshSeq }
        (unitsOf 0 ((s.panel.core 0).gBytes (w.f 100 96) (w.f 95 92)))).1 = .sent 1) := by decide +kernel

/-- Semaphore operations at the ends of the range (R77). -/
theorem witness_semaphores :
    (255 < 256 ∧ 2 ^ 32 - 1 < 2 ^ 32 ∧ (0 : Nat) ≠ 255) ∧ cntTop < (core.semOp 255 1 5).sem 255 + (2 ^ 32 - 1) ∧ core.sem 255 < 1 ∧
    ¬ cntTop < core.sem 0 + 1 := by decide +kernel

/-! ### Packets that arrive at a core -/

/-- Each packet of a staged kind at the head of its channel, with room in staging. -/
theorem witness_staged : ∀ op ∈ [Opc.write, Opc.readReq, Opc.writeAcc, Opc.mcast, Opc.reduce],
    (let x := packet { opcode := op, ga := 256, bytes := 32, len := 1, rtype := 1 } (List.replicate 32 7)
     let s := on (arrived x)
     s.panel.live ∧ (s.panel.core 0).clocked ∧ (s.panel.core 0).takes x ∧ (s.panel.core 0).spad.reshape = none ∧
      s.panel.nextArr 0 (Opc.vc op) op = some x ∧ bits x.hdr.ga 55 52 = 0 ∧ 1 ≤ x.hdr.rtype ∧ x.hdr.rtype ≤ 4 ∧
      (s.panel.core 0).spad.held + (stageEntries (s.panel.core 0).spad.nextPid .write x).length ≤ 56) := by decide +kernel

/-- A signal and a message at the head of VC0, with nothing staged before them. -/
theorem witness_signal_and_message :
    (let x := packet { opcode := Opc.semSignal, ga := 2 ^ 52 + Reg.SEQ_SEM + 4 * 255, rtype := 2, sval := 1 }
     let s := on (arrived x)
     s.panel.nextArr 0 0 Opc.semSignal = some x ∧ (s.panel.core 0).drainedStaging ∧ (s.panel.core 0).takes x ∧
      entryOf (bits x.hdr.ga 19 0) Reg.SEQ_SEM 4 256 = some 255 ∧ x.hdr.ga % 4 = 0 ∧ bits x.hdr.ga 55 52 = 1 ∧ x.hdr.rtype < 3) ∧
    (let x := packet { opcode := Opc.msg, ga := 2 ^ 52, bytes := 64, len := 2, mtag := 5 } (List.replicate 64 3)
     let s := on (arrived x)
     s.panel.nextArr 0 0 Opc.msg = some x ∧ (s.panel.core 0).drainedStaging ∧ (s.panel.core 0).takes x ∧
      bits x.hdr.ga 19 0 = 0 ∧ bits x.hdr.ga 55 52 = 1 ∧ x.hdr.mkind = 0 ∧ x.hdr.bytes ≤ 64 ∧ x.payload.2.1 = false ∧
      (s.panel.core 0).seq.inbox.length < 128 ∧ x.hdr.fromCore) := by decide +kernel

/-- Answers to a remote operation, to a tracked request, and to a tracked read. -/
theorem witness_answers :
    (∀ st ∈ [St.done, 0x0C],
      (let x := packet { opcode := Opc.completion, seq := 5, status := st }
       let k : Core := { core .run with seq := { state := .run, remote := [{ seq := 5 }] } }
       let s := on (arrived x k)
       s.panel.nextArr 0 1 Opc.completion = some x ∧ (s.panel.core 0).takes x ∧ x.hdr.status ≤ 0x0C ∧
        (s.panel.core 0).trackOf x.hdr.seq = none ∧
        (s.panel.core 0).seq.remote.find? (·.seq = x.hdr.seq) = some { seq := 5 })) ∧
    (∀ read ∈ [true, false],
      (let op := if read then Opc.readData else Opc.completion
       let x := packet { opcode := op, seq := 512, bytes := 0 }
       let y : Track := { seq := 512, desc := 0, piece := 0, bytes := 0, since := 0, isRead := read }
       let s := on (arrived x { core .run with dma := [(0, { track := [(1, y)] })] })
       s.panel.nextArr 0 1 op = some x ∧ (s.panel.core 0).takes x ∧ x.hdr.status ≤ 0x0C ∧
        (s.panel.core 0).trackOf x.hdr.seq = some (0, 1, y) ∧ y.left ≤ 1)) := by decide +kernel

/-! ### Scratchpad -/

/-- An entry of staging for row 8, with its first byte enabled. -/
def entry (kind : StageKind) (turned : Bool := false) : StageEntry :=
  { pid := 4, kind := kind, hdr := {}, row := 8, first := 2048, last := 2049, bytes := [some (7, false)], turned := turned }

/-- A core with something staged. -/
def staged (e : StageEntry) (acc : List AccBuf := []) : Core := { core with spad := { staging := [e], acc := acc } }

/-- An entry of each kind, first of its bank and within capacity. -/
theorem witness_staged_rows :
    (∀ kind ∈ [StageKind.write, .read], (let s := on (staged (entry kind))
     s.panel.live ∧ (s.panel.core 0).clocked ∧ (s.panel.core 0).inBank (8 : Fin 128) = entry kind :: [] ∧
      (entry kind).kind = kind ∧ (s.panel.core 0).inCapacity (entry kind).row)) ∧
    (let s := on (staged (entry (.acc 1)))
     nextReadTurn ((s.panel.core 0).inBank (8 : Fin 128)) = some (entry (.acc 1)) ∧ (s.panel.core 0).inCapacity 8) ∧
    (let b : AccBuf := ⟨8, 8, 4, []⟩
     let s := on (staged (entry (.acc 1) true) [b])
     (s.panel.core 0).inBank (8 : Fin 128) = entry (.acc 1) true :: [] ∧ (entry (.acc 1) true).kind = .acc 1 ∧
      (entry (.acc 1) true).turned ∧ ((s.panel.core 0).spad.acc.find? fun b => b.pid == 4 && b.row == 8) = some b) ∧
    (entry .write).bytes[0]? = some (some (7, false)) := by decide +kernel

/-- A reshape asked for, undrained after 10 µs, drained, and settled. -/
theorem witness_reshape :
    (let s := on
     let v : W64 := 0xFF
     s.panel.granted (.ringRoot .north) (.core 0) Reg.SPAD_GRP_PWR ∧ v.toNat % 65536 ≠ 0 ∧
      v.toNat % 65536 ≠ (s.panel.core 0).rd Reg.SPAD_GRP_PWR ∧ (s.panel.core 0).seq.state = .idle ∧
      (s.panel.core 0).spad.reshape = none) ∧
    (∀ settled ∈ [false, true],
      (let r : Reshape := { mask := 0xFF, since := 5, settled := settled }
       let s := on { core with spad := { reshape := some r, staging := if settled then [] else [entry .write] } }
       s.panel.live ∧ (s.panel.core 0).clocked ∧ (s.panel.core 0).spad.reshape = some r ∧ r.settled = settled ∧
        r.since + 10000 ≤ s.panel.dial ∧ ((s.panel.core 0).spad.staging ≠ [] ∨ settled))) ∧
    (let r : Reshape := { mask := 0xFF, since := 5 }
     let s := on { core with spad := { reshape := some r } }
     (s.panel.core 0).powered ∧ (s.panel.core 0).spad.reshape = some r ∧ r.settled = false ∧
      (s.panel.core 0).spad.staging = []) := by decide +kernel

/-- Writes of plan 0, of a plan that is valid and of one that is not: owners that make a valid plan of four slots, and owners without
the code 0x6. -/
theorem witness_plans :
    (∀ i : Fin 32, i = 0 ∨ i = 1 ∨ i = 31 → (on).panel.granted (.ringRoot .north) (.core 0) (Reg.SPAD_PLAN + 8 * i) ∧
      (on).panel.granted (.ringRoot .north) (.core 0) (Reg.SPAD_PLAN_CTL + 4 * i)) ∧
    (core.rd (Reg.SPAD_PLAN_CTL + 4 * 1)).testBit 31 = false ∧
    ((regs [(Reg.SPAD_PLAN_CTL + 4, 0x80000003)]).rd (Reg.SPAD_PLAN_CTL + 4 * 1)).testBit 31 ∧
    (let k := regs [(Reg.SPAD_PLAN + 8, 0x6432), (Reg.SPAD_PLAN + 16, 0x5432)]
     let v : W64 := 0x80000003
     let owner (i j : Nat) := bits (k.rd (Reg.SPAD_PLAN + 8 * i)) (4 * j + 3) (4 * j)
     v.getLsbD 31 ∧ fld v 3 0 + 1 = 4 ∧ (∀ j, j < 4 → owner 1 j ≤ 8 ∧ owner 2 j ≤ 8) ∧ owner 1 3 = 6 ∧
      (∀ j, j < 4 → owner 2 j ≠ 6) ∧ ∀ j, j < 16 → 4 ≤ j → owner 1 j = 0 ∧ owner 2 j = 0) := by decide +kernel

/-- The patrol at a bank that it has not read in this bank row, and a row queued for write-back. -/
theorem witness_scrubbing :
    (let s := on
     s.panel.live ∧ (s.panel.core 0).clocked ∧
      (s.panel.core 0).rowAt (127 : Fin 128) (s.panel.core 0).spad.patrolRow = some 127 ∧ (s.panel.core 0).patrolOn ∧
      (127 : Fin 128).val ∉ (s.panel.core 0).spad.patrolDone ∧
      s.panel.granted (.ringRoot .north) (.core 0) Reg.SPAD_ERR_CLR) ∧
    ((on { core with spad := { wbq := [8] } }).panel.core 0).spad.wbq = 8 :: [] := by decide +kernel

/-! ### DMA channels -/

/-- A core whose scratchpad holds bytes from offset 0 on. -/
def stored (bs : List Byte) (k : Core := core) : Core :=
  { k with spad := { k.spad with mem := Mem.setCws {} 0 (unitsOf 0 bs) } }

/-- The words of a FILL of one row of 32 bytes at offset 4096 of the own scratchpad. -/
def fillWords : List W64 := [0x1000000000000000, 0, 4096, 32, 0x0000000200000000, 0x0807060504030201, 0]

/-- A core that runs a task under plan 0. -/
def working (k : Core := core) : Core :=
  { k with seq := { k.seq with state := .run, task := some { copying := false, words := [word 0], plan := 0x76543210 } } }

/-- A core with a descriptor at offset 0 at the front of channel 0, which is free. -/
def queued (k : Core) : Core := { k with dma := [(0, { queue := [{ off := 0 }] })] }

/-- The bytes that the channel reads of that descriptor, and the status that its row reads with. -/
def descRead (s : State) : List Byte × Nat :=
  let x := (s.panel.core 0).readRow (s.panel.at' 0) Own.dmaOut 0
  (x.1.take 64, x.2.1)

/-- The words of a descriptor's bytes. -/
def descWords (bs : List Byte) : List W64 := (List.range 7).map fun i => BitVec.ofNat 64 (leAt bs (8 * i) 8)

/-- The bytes of a SIGNAL descriptor. -/
def signalBytes : List Byte := [0, 0, 0, 0, 0, 0, 0, 0x20]

/-- A descriptor that is legal, a SIGNAL, and one that is all zeros, whose row length is faulted (R230). -/
theorem witness_descriptor_read :
    (let s := on (queued (working (stored signalBytes)))
     s.panel.live ∧ (s.panel.core 0).clocked ∧ ((s.panel.core 0).ch 0).cur = none ∧
      ((s.panel.core 0).ch 0).queue = { off := 0 } :: [] ∧ descRead s = (signalBytes ++ List.replicate 56 0, St.done)) ∧
    descFault working (descWords (signalBytes ++ List.replicate 56 0)) (isBad St.done) = none ∧
    (let s := on (queued working)
     s.panel.live ∧ (s.panel.core 0).clocked ∧ ((s.panel.core 0).ch 0).queue = { off := 0 } :: [] ∧
      descRead s = (List.replicate 64 0, St.done) ∧ ((s.panel.core 0).rd (Reg.DMA_FAULT + 4 * 0)).testBit 31 = false) ∧
    descFault working (descWords (List.replicate 64 0)) (isBad St.done) = some 3 := by decide +kernel

/-- A channel with a descriptor in issue. -/
def issuing (r : DescRun) (waiting : List DescRun := []) : Core := { core with dma := [(0, { cur := some r, waiting := waiting })] }

/-- A COPY, a FILL and a REDUCE that may start; a local SIGNAL alone on its channel, and one behind another descriptor. -/
theorem witness_descriptor_start :
    (∀ kind ∈ [Dk.copy, Dk.fill, Dk.reduce],
      (let ws : List W64 := BitVec.ofNat 64 (kind * 2 ^ 60) :: fillWords.drop 1
       let r : DescRun := { id := 0, off := 0, words := ws }
       let s := on (issuing r)
       s.panel.live ∧ (s.panel.core 0).clocked ∧ ((s.panel.core 0).ch 0).cur = some r ∧ r.started = false ∧ r.desc.kind = kind ∧
        s.panel.descEarly r.desc = none ∧ r.issued < r.desc.pieces ∧ r.fails = [])) ∧
    (∀ waiting ∈ [[], [({ id := 9, off := 64 } : DescRun)]],
      (let r : DescRun := { id := 0, off := 0, words := [0x2000000000000000] }
       let s := on (issuing r waiting)
       ((s.panel.core 0).ch 0).cur = some r ∧ r.started = false ∧ r.desc.kind = Dk.signal ∧ r.desc.rsig = false ∧
        r.issued = r.pieces ∧ ((s.panel.core 0).ch 0).waiting = waiting)) := by decide +kernel

/-- A piece of a FILL into the core's own scratchpad. -/
theorem witness_fill_piece :
    (let r : DescRun := { id := 0, off := 0, words := fillWords, started := true, pieces := 1 }
     let s := on (issuing r)
     let ta := (rowStart r.desc.dst r.desc.dstride r.row + r.pos) % 2 ^ 56
     s.panel.live ∧ (s.panel.core 0).clocked ∧ ((s.panel.core 0).ch 0).cur = some r ∧ r.started ∧ r.issueOver = false ∧
      r.desc.kind = Dk.fill ∧ r.desc.acc = 0 ∧ r.desc.mcast = false ∧ (s.panel.core 0).isOwn r.desc.dst ∧
      (s.panel.core 0).spad.reshape = none ∧ r.pos < r.desc.rowbytes ∧ ta = 4096 ∧ r.desc.pieceLen r.row r.pos = 32 ∧
      ta % 2 ^ 27 + r.desc.pieceLen r.row r.pos ≤ (s.panel.core 0).capacity) := by decide +kernel

/-- A request past its time-out; an issued descriptor with its pieces done, good and failed; a granted clear. -/
theorem witness_descriptor_end :
    (let y : Track := { seq := 512, desc := 0, piece := 0, bytes := 8, since := 0, isRead := true }
     let s := on { core with dma := [(3, { track := [(31, y)] })] }
     s.panel.live ∧ (s.panel.core 0).clocked ∧ find ((s.panel.core 0).ch (3 : Fin 4)).track (31 : Fin 32) = some y ∧
      (s.panel.core 0).rd Reg.DMA_CFG % 65536 ≠ 0 ∧
      y.since + (s.panel.core 0).rd Reg.DMA_CFG % 65536 * 1000 ≤ s.panel.dial ∧
      s.panel.granted (.ringRoot .north) (.core 0) Reg.DMA_FAULT_CLR) ∧
    (∀ fails ∈ [[], [(0, St.timedOut)]],
      (let d : DescRun := { id := 0, off := 64, words := fillWords, started := true, pieces := 1, issued := 1, fails := fails }
       let s := on { core with dma := [(0, { waiting := [d] })] }
       s.panel.live ∧ (s.panel.core 0).clocked ∧ ((s.panel.core 0).ch 0).waiting = d :: [] ∧ ((s.panel.core 0).ch 0).over d ∧
        d.desc.rsig = false ∧ d.faulted = false ∧ d.words ≠ [] ∧ d.off % 64 = 0 ∧ (s.panel.core 0).reach d.off ∧
        (s.panel.core 0).reach (256 * (d.off / 256)) ∧ (St.ok d.status = false ↔ fails ≠ []))) := by decide +kernel

/-! ### Engines -/

/-- An operation: its kind, its other fields as value and lowest bit, and its bases. -/
def op (kind : Nat) (fs : List (Nat × Nat)) (a b c : W64) : QOp :=
  { op := BitVec.ofNat 80 (kind * 2 ^ 76 + (fs.map fun x => x.1 * 2 ^ x.2).sum), a := a, b := b, c := c }

/-- A core with an operation at the head of matrix engine 0. -/
def matrix (q : QOp) : Core := working { core with me := [(0, { queue := [q] })] }

/-- MM and MV of BF16 operands, ACC_ZERO, ACC_LOAD of FP32 and BF16, ACC_STORE to FP32, each one row and column, that pass their checks. -/
theorem witness_matrix :
    ∀ q ∈ [op 0 [(1, 70), (1, 66)] 0 4096 0, op 1 [(1, 70), (1, 66)] 0 4096 0, op 2 [] 0 0 0, op 3 [(0, 70), (1, 48)] 0 0 0,
        op 3 [(1, 70), (1, 48)] 0 0 0, op 4 [(0, 70), (1, 48)] 0 0 8192],
      (let s := on (matrix q)
       s.panel.live ∧ (s.panel.core 0).clocked ∧ ((s.panel.core 0).eng 0).queue = q :: [] ∧ ((s.panel.core 0).eng 0).free q ∧
        (s.panel.core 0).noSlot (Own.me 0) = false ∧ q.meFault = none ∧ (s.panel.core 0).spad.reshape = none ∧
        (q.kind = 4 → q.chunked = false ∧ q.aow = 0 ∧ ∀ x ∈ q.storeRanges, x.1 + x.2 ≤ (s.panel.core 0).capacity)) := by
  decide +kernel

/-- The operands of the MM and of the ACC_LOAD read good. -/
theorem witness_matrix_operands :
    (let q := op 0 [(1, 70), (1, 66)] 0 4096 0
     isBad (Core.fetch ((on (matrix q)).panel.at' 0) (Own.me 0)
      (rowsOf (operandRanges (baseOff q.a) 1 q.mmK q.mmM ++ operandRanges (baseOff q.b) 1 q.mmK q.mmN))
      ((on (matrix q)).panel.core 0)).2.1 = false) ∧
    (let q := op 3 [(1, 70), (1, 48)] 0 0 0
     isBad (Core.fetch ((on (matrix q)).panel.at' 0) (Own.me 0)
      (rowsOf (tileRanges (baseOff q.a) q.stride (q.tN * 2) q.tM)) ((on (matrix q)).panel.core 0)).2.1 = false) := by
  decide +kernel

/-- Running operations of both classes, and granted clears of the three engines. -/
theorem witness_matrix_end :
    (let r : RunOp := {}
     let s := on { core with me := [(0, { array := some r, xfer := some r })] }
     s.panel.live ∧ (s.panel.core 0).clocked ∧ ((s.panel.core 0).eng 0).xfer = some r ∧ ((s.panel.core 0).eng 0).array = some r) ∧
    (∀ off ∈ [Reg.ME_FAULT_CLR, Reg.ME_TBLK_BAD_CLR, Reg.VE_FAULT_CLR, Reg.RU_FAULT_CLR],
      (on).panel.granted (.ringRoot .north) (.core 0) off) ∧
    (core.rd (Reg.ME_FAULT + 4 * 3)).testBit 31 = false ∧
    ((regs [(Reg.ME_FAULT + 12, 0x80000000)]).rd (Reg.ME_FAULT + 4 * 3)).testBit 31 ∧
    (working.seq.task.map (·.unitFault)) = some none := by decide +kernel

/-- A core with an operation at the head of the vector engine, a program in slot 0. -/
def vector (q : QOp) (m : Option MapRun := none) : Core := working { core with ve := { queue := [q], map := m, progs := [(0, [0])] } }

/-- An EMAP that passes its first checks, and one whose descriptor, all zero, passes the second. -/
theorem witness_emap :
    (let q := op 0 [] 64 0 0
     let s := on (vector q)
     s.panel.live ∧ (s.panel.core 0).clocked ∧ (s.panel.core 0).ve.queue = q :: [] ∧ q.kind = 0 ∧ q.f 71 71 = 0 ∧
      (s.panel.core 0).ve.map = none ∧ (s.panel.core 0).mapFree q ∧ (s.panel.core 0).noSlot Own.ve = false ∧
      q.emapStartFault ((s.panel.core 0).progValid (q.f 75 72)) = none) ∧
    (let m : MapRun := { q := op 0 [] 64 0 0 }
     let s := on (vector (op 2 [] 0 0 0) (some m))
     let x := Core.fetch (s.panel.at' 0) Own.ve [baseOff m.q.a / 256] (s.panel.core 0)
     let d : MapDesc := { words := (List.range 8).map fun i => Fetch.le x.1 (baseOff m.q.a + 8 * i) 8 }
     (s.panel.core 0).ve.map = some m ∧ m.read = false ∧ m.tap = false ∧ St.ok x.2.1 ∧
      d.fault m.q ((s.panel.core 0).program (m.q.f 75 72)) = none) := by decide +kernel

/-- EPROG of one NOP, VLOAD and VSTORE of one row. -/
theorem witness_vector_transfers :
    (∀ q ∈ [op 1 [] 0 0 0, op 2 [(255, 68)] 0 0 0, op 3 [(255, 68)] 0 0 4096],
      (let s := on (vector q)
       s.panel.live ∧ (s.panel.core 0).clocked ∧ (s.panel.core 0).ve.queue = q :: [] ∧ (s.panel.core 0).ve.xfer = none ∧
        (s.panel.core 0).xferFree q ∧ (s.panel.core 0).noSlot Own.ve = false ∧ q.xferFault = none ∧
        (s.panel.core 0).spad.reshape = none ∧ baseOff q.c + 256 * (q.f 67 59 + 1) ≤ (s.panel.core 0).capacity)) ∧
    (let s := on (vector (op 1 [] 0 0 0))
     let x := Core.fetch (s.panel.at' 0) Own.ve (rowsOf [(0, 256)]) (s.panel.core 0)
     isBad x.2.1 = false ∧ (einstr (BitVec.ofNat 32 (Fetch.le x.1 0 4))).ok) := by decide +kernel

/-- A running transfer, and a map that has read its descriptor. -/
theorem witness_vector_end :
    ((on { core with ve := { xfer := some {} } }).panel.core 0).ve.xfer = some {} ∧
    ((on { core with ve := { map := some { read := true } } }).panel.core 0).ve.map = some { read := true } := by decide +kernel

/-- Every operation of the reduction unit over one row of one FP32 element. -/
theorem witness_reductions : ∀ kind, kind < 7 →
    (let q := op kind [(1, 28)] 0 0 4096
     let s := on (working { core with ru := { queue := [q] } })
     s.panel.live ∧ (s.panel.core 0).clocked ∧ (s.panel.core 0).ru.queue = q :: [] ∧ q.kind = kind ∧ (s.panel.core 0).ru.run = none ∧
      q.ru.tap = false ∧ (s.panel.core 0).noSlot Own.ru = false ∧ q.ruFault none = none ∧ q.ru.acc = false ∧
      (s.panel.core 0).spad.reshape = none ∧ baseOff q.c + q.ru.results * q.ru.resBytes ≤ (s.panel.core 0).capacity) := by
  decide +kernel

/-- A tapped EMAP and its partner at the heads of their queues, and a running operation of the unit. -/
theorem witness_tap_pair :
    (let q := op 0 [(1, 71)] 64 0 0
     let r := op 0 [(1, 75), (1, 28)] 0 0 4096
     let s := on { vector q with ru := { queue := [r] } }
     s.panel.live ∧ (s.panel.core 0).clocked ∧ (s.panel.core 0).veTap = some q ∧ (s.panel.core 0).ruTap = some r ∧
      (s.panel.core 0).ve.map = none ∧ (s.panel.core 0).mapFree q ∧ (s.panel.core 0).noSlot Own.ve = false ∧
      (s.panel.core 0).noSlot Own.ru = false ∧ q.emapStartFault ((s.panel.core 0).progValid (q.f 75 72)) = none) ∧
    (let s := on { core with ru := { run := some {} } }
     (s.panel.core 0).ru.run = some {} ∧ (s.panel.core 0).ru.tapped = false) := by decide +kernel

/-! ### Mesh -/

/-- A core whose links to its four neighbours are up, with packets at a router buffer. -/
def router (buf : Nat) (l : List Packet) (k : Core := core) : Core :=
  { k with rt := { k.rt with link := (List.range 8).map fun q => (q, { state := 1, modules := 4 }), inq := [(buf, l)] } }

/-- A panel whose cores at two sites are those given. -/
def both (n m : Nat) (a b : Core) : State := on a fun p => { p with cores := [(n, a), (m, b)] }

/-- A flit of zeros whose CRC is that of sequence number 0, and one whose CRC is wrong. -/
theorem witness_flits :
    (let s := on (router 0 [])
     s.panel.live ∧ (s.panel.core 0).clocked ∧ (s.panel.core 0).linkUp 1 ∧ ((s.panel.core 0).link 1).rxNak = false ∧
      (⟨leBytes 256 (crc16 (List.replicate 256 0) * 2 ^ 2032)⟩ : Flit).crcOk ((s.panel.core 0).link 1).rxSeq ∧
      (⟨leBytes 256 ((crc16 (List.replicate 256 0) + 1) * 2 ^ 2032)⟩ : Flit).crcOk ((s.panel.core 0).link 1).rxSeq = false) ∧
    (let k : Core := { core with rt := { link := [(1, { state := 1, rxCount := 3 })] } }
     (k.link 1).rxCount = 3) ∧
    (let k : Core := { core with rt := { link := [(1, { state := 1, nakAt := some 7 })] } }
     (k.link 1).nakAt = some 7) := by decide +kernel

/-- A packet on its way from site 25 to site 26, one for the core at site 25, and one with a bad header. -/
theorem witness_hops :
    (let x := packet { opcode := Opc.write, dc := 5, dr := 1, ga := 256, bytes := 8, len := 1 } (List.replicate 8 7)
     let s := both 25 26 (router 0 [x]) (router 0 [])
     s.panel.live ∧ (s.panel.core 25).clocked ∧ attDie 25 1 = none ∧ attDie 25 2 = none ∧
      (s.panel.core 25).rt.inbuf 0 0 = [x] ∧ x.hdr.vc = 0 ∧ x.hdr.bad = false ∧ s.panel.nextHop 25 x.hdr = .hop 1 26 ∧
      (s.panel.core 25).carries 1 ∧ roomFor ((s.panel.core 26).rt.inbuf (farPort 1) 0) x) ∧
    (let x := packet { opcode := Opc.write, dc := 4, dr := 1, ga := 256, bytes := 8, len := 1 } (List.replicate 8 7)
     let s := both 25 26 (router 0 [x]) (router 0 [])
     (s.panel.core 25).rt.inbuf 0 0 = [x] ∧ s.panel.nextHop 25 x.hdr = .core ∧ (s.panel.core 25).arrived 0 = []) ∧
    (let x : Packet := { hdr := { opcode := Opc.write, hcrc := 1 }, units := [] }
     (both 25 26 (router 0 [x]) core).panel.core 25 = router 0 [x] ∧ (router 0 [x]).rt.inbuf 0 0 = [x] ∧ x.hdr.vc = 0 ∧ x.hdr.bad) ∧
    (let x := packet { opcode := Opc.write, dc := 20, dr := 1, dedge := 2, ga := 256, bytes := 8, len := 1 } (List.replicate 8 7)
     let s := both 41 0 (router 0 [x]) core
     s.panel.live ∧ (s.panel.core 41).clocked ∧ attDie 41 1 = none ∧ attDie 41 2 = some (.hub 4 1) ∧
      (s.panel.core 41).rt.inbuf 0 0 = [x] ∧ x.hdr.bad = false ∧ s.panel.nextHop 41 x.hdr = .edge 2 ∧
      s.panel.edgeLives 41 2 ∧ look [] (s.panel.hub 4).arr (4 * 1) = []) := by decide +kernel

/-- A REDUCE that an entry of two contributions takes, and a round of it that has timed out. -/
theorem witness_mesh_reduction :
    (let ent := 2 ^ 63 + 5 * 2 ^ 50 + 2 ^ 47 + 3 * 2 ^ 42 + 2 * 2 ^ 33 + 6 * 2 ^ 30
     let x := packet { opcode := Opc.reduce, dc := 4, dr := 1, rtag := 5, rtype := 1, weight := 1, bytes := 4, len := 1 } [0, 0, 0, 0]
     let k := regs [(Reg.MESH_RED, ent), (Reg.MESH_RED_CFG, 0x80000001)] (router 2 [x])
     let s := both 25 26 k core
     s.panel.live ∧ (s.panel.core 25).clocked ∧ (s.panel.core 25).rt.inbuf 0 2 = [x] ∧ x.hdr.bad = false ∧
      x.hdr.opcode = Opc.reduce ∧ s.panel.redTurn 25 x.hdr = .take 0 ∧ find (s.panel.core 25).rt.rounds 0 = none ∧
      ((s.panel.core 25).red 0).count = 2) ∧
    (let ent := 2 ^ 63 + 5 * 2 ^ 50 + 2 ^ 47 + 3 * 2 ^ 42 + 2 * 2 ^ 33 + 6 * 2 ^ 30
     let r : RedRound := ⟨0, 4, 0, 4, 1, 9, 1, 1, 0, 0, 5, unitsOf 0 [0, 0, 0, 0]⟩
     let k := regs [(Reg.MESH_RED, ent), (Reg.MESH_RED_CFG, 0x80000001)]
     let s := both 25 26 { k with rt := { k.rt with rounds := [(0, r)] } } core
     find (s.panel.core 25).rt.rounds (0 : Fin 64) = some r ∧ (s.panel.core 25).rd Reg.MESH_RED_CFG % 65536 ≠ 0 ∧
      r.since + (s.panel.core 25).rd Reg.MESH_RED_CFG % 65536 * 1000 ≤ s.panel.dial ∧
      r.arrived < ((s.panel.core 25).red 0).count ∧ (s.panel.sendRound 25 0).isSome) := by decide +kernel

/-- Values of a reduction entry that are kept and that are not, with its round open and not; rates that are kept and that are not;
levels whose threshold the occupancy does not reach, the lower one and the upper one. -/
theorem witness_mesh_registers :
    (∀ e ∈ [(0 : Fin 64), 63], (on).panel.granted (.ringRoot .north) (.core 0) (Reg.MESH_RED + 8 * e) ∧
      find ((on).panel.core 0).rt.rounds e = none) ∧
    (let r : RedRound := ⟨0, 4, 0, 4, 1, 9, 1, 1, 0, 0, 5, []⟩
     let k : Core := { core with rt := { rounds := [(63, r)] } }
     find k.rt.rounds (63 : Fin 64) = some r ∧ r.arrived ≠ 0) ∧
    (∀ x ∈ [0x8000840200000000, 0x8002000200000000], (x : Nat).testBit 63 ∧ bits x 41 33 ≠ 0 ∧ 1 ≤ bits x 49 47 ∧ bits x 49 47 ≤ 4) ∧
    (∀ x ∈ [0x8000800000000000, 0x8000000200000000, 0x8002800200000000],
      (x : Nat).testBit 63 ∧ (bits x 41 33 = 0 ∨ bits x 49 47 = 0 ∨ 4 < bits x 49 47)) ∧
    (on).panel.granted (.ringRoot .north) (.core 0) (Reg.MESH_INJ_CFG + 4 * 3) ∧
    (let ok (x : Nat) := 1 ≤ bits x 31 27 ∧ bits x 31 27 ≤ 16 ∧ 1 ≤ bits x 26 22 ∧ bits x 26 22 ≤ 16 ∧ 1 ≤ bits x 21 17 ∧ bits x 21 17 ≤ 16
     ok 0x08420000 ∧ ok 0x84200000 ∧ ¬ ok 0 ∧ ¬ ok 0x88420000) ∧
    (let s := on (regs [(Reg.MESH_INJ_CFG, 0x84200101)])
     let o := (s.panel.core 0).rt.occupancy 0
     o = 0 ∧ bits ((s.panel.core 0).rd (Reg.MESH_INJ_CFG + 4 * 0)) 6 0 = 1 ∧
      bits ((s.panel.core 0).rd (Reg.MESH_INJ_CFG + 4 * 0)) 13 7 = 2) ∧
    (let x := packet { opcode := Opc.write, bytes := 224, len := 7 } (List.replicate 224 7)
     let k := regs [(Reg.MESH_INJ_CFG, 0x84200181)] (router 0 [x])
     let k : Core := { k with rt := { k.rt with level := [(0, 3)] } }
     let s := on k
     let cfg := (s.panel.core 0).rd (Reg.MESH_INJ_CFG + 4 * 0)
     let o := (s.panel.core 0).rt.occupancy 0
     o < 4 * bits cfg 13 7 ∧ 4 * bits cfg 6 0 ≤ o ∧ bits cfg 6 0 ≠ 0 ∧ (look 0 (s.panel.core 0).rt.level 0).testBit 0) := by
  decide +kernel

/-- Links that are up, under lane repair with one module and with four, and a panel whose maps have been built. -/
theorem witness_links :
    (let s := both 25 26 (router 0 []) (router 0 [])
     s.panel.live ∧ (s.panel.core 25).powered ∧ (s.panel.core 25).linkUp 1 ∧ portSite 25 1 = some 26 ∧ s.panel.powered 26 ∧
      (s.panel.core 25).carries 1 ∧ 0 < ((s.panel.core 25).link 1).modules) ∧
    (∀ modules ∈ [1, 4], (let k : Core := { core with rt := { link := [(1, { state := 2, modules := modules, held := some (0, 5) })] } }
     ((on k).panel.core 0).powered ∧ (k.link 1).held = some (0, 5) ∧ (k.link 1).modules = modules)) ∧
    (let s := on core fun p => { p with boot := { p.boot with mapped := true } }
     s.panel.live ∧ s.panel.boot.mapped ∧ s.panel.powered 0) := by decide +kernel

/-! ### Windows and models -/

/-- Entries that are not valid and that may be read over the first page of a scratchpad, and one of a class that no window covers. -/
theorem witness_windows :
    (on).panel.granted (.ringRoot .north) (.crown ((on).panel.viaCrown (.ringRoot .north))) (Reg.WIN_ENT + 32 * 0 + 8 * 0) ∧
    (on).panel.granted (.ringRoot .north) (.crown ((on).panel.viaCrown (.ringRoot .north))) (Reg.WIN_ENT + 32 * 255 + 8 * 3) ∧
    (on).panel.winBad (WinEnt.ofWords 0 0 0) = false ∧
    (on).panel.winBad (WinEnt.ofWords (2 ^ 63 + 2 ^ 61) 0 0) = false ∧
    (on).panel.winBad (WinEnt.ofWords (2 ^ 63 + 3 * 2 ^ 52) 0 0) ∧
    (on).panel.fuses.diePresent 0 ∧ ((on).panel.port 0).lost = false := by decide +kernel

/-! ### Models -/

/-- A panel whose north crown has one request of partition 3 to take. -/
def asked (bytes : List Byte) (p : Panel) : Panel :=
  p.modCrown .north fun k => { k with reqs := [{ src := .set 0 0 0, part := some 3, bytes := bytes }] }

/-- A panel whose hub 0 is up, with its first bands owned by partition 3 and bytes stored from offset 0 on. -/
def stocked (bs : List Byte) (p : Panel) : Panel :=
  p.setHub 0 (({ stack := 2, mem := Mem.setCws {} 0 (unitsOf 0 bs) } : Hub).wr Reg.HUB_BAND 0x43434343)

/-- A stack-local address of hub 0. -/
def local0 (off : Nat) : Nat := 2 ^ 53 + 2 ^ 41 + off

/-- An image header of one section, padded to the section table. -/
def header : List Byte := padTo 256 (leBytes 4 0x5453494D ++ [1, 0, 1, 0, 20])

/-- A section of 32 bytes for offset 0 of the scratchpad of the core at (0, 0). -/
def section0 : List Byte := leBytes 8 1 ++ leBytes 8 (local0 4096) ++ leBytes 16 32

/-- An image with a legal table, and one whose section type is zero. -/
theorem witness_load_begin : ∀ x ∈ [(section0, true), (List.replicate 32 0, false)],
    (let s := on core fun p => asked (leBytes 8 3 ++ leBytes 8 (local0 0)) (stocked (header ++ x.1) p)
     let b := header
     let r : Req := { src := .set 0 0 0, part := some 3, bytes := leBytes 8 3 ++ leBytes 8 (local0 0) }
     s.panel.engineOn .north ∧ (s.panel.crown .north).reqs = r :: [] ∧ r.op = 3 ∧ find s.panel.models 5 = none ∧
      s.panel.readHeader 3 (leAt r.bytes 8 8 % 2 ^ 56) = some (0, 0, b, 1) ∧
      s.panel.tableOk 3 [SectEnt.ofBytes (s.panel.rawAt 0 256 32)] = x.2 ∧ leAt b 9 7 = 0 ∧ leAt b 48 208 = 0) := by
  decide +kernel

/-- A model descriptor with one core of both roles. -/
def desc : ModelDesc :=
  { vocab := 100, maxctx := 1000, nlist := 1, bmax := 4, inflight := 1, eos := [], ptok := 65, pchunk := 4, nres := 2, frames := 4
    kvbase := 0, ftbase := 0, brec := 0, brsz := 1024, rlist := 0, rsz := 5200, kvpool := 2 ^ 53, npool := 4, estep := 0
    cores := [⟨0, 0, 3, 0, 0, 1, 0⟩], tree := [] }

/-- A panel with model 0. -/
def modelled (x : Model) (p : Panel) : Panel := p.setModel 0 x

/-- A ready model of partition 3. -/
def ready0 : Model := { state := 4, part := 3, desc := some desc }

/-- A model that receives: one whose digests have all been taken, and one whose header's digest is missing. A model that is
ready and one that has failed, with no context of theirs. -/
theorem witness_load_requests :
    (let x : Model := { state := 1, part := 3 }
     let r : Req := { src := .set 0 0 0, part := some 3, bytes := leBytes 16 4 }
     let s (l : List Section) := on core fun p => asked (leBytes 16 4) (modelled x (p.setHub 0 { stack := 2, sections := l }))
     (s []).panel.engineOn .north ∧ ((s []).panel.crown .north).reqs = r :: [] ∧ r.op = 4 ∧
      (s []).panel.ownModel r = some (0, x) ∧ (s []).panel.loadFault 0 x = some (8, St.notPermitted) ∧
      (s [{ model := 0, index := none, start := 0, length := 256, done := 256 }]).panel.loadFault 0 x = none) ∧
    (∀ x ∈ [ready0, { ready0 with state := 5 }],
      (let r : Req := { src := .set 0 0 0, part := some 3, bytes := leBytes 16 5 }
       let s := on core fun p => asked (leBytes 16 5) (modelled x p)
       (s.panel.crown .north).reqs = r :: [] ∧ r.op = 5 ∧ s.panel.ownModel r = some (0, x) ∧ s.panel.modelNamed 0 = false ∧
        (x.state = 4 ∨ x.state = 5))) := by decide +kernel

/-- A model in state 3: its core running for longer than 1 ms, its core idle with a section to stream that succeeds and one that
fails, and applied. -/
theorem witness_loads :
    (let x : Model := { state := 3, part := 3, table := [SectEnt.ofBytes section0] }
     let s := on (core .run) (modelled x)
     s.panel.live ∧ (s.panel.model 0).state = 3 ∧ (s.panel.model 0).applied = false ∧
      s.panel.targetsIdle (s.panel.model 0).table = false ∧ (s.panel.model 0).since + 1000000 ≤ s.panel.dial) ∧
    (let x : Model := { state := 3, part := 3, table := [SectEnt.ofBytes section0] }
     let s := on core fun p => modelled x (stocked [] p)
     s.panel.targetsIdle (s.panel.model 0).table ∧ (s.panel.model 0).table.all (fun e => e.type ≠ 3) ∧
      (let p := (x.table.filter fun e => e.type ≠ 3).foldl (fun p e => Panel.applyControl p 0 e) s.panel
       (Panel.streamAll 3 x.table p).1 ≤ 1)) ∧
    (let x : Model := { state := 3, part := 3, table := [{ SectEnt.ofBytes section0 with x := 25 }] }
     let s := on core (modelled x)
     s.panel.targetsIdle (s.panel.model 0).table ∧ (s.panel.model 0).table.all (fun e => e.type ≠ 3) ∧
      (let p := (x.table.filter fun e => e.type ≠ 3).foldl (fun p e => Panel.applyControl p 0 e) s.panel
       1 < (Panel.streamAll 3 x.table p).1)) ∧
    (let s := on core (modelled { state := 3, part := 3, applied := true })
     (s.panel.model 0).state = 3 ∧ (s.panel.model 0).applied) := by decide +kernel

/-! ### Contexts -/

/-- The bytes of an ADMIT of model 0 for a fabric queue, with its side record at offset 0 of hub 0. -/
def admitBytes : List Byte := leBytes 1 1 ++ leBytes 47 8 ++ leBytes 8 (local0 0)

/-- A panel with a ready model. -/
def serving (p : Panel) : Panel := modelled ready0 (stocked [] p)

/-- A panel with a context in slot 0. -/
def slotted (e : CtxEntry) (p : Panel) : Panel :=
  let p := { p with handles := put p.handles (handleIndex e.handle) { gen := handleGen e.handle, live := some (.slot 0) } }
  p.modCrown .north fun k => { k with ctx := [(0, e)] }

/-- A context of the ready model, in state 1, with 100 tokens to prefill. -/
def ctx0 : CtxEntry := { state := 1, part := 3, handle := 5, plen := 100 }

/-- A panel whose north crown has some of its registers set. -/
def northRegs (rs : List (Nat × Nat)) (p : Panel) : Panel :=
  p.modCrown .north fun k => { k with regs := rs.foldl (fun m x => rfSet m x.1 (BitVec.ofNat 64 x.2)) k.regs }

/-- Accepted requests for a context: one that has a slot, one that its partition's limit keeps from one and that the overflow list
takes, and one that it does not. -/
theorem witness_admissions : ∀ x ∈ [(5, 0), (0, 0x80000010), (0, 0)],
    (let s := on core fun p => asked admitBytes (northRegs [(Reg.CTX_PLIM + 12, x.1), (Reg.CTX_OVF_CFG, x.2)] (serving p))
     s.panel.engineOn .north ∧ s.panel.ctxRole .north ≠ 2 ∧
      ((s.panel.nextReq .north (· == 1)).any fun y => (y.2.admitCheck .north y.1).any fun z => z.1.part == 3 && z.2.newHandle.any fun h =>
        let q := h.2
        let limit := (q.crown .north).rd (Reg.CTX_PLIM + 4 * z.1.part) % 2 ^ 17
        let ovf := (q.crown .north).rd Reg.CTX_OVF_CFG
        limit == x.1 && ovf == x.2 && q.freeSlot == some 0 && q.slotsOf 3 == 0 && q.heldRecs.isEmpty)) := by decide +kernel

/-- A cancel of a context that is in no step, and of one that is in a step. -/
theorem witness_cancels : ∀ steps ∈ [[], [(4, ({ num := 4, model := 0, slot := 0, kind := 0, batch := [⟨5, 0, 4, 0, 0, [], []⟩] } : Step))]],
    (let s := on core fun p => asked (leBytes 4 2 ++ leBytes 4 5) (slotted ctx0 (p.modCrown .north fun k => { k with steps := steps }))
     s.panel.engineOn .north ∧ ((s.panel.nextReq .north (· == 2)).map fun x => (leAt x.1.bytes 4 4, x.1.part)) = some (5, some 3) ∧
      s.panel.ctxOf 5 = some (.slot 0, ctx0) ∧ ctx0.state ≠ 0 ∧ ctx0.state ≠ 5 ∧ s.panel.inStep ctx0.handle = !steps.isEmpty) := by
  decide +kernel

/-- A message for the engine and one of another kind at the head of the crown's arrivals. -/
theorem witness_context_messages : ∀ kind ∈ [2, 0],
    (let x := packet { opcode := Opc.msg, bytes := 32, len := 1, mkind := kind, mtag := 0x4701 } (List.replicate 32 3)
     let s := on core fun p => p.modCrown .north fun k => { k with arr := [(0, [x])] }
     s.panel.engineOn .north ∧ look [] (s.panel.crown .north).arr 0 = x :: [] ∧ x.hdr.opcode = Opc.msg ∧ x.hdr.mkind = kind ∧
      bits x.hdr.ga 31 0 = 0 ∧ x.hdr.bytes ≤ 64 ∧ x.payload.2.1 = false ∧ x.hdr.mtag ≠ 0xFFFF ∧
      (s.panel.crown .north).msgq.length < 256) := by decide +kernel

/-- The pager found no free pool page. -/
def noPage : Except PagerStop Panel → Bool
  | .error .pool => true
  | _ => false

/-- A held context with a slot free; contexts that the pager brings in, and one for which no pool page is free. -/
theorem witness_swaps_and_pages :
    (let e := { ctx0 with state := 4, held := true }
     let s := on core fun p => { p with heldRecs := [(0, e)] }
     s.panel.engineOn .north ∧ s.panel.nextHeld = some (0, e) ∧ s.panel.freeSlot = some 0) ∧
    (let e := { ctx0 with rslot := 0 }
     let kv : KvPages := { model := 0, root := 0, pages := [(0, { pool := 1, frame := some 0 })] }
     let s := on core fun p => slotted e { serving p with kv := [(5, kv)] }
     s.panel.engineOn .north ∧ s.panel.ctxOf (5 : W32).toNat = some (.slot 0, e) ∧ s.panel.slotLeader 0 = .north ∧
      s.panel.inStep e.handle = false ∧ s.panel.readyDesc e.model = some desc ∧
      (s.panel.bringIn 0 e desc).isOk) ∧
    (let e := { ctx0 with rslot := 0 }
     let d := { desc with npool := 0 }
     let s := on core fun p => slotted e (modelled { ready0 with desc := some d } p)
     s.panel.readyDesc e.model = some d ∧
      noPage (s.panel.bringIn 0 e d)) := by decide +kernel

/-- A model with a context that prefills, its page resident: the batch is not empty and the ramp governor lets the step go. -/
theorem witness_step_start :
    (let e := { ctx0 with rslot := 0 }
     let kv : KvPages := { model := 0, root := 0, pages := [(0, { pool := 1, frame := some 0 })] }
     let s := on core fun p => slotted e { serving p with kv := [(5, kv)] }
     s.panel.engineOn .north ∧ s.panel.readyDesc (0 : Fin 16) = some desc ∧ (s.panel.model 0).stopped = false ∧ s.panel.fatal = false ∧
      s.panel.shedding = false ∧ s.panel.ctxRole .north ≠ 2 ∧ s.panel.writingTo desc = false ∧ (s.panel.crown .north).steps = [] ∧
      (s.panel.inflight 0).length < desc.inflight ∧
      (let all := s.panel.candidates .north 0 desc
       let p := s.panel.noteStalls .north all
       let ok := all.filter fun z => p.queueTakes z.2.1 (recordsOf z.2.2.1 z.2.1 z.2.2.2)
       ok.head?.any fun y =>
        let batch := fillBatch desc y.2.2.1 p.roomWith ok [] []
        !batch.isEmpty && (p.powerGate 0 desc batch.length).isOk)) := by decide +kernel

/-- A step of context 5 on core 0, and a panel that runs it. -/
def step0 (rows : Nat) : Step :=
  { num := 4, model := 0, slot := 0, kind := 1, batch := [⟨5, 0, 4, rows, 0, [], []⟩], cores := [0], reported := [(0, St.done)] }
def stepping (x : Step) (p : Panel) : Panel :=
  slotted ctx0 (modelled ready0 (p.modCrown .north fun k => { k with steps := [(4, x)] }))

/-- Steps whose cores have reported, with rows and without; one past its time; one that reads two rows, the first of them in. -/
theorem witness_steps :
    (∀ rows ∈ [0, 1], (let s := on core (stepping (step0 rows))
     s.panel.engineOn .north ∧ find (s.panel.crown .north).takeReports.steps 4 = some (step0 rows) ∧
      (step0 rows).reported.all (fun r => r.2 = St.done) ∧ (step0 rows).cores.all (fun n => (step0 rows).reported.any (·.1 = n)) ∧
      (s.panel.model 0).desc = some desc ∧ ((step0 rows).batch.map (·.rows)).sum = rows)) ∧
    (let x := { step0 1 with reported := [], sentAt := 7 }
     let s := on core fun p => northRegs [(Reg.CTX_CFG, 0x00640100)] (stepping x p)
     find (s.panel.crown .north).takeReports.steps 4 = some x ∧ x.reported.any (·.1 = 0) = false ∧ 0 ∈ x.cores ∧
      x.sentAt + bits ((s.panel.crown .north).rd Reg.CTX_CFG) 23 16 * 1000000 ≤ s.panel.dial) ∧
    (let x := { step0 2 with reading := true, lists := [(0, leBytes 8 0)] }
     let s := on core (stepping x)
     let i := x.sampled.length
     find (s.panel.crown .north).steps 4 = some x ∧
      (x.batch.find? fun b => decide (b.row ≤ i) && decide (i < b.row + b.rows)) = some ⟨5, 0, 4, 2, 0, [], []⟩ ∧
      ((List.range desc.nlist).map fun j => find x.lists (512 * i + j)).all (·.isSome) ∧
      s.panel.ctxOf 5 = some (.slot 0, ctx0) ∧ i + 1 < (x.batch.map (·.rows)).sum) := by decide +kernel

/-- A commit to post; contexts past their deadline, drained, and with their host link down; crowns, one of which is lost already;
forecast registers that are behind. -/
theorem witness_context_ends :
    (let m : Commit := { handle := 5, recs := [leBytes 16 1] }
     let e := { ctx0 with oq := 2 }
     let s := on core fun p => (slotted e (p.modCrown .north fun k => { k with commits := [m] })).modQ 2 fun q => { q with on := true }
     s.panel.engineOn .north ∧ pluck (fun m => m.handle == (5 : W32).toNat) (s.panel.crown .north).commits = some (m, []) ∧
      s.panel.ctxOf m.handle = some (.slot 0, e) ∧ e.oqf = false ∧ (s.panel.qset e.oq).on) ∧
    (let e := { ctx0 with deadline := 9 }
     let s := on core (slotted e)
     s.panel.ctxOf (5 : W32).toNat = some (.slot 0, e) ∧ e.deadline ≤ s.panel.dial ∧ s.panel.inStep e.handle = false) ∧
    (let e := { ctx0 with state := 5 }
     let s := on core (slotted e)
     s.panel.ctxOf (5 : W32).toNat = some (.slot 0, e) ∧ s.panel.slotLeader 0 = .north ∧ (s.panel.crown .north).commits = []) ∧
    (let s := on core (slotted ctx0)
     (s.panel.pathDown ctx0).any fun t0 =>
      decide (t0 + bits ((s.panel.crown .north).rd Reg.CTX_CFG) 15 8 * 1000000 ≤ s.panel.dial)) ∧
    (let s := on core fun p => p.modCrown .south fun k => { k with lost := true }
     s.panel.live ∧ (s.panel.crown .north).lost = false ∧ (s.panel.crown Crown.north.other).lost) ∧
    (let s := on
     s.panel.engineOn .south ∧
      s.panel.sh (Reg.PWR_FCAST + 32) + s.panel.sh (Reg.PWR_FCAST + 36) * 2 ^ 32 < s.panel.dial / 1000000 * 1000000) := by
  decide +kernel

/-- A message of a tag at the head of the crown's queue. -/
def told (tag : Nat) (bs : List Byte) (p : Panel) : Panel :=
  p.modCrown .north fun k => { k with msgq := [⟨tag, 0, 0, 0, 3, bs⟩] }

/-- Step commands of the follower's epoch and of another; a worker's report; a mirror update; records of a fabric queue; a message to
send again. -/
theorem witness_group_steps :
    (∀ epoch ∈ [0, 1],
      (let bs := leBytes 8 0 ++ leBytes 8 epoch ++ leBytes 48 0
       let s := on core fun p => told 0x4701 bs (northRegs [(Reg.CTX_CFG, 0x80640100)] (modelled ready0 p))
       s.panel.engineOn .north ∧ s.panel.fatal = false ∧ s.panel.shedding = false ∧ grpEpoch s.panel.grp = 0 ∧
        (s.panel.nextMsg .north (· == 0x4701)).any (fun x => leAt x.1.payload 8 2 == epoch) ∧ s.panel.ctxRole .north = 2 ∧
        s.panel.readyDesc 0 = some desc ∧ s.panel.firstPort = some 0)) ∧
    (let x := { step0 1 with workers := [2, 3] }
     let s := on core fun p => told 0x4702 (leBytes 4 0 ++ leBytes 60 4) (stepping x p)
     (s.panel.nextMsg .north (· == 0x4702)).any (fun y => leAt y.1.payload 4 4 == 4) ∧
      find (s.panel.crown .north).steps 4 = some x) ∧
    (let s := on core fun p => told 0x4703 (leBytes 4 5 ++ leBytes 4 2 ++ leBytes 56 7) (slotted ctx0 p)
     (s.panel.nextMsg .north (· == 0x4703)).any (fun y => leAt y.1.payload 0 4 == 5 && leAt y.1.payload 4 2 == 2) ∧
      s.panel.ctxOf 5 = some (.slot 0, ctx0)) ∧
    (let s := on core fun p => told 0x8002 (leBytes 16 5) (p.modQ 2 fun q => { q with on := true, regs := rfSet [] 0 (5 * 2 ^ 15) })
     (s.panel.nextMsg .north (fun t => 0x8000 ≤ t && t ≤ 0x8FFF)).any (fun y => y.1.tag == 0x8002) ∧ (s.panel.qset 2).on ∧
      1 ≤ (s.panel.qset 2).tcqRoom) ∧
    (let q : FabQueue := { recs := [⟨3, 5, leBytes 16 5⟩], resendAt := some 7 }
     let s := on core fun p => p.modCrown .north fun k => { k with fab := [(2, q)] }
     s.panel.engineOn .north ∧ (s.panel.crown .north).fab = [(2, q)] ∧ 2 % 4096 = (2 : Fin 4096).val ∧ q.resendAt = some 7 ∧
      7 ≤ s.panel.dial) := by decide +kernel

/-- Values of CTX_CFG that are held and that are not, and of CTX_SVC_BASE, with contexts and without. -/
theorem witness_context_registers :
    (let s := on core fun p => p.setHub 0 ((List.range 2).foldl (fun (k : Hub) i => k.wr (Reg.HUB_BAND + 4 * i) 0x80808080) { stack := 2 })
     s.panel.granted (.ringRoot .north) (.crown .north) Reg.CTX_CFG ∧ s.panel.granted (.ringRoot .north) (.crown .north) Reg.CTX_SVC_BASE ∧
      s.panel.anyCtx = false ∧ bits 0x00640100 31 30 ≠ 3 ∧ bits 0x00640100 23 16 ≠ 0 ∧ bits 0x00640100 15 8 ≠ 0 ∧ bits 0 23 16 = 0 ∧
      s.panel.decodeGA (local0 0) = .ok (.hbm 0 0) ∧ (local0 0).testBit 41 ∧ local0 0 % 2 ^ 20 = 0 ∧ 0x10000000 ≤ stackTop ∧
      (s.panel.hub 0).serviceBands 0) ∧
    (on core (slotted ctx0)).panel.anyCtx ∧ (0 : Nat).testBit 41 = false := by decide +kernel

/-! ### Hubs -/

/-- A hub that is up, with its first bands owned by partition 3. -/
def hub0 (f : Hub → Hub := id) : Hub := f (({ stack := 2 } : Hub).wr Reg.HUB_BAND 0x43434343)

/-- A panel with that hub 0. -/
def hubbed (k : Hub) (p : Panel) : Panel := p.setHub 0 k

/-- A permitted write and read, and a pointer from a core with every place taken. -/
theorem witness_hub_requests :
    (∀ op ∈ [Opc.write, Opc.readReq],
      (let x := packet { opcode := op, ga := local0 64, bytes := 32, len := 1 } (List.replicate 32 7)
       let s := on core (hubbed (hub0 fun k => { k with arr := [(0, [x])] }))
       let k := s.panel.hub 0
       s.panel.live ∧ s.panel.hubHead 0 0 = some x ∧ x.hdr.opcode = op ∧ bits x.hdr.ga 55 52 = 2 ∧
        k.refuses (stackOff s.panel.fuses x.hdr.ga) x.hdr (decide (op = Opc.write)) = none ∧
        k.overOpen (stackOff s.panel.fuses x.hdr.ga) x.hdr.bytes = false ∧ x.payload.1.length = x.hdr.bytes)) ∧
    (let x := packet { opcode := Opc.write, ga := 3 * 2 ^ 52 + Reg.HUB_CMD_PTR, bytes := 8, len := 1 } (leBytes 8 64)
     let c : HubCmd := { order := 0, ptr := 0, part := 3, crown := false }
     let s := on core (hubbed (hub0 fun k => { k with arr := [(0, [x])], run := (List.range 4).map fun i => (i, c) }))
     s.panel.hubHead 0 0 = some x ∧ bits x.hdr.ga 55 52 = 3 ∧ bits x.hdr.ga 19 0 = Reg.HUB_CMD_PTR ∧ x.hdr.fromCore ∧
      x.payload.2.1 = false ∧ s.panel.granted (packetWho x.hdr) (.hub 0) Reg.HUB_CMD_PTR ∧ (s.panel.hub 0).freeSlot = none ∧
      (s.panel.hub 0).cmdq.length < 64) := by decide +kernel

/-- A granule queued for write-back; a patrol that runs. -/
theorem witness_hub_care :
    (let s := on core (hubbed (hub0 fun k => ({ k with wbq := [2] }).wr Reg.HUB_SCRUB_CFG 0x80000001))
     s.panel.live ∧ (s.panel.hub 0).wbq = 2 :: [] ∧ (s.panel.hub 0).lost = false ∧ (s.panel.hub 0).stack = 2 ∧
      ((s.panel.hub 0).rd Reg.HUB_SCRUB_CFG).testBit 31 ∧ (s.panel.hub 0).rd Reg.HUB_SCRUB_CFG % 65536 ≠ 0) := by decide +kernel

/-- Granted writes of a hub's registers; a hub that has been silent; a stack that is up. -/
theorem witness_hub_state :
    (let s := on core (hubbed (hub0 fun k => { k with hbHeard := 7, hbSent := 7 }))
     s.panel.live ∧ s.panel.granted (.ringRoot .north) (.hub 0) Reg.HUB_ERR_CLR ∧
      s.panel.granted (.ringRoot .north) (.hub 0) (Reg.HUB_BAND + 4 * (191 : Fin 192)) ∧ (s.panel.hub 0).lost = false ∧
      (s.panel.hub 0).hbSent + 100000 ≤ s.panel.dial ∧ s.panel.fuses.hubPresent 0 ∧ (s.panel.hub 0).hbHeard ≠ 0 ∧
      (s.panel.hub 0).hbHeard + 400000 ≤ s.panel.dial ∧ (s.panel.hub 0).stack ≠ 3) ∧
    (bits 0x43434343 31 30 = 1 ∧ (0x43434343 : Nat).testBit 5 = false) ∧ bits 0xC0 7 6 = 3 ∧ (0x20 : Nat).testBit 5 := by
  decide +kernel

/-- A hub command of an op, from offset 0 to offset 4096, of 64 bytes. -/
def hubCmd (op : Nat) : HubCmd :=
  { order := 0, ptr := local0 8192, part := 3, crown := false, sent := true
    words := [BitVec.ofNat 64 (op * 2 ^ 60), if op = Hc.zero then 0 else BitVec.ofNat 64 (local0 0),
      if op = Hc.scrub then 0 else BitVec.ofNat 64 (local0 4096), 64, 0, 0, 0, 0] }

/-- A panel whose hub 0 runs one command. -/
def commanded (c : HubCmd) (p : Panel) : Panel := hubbed (hub0 fun k => { k with run := [(0, c)] }) p

/-- Each command, which passes its checks, next to be started; the data that a digest reads is clean. -/
theorem witness_hub_commands : ∀ op ∈ [Hc.copy, Hc.zero, Hc.digest, Hc.scrub],
    (let c := hubCmd op
     let s := on core (commanded c)
     let k := s.panel.hub 0
     s.panel.live ∧ k.lost = false ∧ (k.run.all fun x => x.2.sent && x.2.way != 3) ∧ k.nextCmd = some (0, c) ∧
      (s.panel.cmdCheck 0 c).toOption = some
        ⟨if op = Hc.zero then none else some (0, 0), if op = Hc.scrub then none else some (0, 4096)⟩ ∧
      k.overOpen 4096 c.length = false ∧ k.overOpen 4096 32 = false ∧ c.way = 0 ∧ k.openSections < 16 ∧
      St.ok (Hub.digestCws (({ c with started := true } : HubCmd).at s.panel 0) 0 2 { c with started := true } k).2.1.status) := by
  decide +kernel

/-- Commands that have ended, with word 7 to be written and written; a codeword to pass on and one for this stack; a COPY over the
ring. -/
theorem witness_hub_commands_end :
    (∀ w ∈ [0, 2], (let c := { hubCmd Hc.copy with ended := true, word7 := w }
     let s := on core (commanded c)
     find (s.panel.hub 0).run (0 : Fin 4) = some c ∧ c.waits = 0 ∧ c.notify = false ∧ (s.panel.hub 0).cmdq = [] ∧
      (s.panel.decodeGA (c.ptr + 56)).toOption = some (.hbm 0 8248) ∧
      (s.panel.hub 0).refusal 8248 8 c.part c.crown true = none)) ∧
    (∀ dst ∈ [0, 1], (let x : RingItem := { src := 23, dst := dst, slot := 0, cw := Codeword.fresh (List.replicate 32 7) false }
     let s := on core (hubbed (hub0 fun k => { k with ring := [(0, [x])] }))
     (s.panel.hub 0).ringIn true = x :: [] ∧ x.ack = false ∧ x.last = false ∧ x.cw.data.length = 32 ∧ s.panel.fuses.hubPresent 1 ∧
      (s.panel.hub 1).lost = false ∧ ((s.panel.hub 1).ringIn true).length < 448)) ∧
    (let c := { hubCmd Hc.copy with started := true, way := 1, total := 2 }
     let c := { c with words := c.words.set 2 (BitVec.ofNat 64 (local0 4096 + 2 ^ 36)) }
     let s := on core (commanded c)
     (s.panel.hub 0).mover 1 = some (0, c) ∧ (s.panel.cmdRange c.src c.length).toOption = some (0, 0) ∧
      (s.panel.cmdRange c.dst c.length).toOption = some (1, 4096) ∧ s.panel.fuses.hubPresent 1 ∧ (s.panel.hub 1).lost = false ∧
      ((s.panel.hub 1).ringIn true).length < 448) := by decide +kernel

/-! ### Fabric ports -/

/-- A panel whose port 0 of die 0 is as given, its die with device number 9, its port enabled, and more registers set. -/
def ported (f : FabricPort) (rs : List (Nat × Nat) := []) (p : Panel) : Panel :=
  let rs := [(Reg.PORT_DEVNUM, 0x80000009), (Reg.PORT_CFG, 0xC2C00401)] ++ rs
  p.setPort 0 { regs := rs.foldl (fun m x => rfSet m x.1 (BitVec.ofNat 64 x.2)) [], fab := [(0, f)] }

/-- A port that is up; one that is down and may train again; one in training; INIT of a partner. -/
theorem witness_port_links :
    (let s := on core (ported { state := 3 })
     s.panel.live ∧ s.panel.portHere 0 0 ∧ 2 ≤ (s.panel.fport 0 0).state) ∧
    (let s := on core fun p => ported {} [] (p.setCore (attSite (portAtt 0 0)) core)
     s.panel.pen 0 0 ∧ (s.panel.fport 0 0).state = 1 ∧ s.panel.powered (attSite (portAtt 0 0)) ∧
      (s.panel.fport 0 0).downAt + 1000000000 ≤ s.panel.dial) ∧
    (let s := on core (ported { state := 2 })
     let frame := initFrame 9 {}
     (s.panel.fport 0 0).state = 2 ∧ (s.panel.fport 0 0).initSent = false ∧ (s.panel.fport 0 0).mode ≠ 1 ∧ frameOk frame 4 32 ∧
      leAt frame 8 2 = 1 ∧ 19 ≤ leAt frame 12 2 ∧ 19 ≤ leAt frame 14 2) := by decide +kernel

/-- A frame that holds a packet without units. -/
def tx0 : TxFrame := { ddev := 9, pkt := packet { opcode := Opc.completion } }

/-- Good frames of each kind; a DATA frame out of sequence, and one with a bad CRC; a replay buffer past its time-out, before the
eighth time and at it. -/
theorem witness_port_frames :
    (let s := on core (ported { state := 3 })
     let f := s.panel.fport 0 0
     s.panel.live ∧ s.panel.portHere 0 0 ∧ f.state = 3 ∧ f.mode = 0 ∧ f.ctrlAt + 1000 ≤ s.panel.dial ∧ f.rxSeq = 0 ∧ f.nak = none) ∧
    frameOk (ctrlFrame {} none) 2 32 ∧ (leAt (ctrlFrame {} none) 8 1).testBit 0 = false ∧
    (∀ fseq ∈ [0, 7], (let frame := dataFrame 9 0 fseq {} tx0
     frameOk frame 1 (dataLen (rxAt frame 8).pkt) ∧ leAt frame 1 2 % 4096 = fseq)) ∧
    crcGood [1, 0, 0, 0, 0, 0, 0, 0] = false ∧
    (∀ n ∈ [0, 7], (let f : FabricPort := { state := 3, replay := [(0, 0, tx0)], goBacks := n }
     let s := on core (ported f)
     (s.panel.fport 0 0).replay ≠ [] ∧ (s.panel.fport 0 0).ackAt + 20000 ≤ s.panel.dial ∧ (s.panel.fport 0 0).goBacks = n)) := by
  decide +kernel

/-- An Ethernet port with a frame for it and a PFC frame; a beacon of the own group. -/
theorem witness_ether_and_beacons :
    (let s := on core (ported { state := 3, mode := 1 })
     let frame := etherFrame (s.panel.ownMac 0 0) [0, 0, 0, 0, 0, 1] 1 1 (leBytes 48 0)
     let pause := pfcFrameOf [0, 0, 0, 0, 0, 1] (s.panel.pcp 0 0 0) 9
     s.panel.live ∧ s.panel.portHere 0 0 ∧ (s.panel.fport 0 0).state = 3 ∧ (s.panel.fport 0 0).mode = 1 ∧ 64 ≤ frame.length ∧
      crcGood frame ∧ frame.take 6 = s.panel.ownMac 0 0 ∧ beAt frame 12 = 0x8100 ∧ beAt frame 16 = 0x88B5 ∧
      bits (leAt frame 18 8) 31 29 = 0 ∧ crcGood pause ∧ beAt pause 12 = 0x8808 ∧ beAt pause 14 = 0x0101 ∧
      (beAt pause 16).testBit (s.panel.pcp 0 0 0) ∧ beAt pause (18 + 2 * s.panel.pcp 0 0 0) ≠ 0) ∧
    (let s := on core (ported { state := 3 } [(Reg.PORT_GRP, 2 ^ 63 + 5 * 2 ^ 32)])
     let frame := withCrc (leBytes 16 3 ++ leBytes 32 (5 + 2 * 2 ^ 48))
     frameOk frame 3 52 ∧ grpValid ((s.panel.port 0).rd Reg.PORT_GRP) ∧
      leAt ((frame.drop 16).take 32) 0 2 = grpGid ((s.panel.port 0).rd Reg.PORT_GRP) ∧
      leAt ((frame.drop 16).take 32) 6 1 % 64 = 2) := by decide +kernel

/-- A pause that has ended, one that is repeated, an Ethernet request past its time-out; beacons and a seen mask that are due. -/
theorem witness_port_events :
    (let f : FabricPort :=
      { state := 3, mode := 1, paused := [(1, (5, 9))], pausing := [(1, 5)], out := [(4095, { hdr := {}, since := 5 })] }
     let f := { f with rx := [(1, List.replicate 9 { sdev := 1, ddev := 9, pkt := {} })] }
     let s := on core (ported f [(Reg.PORT_PFC, 3226 * 2 ^ 16), (Reg.PORT_GRP, 2 ^ 63)])
     s.panel.live ∧ s.panel.portHere 0 0 ∧ find (s.panel.fport 0 0).paused (1 : Fin 2) = some (5, 9) ∧ 9 ≤ s.panel.dial ∧
      find (s.panel.fport 0 0).pausing (1 : Fin 2) = some 5 ∧ 5 + 10000 ≤ s.panel.dial ∧
      (s.panel.fport 0 0).free 1 < bits ((s.panel.port 0).rd (perPort Reg.PORT_PFC 0)) 31 16 * 1024 ∧
      find (s.panel.fport 0 0).out (4095 : Fin 4096) = some { hdr := {}, since := 5 } ∧ (s.panel.fport 0 0).mode = 1 ∧
      5 + bits (s.panel.pcfg 0 0) 7 0 * 1000 ≤ s.panel.dial ∧ (s.panel.port 0).lost = false ∧
      grpValid ((s.panel.port 0).rd Reg.PORT_GRP) ∧ (s.panel.port 0).bcnAt + 100000 ≤ s.panel.dial ∧ s.panel.fuses.diePresent 0 ∧
      (s.panel.port 0).seenIv < s.panel.dial / 100000 ∧ s.panel.firstPort = some 0) := by decide +kernel

/-- A request at a port that is up, without a device number, and down; answers that match an entry and that match none. -/
theorem witness_remote_packets :
    (∀ y ∈ [(3, 0x80000009), (3, 0), (1, 0x80000009)],
      (let x := packet { opcode := Opc.write, bytes := 8, len := 1 } (leBytes 8 7)
       let s := on core fun p => (ported { state := y.1 } [(Reg.PORT_DEVNUM, y.2)] p).modPort 0 fun k => { k with arr := [(0, [x])] }
       s.panel.live ∧ s.panel.portHere 0 0 ∧ look [] (s.panel.port 0).arr (4 * 0) = x :: [] ∧
        s.panel.devnum 0 = (if y.2 = 0 then none else some 9) ∧ (s.panel.fport 0 0).state = y.1 ∧ (s.panel.fport 0 0).rxq 1 = [] ∧
        ((s.panel.fport 0 0).txq 0).length < txTop ∧ find (s.panel.fport 0 0).out 0 = none)) ∧
    (∀ inc ∈ [[], [(7, ({ sdev := 1, seq := 5, opcode := Opc.write } : InTrk))]],
      (let x := packet { opcode := Opc.completion, seq := 7 }
       let s := on core fun p => (ported { state := 3, inc := inc } [] p).modPort 0 fun k => { k with arr := [(1, [x])] }
       look [] (s.panel.port 0).arr (4 * 0 + 1) = x :: [] ∧ ((s.panel.fport 0 0).txq 1).length < txTop ∧
        x.hdr.seq ∉ (s.panel.port 0).own ∧ find (s.panel.fport 0 0).inc x.hdr.seq = (inc.map (·.2)).head? ∧
        (s.panel.fport 0 0).rxq 0 = [])) := by decide +kernel

/-- Granted writes of the port registers, and values that are held and that are not. -/
theorem witness_port_registers :
    (let s := on core (ported {})
     s.panel.granted (.ringRoot .north) (.port 0) (perPort Reg.PORT_CFG 1) ∧
      s.panel.granted (.ringRoot .north) (.port 0) (perPort Reg.PORT_PFC 1) ∧
      s.panel.granted (.ringRoot .north) (.port 0) Reg.PORT_DEVNUM ∧ (s.panel.fport 0 0).state ≠ 3 ∧ (s.panel.fport 0 1).state ≠ 3 ∧
      s.panel.granted (.ringRoot .north) (.port 0) (Reg.PORT_DEVBLK + 4 * (127 : Fin 128)) ∧
      s.panel.granted (.ringRoot .north) (.port 0) (Reg.PORT_DEVUNBLK + 4 * (127 : Fin 128)) ∧ s.panel.pcfg 0 1 = 0) ∧
    (let bad (x : Nat) := bits x 29 28 = 3 ∨ bits x 27 25 = bits x 24 22 ∨ bits x 21 10 = 0 ∨ bits x 21 10 = 4095 ∨ bits x 7 0 = 0
     ¬ bad 0xC2C00401 ∧ bad 0 ∧ bad 0xB2C00401) ∧
    (¬ (bits 0x0C9A0000 31 16 ≤ bits 0x0C9A0000 15 0 ∨ 3226 < bits 0x0C9A0000 31 16)) ∧ bits 0 31 16 ≤ bits 0 15 0 ∧
    3226 < bits 0x0C9B0000 31 16 := by decide +kernel

/-! ### Groups of panels -/

/-- A panel of device 9 in a group: its PORT_GRP, and its members. -/
def grouped (grp : Nat) (ms : List (Nat × Nat)) (p : Panel) : Panel :=
  ported { state := 3 } ((Reg.PORT_GRP, 2 ^ 63 + grp) :: ms.map fun x => (Reg.PORT_GMEMB + 4 * x.1, x.2)) p

/-- A member: role, state, intervals missed, device. -/
def member (role state miss dev : Nat) : Nat := 2 ^ 31 + role * 2 ^ 28 + state * 2 ^ 26 + miss * 2 ^ 16 + dev

/-- A message of a tag at the head of the north crown's queue. -/
def heardBy (tag : Nat) (bs : List Byte) (p : Panel) : Panel :=
  p.modCrown .north fun k => { k with msgq := [⟨tag, 0, 0, 0, 3, bs⟩] }

/-- The seen mask of one die of several, and of the only one that lives. -/
theorem witness_seen_masks : ∀ dead ∈ [[], [1, 2, 3, 4, 5, 6, 7]],
    (let s := on core fun p => heardBy 0x4710 (leBytes 16 4) (dead.foldl (fun p d => p.modPort d fun k => { k with lost := true })
       (grouped (2 ^ 60) [(0, member 1 0 0 9), (1, member 3 0 0 10)] p))
     s.panel.engineOn .north ∧ s.panel.firstPort = some 0 ∧
      (s.panel.nextMsg .north (· == 0x4710)).any (fun x => leAt x.1.payload 8 4 == (s.panel.crown .north).seenIv) ∧
      (insertNat (s.panel.crown .north).seenFrom (100 * siteOf 0 0 + 0)).length = 1 ∧
      (if dead = [] then 1 < s.panel.liveDies else s.panel.liveDies ≤ 1) ∧ s.panel.viewed 1) := by decide +kernel

/-- A manager's suspects: one that is back; a fatal spare; a fatal member with no spare, and with one. -/
theorem witness_suspects :
    (let s := on core fun p => (grouped (2 ^ 60) [(0, member 1 0 0 9), (1, member 3 1 0 10)] p).modPort 0 fun k =>
       { k with health := [(1, (7, 1))] }
     s.panel.engineOn .north ∧ s.panel.firstPort = some 0 ∧ grpRole s.panel.grp = 1 ∧ membValid (s.panel.memb 1) ∧
      membState (s.panel.memb 1) = 1 ∧ s.panel.lastBeacon 1 = some (7, 1) ∧ (1 : Nat).testBit 0 ∧ (1 : Nat).testBit 3 = false ∧
      membMiss (s.panel.memb 1) = 0) ∧
    (∀ role ∈ [3, 4], (let s := on core fun p =>
       (grouped (2 ^ 60) [(0, member 1 0 0 9), (1, member role 1 0 10)] p).modPort 0 fun k => { k with health := [(1, (7, 8))] }
     s.panel.beaconFatal 1 ∧ membState (s.panel.memb 1) = 1 ∧ membRole (s.panel.memb 1) = role ∧ s.panel.activeSpare = none)) ∧
    (let s := on core fun p => (grouped (2 ^ 60 + 2 ^ 8) [(0, member 1 0 0 9), (1, member 3 1 0 10), (2, member 4 0 0 11)] p).modPort 0
       fun k => { k with health := [(1, (7, 8))] }
     s.panel.beaconFatal 1 ∧ membRole (s.panel.memb 1) ≠ 4 ∧ s.panel.activeSpare = some 2 ∧
      grpQuorum s.panel.grp ≤ s.panel.membersLeft - 1 ∧ s.panel.recentExp = false) := by decide +kernel

/-- The limit of 10 s ends for a member that is back, and for one that is fatal; a standby takes over; a group message is sent again;
a millisecond of goodput. -/
theorem witness_group_decisions :
    (∀ health ∈ [1, 8], (let s := on core fun p =>
       { (grouped (2 ^ 60 + 2 ^ 8) [(0, member 1 0 0 9), (1, member 3 2 0 10), (2, member 4 0 0 11)] p).modPort 0 fun k =>
          { k with health := [(1, (7, health))] } with limited := [1] }
     grpRole s.panel.grp = 1 ∧ s.panel.recentExp = false ∧ s.panel.limited = [1] ∧
      (if health = 1 then s.panel.absentMember 1 = false else s.panel.beaconFatal 1 ∧ membRole (s.panel.memb 1) ≠ 4 ∧
        s.panel.activeSpare = some 2 ∧ grpQuorum s.panel.grp ≤ s.panel.membersLeft - 1))) ∧
    (let s := on core (grouped (2 * 2 ^ 60) [(0, member 1 1 3 8), (1, member 2 0 0 9)])
     s.panel.ownIndex = some 1 ∧ grpRole s.panel.grp = 2 ∧
      ((List.range 64).find? fun i => membValid (s.panel.memb i) && membRole (s.panel.memb i) == 1) = some 0 ∧
      membState (s.panel.memb 0) = 1) ∧
    (let g : GroupMsg := { id := 0, dev := 10, tag := 0x4705, payload := leBytes 32 0, resendAt := some 7 }
     let s := on core fun p => (ported {} [] p).modCrown .north fun k => { k with group := [g] }
     s.panel.engineOn .north ∧ s.panel.firstPort = some 0 ∧ (s.panel.crown .north).group = [g] ∧ 7 ≤ s.panel.dial) ∧
    (let s := on
     s.panel.ctxRole .north ≠ 2 ∧ s.panel.maint = false ∧ s.panel.goodputAt < s.panel.dial / 1000000 ∧ s.panel.uselessMs = false) := by
  decide +kernel

/-- A control message of each kind, of the group's epoch. -/
theorem witness_group_control : ∀ op ∈ [1, 2, 3, 4, 5, 6],
    (let s := on core fun p => heardBy 0x4705 (leBytes 1 op ++ leBytes 31 1)
       { grouped (2 ^ 60) [(0, member 1 0 0 9), (1, member 3 0 0 10)] p with awaited := [(1, 10)] }
     s.panel.engineOn .north ∧ s.panel.firstPort = some 0 ∧
      (s.panel.nextMsg .north (· == 0x4705)).any (fun x => leAt x.1.payload 2 2 == grpEpoch s.panel.grp && leAt x.1.payload 0 1 == op &&
        leAt x.1.payload 1 1 % 64 == 1) ∧ s.panel.awaited = [(1, 10)]) := by decide +kernel

/-! ### The host port -/

/-- A panel whose host link is up, function 1 bound to partition 3 and owner of queue set 5, with north registers set. -/
def hosted (rs : List (Nat × Nat)) (p : Panel) : Panel :=
  let rs := [(Reg.HOST_STATUS, 2 ^ 31), (Reg.HOST_FNPART + 4, 0x80000003), (Reg.HOST_QOWN + 4, 0x8100)] ++ rs
  p.modCrown .north fun k => { k with regs := rs.foldl (fun m x => rfSet m x.1 (BitVec.ofNat 64 x.2)) k.regs }

/-- A queue set that is enabled, with rings of 32 entries. -/
def set5 : QueueSet := { on := true, regs := rfSet [] 0 (2 ^ 30 + 5 * 2 ^ 15 + 5 * 2 ^ 10 + 5 * 2 ^ 5) }

/-- A queue set that is off and one that is on, owned by its function, with values that each doorbell takes and one past the ring; a
doorbell behind a write, one to release, and one of another function. -/
theorem witness_queue_sets :
    (let s := on core (hosted [])
     s.panel.live ∧ s.panel.qOwner (5 : QSet) = some (1 : HostFn).val ∧ (s.panel.qset (5 : QSet)).on = false ∧
      (s.panel.qset (5 : QSet)).busy = false ∧ (0x80000000 : Nat).testBit 31 ∧ s.panel.qOwner (5 : QSet) ≠ some (2 : HostFn).val) ∧
    (let s := on core fun p => (hosted [] p).setQ 5 set5
     (s.panel.qset 5).on ∧ (0 : Nat).testBit 31 = false ∧ (s.panel.fn 1).writes = [] ∧ (s.panel.fn 1).bells = [] ∧ 31 < set5.sqSize ∧
      31 < set5.rcqSize ∧ 31 < set5.tcqSize ∧ set5.sqSize ≤ 32) ∧
    (let s := on core fun p => { hosted [] p with fns := [(1, { writes := [(7, 1, 0, 0)] })] }
     s.panel.qOwner (5 : QSet) = some (1 : HostFn).val ∧ (s.panel.fn (1 : HostFn)).writes.getLast? = some (7, 1, 0, 0)) ∧
    (let b : HeldBell := { after := 7, which := 0, set := 5, value := 31 }
     let s := on core fun p => { (hosted [] p).setQ 5 set5 with fns := [(1, { bells := [b] })] }
     (s.panel.fn (1 : HostFn)).bells = b :: [] ∧ (s.panel.fn (1 : HostFn)).writes = [] ∧ (s.panel.qset b.set).on ∧
      b.value < (s.panel.qset b.set).sqSize) := by decide +kernel

/-- A ring with two requests to fetch; a NOP; a completion, and a token record, to write; records not yet signalled. -/
theorem witness_host_queues :
    (let s := on core fun p => (hosted [] p).setQ 5 { set5 with sqTail := 2 }
     let k := s.panel.qset 5
     let room := k.rcqSize - 1 - (k.rcqt + k.rcqSize - k.rcqHead) % k.rcqSize - k.fetched - k.due.length
     s.panel.live ∧ k.on ∧ s.panel.hostUp ∧ ([0, 0] : List (BitVec 512)).length ≤ 32 ∧
      min (min ((k.sqTail + k.sqSize - k.sqh) % k.sqSize) (k.sqSize - k.sqh)) (min room ([0, 0] : List (BitVec 512)).length) ≠ 0) ∧
    32 < (List.replicate 33 (0 : BitVec 512)).length ∧
    (let r : Req := { src := .set 5 0 1, part := some 3, bytes := leBytes 64 0 }
     let s := on core fun p => (hosted [] p).modCrown .north fun k => { k with reqs := [r] }
     (s.panel.nextReq .north (fun op => op == 0 || decide (5 < op))).isSome) ∧
    (let s (x : QueueSet) := on core fun p => (hosted [] p).setQ 5 x
     (s { set5 with due := [leBytes 16 7] }).panel.hostUp ∧
      ((s { set5 with due := [leBytes 16 7] }).panel.qset 5).due = leBytes 16 7 :: [] ∧
      ((s { set5 with tdue := [leBytes 16 7] }).panel.qset 5).due = [] ∧
      ((s { set5 with tdue := [leBytes 16 7] }).panel.qset 5).tdue = leBytes 16 7 :: [] ∧
      (let k := (s { set5 with unsig := 1 }).panel.qset 5
       (rfGet k.regs 0).toNat.testBit 30 ∧ 0 < k.unsig ∧ k.unsigAt + k.qmod % 256 * 1000 ≤ (s set5).panel.dial)) := by
  decide +kernel

/-- Segment 0 of function 1 over the first page of hub 0, for reads and writes. -/
def segmented (p : Panel) : Panel :=
  hosted [(Reg.HOST_SEG + 16 * 64, 7 * 2 ^ 61 + 2 ^ 53 + 2 ^ 41), (Reg.HOST_SEG + 16 * 64 + 8, 0)] p

/-- A write and a read that the segment allows, a read past its end, and a read past its time-out. -/
theorem witness_bar_accesses :
    (let s := on core segmented
     s.panel.live ∧ s.panel.hostUp ∧ (s.panel.barCheck 1 8 8 true).toOption = some (3, 2 ^ 53 + 2 ^ 41 + 8) ∧
      (s.panel.barCheck 1 8 8 false).toOption = some (3, 2 ^ 53 + 2 ^ 41 + 8) ∧
      (s.panel.barCheck 1 4092 8 false).toOption = none) ∧
    (let r : BarRead := { id := 0, since := 7, off := 8, len := 8, left := 1 }
     let s := on core fun p => { segmented p with fns := [(1, { reads := [r] })] }
     (s.panel.fn (1 : HostFn)).reads = r :: [] ∧ r.since + 5000000 ≤ s.panel.dial) := by decide +kernel

/-- Granted writes: a partition that no function has, one that another function has, and one that no longer is bound; a segment that is
not valid, with words that are held and that are not. -/
theorem witness_host_registers :
    (let s := on core (hosted [])
     s.panel.granted (.ringRoot .north) (.crown .north) (Reg.HOST_FNPART + 4 * (31 : HostFn)) ∧
      (0x80000004 &&& 0x8000001F : Nat).testBit 31 ∧ (∀ g : Fin 32, s.panel.fnPart g ≠ some (0x80000004 % 32)) ∧
      s.panel.fnPart 1 = some (0x80000003 % 32) ∧ (0x80000003 : Nat).testBit 31 ∧ (0 : Nat).testBit 31 = false ∧
      (∀ w : Fin 2, s.panel.granted (.ringRoot .north) (.crown .north) (Reg.HOST_SEG + 16 * (64 * (31 : HostFn) + (63 : Fin 64)) + 8 * w)) ∧
      (s.panel.seg 31 63 0).testBit 63 = false ∧
      (let x : Nat := (2 ^ 63 + 2 ^ 53 + 2 ^ 41) &&& 0xE0FFFFFFFFFFFFFF
       x.testBit 63 ∧ bits (x % 2 ^ 56) 55 52 = 2 ∧ x % 2 ^ 56 % 4096 = 0 ∧
        s.panel.sameTarget (x % 2 ^ 56) (x % 2 ^ 56 + 4096 * (s.panel.seg 31 63 1 + 1) - 1)) ∧
      (2 ^ 63 + 1 : Nat).testBit 63 ∧ (2 ^ 63 + 1) % 4096 ≠ 0) := by decide +kernel

/-- A panel whose host link is up, with a queue set of function 1; requests of 16 KiB and of more. -/
theorem witness_host_resets :
    (let s := on core fun p => (hosted [] p).setQ 5 set5
     s.panel.live ∧ (s.panel.crown .north).lost = false ∧ s.panel.hostUp ∧ s.panel.doeError = false ∧ (1 : HostFn).val ≠ 0 ∧
      s.panel.qOwner 5 = some (1 : HostFn).val) ∧ 16384 ≤ 16384 ∧ 16384 < 16385 := by decide +kernel

/-! ### Clocks -/

/-- A panel with shared registers set. -/
def sharing (rs : List (Nat × Nat)) (p : Panel) : Panel := rs.foldl (fun p x => p.setSh x.1 x.2) p

/-- Both references present, and one; a locked standby with the active escapement unlocked. -/
theorem witness_escapements :
    (let s := on core (sharing [(Reg.CLK_ESC_STAT, 2 ^ 30 + 2 ^ 29 + 2 ^ 28 + 2 ^ 27)])
     s.panel.live ∧ s.panel.refHere .north ∧ s.panel.refHere .south ∧ s.panel.dialRuns ∧ (s.panel.crown .north).lost = false ∧
      s.panel.standbyReady ∧ s.panel.granted (.ringRoot .north) (.crown (s.panel.viaCrown (.ringRoot .north))) Reg.CLK_ESC_CMD ∧
      s.panel.esc 25 = false) ∧
    (let s := on core (sharing [(Reg.CLK_ESC_STAT, 2 ^ 29 + 2 ^ 28)])
     s.panel.refHere .north ∧ s.panel.refHere Crown.north.other = false ∧ s.panel.standbyReady ∧
      s.panel.locked s.panel.activeEsc = false) := by decide +kernel

/-- A core whose clock runs, halted for longer than 1 µs, and with a raised cap that is due. -/
theorem witness_core_clocks :
    (let s := on
     s.panel.live ∧ s.panel.powered 0 ∧ (s.panel.core 0).haltSince = none ∧ s.panel.granted (.ringRoot .north) (.core 0) Reg.CLK_CAP) ∧
    (let s := on { core with haltSince := some 7 }
     (s.panel.core 0).haltSince = some 7 ∧ 7 + 1000 ≤ s.panel.dial ∧ (s.panel.core 0).clk.faulted = false) ∧
    (let s := on { core with clk := { raiseAt := some 7 } }
     (s.panel.core 0).haltSince = none ∧ (s.panel.core 0).clk.raiseAt = some 7 ∧ 7 ≤ s.panel.dial) := by decide +kernel

/-- A change that may be accepted; one pending, still to cancel, to check with its site armed and not armed, and to switch to. -/
theorem witness_setpoint_changes :
    (let s := on core (sharing [(Reg.CLK_SP_AT, 1000005000000)])
     s.panel.live ∧ s.panel.granted (.ringRoot .north) (.crown (s.panel.viaCrown (.ringRoot .north))) Reg.CLK_SP_CTL ∧
      s.panel.spPending = false ∧ s.panel.dial + 5000000 ≤ s.panel.sh Reg.CLK_SP_AT ∧ s.panel.merged) ∧
    (∀ arm ∈ [0, 0x80000020], (let s := on (regs [(Reg.CLK_SP_ARMCTL, arm), (Reg.CLK_SP_ARM, 7)]) fun p =>
       { sharing [(Reg.CLK_SP_CTL, 2 * 2 ^ 28)] p with spAt := 1000003000000 }
     s.panel.spPending ∧ s.panel.dial < s.panel.spAt + 2 ∧ s.panel.dial + 2000000 ≤ s.panel.spAt ∧ s.panel.spChecked = false ∧
      s.panel.spAt ≤ s.panel.dial + 4000000 ∧ s.panel.dial + 1000000 ≤ s.panel.spAt ∧ (s.panel.core 0).armed = decide (arm ≠ 0) ∧
      s.panel.poweredSites = [0] ∧ (s.panel.site 0).state ≠ 3 ∧ (s.panel.core 0).clocked ∧
      (s.panel.core 0).rd Reg.CLK_SP_ARM + 2 ≤ s.panel.dial)) := by decide +kernel

/-! ### Power -/

/-- A bus low, dead and high for as long as the rules ask. -/
theorem witness_supplies :
    (let s := on core fun p => { p with pow := { p.pow with lowAt := some 7, deadAt := some 7, highAt := some 7 } }
     s.panel.live ∧ s.panel.pow.lowAt = some 7 ∧ 7 + 50000 ≤ s.panel.dial ∧ (s.panel.sh Reg.PWR_IN).testBit 7 = false ∧
      s.panel.pow.deadAt = some 7 ∧ s.panel.pow.highAt = some 7 ∧ 7 + 10000 ≤ s.panel.dial) := by decide +kernel

/-- A site with no failed phase and with four; regions and edges in service; a region to turn on, to turn off, and to grant. -/
theorem witness_regions :
    (∀ n ∈ [0, 2, 4], (let s := on (regs [(Reg.PWR_SITE_STAT, n * 2 ^ 18)])
     let v := (s.panel.core 0).rd Reg.PWR_SITE_STAT
     s.panel.live ∧ s.panel.powered 0 ∧ (bits v 29 22).testBit (7 : Fin 8) = false ∧ bits v 21 18 = n ∧ (s.panel.site 0).state ≠ 4)) ∧
    (let s := on core fun p => sharing [(Reg.PWR_RGN, 2 ^ 30), (Reg.PWR_RGN + 92, 2 ^ 31), (Reg.PWR_EDGE, 2 ^ 31)] { p with sites := [] }
     s.panel.rgnState (0 : Region) = 1 ∧ s.panel.rgnState (23 : Region) = 2 ∧ s.panel.edgeState (0 : Fin 8) = 2 ∧
      s.panel.granted (.ringRoot .north) (.crown (s.panel.viaCrown (.ringRoot .north))) Reg.PWR_RGN_CMD ∧ s.panel.rgnState 22 = 0 ∧
      (∀ n ∈ regionSites 23, (s.panel.site n).state ≠ 1 ∨ s.panel.partOf n = none)) ∧
    (let s := on core fun p => { p with pow := { p.pow with rgnq := [23] } }
     s.panel.pow.rgnq.head? = some (23 : Region).val ∧
      s.panel.sh Reg.PWR_RGN_BUDGET % 65536 + s.panel.pow.avg + s.panel.fcastTop ≤ s.panel.capEff.1) := by decide +kernel

/-- A panel whose region 0 has its next regulator to start, with a bucket of so many milliwatts that does not refill. -/
def starting (bucket : Nat) : State := on { core with powered := false } fun p =>
  { sharing [(Reg.PWR_RAMP, 200)] p with pow := { p.pow with rgnNext := [(0, (0, 7))] }, bucket := bucket }

/-- A full bucket covers the cost of any site's start, and an empty one of none. -/
theorem witness_regulator_start :
    ((∀ b ∈ [0, 200000], (let s := starting b
     s.panel.live ∧ find s.panel.pow.rgnNext (0 : Region) = some (0, 7) ∧ 7 + 100000 ≤ s.panel.dial ∧ (regionSites 0).getD 0 0 = 0 ∧
      s.panel.startable 0 ∧ s.panel.powered 0 = false ∧ s.panel.bucketNow = b)) ∧
     rampCost (Config.startCost 0) ≤ 200000) ∧ 0 < rampCost (Config.startCost 0) := by
  refine ⟨⟨by decide +kernel, ?_⟩, ?_⟩ <;> have := (Config.startLoad 0).isLt <;> simp only [rampCost, Config.startCost, cdiv] <;> omega

/-- A rise that waits; a forecast to rise for; a panel at its cap and above it; a broadcast cap to restore. -/
theorem witness_ramp_governor :
    (let s := on core fun p => { p with pow := { p.pow with rises := [(0, 128)] } }
     s.panel.live ∧ s.panel.pow.rises = [(0, 128)] ∧ (s.panel.core 0).floorMw < 250 * 128) ∧
    (let d : ModelDesc :=
       { vocab := 100, maxctx := 1000, nlist := 1, bmax := 4, inflight := 1, eos := [], ptok := 65, pchunk := 4, nres := 2, frames := 4
         kvbase := 0, ftbase := 0, brec := 0, brsz := 1024, rlist := 0, rsz := 5200, kvpool := 2 ^ 53, npool := 4, estep := 0
         cores := [⟨0, 0, 3, 0, 0, 1, 0⟩], tree := [] }
     let t1 := 1000000000000
     let s := on core fun p => (sharing [(Reg.PWR_FCAST, t1 % 2 ^ 32), (Reg.PWR_FCAST + 4, t1 / 2 ^ 32), (Reg.PWR_FCAST + 12, 65535)] p).setModel 0
       { state := 4, part := 3, desc := some d, stepsMs := [(0, 1)] }
     let p := s.panel
     let tk := t1 + (1 : Fin 5) * 1000000
     let dp := p.fcastFor tk - p.stepWatts
     let pc := dp * 1000 / p.warmSites.length
     let r := (p.warmSites.map fun n => pc - max (p.core n).siteMw (p.core n).floorMw).sum
     p.fcastAt .north = t1 ∧ t1 ≠ 0 ∧ p.dial < tk ∧ dp ≠ 0 ∧ p.warmSites ≠ [] ∧ p.shedding = false ∧
      tk ≤ p.dial + r * 1000 * 100 / (88 * 1000 * max 1 (bits (p.sh Reg.PWR_RAMP) 23 16))) ∧
    (let p := (on).panel
     0 ≤ p.capEff.1 ∧ 0 ≤ p.excursion ∧ p.capEff.1 < p.capEff.1 + 1) ∧
    (let s := on core fun p => { p with cores := [], pow := { p.pow with bcast := some 9, underAt := some 7 } }
     let p := s.panel
     p.pow.bcast = some 9 ∧ p.shedding = false ∧ p.pow.underAt = some 7 ∧ 7 + 100000000 ≤ p.dial ∧
      p.pow.raisedAt + 10000000 ≤ p.dial ∧ p.poweredSites = [] ∧ rampCost 0 ≤ p.bucketNow) := by decide +kernel

/-- A site with power, and a boundary of 100 ms that tenants have yet to see. -/
theorem witness_telemetry :
    (let s := on
     s.panel.live ∧ s.panel.powered 0 ∧ s.panel.pow.tenant < s.panel.dial / 100000000) := by decide +kernel

/-! ### Temperature -/

/-- A powered core with a reading of 90 °C on its first sensor. -/
def warmed (q : Nat) (k : Core := core) : Core := k.wr Reg.THM_SENS (2 ^ 31 + q)

/-- A site with a reading and without a lost hot spot; 10 ms at level 5; lehr mode that yields, that may rise, and that does not apply. -/
theorem witness_site_temperatures :
    (let s := on { warmed 360 with heat := { seenAt := (List.range 6).map fun i => (i, 1000000000000) } }
     s.panel.live ∧ s.panel.powered 0 ∧ (s.panel.core 0).tj = some 360 ∧ (s.panel.core 0).anyLost s.panel.dial = false) ∧
    (let s := on { core with heat := { hotSince := some 7 } }
     (s.panel.core 0).heat.hotSince = some 7 ∧ 7 + 10000000 ≤ s.panel.dial ∧ (s.panel.site 0).state ≠ 4) ∧
    (∀ avg ∈ [14000, 0], (let s := on (regs [(Reg.THM_LEHR, 2 ^ 31 + 60 * 256)] (warmed 8)) fun p =>
       { p with sites := [(0, { state := 2 })], pow := { p.pow with avg := avg } }
     let k := s.panel.core 0
     let step := (s.panel.dial - k.heat.lehrAt) / 1000000 * 2
     s.panel.shedding = false ∧ (k.rd Reg.THM_LEHR).testBit 31 ∧ (s.panel.site 0).state = 2 ∧ step ≠ 0 ∧
      (if avg = 14000 then s.panel.capEff.1 ≤ s.panel.pow.avg + 500 else s.panel.pow.avg + 500 < s.panel.capEff.1) ∧
      s.panel.capEff.2 ≠ 2 ∧ s.panel.capEff.2 ≠ 3 ∧ k.tj = some 8 ∧ 8 < s.panel.lehrFloor 0 k ∧
      rampCost ((min 32 (k.heat.lehr + min step 2) - k.heat.lehr) * 250) ≤ s.panel.bucketNow)) ∧
    (((on).panel.site 0).state ≠ 2 ∧ ((on).panel.core 0).seq.gated = false) := by decide +kernel

/-- HALT_N: free at reset, low after a fatal clock fault, free while a crown is held in reset. -/
theorem test_halt_n : (let p := State.reset.panel
    (p.haltDriven .north, (p.setShF Reg.CLK_ESC_STAT 25 25 1).haltDriven .south,
      ({ p with boot := { p.boot with held := [.north] } }.setShF Reg.CLK_ESC_STAT 25 25 1).haltDriven .south)) =
    (false, true, false) := by decide +kernel

/-- Dies to trip, edge dies that have stood at 108 °C, and stacks at level 3 with the HBM limit out of force and in force. -/
theorem witness_die_temperatures :
    (let s := on
     s.panel.live ∧ s.panel.powered 0 ∧ (s.panel.site 0).state ≠ 4 ∧ s.panel.fuses.hubPresent 0 ∧ (s.panel.hub 0).lost = false ∧
      s.panel.fuses.diePresent 0 ∧ (s.panel.port 0).lost = false ∧ (s.panel.crown .north).lost = false) ∧
    (∀ die ∈ [Die.hub 0, .port 0, .crown .south], (let s := on core fun p => p.setEdgeHot die (some 7)
     s.panel.edgeUp die ∧ s.panel.edgeHot die = some 7 ∧ 7 + 10000000 ≤ s.panel.dial ∧ (edgeIndex die).isSome)) ∧
    (∀ l ∈ [none, some 9000], (let s := on core fun p =>
       { p.setHub 0 { stack := 2, levels := [(3, 7)] } with pow := { p.pow with hbm := l } }
     (s.panel.hub 0).stack = 2 ∧ (s.panel.hub 0).tlvl = 3 ∧ s.panel.pow.hbm = l ∧ s.panel.pow.hbmAt + 10000000 ≤ s.panel.dial ∧
      (∀ j, j < 24 → (s.panel.hub j).temps.length < 2))) := by decide +kernel

/-- Thermistors in range; an evaluation that is due; a flow that has stopped; a stop that may be lifted, and one past its 2 s. -/
theorem witness_coolant :
    (let s := on
     s.panel.live ∧ s.panel.pow.badIn = none ∧ s.panel.pow.badOut = none ∧ s.panel.pow.coolAt + 100000000 ≤ s.panel.dial) ∧
    (let s := on core fun p => { p.setSh Reg.THM_FLOW_CFG 1000 with pow := { p.pow with flow' := 120 } }
     s.panel.pow.stopAt = none ∧ s.panel.stopCause) ∧
    (let s := on core fun p => { p with pow := { p.pow with stopAt := some 7, fineFlow := some 7 } }
     s.panel.pow.stopAt = some 7 ∧ s.panel.pow.fineFlow = some 7 ∧ 7 + 100000000 ≤ s.panel.dial ∧
      s.panel.outletRise 100000000 1 = false ∧ 7 + 2000000000 ≤ s.panel.dial ∧
      (s.panel.sh Reg.THM_COOL_ALERT).testBit 27 = false) := by decide +kernel

/-! ### Start-up -/

/-- Straps that ask for nothing. -/
def straps0 : Straps := ⟨false, false, 0, 0⟩

/-- A panel in a stage of its start, whose crowns have written their records. -/
def starting' (n : Nat) (p : Panel) : Panel :=
  { p.setSh Reg.BOOT_STATUS (n * 2 ^ 28) with boot := { p.boot with straps := some straps0, records := [.north, .south] } }

/-- The state after reset, to start; stages 1, 3 and 10; stages that fail at their limit, and stage 5, which goes on. -/
theorem witness_starts :
    (State.reset.panel.boot.latched = false ∧ State.reset.panel.boot.straps = none) ∧
    (let s := on core (starting' 1)
     s.panel.live ∧ s.panel.starting ∧ s.panel.stage = 1 ∧ 50000 ≤ 50000 ∧ [Crown.north] ≠ []) ∧
    (let s := on core (starting' 10)
     s.panel.starting ∧ s.panel.stage = 10 ∧ s.panel.crownsKnown ∧ s.panel.svcReady = false ∧
      (let p := [Crown.north, .south].foldl (fun p c => p.modCrown c fun k => { k with lost := true }) s.panel
       p.svcReady ∧ p.crownsKnown ∧ p.starting ∧ p.live ∧ p.stage = 10)) ∧
    (let s := on core (starting' 4)
     s.panel.crownsKnown ∧ s.panel.stage ∉ [5, 6, 8, 9]) ∧
    (let s := on core (starting' 5)
     s.panel.stage = 5 ∧ s.panel.crownsKnown ∧ s.panel.inUse .north 3 = none ∧ s.panel.inUse .south 3 = none) ∧
    (let s := on core fun p => { starting' 3 p with boot := { p.boot with straps := some straps0, records := [.south] } }
     s.panel.starting ∧ s.panel.stage = 3 ∧ Crown.north ∉ s.panel.boot.records ∧ Crown.north.other ∈ s.panel.boot.records ∧
      (s.panel.crown .north).lost = false) := by decide +kernel

/-- A number is in the list that it was put into. -/
theorem insertNat_ne_nil (n : Nat) (l : List Nat) : insertNat l n ≠ [] := by
  cases l <;> simp only [insertNat] <;> repeat' split
  all_goals simp_all

/-- Numbers put into a list leave it empty only when there are none. -/
theorem foldl_insertNat_ne_nil (l acc : List Nat) (h : l ≠ [] ∨ acc ≠ []) : l.foldl insertNat acc ≠ [] := by
  induction l generalizing acc with
  | nil => simpa using h
  | cons n l ih => exact ih _ (.inr (insertNat_ne_nil n acc))

/-- A half that holds a core of a partition has a partition. -/
theorem halfParts_ne_nil (p : Panel) (n half : Nat) (h : halfOf n = half) (hn : n < 336) (hp : (p.partOf n).isSome) :
    p.halfParts half ≠ [] := by
  refine foldl_insertNat_ne_nil _ _ (.inl fun e => ?_)
  refine foldl_insertNat_ne_nil _ _ (.inl ?_) (List.flatMap_eq_nil_iff.mp e n (by simp [halfSites, h, hn]))
  obtain ⟨q, hq⟩ := Option.isSome_iff_exists.mp hp
  simp [hq]

/-- The half of the one core has its partition. -/
theorem witness_retrain_refused : (on).panel.halfParts 0 ≠ [] := halfParts_ne_nil _ 0 0 (by decide) (by decide) (by decide +kernel)

/-- A running panel: commands granted; an active site in a row with a spare; a retrain. -/
theorem witness_boot_commands :
    (let s := on core fun p => { (p.setCore 1 core) with sites := [(0, { state := 1 }), (1, { state := 2 })] }
     s.panel.granted (.ringRoot .north) (.crown (s.panel.viaCrown (.ringRoot .north))) Reg.BOOT_CMD ∧ s.panel.bootState = 1 ∧
      s.panel.retraining = 0 ∧ (s.panel.crown .north).lost = false ∧ (s.panel.crown .south).lost = false ∧
      (s.panel.site 0).state = 1 ∧ (s.panel.freeSpare (siteR 0)).isSome ∧ s.panel.repair = none) ∧
    (let s := on core fun p => { p.setShF Reg.BOOT_STATUS 20 19 1 with boot := { p.boot with retrainAt := 1000000000000 } }
     s.panel.live ∧ s.panel.retraining = 1 ∧ s.panel.dial ≤ s.panel.boot.retrainAt + 230000000000) := by decide +kernel

/-- A loss to repair; a repair whose partitions are idle, without a spare and with one; one to complete; one that has failed. -/
theorem witness_repairs :
    (let x : LossRec := ⟨0, 1, [3], 7⟩
     let s := on core fun p => { p with losses := [x], sites := [(0, { state := 3 })] }
     s.panel.live ∧ s.panel.losses = x :: [] ∧ s.panel.repair = none ∧ (s.panel.site 0).state = 3 ∧ x.parts ≠ []) ∧
    (∀ sites ∈ [[(0, ({ state := 3, orphan := some (0, 0x80000003) } : SiteInfo))],
        [(0, ({ state := 3, orphan := some (0, 0x80000003) } : SiteInfo)), (1, ({ state := 2 } : SiteInfo))]],
      (let r : Repair := { sites := [0], since := 1000000000000, parts := [3] }
       let s := on core fun p => { p with repair := some r, sites := sites, cores := [(1, core)] }
       s.panel.repair = some r ∧ r.steps = 0 ∧ r.failed = false ∧ s.panel.change = none ∧ s.panel.partsIdle r.parts ∧ s.panel.dial ≤ r.since + 6000000 ∧
        (Panel.adoptAll r.vacate r.sites s.panel).isSome = decide (sites.length = 2))) ∧
    (let r : Repair := { sites := [0], since := 1000000000000, parts := [3], steps := 1 }
     let s := on core fun p => { p with repair := some r }
     s.panel.repair = some r ∧ r.steps ≠ 0 ∧ s.panel.dial ≤ r.since + 60000000 ∧ s.panel.boot.vacates = []) ∧
    (let r : Repair := { sites := [0], since := 1000000000000, parts := [3], failed := true }
     let s := on core fun p => { p with repair := some r }
     s.panel.repair = some r ∧ s.panel.repairLost r ∧ s.panel.boot.vacates = []) := by decide +kernel

/-- A request that is laid out right, with room and without; a test whose site is a free spare; a test that runs. -/
theorem witness_tests :
    (let v : W64 := 0
     (on).panel.granted (.ringRoot .north) (.crown ((on).panel.viaCrown (.ringRoot .north))) Reg.BOOT_TEST_REQ ∧ bits v.toNat 58 32 = 0 ∧
      bits v.toNat 15 13 = 0 ∧ v.toNat.testBit 4 = false ∧ bits v.toNat 12 8 < 21 ∧ (on).panel.tests.length < 16 ∧
      16 ≤ (on core fun p => { p with tests := List.replicate 16 v }).panel.tests.length) ∧
    (let s := on core fun p => { p with tests := [testWord 1 0], sites := [(0, { state := 2 })] }
     s.panel.tests = testWord 1 0 :: [] ∧ s.panel.testRun = none ∧ (testEnds (testWord 1 0).toNat).all s.panel.testFree) ∧
    (let r : TestRun := { req := testWord 1 0, since := 1000000000000 }
     let s := on core fun p => { p with testRun := some r }
     s.panel.testRun = some r ∧ r.drained = [] ∧ s.panel.dial ≤ r.since + testLimit (testKind r.req.toNat) ∧
      testKind r.req.toNat ≠ 3) := by decide +kernel

/-! ### Errors -/

/-- Logs to poll and to acknowledge, tables to rewrite, and a step that is run again. -/
theorem witness_errors :
    (let s := on
     s.panel.live ∧ s.panel.powered 0 ∧ (s.panel.hub 0).lost = false ∧ (s.panel.port 0).lost = false ∧
      (s.panel.crown .north).lost = false ∧ s.panel.engineOn .north ∧ (s.panel.crown .north).pollAt + 1000000 ≤ s.panel.dial ∧
      s.panel.powerFails = false) ∧
    (let s := on core fun p => ((p.setCore 0 core).setHub 0 {}).setPort 0 {}
     s.panel.granted (.ringService .north) (.core 0) Reg.ERR_ACK_core ∧
      s.panel.granted (.ringService .north) (.hub 0) Reg.ERR_ACK_hub ∧
      s.panel.granted (.ringService .north) (.port 0) Reg.ERR_ACK_port ∧
      s.panel.granted (.ringService .north) (.crown .north) Reg.ERR_ACK_crown) ∧
    (let x : Step := { num := 4, model := 0, slot := 0, kind := 1, again := true }
     let s := on core fun p => p.modCrown .north fun k => { k with steps := [(4, x)] }
     s.panel.engineOn .north ∧ find (s.panel.crown .north).steps 4 = some x ∧ x.again ∧ x.restored = false) := by decide +kernel

/-! ### The ring, the service firmware and sessions -/

/-- A panel whose north crown's service firmware reports, with a session of some roles. -/
def manned (roles : Nat) (p : Panel) : Panel :=
  { p.modCrown .north fun k => { k with svc := true, sessions := [(0, { roles := roles, usedAt := 7 })] } with
    boot := { p.boot with records := [.north, .south] } }

/-- A sender of ring frames; crowns that are there, have written their records and report too late. -/
theorem witness_ring_and_service :
    (let s := on core (manned 1)
     s.panel.live ∧ ringSender (.ringRoot .north) ∧ (s.panel.crown .north).lost = false ∧ 0x2C ≤ 0x2C ∧ (s.panel.hub 0).lost = false ∧
      Crown.north ∈ s.panel.boot.records ∧ (s.panel.crown .north).svc ∧ (s.panel.crown .north).svcAt + 100000000 ≤ s.panel.dial) := by
  decide +kernel

/-- An item that names the repair counter of both crowns, and one that names a register of a core. -/
def item0 (dtype offset : Nat) : ConfigItem := ⟨0, 0, dtype, 0, offset, 0⟩

/-- A client certificate of a key that an entry holds; eight sessions; a session that is idle. -/
theorem witness_sessions :
    (let s := on core fun p => (manned 1 p).setSh Reg.MGMT_CRED (2 ^ 63 + 2 ^ 60 + 2 ^ 57)
     s.panel.live ∧ s.panel.svcUp .north ∧ find (s.panel.crown .north).sessions 1 = none ∧ (s.panel.crown .north).rngBad = false ∧
      s.panel.certRoles (⟨0, true⟩ : ClientCert).caKey = some 1 ∧ (⟨0, true⟩ : ClientCert).verifies ∧
      find (s.panel.crown .north).sessions (0 : Fin 8) = some { roles := 1, usedAt := 7 } ∧ 7 + 600000000000 ≤ s.panel.dial) ∧
    (let s := on core fun p => (manned 1 p).modCrown .north fun k =>
       { k with sessions := (List.range 8).map fun i => (i, { roles := 1, usedAt := 7 }) }
     s.panel.svcUp .north ∧ ∀ n, n < 8 → (find (s.panel.crown .north).sessions n).isSome) := by decide +kernel

/-- Messages that sessions of each role may send. -/
theorem witness_session_messages :
    (let s := on core (manned 1)
     s.panel.sessionOpen .north 0 mayObserve ∧ (s.panel.itemDies (item0 1 Reg.CORE_PART)).head? = some (.core 0) ∧
      readItem (item0 1 Reg.CORE_PART) ∧ (item0 1 Reg.CORE_PART).value = 0 ∧ (s.panel.crown .north).rngBad = false) ∧
    (let s := on core (manned 2)
     s.panel.sessionOpen .north 0 mayOperate ∧ (item0 1 Reg.CORE_PART).flags.testBit 0 = false ∧
      s.panel.itemDies (item0 1 Reg.CORE_PART) ≠ [] ∧ s.panel.powerFails = false ∧ (5 : Fin 6).val ≠ 0 ∧
      ([7] : List Byte).length ≤ 61440 ∧ 64 + ([7] : List Byte).length ≤ itemArea (5 : Fin 6)) ∧
    (∀ kind ∈ [5, 1], (let s := on core fun p => { manned 2 p with flash := { p.flash with put := [(kind, leBytes 64 0)] } }
     find s.panel.flash.put (putKey .north kind) = some (leBytes 64 0) ∧ s.panel.verifiable .north 1 (leBytes 64 0) = false)) := by
  decide +kernel

/-! ### Root commands and signed items -/

/-- Bytes written and read back. -/
theorem leNat_leBytes (n v : Nat) : leNat (leBytes n v) = v % 256 ^ n := by
  induction n generalizing v with
  | zero => simp [leBytes, leNat, Nat.mod_one]
  | succ n ih =>
    have h := Nat.mod_mul (x := v) (a := 256) (b := 256 ^ n)
    rw [show 256 ^ (n + 1) = 256 * 256 ^ n by rw [Nat.pow_succ, Nat.mul_comm], h]
    simp only [leBytes, leNat, ih, BitVec.toNat_ofNat]
theorem length_leBytes (n v : Nat) : (leBytes n v).length = n := by
  induction n generalizing v with
  | zero => rfl
  | succ n ih => simp [leBytes, ih]

/-- The bytes of a signature spell it. -/
theorem keyBits_leBytes (x : BitVec 512) : keyBits (leBytes 64 x.toNat) = x := by
  apply BitVec.eq_of_toNat_eq
  simp only [keyBits, leNat_leBytes, BitVec.toNat_ofNat]
  have := x.isLt
  omega

/-- The bytes of a signature that verifies under a key over a message. -/
def signedBy (key : BitVec 512) (m : List Byte) : List Byte := leBytes 64 (Config.sm2Known key (digestBits m)).toNat

/-- They do verify. -/
theorem verify_signedBy (key : BitVec 512) (m : List Byte) :
    Config.sm2Verify key (digestBits m) (keyBits (signedBy key m)) = true := by
  simp [Config.sm2Verify, signedBy, keyBits_leBytes]

/-- A command that an officer's key has signed. -/
theorem cmdSigned_signedBy (p : Panel) (k : Nat) (m : List Byte) (h : k ∈ p.officers) :
    p.cmdSigned (m ++ signedBy (p.credKey k) m) = true := by
  have hl : (signedBy (p.credKey k) m).length = 64 := length_leBytes ..
  have ht : (m ++ signedBy (p.credKey k) m).length - 64 = m.length := by simp [hl]
  simp only [Panel.cmdSigned, ht, List.take_left', List.drop_left', List.any_eq_true, Bool.and_eq_true, decide_eq_true_eq]
  exact ⟨by simp [hl], k, h, verify_signedBy ..⟩

/-- A panel whose officer's key is in entry 0. -/
def officered (p : Panel) : Panel := (manned 4 p).setSh Reg.MGMT_CRED (2 ^ 63 + 2 * 2 ^ 60 + 4 * 2 ^ 57)

/-- A root command without its signature: kind, number of items, counter 1, then its body. -/
def rootBody (kind n : Nat) (body : List Byte) : List Byte :=
  leBytes 4 0x524F4F54 ++ leBytes 2 n ++ leBytes 2 kind ++ leBytes 16 0 ++ leBytes 8 1 ++ leBytes 32 0 ++ body

/-- The panel on which a command of the officer's session is checked. -/
def checking : Panel := (on core officered).panel.heard .north 0

/-- Commands that pass every check but that of the signature pass that too. -/
theorem cmdFault_signed (kind : Nat) (m : List Byte) (h0 : leAt (m ++ signedBy (checking.credKey 0) m) 8 8 = 0)
    (h1 : leAt (m ++ signedBy (checking.credKey 0) m) 16 8 = 0) (h2 : cmdCtr (m ++ signedBy (checking.credKey 0) m) = 1)
    (h3 : checking.cmdLaidOut kind (m ++ signedBy (checking.credKey 0) m) = true)
    (h4 : cmdAt (m ++ signedBy (checking.credKey 0) m) = 0) :
    checking.cmdFault kind (m ++ signedBy (checking.credKey 0) m) = none := by
  have hs := cmdSigned_signedBy checking 0 m (by decide +kernel)
  have e1 : checking.fuses.serial.toNat = 0 := by decide +kernel
  have e2 : checking.sh Reg.MGMT_BOOT_ID = 0 := by decide +kernel
  have e3 : checking.sh Reg.MGMT_RCMD_CTR = 0 := by decide +kernel
  have e4 : checking.rcmds.length = 0 := by decide +kernel
  simp [Panel.cmdFault, hs, h0, h1, h2, h3, h4, e1, e2, e3, e4]

/-- An item that clears the officer's entry. -/
def clearing : List Byte := itemBytes ⟨0, 3, 6, 0, Reg.MGMT_CRED, 0⟩

/-- Commands that the officer's session may send: a protection change, credential changes that leave an officer and that leave none,
floors that are in range and that are not, an authorisation, and one that nobody signed. -/
theorem witness_root_commands :
    ((on core officered).panel.sessionOpen .north 0 mayCommand ∧
      (∀ x ∈ [(1, 0, []), (2, 0, []), (2, 1, clearing), (3, 0, leBytes 8 1), (3, 0, leBytes 8 (1 + 200 * 2 ^ 32)), (4, 0, leBytes 64 1)],
        let m := rootBody x.1 x.2.1 x.2.2
        checking.cmdFault x.1 (m ++ signedBy (checking.credKey 0) m) = none)) ∧
    (let p := checking.setSh Reg.MGMT_RCMD_CTR 1
     let b (n : Nat) (body : List Byte) := let m := rootBody 2 n body; m ++ signedBy (checking.credKey 0) m
     (p.writeItems (cmdItems (b 0 []))).officers ≠ [] ∧ (p.writeItems (cmdItems (b 1 clearing))).officers = [] ∧
      p.floorOk 1 0 ∧ p.floorOk 1 200 = false ∧ checking.change = none ∧ checking.rcmds = [] ∧ checking.repair = none ∧
      checking.cmdFault 3 [] = some (1, St.notPermitted)) := by
  refine ⟨⟨by decide +kernel, fun x hx => ?_⟩, by decide +kernel⟩
  simp only [List.mem_cons, List.not_mem_nil, or_false] at hx
  obtain rfl | rfl | rfl | rfl | rfl | rfl := hx <;>
    exact cmdFault_signed _ _ (by decide +kernel) (by decide +kernel) (by decide +kernel) (by decide +kernel) (by decide +kernel)

/-- The first 80 bytes of the trailer of an item of a kind, and the 48 behind its first signature. -/
def trailerHead (kind : Nat) : List Byte := padTo 80 (leBytes 4 0x53494754 ++ leBytes 1 1 ++ leBytes 1 (2 ^ (kind - 1)))
def trailerMid (kind : Nat) : List Byte := padTo 48 (leBytes 4 0 ++ leBytes 1 kind)
def signedHead (kind : Nat) : List Byte :=
  trailerHead kind ++ (signedBy Config.vendorKey (trailerHead kind) ++ trailerMid kind)

/-- An item of a kind, without a body of its own, signed with a certified key. -/
def signedItem (kind : Nat) : List Byte := signedHead kind ++ signedBy 0 (signedHead kind)

/-- It is verifiable. -/
theorem verifiable_signedItem (p : Panel) (kind : Nat) (hk : kind = 1 ∨ kind = 2) (hf : look 0 p.fuses.floors kind = 0) :
    p.verifiable .north kind (signedItem kind) = true := by
  have l (k m) : (signedBy k m).length = 64 := length_leBytes ..
  obtain rfl | rfl := hk
  all_goals
    have lh (j) : (signedHead j).length = 192 := by
      simp only [signedHead, List.length_append, l]
      rfl
    have lt (j) : (signedItem j).length = 256 := by simp [signedItem, lh, l]
    have ht (j) : trailer (signedItem j) = signedItem j := by simp [trailer, lt]
    have h80 (j) : (signedItem j).take 80 = trailerHead j := by rfl
    have h144 (j) : ((signedItem j).drop 80).take 64 = signedBy Config.vendorKey (trailerHead j) := by rfl
    have h192 (j) : (signedItem j).take 192 = signedHead j := List.take_left' (lh j)
    have h256 (j) : ((signedItem j).drop 192).take 64 = signedBy 0 (signedHead j) := by
      rw [signedItem, List.drop_left' (lh j), List.take_of_length_le (by simp [l])]
    have e : ∀ j ∈ [1, 2], keyBits (((signedItem j).drop 16).take 64) = 0 ∧ leAt (signedItem j) 0 4 = 0x53494754 ∧
        leAt (signedItem j) 4 1 = 1 ∧ leAt (signedItem j) 5 1 = 2 ^ (j - 1) ∧ leAt (signedItem j) 144 4 = 0 ∧
        leAt (signedItem j) 148 1 = j ∧ leAt (signedItem j) 152 8 = 0 := by decide +kernel
    have e1 := e 1 (by simp)
    have e2 := e 2 (by simp)
    have v1 (j) := verify_signedBy Config.vendorKey (trailerHead j)
    have v2 (j) := verify_signedBy 0 (signedHead j)
    simp [Panel.verifiable, ht, lt, h80, h144, h192, h256, v1, e1, e2, hf, Crown.num] at *
    first
      | exact v2 _
      | exact ⟨v2 _, rfl⟩

/-- A panel without its south crown, whose north crown has an image of kind 2 in flash and uses another copy. -/
def updated (b : List Byte) : State := on core fun p =>
  { p.modCrown .south fun k => { k with lost := true } with flash := { p.flash with copies := [(4, ⟨1, b⟩)], used := [(2, 1)] } }

/-- It is to be taken into use, once it is verifiable. -/
theorem updated_newer (b : List Byte) (h : (updated b).panel.verifiable .north 2 b = true) :
    (updated b).panel.newerSvc .north = some 0 := by
  have hc : (updated b).panel.copiesOf .north 2 = [(0, ⟨1, b⟩)] := rfl
  have hu : (updated b).panel.inUse .north 2 = none := rfl
  simp [Panel.newerSvc, Panel.chooseCopy, hc, hu, h]

/-- An authorised item of kind 1 to commit, and a newer service image. -/
theorem witness_signed_items :
    (let s := on core fun p =>
       { manned 2 p with flash := { p.flash with put := [(1, signedItem 1)] }, auths := [(1, sm3 (signedItem 1))] }
     s.panel.sessionOpen .north 0 mayOperate ∧ s.panel.powerFails = false ∧
      find s.panel.flash.put (putKey .north 1) = some (signedItem 1) ∧
      (s.panel.auths.any fun x => x.1 == (1 : Fin 6).val && x.2 == sm3 (signedItem 1)) ∧ s.panel.verifiable .north 1 (signedItem 1)) ∧
    (let s := updated (signedItem 2)
     s.panel.newerSvc .north = some 0 ∧ (s.panel.crown .north).lost = false ∧ (s.panel.crown .north).steps = [] ∧
      s.panel.away .north = false ∧ s.panel.away Crown.north.other = false ∧ (s.panel.crown .south).lost ∧ s.panel.bootState = 1) := by
  refine ⟨⟨by decide +kernel, by decide +kernel, by rfl, ?_, verifiable_signedItem _ 1 (.inl rfl) (by decide +kernel)⟩,
    updated_newer _ (verifiable_signedItem _ 2 (.inr rfl) (by decide +kernel)), by decide +kernel⟩
  show ((1 == 1 && sm3 (signedItem 1) == sm3 (signedItem 1)) || false) = true
  simp

/-! ### Protection changes and SPDM -/

/-- A change ahead of time; one late that may move; one drained, its item being a register of a core that is not powered; one due. -/
theorem witness_protection_steps :
    (∀ x ∈ [(2000000000000, false), (1000000500000, false), (7, true)],
      (let cmd : RootCmd := ⟨.north, 0, 0, x.1, 1, [⟨0, 1, 1, 5, Reg.CORE_PART, 0⟩]⟩
       let ch : Change := { cmd := cmd, staged := x.2, drained := x.2 }
       let s := on core fun p => { p with change := some ch }
       s.panel.live ∧ s.panel.change = some ch ∧ ch.moves < 10 ∧
        (if x.2 then ch.staged ∧ ch.drained ∧ ch.cmd.at' ≤ s.panel.dial
         else ch.staged = false ∧ ch.drained = false ∧ s.panel.dial + 100000 ≤ ch.cmd.at' ∧
          (∀ i ∈ ch.cmd.items, ∀ d ∈ s.panel.itemDies i, s.panel.drainedAt i d) ∧
          (s.panel.dial + 1000000 ≤ ch.cmd.at' ↔ x.1 = 2000000000000)))) := by decide +kernel

/-- A panel with one request in its mailbox. -/
def mailed (r : SpdmRequest) (algos bad : Bool) : State := on core fun p =>
  { p.modCrown .north fun k => { k with regs := rfSet k.regs Reg.HOST_STATUS 0x80000000, rngBad := bad } with doe := [r], spdmAlgos := algos }

/-- Requests of each kind, negotiated and not, with the random source good and bad; the certificate chain is not empty. -/
theorem witness_spdm :
    (∀ r ∈ [SpdmRequest.getVersion, .getCapabilities, .negotiateAlgorithms true true true true, .getDigests, .getCertificate 0 0 1,
        .challenge 0 0, .getMeasurements 0 0 0xFF], ∀ algos ∈ [true, false], ∀ bad ∈ [true, false],
      (mailed r algos bad).panel.live ∧ (mailed r algos bad).panel.hostUp ∧ (mailed r algos bad).panel.doeError = false ∧
        (mailed r algos bad).panel.doe = r :: [] ∧ ((mailed r algos bad).panel.crown .north).rngBad = bad ∧
        (mailed r algos bad).panel.spdmAlgos = algos) ∧
    0 < (Config.attestChain 0).length := by
  refine ⟨by decide +kernel, ?_⟩
  simp [Config.attestChain]

/-! ### Frames and the machine as a whole -/

/-- A command under each frame goes on; one core is named. -/
theorem witness_frames :
    Frame.oneCore (.nop 0) = some 0 ∧
    (∀ c ∈ [Instr.nop 0, .fence 0, .recv 0, .mm 0 0, .accStore 0 3, .emap 0, .vload 0, .vstore 0, .emapDescriptorRead 0, .rsum 0,
        .hubWriteBack 0, .hubCopy 0, .hubCmdComplete 0 0, .hubRingCodeword 0 true false, .doorbellRelease 0, .hostNop .north,
        .hostFnErrClr 0 0, .doeAbort, .ringBreak .north, .flashCommit .north 0 0 5, .flowPulse, .beaconSend 0, .managerTakeover .north,
        .agentAppoint 0, .forecastPost .north], ∃ t, exec c on = .next t) ∧
    (Frame.queues (.doorbellRelease 0) ∧ Frame.fetches (.hostNop .north) ∧ Frame.bar4 (.hostFnErrClr 0 0) ∧ Frame.doe .doeAbort ∧
      Frame.service (.ringBreak .north) ∧ Frame.flashing (.flashCommit .north 0 0 5) ∧ Frame.meters .flowPulse ∧
      Frame.links (.beaconSend 0) ∧ Frame.groups (.managerTakeover .north) ∧ Frame.agents (.agentAppoint 0) ∧
      Frame.reports (.forecastPost .north)) := by
  refine ⟨rfl, ?_, by decide⟩
  simp only [List.forall_mem_cons, List.not_mem_nil, false_imp_iff, implies_true, and_true]
  repeat' constructor

/-- A step of a queue of one command; empty queues with the dial stopped, running, and with a correction owed. -/
theorem witness_steps_and_idling :
    (∃ t, Goes { on with pending := [.nop 0] } t) ∧ ({ on with pending := [.nop 0] } : State).queueOk ∧
    (on).panel.memOk ∧ (on).panel.g0Ok ∧ (on).panel.fuses.legal ∧
    (∀ runs ∈ [true, false], ∀ owed ∈ [0, 3], ∀ half ∈ [true, false],
      (let s := on core fun p => { p with dialRuns := runs, clkOwed := owed, clkHalf := half }
       s.pending = [] ∧ s.panel.dialRuns = runs ∧ s.panel.clkOwed = owed ∧ s.panel.clkHalf = half)) ∧
    (.nop 0 : Instr).wf ∧ exec (.sqFetch 0 (List.replicate 33 0)) on = .fault (.noSuchOperand "SQ_FETCH") := by
  refine ⟨⟨_, rfl⟩, by decide, by decide +kernel, by decide +kernel, by decide +kernel, by decide +kernel, by decide, rfl⟩

end Sys2Proof.Tests
end

section
/-! PROOFS. The general register accesses (R13–R17): what a readable read and a wrong-width write are, what a read of each kind of
hit answers and leaves, and from these the obligation O1. -/

namespace Sys2Proof.Machine

/-! ### What an answer and a counted access leave -/

@[simp] theorem Panel.sh_emit (p : Panel) (o : OutRec) (off : Nat) : (p.emit o).sh off = p.sh off := rfl
@[simp] theorem Panel.badAcc_out (p : Panel) : p.badAcc.out = p.out := rfl
@[simp] theorem Panel.badAcc_cores (p : Panel) : p.badAcc.cores = p.cores := rfl

/-! ### Accesses that the rules let through -/

/-- A wrong-width write of a core answers DONE and is counted (R13). -/
theorem wrote_core_wrong {p : Panel} {who : Requester} {n : Site} {off bytes : Nat}
    (h : p.granted who (.core n) off = true) (hh : dieHit (.core n) off bytes true = .wrong) (v : W64) :
    p.wrote who (.core n) off bytes v = p.badAcc.emit (.answer who 0 St.done) := by
  obtain ⟨-, hasks, hblock, hanswers, hring, hmay⟩ := (granted_iff ..).1 h
  have hb : (Hit.wrong == Hit.rsv) = false := by decide
  simp [Panel.wrote, hasks, Panel.regWrite, hblock, hanswers, hring, hmay, hh, hb]

/-- A read that the rules let through answers what the register read answers, on every die but a BAR0. -/
theorem readBy_readable {p : Panel} {who : Requester} {die : Die} {off bytes : Nat}
    (h : p.readable who die off (dieHit die off bytes false).acc = true) (hd : ∀ f, die ≠ .bar0 f) (events : Nat) :
    p.readBy who die off bytes events =
      (p.readAt who die off bytes events).2.2.emit
        (.answer who ((p.readAt who die off bytes events).2.1 % 2 ^ 64) (p.readAt who die off bytes events).1) := by
  obtain ⟨-, hasks, hblock, hanswers, hring, hmay⟩ := (readable_iff ..).1 h
  have hread : p.regRead who die off bytes events = p.readAt who die off bytes events := by
    cases die with
    | bar0 f => exact absurd rfl (hd f)
    | _ => simp [Panel.regRead, hblock, hanswers, hring, hmay]
  simp [Panel.readBy, hasks, hread]

/-! ### What a register shows -/

/-- A hub's RC counter shows its value and restarts at the events of the cycle (R15, R16). -/
theorem shown_hub_rc (p : Panel) (who : Requester) (h : HubIx) {row : RegRow} (hr : row.acc = .rc) (base events : Nat) :
    p.shown who (.hub h) row base events = (p.hubView h base, p.modHub h fun k => k.wr base (min events cntTop)) := by
  simp [Panel.shown, hr, Panel.view, Panel.setCount]

/-- A readable register of a port die shows its value. -/
theorem shown_port_value (p : Panel) (who : Requester) (d : PortIx) {row : RegRow} (hr : row.acc ≠ .wo) (base events : Nat) :
    (p.shown who (.port d) row base events).1 = p.portView d base := by
  simp [Panel.shown, hr, Panel.view]

/-- Showing a register of a port die that is not RC changes nothing. -/
theorem shown_port_panel (p : Panel) (who : Requester) (d : PortIx) {row : RegRow} (hr : row.acc ≠ .rc) (base events : Nat) :
    (p.shown who (.port d) row base events).2 = p := by
  simp [Panel.shown, hr]

/-! ### What a read of each kind of hit answers and leaves -/

theorem readAt_wrong {p : Panel} {who : Requester} {die : Die} {off bytes : Nat} (hh : dieHit die off bytes false = .wrong)
    (events : Nat) : p.readAt who die off bytes events = (St.done, 0, p.badAcc) := by
  simp [Panel.readAt, hh]

theorem readAt_reg {p : Panel} {who : Requester} {die : Die} {off bytes base : Nat} {row : RegRow}
    (hh : dieHit die off bytes false = .reg row base) (events : Nat) :
    p.readAt who die off bytes events = (St.done, p.shown who die row base events) := by
  simp [Panel.readAt, hh]

/-- A read of a low half answers it and latches the high half for its requester, in place of any earlier latch (R14). -/
theorem readAt_low {p : Panel} {who : Requester} {die : Die} {off bytes base : Nat} {row : RegRow}
    (hh : dieHit die off bytes false = .half row base false) (events : Nat) :
    p.readAt who die off bytes events =
      (St.done, (p.shown who die row base events).1 % 2 ^ 32,
        (p.shown who die row base events).2.setLatches die
          ((p.latches die).filter (fun x => !(x.1 == who && x.2.1 == base)) ++
            [(who, base, (p.shown who die row base events).1 / 2 ^ 32)])) := by
  simp [Panel.readAt, hh]

/-- A read of a high half that is latched for its requester answers the latched value and unlatches it (R14). -/
theorem readAt_high_latched {p : Panel} {who : Requester} {die : Die} {off bytes base : Nat} {row : RegRow}
    (hh : dieHit die off bytes false = .half row base true) {x : Requester × Nat × Nat}
    (hx : ((p.latches die).find? fun x => x.1 == who && x.2.1 == base) = some x) (events : Nat) :
    p.readAt who die off bytes events =
      (St.done, x.2.2, p.setLatches die ((p.latches die).filter fun x => !(x.1 == who && x.2.1 == base))) := by
  simp [Panel.readAt, hh, hx]

/-- A read of a high half that is not latched for its requester answers the live value (R14). -/
theorem readAt_high_live {p : Panel} {who : Requester} {die : Die} {off bytes base : Nat} {row : RegRow}
    (hh : dieHit die off bytes false = .half row base true)
    (hx : ((p.latches die).find? fun x => x.1 == who && x.2.1 == base) = none) (events : Nat) :
    p.readAt who die off bytes events =
      (St.done, (p.shown who die row base events).1 / 2 ^ 32, (p.shown who die row base events).2) := by
  simp [Panel.readAt, hh, hx]

/-! ### The core registers of REGISTER_WRITE -/

/-- A core register is plain: a 4-byte write of it lands on an RW row with these writable bits, and `coreWrite` gives it no
effect of its own. -/
def PlainReg (off mask : Nat) : Prop :=
  (∃ row, hitIn coreMap off 4 true = .reg row off ∧ row.acc = .rw ∧ row.wmask = mask) ∧
    ∀ (p : Panel) (n : Nat) (row : RegRow) (v : W64),
      p.coreWrite n row off v = p.modCore n fun k => k.wr off (row.written (k.rd off) v)

/-- The five registers that REGISTER_WRITE is claimed of are plain (R178, R212, R243, R398, R434). -/
theorem plainReg_of_mem {off mask : Nat}
    (h : (off, mask) ∈ [(Reg.SPAD_SCRUB_CFG, 0x8000FFFF), (Reg.MESH_RED_CFG, 0x8000FFFF), (Reg.DMA_CFG, 0xFFFF),
      (Reg.PWR_GATE_CFG, 0xFFFF), (Reg.CLK_SP_ARMCTL, 0xC000003F)]) : PlainReg off mask := by
  simp only [List.mem_cons, Prod.mk.injEq, List.not_mem_nil, or_false] at h
  rcases h with ⟨rfl, rfl⟩ | ⟨rfl, rfl⟩ | ⟨rfl, rfl⟩ | ⟨rfl, rfl⟩ | ⟨rfl, rfl⟩ <;>
    exact ⟨⟨_, rfl, rfl, rfl⟩, fun _ _ _ _ => rfl⟩

/-- A granted write of a plain RW register of a core takes the value in its writable bits (R15). -/
theorem wrote_plainReg {p : Panel} {who : Requester} {n : Site} {off mask : Nat} (hp : PlainReg off mask)
    (h : p.granted who (.core n) off = true) (v : W64) :
    p.wrote who (.core n) off 4 v =
      (p.modCore n fun k => k.wr off ((k.rd off &&& (mask ^^^ (2 ^ 64 - 1))) ||| (v.toNat &&& mask))).emit
        (.answer who 0 St.done) := by
  obtain ⟨⟨row, hhit, hacc, rfl⟩, hwrite⟩ := hp
  have hperf : performed (.core n) row off = true := by simp [performed, hacc]
  rw [wrote_core h 4 v row hhit hperf, hwrite]
  simp [RegRow.written, hacc]

/-! ### The four commands on a panel that is on -/

theorem exec_registerWrite {s : State} (hl : s.panel.live = true) (who : Requester) (die : Die) (off bytes : Nat) (v : W64) :
    exec (.registerWrite who die off bytes v) s = .next { s with panel := s.panel.wrote who die off bytes v } :=
  onPanel_live hl fun p => p.wrote who die off bytes v

theorem exec_wrongWidthAccess {s : State} (hl : s.panel.live = true) (who : Requester) {die : Die} {off bytes : Nat}
    {isWrite : Bool} (hw : wrongWidth die off bytes isWrite = true) :
    exec (.wrongWidthAccess who die off bytes isWrite) s =
      .next { s with panel := if isWrite then s.panel.wrote who die off bytes 0 else s.panel.readBy who die off bytes 0 } := by
  change execWrongWidthAccess who die off bytes isWrite s = _
  simp [execWrongWidthAccess, onPanel_live hl, hw]

theorem exec_rcCounterRead {s : State} (hl : s.panel.live = true) (who : Requester) {die : Die} {off base : Nat} {row : RegRow}
    (hh : dieHit die off 4 false = .reg row base) (hr : row.acc = .rc) (events : Nat) :
    exec (.rcCounterRead who die off events) s = .next { s with panel := s.panel.readBy who die off 4 events } := by
  change execRcCounterRead who die off events s = _
  simp [execRcCounterRead, onPanel_live hl, hh, hr]

theorem exec_lowHalfReadLatch {s : State} (hl : s.panel.live = true) (who : Requester) {die : Die} {off base : Nat} {row : RegRow}
    (hh : dieHit die off 4 false = .half row base false) :
    exec (.lowHalfReadLatch who die off) s = .next { s with panel := s.panel.readBy who die off 4 0 } := by
  change execLowHalfReadLatch who die off s = _
  simp [execLowHalfReadLatch, onPanel_live hl, hh]

/-! ### The commands complete -/

theorem registerWrite_completes (s : State) (who : Requester) (n : Site) (v : W64) {off mask : Nat} (hp : PlainReg off mask)
    (h : s.panel.granted who (.core n) off = true) :
    ∃ t, exec (.registerWrite who (.core n) off 4 v) s = .next t ∧ t.panel.out = .answer who 0 St.done :: s.panel.out ∧
      (t.panel.core n).rd off =
        (((s.panel.core n).rd off &&& (mask ^^^ (2 ^ 64 - 1))) ||| (v.toNat &&& mask)) % 2 ^ 64 := by
  refine ⟨_, exec_registerWrite ((granted_iff ..).1 h).1 .., ?_⟩
  simp [wrote_plainReg hp h]

/-- Both kinds of wrong-width access end alike: zero and DONE, no core changed, one more in PANEL_BADACC_CNT (R13). -/
theorem wrongWidth_counted (s : State) (who : Requester) {t : State}
    (ht : t.panel = s.panel.badAcc.emit (.answer who 0 St.done)) :
    t.panel.out = .answer who 0 St.done :: s.panel.out ∧ t.panel.cores = s.panel.cores ∧
      t.panel.sh Reg.PANEL_BADACC_CNT = min cntTop (s.panel.sh Reg.PANEL_BADACC_CNT + 1) := by
  simp [ht, sh_badAcc]

theorem dieHit_wrong_of_wrongWidth {n : Site} {off bytes : Nat} {isWrite : Bool}
    (hw : wrongWidth (.core n) off bytes isWrite = true) : dieHit (.core n) off bytes isWrite = .wrong := by
  simpa [wrongWidth] using hw

theorem wrongWidthWrite_completes (s : State) (who : Requester) (n : Site) (off bytes : Nat)
    (h : s.panel.granted who (.core n) off = true) (hw : wrongWidth (.core n) off bytes true = true) :
    ∃ t, exec (.wrongWidthAccess who (.core n) off bytes true) s = .next t ∧
      t.panel.out = .answer who 0 St.done :: s.panel.out ∧ t.panel.cores = s.panel.cores ∧
      t.panel.sh Reg.PANEL_BADACC_CNT = min cntTop (s.panel.sh Reg.PANEL_BADACC_CNT + 1) :=
  ⟨_, exec_wrongWidthAccess ((granted_iff ..).1 h).1 who hw,
    wrongWidth_counted s who (wrote_core_wrong h (dieHit_wrong_of_wrongWidth hw) 0)⟩

theorem wrongWidthRead_completes (s : State) (who : Requester) (n : Site) (off bytes : Nat)
    (h : s.panel.readable who (.core n) off .ro = true) (hw : wrongWidth (.core n) off bytes false = true) :
    ∃ t, exec (.wrongWidthAccess who (.core n) off bytes false) s = .next t ∧
      t.panel.out = .answer who 0 St.done :: s.panel.out ∧ t.panel.cores = s.panel.cores ∧
      t.panel.sh Reg.PANEL_BADACC_CNT = min cntTop (s.panel.sh Reg.PANEL_BADACC_CNT + 1) := by
  have hwrong := dieHit_wrong_of_wrongWidth hw
  refine ⟨_, exec_wrongWidthAccess ((readable_iff ..).1 h).1 who hw, wrongWidth_counted s who ?_⟩
  simp [readBy_readable (bytes := bytes) (by rw [hwrong]; exact h) (by simp), readAt_wrong hwrong]

theorem rcCounterRead_completes (s : State) (who : Requester) (h : HubIx) (off events : Nat) {row : RegRow}
    (hread : s.panel.readable who (.hub h) off .rc = true) (hh : dieHit (.hub h) off 4 false = .reg row off)
    (hr : row.acc = .rc) :
    ∃ t, exec (.rcCounterRead who (.hub h) off events) s = .next t ∧
      t.panel.out = .answer who (s.panel.hubView h off % 2 ^ 64) St.done :: s.panel.out ∧
      (t.panel.hub h).rd off = min events cntTop := by
  have hacc : (dieHit (.hub h) off 4 false).acc = .rc := by rw [hh]; exact hr
  have hfit : min events cntTop % 2 ^ 64 = min events cntTop := Nat.mod_eq_of_lt (by unfold cntTop; omega)
  refine ⟨_, exec_rcCounterRead ((readable_iff ..).1 hread).1 who hh hr events, ?_⟩
  rw [readBy_readable (by rw [hacc]; exact hread) (by simp), readAt_reg hh, shown_hub_rc _ _ _ hr]
  exact ⟨rfl, by rw [Panel.hub_emit, Panel.hub_modHub, Hub.rd_wr_same, hfit]⟩

theorem lowHalfReadLatch_completes (s : State) (who : Requester) (d : PortIx) (off : Nat) {row : RegRow}
    (hread : s.panel.readable who (.port d) off row.acc = true) (hh : dieHit (.port d) off 4 false = .half row off false)
    (hr : row.acc = .ro ∨ row.acc = .rw) :
    ∃ t, exec (.lowHalfReadLatch who (.port d) off) s = .next t ∧
      t.panel.out = .answer who (s.panel.portView d off % 2 ^ 32) St.done :: s.panel.out ∧
      (who, off, s.panel.portView d off / 2 ^ 32) ∈ (t.panel.port d).latch := by
  have hwo : row.acc ≠ .wo := by rintro h; simp [h] at hr
  have hrc : row.acc ≠ .rc := by rintro h; simp [h] at hr
  have hlow : s.panel.portView d off % 2 ^ 32 % 2 ^ 64 = s.panel.portView d off % 2 ^ 32 := by omega
  refine ⟨_, exec_lowHalfReadLatch ((readable_iff ..).1 hread).1 who hh, ?_⟩
  rw [readBy_readable (by rw [hh]; exact hread) (by simp), readAt_low hh, shown_port_value _ _ _ hwo,
    shown_port_panel _ _ _ hrc, hlow]
  exact ⟨rfl, by simp [Panel.setLatches]⟩

theorem registerAccessesComplete : Completion.RegisterAccessesComplete :=
  ⟨fun s who n v _ _ hmem h => registerWrite_completes s who n v (plainReg_of_mem hmem) h, wrongWidthWrite_completes,
    wrongWidthRead_completes, fun s who h off events _ => rcCounterRead_completes s who h off events,
    fun s who d off _ => lowHalfReadLatch_completes s who d off⟩

/-! ### The high half (R14) -/

theorem highHalfReadsTheLatch : Completion.HighHalfReadsTheLatch := by
  refine ⟨fun p who d off row x hh hx => ?_, fun p who d off row hh hwo hnone => ?_⟩
  · rw [readAt_high_latched hh hx]
    refine ⟨rfl, fun y hy => ?_⟩
    simp only [Panel.setLatches, Panel.port_modPort, List.mem_filter] at hy
    simpa [imp_iff_not_or] using hy.2
  · have hfind : ((p.latches (.port d)).find? fun x => x.1 == who && x.2.1 == off) = none :=
      List.find?_eq_none.2 fun y hy => by simpa using hnone y hy
    rw [readAt_high_live hh hfind, shown_port_value _ _ _ hwo]

/-- Settles O1: each command is its access made on a panel that is on, and a half read goes by the latches of its die. -/
theorem registerAccesses : Obligations.RegisterAccesses := ⟨registerAccessesComplete, highHalfReadsTheLatch⟩

end Sys2Proof.Machine
end

section
/-! PROOFS. Heartbeats, region agents and engine gating (R43–R46, R62, R409): what a heartbeat leaves of its site, what a report of a
loss leaves, and which site of a region is eligible; from these the obligation O3. -/

namespace Sys2Proof.Machine

/-! ### Dial time that has passed -/

theorem Panel.since_iff (p : Panel) (t n : Nat) : p.since t n = true ↔ t + n ≤ p.dial := by simp [Panel.since]

/-! ### A heartbeat as it goes out (R46, R62) -/

theorem sendHeartbeat_hbSent (p : Panel) (n : Nat) : ((p.sendHeartbeat n).core n).hbSent = p.dial := by
  unfold Panel.sendHeartbeat
  cases p.agentOf (regionOf n) with
  | some a => simp
  | none => simp only [Panel.core_setCore]; split_ifs <;> rfl

theorem sendHeartbeat_counted (p : Panel) (n : Nat) :
    ((p.sendHeartbeat n).core n).rd Reg.CORE_HB_CNT = ((p.core n).rd Reg.CORE_HB_CNT + 1) % 2 ^ 32 := by
  have hfit : ((p.core n).rd Reg.CORE_HB_CNT + 1) % 2 ^ 32 % 2 ^ 64 = ((p.core n).rd Reg.CORE_HB_CNT + 1) % 2 ^ 32 := by omega
  refine Eq.trans ?_ ((Core.rd_wr_same (p.core n) Reg.CORE_HB_CNT _).trans hfit)
  unfold Panel.sendHeartbeat
  cases p.agentOf (regionOf n) with
  | some a => simp only [Panel.core_setCore]; rfl
  | none => simp only [Panel.core_setCore]; split_ifs <;> rfl

/-- An agent takes the heartbeat and acknowledges it. -/
theorem sendHeartbeat_agent {p : Panel} {n : Nat} (h : (p.agentOf (regionOf n)).isSome = true) :
    ((p.sendHeartbeat n).core n).hbHeard = p.dial ∧ ((p.sendHeartbeat n).core n).hbToCrown = false := by
  obtain ⟨a, ha⟩ := Option.isSome_iff_exists.1 h
  simp [Panel.sendHeartbeat, ha]

/-- Without an agent the crown hears a supervisor that has turned to it. -/
theorem sendHeartbeat_crown {p : Panel} {n : Nat} (h : p.agentOf (regionOf n) = none) (hc : (p.core n).hbToCrown = true) :
    ((p.sendHeartbeat n).core n).hbHeard = p.dial := by simp [Panel.sendHeartbeat, h, hc]

/-! ### A loss as it is reported (R62) -/

theorem reportLoss_agents (p : Panel) (n cause : Nat) : (p.reportLoss n cause).agents = p.agents := by
  unfold Panel.reportLoss; split_ifs <;> rfl

theorem reportLoss_fresh {p : Panel} {n : Nat} (h : p.losses.any (·.site = n) = false) (cause : Nat) :
    (p.reportLoss n cause).losses = p.losses ++ [{ site := n, cause := cause, parts := [], since := p.lastHeard n }] := by
  simp only [Panel.reportLoss, h, Bool.false_eq_true, if_false]; rfl

/-- Reported now or before, the site is among the losses. -/
theorem reportLoss_listed (p : Panel) (n cause : Nat) : (p.reportLoss n cause).losses.any (·.site = n) = true := by
  cases h : p.losses.any (·.site = n) with
  | true => simp only [Panel.reportLoss, h, if_true]
  | false => simp [reportLoss_fresh h]

/-! ### The sites that a summary names (R46) -/

theorem mem_namedSites (p : Panel) (g a n : Nat) : n ∈ p.namedSites g a ↔
    n ∈ regionSites g ∧ (n = a ∨ (p.powered n ∧ p.dial ≤ (p.core n).hbHeard + 20000)) := by
  rw [Panel.namedSites, List.mem_filter]
  exact and_congr_right fun _ => decide_eq_true_iff

/-- One value put at every key of a list stands at each of them, and at the keys that held it before. -/
theorem look_foldl_put {α : Type} (d v : α) (l : List Nat) : ∀ (m : Sparse α) (n : Nat), n ∈ l ∨ look d m n = v →
    look d (l.foldl (fun m i => put m i v) m) n = v := by
  induction l with
  | nil => intro m n h; simpa using h
  | cons i l ih =>
    intro m n h
    refine ih _ n ?_
    by_cases hi : n = i
    · exact .inr (by rw [hi, look_put_same])
    · rw [look_put_other _ _ _ hi]; simpa [hi] using h

/-! ### The sites of a region, in row-major order (R43) -/

theorem regionOf_of_mem_regionSites {g n : Nat} (h : n ∈ regionSites g) : regionOf n = g := by
  simp only [regionSites, List.mem_flatMap, List.mem_map, List.mem_range, siteOf] at h
  obtain ⟨i, hi, j, hj, rfl⟩ := h
  simp only [regionOf, siteR, siteC]
  omega

theorem mem_regionSites_regionOf (n : Nat) : n ∈ regionSites (regionOf n) := by
  simp only [regionSites, List.mem_flatMap, List.mem_map, List.mem_range]
  refine ⟨n / 21 % 2, by omega, n % 21 % 7, by omega, ?_⟩
  simp only [siteOf, regionOf, siteR, siteC]
  omega

theorem regionSites_sorted (g : Nat) : (regionSites g).Pairwise (· < ·) := by
  simp [regionSites, siteOf, List.range_succ]
  omega

/-- What makes a site eligible as its region's agent: R43, and log entry 11 for the lost and the halted. -/
theorem eligible_spec {p : Panel} {g n : Nat} (h : p.eligible g = some n) :
    p.powered n = true ∧ (p.site n).state ≠ 3 ∧ (p.site n).state ≠ 4 := by
  have hn := List.find?_some h
  simp only [decide_eq_true_eq] at hn
  obtain ⟨hpow, hret, hfus, -⟩ := hn
  exact ⟨hpow, hret, hfus⟩

/-- In a rising list, what comes before the first element that a test takes fails the test. -/
theorem find?_sorted_lt {l : List Nat} {test : Nat → Bool} {n m : Nat} (hsorted : l.Pairwise (· < ·))
    (h : l.find? test = some n) (hm : m ∈ l) (hlt : m < n) : test m = false := by
  obtain ⟨-, before, after, rfl, hbefore⟩ := List.find?_eq_some_iff_append.1 h
  rcases List.mem_append.1 hm with hin | hin
  · simpa using hbefore m hin
  · have hafter := (List.pairwise_cons.1 (List.pairwise_append.1 hsorted).2.1).1
    rcases List.mem_cons.1 hin with rfl | hin
    · exact absurd hlt (lt_irrefl m)
    · exact absurd hlt (hafter m hin).asymm

/-- No site of the region that comes before the eligible one is itself eligible. -/
theorem not_eligible_of_lt {p : Panel} {g n m : Nat} (h : p.eligible g = some n) (hm : m ∈ regionSites g) (hlt : m < n) :
    ¬ p.powered m ∨ (p.site m).state = 3 ∨ (p.site m).state = 4 ∨ (p.losses.any (·.site = m)) ∨
      (p.core m).seq.state = .halted := by
  have hnot := of_decide_eq_false (find?_sorted_lt (regionSites_sorted g) h hm hlt)
  tauto

/-! ### The commands complete -/

theorem heartbeat_completes (s : State) (n : Site) (hl : s.panel.live = true) (hp : (s.panel.core n).powered = true)
    (hh : (s.panel.core n).haltSince = none) (hst : (s.panel.core n).seq.state ≠ .halted)
    (hd : (s.panel.core n).hbSent + 20000 ≤ s.panel.dial) :
    exec (.heartbeat n) s = .next { s with panel := s.panel.sendHeartbeat n } := by
  change execHeartbeat n s = _
  simp [execHeartbeat, atSite_powered hl hp, Panel.since_iff, us, hd, hst, hh]

theorem coreLossDetect_completes (s : State) (n : Site) (hl : s.panel.live = true) (hp : (s.panel.core n).powered = true)
    (hd : s.panel.lastHeard n + 80000 ≤ s.panel.dial) :
    exec (.coreLossDetect n) s = .next { s with panel := s.panel.reportLoss n 2 } := by
  change execCoreLossDetect n s = _
  simp [execCoreLossDetect, atSite_powered hl hp, Panel.since_iff, us, hd]

theorem regionSummary_completes (s : State) (g : Region) (a : Nat) (hl : s.panel.live = true)
    (ha : s.panel.agentOf g = some a) (hd : look 0 s.panel.summaryAt g + 20000 ≤ s.panel.dial) :
    ∃ t, exec (.regionSummary g) s = .next t ∧ look 0 t.panel.summaryAt g = s.panel.dial ∧
      ∀ n ∈ regionSites g, n = a ∨ (s.panel.powered n ∧ s.panel.dial ≤ (s.panel.core n).hbHeard + 20000) →
        look 0 t.panel.namedAt n = s.panel.dial := by
  change ∃ t, execRegionSummary g s = .next t ∧ _
  refine ⟨_, onPanel_live hl _, ?_⟩
  simp only [ha, (Panel.since_iff ..).2 (show _ + 20 * us ≤ _ from hd), if_true, look_put_same, true_and]
  exact fun n hn hnamed => look_foldl_put _ _ _ _ n (.inl ((mem_namedSites ..).2 ⟨hn, hnamed⟩))

theorem agentLossDetect_completes (s : State) (g : Region) (a : Nat) (hl : s.panel.live = true)
    (ha : find s.panel.agents g = some a) (hd : look 0 s.panel.summaryAt g + 80000 ≤ s.panel.dial) :
    ∃ t, exec (.agentLossDetect g) s = .next t ∧ find t.panel.agents g = none ∧ t.panel.losses.any (·.site = a) := by
  change ∃ t, execAgentLossDetect g s = .next t ∧ _
  refine ⟨_, onPanel_live hl _, ?_⟩
  simp only [ha, (Panel.since_iff ..).2 (show _ + 80 * us ≤ _ from hd), if_true]
  exact ⟨by rw [reportLoss_agents, find_drop_same], reportLoss_listed ..⟩

theorem heartbeatReroute_completes (s : State) (n : Site) (hl : s.panel.live = true) (hp : (s.panel.core n).powered = true)
    (hd : (s.panel.core n).hbAcked + 40000 ≤ s.panel.dial) :
    ∃ t, exec (.heartbeatReroute n) s = .next t ∧ (t.panel.core n).hbToCrown = true := by
  change ∃ t, execHeartbeatReroute n s = .next t ∧ _
  refine ⟨_, atSite_powered hl hp _, ?_⟩
  simp only [(Panel.since_iff ..).2 (show _ + 40 * us ≤ _ from hd), true_and]
  split_ifs with hc
  · exact hc
  · simp

theorem agentAppoint_completes (s : State) (g : Region) (n : Nat) (hl : s.panel.live = true)
    (ha : s.panel.agentOf g = none) (he : s.panel.eligible g = some n) :
    ∃ t, exec (.agentAppoint g) s = .next t ∧ find t.panel.agents g = some n ∧
      look 0 t.panel.elections g = min 0xFF (look 0 s.panel.elections g + 1) := by
  change ∃ t, execAgentAppoint g s = .next t ∧ _
  refine ⟨_, onPanel_live hl _, ?_⟩
  simp [ha, he, satAdd]

theorem heartbeatsComplete : Completion.HeartbeatsComplete :=
  ⟨fun s n hl hp hh hst hd => ⟨_, heartbeat_completes s n hl hp hh hst hd, sendHeartbeat_hbSent .., sendHeartbeat_counted ..,
      sendHeartbeat_agent, sendHeartbeat_crown⟩,
    fun s n hl hp hd hfresh => ⟨_, coreLossDetect_completes s n hl hp hd, reportLoss_fresh hfresh 2⟩,
    regionSummary_completes, agentLossDetect_completes, heartbeatReroute_completes, agentAppoint_completes⟩

theorem agentComesFirst : Completion.AgentComesFirst := by
  intro p g n h
  obtain ⟨hpow, hret, hfus⟩ := eligible_spec h
  refine ⟨regionOf_of_mem_regionSites (List.mem_of_find?_eq_some h), hpow, hret, hfus, fun m hm _ hlt => ?_⟩
  exact not_eligible_of_lt h (hm ▸ mem_regionSites_regionOf m) hlt

/-! ### Engine gating (R409) -/

theorem engineGate_completes (s : State) (n : Site) (hl : s.panel.live = true) (hp : (s.panel.core n).powered = true)
    (hidle : (s.panel.core n).rd Reg.PWR_GATE_CFG % 65536 ≠ 0) (ht : (s.panel.core n).seq.task = none)
    (hd : (s.panel.core n).seq.idleSince + (s.panel.core n).rd Reg.PWR_GATE_CFG % 65536 * 1000 ≤ s.panel.dial) :
    ∃ t, exec (.engineGate n) s = .next t ∧ (t.panel.core n).seq.gated = true := by
  change ∃ t, execEngineGate n s = .next t ∧ _
  refine ⟨_, atSite_powered hl hp _, ?_⟩
  simp only [(Panel.since_iff ..).2 (show _ + _ * us ≤ _ from hd), hidle, ht, Option.isNone_none, ne_eq, not_false_eq_true,
    true_and, and_true]
  split_ifs with hg
  · exact hg
  · simp

/-- With idle 0 the core is never gated: the command changes nothing, whatever the panel's state. -/
theorem engineGate_never (s : State) (n : Site) (hidle : (s.panel.core n).rd Reg.PWR_GATE_CFG % 65536 = 0) :
    exec (.engineGate n) s = .next s := by
  change execEngineGate n s = _
  simp [execEngineGate, State.atSite, State.onPanel, State.always, hidle]

theorem engineWake_completes (s : State) (n : Site) (hl : s.panel.live = true) (hc : (s.panel.core n).clocked = true)
    (hs : (s.panel.core n).seq.starts ≠ []) :
    ∃ t, exec (.engineWake n) s = .next t ∧ (t.panel.core n).seq.gated = false := by
  change ∃ t, execEngineWake n s = .next t ∧ _
  refine ⟨_, onCore_clocked hl hc _, ?_⟩
  simp only [Panel.core_modCore, hs, ne_eq, not_false_eq_true, and_true]
  split_ifs with hg
  · rfl
  · simpa using hg

theorem engineGatingCompletes : Completion.EngineGatingCompletes :=
  ⟨engineGate_completes, engineGate_never, engineWake_completes⟩

/-- Settles O3: each command's effect follows from the intervals that have passed, and the first eligible site of a region from the
row-major order of its list. -/
theorem heartbeatsAndGating : Obligations.HeartbeatsAndGating := ⟨heartbeatsComplete, agentComesFirst, engineGatingCompletes⟩

end Sys2Proof.Machine
end

section
/-! PROOFS. What link training, group messages, agents and reports leave as it was (R43–R46, R62, R276, R282, R312, R340–R346): a
panel with the fields that a family of commands may change blanked, that each operation of the family keeps this part of the
panel, and from these the obligation O50. -/

namespace Sys2Proof.Machine

/-! ### The part of the panel that a family keeps -/

/-- All but the ports, the millisecond of the goodput counters and what has been sent. -/
def Panel.sansLinks (p : Panel) : Panel := { p with ports := [], goodputAt := 0, out := [] }

/-- All but crowns, ports and queue sets: what every message of a crown keeps. -/
def Panel.sansMessages (p : Panel) : Panel := { p with crowns := [], ports := [], qsets := [] }

/-- All but crowns, ports, queue sets and the adoptions that are under way. -/
def Panel.sansGroups (p : Panel) : Panel := { p.sansMessages with adopting := false, awaited := [] }

/-- All but crowns, ports, queue sets, models and the shared crown registers. -/
def Panel.sansReports (p : Panel) : Panel := { p.sansMessages with models := [], shared := [] }

/-- All but crowns, the losses reported, and the agents with their appointments and summaries. -/
def Panel.sansAgents (p : Panel) : Panel :=
  { p with crowns := [], losses := [], agents := [], elections := [], summaryAt := [], namedAt := [] }

theorem sansGroups_congr {p q : Panel} (h : p.sansMessages = q.sansMessages) : p.sansGroups = q.sansGroups := by
  rw [Panel.sansGroups, h, Panel.sansGroups]

theorem sansReports_congr {p q : Panel} (h : p.sansMessages = q.sansMessages) : p.sansReports = q.sansReports := by
  rw [Panel.sansReports, h, Panel.sansReports]

theorem sansGroups_adoption (p : Panel) (b : Bool) (m : Sparse Nat) :
    ({ p with adopting := b, awaited := m } : Panel).sansGroups = p.sansGroups := rfl

theorem sansReports_models (p : Panel) (m : Sparse Model) : ({ p with models := m } : Panel).sansReports = p.sansReports := rfl

/-! Panels that agree in a part are the same once the other fields are put back. -/

theorem frame_of_sansLinks {p q : Panel} (h : q.sansLinks = p.sansLinks) :
    { q with ports := p.ports, goodputAt := p.goodputAt, out := p.out } = p :=
  congrArg (fun r : Panel => { r with ports := p.ports, goodputAt := p.goodputAt, out := p.out }) h

theorem frame_of_sansGroups {p q : Panel} (h : q.sansGroups = p.sansGroups) :
    { q with crowns := p.crowns, ports := p.ports, qsets := p.qsets, adopting := p.adopting, awaited := p.awaited } = p :=
  congrArg (fun r : Panel =>
    { r with crowns := p.crowns, ports := p.ports, qsets := p.qsets, adopting := p.adopting, awaited := p.awaited }) h

theorem frame_of_sansReports {p q : Panel} (h : q.sansReports = p.sansReports) :
    { q with crowns := p.crowns, ports := p.ports, qsets := p.qsets, models := p.models, shared := p.shared } = p :=
  congrArg (fun r : Panel =>
    { r with crowns := p.crowns, ports := p.ports, qsets := p.qsets, models := p.models, shared := p.shared }) h

theorem frame_of_sansAgents {p q : Panel} (h : q.sansAgents = p.sansAgents) :
    { q with crowns := p.crowns, losses := p.losses, agents := p.agents, elections := p.elections, summaryAt := p.summaryAt,
             namedAt := p.namedAt } = p :=
  congrArg (fun r : Panel =>
    { r with crowns := p.crowns, losses := p.losses, agents := p.agents, elections := p.elections, summaryAt := p.summaryAt,
             namedAt := p.namedAt }) h

/-! ### Any part of the panel: folds, port dies and the shapes of commands -/

section
variable {β : Type} {part : Panel → β}

/-- A fold keeps what each of its steps keeps. -/
theorem foldl_keeps {α : Type} {f : Panel → α → Panel} (hf : ∀ p x, part (f p x) = part p) (l : List α) :
    ∀ p, part (l.foldl f p) = part p := by
  induction l with
  | nil => exact fun _ => rfl
  | cons x l ih => exact fun p => (ih _).trans (hf p x)

theorem allPorts_keeps (hport : ∀ p d g, part (Panel.modPort p d g) = part p) (p : Panel) (g : PortDie → PortDie) :
    part (p.allPorts g) = part p := by
  refine foldl_keeps (fun p d => ?_) _ p
  split_ifs
  · exact hport p d g
  · rfl

variable {s t : State}

theorem onPanel_keeps {f : Panel → Panel} (hf : ∀ p, part (f p) = part p) (h : s.onPanel f = .next t) :
    part t.panel = part s.panel := by
  cases hl : s.panel.live with
  | true => rw [onPanel_live hl] at h; cases h; exact hf _
  | false => rw [onPanel_dead hl] at h; cases h; rfl

theorem atSite_keeps {n : Nat} {f : Core → Panel → Panel} (hf : ∀ k p, part (f k p) = part p) (h : s.atSite n f = .next t) :
    part t.panel = part s.panel := by
  refine onPanel_keeps (fun p => ?_) h
  split_ifs
  · exact hf _ p
  · rfl

variable {f : Panel → Panel} (hf : ∀ p, part (f p) = part p)
include hf

theorem atPort_keeps {d q : Nat} (h : s.atPort d q f = .next t) : part t.panel = part s.panel := by
  refine onPanel_keeps (fun p => ?_) h
  split_ifs
  · exact hf p
  · rfl

theorem atCrown_keeps {c : Crown} (h : s.atCrown c f = .next t) : part t.panel = part s.panel := by
  refine onPanel_keeps (fun p => ?_) h
  split_ifs
  · rfl
  · exact hf p

end

/-! ### Links (R312, R319, R327, R340, R346) -/

@[simp] theorem sansLinks_modPort (p : Panel) (d : Nat) (g : PortDie → PortDie) : (p.modPort d g).sansLinks = p.sansLinks := rfl
@[simp] theorem sansLinks_setF (p : Panel) (d q : Nat) (f : FabricPort) : (p.setF d q f).sansLinks = p.sansLinks := rfl
@[simp] theorem sansLinks_modF (p : Panel) (d q : Nat) (g : FabricPort → FabricPort) : (p.modF d q g).sansLinks = p.sansLinks := rfl
@[simp] theorem sansLinks_sendFrame (p : Panel) (d q : Nat) (bs : List Byte) : (p.sendFrame d q bs).sansLinks = p.sansLinks := rfl
@[simp] theorem sansLinks_sendPfc (p : Panel) (d q v n : Nat) : (p.sendPfc d q v n).sansLinks = p.sansLinks := rfl
@[simp] theorem sansLinks_received (p : Panel) (d q n : Nat) : (p.received d q n).sansLinks = p.sansLinks := rfl
@[simp] theorem sansLinks_badFrame (p : Panel) (d q : Nat) : (p.badFrame d q).sansLinks = p.sansLinks := rfl
@[simp] theorem sansLinks_allPorts (p : Panel) (g : PortDie → PortDie) : (p.allPorts g).sansLinks = p.sansLinks :=
  allPorts_keeps sansLinks_modPort p g
@[simp] theorem sansLinks_sendBeacon (p : Panel) (d q dev n : Nat) : (p.sendBeacon d q dev n).sansLinks = p.sansLinks := by
  unfold Panel.sendBeacon
  dsimp only
  split_ifs <;> simp

section
variable {s t : State}

theorem portRetrain_sansLinks {d : PortIx} {q : Fin 2} {trained : Bool} (h : execPortRetrain d q trained s = .next t) :
    t.panel.sansLinks = s.panel.sansLinks := by
  refine atPort_keeps (fun p => ?_) h
  dsimp only
  split_ifs <;> simp

theorem initSend_sansLinks {d : PortIx} {q : Fin 2} (h : execInitSend d q s = .next t) :
    t.panel.sansLinks = s.panel.sansLinks := by
  refine atPort_keeps (fun p => ?_) h
  dsimp only
  split_ifs <;> simp

theorem init_sansLinks {d : PortIx} {q : Fin 2} {frame : List Byte} (h : execInit d q frame s = .next t) :
    t.panel.sansLinks = s.panel.sansLinks := by
  refine atPort_keeps (fun p => ?_) h
  dsimp only
  split_ifs <;> simp

theorem beaconSend_sansLinks {d : PortIx} (h : execBeaconSend d s = .next t) : t.panel.sansLinks = s.panel.sansLinks := by
  refine onPanel_keeps (fun p => ?_) h
  dsimp only
  split_ifs
  · rfl
  · exact foldl_keeps (fun p x => by simp) _ _

theorem pfcRepeat_sansLinks {d : PortIx} {q vc : Fin 2} (h : execPfcRepeat d q vc s = .next t) :
    t.panel.sansLinks = s.panel.sansLinks := by
  refine atPort_keeps (fun p => ?_) h
  dsimp only
  split
  · rfl
  · split_ifs <;> simp

theorem goodputTick_sansLinks {c : Crown} (h : execGoodputTick c s = .next t) : t.panel.sansLinks = s.panel.sansLinks := by
  refine atCrown_keeps (fun p => ?_) h
  dsimp only
  split
  · rfl
  · exact sansLinks_allPorts ..

end

theorem links_frame {s t : State} {c : Instr} (hc : Frame.links c = true) (h : exec c s = .next t) :
    t.panel.sansLinks = s.panel.sansLinks := by
  unfold Frame.links at hc
  split at hc
  · exact portRetrain_sansLinks h
  · exact initSend_sansLinks h
  · exact init_sansLinks h
  · exact beaconSend_sansLinks h
  · exact pfcRepeat_sansLinks h
  · exact goodputTick_sansLinks h
  · exact absurd hc Bool.false_ne_true

/-! ### Agents (R43–R46, R62) -/

theorem sansAgents_reportLoss (p : Panel) (n cause : Nat) : (p.reportLoss n cause).sansAgents = p.sansAgents := by
  unfold Panel.reportLoss
  split_ifs <;> rfl

section
variable {s t : State}

theorem coreLossDetect_sansAgents {n : Site} (h : execCoreLossDetect n s = .next t) :
    t.panel.sansAgents = s.panel.sansAgents := by
  refine atSite_keeps (fun _ p => ?_) h
  split_ifs
  · exact sansAgents_reportLoss ..
  · rfl

theorem regionSummary_sansAgents {g : Region} (h : execRegionSummary g s = .next t) :
    t.panel.sansAgents = s.panel.sansAgents := by
  refine onPanel_keeps (fun p => ?_) h
  split
  · rfl
  · split_ifs <;> rfl

theorem agentLossDetect_sansAgents {g : Region} (h : execAgentLossDetect g s = .next t) :
    t.panel.sansAgents = s.panel.sansAgents := by
  refine onPanel_keeps (fun p => ?_) h
  split
  · rfl
  · split_ifs
    · rw [sansAgents_reportLoss]; rfl
    · rfl

theorem agentAppoint_sansAgents {g : Region} (h : execAgentAppoint g s = .next t) :
    t.panel.sansAgents = s.panel.sansAgents := by
  refine onPanel_keeps (fun p => ?_) h
  split <;> rfl

end

theorem agents_frame {s t : State} {c : Instr} (hc : Frame.agents c = true) (h : exec c s = .next t) :
    t.panel.sansAgents = s.panel.sansAgents := by
  unfold Frame.agents at hc
  split at hc
  · exact coreLossDetect_sansAgents h
  · exact regionSummary_sansAgents h
  · exact agentLossDetect_sansAgents h
  · exact agentAppoint_sansAgents h
  · exact absurd hc Bool.false_ne_true

/-! ### What a crown's messages keep (R274–R276, R336–R345) -/

@[simp] theorem sansMessages_modCrown (p : Panel) (c : Crown) (g : CrownDie → CrownDie) :
    (p.modCrown c g).sansMessages = p.sansMessages := rfl
@[simp] theorem sansMessages_modPort (p : Panel) (d : Nat) (g : PortDie → PortDie) :
    (p.modPort d g).sansMessages = p.sansMessages := rfl
@[simp] theorem sansMessages_modQ (p : Panel) (q : Nat) (g : QueueSet → QueueSet) :
    (p.modQ q g).sansMessages = p.sansMessages := rfl
@[simp] theorem sansMessages_setF (p : Panel) (d q : Nat) (f : FabricPort) :
    (p.setF d q f).sansMessages = p.sansMessages := rfl
@[simp] theorem sansMessages_received (p : Panel) (d q n : Nat) : (p.received d q n).sansMessages = p.sansMessages := rfl
@[simp] theorem sansMessages_badFrame (p : Panel) (d q : Nat) : (p.badFrame d q).sansMessages = p.sansMessages := rfl
@[simp] theorem sansMessages_logCrown (p : Panel) (c : Crown) (d : DieId) (i : LogItem) :
    (p.logCrown c d i).sansMessages = p.sansMessages := rfl
@[simp] theorem sansMessages_peerSend (p : Panel) (c : Crown) (dev tag : Nat) (use : CrownUse) (bs : List Byte) :
    (p.peerSend c dev tag use bs).sansMessages = p.sansMessages := rfl
@[simp] theorem sansMessages_groupSend (p : Panel) (c : Crown) (dev tag : Nat) (bs : List Byte) (commit : Option Nat) :
    (p.groupSend c dev tag bs commit).sansMessages = p.sansMessages := rfl
@[simp] theorem sansMessages_sendStepReport (p : Panel) (c : Crown) (x : Step) (st : Nat) :
    (p.sendStepReport c x st).sansMessages = p.sansMessages := rfl

/-! The group's registers stand in the port dies. -/

@[simp] theorem sansMessages_allPorts (p : Panel) (g : PortDie → PortDie) : (p.allPorts g).sansMessages = p.sansMessages :=
  allPorts_keeps sansMessages_modPort p g
@[simp] theorem sansMessages_setEpoch (p : Panel) (e : Nat) : (p.setEpoch e).sansMessages = p.sansMessages :=
  sansMessages_allPorts ..
@[simp] theorem sansMessages_setRole (p : Panel) (r : Nat) : (p.setRole r).sansMessages = p.sansMessages :=
  sansMessages_allPorts ..
@[simp] theorem sansMessages_setMemb (p : Panel) (i v : Nat) : (p.setMemb i v).sansMessages = p.sansMessages :=
  sansMessages_allPorts ..
@[simp] theorem sansMessages_setMembFld (p : Panel) (i hi lo n : Nat) :
    (p.setMembFld i hi lo n).sansMessages = p.sansMessages := sansMessages_allPorts ..
@[simp] theorem sansMessages_setAlert (p : Panel) (v : Nat) : (p.setAlert v).sansMessages = p.sansMessages :=
  sansMessages_allPorts ..
@[simp] theorem sansMessages_blockDevice (p : Panel) (dev : Nat) : (p.blockDevice dev).sansMessages = p.sansMessages :=
  sansMessages_allPorts ..

@[simp] theorem sansMessages_settleAlert (p : Panel) : p.settleAlert.sansMessages = p.sansMessages := by
  unfold Panel.settleAlert
  dsimp only
  split_ifs <;> simp

@[simp] theorem sansMessages_stepDown (p : Panel) : p.stepDown.sansMessages = p.sansMessages :=
  (foldl_keeps (fun _ _ => sansMessages_modCrown ..) _ _).trans (sansMessages_setRole ..)

@[simp] theorem sansMessages_seeEpoch (p : Panel) (d e : Nat) : (p.seeEpoch d e).sansMessages = p.sansMessages := by
  unfold Panel.seeEpoch
  split
  · dsimp only; split_ifs <;> simp
  · simp
  · rfl

theorem sansMessages_takeBeacon (p : Panel) (d : Nat) (body : List Byte) :
    (p.takeBeacon d body).sansMessages = p.sansMessages := by
  unfold Panel.takeBeacon
  dsimp only
  split_ifs <;> simp

/-! Group control. -/

@[simp] theorem sansMessages_control (p : Panel) (c : Crown) (action i dev : Nat) :
    (p.control c action i dev).sansMessages = p.sansMessages := by
  refine (foldl_keeps (fun p j => ?_) _ _).trans (sansMessages_logCrown ..)
  dsimp only
  split_ifs <;> simp

@[simp] theorem sansMessages_closeInterval (p : Panel) (c : Crown) : (p.closeInterval c).sansMessages = p.sansMessages := by
  refine foldl_keeps (fun p j => ?_) _ p
  dsimp only
  split_ifs <;> simp

theorem sansMessages_nextMsg {p p' : Panel} {c : Crown} {want : Nat → Bool} {m : CtxMsg}
    (h : p.nextMsg c want = some (m, p')) : p'.sansMessages = p.sansMessages := by
  unfold Panel.nextMsg at h
  dsimp only at h
  split at h
  · cases h
  · split_ifs at h
    cases h
    rfl

theorem sansMessages_takeControl {p p' : Panel} {c : Crown} {action i dev : Nat}
    (h : p.takeControl c action = some (i, dev, p')) : p'.sansMessages = p.sansMessages := by
  unfold Panel.takeControl at h
  split at h
  · cases h
  · dsimp only at h
    split_ifs at h
    all_goals
      cases h
      split <;> simp

/-- A control message keeps what its meaning keeps. -/
theorem sansGroups_onControl {f : Nat → Nat → Panel → Panel} (hf : ∀ i dev p, (f i dev p).sansGroups = p.sansGroups)
    (p : Panel) (c : Crown) (action : Nat) : (p.onControl c action f).sansGroups = p.sansGroups := by
  unfold Panel.onControl
  split
  · rfl
  next i dev p' h =>
    have hp := sansGroups_congr (sansMessages_takeControl h)
    split_ifs
    · exact hp
    · exact (hf ..).trans hp

@[simp] theorem sansMessages_sendReady (p : Panel) (c : Crown) (i : Nat) : (p.sendReady c i).sansMessages = p.sansMessages := by
  unfold Panel.sendReady
  split <;> simp

/-! Token records and their delivery. -/

@[simp] theorem sansMessages_fabPump (p : Panel) (c : Crown) (key : Nat) : (p.fabPump c key).sansMessages = p.sansMessages := by
  unfold Panel.fabPump
  dsimp only
  split_ifs <;> simp

@[simp] theorem sansMessages_deliver (p : Panel) (c : Crown) (e : CtxEntry) (bs : List Byte) :
    (p.deliver c e bs).sansMessages = p.sansMessages := by
  unfold Panel.deliver
  dsimp only
  split_ifs <;> simp

@[simp] theorem sansMessages_relead (p : Panel) (c : Crown) (slots : List (Nat × CtxEntry)) :
    (p.relead c slots).sansMessages = p.sansMessages := by
  refine foldl_keeps (fun p x => ?_) _ p
  dsimp only
  split_ifs <;> simp

@[simp] theorem sansMessages_sendStep (p : Panel) (c : Crown) (mpart num slot : Nat) (d : ModelDesc) (g1 : Nat)
    (inline : List Byte) (args2 : Bool) :
    (p.sendStep c mpart num slot d g1 inline [] args2).sansMessages = p.sansMessages :=
  foldl_keeps (fun _ _ => sansMessages_modCrown ..) _ _

/-! ### Group commands (R340–R345) -/

section
variable {s t : State}

theorem beacon_sansGroups {d : PortIx} {q : Fin 2} {frame : List Byte} (h : execBeacon d q frame s = .next t) :
    t.panel.sansGroups = s.panel.sansGroups := by
  refine atPort_keeps (fun p => sansGroups_congr ?_) h
  dsimp only
  split_ifs <;> simp [sansMessages_takeBeacon]

theorem seenMaskReceive_sansGroups {c : Crown} (h : execSeenMaskReceive c s = .next t) :
    t.panel.sansGroups = s.panel.sansGroups := by
  refine atCrown_keeps (fun p => sansGroups_congr ?_) h
  split
  · rfl
  next m p' hm =>
    have hp := sansMessages_nextMsg hm
    dsimp only
    split_ifs <;> simp [hp]

theorem groupFence_sansGroups {c : Crown} (h : execGroupFence c s = .next t) : t.panel.sansGroups = s.panel.sansGroups :=
  atCrown_keeps (fun p => sansGroups_onControl (fun _ _ _ => sansGroups_congr (sansMessages_setMembFld ..)) p c 1) h

theorem groupUnfence_sansGroups {c : Crown} (h : execGroupUnfence c s = .next t) :
    t.panel.sansGroups = s.panel.sansGroups :=
  atCrown_keeps (fun p => sansGroups_onControl (fun _ _ _ => sansGroups_congr (by simp)) p c 2) h

theorem groupExpel_sansGroups {c : Crown} (h : execGroupExpel c s = .next t) : t.panel.sansGroups = s.panel.sansGroups :=
  atCrown_keeps (fun p => sansGroups_onControl (fun _ _ _ => sansGroups_congr (sansMessages_blockDevice ..)) p c 3) h

theorem groupTakeover_sansGroups {c : Crown} (h : execGroupTakeover c s = .next t) :
    t.panel.sansGroups = s.panel.sansGroups := by
  refine atCrown_keeps (fun p => sansGroups_onControl (fun i dev p => sansGroups_congr ?_) p c 5) h
  refine (foldl_keeps (fun _ _ => sansMessages_modCrown ..) _ _).trans ?_
  dsimp only
  split_ifs <;> simp only [sansMessages_stepDown, sansMessages_setMembFld] <;>
    exact foldl_keeps (fun p j => by split_ifs <;> simp) _ p

theorem groupMessageResend_sansGroups {c : Crown} (h : execGroupMessageResend c s = .next t) :
    t.panel.sansGroups = s.panel.sansGroups := by
  refine atCrown_keeps (fun p => sansGroups_congr (foldl_keeps (fun p g => ?_) _ p)) h
  split
  · rfl
  · split_ifs <;> simp

theorem groupAdopt_sansGroups {c : Crown} (h : execGroupAdopt c s = .next t) : t.panel.sansGroups = s.panel.sansGroups := by
  refine atCrown_keeps (fun p => sansGroups_onControl (fun i dev p => ?_) p c 4) h
  dsimp only
  split_ifs
  · refine (sansGroups_adoption ..).trans (sansGroups_congr ?_)
    split <;> simp
  · refine sansGroups_congr ?_
    split <;> simp
  · refine sansGroups_congr ?_
    split <;> simp

theorem managerTakeover_sansGroups {c : Crown} (h : execManagerTakeover c s = .next t) :
    t.panel.sansGroups = s.panel.sansGroups := by
  refine atCrown_keeps (fun p => sansGroups_congr ?_) h
  dsimp only
  split
  · split_ifs
    · rfl
    · split <;> simp
  · rfl

end

theorem groups_frame {s t : State} {c : Instr} (hc : Frame.groups c = true) (h : exec c s = .next t) :
    t.panel.sansGroups = s.panel.sansGroups := by
  unfold Frame.groups at hc
  split at hc
  · exact beacon_sansGroups h
  · exact seenMaskReceive_sansGroups h
  · exact groupFence_sansGroups h
  · exact groupUnfence_sansGroups h
  · exact groupExpel_sansGroups h
  · exact groupTakeover_sansGroups h
  · exact groupMessageResend_sansGroups h
  · exact groupAdopt_sansGroups h
  · exact managerTakeover_sansGroups h
  · exact absurd hc Bool.false_ne_true

/-! ### Reports and forecasts (R276, R281, R282, R337–R339) -/

section
variable {s t : State}

theorem mirrorAck_sansReports {c : Crown} {handle : W32} (h : execMirrorAck c handle s = .next t) :
    t.panel.sansReports = s.panel.sansReports := by
  refine atCrown_keeps (fun p => sansReports_congr ?_) h
  split
  · rfl
  · split_ifs
    · rfl
    · split
      · simp
      · exact (foldl_keeps (fun _ _ => sansMessages_deliver ..) _ _).trans (sansMessages_modCrown ..)

theorem tokenRecordMessage_sansReports {c : Crown} (h : execTokenRecordMessage c s = .next t) :
    t.panel.sansReports = s.panel.sansReports := by
  refine atCrown_keeps (fun p => sansReports_congr ?_) h
  split
  · rfl
  next m p' hm =>
    have hp := sansMessages_nextMsg hm
    dsimp only
    split_ifs <;> simp [hp]

theorem fabricRecordResend_sansReports {c : Crown} {queue : Fin 4096} (h : execFabricRecordResend c queue s = .next t) :
    t.panel.sansReports = s.panel.sansReports := by
  refine atCrown_keeps (fun p => sansReports_congr (foldl_keeps (fun p g => ?_) _ p)) h
  split
  · rfl
  · split_ifs <;> simp

theorem stepReport_sansReports {c : Crown} (h : execStepReport c s = .next t) :
    t.panel.sansReports = s.panel.sansReports := by
  refine atCrown_keeps (fun p => sansReports_congr ?_) h
  split
  · rfl
  next m p' hm =>
    have hp := sansMessages_nextMsg hm
    dsimp only
    split <;> simp [hp]

theorem stepCommand_sansReports {c : Crown} (h : execStepCommand c s = .next t) :
    t.panel.sansReports = s.panel.sansReports := by
  refine atCrown_keeps (fun p => sansReports_congr ?_) h
  split
  · rfl
  next m p' hm =>
    have hp : p'.sansMessages = p.sansMessages := by
      split_ifs at hm
      exact sansMessages_nextMsg hm
    dsimp only
    split
    · split <;> simp [hp]
    · split <;> simp [hp]

theorem forecastPost_sansReports {c : Crown} (h : execForecastPost c s = .next t) :
    t.panel.sansReports = s.panel.sansReports := by
  refine atCrown_keeps (fun p => ?_) h
  dsimp only
  split_ifs
  · rfl
  · refine (sansReports_models ..).trans (foldl_keeps (fun p x => ?_) _ p)
    rfl

end

theorem reports_frame {s t : State} {c : Instr} (hc : Frame.reports c = true) (h : exec c s = .next t) :
    t.panel.sansReports = s.panel.sansReports := by
  unfold Frame.reports at hc
  split at hc
  · exact mirrorAck_sansReports h
  · exact tokenRecordMessage_sansReports h
  · exact fabricRecordResend_sansReports h
  · exact stepReport_sansReports h
  · exact stepCommand_sansReports h
  · exact forecastPost_sansReports h
  · exact absurd hc Bool.false_ne_true

/-- Settles O50: a command of each family keeps the part of the panel that its family may not change. -/
theorem groupAndAgentFrame : Obligations.GroupAndAgentFrame := fun _ _ _ h =>
  ⟨fun hc => frame_of_sansLinks (links_frame hc h), fun hc => frame_of_sansGroups (groups_frame hc h),
    fun hc => frame_of_sansAgents (agents_frame hc h), fun hc => frame_of_sansReports (reports_frame hc h)⟩

end Sys2Proof.Machine
end

section
/-! PROOFS. The task words that act within the core (R67–R78, R81): semaphore operations, what each word leaves of registers,
semaphores, inbox and task, and loops; from these the obligations O5, O6, O7, O39, O40 and O58. -/

namespace Sys2Proof.Machine

/-! ### The ALU (R72) -/

/-- Settles O39: each function is the operation on bit vectors of its code. -/
theorem aluFunctions : Obligations.AluFunctions := by
  intro a b
  refine ⟨BitVec.toNat_add a b, ?_, BitVec.toNat_and a b, BitVec.toNat_or a b, BitVec.toNat_xor a b, ?_, ?_, ?_, ?_, ?_,
    BitVec.toNat_mul a b⟩
  · change ((a - b).toNat + b.toNat) % 2 ^ 64 = a.toNat
    bv_omega
  · change (a <<< (b.toNat % 64)).toNat = _
    rw [BitVec.toNat_shiftLeft, Nat.shiftLeft_eq]
  · change (a >>> (b.toNat % 64)).toNat = _
    rw [BitVec.toNat_ushiftRight, Nat.shiftRight_eq_div_pow]
  · change (a.sshiftRight (b.toNat % 64)).toInt = _
    rw [BitVec.toInt_sshiftRight, Int.shiftRight_eq_div_pow]
    norm_cast
  · change (if a.toNat ≤ b.toNat then a else b).toNat = _
    split_ifs <;> omega
  · change (if a.toNat ≤ b.toNat then b else a).toNat = _
    split_ifs <;> omega

/-! ### Semaphores (R77) -/

@[simp] theorem Core.regs_setSem (k : Core) (i v : Nat) : (k.setSem i v).regs = k.regs := rfl
@[simp] theorem Core.rd_setSem (k : Core) (i v off : Nat) : (k.setSem i v).rd off = k.rd off := rfl

theorem Core.sem_semOp_add (k : Core) (i v : Nat) : (k.semOp i 0 v).sem i = min cntTop (k.sem i + v) := by
  simp only [Core.semOp]
  split_ifs with h
  · rw [Core.sem_semSat, Core.sem_setSem, min_eq_left (by omega)]; rfl
  · have : cntTop = 2 ^ 32 - 1 := rfl
    rw [Core.sem_setSem, min_eq_right (by omega), Nat.mod_eq_of_lt (by omega)]

theorem Core.sem_semOp_set (k : Core) (i : Nat) {v : Nat} (hv : v < 2 ^ 32) : (k.semOp i 1 v).sem i = v := by
  rw [Core.semOp, Core.sem_setSem, Nat.mod_eq_of_lt hv]

theorem Core.sem_semOp_sub (k : Core) (i v : Nat) : (k.semOp i 2 v).sem i = k.sem i - v := by
  have hlt := k.sem_lt i
  simp only [Core.semOp]
  split_ifs with h
  · rw [Core.sem_semSat, Core.sem_setSem]; omega
  · rw [Core.sem_setSem, Nat.mod_eq_of_lt (by omega)]

/-- A semaphore operation writes one semaphore, and notes its saturation or leaves the registers. -/
theorem Core.semOp_cases (k : Core) (i mode v : Nat) :
    (∃ x, k.semOp i mode v = (k.setSem i x).semSat i) ∨ ∃ x, k.semOp i mode v = k.setSem i x := by
  unfold Core.semOp
  dsimp only
  split
  · split_ifs
    · exact .inl ⟨_, rfl⟩
    · exact .inr ⟨_, rfl⟩
  · exact .inr ⟨_, rfl⟩
  · split_ifs
    · exact .inl ⟨_, rfl⟩
    · exact .inr ⟨_, rfl⟩

theorem Core.sem_semOp_other (k : Core) {i j : Nat} (mode v : Nat) (h : j ≠ i) : (k.semOp i mode v).sem j = k.sem j := by
  obtain ⟨x, hx⟩ | ⟨x, hx⟩ := k.semOp_cases i mode v
  · rw [hx, Core.sem_semSat, Core.sem_setSem_other _ _ h]
  · rw [hx, Core.sem_setSem_other _ _ h]

/-- An operation saturates: an add past all ones, or a subtract below zero (R77). -/
def Core.saturates (k : Core) (i mode v : Nat) : Prop := (mode = 0 ∧ cntTop < k.sem i + v) ∨ (mode = 2 ∧ k.sem i < v)

theorem Core.semOp_saturates {k : Core} {i mode v : Nat} (h : k.saturates i mode v) :
    ∃ x, k.semOp i mode v = (k.setSem i x).semSat i := by
  obtain ⟨rfl, h⟩ | ⟨rfl, h⟩ := h
  · exact ⟨cntTop, by simp only [Core.semOp, gt_iff_lt, if_pos h]⟩
  · exact ⟨0, by simp only [Core.semOp, if_pos h]⟩

theorem Core.semOp_regs {k : Core} {i mode v : Nat} (hs : ¬ k.saturates i mode v) (hm : mode ≤ 2) :
    (k.semOp i mode v).regs = k.regs := by
  simp only [Core.saturates, not_or, not_and] at hs
  interval_cases mode
  · simp only [Core.semOp, gt_iff_lt, if_neg (hs.1 rfl), Core.regs_setSem]
  · rfl
  · simp only [Core.semOp, if_neg (hs.2 rfl), Core.regs_setSem]

/-- A saturation sets the semaphore's bit of SEQ_SEM_SAT. -/
theorem Core.semSat_bit (k : Core) (i : Nat) :
    ((k.semSat i).rd (Reg.SEQ_SEM_SAT + 4 * (i / 32))).testBit (i % 32) = true := by
  have hoff : Reg.SEQ_SEM_SAT + 4 * (i / 32) ≠ Reg.SEQ_SEM_SAT_CNT := by
    simp only [Reg.SEQ_SEM_SAT, Reg.SEQ_SEM_SAT_CNT]; omega
  have hbit : i % 32 < 64 := by omega
  rw [Core.semSat, Core.rd_bump_other _ _ hoff, Core.rd_wr_same, Nat.testBit_mod_two_pow]
  simp [hbit]

theorem Core.semSat_count (k : Core) (i : Nat) :
    (k.semSat i).rd Reg.SEQ_SEM_SAT_CNT = min cntTop (k.rd Reg.SEQ_SEM_SAT_CNT + 1) := by
  have hoff : Reg.SEQ_SEM_SAT_CNT ≠ Reg.SEQ_SEM_SAT + 4 * (i / 32) := by
    simp only [Reg.SEQ_SEM_SAT, Reg.SEQ_SEM_SAT_CNT]; omega
  rw [Core.semSat, Core.rd_bump_same, Core.rd_wr_other _ _ hoff]

/-- Settles O40: the value by the operation's mode, the record by whether it saturates. -/
theorem semaphoresSaturate : Obligations.SemaphoresSaturate := by
  intro k i v _ hv
  refine ⟨k.sem_semOp_add i v, k.sem_semOp_set i hv, k.sem_semOp_sub i v, fun j mode h => k.sem_semOp_other mode v h,
    fun mode h => ?_, fun mode h hm => Core.semOp_regs h hm⟩
  obtain ⟨x, hx⟩ := Core.semOp_saturates h
  rw [hx]
  exact ⟨Core.semSat_bit _ i, (Core.semSat_count _ i).trans rfl⟩

/-! ### Registers (R67) -/

@[simp] theorem Core.g_setSem (k : Core) (i v j : Nat) : (k.setSem i v).g j = k.g j := rfl
@[simp] theorem Core.g_semSat (k : Core) (i j : Nat) : (k.semSat i).g j = k.g j := rfl
@[simp] theorem Core.g_semOp (k : Core) (i mode v j : Nat) : (k.semOp i mode v).g j = k.g j := by
  obtain ⟨x, hx⟩ | ⟨x, hx⟩ := k.semOp_cases i mode v <;> rw [hx] <;> rfl

/-- A run of registers written from `first` on. -/
def Core.setGs (k : Core) (first count : Nat) (v : Nat → W64) : Core :=
  (List.range count).foldl (fun k i => k.setG (first + i) (v i)) k

theorem Core.setGs_succ (k : Core) (first count : Nat) (v : Nat → W64) :
    k.setGs first (count + 1) v = (k.setGs first count v).setG (first + count) (v count) := by
  simp [Core.setGs, List.range_succ]

theorem Core.g_setGs_inside (k : Core) {first count i : Nat} (v : Nat → W64) (hi : i < count) (h0 : first + i ≠ 0) :
    (k.setGs first count v).g (first + i) = v i := by
  induction count with
  | zero => omega
  | succ c ih =>
    rw [Core.setGs_succ]
    by_cases hic : i = c
    · rw [hic, Core.g_setG_same, if_neg (hic ▸ h0)]
    · rw [Core.g_setG_other _ _ (by omega), ih (by omega)]

theorem Core.g_setGs_outside (k : Core) {first count j : Nat} (v : Nat → W64) (hj : j < first ∨ first + count ≤ j) :
    (k.setGs first count v).g j = k.g j := by
  induction count with
  | zero => rfl
  | succ c ih => rw [Core.setGs_succ, Core.g_setG_other _ _ (by omega), ih (by omega)]

@[simp] theorem Core.inbox_setGs (k : Core) (first count : Nat) (v : Nat → W64) :
    (k.setGs first count v).seq.inbox = k.seq.inbox := by
  induction count with
  | zero => rfl
  | succ c ih => rw [Core.setGs_succ, Core.inbox_setG, ih]

/-! ### The register words (R67, R72) -/

section
variable (s : State) (n : Site) (k : Task) (w : TaskWord) (hl : s.panel.live = true) (hc : (s.panel.core n).clocked = true)
include hl hc

/-- A word that writes one register and goes on leaves the value there, and g0 zero. -/
theorem word_setG_completes {op : Nat} (hr : (s.panel.core n).ready op = some (k, w)) (hm : k.midBody = true)
    {i : Instr} {gd : Nat} {v : W64} {f : Task → TaskWord → Core → Core} (hi : exec i s = s.word n op f)
    (hf : f k w (s.panel.core n) = ((s.panel.core n).setG gd v).advance k) :
    ∃ t, exec i s = .next t ∧ (t.panel.core n).seq.task = some { k with pc := k.pc + 1, waitFrom := none } ∧
      (t.panel.core n).g gd = (if gd = 0 then 0 else v) ∧ ∀ j, j ≠ gd → (t.panel.core n).g j = (s.panel.core n).g j := by
  refine ⟨_, hi.trans (word_ready hl hc hr f), ?_⟩
  simp only [Panel.core_setCore, hf, Core.advance_midBody hm, Core.task_setTask, Core.g_setTask, Core.g_setG_same, true_and]
  exact fun j hj => Core.g_setG_other _ _ hj

theorem nop_completes (hr : (s.panel.core n).ready Tw.nop = some (k, w)) (hm : k.midBody = true) :
    ∃ t, exec (.nop n) s = .next t ∧ (t.panel.core n).seq.task = some { k with pc := k.pc + 1, waitFrom := none } :=
  ⟨_, word_ready hl hc hr _, by rw [Panel.core_setCore, Core.advance_midBody hm, Core.task_setTask]⟩

theorem fence_completes (hr : (s.panel.core n).ready Tw.fence = some (k, w)) (hm : k.midBody = true)
    (hf : w.f 111 111 = 0 ∨ (s.panel.core n).remoteIdle = true) :
    ∃ t, exec (.fence n) s = .next t ∧ (t.panel.core n).seq.task = some { k with pc := k.pc + 1, waitFrom := none } := by
  have hgo : ¬ (w.f 111 111 = 1 ∧ ¬ (s.panel.core n).remoteIdle = true) := by
    rintro ⟨h1, h2⟩
    exact hf.elim (fun h => absurd (h.symm.trans h1) (by decide)) h2
  exact ⟨_, word_ready hl hc hr _, by rw [Panel.core_setCore, if_neg hgo, Core.advance_midBody hm, Core.task_setTask]⟩

end

theorem registerWordsComplete : Completion.RegisterWordsComplete :=
  ⟨fun s n k w hl hc hr hm => nop_completes s n k w hl hc hr hm,
    fun s n k w hl hc hr hm hf => fence_completes s n k w hl hc hr hm hf,
    fun s n k w hl hc hr hm => word_setG_completes s n k w hl hc hr hm rfl rfl,
    fun s n k w hl hc hr hm => word_setG_completes s n k w hl hc hr hm rfl rfl,
    fun s n k w hl hc hr hm => word_setG_completes s n k w hl hc hr hm rfl rfl⟩

/-! ### Waits (R78) -/

section
variable (s : State) (n : Site) (k : Task) (w : TaskWord) (hl : s.panel.live = true) (hc : (s.panel.core n).clocked = true)
include hl hc

theorem semWait_completes (hr : (s.panel.core n).ready Tw.semWait = some (k, w)) (hm : k.midBody = true)
    (hth : w.f 97 66 ≤ (s.panel.core n).sem (w.f 111 104)) :
    ∃ t, exec (.semWait n) s = .next t ∧ (t.panel.core n).g (w.f 102 98) = 0 ∧
      (t.panel.core n).seq.task = some { k with pc := k.pc + 1, waitFrom := none } ∧
      (t.panel.core n).sem (w.f 111 104) =
        (s.panel.core n).sem (w.f 111 104) - (if w.f 103 103 = 1 then w.f 97 66 else 0) := by
  refine ⟨_, word_ready hl hc hr _, ?_⟩
  simp only [Panel.core_setCore, if_pos hth, Core.advance_midBody hm, Core.task_setTask, Core.g_setTask, Core.g_setG_same,
    ite_self, Core.sem_setTask, Core.sem_setG, true_and]
  split_ifs
  · exact Core.sem_semOp_sub ..
  · rfl

/-- A word that waited its timeout writes TIMED_OUT and goes on, the semaphores as they were. -/
theorem timedOut_completes {op gd : Nat} (hr : (s.panel.core n).ready op = some (k, w)) (hm : k.midBody = true) {i : Instr}
    {f : Task → TaskWord → Core → Core} (hi : exec i s = s.word n op f)
    (hf : f k w (s.panel.core n) = ((s.panel.core n).setG gd (BitVec.ofNat 64 St.timedOut)).advance k) :
    ∃ t, exec i s = .next t ∧ (t.panel.core n).g gd = (if gd = 0 then 0 else BitVec.ofNat 64 St.timedOut) ∧
      (t.panel.core n).seq.task = some { k with pc := k.pc + 1, waitFrom := none } ∧
      (t.panel.core n).seq.sem = (s.panel.core n).seq.sem := by
  refine ⟨_, hi.trans (word_ready hl hc hr f), ?_⟩
  simp only [Panel.core_setCore, hf, Core.advance_midBody hm, Core.task_setTask, Core.g_setTask, Core.g_setG_same, true_and]
  exact Core.semaphores_setG ..

end

theorem waitOver_of_le {k : Task} {units dial t0 : Nat} (hw : k.waitFrom = some t0) (hu : units ≠ 0)
    (hd : t0 + 256 * units ≤ dial) : waitOver k units dial = true := by simp [waitOver, hw, hu, hd]

/-! ### Messages received (R78, R81) -/

/-- The core as RECV leaves it before gd is written: the message gone from the inbox, its payload in the registers. -/
def Core.payloadTaken (k : Core) (w : TaskWord) (m : InboxMsg) (ms : List InboxMsg) : Core :=
  ({ k with seq := { k.seq with inbox := ms } } : Core).setGs (w.f 111 107) (w.f 106 103) fun i =>
    BitVec.ofNat 64 (leAt m.payload (8 * i) 8)

theorem Core.inbox_payloadTaken (k : Core) (w : TaskWord) (m : InboxMsg) (ms : List InboxMsg) :
    (k.payloadTaken w m ms).seq.inbox = ms := Core.inbox_setGs ..

theorem exec_recv {s : State} {n : Site} {k : Task} {w : TaskWord} {m : InboxMsg} {ms : List InboxMsg}
    (hl : s.panel.live = true) (hc : (s.panel.core n).clocked = true) (hr : (s.panel.core n).ready Tw.recv = some (k, w))
    (hin : (s.panel.core n).seq.inbox = m :: ms) :
    exec (.recv n) s = .next { s with
      panel := s.panel.setCore n ((((s.panel.core n).payloadTaken w m ms).setG (w.f 102 98)
        (BitVec.ofNat 64 (recvHead m))).advance k) } := by
  refine (word_ready hl hc hr _).trans ?_
  simp only [hin]
  rfl

section
variable (s : State) (n : Site) (k : Task) (w : TaskWord) (m : InboxMsg) (ms : List InboxMsg) (hl : s.panel.live = true)
  (hc : (s.panel.core n).clocked = true) (hr : (s.panel.core n).ready Tw.recv = some (k, w)) (hm : k.midBody = true)
  (hin : (s.panel.core n).seq.inbox = m :: ms)
include hl hc hr hm hin

/-- RECV: the oldest message leaves the inbox, its payload fills the registers from gfirst on, and gd is written last. -/
theorem recv_completes :
    ∃ t, exec (.recv n) s = .next t ∧ (t.panel.core n).seq.inbox = ms ∧
      (t.panel.core n).seq.task = some { k with pc := k.pc + 1, waitFrom := none } ∧
      (w.f 102 98 ≠ 0 → (t.panel.core n).g (w.f 102 98) = BitVec.ofNat 64 (recvHead m)) ∧
      (∀ i, i < w.f 106 103 → w.f 111 107 + i ≠ 0 → w.f 111 107 + i ≠ w.f 102 98 →
        (t.panel.core n).g (w.f 111 107 + i) = BitVec.ofNat 64 (leAt m.payload (8 * i) 8)) ∧
      ∀ j, j < w.f 111 107 ∨ w.f 111 107 + w.f 106 103 ≤ j → j ≠ w.f 102 98 →
        (t.panel.core n).g j = (s.panel.core n).g j := by
  refine ⟨_, exec_recv hl hc hr hin, ?_⟩
  simp only [Panel.core_setCore, Core.advance_midBody hm, Core.inbox_setTask, Core.inbox_setG, Core.task_setTask,
    Core.g_setTask]
  refine ⟨Core.inbox_payloadTaken .., trivial, fun hgd => ?_, fun i hi h0 hgd => ?_, fun j hj hgd => ?_⟩
  · rw [Core.g_setG_same, if_neg hgd]
  · rw [Core.g_setG_other _ _ hgd, Core.payloadTaken, Core.g_setGs_inside _ _ hi h0]
  · rw [Core.g_setG_other _ _ hgd, Core.payloadTaken, Core.g_setGs_outside _ _ hj]; rfl

end

theorem waitsComplete : Completion.WaitsComplete := by
  refine ⟨semWait_completes, fun s n k w t0 hl hc hr hm hlt hw hu hd => ?_, fun s n k w m ms hl hc hr hm hin hgd => ?_,
    fun s n k w t0 hl hc hr hm hin hw hu hd => ?_⟩
  · refine timedOut_completes s n k w hl hc hr hm rfl (if_pos ⟨not_le.2 hlt, waitOver_of_le hw hu hd⟩)
  · obtain ⟨t, ht, hbox, htask, hhead, hregs, -⟩ := recv_completes s n k w m ms hl hc hr hm hin
    exact ⟨t, ht, hbox, htask, hhead hgd, hregs⟩
  · obtain ⟨t, ht, hg, htask, -⟩ := timedOut_completes s n k w (gd := w.f 102 98) hl hc hr hm (i := .recvTimeout n) rfl
      (if_pos ⟨by rw [hin]; rfl, waitOver_of_le hw hu hd⟩)
    exact ⟨t, ht, hg, htask⟩

/-! What gd shows of a message: the status in its low byte, the length in the next (R78). -/

theorem recvHead_status (m : InboxMsg) : (BitVec.ofNat 64 (recvHead m)).toNat % 256 = St.done := by
  rw [BitVec.toNat_ofNat, recvHead, St.done]; omega

theorem recvHead_length {m : InboxMsg} (h : m.payload.length < 256) :
    (BitVec.ofNat 64 (recvHead m)).toNat / 256 % 256 = m.payload.length := by
  rw [BitVec.toNat_ofNat, recvHead, St.done]; omega

/-- A word past the payload's end reads as zero. -/
theorem leAt_past {bs : List Byte} {i n : Nat} (h : bs.length ≤ i) : leAt bs i n = 0 := by
  rw [leAt, List.drop_eq_nil_of_le h, List.take_nil, leNat]

/-- Settles O58: the payload's words by their place in the run of registers, gd by what it shows of the message. -/
theorem recvTakesTheOldestMessage : Obligations.RecvTakesTheOldestMessage := by
  intro s n k w m ms hl hc hr hm hin hlen
  obtain ⟨t, ht, hbox, -, hhead, hregs, hrest⟩ := recv_completes s n k w m ms hl hc hr hm hin
  refine ⟨t, ht, hbox, fun i hi h0 hgd => ?_, hrest, fun hgd => ?_⟩
  · rw [hregs i hi h0 hgd]
    split_ifs with hin
    · rfl
    · rw [leAt_past (not_lt.1 hin)]; rfl
  · rw [hhead hgd]
    exact ⟨recvHead_status m, recvHead_length hlen⟩

/-! ### Work queued (R73, R75) -/

@[simp] theorem Core.eng_setTask (k : Core) (t : Task) (i : Nat) : (k.setTask t).eng i = k.eng i := rfl
@[simp] theorem Core.ch_setTask (k : Core) (t : Task) (i : Nat) : (k.setTask t).ch i = k.ch i := rfl
@[simp] theorem Core.ve_setTask (k : Core) (t : Task) : (k.setTask t).ve = k.ve := rfl
@[simp] theorem Core.ru_setTask (k : Core) (t : Task) : (k.setTask t).ru = k.ru := rfl
@[simp] theorem Core.eng_setEng (k : Core) (i : Nat) (e : MatEng) : (k.setEng i e).eng i = e := look_put_same ..
@[simp] theorem Core.ch_setCh (k : Core) (i : Nat) (c : DmaCh) : (k.setCh i c).ch i = c := look_put_same ..

theorem Core.enqueue_me (k : Core) {unit : Nat} (q : QOp) (h : unit < 4) :
    ((k.enqueue unit q).eng unit).queue = (k.eng unit).queue ++ [q] := by
  simp [Core.enqueue, h]

theorem Core.enqueue_ve (k : Core) (q : QOp) : (k.enqueue 4 q).ve.queue = k.ve.queue ++ [q] := rfl
theorem Core.enqueue_ru (k : Core) (q : QOp) : (k.enqueue 5 q).ru.queue = k.ru.queue ++ [q] := rfl

theorem dispatchCompletes : Completion.DispatchCompletes := by
  refine ⟨fun s n k w hl hc hr hm hroom => ⟨_, word_ready hl hc hr _, ?_⟩,
    fun s n k w hl hc hr hm hroom => ⟨_, word_ready hl hc hr _, ?_⟩⟩
  · simp only [Panel.core_setCore, if_pos hroom, Core.advance_midBody hm, Core.task_setTask, Core.eng_setTask,
      Core.ve_setTask, Core.ru_setTask, true_and]
    refine ⟨Core.enqueue_me _ _, fun h => ?_, fun h => ?_⟩
    · rw [h]; exact Core.enqueue_ve ..
    · rw [h]; exact Core.enqueue_ru ..
  · simp only [Panel.core_setCore, if_pos hroom, Core.advance_midBody hm, Core.task_setTask, Core.ch_setTask, Core.ch_setCh,
      true_and]

/-- Settles O5: each word queues its work, or waits until its condition or its timeout holds. -/
theorem dispatchAndWaits : Obligations.DispatchAndWaits := ⟨dispatchCompletes, waitsComplete⟩

/-! ### Loops (R74) -/

/-- More loops may end together than there are loops: the bound does not matter. -/
theorem loopStep_bound {m : Nat} {ls : List LoopRec} (h : ls.length ≤ m) (pc : Nat) :
    loopStep (m + 2) ls pc = loopStep (m + 1) ls pc := by
  induction m generalizing ls with
  | zero => rw [List.length_eq_zero_iff.1 (Nat.le_zero.1 h)]; rfl
  | succ m ih =>
    cases ls with
    | nil => rfl
    | cons l ls =>
      simp only [loopStep]
      split_ifs
      · rfl
      · rfl
      · exact ih (Nat.le_of_succ_le_succ h)

/-- The last word of a body with iterations left goes back to the body's first word. -/
theorem Core.advance_back (k : Core) {t : Task} {l : LoopRec} {ls : List LoopRec} (hls : t.loops = l :: ls)
    (hlast : l.last = t.pc) (hmore : l.index + 1 < l.count) :
    k.advance t = (k.setTask { t with pc := l.first, waitFrom := none, loops := { l with index := l.index + 1 } :: ls }).setG
      l.gi (BitVec.ofNat 64 (l.index + 1)) := by
  simp [Core.advance, loopStep, hls, hlast, hmore]

/-- After the last iteration the loop is gone, and its last word counts for the enclosing loop. -/
theorem Core.advance_loopEnd (k : Core) {t : Task} {l : LoopRec} {ls : List LoopRec} (hls : t.loops = l :: ls)
    (hlast : l.last = t.pc) (hend : l.count ≤ l.index + 1) (hlen : ls.length ≤ 3) :
    k.advance t = k.advance { t with loops := ls } := by
  have hstep : loopStep 5 (l :: ls) t.pc = loopStep 4 ls t.pc := by
    simp [loopStep, hlast, not_lt.2 hend]
  simp only [Core.advance, hls, hstep, ← loopStep_bound hlen]

theorem loopGoesBack : Completion.LoopGoesBack := by
  intro k t l ls hls hlast
  refine ⟨fun hmore => ?_, fun hend hlen => Core.advance_loopEnd k hls hlast hend hlen⟩
  rw [Core.advance_back k hls hlast hmore]
  refine ⟨by rw [Core.task_setG, Core.task_setTask], fun hgi => ?_, fun i hi => ?_⟩
  · rw [Core.g_setG_same, if_neg hgi]
  · rw [Core.g_setG_other _ _ hi, Core.g_setTask]

/-! ### Control words (R74) -/

section
variable (s : State) (n : Site) (k : Task) (w : TaskWord) (hl : s.panel.live = true) (hc : (s.panel.core n).clocked = true)
include hl hc

theorem loop_skipped (hr : (s.panel.core n).ready Tw.loop = some (k, w)) (h0 : (s.panel.core n).loopCount w = 0)
    (hm : ({ k with pc := k.pc + w.f 104 95 } : Task).midBody = true) :
    ∃ t, exec (.loop n) s = .next t ∧
      (t.panel.core n).seq.task = some { k with pc := k.pc + w.f 104 95 + 1, waitFrom := none } :=
  ⟨_, word_ready hl hc hr _, by simp only [Panel.core_setCore, if_pos h0, Core.advance_midBody hm, Core.task_setTask]⟩

theorem loop_begins (hr : (s.panel.core n).ready Tw.loop = some (k, w)) (h0 : (s.panel.core n).loopCount w ≠ 0) :
    ∃ t, exec (.loop n) s = .next t ∧ (t.panel.core n).g (w.f 62 58) = 0 ∧
      (t.panel.core n).seq.task = some { k with
        pc := k.pc + 1, waitFrom := none
        loops := { first := k.pc + 1, last := k.pc + w.f 104 95,
                   count := (s.panel.core n).loopCount w, index := 0, gi := w.f 62 58 } :: k.loops } := by
  refine ⟨_, word_ready hl hc hr _, ?_⟩
  simp only [Panel.core_setCore, if_neg h0, Core.g_setG_same, ite_self, Core.task_setG, Core.task_setTask, true_and]

/-- A taken branch: of the loops, those whose body holds the target stay from the first one outwards. -/
theorem br_taken (hr : (s.panel.core n).ready Tw.br = some (k, w))
    (hb : brCond (w.f 101 99) ((s.panel.core n).g (w.f 111 107)) ((s.panel.core n).g (w.f 106 102)) = true) :
    ∃ t, exec (.br n) s = .next t ∧ ∃ k', (t.panel.core n).seq.task = some k' ∧ k'.pc = w.f 98 89 ∧
      (∀ l ls, k'.loops = l :: ls → l.first ≤ w.f 98 89 ∧ w.f 98 89 ≤ l.last) ∧ k'.loops <:+ k.loops := by
  refine ⟨_, word_ready hl hc hr _, ?_⟩
  simp only [Panel.core_setCore, if_pos hb, Core.task_setTask]
  refine ⟨_, rfl, rfl, fun l ls hls => ?_, List.dropWhile_suffix _⟩
  replace hls : k.loops.dropWhile (fun l => decide (w.f 98 89 < l.first) || decide (l.last < w.f 98 89)) = l :: ls := hls
  have hkeep := List.head?_dropWhile_not (fun l : LoopRec => decide (w.f 98 89 < l.first) || decide (l.last < w.f 98 89)) k.loops
  rw [hls] at hkeep
  simpa using hkeep

theorem br_falls (hr : (s.panel.core n).ready Tw.br = some (k, w)) (hm : k.midBody = true)
    (hb : ¬ brCond (w.f 101 99) ((s.panel.core n).g (w.f 111 107)) ((s.panel.core n).g (w.f 106 102)) = true) :
    ∃ t, exec (.br n) s = .next t ∧ (t.panel.core n).seq.task = some { k with pc := k.pc + 1, waitFrom := none } :=
  ⟨_, word_ready hl hc hr _, by simp only [Panel.core_setCore, if_neg hb, Core.advance_midBody hm, Core.task_setTask]⟩

end

theorem controlWordsComplete : Completion.ControlWordsComplete := ⟨loop_skipped, loop_begins, br_taken, br_falls⟩

/-- Settles O7: a loop's back-edge and end by the steps of `loopStep`, LOOP and BR by their condition. -/
theorem loopsAndBranches : Obligations.LoopsAndBranches := ⟨loopGoesBack, controlWordsComplete⟩

/-! ### Words that send over the mesh (R68, R80, R82) -/

@[simp] theorem Core.remote_setG (k : Core) (i : Nat) (v : W64) : (k.setG i v).seq.remote = k.seq.remote := by
  unfold Core.setG; split <;> rfl

/-- Going on to the next word leaves the remote operations as they are. -/
@[simp] theorem Core.remote_advance (k : Core) (t : Task) : (k.advance t).seq.remote = k.seq.remote := by
  have hfold : ∀ (wr : List (Nat × Nat)) (k : Core),
      (wr.foldl (fun k x => k.setG x.1 (BitVec.ofNat 64 x.2)) k).seq.remote = k.seq.remote := by
    intro wr
    induction wr with
    | nil => exact fun _ => rfl
    | cons x wr ih => exact fun k => (ih _).trans (Core.remote_setG ..)
  exact hfold _ _

/-- A remote operation that the router takes awaits its COMPLETION under the number it was sent with. -/
theorem sendRemote_sent {p q : Panel} {n : Nat} {t : Task} {h : Header} {units : List Codeword} {i : Nat}
    (hroom : (p.core n).seq.remote.length < 64)
    (hinj : p.inject (.core n) { h with seq := (p.core n).freshSeq } units = (.sent i, q)) :
    ((p.sendRemote n t h units).core n).seq.remote = (q.core n).seq.remote ++ [{ seq := (p.core n).freshSeq }] := by
  simp only [Panel.sendRemote, ge_iff_le, if_neg (not_le.2 hroom), hinj, Panel.core_modCore, Core.remote_advance]

theorem length_leBytes (n v : Nat) : (leBytes n v).length = n := by
  induction n generalizing v with
  | zero => rfl
  | succ n ih => rw [leBytes, List.length_cons, ih]

theorem length_gBytes (k : Core) (first count : Nat) : (k.gBytes first count).length = 8 * count := by
  simp [Core.gBytes, length_leBytes, Nat.mul_comm]

theorem remoteWordsComplete : Completion.RemoteWordsComplete := by
  refine ⟨fun s n k w hl hc hr hm hloc => ?_, fun s n k w i q hl hc hr hrem hroom hinj => ?_,
    fun s n k w i q hl hc hr hroom hinj => ?_⟩
  · change ∃ t, execSemSignal n s = .next t ∧ _
    refine ⟨_, atCore_clocked hl hc _, ?_⟩
    simp only [hr, if_pos hloc, Panel.core_setCore, Core.advance_midBody hm, Core.sem_setTask, Core.task_setTask, and_true]
    exact fun _ => trivial
  · have hnot : ¬ w.f 101 101 = 0 := by omega
    change ∃ t, execSemSignal n s = .next t ∧ _
    refine ⟨_, atCore_clocked hl hc _, ?_⟩
    simp only [hr, if_neg hnot]
    exact sendRemote_sent hroom hinj
  · change ∃ t, execPost n s = .next t ∧ _
    refine ⟨_, atCore_clocked hl hc _, ?_⟩
    simp only [hr, length_gBytes]
    exact sendRemote_sent hroom hinj

/-- Settles O6: a register word is a write and an advance; a remote one is what the router takes. -/
theorem registerAndRemoteWords : Obligations.RegisterAndRemoteWords := ⟨registerWordsComplete, remoteWordsComplete⟩

end Sys2Proof.Machine
end

section
/-! PROOFS. The state after panel reset (R61, R87, R162, R178, R212, R243, R283, R309, R348, R398, R435): a core's registers read their reset
values beside its straps; from this the obligation O53. -/

namespace Sys2Proof.Machine

/-- The registers of a core whose reset value depends on its place: the injection regulators, the straps and the fused maximum. -/
def placedRegs : List Nat :=
  [Reg.MESH_INJ_CFG, Reg.MESH_INJ_CFG + 8, Reg.MESH_INJ_CFG + 12, Reg.CORE_SITE, Reg.CORE_FMAX]

/-- Any other register of a core just reset reads the reset value of its map. -/
theorem rd_blank (f : Fuses) (n : Nat) {off : Nat} (h : off ∉ placedRegs) :
    (Core.blank f n).rd off = (look 0 (coreResets.map fun x => (x.1, BitVec.ofNat 64 x.2)) off).toNat := by
  simp only [placedRegs, List.mem_cons, List.not_mem_nil, or_false, not_or] at h
  obtain ⟨h0, h8, h12, hsite, hfmax⟩ := h
  simp only [Core.rd, rfGet, Core.blank, coreRegs0]
  rw [look_putZ_other _ _ hfmax, look_putZ_other _ _ hsite, look_put_other _ _ _ h12, look_put_other _ _ _ h8,
    look_put_other _ _ _ h0]

/-- Registers of a core with the reset values that R61, R87, R162, R178, R212, R243, R398 and R435 give them. -/
def coreResetValues : List (Nat × Nat) :=
  [(Reg.CORE_STATE, 1), (Reg.CORE_PART, 0), (Reg.SPAD_GRP_PWR, 0xFFFF), (Reg.SPAD_SCRUB_CFG, 0x80000E10),
    (Reg.SPAD_PLAN, 0x76543210), (Reg.SPAD_PLAN_CTL, 0x80000007), (Reg.MESH_RED_CFG, 0x80000064), (Reg.DMA_CFG, 1000),
    (Reg.PWR_GATE_CFG, 1000), (Reg.SEQ_FAULT, 0), (Reg.CLK_CAP, 0xB2C02C)]

theorem rd_blank_resetValue (f : Fuses) (n : Nat) : ∀ x ∈ coreResetValues, (Core.blank f n).rd x.1 = x.2 := by
  have hmap : ∀ x ∈ coreResetValues,
      x.1 ∉ placedRegs ∧ (look 0 (coreResets.map fun x => (x.1, BitVec.ofNat 64 x.2)) x.1).toNat = x.2 := by decide
  exact fun x hx => (rd_blank f n (hmap x hx).1).trans (hmap x hx).2

theorem rd_hub_blank : Hub.blank.rd Reg.HUB_SCRUB_CFG = 0x80001518 ∧ Hub.blank.rd Reg.HUB_BAND = 0 := by decide

theorem rd_port_blank : PortDie.blank.rd Reg.PORT_DEVNUM = 0 ∧ PortDie.blank.rd Reg.PORT_CFG = 0x70004C8 ∧
    ∀ g, g < 64 → PortDie.blank.rd (Reg.PORT_DEVRT + 4 * g) = 0xFFFF := by decide

/-- Settles O53: the reset panel lists no die, so each die reads as a blank one with the registers of its map. -/
theorem resetState : Obligations.ResetState := by
  refine ⟨rfl, rfl, rfl, rfl, by decide, fun n _ => ?_, fun _ _ => rd_hub_blank, fun _ _ => rd_port_blank,
    fun c => by cases c <;> decide, by decide, by decide, rfl⟩
  have hrd := rd_blank_resetValue State.reset.panel.fuses n
  simp only [coreResetValues, List.forall_mem_cons] at hrd
  obtain ⟨hstate, hpart, hgrp, hscrub, hplan, hctl, hred, hdma, hgate, hfault, hcap, -⟩ := hrd
  exact ⟨rfl, rfl, rfl, rfl, rfl, fun i => by unfold Core.g; split_ifs <;> rfl, fun _ => rfl, fun _ => rfl, hstate, hpart,
    hgrp, hscrub, hplan, hctl, hred, hdma, hgate, hfault, hcap⟩

end Sys2Proof.Machine
end

section
/-! PROOFS. Core commands, the start of tasks and their end (R61, R63–R66, R83, R84, R87): what each command leaves in the states
that allow it, what becomes of start entries, and how END, a task fault, ABORT and DRAIN end a task; from these the obligations
O2 and O4. -/

namespace Sys2Proof.Machine

/-! ### What the shared operations leave -/

@[simp] theorem Core.state_goTo (k : Core) (st : CoreState) : (k.goTo st).seq.state = st := rfl
@[simp] theorem Core.task_goTo (k : Core) (st : CoreState) : (k.goTo st).seq.task = k.seq.task := rfl
@[simp] theorem Core.state_setTask (k : Core) (t : Task) : (k.setTask t).seq.state = k.seq.state := rfl

theorem Core.modTask_none {k : Core} (h : k.seq.task = none) (f : Task → Task) : k.modTask f = k := by
  simp [Core.modTask, h]

theorem Core.modTask_some {k : Core} {t : Task} (h : k.seq.task = some t) (f : Task → Task) :
    k.modTask f = k.setTask (f t) := by simp [Core.modTask, h]

/-- The drain of taps takes an operation off a queue and counts it, the sequencer as it was. -/
@[simp] theorem Core.seq_drainTaps (k : Core) : k.drainTaps.seq = k.seq := by
  unfold Core.drainTaps
  split
  · split_ifs <;> rfl
  · split_ifs <;> rfl
  · rfl

/-- Registers that a semaphore operation may not write. -/
theorem Core.seq_semOp (k : Core) (i mode v : Nat) :
    ∃ sem, (k.semOp i mode v).seq = { k.seq with sem := sem } := by
  obtain ⟨x, hx⟩ | ⟨x, hx⟩ := k.semOp_cases i mode v
  · exact ⟨_, by rw [hx]; rfl⟩
  · exact ⟨_, by rw [hx]; rfl⟩

/-! ### Commands that R61 allows -/

/-- A command to a powered site is its value written to CORE_CMD. -/
theorem onSite_cmd {s : State} {n : Site} {code : Nat} {i : Instr} {Q : Core → Prop} (hl : s.panel.live = true)
    (hp : (s.panel.core n).powered = true) (hi : exec i s = s.onSite n fun k => k.cmd code)
    (hq : Q ((s.panel.core n).cmd code)) : ∃ t, exec i s = .next t ∧ Q (t.panel.core n) :=
  ⟨_, hi.trans (onSite_powered hl hp _), by rwa [Panel.core_modCore]⟩

section
variable {k : Core} (ha : k.seq.aborting = false)
include ha

theorem Core.cmd_pause (h : k.seq.state = .run ∨ k.seq.state = .idle) :
    k.cmd 1 = (k.modTask fun t => { t with waitFrom := none }).goTo .paused := by simp [Core.cmd, ha, h]

theorem Core.cmd_resume_paused (h : k.seq.state = .paused) :
    k.cmd 2 = k.goTo (if k.seq.task.isSome then .run else .idle) := by simp [Core.cmd, ha, h]

theorem Core.cmd_resume_test (h : k.seq.state = .test) : k.cmd 2 = k.goTo .idle := by simp [Core.cmd, ha, h]

theorem Core.cmd_abort (h : k.seq.state = .paused) : (k.cmd 3).seq.aborting = true := by simp [Core.cmd, ha, h]

theorem Core.cmd_drain (h : k.seq.state = .run ∨ k.seq.state = .idle ∨ k.seq.state = .paused) :
    (k.cmd 4).seq.state = .draining := by simp [Core.cmd, ha, h]

theorem Core.cmd_test (h : k.seq.state = .idle) : k.cmd 5 = k.goTo .test := by simp [Core.cmd, ha, h]

end

/-- A paused task no longer waits in dial time. -/
theorem Core.waitFrom_paused (k : Core) (t : Task)
    (h : ((k.modTask fun t => { t with waitFrom := none }).goTo .paused).seq.task = some t) : t.waitFrom = none := by
  rw [Core.task_goTo] at h
  cases hk : k.seq.task with
  | none => rw [Core.modTask_none hk, hk] at h; cases h
  | some u => rw [Core.modTask_some hk, Core.task_setTask] at h; cases h; rfl

theorem coreCommandsComplete : Completion.CoreCommandsComplete := by
  intro s n hl hp ha
  refine ⟨fun h => onSite_cmd (code := 1) (Q := fun c => c.seq.state = .paused ∧ ∀ k, c.seq.task = some k → k.waitFrom = none)
      hl hp rfl ?_,
    fun h => onSite_cmd (code := 2) (Q := fun c => c.seq.state = _) hl hp rfl ?_,
    fun h => onSite_cmd (code := 2) (Q := fun c => c.seq.state = _) hl hp rfl ?_,
    fun h => onSite_cmd (code := 3) (Q := fun c => c.seq.aborting = _) hl hp rfl (Core.cmd_abort ha h),
    fun h => onSite_cmd (code := 4) (Q := fun c => c.seq.state = _) hl hp rfl (Core.cmd_drain ha h),
    fun h => onSite_cmd (code := 5) (Q := fun c => c.seq.state = _) hl hp rfl ?_⟩
  · rw [Core.cmd_pause ha h]
    exact ⟨rfl, Core.waitFrom_paused _⟩
  · rw [Core.cmd_resume_paused ha h]; rfl
  · rw [Core.cmd_resume_test ha h]; rfl
  · rw [Core.cmd_test ha h]; rfl

/-! ### Commands that R61 does not allow -/

theorem Core.cmd_ignored {k : Core} {code : Nat} (ha : k.seq.aborting = false)
    (h : (code = 1 ∧ k.seq.state ≠ .run ∧ k.seq.state ≠ .idle) ∨ (code = 2 ∧ k.seq.state ≠ .paused ∧ k.seq.state ≠ .test) ∨
      (code = 3 ∧ k.seq.state ≠ .paused) ∨
      (code = 4 ∧ k.seq.state ≠ .run ∧ k.seq.state ≠ .idle ∧ k.seq.state ≠ .paused) ∨ (code = 5 ∧ k.seq.state ≠ .idle)) :
    k.cmd code = k.bump Reg.CORE_CMD_IGN_CNT := by
  rcases h with ⟨rfl, h1, h2⟩ | ⟨rfl, h1, h2⟩ | ⟨rfl, h1⟩ | ⟨rfl, h1, h2, h3⟩ | ⟨rfl, h1⟩ <;> simp [Core.cmd, *]

theorem coreCommandIgnored : Completion.CoreCommandIgnored := by
  intro k code ha h
  rw [Core.cmd_ignored ha h]
  exact ⟨rfl, Core.rd_bump_same .., fun off hoff => Core.rd_bump_other _ _ hoff⟩

/-! ### ABORT and DRAIN complete (R61) -/

/-- The task and the entries that an ABORT discards. -/
def Core.discards (k : Core) : Nat := k.seq.starts.length + b2n k.seq.task.isSome

theorem Core.discards_ne_zero {k : Core} (h : k.seq.task.isSome = true ∨ k.seq.starts ≠ []) : k.discards ≠ 0 := by
  have hlen : k.seq.starts.length = 0 ↔ k.seq.starts = [] := List.length_eq_zero_iff
  unfold Core.discards b2n
  rcases h with h | h
  · rw [if_pos h]; omega
  · have := mt hlen.1 h
    omega

theorem Core.abortEnd_count {k : Core} (h : k.discards ≠ 0) (dial : Nat) :
    (k.abortEnd dial).rd Reg.SEQ_ABORT_CNT = min cntTop (k.rd Reg.SEQ_ABORT_CNT + k.discards) := by
  simp only [Core.abortEnd, if_neg (show k.seq.starts.length + b2n k.seq.task.isSome ≠ 0 from h)]
  exact Core.rd_bump_same k _ _

theorem abortComplete_completes (s : State) (n : Site) (hl : s.panel.live = true) (hc : (s.panel.core n).clocked = true)
    (ha : (s.panel.core n).seq.aborting = true) (hi : (s.panel.core n).allIdle = true)
    (hd : (s.panel.core n).seq.task.isSome = true ∨ (s.panel.core n).seq.starts ≠ []) :
    ∃ t, exec (.abortComplete n) s = .next t ∧ (t.panel.core n).seq.state = .idle ∧ (t.panel.core n).seq.task = none ∧
      (t.panel.core n).seq.starts = [] ∧ (t.panel.core n).seq.aborting = false ∧
      (t.panel.core n).rd Reg.SEQ_ABORT_CNT =
        min cntTop ((s.panel.core n).rd Reg.SEQ_ABORT_CNT +
          ((s.panel.core n).seq.starts.length + b2n (s.panel.core n).seq.task.isSome)) ∧
      (t.panel.core n).seq.reports = (s.panel.core n).seq.reports := by
  change ∃ t, execAbortComplete n s = .next t ∧ _
  refine ⟨_, atCore_clocked hl hc _, ?_⟩
  simp only [ha, hi, and_self, if_true, Panel.core_setCore]
  refine ⟨rfl, rfl, rfl, rfl, Core.abortEnd_count (Core.discards_ne_zero hd) _, ?_⟩
  simp only [Core.abortEnd]
  split_ifs <;> rfl

/-! An idle core has no tap that waits. -/

theorem Core.fenceOk_unit {k : Core} {mask u : Nat} (h : k.fenceOk mask = true) (hu : u < 10) (hm : mask.testBit u = true) :
    k.unitIdle u = true := by
  have := List.all_eq_true.1 h u (List.mem_range.2 hu)
  simpa [hm] using this

theorem Core.drainTaps_idle {k : Core} (h : k.allIdle = true) : k.drainTaps = k := by
  have hve : k.ve.queue = [] := by
    have := Core.fenceOk_unit (u := 4) h (by decide) (by decide)
    simp only [Core.unitIdle] at this
    simp_all
  have hru : k.ru.queue = [] := by
    have := Core.fenceOk_unit (u := 5) h (by decide) (by decide)
    simp only [Core.unitIdle] at this
    simp_all
  have hv : k.veTap = none := by rw [Core.veTap, hve]
  have hr : k.ruTap = none := by rw [Core.ruTap, hru]
  simp only [Core.drainTaps, hv, hr]

/-- Entries that ask for no report leave the queue one by one, the rest of the sequencer as it was. -/
theorem drainStarts_silent {n : Nat} {es : List StartEntry} (h : ∀ e ∈ es, e.report = false) :
    ∀ p : Panel, (p.core n).seq.starts = es →
      ((Panel.drainStarts n es p).core n).seq = { (p.core n).seq with starts := [] } := by
  induction es with
  | nil => intro p hp; rw [Panel.drainStarts, ← hp]
  | cons e es ih =>
    intro p hp
    obtain ⟨he, hes⟩ := List.forall_mem_cons.1 h
    simp only [Panel.drainStarts, he, Bool.false_eq_true, if_false]
    rw [ih hes _ (by rw [Panel.core_modCore]), Panel.core_modCore]

/-- A drained task that asks for no report and has no fault is gone. -/
theorem drainTask_silent {p : Panel} {n : Nat}
    (h : ∀ k, (p.core n).seq.task = some k → k.entry.report = false ∧ k.unitFault = none)
    (hs : (p.core n).seq.state = .draining) :
    ((p.drainTask n).core n).seq.task = none ∧ ((p.drainTask n).core n).seq.state = .draining ∧
      ((p.drainTask n).core n).seq.starts = (p.core n).seq.starts := by
  cases ht : (p.core n).seq.task with
  | none => simp [Panel.drainTask, ht, hs]
  | some t =>
    obtain ⟨hrep, hfault⟩ := h t ht
    simp only [Panel.drainTask, ht, hrep, hfault, Bool.false_eq_true, Option.isSome_none, or_self, if_false,
      Panel.core_modCore]
    refine ⟨rfl, ?_, rfl⟩
    change (if (p.core n).seq.state = .run then CoreState.idle else (p.core n).seq.state) = .draining
    rw [hs]; rfl

theorem drainComplete_completes (s : State) (n : Site) (hl : s.panel.live = true) (hc : (s.panel.core n).clocked = true)
    (hs : (s.panel.core n).seq.state = .draining) (hi : (s.panel.core n).allIdle = true)
    (hr : (s.panel.core n).remoteIdle = true) (he : ∀ e ∈ (s.panel.core n).seq.starts, e.report = false)
    (ht : ∀ k, (s.panel.core n).seq.task = some k → k.entry.report = false ∧ k.unitFault = none) :
    ∃ t, exec (.drainComplete n) s = .next t ∧ (t.panel.core n).seq.state = .test ∧ (t.panel.core n).seq.task = none ∧
      (t.panel.core n).seq.starts = [] := by
  change ∃ t, execDrainComplete n s = .next t ∧ _
  refine ⟨_, atCore_clocked hl hc _, ?_⟩
  have hcore : (s.panel.modCore n Core.drainTaps).core n = s.panel.core n := by
    rw [Panel.core_modCore, Core.drainTaps_idle hi]
  obtain ⟨htask, hstate, hstarts⟩ := drainTask_silent (p := s.panel.modCore n Core.drainTaps) (n := n)
    (by rwa [hcore]) (by rwa [hcore])
  rw [hcore] at hstarts
  have hdrain := drainStarts_silent (n := n) (p := (s.panel.modCore n Core.drainTaps).drainTask n)
    (by rw [hstarts]; exact he) rfl
  simp only [hs, hcore, hi, hr, and_self, if_true, htask, Option.isSome_none, Bool.false_eq_true, if_false, hdrain,
    List.isEmpty_nil, Panel.core_modCore, Core.state_goTo, Core.task_goTo, true_and]
  exact congrArg Seq.starts hdrain

/-- Settles O2: a command by the state it meets, the ends of ABORT and DRAIN by what an idle core holds. -/
theorem coreCommands : Obligations.CoreCommands :=
  ⟨coreCommandsComplete, coreCommandIgnored, abortComplete_completes, drainComplete_completes⟩

/-! ### Start entries (R63) -/

section
variable {k : Core} {lw part : Nat} {bs : List Byte} {bad : Bool} {src : StartFrom}

/-- A START refused: its status and the count. -/
def Core.startRefused (k : Core) (st : Nat) : Nat × Core := (st, k.bump Reg.SEQ_START_REFUSE_CNT)

/-- Whether R63 takes a START from its sender. -/
def Core.senderOk (k : Core) (part : Nat) : StartFrom → Bool
  | .ring => true
  | .crown => true
  | .core => k.partValid && part == k.part
  | .other => false

theorem Core.takeStart_sender (h : k.senderOk part src = false) :
    k.takeStart lw src part bs bad = k.startRefused St.notPermitted := by
  cases src <;> simp_all [Core.senderOk, Core.takeStart, Core.startRefused]

theorem Core.takeStart_bad (h : k.senderOk part src = true) : k.takeStart lw src part bs true = k.startRefused St.uncorrectable := by
  cases src <;> simp_all [Core.senderOk, Core.takeStart, Core.startRefused]

theorem Core.takeStart_malformed (h : k.senderOk part src = true) (hp : parseStart lw bs = none) :
    k.takeStart lw src part bs false = k.startRefused St.notPermitted := by
  cases src <;> simp_all [Core.senderOk, Core.takeStart, Core.startRefused]

/-- What R63 does with an entry that reads well, from a sender that it takes one from. -/
def Core.entryTaken (k : Core) (e : StartEntry) : Nat × Core :=
  if ¬ (k.partValid ∧ e.part = k.part) then k.startRefused St.notPermitted
  else match k.seq.state with
    | .test => k.startRefused St.drained
    | .draining => k.startRefused St.drained
    | .halted => k.startRefused St.siteRetired
    | _ => if k.seq.starts.length ≥ 8 then k.startRefused St.timedOut
      else (St.done, { k with seq := { k.seq with starts := k.seq.starts ++ [e] } })

theorem Core.takeStart_entry {e : StartEntry} (h : k.senderOk part src = true) (hp : parseStart lw bs = some e) :
    k.takeStart lw src part bs false = k.entryTaken e := by
  cases src
  · simp only [Core.takeStart, hp]; rfl
  · simp only [Core.takeStart, hp]; rfl
  · simp only [Core.takeStart, show (k.partValid && part == k.part) = true from h, hp]; rfl
  · cases h

/-- An entry is queued, or refused with a status and counted. -/
theorem Core.entryTaken_cases (k : Core) (e : StartEntry) :
    (k.entryTaken e).1 = St.done ∨ ∃ st, k.entryTaken e = k.startRefused st := by
  unfold Core.entryTaken
  split
  · exact .inr ⟨_, rfl⟩
  · split
    · exact .inr ⟨_, rfl⟩
    · exact .inr ⟨_, rfl⟩
    · exact .inr ⟨_, rfl⟩
    · split
      · exact .inr ⟨_, rfl⟩
      · exact .inl rfl

theorem Core.takeStart_cases (k : Core) (lw part : Nat) (bs : List Byte) (bad : Bool) (src : StartFrom) :
    (k.takeStart lw src part bs bad).1 = St.done ∨ ∃ st, k.takeStart lw src part bs bad = k.startRefused st := by
  cases hs : k.senderOk part src with
  | false => exact .inr ⟨_, Core.takeStart_sender hs⟩
  | true =>
    cases bad with
    | true => exact .inr ⟨_, Core.takeStart_bad hs⟩
    | false =>
      cases hp : parseStart lw bs with
      | none => exact .inr ⟨_, Core.takeStart_malformed hs hp⟩
      | some e => rw [Core.takeStart_entry hs hp]; exact k.entryTaken_cases e

section
variable {e : StartEntry} (hv : k.partValid = true) (hpart : e.part = k.part)
include hv hpart

theorem Core.entryTaken_drained (h : k.seq.state = .test ∨ k.seq.state = .draining) :
    (k.entryTaken e).1 = St.drained := by
  rcases h with h | h <;> simp [Core.entryTaken, hv, hpart, h, Core.startRefused]

theorem Core.entryTaken_halted (h : k.seq.state = .halted) : (k.entryTaken e).1 = St.siteRetired := by
  simp [Core.entryTaken, hv, hpart, h, Core.startRefused]

theorem Core.entryTaken_full (h : k.seq.state = .idle ∨ k.seq.state = .run ∨ k.seq.state = .paused)
    (hfull : 8 ≤ k.seq.starts.length) : (k.entryTaken e).1 = St.timedOut := by
  rcases h with h | h | h <;> simp [Core.entryTaken, hv, hpart, h, hfull, Core.startRefused]

theorem Core.entryTaken_queued (h : k.seq.state = .idle ∨ k.seq.state = .run ∨ k.seq.state = .paused)
    (hroom : k.seq.starts.length < 8) :
    k.entryTaken e = (St.done, { k with seq := { k.seq with starts := k.seq.starts ++ [e] } }) := by
  rcases h with h | h | h <;> simp [Core.entryTaken, hv, hpart, h, hroom]

end

theorem Core.senderOk_of_firmware (h : src = .ring ∨ src = .crown) : k.senderOk part src = true := by
  rcases h with rfl | rfl <;> rfl

end

theorem startRefused : Completion.StartRefused := by
  intro k lw part bs bad src
  refine ⟨fun hne => ?_, fun h => ?_, fun h hp => ?_, fun h hb => ?_, fun h hb hp => ?_, fun e h hb hp => ?_⟩
  · obtain hdone | ⟨st, hst⟩ := k.takeStart_cases lw part bs bad src
    · exact absurd hdone hne
    · rw [hst]
      exact ⟨rfl, Core.rd_bump_same ..⟩
  · rw [Core.takeStart_sender (by rw [h]; rfl)]; rfl
  · rw [Core.takeStart_sender (by rw [h]; exact hp)]; rfl
  · rw [hb, Core.takeStart_bad (Core.senderOk_of_firmware h)]; rfl
  · rw [hb, Core.takeStart_malformed (Core.senderOk_of_firmware h) hp]; rfl
  · rw [hb, Core.takeStart_entry (Core.senderOk_of_firmware h) hp]
    refine ⟨fun hno => by rw [Core.entryTaken, if_pos hno]; rfl, fun hv hpart => ?_⟩
    exact ⟨Core.entryTaken_drained hv hpart, Core.entryTaken_halted hv hpart, Core.entryTaken_full hv hpart⟩

/-! ### The start of a task (R65) -/

/-- The registers at task start: the arguments in g1 to g8. -/
theorem look_startG (args : List W64) (i : Nat) :
    look 0 (startG args) i = if 1 ≤ i ∧ i ≤ 8 then args.getD (i - 1) 0 else 0 := by
  have hrun : ∀ m, look 0 ((List.range m).foldl (fun g j => putZ g (j + 1) (args.getD j 0)) ([] : Sparse W64)) i =
      if 1 ≤ i ∧ i ≤ m then args.getD (i - 1) 0 else 0 := by
    intro m
    induction m with
    | zero => rw [if_neg (by omega)]; rfl
    | succ m ih =>
      rw [List.range_succ, List.foldl_append, List.foldl_cons, List.foldl_nil]
      by_cases hi : i = m + 1
      · rw [hi, look_putZ_same, if_pos (by omega), Nat.add_sub_cancel]
      · rw [look_putZ_other _ _ hi, ih]
        exact if_congr (by omega) rfl rfl
  exact hrun 8

theorem Core.g_of_startG {k : Core} {args : List W64} (h : k.seq.g = startG args) (i : Nat) :
    k.g i = if 1 ≤ i ∧ i ≤ 8 then args.getD (i - 1) 0 else 0 := by
  unfold Core.g
  rw [h, look_startG]
  split_ifs with h0 h1
  · omega
  · rfl
  · rfl
  · rfl

/-- What the sequencer holds once it has taken an entry. -/
theorem Core.seq_startTask (k : Core) (w : At) (e : StartEntry) (rest : List StartEntry) :
    (k.startTask w e rest).seq.state = .run ∧ (k.startTask w e rest).seq.starts = rest ∧
      (k.startTask w e rest).seq.g = startG e.args ∧
      ((k.startTask w e rest).seq.task.map fun t => (t.entry, t.copying, t.pc)) = some (e, true, 0) :=
  ⟨rfl, rfl, rfl, rfl⟩

theorem taskStart_completes (s : State) (n : Site) (e : StartEntry) (rest : List StartEntry) (hl : s.panel.live = true)
    (hc : (s.panel.core n).clocked = true) (hst : (s.panel.core n).seq.starts = e :: rest)
    (hidle : (s.panel.core n).seq.state = .idle) (hg : (s.panel.core n).seq.gated = false)
    (hr : (s.panel.core n).spad.reshape = none) :
    exec (.taskStart n) s =
      .next { s with panel := s.panel.setCore n ((s.panel.core n).startTask (s.panel.at' n) e rest) } := by
  change execTaskStart n s = _
  simp [execTaskStart, atCore_clocked hl hc, hst, hidle, hg, hr]

theorem start_completes (s : State) (n : Site) (b : BitVec 768) (e : StartEntry) (hl : s.panel.live = true)
    (hc : (s.panel.core n).clocked = true) (hp : parseStart s.panel.fuses.lwidth (leBytes 96 b.toNat) = some e)
    (hv : (s.panel.core n).partValid = true) (hpart : e.part = (s.panel.core n).part)
    (hs : (s.panel.core n).seq.state = .idle ∨ (s.panel.core n).seq.state = .run ∨ (s.panel.core n).seq.state = .paused)
    (hroom : (s.panel.core n).seq.starts.length < 8) :
    ∃ t, exec (.start n (some b)) s = .next t ∧ t.panel.out = .startAnswer n St.done :: s.panel.out ∧
      (t.panel.core n).seq.starts = (s.panel.core n).seq.starts ++ [e] := by
  change ∃ t, execStart n (some b) s = .next t ∧ _
  refine ⟨_, atCore_clocked hl hc _, ?_⟩
  have htake := (Core.takeStart_entry (part := 0) (src := .ring) rfl hp).trans (Core.entryTaken_queued hv hpart hs hroom)
  simp only [htake, Panel.emit_out, Panel.setCore_out, Panel.core_emit, Panel.core_setCore, true_and]

theorem taskListCopyEnd_completes (s : State) (n : Site) (k : Task) (hl : s.panel.live = true)
    (hc : (s.panel.core n).clocked = true) (ht : (s.panel.core n).seq.task = some k) :
    ∃ t, exec (.taskListCopyEnd n) s = .next t ∧ (t.panel.core n).seq.task = some { k with copying := false } := by
  change ∃ t, execTaskListCopyEnd n s = .next t ∧ _
  exact ⟨_, onCore_clocked hl hc _, by rw [Panel.core_modCore, Core.modTask_some ht, Core.task_setTask]⟩

theorem seqFaultClr_completes (s : State) (who : Requester) (n : Site) (v : W64)
    (h : s.panel.granted who (.core n) Reg.SEQ_FAULT_CLR = true) :
    ∃ t, exec (.seqFaultClr who n v) s = .next t ∧ t.panel.out = .answer who 0 St.done :: s.panel.out ∧
      (t.panel.core n).rd Reg.SEQ_FAULT = if v.getLsbD 0 then 0 else (s.panel.core n).rd Reg.SEQ_FAULT := by
  change ∃ t, execSeqFaultClr who n v s = .next t ∧ _
  refine ⟨_, onPanel_live ((granted_iff ..).1 h).1 _, ?_⟩
  have hwrite : ∀ row, s.panel.coreWrite n row Reg.SEQ_FAULT_CLR v = s.panel.modCore n fun k => k.seqFaultClr v :=
    fun _ => rfl
  rw [wrote_core h 4 v _ rfl rfl, hwrite]
  refine ⟨rfl, ?_⟩
  rw [Panel.core_emit, Panel.core_modCore, Core.seqFaultClr]
  split_ifs
  · rw [Core.rd_wr_same]; rfl
  · rfl

theorem taskStartCompletes : Completion.TaskStartCompletes := by
  refine ⟨start_completes, fun s n e rest hl hc hst hidle hg hr => ?_, taskListCopyEnd_completes, seqFaultClr_completes⟩
  refine ⟨_, taskStart_completes s n e rest hl hc hst hidle hg hr, ?_⟩
  rw [Panel.core_setCore]
  obtain ⟨hstate, hstarts, hregs, htask⟩ := (s.panel.core n).seq_startTask (s.panel.at' n) e rest
  refine ⟨hstate, hstarts, fun i h1 h8 => ?_, fun i hi => ?_, htask⟩
  · rw [Core.g_of_startG hregs, if_pos ⟨h1, h8⟩]
  · rw [Core.g_of_startG hregs, if_neg (by omega)]

/-! ### The end of a task (R66, R83, R84) -/

theorem Core.task_endTask (k : Core) (dial cycles : Nat) : (k.endTask dial cycles).seq.task = none := rfl
theorem Core.idleSince_endTask (k : Core) (dial cycles : Nat) : (k.endTask dial cycles).seq.idleSince = dial := rfl
theorem Core.reports_endTask (k : Core) (dial cycles : Nat) : (k.endTask dial cycles).seq.reports = k.seq.reports := rfl
theorem Core.sem_endTask (k : Core) (dial cycles i : Nat) : (k.endTask dial cycles).sem i = k.sem i := rfl
theorem Core.state_endTask {k : Core} (h : k.seq.state = .run) (dial cycles : Nat) :
    (k.endTask dial cycles).seq.state = .idle := if_pos h

theorem Core.rd_endTask (k : Core) (dial cycles : Nat) {off : Nat} (h1 : off ≠ Reg.SEQ_TASK_CYC) (h2 : off ≠ Reg.SEQ_TASK_CNT) :
    (k.endTask dial cycles).rd off = k.rd off := by
  change ((k.wr Reg.SEQ_TASK_CYC cycles).bump Reg.SEQ_TASK_CNT).rd off = k.rd off
  rw [Core.rd_bump_other _ _ h2, Core.rd_wr_other _ _ h1]

/-- A word issues in RUN only. -/
theorem Core.state_of_ready {k : Core} {op : Nat} {x : Task × TaskWord} (h : k.ready op = some x) : k.seq.state = .run := by
  unfold Core.ready Core.issuing at h
  cases hs : k.seq.state <;> simp [hs] at h ⊢

/-- END's signal, applied before the task ends (R83). -/
def Core.endSig (k : Core) (w : TaskWord) : Core := if w.f 111 111 = 1 then k.semOp (w.f 110 103) 0 1 else k

theorem Core.state_endSig (k : Core) (w : TaskWord) : (k.endSig w).seq.state = k.seq.state := by
  unfold Core.endSig
  split_ifs
  · obtain ⟨sem, h⟩ := k.seq_semOp (w.f 110 103) 0 1
    rw [h]
  · rfl

/-- What END leaves when nothing awaits it: the panel with the report, if any, and the task ended. -/
theorem exec_endWord {s : State} {n : Site} {k : Task} {w : TaskWord} (hl : s.panel.live = true)
    (hc : (s.panel.core n).clocked = true) (hr : (s.panel.core n).ready 0x01 = some (k, w))
    (hi : (s.panel.core n).allIdle = true) (hrem : (s.panel.core n).remoteIdle = true) {q : Panel}
    (hq : (if k.entry.report then
        (s.panel.draw.2.setCore n ((s.panel.core n).endSig w)).sendReport n k.entry (k.status.getD St.done) s.panel.draw.1.toNat
      else some (s.panel.draw.2.setCore n ((s.panel.core n).endSig w))) = some q) :
    exec (.endWord n) s =
      .next { s with panel := q.modCore n fun c => c.endTask q.dial s.panel.draw.1.toNat } := by
  change execEndWord n s = _
  unfold execEndWord
  rw [atCore_clocked hl hc]
  unfold Core.endSig at hq
  simp only [hr, hi, hrem, and_self, if_true, hq]

theorem endWord_silent (s : State) (n : Site) (k : Task) (w : TaskWord) (hl : s.panel.live = true)
    (hc : (s.panel.core n).clocked = true) (hr : (s.panel.core n).ready 0x01 = some (k, w))
    (hi : (s.panel.core n).allIdle = true) (hrem : (s.panel.core n).remoteIdle = true) (hrep : k.entry.report = false) :
    ∃ t, exec (.endWord n) s = .next t ∧ (t.panel.core n).seq.task = none ∧ (t.panel.core n).seq.state = .idle ∧
      (t.panel.core n).seq.idleSince = s.panel.dial ∧
      (w.f 111 111 = 1 →
        (t.panel.core n).sem (w.f 110 103) = min cntTop ((s.panel.core n).sem (w.f 110 103) + 1)) := by
  refine ⟨_, exec_endWord hl hc hr hi hrem (by rw [hrep]; rfl), ?_⟩
  rw [Panel.core_modCore, Panel.core_setCore]
  refine ⟨Core.task_endTask .., Core.state_endTask ?_ .., Core.idleSince_endTask .., fun hsig => ?_⟩
  · rw [Core.state_endSig, Core.state_of_ready hr]
  · rw [Core.sem_endTask, Core.endSig, if_pos hsig, Core.sem_semOp_add]

/-- An entry that asks for a report ends with it: the task is gone, and the report awaits its COMPLETION. -/
theorem endWord_reported (s : State) (n : Site) (k : Task) (w : TaskWord) (q : Panel) (hl : s.panel.live = true)
    (hc : (s.panel.core n).clocked = true) (hr : (s.panel.core n).ready 0x01 = some (k, w))
    (hi : (s.panel.core n).allIdle = true) (hrem : (s.panel.core n).remoteIdle = true) (hrep : k.entry.report = true)
    (hq : (s.panel.draw.2.modCore n fun c => if w.f 111 111 = 1 then c.semOp (w.f 110 103) 0 1 else c).sendReport n k.entry
      (k.status.getD St.done) s.panel.draw.1.toNat = some q) :
    ∃ t, exec (.endWord n) s = .next t ∧ (t.panel.core n).seq.task = none ∧
      (t.panel.core n).seq.reports = (q.core n).seq.reports := by
  refine ⟨_, exec_endWord hl hc hr hi hrem (by rw [hrep]; exact hq), ?_⟩
  rw [Panel.core_modCore]
  exact ⟨Core.task_endTask .., Core.reports_endTask ..⟩

/-! A task fault is counted, and held in SEQ_FAULT unless an earlier one stands there. -/

theorem Core.recordFault_count (k : Core) (cause opc st pc : Nat) :
    (k.recordFault cause opc st pc).rd Reg.SEQ_FAULT_CNT = min cntTop (k.rd Reg.SEQ_FAULT_CNT + 1) := by
  rw [Core.recordFault, Core.rd_bump_same]
  split_ifs
  · rfl
  · rw [Core.rd_wr_other _ _ (by decide)]

theorem seqFaultBits_lt (cause opc st pc : Nat) : seqFaultBits cause opc st pc < 2 ^ 64 := by
  unfold seqFaultBits; omega

theorem Core.recordFault_held (k : Core) (cause opc st pc : Nat) :
    (k.recordFault cause opc st pc).rd Reg.SEQ_FAULT =
      if (k.rd Reg.SEQ_FAULT).testBit 31 then k.rd Reg.SEQ_FAULT else seqFaultBits cause opc st pc := by
  rw [Core.recordFault, Core.rd_bump_other _ _ (by decide)]
  split_ifs
  · rfl
  · rw [Core.rd_wr_same, Nat.mod_eq_of_lt (seqFaultBits_lt ..)]

theorem taskFault_completes (s : State) (n : Site) (k : Task) (cause opc st pc : Nat) (q : Panel) (hl : s.panel.live = true)
    (hc : (s.panel.core n).clocked = true) (hs : (s.panel.core n).seq.state = .run)
    (ht : (s.panel.core n).seq.task = some k) (hcopy : k.copying = false) (hi : (s.panel.core n).allIdle = true)
    (hf : (s.panel.core n).faultNow k = some (cause, opc, st, pc))
    (hq : s.panel.draw.2.sendReport n k.entry (k.status.getD st) s.panel.draw.1.toNat = some q) :
    exec (.taskFault n) s = .next { s with
      panel := q.modCore n fun c => (c.recordFault cause opc st pc).endTask q.dial s.panel.draw.1.toNat } := by
  change execTaskFault n s = _
  unfold execTaskFault
  rw [atCore_clocked hl hc]
  simp only [hs, ht, hcopy, hi, hf, hq, Bool.false_eq_true, not_true_eq_false, or_self, if_false]

theorem taskEndCompletes : Completion.TaskEndCompletes := by
  refine ⟨endWord_silent, endWord_reported, fun s n k cause opc st pc q hl hc hs ht hcopy hi hf hq => ?_⟩
  refine ⟨_, taskFault_completes s n k cause opc st pc q hl hc hs ht hcopy hi hf hq, ?_⟩
  rw [Panel.core_modCore, Core.rd_endTask _ _ _ (by decide) (by decide), Core.rd_endTask _ _ _ (by decide) (by decide)]
  exact ⟨Core.task_endTask .., Core.recordFault_count .., Core.recordFault_held ..⟩

/-- Settles O4: a start entry by the checks in their order, a task's start and end by what the sequencer holds after them. -/
theorem taskStartAndEnd : Obligations.TaskStartAndEnd := ⟨taskStartCompletes, startRefused, taskEndCompletes⟩

end Sys2Proof.Machine
end

section
/-! PROOFS. Packets that arrive at a core (R79, R80, R82, R166, R169, R170, R201, R206, R221): what taking a packet, answering it,
and matching an answer leave of the core; from these the obligation O8. -/

namespace Sys2Proof.Machine

/-! ### The arrivals -/

theorem Core.arrived_popArr (k : Core) (v : Nat) : (k.popArr v).arrived v = (k.arrived v).tail := by
  simp [Core.popArr, Core.arrived]

/-- What stands at the head of a channel has the opcode that its command names. -/
theorem opcode_of_nextArr {p : Panel} {n v op : Nat} {x : Packet} (h : p.nextArr n v op = some x) : x.hdr.opcode = op := by
  unfold Panel.nextArr at h
  split at h
  · cases h
  · split_ifs at h with hop
    cases h
    exact hop

/-! ### Answers leave the core's buffers (R185) -/

/-- An answer enters the router or is counted: what else a core holds stays. -/
theorem Panel.complete_core (p : Panel) (n : Nat) (h : Header) (st : Nat) :
    ∃ rt regs, (p.complete (.core n) h st).core n = { p.core n with rt := rt, regs := regs } := by
  have hpush : ∀ (k : Core) (x : Packet), ∃ rt, k.pushIn 8 1 x = { k with rt := rt } := fun k x => ⟨_, rfl⟩
  unfold Panel.complete Panel.answerWith
  dsimp only [Issuer.place]
  split
  · exact ⟨_, _, by rw [Panel.core_modCore]; rfl⟩
  · rw [Panel.core_modCore]
    obtain ⟨rt, hrt⟩ := hpush (p.core n) _
    exact ⟨rt, _, hrt⟩

theorem Panel.complete_arrived (p : Panel) (n : Nat) (h : Header) (st v : Nat) :
    ((p.complete (.core n) h st).core n).arrived v = (p.core n).arrived v := by
  obtain ⟨rt, regs, hc⟩ := p.complete_core n h st
  rw [hc]; rfl

theorem Panel.complete_seq (p : Panel) (n : Nat) (h : Header) (st : Nat) :
    ((p.complete (.core n) h st).core n).seq = (p.core n).seq := by
  obtain ⟨rt, regs, hc⟩ := p.complete_core n h st
  rw [hc]

/-! ### Packets that are staged (R166, R169, R201, R206) -/

/-- Staging with room and open groups: the packet leaves its channel and its rows stand at the end of staging. -/
theorem stageIn_taken {p : Panel} {n v : Nat} {kind : StageKind} {x : Packet} (hr : (p.core n).spad.reshape = none)
    (hroom : (p.core n).spad.held + (stageEntries (p.core n).spad.nextPid kind x).length ≤ 56) :
    ((p.stageIn n v kind x).core n).arrived v = ((p.core n).arrived v).tail ∧
      ((p.stageIn n v kind x).core n).spad.staging =
        (p.core n).spad.staging ++ stageEntries (p.core n).spad.nextPid kind x := by
  simp only [Panel.stageIn, hr, Option.isSome_none, Bool.false_eq_true, if_false, Core.stage, if_pos hroom, Panel.core_setCore]
  exact ⟨Core.arrived_popArr .., rfl⟩

/-- A request of the core's partition for its scratchpad is staged. -/
theorem coreRequest_staged {p : Panel} {n op : Nat} {kind : StageKind} {x : Packet} (hx : p.nextArr n 0 op = some x)
    (ht : (p.core n).takes x = true) (hs : bits x.hdr.ga 55 52 = 0) : p.coreRequest n op kind = p.stageIn n 0 kind x := by
  simp [Panel.coreRequest, hx, ht, hs]

theorem accType_some {h : Header} (ht : 1 ≤ h.rtype ∧ h.rtype ≤ 4) : accType h = some h.rtype := if_pos ht

section
variable (s : State) (n : Site) (x : Packet) (hl : s.panel.live = true) (hc : (s.panel.core n).clocked = true)
  (ht : (s.panel.core n).takes x = true) (hr : (s.panel.core n).spad.reshape = none)
include hl hc ht

theorem exec_write (hx : s.panel.nextArr n 0 Opc.write = some x) (hs : bits x.hdr.ga 55 52 = 0) :
    exec (.write n) s = .next { s with panel := s.panel.stageIn n 0 .write x } := by
  change execWrite n s = _
  rw [execWrite, atCore_clocked hl hc, coreRequest_staged hx ht hs]

theorem exec_readReq (hx : s.panel.nextArr n 0 Opc.readReq = some x) (hs : bits x.hdr.ga 55 52 = 0) :
    exec (.readReq n) s = .next { s with panel := s.panel.stageIn n 0 .read x } := by
  change execReadReq n s = _
  rw [execReadReq, atCore_clocked hl hc, coreRequest_staged hx ht hs]

theorem exec_writeAcc (hx : s.panel.nextArr n 0 Opc.writeAcc = some x) (hs : bits x.hdr.ga 55 52 = 0)
    (hrt : 1 ≤ x.hdr.rtype ∧ x.hdr.rtype ≤ 4) :
    exec (.writeAcc n) s = .next { s with panel := s.panel.stageIn n 0 (.acc x.hdr.rtype) x } := by
  change execWriteAcc n s = _
  rw [execWriteAcc, atCore_clocked hl hc]
  simp only [hx, accType_some hrt, coreRequest_staged hx ht hs]

theorem exec_mcastWrite (hx : s.panel.nextArr n 3 Opc.mcast = some x) :
    exec (.mcastWrite n) s = .next { s with panel := s.panel.stageIn n 3 .write x } := by
  change execMcastWrite n s = _
  rw [execMcastWrite, atCore_clocked hl hc]
  simp only [hx, ht, if_true]

include hr in
theorem exec_reduceDelivery (hx : s.panel.nextArr n 2 Opc.reduce = some x) (hrt : 1 ≤ x.hdr.rtype ∧ x.hdr.rtype ≤ 4) :
    exec (.reduceDelivery n) s = .next { s with panel := s.panel.stageIn n 2 (.acc x.hdr.rtype) x } := by
  change execReduceDelivery n s = _
  rw [execReduceDelivery, atCore_clocked hl hc]
  simp only [hx, ht, accType_some hrt, hr, Option.isSome_none, Bool.false_eq_true, if_false]

end

theorem arrivalsAreStaged : Completion.ArrivalsAreStaged := by
  intro s n x hl hc ht hr v op kind c hmem hx hga hrt hroom
  have hstage : exec c s = .next { s with panel := s.panel.stageIn n v kind x } := by
    simp only [List.mem_cons, Prod.mk.injEq, List.not_mem_nil, or_false] at hmem
    rcases hmem with ⟨rfl, rfl, rfl, rfl⟩ | ⟨rfl, rfl, rfl, rfl⟩ | ⟨rfl, rfl, rfl, rfl⟩ | ⟨rfl, rfl, rfl, rfl⟩ |
      ⟨rfl, rfl, rfl, rfl⟩
    · exact exec_write s n x hl hc ht hx (hga rfl)
    · exact exec_readReq s n x hl hc ht hx (hga rfl)
    · exact exec_writeAcc s n x hl hc ht hx (hga rfl) (hrt rfl)
    · exact exec_mcastWrite s n x hl hc ht hx
    · exact exec_reduceDelivery s n x hl hc ht hr hx (hrt rfl)
  exact ⟨_, hstage, stageIn_taken hr hroom⟩

/-! ### Signals and messages (R79, R80, R170) -/

@[simp] theorem Core.arrived_setSem (k : Core) (i v c : Nat) : (k.setSem i v).arrived c = k.arrived c := rfl
@[simp] theorem Core.arrived_semSat (k : Core) (i c : Nat) : (k.semSat i).arrived c = k.arrived c := rfl

theorem Core.arrived_semOp (k : Core) (i mode v c : Nat) : (k.semOp i mode v).arrived c = k.arrived c := by
  obtain ⟨x, hx⟩ | ⟨x, hx⟩ := k.semOp_cases i mode v <;> rw [hx] <;> rfl

/-- A semaphore operation sees of a core its semaphores alone. -/
theorem Core.sem_semOp_congr {k l : Core} (h : l.seq = k.seq) (i mode v j : Nat) :
    (l.semOp i mode v).sem j = (k.semOp i mode v).sem j := by
  have hsem : ∀ m, l.sem m = k.sem m := fun m => by unfold Core.sem; rw [h]
  have hset : ∀ a, (l.setSem i a).sem j = (k.setSem i a).sem j := fun a => by
    by_cases hj : j = i
    · rw [hj, Core.sem_setSem, Core.sem_setSem]
    · rw [Core.sem_setSem_other _ _ hj, Core.sem_setSem_other _ _ hj, hsem]
  unfold Core.semOp
  simp only [hsem]
  split
  · split_ifs
    · rw [Core.sem_semSat, Core.sem_semSat, hset]
    · exact hset _
  · exact hset _
  · split_ifs
    · rw [Core.sem_semSat, Core.sem_semSat, hset]
    · exact hset _

theorem semSignalPacket_completes (s : State) (n : Site) (x : Packet) (i : Nat) (hl : s.panel.live = true)
    (hc : (s.panel.core n).clocked = true) (hx : s.panel.nextArr n 0 Opc.semSignal = some x)
    (hd : (s.panel.core n).drainedStaging = true) (ht : (s.panel.core n).takes x = true)
    (hi : entryOf (bits x.hdr.ga 19 0) Reg.SEQ_SEM 4 256 = some i) (ha : x.hdr.ga % 4 = 0)
    (hreg : bits x.hdr.ga 55 52 = 1) (hrt : x.hdr.rtype < 3) :
    ∃ t, exec (.semSignalPacket n) s = .next t ∧ (t.panel.core n).arrived 0 = ((s.panel.core n).arrived 0).tail ∧
      ∀ j, (t.panel.core n).sem j = ((s.panel.core n).semOp i x.hdr.rtype x.hdr.sval).sem j := by
  change ∃ t, execSemSignalPacket n s = .next t ∧ _
  refine ⟨_, atCore_clocked hl hc _, ?_⟩
  have hok : ¬ (x.hdr.ga % 4 ≠ 0 ∨ bits x.hdr.ga 55 52 ≠ 1 ∨ 3 ≤ x.hdr.rtype) := by omega
  simp only [hx, hd, hi, ht, not_true_eq_false, if_false, if_neg hok, Panel.complete_arrived, Panel.popArr,
    Panel.core_modCore, Core.arrived_semOp, Core.arrived_popArr, true_and]
  intro j
  have hsem : ∀ p : Panel, ((p.complete (.core n) x.hdr St.done).core n).sem j = (p.core n).sem j := fun p => by
    unfold Core.sem; rw [Panel.complete_seq]
  rw [hsem, Panel.core_modCore, Panel.core_modCore]
  exact Core.sem_semOp_congr (k := s.panel.core n) (l := (s.panel.core n).popArr 0) rfl _ _ _ j

/-- The head of a message: its tag and payload, and the coordinates of a core that sent it. -/
theorem inboxMsg_head (p : Panel) (x : Packet) (payload : List Byte) :
    (p.inboxMsg x payload).1.payload = payload ∧ (p.inboxMsg x payload).1.tag = x.hdr.mtag ∧
      (x.hdr.fromCore = true → (p.inboxMsg x payload).1.kind = 0 ∧
        (p.inboxMsg x payload).1.sx = (p.site (siteOf x.hdr.sc x.hdr.sr)).lx ∧ (p.inboxMsg x payload).1.sy = x.hdr.sr) := by
  unfold Panel.inboxMsg
  dsimp only
  split
  · exact ⟨rfl, rfl, fun _ => ⟨rfl, rfl, rfl⟩⟩
  next hno =>
    split
    · exact ⟨rfl, rfl, fun h => absurd h hno⟩
    · exact ⟨rfl, rfl, fun h => absurd h hno⟩

theorem inboxMsg_core (p : Panel) (x : Packet) (payload : List Byte) (n : Nat) :
    (p.inboxMsg x payload).2.core n = p.core n := by
  unfold Panel.inboxMsg
  dsimp only
  split
  · rfl
  · split <;> rfl

theorem msg_completes (s : State) (n : Site) (x : Packet) (hl : s.panel.live = true)
    (hc : (s.panel.core n).clocked = true) (hx : s.panel.nextArr n 0 Opc.msg = some x)
    (hd : (s.panel.core n).drainedStaging = true) (ht : (s.panel.core n).takes x = true) (hga : bits x.hdr.ga 19 0 = 0)
    (hreg : bits x.hdr.ga 55 52 = 1) (hk : x.hdr.mkind = 0) (hb : x.hdr.bytes ≤ 64) (hgood : x.payload.2.1 = false)
    (hroom : (s.panel.core n).seq.inbox.length < 128) :
    ∃ t, exec (.msg n) s = .next t ∧ (t.panel.core n).arrived 0 = ((s.panel.core n).arrived 0).tail ∧
      ∃ m : InboxMsg, (t.panel.core n).seq.inbox = (s.panel.core n).seq.inbox ++ [m] ∧ m.payload = x.payload.1 ∧
        m.tag = x.hdr.mtag ∧
        (x.hdr.fromCore → m.kind = 0 ∧ m.sx = (s.panel.site (siteOf x.hdr.sc x.hdr.sr)).lx ∧ m.sy = x.hdr.sr) := by
  change ∃ t, execMsg n s = .next t ∧ _
  refine ⟨_, atCore_clocked hl hc _, ?_⟩
  have htaken : ((s.panel.popArr n 0).core n).takes x = true := by rw [Panel.popArr, Panel.core_modCore]; exact ht
  have hinbox : ((s.panel.popArr n 0).core n).seq.inbox = (s.panel.core n).seq.inbox := by
    rw [Panel.popArr, Panel.core_modCore]; rfl
  have hto : ¬ (bits x.hdr.ga 19 0 ≠ 0 ∨ bits x.hdr.ga 55 52 ≠ 1 ∨ 2 ≤ x.hdr.mkind) := by omega
  have hkind : ¬ x.hdr.mkind = 1 := by omega
  simp only [hx, hd, not_true_eq_false, if_false, if_neg hto, if_neg hkind, Panel.inboxIn, htaken, if_neg (not_lt.2 hb),
    hgood, Bool.false_eq_true, hinbox, if_neg (not_le.2 hroom), Panel.complete_arrived, Panel.complete_seq,
    Panel.core_modCore, inboxMsg_core]
  refine ⟨?_, _, rfl, inboxMsg_head _ x _⟩
  rw [Panel.popArr, Panel.core_modCore]
  exact Core.arrived_popArr ..

/-! ### Answers (R82, R221) -/

@[simp] theorem Core.remote_noteStatus (k : Core) (st : Nat) : (k.noteStatus st).seq.remote = k.seq.remote := by
  unfold Core.noteStatus Core.modTask
  split_ifs
  · rfl
  · split <;> rfl

@[simp] theorem Core.lastRemote_noteStatus (k : Core) (st : Nat) : (k.noteStatus st).seq.lastRemote = k.seq.lastRemote := by
  unfold Core.noteStatus Core.modTask
  split_ifs
  · rfl
  · split <;> rfl

/-- The end of a remote operation holds a failing status in SEQ_STATUS. -/
theorem Core.seq_remoteEnd (k : Core) (own : Bool) (st : Nat) :
    (k.remoteEnd own st).seq.remote = k.seq.remote ∧
      (k.remoteEnd own st).seq.lastRemote = if st = St.done then k.seq.lastRemote else st := by
  unfold Core.remoteEnd
  dsimp only
  split_ifs <;> simp

/-- The answer at the head of a clocked core's VC1 arrivals leaves them and is matched. -/
theorem arrAnswer_core {s : State} {n : Site} {x : Packet} {op : Nat} {i : Instr}
    (hi : exec i s = s.onPanel fun p => p.arrAnswer (.core n) op) (hl : s.panel.live = true)
    (hc : (s.panel.core n).clocked = true) (hx : s.panel.nextArr n 1 op = some x) :
    exec i s = .next { s with panel := (s.panel.popArr n 1).coreAnswer n x } := by
  rw [hi, onPanel_live hl]
  simp only [Panel.arrAnswer, hc, not_true_eq_false, if_false, hx]

/-- Taking an answer off its channel leaves what it is matched with. -/
theorem popArr_core (p : Panel) (n v : Nat) : (p.popArr n v).core n = (p.core n).popArr v := Panel.core_modCore ..

theorem taken_of_le {st : Nat} (h : st ≤ 0x0C) : St.taken st = st := if_pos h

@[simp] theorem DmaCh.track_mod (c : DmaCh) (id : Nat) (f : DescRun → DescRun) : (c.mod id f).track = c.track := rfl
@[simp] theorem DmaCh.track_release (c : DmaCh) : c.release.track = c.track := by
  unfold DmaCh.release
  split
  · rfl
  · split_ifs <;> rfl

theorem Core.ch_wrap (k : Core) (off n ch : Nat) : (k.wrap off n).ch ch = k.ch ch := rfl

@[simp] theorem Core.track_pieceEnd (k : Core) (ch id piece bytes st : Nat) :
    ((k.pieceEnd ch id piece bytes st).ch ch).track = (k.ch ch).track := by
  unfold Core.pieceEnd
  split
  · rw [Core.ch_wrap, Core.ch_setCh, DmaCh.track_release, DmaCh.track_mod]
  · rw [Core.ch_setCh, DmaCh.track_release, DmaCh.track_mod]

/-- A tracked request that ends frees its entry. -/
theorem Core.trackEnd_free (k : Core) (ch entry : Nat) (t : Track) (st : Nat) :
    find ((k.trackEnd ch entry t st).ch ch).track entry = none := by
  unfold Core.trackEnd
  dsimp only
  split_ifs
  · rw [Core.ch_setCh, find_drop_same]
  · rw [Core.track_pieceEnd, Core.ch_setCh, find_drop_same]

theorem Core.dmaCompletion_free {k : Core} {ch entry : Nat} {t : Track} (h : t.left ≤ 1) (st : Nat) :
    find ((k.dmaCompletion ch entry t st).ch ch).track entry = none := by
  simp only [Core.dmaCompletion, if_neg (not_lt.2 h)]
  exact Core.trackEnd_free ..

theorem Core.dmaReadData_free (k : Core) (w : At) (ch entry : Nat) (t : Track) (x : Packet) :
    find ((k.dmaReadData w ch entry t x).ch ch).track entry = none := by
  unfold Core.dmaReadData
  dsimp only
  split_ifs <;> exact Core.trackEnd_free ..

section
variable {p : Panel} {n : Nat} {x : Packet} (ht : (p.core n).takes x = true) (hst : x.hdr.status ≤ 0x0C)
include ht hst

theorem coreAnswer_remote {o : RemoteOp} (hop : x.hdr.opcode = Opc.completion)
    (htr : (p.core n).trackOf x.hdr.seq = none) (ho : (p.core n).seq.remote.find? (·.seq = x.hdr.seq) = some o) :
    ((p.coreAnswer n x).core n).seq.remote = (p.core n).seq.remote.filter (·.seq ≠ x.hdr.seq) ∧
      ((p.coreAnswer n x).core n).seq.lastRemote =
        if x.hdr.status = St.done then (p.core n).seq.lastRemote else x.hdr.status := by
  simp only [Panel.coreAnswer, ht, not_true_eq_false, if_false, if_neg (not_lt.2 hst), htr, hop, ne_eq, ho,
    taken_of_le hst, Panel.core_modCore]
  exact Core.seq_remoteEnd ..

variable {ch entry : Nat} {k : Track} (htr : (p.core n).trackOf x.hdr.seq = some (ch, entry, k))
include htr

theorem coreAnswer_completion (hop : x.hdr.opcode = Opc.completion) (hleft : k.left ≤ 1) :
    find (((p.coreAnswer n x).core n).ch ch).track entry = none := by
  have hno : ¬ Opc.completion = Opc.readData := by decide
  simp only [Panel.coreAnswer, ht, not_true_eq_false, if_false, if_neg (not_lt.2 hst), htr, hop, if_neg hno, if_true,
    taken_of_le hst, ite_self, Panel.core_modCore]
  exact Core.dmaCompletion_free hleft _

theorem coreAnswer_readData (hop : x.hdr.opcode = Opc.readData) (hread : k.isRead = true) :
    find (((p.coreAnswer n x).core n).ch ch).track entry = none := by
  simp only [Panel.coreAnswer, ht, not_true_eq_false, if_false, if_neg (not_lt.2 hst), htr, hop, hread, if_true,
    Panel.core_modCore]
  exact Core.dmaReadData_free ..

end

theorem answersArrive : Completion.AnswersArrive := by
  refine ⟨fun s n x o hl hc hx ht hst htr ho => ?_, fun s n x ch entry k hl hc hx ht hst htr hleft => ?_,
    fun s n x ch entry k hl hc hx ht hst htr hread => ?_⟩
  · refine ⟨_, arrAnswer_core rfl hl hc hx, ?_⟩
    have h := coreAnswer_remote (p := s.panel.popArr n 1) (n := n) (by rw [popArr_core]; exact ht) hst
      (opcode_of_nextArr hx) (by rw [popArr_core]; exact htr) (by rw [popArr_core]; exact ho)
    rw [popArr_core] at h
    exact h
  · refine ⟨_, arrAnswer_core rfl hl hc hx, ?_⟩
    exact coreAnswer_completion (p := s.panel.popArr n 1) (n := n) (by rw [popArr_core]; exact ht) hst
      (by rw [popArr_core]; exact htr) (opcode_of_nextArr hx) hleft
  · refine ⟨_, arrAnswer_core rfl hl hc hx, ?_⟩
    exact coreAnswer_readData (p := s.panel.popArr n 1) (n := n) (by rw [popArr_core]; exact ht) hst
      (by rw [popArr_core]; exact htr) (opcode_of_nextArr hx) hread

/-- Settles O8: staging, signals and messages by the packet at the head of its channel, answers by what they are matched with. -/
theorem packetsArriveAtCores : Obligations.PacketsArriveAtCores :=
  ⟨arrivalsAreStaged, ⟨semSignalPacket_completes, msg_completes⟩, answersArrive⟩

end Sys2Proof.Machine
end

section
/-! PROOFS. What a command to one core leaves as it was (R60, R61, R68, R72, R105, R126, R143): the obligation O43. -/

namespace Sys2Proof.Machine

/-- Nothing of the panel changes but core n and the count of free values drawn. -/
def Panel.ChangesOnly (n : Nat) (p q : Panel) : Prop :=
  (∀ m, m ≠ n → q.core m = p.core m) ∧ { q with cores := p.cores, free := p.free } = p

theorem Panel.changesOnly_refl (n : Nat) (p : Panel) : p.ChangesOnly n p := ⟨fun _ _ => rfl, rfl⟩

theorem Panel.changesOnly_setCore (n : Nat) (p : Panel) (k : Core) (free : Nat) :
    p.ChangesOnly n (({ p with free := free } : Panel).setCore n k) :=
  ⟨fun _ h => Panel.core_setCore_other { p with free := free } k h, rfl⟩

section
variable {s t : State} {n : Nat}

theorem onPanel_changesOnly {f : Panel → Panel} (hf : s.panel.ChangesOnly n (f s.panel)) (h : s.onPanel f = .next t) :
    t.pending = s.pending ∧ s.panel.ChangesOnly n t.panel := by
  cases h
  refine ⟨rfl, ?_⟩
  dsimp only
  split_ifs
  · exact hf
  · exact Panel.changesOnly_refl n s.panel

theorem onCore_changesOnly {f : Core → Core} (h : s.onCore n f = .next t) :
    t.pending = s.pending ∧ s.panel.ChangesOnly n t.panel := by
  refine onPanel_changesOnly ?_ h
  split_ifs
  · exact Panel.changesOnly_setCore n s.panel _ s.panel.free
  · exact Panel.changesOnly_refl n s.panel

theorem onSite_changesOnly {f : Core → Core} (h : s.onSite n f = .next t) :
    t.pending = s.pending ∧ s.panel.ChangesOnly n t.panel := by
  refine onPanel_changesOnly ?_ h
  split_ifs
  · exact Panel.changesOnly_setCore n s.panel _ s.panel.free
  · exact Panel.changesOnly_refl n s.panel

theorem atCore_changesOnly {f : Core → Panel → Panel} (hf : s.panel.ChangesOnly n (f (s.panel.core n) s.panel))
    (h : s.atCore n f = .next t) : t.pending = s.pending ∧ s.panel.ChangesOnly n t.panel := by
  refine onPanel_changesOnly ?_ h
  split_ifs
  · exact hf
  · exact Panel.changesOnly_refl n s.panel

theorem eng_changesOnly {f : Nat → At → Core → Core} (h : s.eng n f = .next t) :
    t.pending = s.pending ∧ s.panel.ChangesOnly n t.panel := by
  unfold State.eng at h
  generalize 65536 = drawn at h
  exact atCore_changesOnly (Panel.changesOnly_setCore n s.panel _ (s.panel.free + drawn)) h

end

/-- The commands to one core come in three shapes: in the core's clock domain, of its site, or of an engine. -/
theorem exec_oneCore {i : Instr} {n : Nat} (h : Frame.oneCore i = some n) (s : State) :
    (∃ f, exec i s = s.onCore n f) ∨ (∃ f, exec i s = s.onSite n f) ∨ ∃ f, exec i s = s.eng n f := by
  unfold Frame.oneCore at h
  split at h <;> cases h
  case h_14 | h_15 | h_16 | h_17 | h_18 | h_19 | h_20 | h_21 | h_22 | h_23 | h_24 | h_25 | h_26 | h_27 | h_28 | h_29 | h_30 | h_31 =>
    simp only [exec, execMm, execMv, execAccZero, execAccLoad, execAccStore, execEmap, execEmapDescriptorRead, execEprog,
      execVload, execVstore, execTapPairStart, execRsum, execRmax, execRmin, execArgmax, execTopk, execSmpair, execPmerge]
    exact .inr (.inr ⟨_, rfl⟩)
  case h_41 | h_42 | h_43 | h_44 | h_45 | h_46 | h_47 | h_48 | h_49 => exact .inr (.inl ⟨_, rfl⟩)
  all_goals exact .inl ⟨_, rfl⟩

/-- Settles O43: each of these commands is one of three shapes, and each shape sets one core and at most draws free values. -/
theorem coreCommandsStayInTheCore : Obligations.CoreCommandsStayInTheCore := by
  intro s t i n hi h
  rcases exec_oneCore hi s with ⟨f, hf⟩ | ⟨f, hf⟩ | ⟨f, hf⟩
  · exact onCore_changesOnly (hf.symm.trans h)
  · exact onSite_changesOnly (hf.symm.trans h)
  · exact eng_changesOnly (hf.symm.trans h)

end Sys2Proof.Machine
end

section
/-! PROOFS. The canonical form of memories and the unlisted g0 (R67, R153, R290). The two claims are one property with a claim as
its parameter, so that each operation of the model is shown to keep both at once; from this the obligation O56. -/

namespace Sys2Proof.Machine

-- The many short proofs of this part are elaborated one after another: each one that waits would hold a thread of its own.
set_option Elab.async false

open Host (Outcome)

/-! ### The property -/

/-- The two claims: that memories are in canonical form, and that no core lists g0. -/
inductive Claim
  | memories
  | zeroRegister

/-- What a claim asks of a core: of its scratchpad, its vector registers and its general registers. -/
def Claim.core : Claim → Mem → List Host.Cell → Sparse W64 → Prop
  | .memories, mem, vregs, _ => mem.wf = true ∧ cellsWf vregs = true
  | .zeroRegister, _, _, g => find g 0 = none

/-- What a claim asks of a hub: of its stack. -/
def Claim.hub : Claim → Mem → Prop
  | .memories, mem => mem.wf = true
  | .zeroRegister, _ => True

/-- A core meets a claim. -/
def Core.Canon (k : Core) (a : Claim) : Prop := a.core k.spad.mem k.ve.vregs k.seq.g

/-- A hub meets a claim. -/
def Hub.Canon (k : Hub) (a : Claim) : Prop := a.hub k.mem

/-- What a claim asks of the listed cores and hubs. -/
def Claim.dies (a : Claim) (cores : Sparse Core) (hubs : Sparse Hub) : Prop :=
  (∀ x ∈ cores, x.2.Canon a) ∧ ∀ x ∈ hubs, x.2.Canon a

/-- Every core and hub that a panel lists meets a claim. -/
def Panel.Canon (p : Panel) (a : Claim) : Prop := a.dies p.cores p.hubs

/-- What a claim asks of a core depends on three of its components alone. -/
theorem Core.Canon.same {a : Claim} {k l : Core} (h : k.Canon a) (hm : l.spad.mem = k.spad.mem := by exact rfl)
    (hv : l.ve.vregs = k.ve.vregs := by exact rfl) (hg : l.seq.g = k.seq.g := by exact rfl) : l.Canon a := by
  unfold Core.Canon
  rw [hm, hv, hg]
  exact h

theorem Hub.Canon.same {a : Claim} {k l : Hub} (h : k.Canon a) (hm : l.mem = k.mem := by exact rfl) : l.Canon a := by
  unfold Hub.Canon
  rw [hm]
  exact h

theorem Panel.Canon.same {a : Claim} {p q : Panel} (h : p.Canon a) (hc : q.cores = p.cores := by exact rfl)
    (hh : q.hubs = p.hubs := by exact rfl) : q.Canon a := by
  unfold Panel.Canon
  rw [hc, hh]
  exact h

/-- `same` for a record update that leaves the components as they stand in the term. -/
theorem Core.Canon.upd {a : Claim} {k l : Core} (h : k.Canon a) (hm : l.spad.mem = k.spad.mem := by with_reducible exact rfl)
    (hv : l.ve.vregs = k.ve.vregs := by with_reducible exact rfl) (hg : l.seq.g = k.seq.g := by with_reducible exact rfl) :
    l.Canon a := h.same hm hv hg

theorem Hub.Canon.upd {a : Claim} {k l : Hub} (h : k.Canon a) (hm : l.mem = k.mem := by with_reducible exact rfl) : l.Canon a :=
  h.same hm

theorem Panel.Canon.upd {a : Claim} {p q : Panel} (h : p.Canon a) (hc : q.cores = p.cores := by with_reducible exact rfl)
    (hh : q.hubs = p.hubs := by with_reducible exact rfl) : q.Canon a := h.same hc hh

theorem canon_memories_iff (p : Panel) : p.Canon .memories ↔ p.memOk = true := by
  simp [Panel.Canon, Core.Canon, Hub.Canon, Claim.dies, Claim.core, Claim.hub, Panel.memOk, Core.memOk]

theorem canon_zeroRegister_iff (p : Panel) : p.Canon .zeroRegister ↔ p.g0Ok = true := by
  simp [Panel.Canon, Core.Canon, Hub.Canon, Claim.dies, Claim.core, Claim.hub, Panel.g0Ok]

variable {a : Claim}

/-! ### Cells, memories and registers -/

theorem Claim.core_mem {m m' : Mem} {v : List Host.Cell} {g : Sparse W64} (h : a.core m v g) (hm : m.wf = true → m'.wf = true) :
    a.core m' v g := by
  cases a with
  | memories => exact ⟨hm h.1, h.2⟩
  | zeroRegister => exact h

theorem Claim.core_vregs {m : Mem} {v v' : List Host.Cell} {g : Sparse W64} (h : a.core m v g)
    (hv : cellsWf v = true → cellsWf v' = true) : a.core m v' g := by
  cases a with
  | memories => exact ⟨h.1, hv h.2⟩
  | zeroRegister => exact h

theorem Claim.core_g {m : Mem} {v : List Host.Cell} {g g' : Sparse W64} (h : a.core m v g)
    (hg : find g 0 = none → find g' 0 = none) : a.core m v g' := by
  cases a with
  | memories => exact h
  | zeroRegister => exact hg h

theorem Claim.hub_mem {m m' : Mem} (h : a.hub m) (hm : m.wf = true → m'.wf = true) : a.hub m' := by
  cases a with
  | memories => exact hm h
  | zeroRegister => trivial

theorem Claim.core_setCw {m : Mem} {v : List Host.Cell} {g : Sparse W64} (h : a.core m v g) (n : Nat) (c : Codeword) :
    a.core (m.setCw n c) v g := a.core_mem h fun hm => Mem.wf_setCw hm n c

theorem Claim.core_setCws {m : Mem} {v : List Host.Cell} {g : Sparse W64} (h : a.core m v g) (n : Nat)
    (cs : List Codeword) : a.core (m.setCws n cs) v g := a.core_mem h fun hm => Mem.wf_setCws hm n cs

theorem Claim.hub_setCw {m : Mem} (h : a.hub m) (n : Nat) (c : Codeword) : a.hub (m.setCw n c) :=
  a.hub_mem h fun hm => Mem.wf_setCw hm n c

theorem find_putZ_other {w : Nat} (m : Sparse (BitVec w)) {n j : Nat} (v : BitVec w) (h : j ≠ n) :
    find (putZ m n v) j = find m j := by
  unfold putZ
  split_ifs
  · exact find_drop_other m h
  · exact find_put_other m v h

theorem Core.Canon.setG {k : Core} {i : Nat} {v : W64} (h : k.Canon a) : (k.setG i v).Canon a := by
  unfold Core.setG
  split_ifs with hi
  · exact h
  · exact a.core_g h fun hg => (find_putZ_other _ _ (Ne.symm hi)).trans hg

/-! ### Dies in their maps -/

theorem mem_of_find {α : Type} {m : Sparse α} {n : Nat} {v : α} (h : find m n = some v) : (n, v) ∈ m := by
  induction m with
  | nil => cases h
  | cons x m ih =>
    obtain ⟨k, w⟩ := x
    simp only [find] at h
    split_ifs at h with hn
    · cases h; simp [hn]
    · exact List.mem_cons_of_mem _ (ih h)

theorem mem_put {α : Type} {m : Sparse α} {n : Nat} {v : α} {x : Nat × α} (h : x ∈ put m n v) : x = (n, v) ∨ x ∈ m := by
  induction m with
  | nil => exact .inl (List.mem_singleton.1 h)
  | cons y m ih =>
    obtain ⟨k, w⟩ := y
    simp only [put] at h
    split_ifs at h
    · exact List.mem_cons.1 h
    · exact (List.mem_cons.1 h).imp_right (List.mem_cons_of_mem _)
    · rcases List.mem_cons.1 h with rfl | h
      · exact .inr (List.mem_cons_self ..)
      · exact (ih h).imp_right (List.mem_cons_of_mem _)

theorem Core.Canon.blank {f : Fuses} {n : Nat} : (Core.blank f n).Canon a := by cases a <;> trivial

theorem Hub.Canon.blank : Hub.blank.Canon a := by cases a <;> trivial

theorem Core.Canon.ofPanel {p : Panel} {n : Nat} (h : p.Canon a) : (p.core n).Canon a := by
  unfold Panel.core look
  cases hf : find p.cores n with
  | none => exact Core.Canon.blank
  | some k => exact h.1 _ (mem_of_find hf)

theorem Hub.Canon.ofPanel {p : Panel} {n : Nat} (h : p.Canon a) : (p.hub n).Canon a := by
  unfold Panel.hub look
  cases hf : find p.hubs n with
  | none => exact Hub.Canon.blank
  | some k => exact h.2 _ (mem_of_find hf)

theorem dies_putCore {cs : Sparse Core} {hs : Sparse Hub} (h : a.dies cs hs) {k : Core} (hk : k.Canon a) (n : Nat) :
    a.dies (put cs n k) hs :=
  ⟨fun x hx => (mem_put hx).elim (fun e => e ▸ hk) (h.1 x), h.2⟩

theorem dies_putHub {cs : Sparse Core} {hs : Sparse Hub} (h : a.dies cs hs) {k : Hub} (hk : k.Canon a) (n : Nat) :
    a.dies cs (put hs n k) :=
  ⟨h.1, fun x hx => (mem_put hx).elim (fun e => e ▸ hk) (h.2 x)⟩

theorem dies_nil : a.dies [] [] := ⟨by simp, by simp⟩

/-! ### Conditions, folds and loops -/

theorem Panel.Canon.ite {c : Prop} {_ : Decidable c} {p q : Panel} (hp : p.Canon a) (hq : q.Canon a) :
    (if c then p else q).Canon a := by split_ifs <;> assumption

theorem Core.Canon.ite {c : Prop} {_ : Decidable c} {k l : Core} (hk : k.Canon a) (hl : l.Canon a) :
    (if c then k else l).Canon a := by split_ifs <;> assumption

theorem Hub.Canon.ite {c : Prop} {_ : Decidable c} {k l : Hub} (hk : k.Canon a) (hl : l.Canon a) :
    (if c then k else l).Canon a := by split_ifs <;> assumption

theorem Panel.Canon.snd_ite {α : Type} {c : Prop} {_ : Decidable c} {x y : α × Panel} (hx : x.2.Canon a) (hy : y.2.Canon a) :
    (if c then x else y).2.Canon a := by split_ifs <;> assumption

theorem Core.Canon.snd_ite {α : Type} {c : Prop} {_ : Decidable c} {x y : α × Core} (hx : x.2.Canon a) (hy : y.2.Canon a) :
    (if c then x else y).2.Canon a := by split_ifs <;> assumption

theorem Panel.Canon.fst_ite {α : Type} {c : Prop} {_ : Decidable c} {x y : Panel × α} (hx : x.1.Canon a) (hy : y.1.Canon a) :
    (if c then x else y).1.Canon a := by split_ifs <;> assumption

theorem Panel.Canon.fst_mk {α : Type} {x : α} {p : Panel} (hp : p.Canon a) : (p, x).1.Canon a := hp

theorem Hub.Canon.snd_ite {α : Type} {c : Prop} {_ : Decidable c} {x y : α × Hub} (hx : x.2.Canon a) (hy : y.2.Canon a) :
    (if c then x else y).2.Canon a := by split_ifs <;> assumption

theorem Panel.Canon.snd_mk {α : Type} {x : α} {p : Panel} (hp : p.Canon a) : (x, p).2.Canon a := hp

theorem Core.Canon.snd_mk {α : Type} {x : α} {k : Core} (hk : k.Canon a) : (x, k).2.Canon a := hk

theorem Hub.Canon.snd_mk {α : Type} {x : α} {k : Hub} (hk : k.Canon a) : (x, k).2.Canon a := hk

theorem Panel.Canon.of_eq {p q : Panel} (h : p.Canon a) (e : p = q) : q.Canon a := e ▸ h

theorem Panel.Canon.getD {o : Option Panel} {p : Panel} (ho : ∀ q, o = some q → q.Canon a) (hp : p.Canon a) :
    (o.getD p).Canon a := by
  cases o with
  | none => exact hp
  | some q => exact ho q rfl

theorem of_ite_eq {α : Type} {c : Prop} {_ : Decidable c} {x y z : α} {P : Prop} (h : (if c then x else y) = z)
    (hx : x = z → P) (hy : y = z → P) : P := by
  split_ifs at h
  · exact hx h
  · exact hy h

theorem Hub.Canon.foldl {α : Type} {f : Hub → α → Hub} (hf : ∀ k x, k.Canon a → (f k x).Canon a) {l : List α}
    {k : Hub} (h : k.Canon a) : (l.foldl f k).Canon a := by
  induction l generalizing k with
  | nil => exact h
  | cons x l ih => exact ih (hf _ x h)

theorem Hub.Canon.foldl_snd_snd {α β γ : Type} {f : β × γ × Hub → α → β × γ × Hub}
    (hf : ∀ y x, y.2.2.Canon a → (f y x).2.2.Canon a) {l : List α} {y : β × γ × Hub} (h : y.2.2.Canon a) :
    (l.foldl f y).2.2.Canon a := by
  induction l generalizing y with
  | nil => exact h
  | cons x l ih => exact ih (hf _ x h)

theorem Panel.Canon.foldl_fst {α β : Type} {f : Panel × β → α → Panel × β} (hf : ∀ y x, y.1.Canon a → (f y x).1.Canon a)
    {l : List α} {y : Panel × β} (h : y.1.Canon a) : (l.foldl f y).1.Canon a := by
  induction l generalizing y with
  | nil => exact h
  | cons x l ih => exact ih (hf _ x h)

theorem Panel.Canon.foldl_snd {α β : Type} {f : β × Panel → α → β × Panel} (hf : ∀ y x, y.2.Canon a → (f y x).2.Canon a)
    {l : List α} {y : β × Panel} (h : y.2.Canon a) : (l.foldl f y).2.Canon a := by
  induction l generalizing y with
  | nil => exact h
  | cons x l ih => exact ih (hf _ x h)

theorem Panel.Canon.foldl_snd_snd {α β γ : Type} {f : β × γ × Panel → α → β × γ × Panel}
    (hf : ∀ y x, y.2.2.Canon a → (f y x).2.2.Canon a) {l : List α} {y : β × γ × Panel} (h : y.2.2.Canon a) :
    (l.foldl f y).2.2.Canon a := by
  induction l generalizing y with
  | nil => exact h
  | cons x l ih => exact ih (hf _ x h)

/-- A fold that carries a core as its last component. -/
theorem Core.Canon.foldl_snd_snd {α β γ : Type} {f : β × γ × Core → α → β × γ × Core}
    (hf : ∀ y x, y.2.2.Canon a → (f y x).2.2.Canon a) {l : List α} {y : β × γ × Core} (h : y.2.2.Canon a) :
    (l.foldl f y).2.2.Canon a := by
  induction l generalizing y with
  | nil => exact h
  | cons x l ih => exact ih (hf _ x h)

theorem Panel.Canon.foldl {α : Type} {f : Panel → α → Panel} (hf : ∀ p x, p.Canon a → (f p x).Canon a) {l : List α}
    {p : Panel} (h : p.Canon a) : (l.foldl f p).Canon a := by
  induction l generalizing p with
  | nil => exact h
  | cons x l ih => exact ih (hf _ x h)

theorem Core.Canon.foldl {α : Type} {f : Core → α → Core} (hf : ∀ k x, k.Canon a → (f k x).Canon a) {l : List α}
    {k : Core} (h : k.Canon a) : (l.foldl f k).Canon a := by
  induction l generalizing k with
  | nil => exact h
  | cons x l ih => exact ih (hf _ x h)

theorem Panel.Canon.setCore {p : Panel} {k : Core} {n : Nat} (hp : p.Canon a) (hk : k.Canon a) : (p.setCore n k).Canon a :=
  dies_putCore hp hk n

theorem Panel.Canon.setHub {p : Panel} {k : Hub} {n : Nat} (hp : p.Canon a) (hk : k.Canon a) : (p.setHub n k).Canon a :=
  dies_putHub hp hk n

theorem Panel.Canon.modCore {p : Panel} {f : Core → Core} {n : Nat} (hp : p.Canon a) (hf : ∀ k, k.Canon a → (f k).Canon a) :
    (p.modCore n f).Canon a := dies_putCore hp (hf _ (Core.Canon.ofPanel hp)) n

theorem Panel.Canon.modHub {p : Panel} {f : Hub → Hub} {n : Nat} (hp : p.Canon a) (hf : ∀ k, k.Canon a → (f k).Canon a) :
    (p.modHub n f).Canon a := dies_putHub hp (hf _ (Hub.Canon.ofPanel hp)) n

/-! ### The shapes of commands -/

/-- A command keeps a claim: where its old state meets it, so does its next one. -/
def Claim.Kept (a : Claim) (s : State) (o : Outcome State Fault Refusal) : Prop :=
  s.panel.Canon a → ∀ t, o = .next t → t.panel.Canon a

section
variable {s : State} {n : Nat}

theorem always_kept {f : Panel → Panel} (hf : ∀ p, p.Canon a → (f p).Canon a) : a.Kept s (s.always f) := by
  intro hs t h
  cases h
  exact hf _ hs

theorem onPanel_kept {f : Panel → Panel} (hf : ∀ p, p.Canon a → (f p).Canon a) : a.Kept s (s.onPanel f) :=
  always_kept fun p hp => Panel.Canon.ite (hf p hp) hp

theorem atCore_kept {f : Core → Panel → Panel} (hf : ∀ k p, k.Canon a → p.Canon a → (f k p).Canon a) :
    a.Kept s (s.atCore n f) :=
  onPanel_kept fun p hp => Panel.Canon.ite (hf _ p (Core.Canon.ofPanel hp) hp) hp

theorem atSite_kept {f : Core → Panel → Panel} (hf : ∀ k p, k.Canon a → p.Canon a → (f k p).Canon a) :
    a.Kept s (s.atSite n f) :=
  onPanel_kept fun p hp => Panel.Canon.ite (hf _ p (Core.Canon.ofPanel hp) hp) hp

theorem onCore_kept {f : Core → Core} (hf : ∀ k, k.Canon a → (f k).Canon a) : a.Kept s (s.onCore n f) :=
  onPanel_kept fun _ hp => Panel.Canon.ite (Panel.Canon.modCore hp hf) hp

theorem onSite_kept {f : Core → Core} (hf : ∀ k, k.Canon a → (f k).Canon a) : a.Kept s (s.onSite n f) :=
  onPanel_kept fun _ hp => Panel.Canon.ite (Panel.Canon.modCore hp hf) hp

theorem word_kept {op : Nat} {f : Task → TaskWord → Core → Core} (hf : ∀ x w k, k.Canon a → (f x w k).Canon a) :
    a.Kept s (s.word n op f) :=
  onCore_kept fun k hk => by
    split
    · exact hk
    · exact hf _ _ k hk

theorem eng_kept {f : Nat → At → Core → Core} (hf : ∀ b w k, k.Canon a → (f b w k).Canon a) : a.Kept s (s.eng n f) :=
  atCore_kept fun k _ hk hp => dies_putCore hp (hf _ _ k hk) n

theorem dmaKind_kept {ch kind : Nat} {f : DescRun → Panel → Panel} (hf : ∀ r p, p.Canon a → (f r p).Canon a) :
    a.Kept s (s.dmaKind n ch kind f) :=
  atCore_kept fun k p _ hp => by
    split
    · exact hp
    · exact Panel.Canon.ite (hf _ p hp) hp

theorem atPort_kept {q : Nat} {f : Panel → Panel} (hf : ∀ p, p.Canon a → (f p).Canon a) : a.Kept s (s.atPort n q f) :=
  onPanel_kept fun p hp => Panel.Canon.ite (hf p hp) hp

theorem atCrown_kept {c : Crown} {f : Panel → Panel} (hf : ∀ p, p.Canon a → (f p).Canon a) : a.Kept s (s.atCrown c f) :=
  onPanel_kept fun p hp => Panel.Canon.ite hp (hf p hp)

end

/-! ### The operations of the model

From here on each operation of the model that answers a core, a hub or a panel is shown to keep a claim, in the model's own
order and under the headings of its files. The lemma bears the operation's name: `Panel.Canon.f` where `f` answers a panel, and
likewise for cores and hubs; `execX_kept` is about an instruction. A proof follows the operation's body, one lemma for each
operation that the body applies. -/

/-! ### The named operations over the state's maps, memories, registers and logs; every meaning goes through them. -/

theorem Panel.Canon.setPort {p : Panel} {n : Nat} {k : PortDie} (hp : p.Canon a) : (p.setPort n k).Canon a :=
  .same hp

theorem Panel.Canon.setCrown {p : Panel} {c : Crown} {k : CrownDie} (hp : p.Canon a) : (p.setCrown c k).Canon a :=
  .same hp

theorem Panel.Canon.setSite {p : Panel} {n : Nat} {k : SiteInfo} (hp : p.Canon a) : (p.setSite n k).Canon a :=
  .same hp

theorem Panel.Canon.modPort {p : Panel} {n : Nat} {f : PortDie → PortDie} (hp : p.Canon a) : (p.modPort n f).Canon a :=
  .setPort hp

theorem Panel.Canon.modCrown {p : Panel} {c : Crown} {f : CrownDie → CrownDie} (hp : p.Canon a) : (p.modCrown c f).Canon a :=
  .setCrown hp

theorem Panel.Canon.draw {p : Panel} (hp : p.Canon a) : p.draw.2.Canon a :=
  .snd_mk (.upd hp)

theorem Panel.Canon.emit {p : Panel} {o : OutRec} (hp : p.Canon a) : (p.emit o).Canon a :=
  .same hp

theorem Core.Canon.wr {k : Core} {off v : Nat} (hk : k.Canon a) : (k.wr off v).Canon a :=
  .same hk

theorem Core.Canon.bump {k : Core} {off n : Nat} (hk : k.Canon a) : (k.bump off n).Canon a :=
  .same hk

theorem Core.Canon.wrap {k : Core} {off n : Nat} (hk : k.Canon a) : (k.wrap off n).Canon a :=
  .same hk

theorem Hub.Canon.wr {k : Hub} {off v : Nat} (hk : k.Canon a) : (k.wr off v).Canon a :=
  .same hk

theorem Hub.Canon.bump {k : Hub} {off n : Nat} (hk : k.Canon a) : (k.bump off n).Canon a :=
  .same hk

theorem Hub.Canon.wrap {k : Hub} {off n : Nat} (hk : k.Canon a) : (k.wrap off n).Canon a :=
  .same hk

theorem Core.Canon.setF {k : Core} {off hi lo n : Nat} (hk : k.Canon a) : (k.setF off hi lo n).Canon a :=
  .wr hk

theorem Panel.Canon.setSh {p : Panel} {off v : Nat} (hp : p.Canon a) : (p.setSh off v).Canon a :=
  .same hp

theorem Panel.Canon.setShF {p : Panel} {off hi lo n : Nat} (hp : p.Canon a) : (p.setShF off hi lo n).Canon a :=
  .setSh hp

theorem Panel.Canon.bumpSh {p : Panel} {off n : Nat} (hp : p.Canon a) : (p.bumpSh off n).Canon a :=
  .same hp

theorem Panel.Canon.wrapSh {p : Panel} {off n : Nat} (hp : p.Canon a) : (p.wrapSh off n).Canon a :=
  .same hp

theorem Core.Canon.logErr {k : Core} {dial n : Nat} {i : LogItem} (hk : k.Canon a) : (k.logErr dial n i).Canon a :=
  .ite (.upd hk) (.bump hk)

theorem Panel.Canon.logCore {p : Panel} {n : Nat} {i : LogItem} (hp : p.Canon a) : (p.logCore n i).Canon a :=
  .modCore hp fun _ hk => .logErr hk

theorem Panel.Canon.logHub {p : Panel} {h : Nat} {i : LogItem} (hp : p.Canon a) : (p.logHub h i).Canon a :=
  .modHub hp fun _ hk => .ite (.upd hk) (.bump hk)

theorem Panel.Canon.logPort {p : Panel} {d : Nat} {i : LogItem} (hp : p.Canon a) : (p.logPort d i).Canon a :=
  .modPort hp

theorem Panel.Canon.logCrown {p : Panel} {c : Crown} {who : DieId} {i : LogItem} (hp : p.Canon a) :
    (p.logCrown c who i).Canon a :=
  .modCrown hp

/-! ### Access to a core's scratchpad: the interleave, row reads and masked writes with their codes, the accumulate, and the
write-back queue (R153–R176). -/

theorem Core.Canon.queueWb {k : Core} {row : Nat} (hk : k.Canon a) : (k.queueWb row).Canon a :=
  .ite hk (.ite (.upd hk) (.bump hk))

theorem Core.Canon.noteRead {k : Core} {w : At} {req n : Nat} {r : CwRead} (hk : k.Canon a) :
    (k.noteRead w req n r).Canon a := by
  unfold Core.noteRead
  split
  exacts [hk, .queueWb (.logErr (.bump hk)), .logErr (.ite (.bump hk) (.wr (.bump hk)))]

theorem Core.Canon.readCws {w : At} {req : Nat} : ∀ {n m : Nat} {k : Core}, k.Canon a → (Core.readCws w req n m k).2.Canon a
  | _, 0, _, hk => hk
  | n, m + 1, _, hk => Core.Canon.readCws (n := n + 1) (m := m) (.noteRead hk)

theorem Core.Canon.asleep {k : Core} (hk : k.Canon a) : k.asleep.Canon a :=
  .bump hk

theorem Core.Canon.readRow {k : Core} {w : At} {req row : Nat} (hk : k.Canon a) : (k.readRow w req row).2.2.Canon a := by
  unfold Core.readRow
  split
  · dsimp only
    exact .readCws hk
  · exact .bump hk

theorem Core.Canon.fetch {w : At} {req : Nat} :
    ∀ {rows : List Nat} {k : Core}, k.Canon a → (Core.fetch w req rows k).2.2.Canon a
  | [], _, hk => hk
  | _ :: rows, _, hk => Core.Canon.fetch (rows := rows) (.readRow hk)

theorem Core.Canon.wrote {k : Core} {row : Nat} (hk : k.Canon a) : (k.wrote row).Canon a :=
  .ite (.upd hk) (.bump (.upd hk))

/-- One codeword of a core's scratchpad stored. -/
def Core.storeCw (k : Core) (n : Nat) (c : Codeword) : Core := { k with spad := { k.spad with mem := k.spad.mem.setCw n c } }

theorem Core.Canon.storeCw {k : Core} {n : Nat} {c : Codeword} (hk : k.Canon a) : (k.storeCw n c).Canon a := a.core_setCw hk n c

theorem Core.Canon.writeCw {k : Core} {w : At} {req n : Nat} {l : List MByte} (hk : k.Canon a) :
    (k.writeCw w req n l).2.Canon a := by
  unfold Core.writeCw
  dsimp only
  split_ifs
  · exact hk
  · exact .storeCw hk
  · split
    · exact .storeCw hk
    · exact .storeCw (.logErr (.bump hk))
    · exact .bump (.storeCw hk)

theorem Core.Canon.writeCws {w : At} {req : Nat} :
    ∀ {m n : Nat} {l : List MByte} {k : Core}, k.Canon a → (Core.writeCws w req m n l k).2.Canon a
  | 0, _, _, _, hk => hk
  | m + 1, n, l, _, hk => Core.Canon.writeCws (m := m) (n := n + 1) (l := l.drop 32) (.writeCw hk)

theorem Core.Canon.writeRow {k : Core} {w : At} {req row : Nat} {l : List MByte} (hk : k.Canon a) :
    (k.writeRow w req row l).2.Canon a :=
  .snd_ite (.snd_mk (.wrote (.writeCws hk))) (.snd_mk (.asleep hk))

theorem Core.Canon.writeRows {w : At} {req : Nat} :
    ∀ {rows : List (Nat × List MByte)} {k : Core}, k.Canon a → (Core.writeRows w req rows k).2.Canon a
  | [], _, hk => hk
  | _ :: rows, _, hk => Core.Canon.writeRows (rows := rows) (by split; exacts [hk, .writeRow hk])

theorem Core.Canon.writeBytes {k : Core} {w : At} {req off : Nat} {l : List MByte} (hk : k.Canon a) :
    (k.writeBytes w req off l).2.Canon a :=
  .writeRows hk

theorem Core.Canon.accStoreRow {k : Core} {row type : Nat} {stored : List Codeword} {inc : List MByte} (hk : k.Canon a) :
    (k.accStoreRow row type stored inc).2.Canon a := by
  have h := a.core_setCws hk (8 * row) (accRow type stored inc).1
  exact .ite h (.bump h)

theorem Core.Canon.accReadRow {w : At} {req : Nat} :
    ∀ {m n : Nat} {inc : List MByte} {k : Core}, k.Canon a → (Core.accReadRow w req m n inc k).Canon a
  | 0, _, _, _, hk => hk
  | m + 1, n, inc, _, hk => Core.Canon.accReadRow (m := m) (n := n + 1) (inc := inc.drop 32) (.ite hk (.noteRead hk))

theorem Core.Canon.accRowLocal {k : Core} {w : At} {req type row : Nat} {inc : List MByte} (hk : k.Canon a) :
    (k.accRowLocal w req type row inc).2.Canon a :=
  .snd_ite (.snd_mk (.wrote (.accStoreRow (.accReadRow hk)))) (.snd_mk (.asleep hk))

theorem Core.Canon.accRows {w : At} {req type : Nat} :
    ∀ {rows : List (Nat × List MByte)} {k : Core}, k.Canon a → (Core.accRows w req type rows k).2.Canon a
  | [], _, hk => hk
  | _ :: rows, _, hk => Core.Canon.accRows (rows := rows) (by split; exacts [hk, .accRowLocal hk])

theorem Core.Canon.accBytesAt {k : Core} {w : At} {req type off : Nat} {l : List MByte} (hk : k.Canon a) :
    (k.accBytesAt w req type off l).2.Canon a :=
  .accRows hk

theorem Core.Canon.storeAt {k : Core} {w : At} {req type off : Nat} {l : List MByte} (hk : k.Canon a) :
    (k.storeAt w req type off l).2.Canon a :=
  .snd_ite (.writeBytes hk) (.accBytesAt hk)

theorem Core.Canon.storePieces {k : Core} {w : At} {req type : Nat} {pieces : List (Nat × List MByte)} (hk : k.Canon a) :
    (k.storePieces w req type pieces).2.Canon a :=
  .snd_ite (.writeRows hk) (.accRows hk)

/-! ### The mesh as its users see it: input buffers and credit (R189), injection of requests (R51, R184, R193, R199, R314),
answers (R185), and the unicast step (R194). -/

theorem Core.Canon.throttle {k : Core} {v : Nat} (hk : k.Canon a) : (k.throttle v).Canon a :=
  .ite hk (.upd hk)

theorem Core.Canon.pushIn {k : Core} {i v : Nat} {x : Packet} (hk : k.Canon a) : (k.pushIn i v x).Canon a :=
  .ite (.upd hk) (.throttle (.upd hk))

theorem Core.Canon.popIn {k : Core} {i v : Nat} (hk : k.Canon a) : (k.popIn i v).Canon a := by
  unfold Core.popIn
  dsimp only
  exact .upd hk

theorem Core.Canon.pushArr {k : Core} {v : Nat} {x : Packet} (hk : k.Canon a) : (k.pushArr v x).Canon a :=
  .same hk

theorem Core.Canon.popArr {k : Core} {v : Nat} (hk : k.Canon a) : (k.popArr v).Canon a :=
  .same hk

theorem Panel.Canon.addrErr {i : Issuer} {p : Panel} (hp : p.Canon a) : (i.addrErr p).Canon a := by
  unfold Issuer.addrErr
  split
  · exact .modCore hp fun _ hk => .bump hk
  · exact .modHub hp fun _ hk => .bump hk
  · exact .modPort hp
  · exact .bumpSh hp

theorem Panel.Canon.inject {p : Panel} {i : Issuer} {h : Header} {units : List Codeword} (hp : p.Canon a) :
    (p.inject i h units).2.Canon a := by
  unfold Panel.inject
  have hbump : ∀ n off m, (p.modCore n fun k => k.bump off m).Canon a := fun _ _ _ => .modCore hp fun _ hk => .bump hk
  refine .snd_ite hp (.snd_ite (.snd_ite (.snd_mk (.addrErr hp)) (.snd_ite (.snd_mk (hbump _ _ _))
    (.snd_ite (.snd_mk (hbump _ _ _)) (.snd_ite hp (.snd_mk (.modCore hp fun _ hk => .pushIn (.ite hk (.bump hk)))))))) ?_)
  split
  · exact .snd_mk (.addrErr hp)
  · refine .snd_ite (.snd_mk (hbump _ _ _)) ?_
    split
    · exact .snd_mk (.addrErr hp)
    · split
      · exact hp
      · exact .snd_mk (hbump _ _ _)
      · exact .snd_ite (.snd_mk (.modCore hp fun _ hk => .pushIn hk)) hp

theorem Panel.Canon.answerWith {p : Panel} {i : Issuer} {req h' : Header} {units : List Codeword} (hp : p.Canon a) :
    (p.answerWith i req h' units).Canon a := by
  unfold Panel.answerWith
  dsimp only
  split
  exacts [.modCore hp (fun _ hk => .bump hk), .modCore hp (fun _ hk => .pushIn hk)]

theorem Panel.Canon.complete {p : Panel} {i : Issuer} {req : Header} {status : Nat} (hp : p.Canon a) :
    (p.complete i req status).Canon a :=
  .answerWith hp

theorem Panel.Canon.readAnswer {p : Panel} {i : Issuer} {req : Header} {ret status : Nat} {units : List Codeword}
    (hp : p.Canon a) : (p.readAnswer i req ret status units).Canon a :=
  .answerWith hp

theorem Panel.Canon.readRefuse {p : Panel} {i : Issuer} {req : Header} {ret status : Nat} (hp : p.Canon a) :
    (p.readRefuse i req ret status).Canon a :=
  .answerWith hp

theorem Panel.Canon.refuse {p : Panel} {i : Issuer} {x : Packet} {status : Nat} (hp : p.Canon a) :
    (p.refuse i x status).Canon a :=
  .ite (.readRefuse hp) (.ite (.complete hp) hp)

/-! ### The task sequencer's shared operations: registers, semaphores, start entries, messages, fences, task words and their
faults, reports (R63–R84). -/

theorem Core.Canon.semSat {k : Core} {n : Nat} (hk : k.Canon a) : (k.semSat n).Canon a :=
  .bump (.wr hk)

theorem Core.Canon.setSem {k : Core} {n v : Nat} (hk : k.Canon a) : (k.setSem n v).Canon a := by
  unfold Core.setSem
  dsimp only
  exact .upd hk

theorem Core.Canon.semOp {k : Core} {n mode v : Nat} (hk : k.Canon a) : (k.semOp n mode v).Canon a := by
  unfold Core.semOp
  dsimp only
  split
  · exact .ite (.semSat (.setSem hk)) (.setSem hk)
  · exact .setSem hk
  · exact .ite (.semSat (.setSem hk)) (.setSem hk)

theorem Core.Canon.setEng {k : Core} {n : Nat} {e : MatEng} (hk : k.Canon a) : (k.setEng n e).Canon a :=
  .same hk

theorem Core.Canon.setCh {k : Core} {n : Nat} {c : DmaCh} (hk : k.Canon a) : (k.setCh n c).Canon a :=
  .same hk

theorem Core.Canon.setTask {k : Core} {t : Task} (hk : k.Canon a) : (k.setTask t).Canon a := by
  unfold Core.setTask
  dsimp only
  exact .upd hk

theorem Core.Canon.modTask {k : Core} {f : Task → Task} (hk : k.Canon a) : (k.modTask f).Canon a := by
  unfold Core.modTask
  split
  exacts [hk, .setTask hk]

theorem Core.Canon.noteStatus {k : Core} {st : Nat} (hk : k.Canon a) : (k.noteStatus st).Canon a :=
  .ite hk (.modTask hk)

theorem Core.Canon.unitFault {k : Core} {pc opcode st : Nat} (hk : k.Canon a) : (k.unitFault pc opcode st).Canon a :=
  .modTask hk

theorem Core.Canon.advance {k : Core} {t : Task} (hk : k.Canon a) : (k.advance t).Canon a :=
  .foldl (fun _ _ hl => .setG hl) (.setTask hk)

theorem Core.Canon.takeStart {k : Core} {lw : Nat} {sender : StartFrom} {part : Nat} {bs : List Byte} {bad : Bool} (hk : k.Canon a) :
    (k.takeStart lw sender part bs bad).2.Canon a := by
  refine .snd_ite (.bump hk) (.snd_ite (.bump hk) ?_)
  split
  · exact .bump hk
  · refine .snd_ite (.bump hk) ?_
    split
    · exact .bump hk
    · exact .bump hk
    · exact .bump hk
    · exact .snd_ite (.bump hk) hk

theorem Panel.Canon.sendReport {p : Panel} {n : Nat} {e : StartEntry} {status cycles : Nat} {q : Panel} (hp : p.Canon a)
    (h : p.sendReport n e status cycles = some q) : q.Canon a := by
  unfold Panel.sendReport at h
  dsimp only at h
  split at h
  · cases h
  · next _ q heq =>
      have hq : q.Canon a := .of_eq (.inject hp) (congrArg Prod.snd heq)
      cases h
      exact hq
  · next _ q heq =>
      have hq : q.Canon a := .of_eq (.inject hp) (congrArg Prod.snd heq)
      cases h
      exact .modCore hq fun _ hk => .upd hk

theorem Core.Canon.recordFault {k : Core} {cause opcode status pc : Nat} (hk : k.Canon a) :
    (k.recordFault cause opcode status pc).Canon a :=
  .bump (.ite hk (.wr hk))

theorem Core.Canon.endTask {k : Core} {dial cycles : Nat} (hk : k.Canon a) : (k.endTask dial cycles).Canon a := by
  unfold Core.endTask
  dsimp only
  exact .upd (.bump (.wr hk))

/-! ### What the engines share: start checks, slots, cycle counts, undefined values and completion (R115–R118, R141, R142,
R149, R164, R174). -/

theorem Core.Canon.opEnd {k : Core} {cnt cyc : Nat} {r : RunOp} (hk : k.Canon a) : (k.opEnd cnt cyc r).Canon a :=
  .ite (.ite (.semOp (.wr (.bump hk))) (.wr (.bump hk))) (.unitFault (.wr (.bump hk)))

theorem Core.Canon.opFail {k : Core} {cnt cyc base : Nat} {q : QOp} {st : Nat} (hk : k.Canon a) :
    (k.opFail cnt cyc base q st).Canon a :=
  .opEnd hk

theorem Core.Canon.opNoSlot {k : Core} {cnt cyc base : Nat} {q : QOp} (hk : k.Canon a) : (k.opNoSlot cnt cyc base q).Canon a :=
  .opFail (.bump hk)

theorem Core.Canon.firstFault {k : Core} {reg v : Nat} (hk : k.Canon a) : (k.firstFault reg v).Canon a :=
  .ite hk (.wr hk)

theorem Core.Canon.addCounts {k : Core} {satReg nanReg : Nat} {l : List Count} (hk : k.Canon a) :
    (k.addCounts satReg nanReg l).Canon a :=
  .ite (.ite hk (.bump hk)) (.bump (.ite hk (.bump hk)))

/-! ### Slot plans, reshapes and the scrubber of a core's scratchpad (R162, R172, R176). -/

theorem Core.Canon.planWrite {k : Core} {p : Nat} {value : W64} (hk : k.Canon a) : (k.planWrite p value).Canon a :=
  .ite hk (.ite (.bump hk) (.wr hk))

theorem Core.Canon.planCtlWrite {k : Core} {p : Nat} {value : W64} (hk : k.Canon a) : (k.planCtlWrite p value).Canon a :=
  .ite hk (.ite (.ite (.wr hk) (.bump (.wr hk))) (.wr hk))

theorem Core.Canon.grpPwrWrite {k : Core} {dial : Nat} {value : W64} (hk : k.Canon a) : (k.grpPwrWrite dial value).Canon a :=
  .ite (.bump hk) (.ite hk (.ite (.upd (.wr hk)) (.bump hk)))

theorem Core.Canon.reshapeSettle {k : Core} (hk : k.Canon a) : k.reshapeSettle.Canon a := by
  unfold Core.reshapeSettle
  split
  · exact hk
  · exact .ite hk (a.core_mem hk fun _ => rfl)

theorem execReshapeSupplySettled_kept {n : Site} {s : State} : a.Kept s (execReshapeSupplySettled n s) :=
  onSite_kept fun _ hk => .reshapeSettle hk

theorem Core.Canon.reshapeEnd {k : Core} (hk : k.Canon a) : k.reshapeEnd.Canon a := by
  unfold Core.reshapeEnd
  split
  exacts [hk, .ite (.upd hk) hk]

theorem execReshapeComplete_kept {n : Site} {s : State} : a.Kept s (execReshapeComplete n s) :=
  onCore_kept fun _ hk => .reshapeEnd hk

theorem Core.Canon.patrol {k : Core} {w : At} {bank : Nat} (hk : k.Canon a) : (k.patrol w bank).Canon a := by
  unfold Core.patrol
  split
  · exact hk
  · next row _ =>
    have hr : (Core.readCws w Own.scrub (8 * row) 8 k).2.Canon a := .readCws hk
    generalize Core.readCws w Own.scrub (8 * row) 8 k = x at hr
    exact .ite hk (.ite (.same hr) (.ite (.same hr) (.same hr)))

theorem execScrubPatrol_kept {n : Site} {bank : Fin 128} {s : State} : a.Kept s (execScrubPatrol n bank s) :=
  atCore_kept fun _ _ hk hp => .setCore hp (.patrol hk)

theorem Core.Canon.writeBack {k : Core} (hk : k.Canon a) : k.writeBack.Canon a := by
  unfold Core.writeBack
  split
  · exact hk
  · exact a.core_setCws hk _ _

theorem execScrubWriteBack_kept {n : Site} {s : State} : a.Kept s (execScrubWriteBack n s) :=
  onCore_kept fun _ hk => .writeBack hk

theorem Core.Canon.spadErrClr {k : Core} {value : W64} (hk : k.Canon a) : (k.spadErrClr value).Canon a :=
  .ite (.wr hk) hk

/-! ### Ingress staging: how mesh packets reach a core's scratchpad, and how they are answered (R167–R170, R174, R183, R206). -/

theorem Core.Canon.stage {k : Core} {kind : StageKind} {x : Packet} {q : Core} (hk : k.Canon a) (h : k.stage kind x = some q) :
    q.Canon a := by
  unfold Core.stage at h
  dsimp only at h
  refine of_ite_eq h (fun h => ?_) fun h => ?_
  · cases h
    exact .upd hk
  · cases h

theorem Core.Canon.modEntry {k : Core} {e : StageEntry} {f : StageEntry → StageEntry} (hk : k.Canon a) :
    (k.modEntry e f).Canon a := by
  unfold Core.modEntry
  dsimp only
  exact .upd hk

theorem Core.Canon.doneEntry {k : Core} {e : StageEntry} {st : Nat} (hk : k.Canon a) : (k.doneEntry e st).Canon a :=
  .modEntry hk

theorem Core.Canon.doWrite {k : Core} {w : At} {e : StageEntry} (hk : k.Canon a) : (k.doWrite w e).Canon a :=
  .ite (.doneEntry (.wrote (.writeCws hk))) (.doneEntry (.asleep hk))

theorem Core.Canon.doReadTurn {k : Core} {w : At} {e : StageEntry} (hk : k.Canon a) : (k.doReadTurn w e).Canon a :=
  .ite (.modEntry (.upd (.accReadRow hk))) (.doneEntry (.asleep hk))

theorem Core.Canon.doWriteTurn {k : Core} {e : StageEntry} {type : Nat} (hk : k.Canon a) : (k.doWriteTurn e type).Canon a := by
  unfold Core.doWriteTurn
  dsimp only
  split
  exacts [hk, .doneEntry (.wrote (.accStoreRow (.upd hk)))]

theorem Core.Canon.doRead {k : Core} {w : At} {base : Nat} {e : StageEntry} (hk : k.Canon a) : (k.doRead w base e).Canon a :=
  .ite (.modEntry (.readCws hk)) (.doneEntry (.asleep hk))

theorem Core.Canon.reduceEnd {k : Core} {w : At} {h : Header} {es : List StageEntry} (hk : k.Canon a) :
    (k.reduceEnd w h es).Canon a := by
  unfold Core.reduceEnd
  split
  exacts [.ite (.semOp hk) hk, .logErr (.bump hk)]

theorem Panel.Canon.finish {p : Panel} {n pid : Nat} (hp : p.Canon a) : (p.finish n pid).Canon a := by
  unfold Panel.finish
  extract_lets k _ q
  split
  · exact hp
  · have hq : q.Canon a := .setCore hp (.upd (.ofPanel hp))
    clear_value q
    split
    · exact hq
    · exact .ite (.modCore hq fun _ hk => .reduceEnd hk) (.ite (.ite (.readRefuse hq) (.readAnswer hq)) (.complete hq))

theorem ingress_kept {s : State} {n bank : Nat} {pick : List StageEntry → Option StageEntry} {act : At → Nat → StageEntry → Core → Core}
    (hf : ∀ w b e k, k.Canon a → (act w b e k).Canon a) : a.Kept s (s.ingress n bank pick act) :=
  atCore_kept fun _ _ hk hp => by
    split
    · exact hp
    · exact .finish (.setCore hp (hf _ _ _ _ hk))

theorem execIngressWrite_kept {n : Site} {bank : Fin 128} {s : State} : a.Kept s (execIngressWrite n bank s) :=
  ingress_kept fun _ _ _ _ hk => .doWrite hk

theorem execIngressRead_kept {n : Site} {bank : Fin 128} {s : State} : a.Kept s (execIngressRead n bank s) :=
  ingress_kept fun _ _ _ _ hk => .doRead hk

theorem execAccReadTurn_kept {n : Site} {bank : Fin 128} {s : State} : a.Kept s (execAccReadTurn n bank s) :=
  ingress_kept fun _ _ _ _ hk => .doReadTurn hk

theorem execAccWriteTurn_kept {n : Site} {bank : Fin 128} {s : State} : a.Kept s (execAccWriteTurn n bank s) :=
  ingress_kept fun _ _ _ _ hk => by split; exacts [.doWriteTurn hk, hk]

theorem Core.Canon.drainLate {k : Core} (hk : k.Canon a) : k.drainLate.Canon a := .same hk

theorem Panel.Canon.finishAll {n : Nat} : ∀ {pids : List Nat} {p : Panel}, p.Canon a → (Panel.finishAll n pids p).Canon a
  | [], _, hp => hp
  | _ :: pids, _, hp => Panel.Canon.finishAll (pids := pids) (.finish hp)

theorem execReshapeDrainTimeout_kept {n : Site} {s : State} : a.Kept s (execReshapeDrainTimeout n s) :=
  atCore_kept fun _ _ hk hp => by
    split
    exacts [hp, .ite (.finishAll (.setCore hp (.drainLate hk))) hp]

/-! ### The DMA channels: descriptors and their checks, pieces, answers, completion (R213–R230, R243). -/

theorem Core.Canon.dmaFault {k : Core} {ch cause : Nat} {q : DmaQ} (hk : k.Canon a) : (k.dmaFault ch cause q).Canon a :=
  .unitFault (.firstFault hk)

theorem Core.Canon.takeDesc {k : Core} {w : At} {ch : Nat} {q : DmaQ} {rest : List DmaQ} (hk : k.Canon a) :
    (k.takeDesc w ch q rest).Canon a :=
  .ite (.setCh (.readRow hk)) (by split; exacts [.dmaFault (.setCh (.readRow hk)), .setCh (.readRow hk)])

theorem execDescriptorRead_kept {n : Site} {ch : Fin 4} {s : State} : a.Kept s (execDescriptorRead n ch s) :=
  atCore_kept fun _ _ hk hp => by dsimp only; split; exacts [.setCore hp (.takeDesc hk), hp]

theorem Core.Canon.pieceEnd {k : Core} {ch id piece bytes st : Nat} (hk : k.Canon a) :
    (k.pieceEnd ch id piece bytes st).Canon a :=
  .ite (.wrap (.setCh hk)) (.setCh hk)

theorem Core.Canon.trackReq {k : Core} {ch entry uses : Nat} {t : Track} (hk : k.Canon a) :
    (k.trackReq ch entry uses t).Canon a :=
  .setCh hk

theorem Core.Canon.trackEnd {k : Core} {ch entry : Nat} {t : Track} {st : Nat} (hk : k.Canon a) :
    (k.trackEnd ch entry t st).Canon a :=
  .ite (.setCh hk) (.pieceEnd (.setCh hk))

theorem Core.Canon.dmaCompletion {k : Core} {ch entry : Nat} {t : Track} {st : Nat} (hk : k.Canon a) :
    (k.dmaCompletion ch entry t st).Canon a :=
  .ite (.setCh hk) (.trackEnd hk)

theorem Core.Canon.dmaReadData {k : Core} {w : At} {ch entry : Nat} {t : Track} {x : Packet} (hk : k.Canon a) :
    (k.dmaReadData w ch entry t x).Canon a :=
  .ite (.trackEnd hk) (.trackEnd (.storeAt hk))

theorem Core.Canon.readPiece {k : Core} {w : At} {off n : Nat} (hk : k.Canon a) : (k.readPiece w off n).2.2.Canon a := by
  refine Core.Canon.foldl_snd_snd (fun y row hy => ?_) hk
  dsimp only
  split
  · dsimp only
    exact .readCws hy
  · exact .bump hy

theorem Core.Canon.issue {k : Core} {ch : Nat} {r : DescRun} {len : Nat} (hk : k.Canon a) : (k.issue ch r len).Canon a :=
  .setCh hk

theorem Core.Canon.issueEnd {k : Core} {ch : Nat} {r : DescRun} {len st : Nat} (hk : k.Canon a) :
    (k.issueEnd ch r len st).Canon a :=
  .pieceEnd (.issue hk)

theorem Panel.Canon.sendPiece {p : Panel} {n ch : Nat} {r : DescRun} {len st : Nat} {hd : Header} {units : List Codeword} {q : Panel}
    (hp : p.Canon a) (h : p.sendPiece n ch r len st hd units = some q) : q.Canon a := by
  unfold Panel.sendPiece at h
  dsimp only at h
  split at h
  · cases h
  · split at h
    · cases h
    · split at h
      · cases h
      · next _ q heq =>
          have hq : q.Canon a := .of_eq (.inject hp) (congrArg Prod.snd heq)
          cases h
          exact .modCore hq fun _ hk => .issueEnd hk
      · next q heq =>
          have hq : q.Canon a := .of_eq (.inject hp) (congrArg Prod.snd heq)
          cases h
          exact .modCore hq fun _ hk => .issueEnd hk
      · next _ q _ heq =>
          have hq : q.Canon a := .of_eq (.inject hp) (congrArg Prod.snd heq)
          cases h
          exact .modCore hq fun _ hk => .setCh (.issue (.trackReq hk))

theorem Panel.Canon.issuePiece {p : Panel} {n ch : Nat} {r : DescRun} {q : Panel} (hp : p.Canon a)
    (h : p.issuePiece n ch r = some q) : q.Canon a := by
  unfold Panel.issuePiece at h
  dsimp only at h
  rw [ite_eq_iff] at h
  rcases h with ⟨_, h⟩ | ⟨_, h⟩
  · exact .sendPiece hp h
  · generalize hx : (if r.desc.kind = Dk.fill then _ else _ : List (Byte × Bool) × Nat × Core) = x at h
    have hk : x.2.2.Canon a := by
      rw [← hx]
      split
      exacts [.ofPanel hp, .readPiece (.ofPanel hp)]
    split at h
    · cases h
      exact .setCore hp (.issueEnd hk)
    · split at h
      · split at h
        · cases h
        · next _ q heq =>
            have hq : q.Canon a := .of_eq (.inject (.setCore hp hk)) (congrArg Prod.snd heq)
            cases h
            exact .modCore hq fun _ hk => .issueEnd hk
        · next _ q heq =>
            have hq : q.Canon a := .of_eq (.inject (.setCore hp hk)) (congrArg Prod.snd heq)
            cases h
            exact .modCore hq fun _ hk => .issueEnd hk
      · split at h
        · cases h
          exact .setCore hp (.issueEnd (.storeAt hk))
        · exact .sendPiece (.setCore hp hk) h

theorem execDmaPieceIssue_kept {n : Site} {ch : Fin 4} {s : State} : a.Kept s (execDmaPieceIssue n ch s) :=
  atCore_kept fun _ _ _ hp => by
    split
    exacts [hp, .ite (.getD (fun _ h => .issuePiece hp h) hp) hp]

theorem Panel.Canon.startDesc {p : Panel} {n ch : Nat} {r : DescRun} (hp : p.Canon a) : (p.startDesc n ch r).Canon a :=
  .modCore hp fun _ hk => .setCh (.ite (.bump hk) hk)

theorem execDmaCopy_kept {n : Site} {ch : Fin 4} {s : State} : a.Kept s (execDmaCopy n ch s) :=
  dmaKind_kept fun _ _ hp => .startDesc hp

theorem execDmaFill_kept {n : Site} {ch : Fin 4} {s : State} : a.Kept s (execDmaFill n ch s) :=
  dmaKind_kept fun _ _ hp => .startDesc hp

theorem execDmaReduce_kept {n : Site} {ch : Fin 4} {s : State} : a.Kept s (execDmaReduce n ch s) :=
  dmaKind_kept fun _ _ hp => .startDesc hp

theorem Panel.Canon.sendRsig {p : Panel} {n ch : Nat} {r : DescRun} {q : Panel} (hp : p.Canon a)
    (h : p.sendRsig n ch r = some q) : q.Canon a := by
  unfold Panel.sendRsig at h
  dsimp only at h
  split at h
  · cases h
  · split at h
    · cases h
    · next _ q heq =>
        have hq : q.Canon a := .of_eq (.inject hp) (congrArg Prod.snd heq)
        cases h
        exact .modCore hq fun _ hk => .setCh hk
    · next _ q heq =>
        have hq : q.Canon a := .of_eq (.inject hp) (congrArg Prod.snd heq)
        cases h
        exact .modCore hq fun _ hk => .setCh (.trackReq hk)

theorem execDmaSignal_kept {n : Site} {ch : Fin 4} {s : State} : a.Kept s (execDmaSignal n ch s) :=
  dmaKind_kept fun _ _ hp => .ite (by
    dsimp only
    split
    · exact .modCore (.modCore hp fun _ hk => .setCh hk) fun _ hk => .setCh hk
    · next q heq =>
        have hq : q.Canon a := by
          refine of_ite_eq heq (fun heq => ?_) fun heq => ?_
          · exact .sendRsig (.modCore hp fun _ hk => .setCh hk) heq
          · cases heq
            exact .modCore hp fun _ hk => .setCh hk
        exact .modCore hq fun _ hk => .setCh hk) hp

theorem execDmaRequestTimeout_kept {n : Site} {ch : Fin 4} {entry : Fin 32} {s : State} :
    a.Kept s (execDmaRequestTimeout n ch entry s) :=
  atCore_kept fun _ _ hk hp => by split; exacts [hp, .ite (.setCore hp (.trackEnd (.bump hk))) hp]

theorem Core.Canon.descEnd {k : Core} {w : At} {ch : Nat} {d : DescRun} (hk : k.Canon a) : (k.descEnd w ch d).Canon a := by
  unfold Core.descEnd
  extract_lets c k1 x k2
  have h1 : k1.Canon a := .bump (.setCh hk)
  have hx : x.2.Canon a := .writeBytes h1
  have h2 : k2.Canon a := .ite (.semOp hx) hx
  exact .ite h1 (.ite h2 (.noteStatus (.bump h2)))

theorem execDmaDescriptorComplete_kept {n : Site} {ch : Fin 4} {s : State} : a.Kept s (execDmaDescriptorComplete n ch s) :=
  atCore_kept fun _ _ hk hp => by
    split
    · exact hp
    · exact .ite hp (.ite (.getD (fun _ h => .sendRsig hp h) hp) (.setCore hp (.descEnd (.ite (.bump hk) hk))))

theorem Core.Canon.dmaFaultClr {k : Core} {value : W64} (hk : k.Canon a) : (k.dmaFaultClr value).Canon a :=
  .foldl (fun _ _ hl => .ite (.wr hl) hl) hk

/-! ### The matrix engines' commands (R105–R118, R164). -/

theorem Core.Canon.noteTblk {k : Core} {eng : Nat} {l : List Nat} (hk : k.Canon a) : (k.noteTblk eng l).Canon a := by
  unfold Core.noteTblk
  split
  exacts [hk, .firstFault (.bump hk)]

theorem Core.Canon.mmRun {k : Core} {w : At} {base eng : Nat} {q : QOp} (hk : k.Canon a) : (k.mmRun w base eng q).Canon a :=
  .setEng (.ite (.noteTblk (.ite (.fetch hk) (.bump (.fetch hk)))) (.ite (.fetch hk) (.bump (.fetch hk))))

theorem Core.Canon.accZeroRun {k : Core} {eng : Nat} {q : QOp} (hk : k.Canon a) : (k.accZeroRun eng q).Canon a :=
  .setEng hk

theorem Core.Canon.accLoadRun {k : Core} {w : At} {base eng : Nat} {q : QOp} (hk : k.Canon a) :
    (k.accLoadRun w base eng q).Canon a :=
  .setEng (.fetch hk)

theorem Core.Canon.accStoreRun {k : Core} {w : At} {base eng : Nat} {q : QOp} (hk : k.Canon a) :
    (k.accStoreRun w base eng q).Canon a :=
  .setEng (.storePieces (.addCounts hk))

theorem Core.Canon.meFail {k : Core} {base eng : Nat} {q : QOp} {cause : Nat} (hk : k.Canon a) :
    (k.meFail base eng q cause).Canon a :=
  .opFail (.firstFault hk)

theorem Core.Canon.meStart {k : Core} {base eng : Nat} {kinds : Nat → Bool} {run : QOp → Core → Core} (hk : k.Canon a)
    (hrun : ∀ x' k'1, k'1.Canon a → (run x' k'1).Canon a) : (k.meStart base eng kinds run).Canon a := by
  unfold Core.meStart
  dsimp only
  split
  · exact hk
  · exact .ite hk (.ite (.opNoSlot (.setEng hk)) (by split; exacts [.meFail (.setEng hk), hrun _ _ (.setEng (.setEng hk))]))

theorem execMm_kept {n : Site} {eng : Fin 4} {s : State} : a.Kept s (execMm n eng s) :=
  eng_kept fun _ _ _ hk => .meStart hk fun _ _ hl => .mmRun hl

theorem execMv_kept {n : Site} {eng : Fin 4} {s : State} : a.Kept s (execMv n eng s) :=
  eng_kept fun _ _ _ hk => .meStart hk fun _ _ hl => .mmRun hl

theorem execAccZero_kept {n : Site} {eng : Fin 4} {s : State} : a.Kept s (execAccZero n eng s) :=
  eng_kept fun _ _ _ hk => .meStart hk fun _ _ hl => .accZeroRun hl

theorem execAccLoad_kept {n : Site} {eng : Fin 4} {s : State} : a.Kept s (execAccLoad n eng s) :=
  eng_kept fun _ _ _ hk => .meStart hk fun _ _ hl => .accLoadRun hl

theorem execAccStore_kept {n : Site} {eng : Fin 4} {s : State} : a.Kept s (execAccStore n eng s) :=
  eng_kept fun _ _ _ hk => .meStart hk fun _ _ hl => .accStoreRun hl

theorem Core.Canon.meComplete {k : Core} {eng : Nat} {xfer : Bool} (hk : k.Canon a) : (k.meComplete eng xfer).Canon a := by
  unfold Core.meComplete
  dsimp only
  split
  exacts [hk, .opEnd (.setEng hk)]

theorem execMeOpComplete_kept {n : Site} {eng : Fin 4} {xfer : Bool} {s : State} : a.Kept s (execMeOpComplete n eng xfer s) :=
  onCore_kept fun _ hk => .meComplete hk

theorem Core.Canon.meFaultClr {k : Core} {value : W64} (hk : k.Canon a) : (k.meFaultClr value).Canon a :=
  .foldl (fun _ _ hl => .ite (.wr hl) hl) hk

theorem Core.Canon.meTblkBadClr {k : Core} {value : W64} (hk : k.Canon a) : (k.meTblkBadClr value).Canon a :=
  .ite (.wr hk) hk

/-! ### Core states and their commands, heartbeats and region agents, engine gating (R43–R46, R60–R62, R409). -/

theorem Core.Canon.goTo {k : Core} {st : CoreState} (hk : k.Canon a) : (k.goTo st).Canon a := by
  unfold Core.goTo
  dsimp only
  exact .upd hk

theorem Core.Canon.drainTaps {k : Core} (hk : k.Canon a) : k.drainTaps.Canon a := by
  unfold Core.drainTaps
  split
  exacts [.ite (.bump (.upd hk)) hk, .ite (.bump (.upd hk)) hk, hk]

theorem Core.Canon.cmd {k : Core} {code : Nat} (hk : k.Canon a) : (k.cmd code).Canon a :=
  .ite (.bump hk) (.ite (.ite (.goTo (.modTask hk)) (.bump hk)) (.ite (.ite (.goTo hk) (.ite (.goTo hk) (.bump hk)))
    (.ite (.ite (.upd hk) (.bump hk)) (.ite (.ite (.drainTaps (.goTo (.noteStatus hk))) (.bump hk)) (.ite
    (.ite (.goTo hk) (.bump hk)) (.bump hk))))))

theorem execPause_kept {n : Site} {s : State} : a.Kept s (execPause n s) :=
  onSite_kept fun _ hk => .cmd hk

theorem execResume_kept {n : Site} {s : State} : a.Kept s (execResume n s) :=
  onSite_kept fun _ hk => .cmd hk

theorem execAbort_kept {n : Site} {s : State} : a.Kept s (execAbort n s) :=
  onSite_kept fun _ hk => .cmd hk

theorem execDrain_kept {n : Site} {s : State} : a.Kept s (execDrain n s) :=
  onSite_kept fun _ hk => .cmd hk

theorem execTest_kept {n : Site} {s : State} : a.Kept s (execTest n s) :=
  onSite_kept fun _ hk => .cmd hk

theorem Core.Canon.abortEnd {k : Core} {dial : Nat} (hk : k.Canon a) : (k.abortEnd dial).Canon a := by
  unfold Core.abortEnd
  dsimp only
  exact .upd (.ite hk (.bump hk))

theorem execAbortComplete_kept {n : Site} {s : State} : a.Kept s (execAbortComplete n s) :=
  atCore_kept fun _ _ hk hp => .ite (.setCore hp (.abortEnd hk)) hp

theorem Panel.Canon.cycles {p : Panel} (hp : p.Canon a) : p.cycles.2.Canon a :=
  .snd_mk (.draw hp)

theorem Panel.Canon.drainStarts {n : Nat} : ∀ {es : List StartEntry} {p : Panel}, p.Canon a → (Panel.drainStarts n es p).Canon a
  | [], _, hp => hp
  | e :: es, p, hp => by
    unfold Panel.drainStarts
    dsimp only
    split
    · exact hp
    · next q heq =>
        have hq : q.Canon a := by
          split at heq
          · exact .sendReport hp heq
          · cases heq
            exact hp
        exact Panel.Canon.drainStarts (.modCore hq fun _ hk => .same hk)

theorem Panel.Canon.drainTask {p : Panel} {n : Nat} (hp : p.Canon a) : (p.drainTask n).Canon a := by
  unfold Panel.drainTask
  split
  · exact hp
  · dsimp only
    split
    · exact .cycles hp
    · next q heq =>
        have hq : q.Canon a := by
          refine of_ite_eq heq (fun heq => ?_) fun heq => ?_
          · exact .sendReport (.cycles hp) heq
          · cases heq
            exact .cycles hp
        exact .modCore hq fun _ hk => .endTask (by split; exacts [hk, .recordFault hk])

theorem execDrainComplete_kept {n : Site} {s : State} : a.Kept s (execDrainComplete n s) :=
  atCore_kept fun _ p _ hp => by
    extract_lets p1 k p2 p3
    have h1 : p1.Canon a := .modCore hp fun _ hk => .drainTaps hk
    have h2 : p2.Canon a := .drainTask h1
    have h3 : p3.Canon a := .drainStarts h2
    exact .ite (.ite (.ite h2 (.ite (.modCore h3 fun _ hk => .goTo hk) h3)) h1) hp

theorem Panel.Canon.sendHeartbeat {p : Panel} {n : Nat} (hp : p.Canon a) : (p.sendHeartbeat n).Canon a := by
  have hk : (p.core n).Canon a := .ofPanel hp
  refine .setCore hp ?_
  split
  · exact .same hk
  · exact .ite (.same hk) (.same hk)

theorem execHeartbeat_kept {n : Site} {s : State} : a.Kept s (execHeartbeat n s) :=
  atSite_kept fun _ _ _ hp => .ite (.sendHeartbeat hp) hp

theorem Panel.Canon.reportLoss {p : Panel} {n cause : Nat} (hp : p.Canon a) : (p.reportLoss n cause).Canon a :=
  .ite hp (.logCrown (.upd hp))

theorem execCoreLossDetect_kept {n : Site} {s : State} : a.Kept s (execCoreLossDetect n s) :=
  atSite_kept fun _ _ _ hp => .ite (.reportLoss hp) hp

theorem execRegionSummary_kept {g : Region} {s : State} : a.Kept s (execRegionSummary g s) :=
  onPanel_kept fun _ hp => by split; exacts [hp, .ite (.upd hp) hp]

theorem execAgentLossDetect_kept {g : Region} {s : State} : a.Kept s (execAgentLossDetect g s) :=
  onPanel_kept fun _ hp => by split; exacts [hp, .ite (.reportLoss (.upd hp)) hp]

theorem execHeartbeatReroute_kept {n : Site} {s : State} : a.Kept s (execHeartbeatReroute n s) :=
  atSite_kept fun _ _ hk hp => .ite (.setCore hp (.upd hk)) hp

theorem execAgentAppoint_kept {g : Region} {s : State} : a.Kept s (execAgentAppoint g s) :=
  onPanel_kept fun _ hp => by split; exacts [.upd hp, hp]

theorem execEngineGate_kept {n : Site} {s : State} : a.Kept s (execEngineGate n s) :=
  atSite_kept fun _ _ hk hp => .ite (.setCore hp (.upd hk)) hp

theorem execEngineWake_kept {n : Site} {s : State} : a.Kept s (execEngineWake n s) :=
  onCore_kept fun _ hk => .ite (.upd hk) hk

/-! ### Routers at work: the hop layer, unicast hops, multicast trees, in-network reduction, link faults and route maps (R182,
R187–R196, R199–R208). -/

theorem Core.Canon.setLink {k : Core} {port : Nat} {l : LinkState} (hk : k.Canon a) : (k.setLink port l).Canon a := by
  unfold Core.setLink
  dsimp only
  exact .upd hk

theorem Core.Canon.sendFlits {k : Core} {port : Nat} {x : Packet} (hk : k.Canon a) : (k.sendFlits port x).Canon a :=
  .wrap (.setLink hk)

theorem Core.Canon.recvFlits {k : Core} {port n : Nat} (hk : k.Canon a) : (k.recvFlits port n).Canon a :=
  .setLink hk

theorem Core.Canon.assemble {port : Nat} : ∀ {n : Nat} {k : Core}, k.Canon a → (Core.assemble port n k).Canon a
  | 0, _, hk => hk
  | n + 1, k, hk => by
    unfold Core.assemble
    split
    · exact hk
    · exact Core.Canon.assemble (.pushIn (.setLink hk))

theorem Panel.Canon.flitIn {p : Panel} {n port : Nat} {f : Flit} (hp : p.Canon a) : (p.flitIn n port f).Canon a :=
  .ite hp (.ite (.ite (.emit (.setCore hp (.assemble (.setLink (.ofPanel hp))))) (.setCore hp
    (.assemble (.setLink (.ofPanel hp))))) (.ite hp (.emit (.setCore hp (.setLink (.ofPanel hp))))))

theorem execFlitReceive_kept {n : Site} {port : Fin 8} {flit : BitVec 2048} {s : State} :
    a.Kept s (execFlitReceive n port flit s) :=
  atCore_kept fun _ _ _ hp => .flitIn hp

theorem execFlitReplay_kept {n : Site} {port : Fin 8} {s : State} : a.Kept s (execFlitReplay n port s) :=
  atCore_kept fun _ _ hk hp => by
    dsimp only
    split
    exacts [hp, .foldl (fun _ _ hq => .emit hq) (.setCore hp (.bump (.setLink hk)))]

theorem Panel.Canon.toEdge {p : Panel} {n which : Nat} {x : Packet} {q : Panel} (hp : p.Canon a)
    (h : p.toEdge n which x = some q) : q.Canon a := by
  unfold Panel.toEdge at h
  dsimp only at h
  split at h
  · cases h
  · refine of_ite_eq h (fun h => ?_) fun h => ?_
    · cases h
      exact .modHub hp fun _ hk => .upd hk
    · cases h
  · refine of_ite_eq h (fun h => ?_) fun h => ?_
    · cases h
      exact .modPort hp
    · cases h
  · refine of_ite_eq h (fun h => ?_) fun h => ?_
    · cases h
      exact .modCrown hp
    · cases h

theorem Panel.Canon.moveTo {p : Panel} {n port m : Nat} {x : Packet} {q : Panel} (hp : p.Canon a)
    (h : p.moveTo n port m x = some q) : q.Canon a := by
  unfold Panel.moveTo at h
  dsimp only at h
  refine of_ite_eq h (fun h => ?_) fun h => ?_
  · cases h
    exact .modCore (.modCore hp fun _ hk => .sendFlits hk) fun _ hk => .pushIn (.recvFlits hk)
  · cases h

theorem Panel.Canon.toCore {p : Panel} {n : Nat} {x : Packet} {q : Panel} (hp : p.Canon a) (h : p.toCore n x = some q) :
    q.Canon a := by
  unfold Panel.toCore at h
  dsimp only at h
  refine of_ite_eq h (fun h => ?_) fun h => ?_
  · cases h
    exact .modCore hp fun _ hk => .pushArr hk
  · cases h

theorem Panel.Canon.discard {p : Panel} {n : Nat} {x : Packet} (hp : p.Canon a) : (p.discard n x).Canon a :=
  .ite (.modCore hp fun _ hk => .bump hk) (.refuse (.modCore hp fun _ hk => .bump hk))

theorem Panel.Canon.forward {p : Panel} {n : Nat} {x : Packet} {q : Panel} (hp : p.Canon a) (h : p.forward n x = some q) :
    q.Canon a := by
  unfold Panel.forward at h
  split at h
  · exact .toCore hp h
  · refine of_ite_eq h (fun h => ?_) fun h => ?_
    · obtain ⟨r, hr, rfl⟩ := Option.map_eq_some_iff.1 h
      exact .modCore (Panel.Canon.toEdge hp hr) fun _ hk => .sendFlits hk
    · cases h
      exact .discard hp
  · exact .moveTo hp h
  · cases h
    exact .discard hp

theorem Core.Canon.noteCombine {k : Core} {w : At} {tag : Nat} {r : CwRead} (hk : k.Canon a) :
    (k.noteCombine w tag r).Canon a := by
  unfold Core.noteCombine
  split
  exacts [hk, .logErr hk, .logErr hk]

theorem Core.Canon.contribute {k : Core} {w : At} {e : Nat} {x : Packet} (hk : k.Canon a) : (k.contribute w e x).Canon a := by
  unfold Core.contribute
  dsimp only
  exact .upd (.foldl (fun _ _ hl => .noteCombine hl) hk)

theorem Panel.Canon.sendRound {p : Panel} {n e : Nat} {q : Panel} (hp : p.Canon a) (h : p.sendRound n e = some q) :
    q.Canon a := by
  unfold Panel.sendRound at h
  dsimp only at h
  split at h
  · cases h
  · obtain ⟨r, hr, rfl⟩ := Option.map_eq_some_iff.1 h
    exact .modCore (Panel.Canon.forward hp hr) fun _ hk => .upd hk

theorem Panel.Canon.trySend {p : Panel} {n e : Nat} (hp : p.Canon a) : (p.trySend n e).Canon a := by
  unfold Panel.trySend
  split
  exacts [hp, .ite (.getD (fun _ h => .sendRound hp h) hp) hp]

theorem execReduce_kept {n : Site} {input : Fin 9} {s : State} : a.Kept s (execReduce n input s) :=
  atCore_kept fun _ _ hk hp => by
    split
    · exact hp
    · refine .ite hp ?_
      split
      · exact .trySend (.setCore hp (.popIn (.contribute hk)))
      · split
        exacts [hp, .trySend hp]
      · exact hp

theorem execReduceRoundTimeout_kept {n : Site} {e : Fin 64} {s : State} : a.Kept s (execReduceRoundTimeout n e s) :=
  atCore_kept fun _ _ _ hp => by
    split
    · exact hp
    · exact .ite (by
        split
        · exact hp
        · next q heq =>
            have hq : q.Canon a := .sendRound hp heq
            exact .modCore hq fun _ hl => .bump (.wr hl)) hp

theorem Core.Canon.redWrite {k : Core} {e : Nat} {value : W64} (hk : k.Canon a) : (k.redWrite e value).Canon a :=
  .ite (.bump hk) (.wr hk)

theorem Panel.Canon.mcDiscard {p : Panel} {n : Nat} {x : Packet} {ts : List McTarget} (hp : p.Canon a) :
    (p.mcDiscard n x ts).Canon a :=
  .foldl (fun _ _ hq => .complete hq) (.modCore hp fun _ hk => .bump hk)

theorem Panel.Canon.mcSend {p : Panel} {n : Nat} {x : Packet} {port : Nat} {ts : List McTarget} {q : Panel} (hp : p.Canon a)
    (h : p.mcSend n x port ts = some q) : q.Canon a := by
  unfold Panel.mcSend at h
  dsimp only at h
  refine of_ite_eq h (fun h => ?_) fun h => ?_
  · exact .toCore hp h
  · split at h
    · exact .moveTo hp h
    · cases h
      exact .mcDiscard hp

theorem Panel.Canon.mcServe {n : Nat} {x : Packet} : ∀ {outs : List (Nat × List McTarget)} {done : List Nat} {p : Panel},
    p.Canon a → (Panel.mcServe n x outs done p).2.Canon a
  | [], _, _, hp => hp
  | (i, ts) :: outs, done, p, hp => by
    unfold Panel.mcServe
    split
    · exact Panel.Canon.mcServe hp
    · split
      · exact Panel.Canon.mcServe hp
      · next q heq => exact Panel.Canon.mcServe (.mcSend hp heq)

theorem Panel.Canon.mcHop {p : Panel} {n input : Nat} {x : Packet} (hp : p.Canon a) : (p.mcHop n input x).Canon a :=
  .ite (.setCore (.mcServe hp) (.popIn (.ofPanel (.mcServe hp)))) (.setCore (.mcServe hp) (.upd (.ofPanel (.mcServe hp))))

theorem Core.Canon.passCounts {k : Core} {miss mismatch : Bool} (hk : k.Canon a) : (k.passCounts miss mismatch).Canon a :=
  .ite (.bump (.ite (.bump hk) hk)) (.ite (.bump hk) hk)

theorem Panel.Canon.hop {p : Panel} {n input v : Nat} (hp : p.Canon a) : (p.hop n input v).Canon a := by
  unfold Panel.hop
  dsimp only
  split
  · exact hp
  · refine .ite (.setCore hp (.logErr (.bump (.popIn (.ofPanel hp))))) (.ite (.mcHop hp) ?_)
    split
    · split
      · exact hp
      · next q heq =>
          have hq : q.Canon a := .forward hp heq
          exact .modCore hq fun _ hk => .passCounts (.popIn hk)
    · exact hp

theorem Panel.Canon.purgeBuf {n i v : Nat} : ∀ {xs : List Packet} {p : Panel}, p.Canon a → (Panel.purgeBuf n i v xs p).2.Canon a
  | [], _, hp => hp
  | x :: xs, p, hp => by
    unfold Panel.purgeBuf
    split
    · exact Panel.Canon.purgeBuf (.discard hp)
    · exact Panel.Canon.purgeBuf hp

theorem Panel.Canon.purge {p : Panel} {n : Nat} (hp : p.Canon a) : (p.purge n).Canon a := by
  unfold Panel.purge
  generalize ([8, 0, 1, 2, 3, 4, 5, 6, 7].flatMap fun i => [0, 1, 2, 3].map fun v => (i, v)) = bufs
  exact .foldl (fun _ _ hp => .modCore (.purgeBuf (.modCore hp fun _ hk => .same hk)) fun _ hk => .same hk) hp

theorem Core.Canon.linkEnd {k : Core} {port : Nat} (hk : k.Canon a) : (k.linkEnd port).Canon a :=
  .setLink hk

theorem Panel.Canon.linkDown {p : Panel} {n port : Nat} (hp : p.Canon a) : (p.linkDown n port).Canon a := by
  unfold Panel.linkDown
  extract_lets down q
  have hdown : ∀ (p : Panel) (n port : Nat), p.Canon a → (down p n port).Canon a := fun _ _ _ hp =>
    .purge (.logCore (.modCore hp fun _ hk => .linkEnd hk))
  have hq : q.Canon a := hdown p n port hp
  clear_value down q
  split
  exacts [hq, .ite (hdown _ _ _ hq) hq]

theorem execLinkDown_kept {n : Site} {port : Fin 8} {s : State} : a.Kept s (execLinkDown n port s) :=
  atSite_kept fun _ _ _ hp => .ite (.linkDown hp) hp

theorem execLaneRepair_kept {n : Site} {port : Fin 8} {module : Fin 4} {lane : Nat} {s : State} :
    a.Kept s (execLaneRepair n port module lane s) :=
  onSite_kept fun _ hk => .ite (.setLink hk) hk

theorem execLaneRepairDone_kept {n : Site} {port : Fin 8} {module : Fin 4} {repaired : Bool} {s : State} :
    a.Kept s (execLaneRepairDone n port module repaired s) :=
  atSite_kept fun _ _ hk hp => by
    dsimp only
    split
    · exact hp
    · exact .ite hp (.ite (.setCore hp (.bump (.setLink (.logErr hk)))) (.ite (.linkDown (.setCore hp (.setLink (.logErr hk))))
        (.setCore hp (.setLink (.logErr hk)))))

theorem Core.Canon.injWrite {k : Core} {v : Nat} {value : W64} (hk : k.Canon a) : (k.injWrite v value).Canon a :=
  .ite hk (.ite (.bump hk) (.wr hk))

theorem execThrottleLevelEnd_kept {n : Site} {v : Fin 4} {s : State} : a.Kept s (execThrottleLevelEnd n v s) :=
  onCore_kept fun _ hk => .upd hk

theorem Panel.Canon.writeMap {p : Panel} {n : Nat} (hp : p.Canon a) : (p.writeMap n).Canon a := by
  refine .modCore hp fun k hk => ?_
  dsimp only
  generalize hl : List.foldl _ k _ = l
  have h : l.Canon a := hl ▸ .foldl (fun _ _ hk => .wr hk) hk
  exact .same h

theorem Panel.Canon.writeMaps {p : Panel} (hp : p.Canon a) : p.writeMaps.Canon a :=
  .foldl (fun _ _ hq => .writeMap hq) hp

/-! ### A hub and its stack: stored codewords, reads and writes, bands and seals, sections, scrubbing, temperature (R287–R299,
R238, R239). -/

theorem Hub.Canon.store {k : Hub} {n : Nat} {data : List Byte} {poison : Bool} (hk : k.Canon a) :
    (k.store n data poison).Canon a :=
  a.hub_setCw hk _ _

theorem Hub.Canon.firstBad {k : Hub} {src off : Nat} (hk : k.Canon a) : (k.firstBad src off).Canon a :=
  .ite hk (.wr hk)

theorem Hub.Canon.logErr {k : Hub} {dial h : Nat} {i : LogItem} (hk : k.Canon a) : (k.logErr dial h i).Canon a :=
  .ite (.upd hk) (.bump hk)

theorem Hub.Canon.queueWb {k : Hub} {g : Nat} (hk : k.Canon a) : (k.queueWb g).Canon a :=
  .ite hk (.ite (.upd hk) (.bump hk))

theorem Hub.Canon.noteCorr {k : Hub} {w : HubAt} {n : Nat} (hk : k.Canon a) : (k.noteCorr w n).Canon a :=
  .logErr (.bump hk)

theorem Hub.Canon.noteBad {k : Hub} {w : HubAt} {n : Nat} (hk : k.Canon a) : (k.noteBad w n).Canon a := by
  unfold Hub.noteBad
  dsimp only
  exact .upd (.logErr (.firstBad hk))

theorem Hub.Canon.noteRead {k : Hub} {w : HubAt} {n : Nat} {r : CwRead} (hk : k.Canon a) : (k.noteRead w n r).Canon a := by
  unfold Hub.noteRead
  split
  exacts [hk, .queueWb (.noteCorr hk), .bump (.noteBad hk)]

theorem Hub.Canon.readCws {w : HubAt} : ∀ {n m : Nat} {k : Hub}, k.Canon a → (Hub.readCws w n m k).2.Canon a
  | _, 0, _, hk => hk
  | n, m + 1, _, hk => Hub.Canon.readCws (n := n + 1) (m := m) (.wrap (.noteRead hk))

theorem Hub.Canon.touched {k : Hub} {n : Nat} (hk : k.Canon a) : (k.touched n).Canon a :=
  .wrap (.upd hk)

theorem Hub.Canon.writeCw {k : Hub} {w : HubAt} {n : Nat} {l : List MByte} (hk : k.Canon a) : (k.writeCw w n l).2.Canon a := by
  refine .snd_ite hk (.snd_ite (.snd_mk (.touched (.store hk))) ?_)
  dsimp only
  split
  · exact .snd_mk (.touched (.store (.wrap hk)))
  · exact .snd_mk (.touched (.store (.noteCorr (.wrap hk))))
  · exact .snd_mk (.touched (.bump (.store (.noteBad (.wrap hk)))))

theorem Hub.Canon.writeCws :
    ∀ {w : HubAt} {n m : Nat} {l : List MByte} {k : Hub}, k.Canon a → (Hub.writeCws w n m l k).2.Canon a
  | _, 0, _, _, _, hk => hk
  | _, m + 1, _, _, _, hk => by
    unfold Hub.writeCws
    dsimp only
    exact .snd_mk (.writeCws (.writeCw hk))

theorem Hub.Canon.writeBytes {k : Hub} {w : HubAt} {off : Nat} {l : List MByte} (hk : k.Canon a) :
    (k.writeBytes w off l).2.Canon a :=
  .writeCws hk

theorem Hub.Canon.breakUnopened {k : Hub} {off len : Nat} (hk : k.Canon a) : (k.breakUnopened off len).Canon a :=
  .same hk

theorem Hub.Canon.sectionWrite {k : Hub} {off len : Nat} {writer : Nat × Nat × Nat} (hk : k.Canon a) :
    (k.sectionWrite off len writer).Canon a := by
  unfold Hub.sectionWrite
  dsimp only
  exact .upd hk

theorem Hub.Canon.rewrite : ∀ {n m : Nat} {k : Hub}, k.Canon a → (Hub.rewrite n m k).Canon a
  | _, 0, _, hk => hk
  | _, m + 1, _, hk => by
    unfold Hub.rewrite
    dsimp only
    exact .rewrite (.ite (.store hk) hk)

theorem execHubWriteBack_kept {h : HubIx} {s : State} : a.Kept s (execHubWriteBack h s) :=
  onPanel_kept fun _ hp => by
    dsimp only
    split
    exacts [hp, .ite hp (.setHub hp (.rewrite (.upd (.ofPanel hp))))]

theorem Hub.Canon.patrolStep {k : Hub} {dial h : Nat} (hk : k.Canon a) : (k.patrolStep dial h).Canon a :=
  .ite hk (.ite (.upd (.readCws hk)) (.upd (.readCws hk)))

theorem execHubPatrol_kept {h : HubIx} {s : State} : a.Kept s (execHubPatrol h s) :=
  onPanel_kept fun _ hp => .modHub hp fun _ hk => .patrolStep hk

theorem Hub.Canon.tempRead {k : Hub} {dial celsius : Nat} (hk : k.Canon a) : (k.tempRead dial celsius).Canon a :=
  .wr (.upd (.ite (.bump hk) hk))

theorem execHubTempRead_kept {h : HubIx} {celsius : Nat} {s : State} : a.Kept s (execHubTempRead h celsius s) :=
  onPanel_kept fun _ hp => .modHub hp fun _ hk => .ite hk (.tempRead hk)

theorem execHbmRefresh_kept {h : HubIx} {pc : Fin 64} {s : State} :
    a.Kept s (execHbmRefresh h pc s) := onPanel_kept fun _ hp => hp

theorem execHubHeartbeat_kept {h : HubIx} {s : State} : a.Kept s (execHubHeartbeat h s) :=
  onPanel_kept fun _ hp => .ite (.setHub hp (.upd (.ofPanel hp))) hp

theorem Hub.Canon.errClr {k : Hub} {value : W64} (hk : k.Canon a) : (k.errClr value).Canon a :=
  .ite (.wr hk) hk

theorem Hub.Canon.bandWrite {k : Hub} {q : Nat} {value : W64} (hk : k.Canon a) : (k.bandWrite q value).Canon a :=
  .ite (.bump hk) (.wr hk)

/-! ### Hub commands and the hub ring (R300–R306). -/

theorem Panel.Canon.hubSend {p : Panel} {hub slot use part : Nat} {hd : Header} {units : List Codeword} {q : Option Nat × Panel}
    (hp : p.Canon a) (h : p.hubSend hub slot use part hd units = some q) : q.2.Canon a := by
  unfold Panel.hubSend at h
  dsimp only at h
  split at h
  · cases h
  · next _ q heq =>
      have hq : q.Canon a := .of_eq (.inject hp) (congrArg Prod.snd heq)
      cases h
      exact hq
  · next _ q heq =>
      have hq : q.Canon a := .of_eq (.inject hp) (congrArg Prod.snd heq)
      cases h
      exact .snd_mk (.modHub hq fun _ hk => .upd hk)

theorem Hub.Canon.setCmd {k : Hub} {slot : Nat} {c : HubCmd} (hk : k.Canon a) : (k.setCmd slot c).Canon a :=
  .same hk

theorem Hub.Canon.modCmd {k : Hub} {slot : Nat} {f : HubCmd → HubCmd} (hk : k.Canon a) : (k.modCmd slot f).Canon a := by
  unfold Hub.modCmd
  split
  exacts [hk, .setCmd hk]

theorem Hub.Canon.freeCmd {k : Hub} {slot : Nat} (hk : k.Canon a) : (k.freeCmd slot).Canon a :=
  .bump (.upd hk)

theorem Hub.Canon.refuseCmd {k : Hub} {slot st : Nat} (hk : k.Canon a) : (k.refuseCmd slot st).Canon a :=
  .bump (.modCmd hk)

theorem Hub.Canon.gotWords {k : Hub} {slot : Nat} {bs : List Byte} (hk : k.Canon a) : (k.gotWords slot bs).Canon a :=
  .ite (.refuseCmd (.modCmd hk)) (.modCmd hk)

theorem Panel.Canon.sendCmdRead {p : Panel} {h slot : Nat} {c : HubCmd} {failed : Panel → Panel} (hp : p.Canon a)
    (hfailed : ∀ q, q.Canon a → (failed q).Canon a) : (p.sendCmdRead h slot c failed).Canon a := by
  unfold Panel.sendCmdRead
  split
  · exact hp
  · next _ q heq =>
      have hq : q.Canon a := .hubSend hp heq
      exact hfailed _ hq
  · next q heq =>
      have hq : q.Canon a := .hubSend hp heq
      exact .modHub hq fun _ hk => .modCmd hk

theorem Panel.Canon.readCmd {p : Panel} {h slot : Nat} {c : HubCmd} (hp : p.Canon a) : (p.readCmd h slot c).Canon a := by
  unfold Panel.readCmd
  extract_lets cls failed k
  have hfailed : ∀ q : Panel, q.Canon a → (failed q).Canon a := fun _ hq => .modHub hq fun _ hk => .bump (.freeCmd hk)
  clear_value failed
  refine .ite (hfailed _ hp) ?_
  split
  · exact hfailed _ (.modHub hp fun _ hk => .bump hk)
  · refine .ite ?_ (.sendCmdRead hp hfailed)
    extract_lets x
    have hx : x.2.Canon a := .readCws (.ofPanel hp)
    split
    · exact hfailed _ (.modHub hp fun _ hk => .bump hk)
    · exact .ite (hfailed _ (.setHub hp hx)) (.setHub hp (.gotWords hx))
  · exact .sendCmdRead hp hfailed

theorem Panel.Canon.hubTake : ∀ {h n : Nat} {p : Panel}, p.Canon a → (Panel.hubTake h n p).Canon a
  | _, 0, _, hp => hp
  | _, n + 1, _, hp => by
    unfold Panel.hubTake
    dsimp only
    split
    exacts [.hubTake (.readCmd (.setHub hp (.setCmd (.upd (.ofPanel hp))))), hp]

theorem Panel.Canon.hubRetry {p : Panel} {h : Nat} (hp : p.Canon a) : (p.hubRetry h).Canon a :=
  .foldl (fun _ _ hq => .readCmd hq) hp

theorem Hub.Canon.cmdRead {k : Hub} {w : HubAt} {n : Nat} (hk : k.Canon a) : (k.cmdRead w n).2.2.Canon a :=
  .snd_mk (.wrap (.noteRead hk))

theorem Hub.Canon.copyCws : ∀ {w : HubAt} {n m i : Nat} {c : HubCmd} {k : Hub}, k.Canon a → (Hub.copyCws w n m i c k).2.Canon a
  | _, _, _, 0, _, _, hk => hk
  | _, _, _, m + 1, _, _, hk => by
    unfold Hub.copyCws
    dsimp only
    exact .copyCws (.touched (.store (.cmdRead hk)))

theorem Hub.Canon.zeroCws : ∀ {n m : Nat} {k : Hub}, k.Canon a → (Hub.zeroCws n m k).Canon a
  | _, 0, _, hk => hk
  | _, m + 1, _, hk => by
    unfold Hub.zeroCws
    exact .zeroCws (.touched (.store hk))

theorem Hub.Canon.digestCws :
    ∀ {w : HubAt} {n m : Nat} {c : HubCmd} {k : Hub}, k.Canon a → (Hub.digestCws w n m c k).2.2.Canon a
  | _, _, 0, _, _, hk => hk
  | _, _, m + 1, _, _, hk => by
    unfold Hub.digestCws
    dsimp only
    split
    exacts [.snd_mk (.cmdRead hk), .snd_mk (.digestCws (.cmdRead hk))]

theorem Hub.Canon.scrubCws : ∀ {w : HubAt} {n m : Nat} {c : HubCmd} {k : Hub}, k.Canon a → (Hub.scrubCws w n m c k).2.Canon a
  | _, _, 0, _, _, hk => hk
  | _, _, m + 1, _, _, hk => by
    unfold Hub.scrubCws
    dsimp only
    exact .scrubCws (.ite (.store (.cmdRead hk)) (.cmdRead hk))

theorem Panel.Canon.hubStart {p : Panel} {h op : Nat} {f : Nat → HubCmd → Ranges → Panel → Panel} (hp : p.Canon a)
    (hf : ∀ slot c r q, q.Canon a → (f slot c r q).Canon a) : (p.hubStart h op f).Canon a := by
  refine .ite (.hubRetry hp) ?_
  split
  · exact .hubRetry hp
  · refine .ite (.hubRetry hp) ?_
    split
    · exact .modHub (.hubRetry hp) fun _ hk => .refuseCmd (.foldl (fun _ _ hl => .bump hl) hk)
    · exact hf _ _ _ _ (.hubRetry hp)

theorem Panel.Canon.cmdWrite {p : Panel} {h slot off len : Nat} {c : HubCmd} {f : Hub → HubCmd × Hub} (hp : p.Canon a)
    (hf : ∀ k, k.Canon a → (f k).2.Canon a) : (p.cmdWrite h slot off len c f).Canon a :=
  .ite (.setHub hp (.setCmd (.breakUnopened (.ofPanel hp)))) (.setHub hp (.setCmd (.sectionWrite (hf _ (.ofPanel hp)))))

theorem Panel.Canon.startCopy {p : Panel} {h slot : Nat} {c : HubCmd} {r : Ranges} (hp : p.Canon a) :
    (Panel.startCopy h slot c r p).Canon a := by
  unfold Panel.startCopy
  split
  · exact .ite (.cmdWrite hp fun _ hk => .copyCws hk) (.modHub hp fun _ hk => .setCmd (.ite (.bump hk) hk))
  · exact hp

/-- What a COPY has read leaves its hub canonical. -/
theorem Hub.Canon.copyRead {c : HubCmd} {w : HubAt} {o m : Nat} {x : List Codeword × HubCmd × Hub} (hx : x.2.2.Canon a) :
    ((List.range m).foldl (fun (acc : List Codeword × HubCmd × Hub) i =>
      let (r, d, k) := acc.2.2.cmdRead w (o + c.next + i)
      (acc.1 ++ [Codeword.fresh d.data (r == .bad)], acc.2.1.sawRead r, k)) x).2.2.Canon a :=
  .foldl_snd_snd (f := fun (acc : List Codeword × HubCmd × Hub) i =>
    let (r, d, k) := acc.2.2.cmdRead w (o + c.next + i)
    (acc.1 ++ [Codeword.fresh d.data (r == .bad)], acc.2.1.sawRead r, k)) (fun _ _ hy => Hub.Canon.cmdRead hy) hx

theorem Panel.Canon.detour {h : Nat} : ∀ {n : Nat} {p : Panel}, p.Canon a → (Panel.detour h n p).Canon a
  | 0, _, hp => hp
  | n + 1, p, hp => by
    unfold Panel.detour
    extract_lets k
    split
    · exact hp
    · extract_lets dst m
      split
      · exact .setHub hp (.setCmd (.ofPanel hp))
      · extract_lets rd c next
        have hrd : rd.2.2.Canon a := .copyRead (.ofPanel hp)
        split
        · exact hp
        · next _ q heq =>
          have hq : q.Canon a := .hubSend (.setHub hp hrd) heq
          exact .modHub hq fun _ hk => .setCmd hk
        · next q heq =>
          have hq : q.Canon a := .hubSend (.setHub hp hrd) heq
          exact Panel.Canon.detour (.modHub hq fun _ hk => .setCmd hk)

theorem execHubCopy_kept {h : HubIx} {s : State} : a.Kept s (execHubCopy h s) :=
  onPanel_kept fun _ hp => .detour (.hubStart hp fun _ _ _ _ hq => .startCopy hq)

theorem execHubZero_kept {h : HubIx} {s : State} : a.Kept s (execHubZero h s) :=
  onPanel_kept fun _ hp => .hubStart hp fun _ _ _ _ hp => by
    split
    exacts [.cmdWrite hp fun _ hk => .zeroCws hk, hp]

theorem Panel.Canon.digestOut {p : Panel} {h slot : Nat} {c : HubCmd} {d : List Byte} {k : Hub} (hp : p.Canon a)
    (hk : k.Canon a) : (execHubDigest.digestOut p h slot c d k).Canon a := by
  unfold execHubDigest.digestOut
  split
  · exact hp
  · next _ q heq =>
      have hq : q.Canon a := .hubSend (.setHub hp hk) heq
      exact .modHub hq fun _ hl => .setCmd hl
  · next q heq =>
      have hq : q.Canon a := .hubSend (.setHub hp hk) heq
      exact .modHub hq fun _ hl => .setCmd hl

theorem execHubDigest_kept {h : HubIx} {s : State} : a.Kept s (execHubDigest h s) :=
  onPanel_kept fun _ hp => .ite hp (.hubStart hp fun _ _ _ q hq => by
    split
    · exact hq
    · extract_lets x c d
      have hx : x.2.2.Canon a := .digestCws (.ofPanel hq)
      refine .ite (.setHub hq (.setCmd hx)) ?_
      split
      · exact .ite (.cmdWrite (.setHub hq hx) fun _ hk => .writeBytes hk) (.digestOut hq hx)
      · exact .digestOut hq hx)

theorem execHubScrub_kept {h : HubIx} {s : State} : a.Kept s (execHubScrub h s) :=
  onPanel_kept fun _ hp => .hubStart hp fun _ _ _ _ hq => by split; exacts [hq, .setHub hq (.setCmd
    (.upd (.scrubCws (.ofPanel hq))))]

theorem Hub.Canon.setRing {k : Hub} {clockwise : Bool} {l : List RingItem} (hk : k.Canon a) : (k.setRing clockwise l).Canon a :=
  .same hk

theorem Panel.Canon.ringSend {p : Panel} {hub : Nat} {clockwise : Bool} {x : RingItem} {q : Panel} (hp : p.Canon a)
    (h : p.ringSend hub clockwise x = some q) : q.Canon a := by
  unfold Panel.ringSend at h
  dsimp only at h
  refine of_ite_eq h (fun h => ?_) fun h => ?_
  · cases h
  · cases h
    exact .setHub hp (.setRing (.ofPanel hp))

theorem Panel.Canon.ringOwn {p : Panel} {h' : Nat} {clockwise : Bool} (hp : p.Canon a) : (p.ringOwn h' clockwise).Canon a := by
  unfold Panel.ringOwn
  dsimp only
  split
  · exact hp
  · split
    · exact .getD (fun _ h => .ringSend (.setHub hp (.setCmd (.cmdRead (.ofPanel hp)))) h) hp
    · exact .setHub hp (.setCmd (.ofPanel hp))

theorem Panel.Canon.ringTake {p : Panel} {h : Nat} {clockwise : Bool} (hp : p.Canon a) : (p.ringTake h clockwise).Canon a := by
  unfold Panel.ringTake
  extract_lets k
  split
  · exact hp
  · extract_lets q take
    have hq : q.Canon a := .setHub hp (.setRing (.ofPanel hp))
    have htake : ∀ q : Panel, q.Canon a → (take q).Canon a := fun _ hq =>
      .modHub hq fun _ hk => .sectionWrite (.touched (.store hk))
    clear_value take q
    refine .ite (.getD (fun _ h => .ringSend hq h) hp) (.ite (.modHub hq fun _ hk => .modCmd hk) (.ite ?_ (htake _ hq)))
    split
    · exact hp
    · next heq => exact htake _ (.ringSend hq heq)

theorem execHubRingCodeword_kept {h : HubIx} {clockwise own : Bool} {s : State} :
    a.Kept s (execHubRingCodeword h clockwise own s) :=
  onPanel_kept fun _ hp => .ite hp (.ite (.ringOwn hp) (.ringTake hp))

theorem Panel.Canon.writeWord7 {p : Panel} {h slot : Nat} {c : HubCmd} (hp : p.Canon a) : (p.writeWord7 h slot c).Canon a := by
  unfold Panel.writeWord7
  dsimp only
  split
  · exact .ite (by
      split
      · exact hp
      · next _ q heq =>
          have hq : q.Canon a := .hubSend hp heq
          exact .modHub hq fun _ hk => .setCmd hk
      · next q heq =>
          have hq : q.Canon a := .hubSend hp heq
          exact .modHub hq fun _ hk => .setCmd hk) (by
            split
            · exact .modHub (.modHub hp fun _ hk => .bump hk) fun _ hk => .setCmd hk
            · exact .modHub (.modHub hp fun _ hk => .writeBytes hk) fun _ hk => .setCmd hk)
  · split
    · exact hp
    · next _ q heq =>
        have hq : q.Canon a := .hubSend hp heq
        exact .modHub hq fun _ hk => .setCmd hk
    · next q heq =>
        have hq : q.Canon a := .hubSend hp heq
        exact .modHub hq fun _ hk => .setCmd hk

theorem Panel.Canon.notify {p : Panel} {hub slot : Nat} {c : HubCmd} {q : Panel} (hp : p.Canon a)
    (h : p.notify hub slot c = some q) : q.Canon a := by
  unfold Panel.notify at h
  refine of_ite_eq h (fun h => ?_) fun h => ?_
  · cases h
    exact hp
  · dsimp only at h
    obtain ⟨r, hr, rfl⟩ := Option.map_eq_some_iff.1 h
    exact (Panel.Canon.hubSend hp hr)

theorem execHubCmdComplete_kept {h : HubIx} {slot : Fin 4} {s : State} : a.Kept s (execHubCmdComplete h slot s) :=
  onPanel_kept fun _ hp => by
    dsimp only
    split
    · exact hp
    · refine .ite hp ?_
      split
      · exact .ite (.writeWord7 hp) hp
      · refine .ite (.ite (.writeWord7 hp) hp) ?_
        split
        · exact .ite (.writeWord7 hp) hp
        · next q heq =>
            have hq : q.Canon a := .notify (.ite (.writeWord7 hp) hp) heq
            exact .hubTake (.modHub hq fun _ hk => .freeCmd hk)

theorem Panel.Canon.hubAnswer {p : Panel} {h : Nat} {x : Packet} (hp : p.Canon a) : (p.hubAnswer h x).Canon a := by
  unfold Panel.hubAnswer
  dsimp only
  split
  · exact hp
  · split
    · exact .ite (.setHub hp (.gotWords (.upd (.ofPanel hp)))) (.hubTake (.setHub hp (.bump (.freeCmd (.upd (.ofPanel hp))))))
    · exact .setHub hp (.modCmd (.upd (.ofPanel hp)))
    · exact .setHub hp (.modCmd (.upd (.ofPanel hp)))
    · exact .setHub hp (.upd (.ofPanel hp))

/-! ### Fabric ports: frames, credits, replay, buffers, trackers and windows (R234, R310–R334). -/

theorem Panel.Canon.setF {p : Panel} {d q : Nat} {f : FabricPort} (hp : p.Canon a) : (p.setF d q f).Canon a :=
  .modPort hp

theorem Panel.Canon.modF {p : Panel} {d q : Nat} {g : FabricPort → FabricPort} (hp : p.Canon a) : (p.modF d q g).Canon a :=
  .setF hp

theorem Panel.Canon.sendFrame {p : Panel} {d q : Nat} {f : List Byte} (hp : p.Canon a) : (p.sendFrame d q f).Canon a :=
  .modPort (.emit hp)

theorem Panel.Canon.sendCtrl {p : Panel} {d q : Nat} {nak : Option Nat} (hp : p.Canon a) : (p.sendCtrl d q nak).Canon a :=
  .setF (.sendFrame hp)

theorem Panel.Canon.sendHead {p : Panel} {d q v : Nat} {x : TxFrame} (hp : p.Canon a) : (p.sendHead d q v x).Canon a :=
  .ite (.setF (.sendFrame hp)) (.setF (.sendFrame hp))

theorem Panel.Canon.txPump : ∀ {d q n : Nat} {p : Panel}, p.Canon a → (Panel.txPump d q n p).Canon a
  | _, _, 0, _, hp => hp
  | _, _, n + 1, _, hp => by
    unfold Panel.txPump
    dsimp only
    refine .ite hp ?_
    split
    · exact .txPump (.sendHead hp)
    · split
      exacts [.txPump (.sendHead hp), hp]

theorem Panel.Canon.sendPfc {p : Panel} {d q v quanta : Nat} (hp : p.Canon a) : (p.sendPfc d q v quanta).Canon a :=
  .modF (.modPort (.sendFrame hp))

theorem Panel.Canon.pfcCheck {p : Panel} {d q v : Nat} (hp : p.Canon a) : (p.pfcCheck d q v).Canon a :=
  .ite hp (by split <;> exact .ite (.sendPfc hp) hp)

theorem Panel.Canon.rxPop {p : Panel} {d q v : Nat} {x : RxFrame} (hp : p.Canon a) : (p.rxPop d q v x).Canon a :=
  .ite (.pfcCheck (.modF hp)) (.ite (.sendCtrl (.modF hp)) (.modF hp))

theorem Panel.Canon.fabricAnswer {p : Panel} {d q sdev : Nat} {req : Header} {status : Nat} (hp : p.Canon a) :
    (p.fabricAnswer d q sdev req status).Canon a :=
  .modF hp

theorem Panel.Canon.outEnd {p : Panel} {d q i : Nat} {t : OutTrk} {status : Nat} (hp : p.Canon a) :
    (p.outEnd d q i t status).Canon a :=
  .ite (.answerWith (.modF hp)) (.complete (.modF hp))

theorem Panel.Canon.takeAnswer {p : Panel} {d q : Nat} {x : RxFrame} (hp : p.Canon a) : (p.takeAnswer d q x).Canon a := by
  unfold Panel.takeAnswer
  dsimp only
  split
  exacts [.modPort hp, .ite (.modPort hp) (.answerWith (.modF hp))]

theorem Panel.Canon.takeRequest {p : Panel} {d q : Nat} {x : RxFrame} {y : Panel} (hp : p.Canon a)
    (h : p.takeRequest d q x = some y) : y.Canon a := by
  unfold Panel.takeRequest at h
  dsimp only at h
  refine of_ite_eq h (fun h => ?_) fun h => ?_
  · cases h
  · refine of_ite_eq h (fun h => ?_) fun h => ?_
    · cases h
      exact .fabricAnswer (.modPort hp)
    · split at h
      · cases h
        exact .fabricAnswer (.modPort hp)
      · split at h
        · cases h
        · split at h
          · cases h
          · next _ q heq =>
              have hq : q.Canon a := .of_eq (.inject hp) (congrArg Prod.snd heq)
              cases h
              exact .fabricAnswer hq
          · next _ q heq =>
              have hq : q.Canon a := .of_eq (.inject hp) (congrArg Prod.snd heq)
              cases h
              exact .modF hq

theorem Panel.Canon.takeFrame {p : Panel} {d q v : Nat} {x : RxFrame} {y : Panel} (hp : p.Canon a)
    (h : p.takeFrame d q v x = some y) : y.Canon a := by
  unfold Panel.takeFrame at h
  refine of_ite_eq h (fun h => ?_) fun h => ?_
  · cases h
    exact .logPort hp
  · refine of_ite_eq h (fun h => ?_) fun h => ?_
    · cases h
      exact .modPort hp
    · refine of_ite_eq h (fun h => ?_) fun h => ?_
      · cases h
        exact .takeAnswer hp
      · exact .takeRequest hp h

theorem Panel.Canon.rxPump : ∀ {d q n : Nat} {p : Panel}, p.Canon a → (Panel.rxPump d q n p).Canon a
  | _, _, 0, _, hp => hp
  | _, _, n + 1, _, hp => by
    unfold Panel.rxPump
    dsimp only
    split
    · next q heq =>
        have hq : q.Canon a := by
          split at heq
          · cases heq
          · obtain ⟨r, hr, rfl⟩ := Option.map_eq_some_iff.1 heq
            exact .rxPop (Panel.Canon.takeFrame hp hr)
        exact .rxPump hq
    · split
      · next q heq =>
          have hq : q.Canon a := by
            split at heq
            · cases heq
            · obtain ⟨r, hr, rfl⟩ := Option.map_eq_some_iff.1 heq
              exact .rxPop (Panel.Canon.takeFrame hp hr)
          exact .rxPump hq
      · exact hp

theorem Panel.Canon.portPump {p : Panel} {d q : Nat} (hp : p.Canon a) : (p.portPump d q).Canon a :=
  .txPump (.rxPump hp)

theorem Panel.Canon.portFall {p : Panel} {d q cause : Nat} (hp : p.Canon a) : (p.portFall d q cause).Canon a :=
  .foldl (fun _ _ hq => .outEnd hq) (.logPort (.modPort (.setF hp)))

theorem Panel.Canon.goBack {p : Panel} {d q seq : Nat} (hp : p.Canon a) : (p.goBack d q seq).Canon a :=
  .ite hp (.ite (.portFall (.modPort (.setF hp))) (.foldl (fun _ _ hq => .sendFrame hq) (.modPort (.setF hp))))

theorem Panel.Canon.sendNak {p : Panel} {d q : Nat} (hp : p.Canon a) : (p.sendNak d q).Canon a :=
  .ite (.sendCtrl (.setF hp)) hp

theorem Panel.Canon.received {p : Panel} {d q n : Nat} (hp : p.Canon a) : (p.received d q n).Canon a :=
  .modPort hp

theorem Panel.Canon.badFrame {p : Panel} {d q : Nat} (hp : p.Canon a) : (p.badFrame d q).Canon a :=
  .modPort hp

/-! ### The fabric ports' commands: link training, frames, requests and answers, beacons and seen masks, and the writes of the
PORT_ block (R310–R341, R348). -/

theorem execPortDown_kept {d : PortIx} {q : Fin 2} {cause : Fin 4} {s : State} : a.Kept s (execPortDown d q cause s) :=
  atPort_kept fun _ hp => .ite (.portFall hp) hp

theorem execPortRetrain_kept {d : PortIx} {q : Fin 2} {trained : Bool} {s : State} : a.Kept s (execPortRetrain d q trained s) :=
  atPort_kept fun _ hp => .ite (.setF hp) hp

theorem execInitSend_kept {d : PortIx} {q : Fin 2} {s : State} : a.Kept s (execInitSend d q s) :=
  atPort_kept fun _ hp => .ite (.modF (.setF (.sendFrame hp))) hp

theorem execInit_kept {d : PortIx} {q : Fin 2} {frame : List Byte} {s : State} : a.Kept s (execInit d q frame s) :=
  atPort_kept fun _ hp => .ite hp (.ite (.badFrame (.received hp)) (.ite (.received hp)
    (.ite (.modPort (.received hp)) (.setF (.received hp)))))

theorem execCtrl_kept {d : PortIx} {q : Fin 2} {frame : List Byte} {s : State} : a.Kept s (execCtrl d q frame s) :=
  atPort_kept fun _ hp => .ite hp (.ite (.badFrame (.received hp)) (.portPump
    (.ite (.goBack (.setF (.received hp))) (.setF (.received hp)))))

theorem execCtrlSend_kept {d : PortIx} {q : Fin 2} {s : State} : a.Kept s (execCtrlSend d q s) :=
  atPort_kept fun _ hp => .ite (.portPump (.sendCtrl hp)) hp

theorem execData_kept {d : PortIx} {q : Fin 2} {frame : List Byte} {s : State} : a.Kept s (execData d q frame s) :=
  atPort_kept fun _ hp => .ite hp (.ite (.sendNak (.badFrame (.received hp))) (.ite (.sendNak (.setF (.received hp)))
    (.ite (.sendCtrl (.portPump (.setF (.received hp)))) (.portPump (.setF (.received hp))))))

theorem execReplayTimeout_kept {d : PortIx} {q : Fin 2} {s : State} : a.Kept s (execReplayTimeout d q s) :=
  atPort_kept fun _ hp => by dsimp only; split; exacts [hp, .ite (.goBack hp) hp]

theorem Panel.Canon.pauseEnd {p : Panel} {d q v : Nat} (hp : p.Canon a) : (p.pauseEnd d q v).Canon a := by
  unfold Panel.pauseEnd
  dsimp only
  split
  exacts [hp, .modPort (.setF hp)]

theorem Panel.Canon.pauseSet {p : Panel} {d q v quanta : Nat} (hp : p.Canon a) : (p.pauseSet d q v quanta).Canon a :=
  .ite (.pauseEnd hp) (.modF (.pauseEnd hp))

theorem execPfcFrame_kept {d : PortIx} {q : Fin 2} {frame : List Byte} {s : State} : a.Kept s (execPfcFrame d q frame s) :=
  atPort_kept fun _ hp => .ite hp (.ite (.modPort (.received hp)) (.ite (.received hp)
    (.portPump (.foldl (fun _ _ hq => .ite (.pauseSet hq) hq) (.received hp)))))

theorem execPfcPauseExpire_kept {d : PortIx} {q vc : Fin 2} {s : State} : a.Kept s (execPfcPauseExpire d q vc s) :=
  atPort_kept fun _ hp => by split; exacts [hp, .ite (.portPump (.pauseEnd hp)) hp]

theorem execPfcRepeat_kept {d : PortIx} {q vc : Fin 2} {s : State} : a.Kept s (execPfcRepeat d q vc s) :=
  atPort_kept fun _ hp => by dsimp only; split; exacts [hp, .ite (.sendPfc hp) hp]

theorem execEthRequestTimeout_kept {d : PortIx} {q : Fin 2} {entry : Fin 4096} {s : State} :
    a.Kept s (execEthRequestTimeout d q entry s) :=
  atPort_kept fun _ hp => by dsimp only; split; exacts [hp, .ite (.modPort (.outEnd hp)) hp]

theorem Panel.Canon.allPorts {p : Panel} {f : PortDie → PortDie} (hp : p.Canon a) : (p.allPorts f).Canon a :=
  .foldl (fun _ _ hq => .ite (.modPort hq) hq) hp

theorem Panel.Canon.setEpoch {p : Panel} {e : Nat} (hp : p.Canon a) : (p.setEpoch e).Canon a :=
  .allPorts hp

theorem Panel.Canon.setRole {p : Panel} {r : Nat} (hp : p.Canon a) : (p.setRole r).Canon a :=
  .allPorts hp

theorem Panel.Canon.setMemb {p : Panel} {i v : Nat} (hp : p.Canon a) : (p.setMemb i v).Canon a :=
  .allPorts hp

theorem Panel.Canon.setMembFld {p : Panel} {i hi lo n : Nat} (hp : p.Canon a) : (p.setMembFld i hi lo n).Canon a :=
  .allPorts hp

theorem Panel.Canon.stepDown {p : Panel} (hp : p.Canon a) : p.stepDown.Canon a :=
  .foldl (fun _ _ hq => .modCrown hq) (.setRole hp)

theorem Panel.Canon.seeEpoch {p : Panel} {d e : Nat} (hp : p.Canon a) : (p.seeEpoch d e).Canon a := by
  unfold Panel.seeEpoch
  split
  exacts [.ite (.stepDown (.setEpoch hp)) (.setEpoch hp), .modPort hp, hp]

theorem Panel.Canon.sendBeacon {p : Panel} {d q dev count : Nat} (hp : p.Canon a) : (p.sendBeacon d q dev count).Canon a :=
  .ite (.sendFrame hp) (.setF (.sendFrame hp))

theorem execBeaconSend_kept {d : PortIx} {s : State} : a.Kept s (execBeaconSend d s) :=
  onPanel_kept fun _ hp => .ite hp (.foldl (fun _ _ hq => .modPort (.sendBeacon hq)) (.modPort hp))

theorem Panel.Canon.takeBeacon {p : Panel} {d : Nat} {body : List Byte} (hp : p.Canon a) : (p.takeBeacon d body).Canon a :=
  .ite (.modPort hp) (.seeEpoch (.modPort hp))

theorem execBeacon_kept {d : PortIx} {q : Fin 2} {frame : List Byte} {s : State} : a.Kept s (execBeacon d q frame s) :=
  atPort_kept fun _ hp => .ite hp (.ite (.badFrame (.received hp)) (.takeBeacon (.setF (.received hp))))

theorem execEthernetFrame_kept {d : PortIx} {q : Fin 2} {frame : List Byte} {s : State} :
    a.Kept s (execEthernetFrame d q frame s) :=
  atPort_kept fun _ hp => .ite hp (.ite (.modPort (.received hp)) (.ite (.takeBeacon (.received hp))
    (.ite (.received hp) (.portPump (.pfcCheck (.modF (.received hp)))))))

theorem Panel.Canon.sendSeen {p : Panel} {d : Nat} {c : Crown} {mask iv : Nat} (hp : p.Canon a) :
    (p.sendSeen d c mask iv).Canon a := by
  unfold Panel.sendSeen
  split
  · exact hp
  · dsimp only
    split
    · next _ q heq =>
        have hq : q.Canon a := .of_eq (.inject hp) (congrArg Prod.snd heq)
        exact .modPort hq
    · next _ q _ heq =>
        have hq : q.Canon a := .of_eq (.inject hp) (congrArg Prod.snd heq)
        exact hq

theorem execSeenMask_kept {d : PortIx} {s : State} : a.Kept s (execSeenMask d s) :=
  onPanel_kept fun _ hp => .ite hp (.sendSeen (.sendSeen (.setPort hp)))

theorem execRemoteRequest_kept {d : PortIx} {q : Fin 2} {s : State} : a.Kept s (execRemoteRequest d q s) :=
  atPort_kept fun p hp => by
    extract_lets k f key
    split
    · exact hp
    · extract_lets taken
      have ht : taken.Canon a := .setPort hp
      refine .ite (.refuse (.modPort ht)) (.ite (.refuse (.modPort ht)) ?_)
      split
      · exact hp
      · exact .ite (.portPump hp) (.portPump (.modF ht))

theorem Panel.Canon.portAnswer {p : Panel} {d q : Nat} {x : Packet} (hp : p.Canon a) : (p.portAnswer d q x).Canon a :=
  .ite (.setPort hp) (by split; exacts [.modPort hp, .ite (.setF hp) (.portPump (.setF hp))])

theorem Panel.Canon.answerAt {p : Panel} {d q : Nat} (hp : p.Canon a) : (p.answerAt d q).Canon a := by
  unfold Panel.answerAt
  dsimp only
  split
  exacts [hp, .ite (.portPump hp) (.portAnswer (.setPort hp))]

theorem execRemoteAnswer_kept {d : PortIx} {q : Fin 2} {s : State} : a.Kept s (execRemoteAnswer d q s) :=
  atPort_kept fun _ hp => .answerAt hp

theorem execUpMaskCopy_kept {s : State} : a.Kept s (execUpMaskCopy s) :=
  onPanel_kept fun _ hp => .upd hp

theorem Panel.Canon.portIgn {p : Panel} {d : Nat} (hp : p.Canon a) : (p.portIgn d).Canon a :=
  .modPort hp

theorem Panel.Canon.portCfgWrite {p : Panel} {d q : Nat} {value : W64} (hp : p.Canon a) : (p.portCfgWrite d q value).Canon a :=
  .ite (.portIgn hp) (.ite (.portFall (.modPort hp)) (.modPort hp))

theorem Panel.Canon.portPfcWrite {p : Panel} {d q : Nat} {value : W64} (hp : p.Canon a) : (p.portPfcWrite d q value).Canon a :=
  .ite (.portIgn hp) (.pfcCheck (.pfcCheck (.modPort hp)))

theorem Panel.Canon.devnumWrite {p : Panel} {d : Nat} {value : W64} (hp : p.Canon a) : (p.devnumWrite d value).Canon a :=
  .ite (.portIgn hp) (.modPort hp)

/-! ### Crowns: their accesses of HBM, the packets that they send, and the requests that they answer (R39, R51, R296,
R360–R363, R480). -/

theorem Panel.Canon.crownAt_error {p : Panel} {part ga n : Nat} {writes : Bool} {x : Nat × Panel} (hp : p.Canon a)
    (h : p.crownAt part ga n writes = .error x) : x.2.Canon a := by
  unfold Panel.crownAt at h
  split at h
  · cases h
    exact .bumpSh hp
  · dsimp only at h
    refine of_ite_eq h (fun h => ?_) fun h => of_ite_eq h (fun h => ?_) fun h => ?_
    · cases h
      exact hp
    · cases h
      exact hp
    · split at h
      · cases h
        exact .modHub hp fun _ hk => .bump hk
      · cases h
  · cases h
    exact hp

theorem Panel.Canon.crownRead {p : Panel} {part ga n : Nat} (hp : p.Canon a) : (p.crownRead part ga n).2.2.Canon a :=
  .foldl_snd_snd (fun _ _ hy => by
    split
    · next _ q heq =>
        have hq : q.Canon a := Panel.Canon.crownAt_error hy heq
        exact hq
    · exact .snd_mk (.setHub hy (.readCws (.ofPanel hy)))) hp

theorem Panel.Canon.crownWrite {p : Panel} {part ga : Nat} {bs : List Byte} (hp : p.Canon a) :
    (p.crownWrite part ga bs).2.Canon a :=
  .snd_mk (.foldl_snd_snd (fun _ _ hy => by
    dsimp only
    split
    · next _ q heq =>
        have hq : q.Canon a := Panel.Canon.crownAt_error hy heq
        exact hq
    · exact .snd_mk (.setHub hy (.sectionWrite (.writeBytes (.ofPanel hy))))) hp)

theorem Panel.Canon.crownSend {p : Panel} {c : Crown} {bulk : Bool} {use : CrownUse} {h : Header} {units : List Codeword}
    (hp : p.Canon a) : (p.crownSend c bulk use h units).Canon a :=
  .modCrown hp

theorem Panel.Canon.crownLocal {p : Panel} {c : Crown} {x : OutPkt} {st : Nat} (hp : p.Canon a) :
    (p.crownLocal c x st).Canon a :=
  .modCrown hp

theorem Panel.Canon.crownPull : ∀ {c : Crown} {n : Nat} {p : Panel}, p.Canon a → (Panel.crownPull c n p).Canon a
  | _, 0, _, hp => hp
  | _, n + 1, _, hp => by
    unfold Panel.crownPull
    dsimp only
    split
    · exact hp
    · split
      · exact .crownPull (.crownLocal (.modCrown hp))
      · split
        · exact hp
        · next _ q heq =>
            have hq : q.Canon a := .of_eq (.inject hp) (congrArg Prod.snd heq)
            exact .crownPull (.modCrown hq)
        · next _ q heq =>
            have hq : q.Canon a := .of_eq (.inject hp) (congrArg Prod.snd heq)
            exact .crownPull (.crownLocal (.modCrown hq))

theorem Panel.Canon.hokuidAnswer {p : Panel} {c : Crown} {n tag status : Nat} {body : List Byte} (hp : p.Canon a) :
    (p.hokuidAnswer c n tag status body).Canon a := by
  unfold Panel.hokuidAnswer
  split
  exacts [hp, .emit (.modCrown hp)]

theorem Panel.Canon.setQ {p : Panel} {q : Nat} {s : QueueSet} (hp : p.Canon a) : (p.setQ q s).Canon a :=
  .same hp

theorem Panel.Canon.modQ {p : Panel} {q : Nat} {f : QueueSet → QueueSet} (hp : p.Canon a) : (p.modQ q f).Canon a :=
  .setQ hp

theorem Panel.Canon.finishReq {p : Panel} {r : Req} {handle status : Nat} {held : Bool} {model : Nat} (hp : p.Canon a) :
    (p.finishReq r handle status held model).Canon a := by
  unfold Panel.finishReq
  dsimp only
  split
  exacts [.modQ hp, .hokuidAnswer hp]

theorem Panel.Canon.nextReq {p : Panel} {c : Crown} {op : Nat → Bool} {q : Req × Panel} (hp : p.Canon a)
    (h : p.nextReq c op = some q) : q.2.Canon a := by
  unfold Panel.nextReq at h
  split at h
  · cases h
  · refine of_ite_eq h (fun h => ?_) fun h => ?_
    · cases h
      exact .snd_mk (.modCrown hp)
    · cases h

/-! ### The host port: functions and their registers, the BAR4 window, queue sets, doorbells, fetch and delivery (R351–R368,
R371, R372). -/

theorem Panel.Canon.setFn {p : Panel} {f : Nat} {k : HostFnSt} (hp : p.Canon a) : (p.setFn f k).Canon a :=
  .same hp

theorem Panel.Canon.modFn {p : Panel} {f : Nat} {g : HostFnSt → HostFnSt} (hp : p.Canon a) : (p.modFn f g).Canon a :=
  .setFn hp

theorem Panel.Canon.hostBump {p : Panel} {off : Nat} (hp : p.Canon a) : (p.hostBump off).Canon a :=
  .modCrown hp

theorem Panel.Canon.clamped {p : Panel} {q : Nat} {any : Bool} (hp : p.Canon a) : (p.clamped q any).Canon a :=
  .ite (.hostBump hp) hp

theorem Panel.Canon.hostErr {p : Panel} {f : Nat} {wr : Bool} {status seg set off : Nat} (hp : p.Canon a) :
    (p.hostErr f wr status seg set off).Canon a :=
  .modFn hp

theorem Panel.Canon.hostRefuse {p : Panel} {f : Nat} {wr : Bool} {status seg set off : Nat} (hp : p.Canon a) :
    (p.hostRefuse f wr status seg set off).Canon a :=
  .hostErr (.hostBump hp)

theorem Panel.Canon.barCheck_error {p : Panel} {f off len : Nat} {wr : Bool} {x : Nat × Panel} (hp : p.Canon a)
    (h : p.barCheck f off len wr = .error x) : x.2.Canon a := by
  unfold Panel.barCheck at h
  dsimp only at h
  split at h
  · cases h
    exact hp
  · refine of_ite_eq h (fun h => ?_) fun h => of_ite_eq h (fun h => ?_) fun h => ?_
    · cases h
      exact hp
    · cases h
      exact hp
    · split at h
      · cases h
        exact .bumpSh hp
      · cases h

theorem Panel.Canon.barWrites {p : Panel} {f id part : Nat} {cuts : List (Nat × Nat)} {bs : List Byte} (hp : p.Canon a) :
    (p.barWrites f id part cuts bs).Canon a :=
  .foldl_snd (fun _ _ hy => .snd_mk (.crownSend hy)) hp

theorem Panel.Canon.barReads {p : Panel} {f id part : Nat} {cuts : List (Nat × Nat)} (hp : p.Canon a) :
    (p.barReads f id part cuts).Canon a :=
  .foldl (fun _ _ hq => .crownSend hq) hp

theorem execBar4Write_kept {fn : HostFn} {off : Nat} {payload : List Byte} {s : State} :
    a.Kept s (execBar4Write fn off payload s) :=
  onPanel_kept fun _ hp => .ite hp (by
    dsimp only
    split
    · next _ q heq =>
        have hq : q.Canon a := Panel.Canon.barCheck_error hp heq
        exact .hostRefuse hq
    · exact .barWrites (.setFn hp))

theorem execBar4Read_kept {fn : HostFn} {off len : Nat} {s : State} : a.Kept s (execBar4Read fn off len s) :=
  onPanel_kept fun _ hp => .ite hp (by
    split
    · next _ q heq =>
        have hq : q.Canon a := Panel.Canon.barCheck_error hp heq
        exact .emit (.hostRefuse hq)
    · exact .barReads (.setFn hp))

theorem Panel.Canon.barWriteAnswer {p : Panel} {f id status : Nat} (hp : p.Canon a) :
    (p.barWriteAnswer f id status).Canon a := by
  unfold Panel.barWriteAnswer
  dsimp only
  split
  exacts [hp, .ite (.hostRefuse (.setFn hp)) (.setFn hp)]

theorem Panel.Canon.barReadEnd {p : Panel} {f : Nat} {r : BarRead} (hp : p.Canon a) : (p.barReadEnd f r).Canon a := by
  unfold Panel.barReadEnd
  dsimp only
  split
  exacts [.emit (.modFn hp), .emit (.hostRefuse (.modFn hp))]

theorem Panel.Canon.barReadAnswer {p : Panel} {f id piece status : Nat} {data : List Byte} {bad : Bool} (hp : p.Canon a) :
    (p.barReadAnswer f id piece status data bad).Canon a := by
  unfold Panel.barReadAnswer
  split
  exacts [hp, .ite (.barReadEnd hp) (.modFn hp)]

theorem execBar4ReadTimeout_kept {fn : HostFn} {s : State} : a.Kept s (execBar4ReadTimeout fn s) :=
  onPanel_kept fun _ hp => by split; exacts [hp, .ite (.emit (.hostErr (.modFn hp))) hp]

theorem Panel.Canon.ring {p : Panel} {which q value : Nat} (hp : p.Canon a) : (p.ring which q value).Canon a :=
  .ite hp (.clamped (.setQ hp))

theorem Panel.Canon.doorbell {p : Panel} {f which q : Nat} {value : W64} (hp : p.Canon a) :
    (p.doorbell f which q value).Canon a :=
  .ite (.hostRefuse hp) (by split; exacts [.ite (.ring hp) (.setFn hp), .setFn hp])

theorem execSqTailDoorbell_kept {fn : HostFn} {q : QSet} {value : W64} {s : State} :
    a.Kept s (execSqTailDoorbell fn q value s) :=
  onPanel_kept fun _ hp => .doorbell hp

theorem execRcqHeadDoorbell_kept {fn : HostFn} {q : QSet} {value : W64} {s : State} :
    a.Kept s (execRcqHeadDoorbell fn q value s) :=
  onPanel_kept fun _ hp => .doorbell hp

theorem execTcqHeadDoorbell_kept {fn : HostFn} {q : QSet} {value : W64} {s : State} :
    a.Kept s (execTcqHeadDoorbell fn q value s) :=
  onPanel_kept fun _ hp => .doorbell hp

theorem execDoorbellRelease_kept {fn : HostFn} {s : State} : a.Kept s (execDoorbellRelease fn s) :=
  onPanel_kept fun _ hp => by dsimp only; split; exacts [hp, .ite hp (.ring (.setFn hp))]

theorem Panel.Canon.qctlWrite {p : Panel} {f q : Nat} {value : W64} (hp : p.Canon a) : (p.qctlWrite f q value).Canon a :=
  .ite hp (.clamped (.setQ hp))

theorem Panel.Canon.qregWrite {p : Panel} {f q off : Nat} {value : W64} (hp : p.Canon a) :
    (p.qregWrite f q off value).Canon a :=
  .ite hp (.ite (.clamped (.setQ hp)) (.ite (.clamped (.setQ hp)) hp))

theorem execQueueSetEnable_kept {fn : HostFn} {q : QSet} {value : W64} {s : State} :
    a.Kept s (execQueueSetEnable fn q value s) :=
  onPanel_kept fun _ hp => .qctlWrite hp

theorem execQueueSetDisable_kept {fn : HostFn} {q : QSet} {value : W64} {s : State} :
    a.Kept s (execQueueSetDisable fn q value s) :=
  onPanel_kept fun _ hp => .qctlWrite hp

theorem execQueueDisableDone_kept {q : QSet} {s : State} : a.Kept s (execQueueDisableDone q s) :=
  onPanel_kept fun _ hp => .modQ hp

theorem execSqFetch_kept {q : QSet} {entries : List (BitVec 512)} {s : State} : a.Kept s (execSqFetch q entries s) := by
  unfold execSqFetch
  split_ifs
  · intro _ t h
    cases h
  · refine onPanel_kept fun p hp => .ite hp ?_
    extract_lets fn addr p'
    have hp' : p'.Canon a := .emit (.setQ hp)
    exact .foldl (fun _ _ hr => .clamped (.modCrown hr)) hp'

theorem execHostNop_kept {c : Crown} {s : State} : a.Kept s (execHostNop c s) :=
  onPanel_kept fun _ hp => by
    split
    · exact hp
    · next _ q heq =>
        have hq : q.Canon a := .nextReq hp heq
        exact .finishReq hq

theorem Panel.Canon.signal {p : Panel} {q : Nat} (hp : p.Canon a) : (p.signal q).Canon a :=
  .emit (.setQ hp)

theorem Panel.Canon.tailWord {p : Panel} {q : Nat} (hp : p.Canon a) : (p.tailWord q).Canon a :=
  .emit hp

theorem execRequestCompletionWrite_kept {q : QSet} {s : State} : a.Kept s (execRequestCompletionWrite q s) :=
  onPanel_kept fun _ hp => .ite hp (by
    split
    · exact .ite (.signal (.tailWord (.emit (.setQ hp)))) (.tailWord (.emit (.setQ hp)))
    · exact .ite (.signal (.tailWord (.emit (.setQ hp)))) (.tailWord (.emit (.setQ hp)))
    · exact hp)

theorem execInterruptDelayExpire_kept {q : QSet} {s : State} : a.Kept s (execInterruptDelayExpire q s) :=
  onPanel_kept fun _ hp => .ite (.signal hp) hp

theorem Panel.Canon.fnpartWrite {p : Panel} {f : Nat} {value : W64} (hp : p.Canon a) : (p.fnpartWrite f value).Canon a :=
  .ite (.hostBump hp) (.modCrown hp)

theorem Panel.Canon.segWrite {p : Panel} {f sg word : Nat} {value : W64} (hp : p.Canon a) :
    (p.segWrite f sg word value).Canon a :=
  .ite (.hostBump hp) (.modCrown hp)

theorem execHostFnErrClr_kept {fn : HostFn} {value : W64} {s : State} : a.Kept s (execHostFnErrClr fn value s) :=
  onPanel_kept fun _ hp => .ite (.modFn hp) hp

theorem execDoeRequest_kept {request : SpdmRequest} {length : Nat} {s : State} : a.Kept s (execDoeRequest request length s) :=
  onPanel_kept fun _ hp => .ite hp (.ite (.upd hp) (.upd hp))

theorem execDoeAbort_kept {s : State} : a.Kept s (execDoeAbort s) :=
  onPanel_kept fun _ hp => .upd hp

/-! ### The end of a protection change: its close lifted, its status shown and answered (R485, R486, R488). -/

theorem Panel.Canon.showStat {p : Panel} {state moves status kind ctr : Nat} (hp : p.Canon a) :
    (p.showStat state moves status kind ctr).Canon a :=
  .setSh hp

theorem Panel.Canon.liftClose {p : Panel} {back : Bool} (hp : p.Canon a) : (p.liftClose back).Canon a := by
  refine ⟨fun x hx => ?_, fun x hx => ?_⟩
  · obtain ⟨y, hy, rfl⟩ := List.mem_map.1 hx
    have h := hp.1 y hy
    split
    · exact h
    · exact .ite (.cmd (.upd h)) (.upd h)
  · obtain ⟨y, hy, rfl⟩ := List.mem_map.1 hx
    exact .upd (hp.2 y hy)

theorem Panel.Canon.endChange {p : Panel} {ch : Change} {state status : Nat} (hp : p.Canon a) :
    (p.endChange ch state status).Canon a :=
  .hokuidAnswer (.upd (.showStat (.liftClose hp)))

theorem Panel.Canon.changeOrphan {p : Panel} (hp : p.Canon a) : p.changeOrphan.Canon a := by
  unfold Panel.changeOrphan
  split
  exacts [hp, .ite hp (.endChange hp)]

/-! ### The ramp bucket (R410) and the floors of sites (R411). Power is in milliwatts; a floor is held in quarters of a watt. -/

theorem Panel.Canon.spend {p : Panel} {cost : Nat} (hp : p.Canon a) : (p.spend cost).Canon a :=
  .same hp

theorem Panel.Canon.rampWait {p : Panel} (hp : p.Canon a) : p.rampWait.Canon a :=
  .same hp

theorem Panel.Canon.rampGo {p : Panel} (hp : p.Canon a) : p.rampGo.Canon a := by
  unfold Panel.rampGo
  split
  exacts [hp, .bumpSh (.upd hp)]

theorem Panel.Canon.rise {p : Panel} {load : Nat} {q : Panel} (hp : p.Canon a) (h : p.rise load = some q) : q.Canon a := by
  unfold Panel.rise at h
  refine of_ite_eq h (fun h => ?_) fun h => ?_
  · cases h
    exact .spend (.rampGo hp)
  · cases h

theorem Core.Canon.setFloor {k : Core} {quarters : Nat} (hk : k.Canon a) : (k.setFloor quarters).Canon a :=
  .wr hk

theorem Panel.Canon.wantFloors {p : Panel} {sites : List Nat} {mw : Nat} (hp : p.Canon a) :
    (p.wantFloors sites mw).Canon a := by
  unfold Panel.wantFloors
  dsimp only
  exact .upd hp

theorem Panel.Canon.feedRises {p : Panel} (hp : p.Canon a) : p.feedRises.Canon a := by
  unfold Panel.feedRises
  dsimp only
  exact .upd (.foldl (fun _ _ hq => .modCore (.spend hq) fun _ hk => .setFloor hk) hp)

theorem Panel.Canon.raiseFloors {p : Panel} {sites : List Nat} {mw : Nat} (hp : p.Canon a) : (p.raiseFloors sites mw).Canon a :=
  .feedRises (.wantFloors hp)

/-! ### Core frequency (R387–R390) and setpoint changes (R391–R393). -/

theorem Core.Canon.runAt {k : Core} (hk : k.Canon a) : k.runAt.Canon a := by
  unfold Core.runAt
  dsimp only
  exact .upd (.setF (.setF hk))

theorem Core.Canon.takeRaise {k : Core} {dial : Nat} (hk : k.Canon a) : (k.takeRaise dial).Canon a := by
  unfold Core.takeRaise
  split
  exacts [hk, .ite (.runAt hk) hk]

theorem Core.Canon.withCaps {k : Core} {dial : Nat} {f : Core → Core} (hk : k.Canon a) (hf : ∀ l, l.Canon a → (f l).Canon a) :
    (k.withCaps dial f).Canon a :=
  .ite (.runAt (hf _ (.takeRaise hk))) (.upd (hf _ (.takeRaise hk)))

theorem Core.Canon.setMgmt {k : Core} {dial c : Nat} (hk : k.Canon a) : (k.setMgmt dial c).Canon a :=
  .withCaps hk fun _ hl => .setF hl

theorem Core.Canon.setThm {k : Core} {dial c : Nat} (hk : k.Canon a) : (k.setThm dial c).Canon a :=
  .withCaps hk fun _ hl => .setF hl

theorem Core.Canon.setPwr {k : Core} {dial c : Nat} (hk : k.Canon a) : (k.setPwr dial c).Canon a :=
  .withCaps hk fun _ hl => .setF hl

theorem Core.Canon.capWrite {k : Core} {dial : Nat} {value : W64} (hk : k.Canon a) : (k.capWrite dial value).Canon a :=
  .ite hk (.setMgmt hk)

theorem Core.Canon.clockUp {k : Core} {sp : Nat} {ssc : Bool} (hk : k.Canon a) : (k.clockUp sp ssc).Canon a :=
  .setF (.runAt (.upd hk))

theorem Panel.Canon.setSpState {p : Panel} {n : Nat} (hp : p.Canon a) : (p.setSpState n).Canon a :=
  .setShF hp

theorem Panel.Canon.spSettle {p : Panel} (hp : p.Canon a) : p.spSettle.Canon a :=
  .ite (.setSpState (.setShF (.setShF hp))) hp

theorem Panel.Canon.ignSp {p : Panel} (hp : p.Canon a) : p.ignSp.Canon a :=
  .bumpSh hp

theorem Panel.Canon.eachPowered {p : Panel} {f : Core → Core} (hp : p.Canon a) (hf : ∀ l, l.Canon a → (f l).Canon a) :
    (p.eachPowered f).Canon a :=
  .foldl (fun _ _ hp' => .modCore hp' fun _ hq => hf _ hq) hp

theorem Core.Canon.arm {k : Core} {t code : Nat} {ssc : Bool} (hk : k.Canon a) : (k.arm t code ssc).Canon a :=
  .wr (.wr hk)

theorem Core.Canon.disarm {k : Core} (hk : k.Canon a) : k.disarm.Canon a :=
  .setF hk

theorem Panel.Canon.spCancel {p : Panel} (hp : p.Canon a) : p.spCancel.Canon a :=
  .bumpSh (.setSpState (.eachPowered hp fun _ hk => .disarm hk))

theorem Panel.Canon.spArm {p : Panel} {t code : Nat} {ssc : Bool} (hp : p.Canon a) : (p.spArm t code ssc).Canon a :=
  .eachPowered (.upd (.setSpState (.setShF (.setShF hp)))) fun _ hk => .arm hk

theorem Panel.Canon.spDraw {p : Panel} {old new : Nat} (hp : p.Canon a) : (p.spDraw old new).Canon a :=
  .ite hp (.spend hp)

theorem Panel.Canon.spRequest {p : Panel} {t code : Nat} {ssc : Bool} (hp : p.Canon a) : (p.spRequest t code ssc).Canon a :=
  .ite (.ignSp (.spSettle hp)) (.spArm (.spDraw (.spSettle hp)))

theorem Panel.Canon.spCancelReq {p : Panel} (hp : p.Canon a) : p.spCancelReq.Canon a :=
  .ite (.spCancel (.spSettle hp)) (.ignSp (.spSettle hp))

theorem Panel.Canon.spWrite {p : Panel} {value : W64} (hp : p.Canon a) : (p.spWrite value).Canon a := by
  unfold Panel.spWrite
  extract_lets v q q1
  have hq : q.Canon a := .spSettle hp
  have h1 : q1.Canon a := .ite (.spCancelReq hq) hq
  exact .ite (.ite (.ignSp h1) (.spRequest h1)) (.ite h1 (.ite (.ignSp hq) (.setShF (.setShF hq))))

theorem Panel.Canon.spOrphan {p : Panel} (hp : p.Canon a) : p.spOrphan.Canon a :=
  .ite (.spCancel (.spSettle hp)) (.spSettle hp)

/-! ### Escapements, dial time, balance oscillators and setpoint changes (R373–R397). -/

theorem Core.Canon.takeSnap {k : Core} (hk : k.Canon a) : k.takeSnap.Canon a :=
  .same hk

theorem Panel.Canon.count {p : Panel} (hp : p.Canon a) : p.count.Canon a := by
  refine .ite ⟨fun x hx => ?_, hp.2⟩ (.upd hp)
  obtain ⟨y, hy, rfl⟩ := List.mem_map.1 hx
  exact .takeSnap (hp.1 y hy)

theorem Panel.Canon.idle {p : Panel} (hp : p.Canon a) : p.idle.Canon a :=
  .ite hp (.ite (.count hp) (.ite (.count (.upd hp)) (.upd hp)))

theorem Panel.Canon.setEsc {p : Panel} {bit : Nat} {v : Bool} (hp : p.Canon a) : (p.setEsc bit v).Canon a :=
  .setShF hp

theorem Panel.Canon.unlock {p : Panel} {c : Crown} (hp : p.Canon a) : (p.unlock c).Canon a :=
  .setEsc hp

theorem Panel.Canon.alertOut {p : Panel} (hp : p.Canon a) : p.alertOut.Canon a :=
  .emit hp

theorem execReferenceLoss_kept {c : Crown} {s : State} : a.Kept s (execReferenceLoss c s) :=
  onPanel_kept fun _ hp => .ite hp (.ite (.bumpSh (.unlock (.setEsc hp))) (.alertOut
    (.logCrown (.setEsc (.bumpSh (.unlock (.setEsc hp)))))))

theorem execEscapementLock_kept {c : Crown} {s : State} : a.Kept s (execEscapementLock c s) :=
  onPanel_kept fun _ hp => .ite hp (.ite (.setEsc (.setEsc (.setEsc hp))) (.setEsc (.setEsc hp)))

theorem Panel.Canon.takeover {p : Panel} (hp : p.Canon a) : p.takeover.Canon a := by
  unfold Panel.takeover
  dsimp only
  refine .ite ?_ ?_ <;> exact .upd (.logCrown (.setSh (.bumpSh (.setEsc (.setEsc (.draw (.draw hp)))))))

theorem execEscapementTakeover_kept {treeLost : Bool} {s : State} : a.Kept s (execEscapementTakeover treeLost s) :=
  onPanel_kept fun _ hp => .ite (.takeover hp) hp

theorem Panel.Canon.handover {p : Panel} {value : W64} (hp : p.Canon a) : (p.handover value).Canon a :=
  .ite (.takeover hp) hp

theorem execTreeLossFatal_kept {s : State} : a.Kept s (execTreeLossFatal s) :=
  onPanel_kept fun _ hp => .ite hp (.alertOut (.upd (.ite (.ite (.setEsc hp) (.logCrown (.setEsc hp))) (.logCrown
    (.ite (.setEsc hp) (.logCrown (.setEsc hp)))))))

theorem execCalibrationWindow_kept {n : Site} {err : Int} {s : State} : a.Kept s (execCalibrationWindow n err s) :=
  onSite_kept fun _ hk => .setF hk

theorem execDroopStretch_kept {n : Site} {steps : Nat} {s : State} : a.Kept s (execDroopStretch n steps s) :=
  onCore_kept fun _ hk => .ite hk (.setF (.bump hk))

theorem execSupplyHalt_kept {n : Site} {s : State} : a.Kept s (execSupplyHalt n s) :=
  atCore_kept fun _ _ hk hp => .setCore hp (.upd (.bump hk))

theorem execHaltSupplyFault_kept {n : Site} {s : State} : a.Kept s (execHaltSupplyFault n s) :=
  atSite_kept fun _ _ hk hp => by
    split
    exacts [hp, .ite hp (.logCore (.setCore hp (.upd (.bump hk))))]

theorem execSupplyRecovery_kept {n : Site} {s : State} : a.Kept s (execSupplyRecovery n s) :=
  onSite_kept fun _ hk => .upd hk

theorem execCapRaiseApply_kept {n : Site} {s : State} : a.Kept s (execCapRaiseApply n s) :=
  atCore_kept fun _ _ hk hp => .setCore hp (.takeRaise hk)

theorem execSetpointArmCheck_kept {s : State} : a.Kept s (execSetpointArmCheck s) :=
  onPanel_kept fun _ hp => .ite (.ite (.upd hp) (.spCancel hp)) hp

theorem execSetpointSwitch_kept {n : Site} {s : State} : a.Kept s (execSetpointSwitch n s) :=
  atCore_kept fun _ _ hk hp => .ite (.setCore (.spSettle hp) (.setF (.runAt (.upd (.disarm (.takeRaise hk)))))) hp

/-! ### The context table, handles and the overflow list, token records and their delivery, messages of a group (R246–R257,
R273–R276, R336–R339). -/

theorem Panel.Canon.peerSend {p : Panel} {c : Crown} {dev tag : Nat} {use : CrownUse} {payload : List Byte} (hp : p.Canon a) :
    (p.peerSend c dev tag use payload).Canon a :=
  .crownSend hp

theorem Panel.Canon.groupSend {p : Panel} {c : Crown} {dev tag : Nat} {payload : List Byte} {commit : Option Nat}
    (hp : p.Canon a) : (p.groupSend c dev tag payload commit).Canon a :=
  .peerSend (.modCrown hp)

theorem Panel.Canon.mirrorOut {p : Panel} {c : Crown} {old new : CtxEntry} {commit : Option Nat} (hp : p.Canon a) :
    (p.mirrorOut c old new commit).Canon a := by
  unfold Panel.mirrorOut
  split
  exacts [hp, .foldl (fun _ _ hq => .groupSend hq) hp]

theorem Panel.Canon.storeEnt {p : Panel} {slot : Nat} {e : CtxEntry} (hp : p.Canon a) : (p.storeEnt slot e).Canon a :=
  .foldl (fun _ _ hq => .ite hq (.modCrown hq)) hp

theorem Panel.Canon.setEnt {p : Panel} {slot : Nat} {e : CtxEntry} {commit : Option Nat} (hp : p.Canon a) :
    (p.setEnt slot e commit).Canon a :=
  .mirrorOut (.storeEnt hp)

theorem Panel.Canon.pick {p : Panel} {n uses : Nat} {used : Nat → Bool} (hp : p.Canon a) : (p.pick n uses used).2.Canon a :=
  .snd_ite (.snd_mk (.draw hp)) (.snd_mk (.draw hp))

theorem Panel.Canon.svcWrite {p : Panel} {off : Nat} {bs : List Byte} (hp : p.Canon a) : (p.svcWrite off bs).Canon a :=
  .ite (.crownWrite hp) hp

theorem Panel.Canon.setHandle {p : Panel} {i : Nat} {h : HandleEnt} (hp : p.Canon a) : (p.setHandle i h).Canon a :=
  .svcWrite (.upd hp)

theorem Panel.Canon.setHeld {p : Panel} {j : Nat} {e : Option CtxEntry} (hp : p.Canon a) : (p.setHeld j e).Canon a := by
  unfold Panel.setHeld
  split
  exacts [.upd hp, .svcWrite (.upd hp)]

theorem Panel.Canon.setCtx {p : Panel} {w : Place} {e : CtxEntry} (hp : p.Canon a) : (p.setCtx w e).Canon a := by
  unfold Panel.setCtx
  split
  exacts [.setEnt hp, .setHeld hp]

theorem Panel.Canon.newHandle {p : Panel} {q : Nat × Panel} (hp : p.Canon a) (h : p.newHandle = some q) : q.2.Canon a := by
  unfold Panel.newHandle at h
  dsimp only at h
  split at h
  · cases h
  · cases h
    exact .snd_mk (.pick hp)

theorem Panel.Canon.fabPump {p : Panel} {c : Crown} {key : Nat} (hp : p.Canon a) : (p.fabPump c key).Canon a :=
  .ite hp (.peerSend (.modCrown hp))

theorem Panel.Canon.deliver {p : Panel} {c : Crown} {e : CtxEntry} {bs : List Byte} (hp : p.Canon a) :
    (p.deliver c e bs).Canon a :=
  .ite (.fabPump (.modCrown (.ite hp (.modCrown hp)))) (.ite (.modQ (.ite hp (.modCrown hp))) (.ite
    (.modCrown (.ite hp (.modCrown hp))) (.ite hp (.modCrown hp))))

theorem Panel.Canon.commitRecs {p : Panel} {c : Crown} {e : CtxEntry} {recs : List (List Byte)} {standby : Nat} (hp : p.Canon a)
    : (p.commitRecs c e recs standby).Canon a :=
  .ite (.foldl (fun _ _ hq => .deliver hq) hp) (.modCrown hp)

theorem Panel.Canon.freeHandle {p : Panel} {handle : Nat} (hp : p.Canon a) : (p.freeHandle handle).Canon a :=
  .setHandle hp

theorem Panel.Canon.freePages {p : Panel} {handle : Nat} (hp : p.Canon a) : (p.freePages handle).Canon a :=
  .same hp

theorem Panel.Canon.finishCtx {p : Panel} {w : Place} {e : CtxEntry} {reason status : Nat} {lost : Bool} (hp : p.Canon a) :
    (p.finishCtx w e reason status lost).Canon a := by
  unfold Panel.finishCtx
  extract_lets bs c q
  have hq : q.Canon a := .ite (.modCrown hp) (.ite (.commitRecs hp) (.deliver hp))
  clear_value q
  split
  exacts [.setEnt hq, .freeHandle (.freePages (.setHeld hq))]

theorem Panel.Canon.endCtx {p : Panel} {w : Place} {e : CtxEntry} {reason status : Nat} {lost : Bool} (hp : p.Canon a) :
    (p.endCtx w e reason status lost).Canon a :=
  .ite hp (.ite (.setCtx hp) (.finishCtx hp))

/-! ### KV pages: pool pages, frames, residency slots and the pager (R259, R267, R268). -/

theorem Panel.Canon.setModel {p : Panel} {m : Nat} {x : Model} (hp : p.Canon a) : (p.setModel m x).Canon a :=
  .same hp

theorem Panel.Canon.modModel {p : Panel} {m : Nat} {f : Model → Model} (hp : p.Canon a) : (p.modModel m f).Canon a :=
  .setModel hp

theorem Panel.Canon.writePages {p : Panel} {e : CtxEntry} {d : ModelDesc} {k : KvPages} {js : List Nat} (hp : p.Canon a) :
    (p.writePages e d k js).2.Canon a :=
  .foldl_snd (fun _ _ hy => by split; exacts [hy, .snd_mk (.crownWrite hy)]) hp

theorem Panel.Canon.dropFrames {p : Panel} {slot : Nat} {e : CtxEntry} (hp : p.Canon a) : (p.dropFrames slot e).Canon a :=
  .setEnt (by split; exacts [.writePages (.upd hp), hp])

theorem Panel.Canon.evict {p : Panel} {m self : Nat} {q : Panel} (hp : p.Canon a) (h : p.evict m self = some q) :
    q.Canon a := by
  unfold Panel.evict at h
  split at h
  · cases h
  · cases h
    exact .setEnt (.dropFrames hp)

theorem Panel.Canon.obtain {m self size : Nat} {inUse : Panel → List Nat} :
    ∀ {fuel : Nat} {p : Panel} {x : Nat × Panel}, p.Canon a → Panel.obtain m self size inUse fuel p = some x → x.2.Canon a
  | 0, _, _, _, h => by cases h
  | fuel + 1, p, x, hp, h => by
    unfold Panel.obtain at h
    dsimp only at h
    split at h
    · cases h
      exact .pick hp
    · split at h
      · cases h
      · next _ heq => exact Panel.Canon.obtain (.evict hp heq) h

theorem Panel.Canon.copyFrame {p : Panel} {part ga site off : Nat} (hp : p.Canon a) :
    (p.copyFrame part ga site off).2.Canon a :=
  .foldl_snd (fun _ _ hy => by
    dsimp only
    split
    · refine .snd_ite hy ?_
      split
      · exact .snd_mk (.modHub hy fun _ hk => .bump hk)
      · exact .snd_mk (.modCore (.setHub hy (.readCws (.ofPanel hy))) fun _ hc => .writeBytes hc)
    · exact hy
    · exact hy) hp

theorem Panel.Canon.copyPage {p : Panel} {part : Nat} {d : ModelDesc} {pool frame : Nat} (hp : p.Canon a) :
    (p.copyPage part d pool frame).2.Canon a :=
  .foldl_snd (fun _ _ hy => by split; exacts [hy, .snd_mk (.copyFrame hy)]) hp

theorem Panel.Canon.writeFrameTable {p : Panel} {d : ModelDesc} {rslot : Nat} {k : KvPages} (hp : p.Canon a) :
    (p.writeFrameTable d rslot k).Canon a :=
  .foldl (fun _ _ hq => by
    split
    · exact hq
    · exact .foldl (fun _ _ hr => by split; exacts [hr, .modCore hr fun _ hc => .writeBytes hc]) hq) hp

theorem Panel.Canon.bringPage_ok {p : Panel} {e : CtxEntry} {d : ModelDesc} {k : KvPages} {j : Nat} {x : KvPages × Panel}
    (hp : p.Canon a) (h : p.bringPage e d k j = .ok x) : x.2.Canon a := by
  unfold Panel.bringPage at h
  extract_lets l x' got at h
  have hgot : ∀ y, got = some y → y.2.2.Canon a := by
    intro y hy
    dsimp only [got] at hy
    split at hy
    · cases hy
      exact hp
    · obtain ⟨i, _, rfl⟩ := Option.map_eq_some_iff.1 hy
      exact .pick hp
  clear_value got
  split at h
  · cases h
  · next q =>
    have hq : q.Canon a := hgot _ rfl
    split at h
    · cases h
      exact hq
    · split at h
      · cases h
      · next q' heq =>
        have hq' : q'.Canon a := Panel.Canon.obtain (x := (_, q')) hq heq
        dsimp only at h
        split_ifs at h
        · cases h
          exact .copyPage hq'
        · cases h
          exact hq'

theorem Panel.Canon.bringPages_ok {e : CtxEntry} {d : ModelDesc} : ∀ {n : Nat} {k : KvPages} {p : Panel} {x : KvPages × Panel},
    p.Canon a → Panel.bringPages e d n k p = .ok x → x.2.Canon a
  | 0, _, _, _, hp, h => by
    cases h
    exact hp
  | n + 1, k, p, x, hp, h => by
    unfold Panel.bringPages at h
    split at h
    · cases h
    · next heq => exact .bringPage_ok (Panel.Canon.bringPages_ok hp heq) h

theorem Panel.Canon.bringIn_ok {p q : Panel} {slot : Nat} {e : CtxEntry} {d : ModelDesc} (hp : p.Canon a)
    (h : p.bringIn slot e d = .ok q) : q.Canon a := by
  unfold Panel.bringIn at h
  extract_lets rs at h
  have hrs : ∀ y, rs = some y → y.2.Canon a := by
    intro y hy
    dsimp only [rs] at hy
    split_ifs at hy
    · cases hy
      exact hp
    · exact Panel.Canon.obtain hp hy
  clear_value rs
  split at h
  · cases h
  · next r p' =>
    have hp' : p'.Canon a := hrs _ rfl
    extract_lets l x root at h
    have hroot : ∀ y, root = some y → y.2.Canon a := by
      intro y hy
      dsimp only [root] at hy
      split at hy
      · cases hy
        exact hp'
      · obtain ⟨i, _, rfl⟩ := Option.map_eq_some_iff.1 hy
        exact .pick hp'
    clear_value root
    split at h
    · cases h
    · next k r' =>
      have hr' : r'.Canon a := hroot _ rfl
      split at h
      · cases h
      · next k' u heq =>
        have hu : u.Canon a := Panel.Canon.bringPages_ok (x := (k', u)) hr' heq
        extract_lets e' w at h
        have hw : w.2.Canon a := .writePages (.upd hu)
        split_ifs at h
        cases h
        exact .setEnt (.writeFrameTable hw)

/-! ### The reductions of the reduction unit on rows of values (R143–R148, R151). -/

theorem Core.Canon.ruFinish {k : Core} {w : At} {q : QOp} {rows : List (List Nat)} {st0 : Nat} (hk : k.Canon a) :
    (k.ruFinish w q rows st0).2.Canon a :=
  .snd_mk (.writeBytes (.ite (by split; exacts [.fetch hk, hk]) (.bump (by split; exacts [.fetch hk, hk]))))

theorem Core.Canon.ruLocal {k : Core} {w : At} {base : Nat} {q : QOp} (hk : k.Canon a) : (k.ruLocal w base q).2.Canon a :=
  .snd_mk (.ruFinish (.fetch hk))

theorem Core.Canon.ruFail {k : Core} {base : Nat} {q : QOp} {cause : Nat} (hk : k.Canon a) : (k.ruFail base q cause).Canon a :=
  .opFail (.firstFault hk)

/-! ### The sampler and the stop conditions (R265, R269, R270, R272). -/

theorem Panel.Canon.readSide {p : Panel} {e : CtxEntry} (hp : p.Canon a) : (p.readSide e).2.2.Canon a :=
  .snd_mk (.crownRead hp)

/-! ### Steps: eligibility and batches (R260, R261), batch records (R263), starts (R262, R411), failure and the second run
(R264), commits (R276) and speculative rounds (R277, R278). -/

theorem Panel.Canon.setRound {p : Panel} {slot : Nat} {r : Option Round} (hp : p.Canon a) : (p.setRound slot r).Canon a :=
  .modCrown hp

theorem Panel.Canon.sendStep {p : Panel} {c : Crown} {part num slot : Nat} {d : ModelDesc} {g1 : Nat}
    {inline record : List Byte} {args2 : Bool} (hp : p.Canon a) :
    (p.sendStep c part num slot d g1 inline record args2).Canon a :=
  .foldl (fun _ _ hq => .crownSend hq) (.ite hp (.foldl (fun _ _ hq => .foldl_snd (fun _ _ hy => .snd_mk
    (.crownSend hy)) hq) hp))

theorem Panel.Canon.launch {p : Panel} {c : Crown} {s : Step} {d : ModelDesc} (hp : p.Canon a) : (p.launch c s d).Canon a :=
  .foldl (fun _ _ hq => .groupSend hq) (.sendStep (.modCrown hp))

theorem Panel.Canon.powerGate_ok {p q : Panel} {m : Nat} {d : ModelDesc} {b : Nat} (hp : p.Canon a)
    (h : p.powerGate m d b = .ok q) : q.Canon a := by
  unfold Panel.powerGate at h
  dsimp only at h
  split at h
  · next _ heq =>
    cases h
    exact .foldl (fun _ _ hp => .modCore hp fun _ hk => .ite (.setFloor hk) hk) (.rise hp heq)
  · cases h

theorem Panel.Canon.powerGate_error {p q : Panel} {m : Nat} {d : ModelDesc} {b : Nat} (hp : p.Canon a)
    (h : p.powerGate m d b = .error q) : q.Canon a := by
  unfold Panel.powerGate at h
  dsimp only at h
  split at h
  · cases h
  · cases h
    exact .raiseFloors (.rampWait hp)

theorem Panel.Canon.writeRing : ∀ {p : Panel} {e : CtxEntry} {ks : List Nat} {n : Nat}, p.Canon a → (p.writeRing e ks n).Canon a
  | _, _, [], _, hp => hp
  | _, _, k :: m, _, hp => by
    unfold Panel.writeRing
    exact .writeRing (.crownWrite hp)

theorem Panel.Canon.trimPages {p : Panel} {e : CtxEntry} {d : ModelDesc} {position : Nat} (hp : p.Canon a) :
    (p.trimPages e d position).Canon a := by
  unfold Panel.trimPages
  split
  · exact hp
  · extract_lets keep gone p1 k p2
    have h1 : p1.Canon a := .foldl (fun _ _ hq => .crownWrite hq) hp
    have h2 : p2.Canon a := .upd h1
    clear_value p2
    split
    exacts [.ite h2 (.setEnt h2), h2]

theorem Panel.Canon.commitToks {p : Panel} {c : Crown} {slot : Nat} {d : ModelDesc} {replay : Bool} {side : Side} {pos : Nat}
    {toks : List Tok} (hp : p.Canon a) : (p.commitToks c slot d replay side pos toks).Canon a :=
  .ite (.setEnt (.writeRing hp)) (.commitRecs (.setEnt (.writeRing hp)))

theorem Panel.Canon.boundary {p : Panel} {handle : Nat} (hp : p.Canon a) : (p.boundary handle).Canon a := by
  unfold Panel.boundary
  split
  exacts [hp, .ite hp (by split; exacts [.finishCtx hp, .ite (.finishCtx hp) hp])]

theorem Panel.Canon.retire {p : Panel} {c : Crown} {s : Step} (hp : p.Canon a) : (p.retire c s).Canon a :=
  .foldl (fun _ _ hq => .boundary hq) (.modCrown hp)

theorem Panel.Canon.failStep {p : Panel} {c : Crown} {s : Step} {status : Nat} (hp : p.Canon a) :
    (p.failStep c s status).Canon a :=
  .ite (.retire (.foldl (fun _ _ hq => by split; exacts [.setCtx hq, hq]) (.modCrown hp))) (.modCrown (.modCrown hp))

theorem Panel.Canon.commitRound {p : Panel} {slot : Nat} {d : ModelDesc} {replay : Bool} (hp : p.Canon a) :
    (p.commitRound slot d replay).Canon a := by
  unfold Panel.commitRound
  split
  · exact hp
  · extract_lets c e x p1 toks p2 p3 e' p4
    have h1 : p1.Canon a := .setRound (.readSide hp)
    have h4 : p4.Canon a := .trimPages (.commitToks (.setEnt h1))
    clear_value p4
    refine .ite (.endCtx h1) ?_
    split
    · dsimp only
      split
      exacts [.trimPages (.setEnt h4), .setEnt h4]
    · exact h4

theorem Panel.Canon.applyStep {p : Panel} {c : Crown} {s : Step} {d : ModelDesc} {b : BatchEnt} (hp : p.Canon a) :
    (p.applyStep c s d b).Canon a := by
  unfold Panel.applyStep
  extract_lets samples
  clear_value samples
  split
  · refine .ite hp (.ite (.setEnt (.modCrown hp)) (.ite (.setEnt hp) (.ite ?_ (.ite ?_ (.ite ?_ ?_)))))
    · dsimp only
      split
      · exact hp
      · exact .ite (.setEnt hp) (.ite (.setEnt (.readSide hp)) (.commitToks (.setRound (.readSide hp))))
    · split
      · exact hp
      · split
        exacts [hp, .setRound (.setEnt hp)]
    · split
      exacts [hp, .ite (.commitRound (.setRound hp)) (.setRound hp)]
    · split
      · exact hp
      · split
        exacts [.ite (.setRound hp) (.commitRound hp), hp]
  · exact hp

theorem Panel.Canon.completeStep {p : Panel} {c : Crown} {s : Step} {d : ModelDesc} (hp : p.Canon a) :
    (p.completeStep c s d).Canon a :=
  .retire (.modModel (.modCrown (.foldl (fun _ _ hq => .applyStep hq) hp)))

/-! ### The context engine's commands: admission, cancellation, messages, swaps, paging, steps, sampling, commits and ends
(R250–R282, R337–R339). -/

theorem Panel.Canon.cbump {p : Panel} {c : Crown} {off n : Nat} (hp : p.Canon a) : (p.cbump c off n).Canon a :=
  .modCrown hp

theorem Panel.Canon.admitCheck {p : Panel} {c : Crown} {r : Req} {q : CtxEntry × Panel} (hp : p.Canon a)
    (h : p.admitCheck c r = some q) : q.2.Canon a := by
  unfold Panel.admitCheck at h
  split at h
  · dsimp only at h
    refine of_ite_eq h (fun h => ?_) fun h => ?_
    · cases h
    · refine of_ite_eq h (fun h => ?_) fun h => ?_
      · cases h
      · cases h
        exact .snd_mk (.crownRead hp)
  · cases h

theorem execAdmit_kept {c : Crown} {s : State} : a.Kept s (execAdmit c s) :=
  atCrown_kept fun _ hp => by
    split
    · exact hp
    · next _ q heq =>
        have hq : q.Canon a := .nextReq hp heq
        refine .ite (.finishReq (.cbump hq)) ?_
        split
        · exact .finishReq (.cbump hq)
        · next _ q heq =>
            have hq : q.Canon a := .admitCheck hq heq
            dsimp only
            split
            · next _ _ q _ heq =>
                have hq : q.Canon a := .newHandle hq heq
                exact .finishReq (.cbump (.setEnt (.setHandle hq)))
            · next _ q _ heq =>
                have hq : q.Canon a := .newHandle hq heq
                exact .ite (.finishReq (.cbump hq)) (.ite (.finishReq (.cbump hq)) (.finishReq
                  (.cbump (.setHeld (.setHandle (.pick hq))))))
            · exact .finishReq (.cbump hq)

theorem execCancel_kept {c : Crown} {s : State} : a.Kept s (execCancel c s) :=
  atCrown_kept fun _ hp => by
    split
    · exact hp
    · next _ q heq =>
        have hq : q.Canon a := .nextReq hp heq
        dsimp only
        split
        exacts [.finishReq hq, .ite (.finishReq hq) (.endCtx (.finishReq hq))]

theorem execCtxMsgReceive_kept {c : Crown} {s : State} : a.Kept s (execCtxMsgReceive c s) :=
  atCrown_kept fun p hp => by
    extract_lets k
    split
    · exact hp
    · extract_lets who q pl refuse
      have hq : q.Canon a := .setCrown hp
      have hrefuse : ∀ st, (refuse st).Canon a := fun _ => .refuse (.cbump hq)
      exact .ite hp (.ite (hrefuse _) (.ite (hrefuse _) (.ite (hrefuse _)
        (.ite (.complete (.modCrown hq)) (.ite (hrefuse _) (.complete (.modCrown hq)))))))

theorem Panel.Canon.nextMsg {p : Panel} {c : Crown} {want : Nat → Bool} {q : CtxMsg × Panel} (hp : p.Canon a)
    (h : p.nextMsg c want = some q) : q.2.Canon a := by
  unfold Panel.nextMsg at h
  dsimp only at h
  split at h
  · cases h
  · refine of_ite_eq h (fun h => ?_) fun h => ?_
    · cases h
      exact .snd_mk (.modCrown hp)
    · cases h

theorem Panel.Canon.orphanRound {p : Panel} {e : CtxEntry} (hp : p.Canon a) : (p.orphanRound e).Canon a := by
  refine .ite hp ?_
  split
  · exact hp
  · split
    exacts [.ite (.commitRound hp) hp, hp]

theorem Panel.Canon.swapOut {p : Panel} {slot : Nat} (hp : p.Canon a) : (p.swapOut slot).Canon a :=
  .setHandle (.setHeld (.setEnt (.pick (.setRound (.dropFrames (.orphanRound hp))))))

theorem Panel.Canon.swapTo {p : Panel} {j slot : Nat} {e : CtxEntry} (hp : p.Canon a) : (p.swapTo j slot e).Canon a :=
  .setHandle (.setEnt (.setHeld hp))

theorem execSwapIn_kept {c : Crown} {s : State} : a.Kept s (execSwapIn c s) :=
  atCrown_kept fun _ hp => by
    split
    · exact hp
    · split
      · exact .cbump (.swapTo hp)
      · split
        exacts [hp, .ite hp (.cbump (.swapTo (.swapOut hp)))]

theorem execPageIn_kept {c : Crown} {handle : W32} {s : State} : a.Kept s (execPageIn c handle s) :=
  atCrown_kept fun p hp => by
    split
    · refine .ite hp ?_
      split
      · exact hp
      · split
        · next heq => exact .bringIn_ok hp heq
        · exact .cbump hp
        · exact .cbump (.setEnt hp)
        · exact .endCtx hp
    · exact hp

theorem Panel.Canon.noteStalls {p : Panel} {c : Crown} {l : List (Nat × CtxEntry × Nat × BatchEnt)} (hp : p.Canon a) :
    (p.noteStalls c l).Canon a :=
  .foldl (fun _ _ hq => .ite hq (.cbump (.setEnt hq))) hp

theorem Panel.Canon.newStep {p : Panel} {c : Crown} (hp : p.Canon a) : (p.newStep c).2.Canon a :=
  .snd_mk (.modCrown hp)

theorem execStepStart_kept {c : Crown} {m : Fin 16} {s : State} : a.Kept s (execStepStart c m s) :=
  atCrown_kept fun _ hp => by
    dsimp only
    split
    · exact hp
    · refine .ite hp ?_
      split
      · refine .ite hp ?_
        split
        · next q heq =>
            have hq : q.Canon a := Panel.Canon.powerGate_error hp heq
            exact hq
        · next q heq =>
            have hq : q.Canon a := Panel.Canon.powerGate_ok hp heq
            exact .launch (.cbump (.modCrown (.newStep hq)))
      · refine .ite hp ?_
        split
        · exact .noteStalls hp
        · refine .ite (.noteStalls hp) ?_
          split
          · next q heq =>
              have hq : q.Canon a := Panel.Canon.powerGate_error (.noteStalls hp) heq
              exact hq
          · next q heq =>
              have hq : q.Canon a := Panel.Canon.powerGate_ok (.noteStalls hp) heq
              exact .launch (.ite (.cbump (.newStep hq)) (.newStep hq))

theorem Panel.Canon.unseat {p : Panel} {n : Nat} {e : CtxEntry} (hp : p.Canon a) : (p.unseat n e).Canon a :=
  .setEnt (.setRound (.dropFrames hp))

theorem Panel.Canon.abandon {p : Panel} {c : Crown} {s : Step} (hp : p.Canon a) : (p.abandon c s).Canon a :=
  .retire (.foldl (fun _ _ hq => by split; exacts [.unseat hq, hq]) hp)

theorem Panel.Canon.readRows {p : Panel} {c : Crown} {s : Step} {d : ModelDesc} {rows : Nat} (hp : p.Canon a) :
    (p.readRows c s d rows).Canon a :=
  .foldl (fun _ _ hq => .foldl (fun _ _ hr => .crownSend hr) hq) hp

theorem Panel.Canon.sendStepReport {p : Panel} {c : Crown} {s : Step} {status : Nat} (hp : p.Canon a) :
    (p.sendStepReport c s status).Canon a :=
  .groupSend (.modCrown hp)

theorem Panel.Canon.judgeStep {p : Panel} {c : Crown} {s : Step} (hp : p.Canon a) : (p.judgeStep c s).Canon a := by
  refine .ite (by split; exacts [.sendStepReport hp, .ite (.sendStepReport hp) hp]) ?_
  split
  · exact .ite (.abandon hp) (.failStep hp)
  · exact .ite hp (by split; exacts [hp, .ite (.completeStep hp) (.readRows (.modCrown hp))])

theorem execStepComplete_kept {c : Crown} {step : Nat} {s : State} : a.Kept s (execStepComplete c step s) :=
  atCrown_kept fun _ hp => by
    dsimp only
    split
    exacts [.modCrown hp, .ite (.modCrown hp) (.judgeStep (.modCrown hp))]

theorem execStepTimeout_kept {c : Crown} {step : Nat} {s : State} : a.Kept s (execStepTimeout c step s) :=
  atCrown_kept fun _ hp => by
    dsimp only
    split
    · exact .modCrown hp
    · exact .ite (.ite (.sendStepReport (.modCrown hp)) (.failStep (.modCrown hp))) (.modCrown hp)

theorem execSampleRow_kept {c : Crown} {step : Nat} {s : State} : a.Kept s (execSampleRow c step s) :=
  atCrown_kept fun _ hp => by
    split
    · exact hp
    · split
      · exact hp
      · refine .ite hp ?_
        split
        · exact .failStep hp
        · dsimp only
          split
          · exact hp
          · refine .ite hp ?_
            split
            · exact hp
            · exact .ite (.completeStep (.modCrown (.ite (.setCtx (.readSide hp)) (.readSide hp)))) (.modCrown
                (.ite (.setCtx (.readSide hp)) (.readSide hp)))

theorem execMirrorAck_kept {c : Crown} {handle : W32} {s : State} : a.Kept s (execMirrorAck c handle s) :=
  atCrown_kept fun _ hp => by
    split
    · exact hp
    · exact .ite hp (by split; exacts [.modCrown hp, .foldl (fun _ _ hq => .deliver hq) (.modCrown hp)])

theorem execDeadlineExpire_kept {c : Crown} {handle : W32} {s : State} : a.Kept s (execDeadlineExpire c handle s) :=
  atCrown_kept fun _ hp => by split; exacts [hp, .ite hp (.finishCtx hp)]

theorem execContextFree_kept {c : Crown} {handle : W32} {s : State} : a.Kept s (execContextFree c handle s) :=
  atCrown_kept fun _ hp => by
    split
    exacts [.ite hp (.freeHandle (.setEnt (.freePages (.setRound (.orphanRound hp))))), hp]

theorem execOutputPathTimeout_kept {c : Crown} {handle : W32} {s : State} : a.Kept s (execOutputPathTimeout c handle s) :=
  atCrown_kept fun _ hp => by
    split
    · exact hp
    · split
      exacts [hp, .ite (.endCtx hp) hp]

theorem execForecastPost_kept {c : Crown} {s : State} : a.Kept s (execForecastPost c s) :=
  atCrown_kept fun _ hp => .ite hp (.upd (.foldl (fun _ _ hq => .setSh hq) hp))

theorem execStepCommand_kept {c : Crown} {s : State} : a.Kept s (execStepCommand c s) :=
  atCrown_kept fun _ hp => by
    split
    · exact hp
    · next _ q heq =>
        have hq : q.Canon a := by
          refine of_ite_eq heq (fun heq => ?_) fun heq => ?_
          · cases heq
          · exact .nextMsg hp heq
        exact .ite (by split; exacts [hq, .modPort hq])
          (by dsimp only; split; exacts [.sendStepReport hq, .sendStep (.modCrown hq)])

theorem execStepReport_kept {c : Crown} {s : State} : a.Kept s (execStepReport c s) :=
  atCrown_kept fun _ hp => by
    split
    · exact hp
    · next _ q heq =>
        have hq : q.Canon a := .nextMsg hp heq
        dsimp only
        split
        exacts [hq, .modCrown hq]

theorem Panel.Canon.placeMirror {p : Panel} {h : Nat} {w : Option Place} {e : CtxEntry} (hp : p.Canon a) :
    (p.placeMirror h w e).Canon a := by
  unfold Panel.placeMirror
  dsimp only
  split
  · exact .ite (.setHandle (.storeEnt hp)) (.ite (.setHandle (.setHeld (.storeEnt (.pick hp)))) (.storeEnt hp))
  · exact .ite (.setHandle (.setHeld hp)) (.ite (.setHeld hp)
      (by split; exacts [.setHeld hp, .setHandle (.storeEnt (.setHeld hp))]))
  · exact .ite hp (by split; exacts [hp, .setHandle (.storeEnt hp)])

theorem execMirrorUpdate_kept {c : Crown} {s : State} : a.Kept s (execMirrorUpdate c s) :=
  atCrown_kept fun _ hp => by
    split
    · exact hp
    · next _ q heq =>
        have hq : q.Canon a := .nextMsg hp heq
        exact .placeMirror hq

theorem execTokenRecordMessage_kept {c : Crown} {s : State} : a.Kept s (execTokenRecordMessage c s) :=
  atCrown_kept fun _ hp => by
    split
    · exact hp
    · next _ q heq =>
        have hq : q.Canon a := .nextMsg hp heq
        exact .ite hq (.ite hp (.modQ hq))

theorem execFabricRecordResend_kept {c : Crown} {queue : Fin 4096} {s : State} : a.Kept s (execFabricRecordResend c queue s) :=
  atCrown_kept fun _ hp => .foldl (fun _ _ hq => by split; exacts [hq, .ite hq (.peerSend (.modCrown hq))]) hp

theorem Panel.Canon.modStep {p : Panel} {c : Crown} {num : Nat} {f : Step → Step} (hp : p.Canon a) :
    (p.modStep c num f).Canon a := by
  unfold Panel.modStep
  split
  exacts [hp, .modCrown hp]

theorem Panel.Canon.refusedRecords {p : Panel} {l : List FabRec} {status : Nat} (hp : p.Canon a) :
    (p.refusedRecords l status).Canon a :=
  .foldl (fun _ _ hq => by split; exacts [.endCtx hq, hq]) hp

theorem Panel.Canon.tokensAnswer {p : Panel} {c : Crown} {key status : Nat} (hp : p.Canon a) :
    (p.tokensAnswer c key status).Canon a :=
  .ite (.fabPump (.modCrown hp)) (.ite (.fabPump (.refusedRecords (.modCrown hp))) (.modCrown hp))

theorem Panel.Canon.groupAnswer {p : Panel} {c : Crown} {id status : Nat} (hp : p.Canon a) :
    (p.groupAnswer c id status).Canon a := by
  unfold Panel.groupAnswer
  split
  · exact hp
  · refine .ite (.modCrown hp) ?_
    dsimp only
    split
    · exact .modCrown hp
    · split
      exacts [.modCrown hp, .modCrown (.modCrown hp)]

theorem Panel.Canon.crownAnswer {p : Panel} {c : Crown} {use : CrownUse} {status : Nat} {data : List Byte} {bad : Bool}
    (hp : p.Canon a) : (p.crownAnswer c use status data bad).Canon a := by
  unfold Panel.crownAnswer
  dsimp only
  split
  · exact .modStep hp
  · exact .modStep hp
  · exact .modStep hp
  · exact .groupAnswer hp
  · exact .tokensAnswer hp
  · exact .barWriteAnswer hp
  · exact .barReadAnswer hp

theorem Panel.Canon.ctxCfgWrite {p : Panel} {c : Crown} {value : W64} (hp : p.Canon a) : (p.ctxCfgWrite c value).Canon a :=
  .ite (.cbump hp) (.modCrown hp)

theorem Panel.Canon.svcBaseWrite {p : Panel} {c : Crown} {value : W64} (hp : p.Canon a) : (p.svcBaseWrite c value).Canon a :=
  .ite (.cbump hp) (.modCrown hp)

theorem Panel.Canon.bothCrowns {p : Panel} {off v : Nat} (hp : p.Canon a) : (p.bothCrowns off v).Canon a :=
  .modCrown (.modCrown hp)

theorem Panel.Canon.ovfCfgWrite {p : Panel} {c : Crown} {value : W64} (hp : p.Canon a) : (p.ovfCfgWrite c value).Canon a :=
  .ite (.cbump hp) (.bothCrowns hp)

theorem Panel.Canon.plimWrite {p : Panel} {part : Nat} {value : W64} (hp : p.Canon a) : (p.plimWrite part value).Canon a :=
  .bothCrowns hp

/-! ### Groups of panels: seen masks, suspects and their decision, expulsion, adoption, takeover, and the goodput counters
(R335–R346). -/

theorem Panel.Canon.control {p : Panel} {c : Crown} {action index dev : Nat} (hp : p.Canon a) :
    (p.control c action index dev).Canon a :=
  .foldl (fun _ _ hq => .ite (.groupSend hq) hq) (.logCrown hp)

theorem Panel.Canon.blockDevice {p : Panel} {dev : Nat} (hp : p.Canon a) : (p.blockDevice dev).Canon a :=
  .allPorts hp

theorem Panel.Canon.closeInterval {p : Panel} {c : Crown} (hp : p.Canon a) : (p.closeInterval c).Canon a :=
  .foldl (fun _ _ hq => .ite hq (.ite (.setMembFld (.setMembFld (.modCrown hq))) (.setMembFld (.modCrown hq)))) hp

theorem execSeenMaskReceive_kept {c : Crown} {s : State} : a.Kept s (execSeenMaskReceive c s) :=
  atCrown_kept fun _ hp => by
    split
    · exact hp
    · next _ q heq =>
        have hq : q.Canon a := .nextMsg hp heq
        exact .ite (.modCrown (.ite (.closeInterval hq) hq)) (.modCrown (.closeInterval
          (.modCrown (.ite (.closeInterval hq) hq))))

theorem Panel.Canon.setAlert {p : Panel} {v : Nat} (hp : p.Canon a) : (p.setAlert v).Canon a :=
  .allPorts hp

theorem Panel.Canon.settleAlert {p : Panel} (hp : p.Canon a) : p.settleAlert.Canon a :=
  .ite hp (.setAlert hp)

theorem Panel.Canon.loseMember {p : Panel} {i : Nat} (hp : p.Canon a) : (p.loseMember i).Canon a :=
  .foldl (fun _ _ hq => .ite (.foldl (fun _ _ hr => .abandon hr) hq) hq) hp

theorem Panel.Canon.nameStandby {p : Panel} {dev : Nat} (hp : p.Canon a) : (p.nameStandby dev).Canon a :=
  .foldl (fun _ _ hq => .modCrown hq) hp

theorem Panel.Canon.expel {p : Panel} {c : Crown} {i spare : Nat} (hp : p.Canon a) : (p.expel c i spare).Canon a := by
  unfold Panel.expel
  dsimp only
  exact .upd (.blockDevice (.control (.control (.allPorts (.setMemb (.setMembFld
    (.setMembFld (.setMembFld (.ite (.nameStandby (.setEpoch (.loseMember hp))) (.setEpoch (.loseMember hp)))))))))))

theorem Panel.Canon.decide' {p : Panel} {c : Crown} {i : Nat} (hp : p.Canon a) : (p.decide' c i).Canon a := by
  refine .ite (.settleAlert (.setMembFld (.upd hp))) (.ite (.setMembFld hp) ?_)
  split
  · exact .ite (.control (.ite (.setAlert (.setMembFld hp)) (.upd (.setAlert (.setMembFld hp))))) (.expel hp)
  · exact .control (.setAlert (.setMembFld hp))

theorem execSuspectDecision_kept {c : Crown} {i : Fin 64} {s : State} : a.Kept s (execSuspectDecision c i s) :=
  atCrown_kept fun _ hp => .ite hp (.ite (.decide' hp) (.ite (.decide' hp) hp))

theorem execExpulsionLimitEnd_kept {c : Crown} {s : State} : a.Kept s (execExpulsionLimitEnd c s) :=
  atCrown_kept fun _ hp => .ite hp (.foldl (fun _ _ hq => .ite (.decide' hq) hq) (.upd hp))

theorem Panel.Canon.relead {p : Panel} {c : Crown} {slots : List (Nat × CtxEntry)} (hp : p.Canon a) :
    (p.relead c slots).Canon a :=
  .foldl (fun _ _ hq => .ite hq (.deliver hq)) hp

theorem execManagerTakeover_kept {c : Crown} {s : State} : a.Kept s (execManagerTakeover c s) :=
  atCrown_kept fun _ hp => by
    dsimp only
    split
    · refine .ite hp (.relead (.control (.foldl (fun _ _ hq => .modCrown hq) ?_)))
      split
      · exact .setMembFld (.setMembFld (.setMembFld (.setRole (.setEpoch hp))))
      · exact .setMembFld (.setMembFld (.setRole (.setEpoch hp)))
    · exact hp

theorem Panel.Canon.takeControl {p : Panel} {c : Crown} {action : Nat} {q : Nat × Nat × Panel} (hp : p.Canon a)
    (h : p.takeControl c action = some q) : q.2.2.Canon a := by
  unfold Panel.takeControl at h
  split at h
  · cases h
  · refine of_ite_eq h (fun h => ?_) fun h => ?_
    · cases h
    · dsimp only at h
      refine of_ite_eq h (fun h => ?_) fun h => ?_
      · cases h
        exact (by split; exacts [.seeEpoch (.modCrown hp), .modCrown hp])
      · cases h
        exact .snd_mk (.logCrown (by split; exacts [.seeEpoch (.modCrown hp), .modCrown hp]))

theorem Panel.Canon.onControl {p : Panel} {c : Crown} {action : Nat} {f : Nat → Nat → Panel → Panel} (hp : p.Canon a)
    (hf : ∀ i dev q, q.Canon a → (f i dev q).Canon a) : (p.onControl c action f).Canon a := by
  unfold Panel.onControl
  split
  · exact hp
  · next _ _ q heq =>
      have hq : q.Canon a := .takeControl hp heq
      exact .ite hq (hf _ _ _ hq)

theorem execGroupFence_kept {c : Crown} {s : State} : a.Kept s (execGroupFence c s) :=
  atCrown_kept fun _ hp => .onControl hp fun _ _ _ hq => .setMembFld hq

theorem execGroupUnfence_kept {c : Crown} {s : State} : a.Kept s (execGroupUnfence c s) :=
  atCrown_kept fun _ hp => .onControl hp fun _ _ _ hq => .settleAlert (.setMembFld hq)

theorem execGroupExpel_kept {c : Crown} {s : State} : a.Kept s (execGroupExpel c s) :=
  atCrown_kept fun _ hp => .onControl hp fun _ _ _ hq => .blockDevice hq

theorem Panel.Canon.sendReady {p : Panel} {c : Crown} {i : Nat} (hp : p.Canon a) : (p.sendReady c i).Canon a := by
  unfold Panel.sendReady
  split
  exacts [hp, .groupSend hp]

theorem execGroupAdopt_kept {c : Crown} {s : State} : a.Kept s (execGroupAdopt c s) :=
  atCrown_kept fun _ hp => .onControl hp fun i dev q hq => by
    extract_lets own spare p p' p''
    clear_value spare
    have h : p.Canon a := by
      dsimp only [p]
      split
      exacts [.setMemb hq, hq]
    have h' : p'.Canon a := .setMembFld (.setMembFld h)
    have h'' : p''.Canon a := .setRole h'
    exact .ite (.ite (.upd h'') (.sendReady h'')) h'

theorem execGroupTakeover_kept {c : Crown} {s : State} : a.Kept s (execGroupTakeover c s) :=
  atCrown_kept fun _ hp => .onControl hp fun i dev p hp => by
    extract_lets p1 p2 p3
    have h1 : p1.Canon a := .foldl (fun _ _ hq => .ite (.setMembFld hq) hq) hp
    have h2 : p2.Canon a := .setMembFld h1
    have h3 : p3.Canon a := .ite (.stepDown h2) h2
    exact .foldl (fun _ _ hq => .modCrown hq) h3

theorem execGroupReady_kept {c : Crown} {s : State} : a.Kept s (execGroupReady c s) :=
  atCrown_kept fun _ hp => .onControl hp fun _ _ _ hq => .ite (.foldl (fun _ _ hr => .setEnt hr) (.upd hq)) (.upd hq)

theorem execGroupMessageResend_kept {c : Crown} {s : State} : a.Kept s (execGroupMessageResend c s) :=
  atCrown_kept fun _ hp => .foldl (fun _ _ hq => by split; exacts [hq, .ite hq (.peerSend (.modCrown hq))]) hp

theorem execGoodputTick_kept {c : Crown} {s : State} : a.Kept s (execGoodputTick c s) :=
  atCrown_kept fun _ hp => .ite hp (.allPorts (.upd hp))

/-! ### Windows (R231–R234), placement images and the load of a model (R235–R245, R259). -/

theorem Panel.Canon.winWrite {p : Panel} {w word : Nat} {value : W64} (hp : p.Canon a) : (p.winWrite w word value).Canon a :=
  .ite (.bumpSh hp) (.allPorts (.setSh hp))

theorem Panel.Canon.arm {p : Panel} {m h off : Nat} {t : List SectEnt} (hp : p.Canon a) : (p.arm m h off t).Canon a :=
  .foldl (fun _ _ hq => by split; exacts [hq, .modHub hq fun _ hk => .upd hk]) (.modHub hp fun _ hk => .upd hk)

theorem Panel.Canon.disarm {p : Panel} {m : Nat} (hp : p.Canon a) : (p.disarm m).Canon a := by
  refine ⟨hp.1, fun x hx => ?_⟩
  obtain ⟨y, hy, rfl⟩ := List.mem_map.1 hx
  exact .upd (hp.2 y hy)

theorem Panel.Canon.unseal {p : Panel} {m : Nat} (hp : p.Canon a) : (p.unseal m).Canon a := by
  refine ⟨hp.1, fun x hx => ?_⟩
  obtain ⟨y, hy, rfl⟩ := List.mem_map.1 hx
  exact .upd (hp.2 y hy)

theorem Panel.Canon.sealRange {p : Panel} {m h off n : Nat} (hp : p.Canon a) : (p.sealRange m h off n).Canon a :=
  .modHub hp fun _ hk => .upd hk

theorem Panel.Canon.dropRed {p : Panel} {m : Nat} (hp : p.Canon a) : (p.dropRed m).Canon a :=
  .modModel (.foldl (fun _ _ hq => .modCore hq fun _ hk => .wr hk) hp)

theorem Panel.Canon.endLoad {p : Panel} {m status : Nat} (hp : p.Canon a) : (p.endLoad m status).Canon a := by
  unfold Panel.endLoad
  split
  exacts [hp, .finishReq (.modModel hp)]

theorem Panel.Canon.failLoad {p : Panel} {m cause status : Nat} (hp : p.Canon a) : (p.failLoad m cause status).Canon a :=
  .endLoad (.modModel (.disarm (.unseal (.dropRed hp))))

theorem execLoadBegin_kept {c : Crown} {s : State} : a.Kept s (execLoadBegin c s) :=
  atCrown_kept fun _ hp => by
    split
    · exact hp
    · next _ q heq =>
        have hq : q.Canon a := .nextReq hp heq
        split
        · exact .finishReq hq
        · dsimp only
          split
          · exact .finishReq (.pick hq)
          · split
            · exact .failLoad (.setModel (.pick hq))
            · exact .ite (.failLoad (.modModel (.setModel (.pick hq)))) (.endLoad (.arm (.modModel (.setModel (.pick hq)))))

theorem execLoadCommit_kept {c : Crown} {s : State} : a.Kept s (execLoadCommit c s) :=
  atCrown_kept fun _ hp => by
    split
    · exact hp
    · next _ q heq =>
        have hq : q.Canon a := .nextReq hp heq
        split
        · exact .finishReq hq
        · refine .ite (.finishReq hq) ?_
          dsimp only
          split
          · exact .failLoad (.setModel hq)
          · exact .modModel (.foldl (fun _ _ hp' => by split; exacts [hp', .sealRange hp'])
              (by split; exacts [.sealRange (.setModel hq), .setModel hq]))

theorem execLoadIdleTimeout_kept {m : Fin 16} {s : State} : a.Kept s (execLoadIdleTimeout m s) :=
  onPanel_kept fun _ hp => .ite (.failLoad hp) hp

theorem Core.Canon.reshapeTo {k : Core} {dial mask : Nat} (hk : k.Canon a) : (k.reshapeTo dial mask).Canon a :=
  .reshapeEnd (.reshapeSettle (.grpPwrWrite hk))

theorem Core.Canon.loadRed : ∀ {vs es acc : List Nat} {k : Core}, k.Canon a → (Core.loadRed k vs es acc).1.Canon a
  | [], _, _, _, hk => hk
  | _ :: _, [], _, _, hk => hk
  | _ :: vs, _ :: es, _, _, hk => Core.Canon.loadRed (vs := vs) (es := es) (.redWrite hk)

theorem Panel.Canon.stream {p : Panel} {part : Nat} {s : SectEnt} (hp : p.Canon a) : (p.stream part s).2.Canon a := by
  unfold Panel.stream
  split
  · exact .snd_mk (.setCore (.setHub hp (.readCws (.ofPanel hp))) (.writeBytes
      (.ofPanel (.setHub hp (.readCws (.ofPanel hp))))))
  · exact hp

theorem Panel.Canon.applyControl {p : Panel} {m : Nat} {s : SectEnt} (hp : p.Canon a) : (p.applyControl m s).Canon a := by
  unfold Panel.applyControl
  split
  · exact hp
  · exact .ite (.modCore hp fun _ hk => .reshapeTo hk) (.ite (.modCore hp fun _ hk => .planCtlWrite (.planWrite hk)) (.ite
      (.modModel (.setCore hp (.loadRed (.ofPanel hp)))) hp))

theorem Panel.Canon.streamAll :
    ∀ {part : Nat} {ss : List SectEnt} {p : Panel}, p.Canon a → (Panel.streamAll part ss p).2.Canon a
  | _, [], _, hp => hp
  | _, s :: ss, _, hp => by
    unfold Panel.streamAll
    dsimp only
    exact .snd_ite (.streamAll hp) (.snd_ite (.stream hp) (.streamAll (.stream hp)))

theorem execLoadTargetsIdle_kept {m : Fin 16} {s : State} : a.Kept s (execLoadTargetsIdle m s) :=
  onPanel_kept fun p hp => by
    extract_lets x staged p1 p2 r
    have h1 : p1.Canon a := .foldl (fun _ _ hq => .applyControl hq) hp
    have h2 : p2.Canon a := .foldl (fun _ _ hq => .applyControl hq) h1
    have hr : r.2.Canon a := .streamAll h2
    exact .ite hp (.ite (.failLoad hr) (.modModel hr))

theorem execLoadReady_kept {m : Fin 16} {s : State} : a.Kept s (execLoadReady m s) :=
  onPanel_kept fun _ hp => .ite hp (.ite (.sendReady (.upd (.endLoad (.disarm (.setModel hp))))) (.endLoad
    (.disarm (.setModel hp))))

theorem execUnload_kept {c : Crown} {s : State} : a.Kept s (execUnload c s) :=
  atCrown_kept fun _ hp => by
    split
    · exact hp
    · next _ q heq =>
        have hq : q.Canon a := .nextReq hp heq
        split
        · exact .finishReq hq
        · exact .ite (.finishReq hq) (.finishReq (.upd (.disarm (.unseal (.dropRed hq)))))

/-! ### Loss of a stack, a hub or a crown (R279, R280, R307, R308, R370), and the resets of the host port (R369). -/

theorem Panel.Canon.loseStack {p : Panel} {h cause : Nat} (hp : p.Canon a) : (p.loseStack h cause).Canon a :=
  .foldl (fun _ _ hq => .endCtx hq) (.logCrown (.setHub hp (.upd (.ofPanel hp))))

theorem execStackLoss_kept {h : HubIx} {cause : Fin 4} {s : State} : a.Kept s (execStackLoss h cause s) :=
  onPanel_kept fun _ hp => .ite hp (.loseStack hp)

theorem Panel.Canon.loseHub {p : Panel} {h cause : Nat} (hp : p.Canon a) : (p.loseHub h cause).Canon a :=
  .loseStack (.modHub hp fun _ hk => .upd hk)

theorem execHubHeartbeatLoss_kept {h : HubIx} {s : State} : a.Kept s (execHubHeartbeatLoss h s) :=
  onPanel_kept fun _ hp => .ite hp (.loseHub hp)

theorem execLostStackMaskWrite_kept {s : State} : a.Kept s (execLostStackMaskWrite s) :=
  onPanel_kept fun _ hp => .upd hp

theorem Panel.Canon.loseCrown {p : Panel} {c : Crown} (hp : p.Canon a) : (p.loseCrown c).Canon a := by
  unfold Panel.loseCrown
  extract_lets led o p1 _ p2 p3 p4 waiting p5 p6
  have h1 : p1.Canon a := .unlock (.setEsc hp)
  have h2 : p2.Canon a := .changeOrphan (.spOrphan (.setCrown h1))
  clear_value p2
  have h3 : p3.Canon a := .ite (.upd h2) h2
  clear_value p3
  have h4 : p4.Canon a := .logCrown h3
  have h5 : p5.Canon a := .modCrown h4
  have h6 : p6.Canon a := .foldl (fun _ _ hq => by
    split
    exacts [hq, .foldl (fun _ _ hq => .deliver hq) hq]) h5
  exact .ite (.upd h2) (.relead h6)

theorem execCrownLoss_kept {c : Crown} {s : State} : a.Kept s (execCrownLoss c s) :=
  onPanel_kept fun _ hp => .ite hp (.loseCrown hp)

theorem Panel.Canon.resetFn {p : Panel} {f : Nat} (hp : p.Canon a) : (p.resetFn f).Canon a :=
  .foldl (fun _ _ hq => .failLoad hq) (.foldl (fun _ _ hq => .endCtx hq) (.modFn (.upd hp)))

theorem execFlrVf_kept {fn : HostFn} {s : State} : a.Kept s (execFlrVf fn s) :=
  onPanel_kept fun _ hp => .ite hp (.hostBump (.resetFn hp))

theorem Panel.Canon.resetFns {p : Panel} (hp : p.Canon a) : p.resetFns.Canon a := by
  unfold Panel.resetFns
  dsimp only
  exact .modCrown (.foldl (fun _ _ hq => .resetFn hq) hp)

theorem execFlrPf_kept {s : State} : a.Kept s (execFlrPf s) :=
  onPanel_kept fun _ hp => .ite hp (.upd (.hostBump (.resetFns hp)))

theorem execHostReset_kept {s : State} : a.Kept s (execHostReset s) :=
  onPanel_kept fun _ hp => .ite hp (.upd (.modCrown (.resetFns hp)))

/-! ### Sites and dies that gain or lose power in service: retirement, split rows, faulted partitions, converters (R31–R34,
R41, R56, R196, R406, R407, R454). -/

theorem Panel.Canon.placeSite {p : Panel} {n : Nat} {i : SiteInfo} (hp : p.Canon a) : (p.placeSite n i).Canon a :=
  .modCore (.setSite hp) fun _ hk => .setF (.setF (.setF hk))

theorem Panel.Canon.vacateRow {p : Panel} {r : Nat} (hp : p.Canon a) : (p.vacateRow r).Canon a :=
  .foldl (fun _ _ hq => .ite (.placeSite hq) (.setSite hq)) hp

theorem Panel.Canon.abandonPart {p : Panel} {part : Nat} (hp : p.Canon a) : (p.abandonPart part).Canon a :=
  .foldl (fun _ _ hq => .foldl (fun _ _ hr => .ite (.abandon hr) hr) hq) (.foldl (fun _ _ hq => .unseat hq) hp)

theorem Panel.Canon.holdModels {p : Panel} {part : Nat} {stop : Bool} (hp : p.Canon a) : (p.holdModels part stop).Canon a := by
  unfold Panel.holdModels
  dsimp only
  exact .upd hp

theorem Panel.Canon.faultPart {p : Panel} {part cause : Nat} (hp : p.Canon a) : (p.faultPart part cause).Canon a :=
  .holdModels (.foldl (fun _ _ hq => .endCtx hq) (.abandonPart (.upd (.logCrown hp))))

theorem Core.Canon.powerDown {f : Fuses} {n : Nat} {k : Core} (_hk : k.Canon a) : (Core.powerDown f n k).Canon a :=
  .setFloor (.upd .blank)

theorem Panel.Canon.cutSite {p : Panel} {n : Nat} (hp : p.Canon a) : (p.cutSite n).Canon a :=
  .foldl (fun _ _ hq => by split; exacts [hq, .ite (.purge (.logCore (.modCore hq fun _ hk => .linkEnd hk))) hq])
    (.modCore hp fun _ hk => .powerDown hk)

theorem Panel.Canon.dropAtts {p : Panel} {n : Nat} (hp : p.Canon a) : (p.dropAtts n).Canon a :=
  .foldl (fun _ _ hq => by split; exacts [.ite (.loseStack hq) hq, .ite (.portFall hq) hq, .ite (.loseCrown hq) hq]) hp

theorem Panel.Canon.retireSite {p : Panel} {n cause : Nat} (hp : p.Canon a) : (p.retireSite n cause).Canon a := by
  refine .ite hp ?_
  extract_lets i parts p1 p2 p3 p4
  have h1 : p1.Canon a := .upd hp
  have h2 : p2.Canon a := .setSite h1
  clear_value p2
  have h3 : p3.Canon a := .dropAtts (.cutSite h2)
  have h4 : p4.Canon a := .upd h3
  exact .ite (.vacateRow h4) h4

theorem Panel.Canon.loseSite {p : Panel} {n cause : Nat} (hp : p.Canon a) : (p.loseSite n cause).Canon a :=
  .retireSite (.reportLoss hp)

theorem Panel.Canon.setRgn {p : Panel} {g st : Nat} (hp : p.Canon a) : (p.setRgn g st).Canon a :=
  .setShF hp

theorem Panel.Canon.loseRegion {p : Panel} {g : Nat} (hp : p.Canon a) : (p.loseRegion g).Canon a :=
  .foldl (fun _ _ hq => .faultPart hq) (.foldl (fun _ _ hq => .retireSite hq) (.logCrown (.setRgn hp)))

theorem Panel.Canon.setEdge {p : Panel} {e st : Nat} (hp : p.Canon a) : (p.setEdge e st).Canon a :=
  .setShF hp

theorem Panel.Canon.losePortDie {p : Panel} {d : Nat} (hp : p.Canon a) : (p.losePortDie d).Canon a :=
  .modPort (.foldl (fun _ _ hq => .ite (.portFall hq) hq) hp)

theorem Panel.Canon.loseEdge {p : Panel} {e : Nat} (hp : p.Canon a) : (p.loseEdge e).Canon a := by
  unfold Panel.loseEdge
  extract_lets c p1 p2 p3
  have h1 : p1.Canon a := .logCrown (.setEdge hp)
  have h2 : p2.Canon a := .foldl (fun _ _ hq => .ite (.loseHub hq) hq) h1
  have h3 : p3.Canon a := .foldl (fun _ _ hq => .ite (.losePortDie hq) hq) h2
  clear_value p3
  split
  exacts [h3, .ite (.loseCrown h3) h3]

theorem Panel.Canon.startSite {p : Panel} {n : Nat} (hp : p.Canon a) : (p.startSite n).Canon a :=
  .modCore hp fun _ hk => .clockUp (.upd (.setF hk))

/-! ### Supply, ramp governor, region power, the power cap and telemetry (R400–R419, R433–R435). -/

theorem Panel.Canon.dark {p : Panel} : p.dark.Canon a := dies_nil

theorem execPowerLoss_kept {s : State} : a.Kept s (execPowerLoss s) := always_kept fun _ _ => .dark

theorem execResetInput_kept {c : Crown} {s : State} : a.Kept s (execResetInput c s) :=
  always_kept fun _ _ => .upd .dark

theorem Panel.Canon.broadcast {p : Panel} {c : Nat} (hp : p.Canon a) : (p.broadcast c).Canon a := by
  unfold Panel.broadcast
  dsimp only
  exact .upd (.eachPowered hp fun _ hk => .setMgmt hk)

theorem Panel.Canon.shed {p : Panel} (hp : p.Canon a) : p.shed.Canon a := by
  unfold Panel.shed
  extract_lets q
  have hq : q.Canon a := .eachPowered (.broadcast hp) fun k hk => .upd (k := k.setFloor 0) (.setFloor hk)
  exact .upd hq

theorem Panel.Canon.unshed {p : Panel} (hp : p.Canon a) : p.unshed.Canon a :=
  .same hp

theorem Panel.Canon.powerFail {p : Panel} {dv : Nat} (hp : p.Canon a) : (p.powerFail dv).Canon a :=
  .shed (.logCrown (.bumpSh (.setShF hp)))

theorem Panel.Canon.busSample {p : Panel} {dv qa west : Nat} (hp : p.Canon a) : (p.busSample dv qa west).Canon a := by
  unfold Panel.busSample
  extract_lets w lug p1 p2 off _ p3
  have h1 : p1.Canon a := .setShF (.setShF hp)
  clear_value p1
  have h2 : p2.Canon a := .upd h1
  clear_value p2
  have h3 : p3.Canon a := .ite (.alertOut (.setShF h2)) (.ite (.setShF h2) h2)
  exact .ite .dark (.ite (.upd (p := off) .dark) (.ite (.ite (.unshed (.setShF h3)) h3) (.ite (.powerFail h3) h3)))

theorem execBusSample_kept {deciVolts quarterAmps westLugPercent : Nat} {s : State} :
    a.Kept s (execBusSample deciVolts quarterAmps westLugPercent s) :=
  always_kept fun _ hp => .ite (.busSample hp) (.ite (.upd hp) hp)

theorem execPhaseFailure_kept {n : Site} {ph : Fin 8} {s : State} : a.Kept s (execPhaseFailure n ph s) :=
  atSite_kept fun k p hk hp => by
    extract_lets v failed' failed nf l q
    have hq : q.Canon a := .logCore (.setCore hp (.bump (.setF (.setF hk))))
    exact .ite hp (.ite (.loseSite hq) (.ite (.modCore hq fun _ hk => .setPwr hk) hq))

theorem execRegionSupplyLoss_kept {g : Region} {s : State} : a.Kept s (execRegionSupplyLoss g s) :=
  onPanel_kept fun _ hp => .ite (.loseRegion hp) hp

theorem execEdgeConverterFault_kept {e : Fin 8} {s : State} : a.Kept s (execEdgeConverterFault e s) :=
  onPanel_kept fun _ hp => .ite (.loseEdge hp) hp

theorem execRampBucketGrant_kept {s : State} : a.Kept s (execRampBucketGrant s) :=
  onPanel_kept fun _ hp => .ite hp (.ite (.rampGo (.feedRises hp)) (.feedRises hp))

theorem execPreRampStart_kept {k : Fin 5} {s : State} : a.Kept s (execPreRampStart k s) :=
  onPanel_kept fun _ hp => .ite hp (.ite (.raiseFloors hp) hp)

theorem execFloorLower_kept {s : State} : a.Kept s (execFloorLower s) :=
  onPanel_kept fun _ hp => .upd (.foldl (fun _ _ hq => .modCore hq fun _ hk => .setFloor hk) hp)

theorem Panel.Canon.rgnCmd {p : Panel} {value : W64} (hp : p.Canon a) : (p.rgnCmd value).Canon a :=
  .ite (.bumpSh hp) (.ite (.ite (.upd (.setShF hp)) (.bumpSh hp)) (.ite (.bumpSh hp)
    (.ite (.upd (.setShF hp)) (.ite (.bumpSh hp) (.setShF (.setRgn (.upd
    (.foldl (fun _ _ hq => .ite (.dropAtts (.cutSite hq)) hq) hp))))))))

theorem execRampGrant_kept {g : Region} {s : State} : a.Kept s (execRampGrant g s) :=
  onPanel_kept fun _ hp => .ite (.upd (.setShF (.setRgn hp))) hp

theorem execSiteRegulatorStart_kept {g : Region} {s : State} : a.Kept s (execSiteRegulatorStart g s) :=
  onPanel_kept fun _ hp => by
    split
    · exact hp
    · refine .ite hp (.ite (.upd (.ite (.setRgn hp) hp)) ?_)
      split
      · exact .rampWait hp
      · next q heq =>
          have hq : q.Canon a := .rise hp heq
          exact .upd (.ite (.setRgn (.startSite hq)) (.startSite hq))

theorem Panel.Canon.overCap {p : Panel} (hp : p.Canon a) : p.overCap.Canon a :=
  .ite (.spSettle (.upd hp)) (.bumpSh (.spRequest (.setSh (.spSettle (.upd hp)))))

theorem execPowerCapCheck_kept {w10us w1ms : Nat} {s : State} : a.Kept s (execPowerCapCheck w10us w1ms s) :=
  onPanel_kept fun p hp => by
    extract_lets peaks top p1 _ p2 cap _ p3 p4 p5 _ p6
    have h1 : p1.Canon a := .setSh hp
    clear_value p1
    have h2 : p2.Canon a := .upd h1
    have h3 : p3.Canon a := .upd h2
    clear_value p3
    have h4 : p4.Canon a := .ite (.overCap h3) h3
    clear_value p4
    have h5 : p5.Canon a := .bumpSh (.broadcast h4)
    clear_value p5
    have h6 : p6.Canon a := .ite (.upd h5) h4
    exact .ite (.bumpSh (.broadcast h6)) h6

theorem execCapRestore_kept {s : State} : a.Kept s (execCapRestore s) :=
  onPanel_kept fun _ hp => by
    split
    · exact hp
    · refine .ite hp ?_
      dsimp only
      split
      · exact .rampWait hp
      · next q heq =>
          have hq : q.Canon a := .rise hp heq
          exact .upd (.eachPowered hq fun _ hk => .setMgmt hk)

theorem Panel.Canon.sampleDomain {p : Panel} {d : PowerDomain} {mv ma : Nat} (hp : p.Canon a) :
    (p.sampleDomain d mv ma).Canon a := by
  unfold Panel.sampleDomain
  split
  exacts [.ite (.modCore hp fun _ hk => .upd (.wr hk)) hp, .setSh hp, .setShF hp, .setShF hp]

theorem execTelemetrySample_kept {domain : PowerDomain} {millivolts milliamps : Nat} {s : State} :
    a.Kept s (execTelemetrySample domain millivolts milliamps s) :=
  onPanel_kept fun _ hp => .sampleDomain hp

theorem execEnergyTick_kept {millijoules : Nat} {s : State} : a.Kept s (execEnergyTick millijoules s) :=
  onPanel_kept fun _ hp => .wrapSh hp

theorem execEnergyTenantUpdate_kept {s : State} : a.Kept s (execEnergyTenantUpdate s) :=
  onPanel_kept fun _ hp => .ite (.upd (.setSh hp)) hp

theorem Panel.Canon.ignPwr {p : Panel} (hp : p.Canon a) : p.ignPwr.Canon a :=
  .bumpSh hp

theorem Panel.Canon.pwrCapWrite {p : Panel} {value : W64} (hp : p.Canon a) : (p.pwrCapWrite value).Canon a :=
  .ite (.setSh hp) (.ignPwr hp)

theorem Panel.Canon.pwrRampWrite {p : Panel} {value : W64} (hp : p.Canon a) : (p.pwrRampWrite value).Canon a :=
  .ite (.setSh (.upd hp)) (.ignPwr hp)

theorem Panel.Canon.flowCfgWrite {p : Panel} {value : W64} (hp : p.Canon a) : (p.flowCfgWrite value).Canon a :=
  .ite (.setSh hp) (.ignPwr hp)

theorem Core.Canon.floorWrite {k : Core} {value : W64} (hk : k.Canon a) : (k.floorWrite value).Canon a :=
  .ite hk (.setFloor hk)

/-! ### Sensors, thermal limits, the HBM limit, lehr mode and coolant (R420–R432, R525, R526). Temperatures of sites are in
quarters of a degree. -/

theorem Core.Canon.siteT {k : Core} {dial : Nat} (hk : k.Canon a) : (k.siteT dial).Canon a :=
  .setF (.setF (.setF (.setF hk)))

theorem Core.Canon.slowFrom {k : Core} {dial : Nat} (hk : k.Canon a) : (k.slowFrom dial).Canon a := by
  unfold Core.slowFrom
  dsimp only
  exact .upd hk

theorem Core.Canon.convert {k : Core} {dial n i : Nat} {q : Int} (hk : k.Canon a) : (k.convert dial n i q).Canon a := by
  unfold Core.convert
  extract_lets off h u1 u2 _ k1 _ k2 k3
  have hu1 : u1.Canon a := .bump hk
  have hu2 : u2.Canon a := .wr hk
  clear_value u2
  have h1 : k1.Canon a := .ite (.ite (.logErr (.setF hu1)) hu1) (.upd hu2)
  clear_value k1
  have h2 : k2.Canon a := by
    dsimp only [k2]
    split
    · refine .ite (.logErr (.bump ?_)) ?_ <;> exact .upd h1
    · exact h1
  have h3 : k3.Canon a := .siteT h2
  exact .ite (.slowFrom (.setThm h3)) h3

theorem execSensorConversion_kept {n : Site} {i : Fin 6} {quarterC : Int} {s : State} :
    a.Kept s (execSensorConversion n i quarterC s) :=
  atSite_kept fun _ _ hk hp => .setCore hp (.convert hk)

theorem Core.Canon.countSlow {k : Core} {dial : Nat} (hk : k.Canon a) : (k.countSlow dial).Canon a := by
  unfold Core.countSlow
  split
  exacts [hk, .upd (.bump hk)]

theorem Core.Canon.evaluate {k : Core} {dial : Nat} (hk : k.Canon a) : (k.evaluate dial).1.Canon a := by
  unfold Core.evaluate
  split
  · exact .countSlow hk
  · extract_lets lvl old k1 x cap k2 k3 enter k4 l _ k5 _
    have h1 : k1.Canon a := .countSlow hk
    clear_value k1
    have h2 : k2.Canon a := .ite h1 (.setThm h1)
    have h3 : k3.Canon a := .setF h2
    have h4 : k4.Canon a := .ite (.bump h3) h3
    clear_value k4
    have h5 : k5.Canon a := .ite (.upd (k := l) (.setFloor h4)) h4
    clear_value k5
    exact .upd (k := k5) h5

theorem execThermalEvaluation_kept {n : Site} {s : State} : a.Kept s (execThermalEvaluation n s) :=
  atSite_kept fun _ _ hk hp => .ite (.alertOut (.logCore (.setCore hp (.evaluate hk)))) (.setCore hp (.evaluate hk))

theorem execThermalShedRetire_kept {n : Site} {s : State} : a.Kept s (execThermalShedRetire n s) :=
  atSite_kept fun _ _ _ hp => .ite (.loseSite hp) hp

theorem execThermalTrip_kept {die : Die} {s : State} : a.Kept s (execThermalTrip die s) :=
  onPanel_kept fun _ hp => by
    dsimp only
    split
    · exact .ite (.loseSite (.logCrown (.bumpSh hp))) hp
    · exact .ite (.loseHub (.logCrown (.bumpSh hp))) hp
    · exact .ite (.losePortDie (.logCrown (.bumpSh hp))) hp
    · exact .ite hp (.loseCrown (.logCrown (.bumpSh hp)))
    · exact hp

theorem Panel.Canon.setEdgeHot {p : Panel} {die : Die} {t : Option Nat} (hp : p.Canon a) : (p.setEdgeHot die t).Canon a := by
  unfold Panel.setEdgeHot
  split
  exacts [.modHub hp fun _ hk => .upd hk, .modPort hp, .modCrown hp, hp]

theorem Panel.Canon.edgeOff {p : Panel} {die : Die} {t : Nat} (hp : p.Canon a) : (p.edgeOff die t).Canon a := by
  unfold Panel.edgeOff
  dsimp only
  split
  exacts [.loseHub (.logCrown hp), .losePortDie (.logCrown hp), .loseCrown (.logCrown hp), hp]

theorem execEdgeThermalEvaluation_kept {die : Die} {celsius : Option Nat} {s : State} :
    a.Kept s (execEdgeThermalEvaluation die celsius s) :=
  onPanel_kept fun p hp => by
    split
    · exact hp
    · extract_lets off old t was p1 p2 p3 p4
      have h1 : p1.Canon a := .setSh hp
      have h2 : p2.Canon a := .ite (.alertOut h1) h1
      clear_value p2
      have h3 : p3.Canon a := by
        dsimp only [p3]
        split
        exacts [.ite (.modHub h2 fun _ hk => .upd hk) h2, h2]
      have h4 : p4.Canon a := .setEdgeHot h3
      exact .ite hp (.ite (.edgeOff h4) h4)

theorem execHbmLimitStep_kept {s : State} : a.Kept s (execHbmLimitStep s) :=
  onPanel_kept fun p hp => by
    extract_lets here q
    have hq : q.Canon a := .foldl (fun _ _ hq => .loseStack hq) hp
    clear_value q
    dsimp only
    split
    · exact .ite (.upd hq) hq
    · exact .ite (.ite (.upd hq) hq) (.upd hq)

theorem execLehrAdjust_kept {n : Site} {s : State} : a.Kept s (execLehrAdjust n s) :=
  atSite_kept fun _ _ _ hp => .ite (.modCore hp fun _ hl => .setF (.upd hl)) (.ite hp
    (.ite (.modCore hp fun _ hl => .setF (.upd hl)) (by
    dsimp only
    split
    · exact .rampWait hp
    · next q heq =>
        have hq : q.Canon a := .rise hp heq
        exact .modCore hq fun _ hl => .setF (.upd hl))))

theorem Core.Canon.lehrWrite {k : Core} {value : W64} (hk : k.Canon a) : (k.lehrWrite value).Canon a :=
  .ite (.setF (.ite (.setF (.setF hk)) (.setF hk))) (.ite (.setF (.setF hk)) (.setF hk))

theorem execThermistorRead_kept {inletDeciC outletDeciC : Option Int} {s : State} :
    a.Kept s (execThermistorRead inletDeciC outletDeciC s) :=
  onPanel_kept fun _ hp => .upd (.setShF (.setShF (.ite (.logCrown (.ite (.logCrown hp) hp)) (.ite (.logCrown hp) hp))))

theorem execFlowPulse_kept {s : State} : a.Kept s (execFlowPulse s) :=
  onPanel_kept fun _ hp => .upd hp

theorem Panel.Canon.coolAlert {p : Panel} {bit : Nat} {on : Bool} (hp : p.Canon a) : (p.coolAlert bit on).Canon a :=
  .ite (.alertOut (.logCrown (.setShF hp))) (.setShF hp)

theorem execCoolantEvaluation_kept {s : State} : a.Kept s (execCoolantEvaluation s) :=
  onPanel_kept fun _ hp => .ite hp (by
    dsimp only
    split
    · exact .coolAlert (.coolAlert (.upd (.setShF hp)))
    · exact .coolAlert (.coolAlert (.coolAlert (.coolAlert (.upd (.setShF hp))))))

theorem execAbruptStop_kept {s : State} : a.Kept s (execAbruptStop s) :=
  onPanel_kept fun _ hp => .ite hp (.shed (.upd (.bumpSh (.coolAlert hp))))

theorem execShedLift_kept {s : State} : a.Kept s (execShedLift s) :=
  onPanel_kept fun _ hp => .ite (.unshed (.coolAlert (.upd hp))) hp

theorem Panel.Canon.powerDown {p : Panel} (hp : p.Canon a) : p.powerDown.Canon a := by
  unfold Panel.powerDown
  extract_lets p1 blank p2 _ p3 p4 _
  have h1 : p1.Canon a := .foldl (fun q g hq => by
    extract_lets r
    have hr : r.Canon a := .foldl (fun _ _ hq => .modCore hq fun _ hk => .powerDown hk) hq
    exact .ite hr (.setRgn hr)) hp
  have h2 : p2.Canon a := .foldl (fun _ _ hq => .setHub hq (.upd (k := blank) .blank)) h1
  have h3 : p3.Canon a := .foldl (fun _ _ hq => .setPort hq) h2
  have h4 : p4.Canon a := .foldl (fun _ _ hq => .ite hq (.setEdge hq)) h3
  clear_value p4
  exact .upd h4

theorem execOrderlyStop_kept {s : State} : a.Kept s (execOrderlyStop s) :=
  onPanel_kept fun _ hp => .ite hp (.upd (.coolAlert (.powerDown (.foldl (fun _ _ hq => .faultPart hq) hp))))

/-! ### Table entries rewritten, rows restored from their shadow, and the crowns' error log (R502, R505, R508, R509, R513). -/

theorem execTableEntryRewrite_kept {die : Die} {off : Nat} {s : State} : a.Kept s (execTableEntryRewrite die off s) :=
  onPanel_kept fun _ hp => by
    split
    · dsimp only
      split
      · exact hp
      · exact .ite hp (.logCore (.logCore (.modCore hp fun _ hk => .bump (.bump (.ite (.wr hk) hk)))))
    · split
      exacts [hp, .ite hp (.logHub (.logHub (.modHub hp fun _ hk => .bump (.bump hk))))]
    · split
      exacts [hp, .ite hp (.logPort (.logPort (.modPort hp)))]
    · split
      exacts [hp, .ite hp (.logCrown (.logCrown (.modCrown hp)))]
    · exact hp

theorem Panel.Canon.restoreRow {p : Panel} {n : Nat} (hp : p.Canon a) : (p.restoreRow n).Canon a := by
  unfold Panel.restoreRow
  split
  exacts [hp, .ite hp (.logCrown (.modCore hp fun _ hk => .wr (.writeRow hk)))]

theorem execShadowRowRestore_kept {c : Crown} {step : Nat} {s : State} : a.Kept s (execShadowRowRestore c step s) :=
  atCrown_kept fun _ hp => by
    split
    exacts [hp, .ite hp (.foldl (fun _ _ hq => .restoreRow hq) (.modStep hp))]

theorem Panel.Canon.keepRecs {p : Panel} {c : Crown} {rs : List ErrRec} (hp : p.Canon a) : (p.keepRecs c rs).Canon a :=
  .ite hp (.foldl (fun _ _ hq => .emit hq) (.ite (.upd hp) (.modCrown (.upd hp))))

theorem execErrorLogPoll_kept {c : Crown} {s : State} : a.Kept s (execErrorLogPoll c s) :=
  atCrown_kept fun _ hp => .ite hp (.keepRecs (.modCrown (.foldl (fun _ _ hq => .modPort hq) (.foldl
    (fun _ _ hq => .modHub hq fun _ hk => .upd hk) (.foldl (fun _ _ hq => .ite hq (.modCore hq fun _ hk => .upd hk)) hp)))))

/-! ### What the writes of BOOT_CMD and BOOT_TEST_REQ do: restarts, half retrains, vacates, and the queue of tests (R446, R453,
R456, R457, R459, R462). -/

theorem Panel.Canon.ignBoot {p : Panel} (hp : p.Canon a) : p.ignBoot.Canon a :=
  .bumpSh hp

theorem Panel.Canon.restart {p : Panel} {full : Bool} : (p.restart full).Canon a := dies_nil

theorem Panel.Canon.pauseParts {p : Panel} {parts : List Nat} (hp : p.Canon a) : (p.pauseParts parts).Canon a :=
  .foldl (fun _ _ hq => .modCore hq fun _ hk => .cmd (.cmd hk)) (.foldl (fun _ _ hq => .holdModels (.abandonPart hq)) hp)

theorem Panel.Canon.beginVacate {p : Panel} {n : Nat} (hp : p.Canon a) : (p.beginVacate n).Canon a :=
  .pauseParts (.upd hp)

theorem Panel.Canon.vacateCmd {p : Panel} {c r : Nat} (hp : p.Canon a) : (p.vacateCmd c r).Canon a :=
  .ite (.ignBoot hp) (.ite (.upd hp) (.beginVacate hp))

theorem Panel.Canon.beginRetrain {p : Panel} {half : Nat} (hp : p.Canon a) : (p.beginRetrain half).Canon a := by
  unfold Panel.beginRetrain
  extract_lets p1 c p2 p3 p4 p5 p6 p7 mask
  have h1 : p1.Canon a := .foldl (fun _ _ hq => .faultPart hq) hp
  have h2 : p2.Canon a := .foldl (fun _ _ hq => .abandon hq) h1
  have h3 : p3.Canon a := .modCrown h2
  have h4 : p4.Canon a := .foldl (fun _ _ hq => .ite (.portFall hq) hq) h3
  have h5 : p5.Canon a := .foldl (fun _ _ hq => .ite (.modHub hq fun _ hk => .upd hk) hq) h4
  have h6 : p6.Canon a := .foldl (fun _ _ hq => .ite (.cutSite hq) hq) h5
  have h7 : p7.Canon a := .foldl (fun _ _ hq => .ite (.setRgn hq) hq) h6
  clear_value p7
  exact .setShF (.upd h7)

theorem Panel.Canon.retrainCmd {p : Panel} {half : Nat} {force : Bool} (hp : p.Canon a) : (p.retrainCmd half force).Canon a :=
  .ite (.ignBoot hp) (.beginRetrain hp)

theorem Panel.Canon.bootCmd {p : Panel} {value : W64} (hp : p.Canon a) : (p.bootCmd value).Canon a :=
  .ite .restart (.ite .restart (.ite (.upd hp) (.ite (.retrainCmd hp) (.ite (.retrainCmd hp)
    (.ite (.vacateCmd hp) (.ignBoot hp))))))

theorem Panel.Canon.testReq {p : Panel} {value : W64} (hp : p.Canon a) : (p.testReq value).Canon a :=
  .ite (.bumpSh hp) (.upd hp)

/-! ### Flash copies and their checks (R443, R473, R474), configuration items (R444), and the digest of the protection set-up
(R483). -/

theorem Panel.Canon.takeCopies {p : Panel} {c : Crown} (hp : p.Canon a) : (p.takeCopies c).Canon a :=
  .foldl (fun _ _ hq => by split; exacts [hq, .upd hq]) hp

theorem Panel.Canon.commitCopy {p : Panel} {c : Crown} {kind : Nat} {body : List Byte} (hp : p.Canon a) :
    (p.commitCopy c kind body).Canon a := by
  unfold Panel.commitCopy
  dsimp only
  exact .upd hp

/-! ### The task sequencer's own steps: the start of a task, the task words, and the task fault (R63–R84). -/

theorem Core.Canon.copyCws : ∀ {w : At} {n m : Nat} {k : Core}, k.Canon a → (Core.copyCws w n m k).2.Canon a
  | _, _, 0, _, hk => hk
  | _, _, m + 1, _, hk => by
    unfold Core.copyCws
    dsimp only
    exact .snd_ite (.snd_mk (.copyCws (.noteRead hk))) (.snd_mk (.copyCws hk))

theorem Core.Canon.copyList {k : Core} {w : At} {e : StartEntry} (hk : k.Canon a) : (k.copyList w e).2.Canon a :=
  .snd_mk (.ite (.copyCws hk) (.bump (.copyCws hk)))

/-- The registers at task start list no g0. -/
theorem find_startG_zero (args : List W64) : find (startG args) 0 = none := by
  have h : ∀ (l : List Nat) (m : Sparse W64), find m 0 = none →
      find (l.foldl (fun m i => putZ m (i + 1) (args.getD i 0)) m) 0 = none := by
    intro l
    induction l with
    | nil => exact fun _ hm => hm
    | cons i l ih => exact fun m hm => ih _ ((find_putZ_other m _ (Nat.succ_ne_zero i).symm).trans hm)
  exact h _ [] rfl

theorem Core.Canon.startTask {k : Core} {w : At} {e : StartEntry} {rest : List StartEntry} (hk : k.Canon a) :
    (k.startTask w e rest).Canon a := by
  unfold Core.startTask
  rcases k.planOf e.plan with ⟨plan, len, num, missed⟩
  dsimp -zeta only
  extract_lets k' x _
  have hk' : k'.Canon a := .ite (.bump hk) hk
  have hx : x.2.Canon a := .copyList hk'
  clear_value x
  exact a.core_g hx fun _ => find_startG_zero _

theorem execTaskStart_kept {n : Site} {s : State} : a.Kept s (execTaskStart n s) :=
  atCore_kept fun _ _ hk hp => by split; exacts [hp, .ite (.setCore hp (.startTask hk)) hp]

theorem execTaskListCopyEnd_kept {n : Site} {s : State} : a.Kept s (execTaskListCopyEnd n s) :=
  onCore_kept fun _ hk => .modTask hk

theorem execNop_kept {n : Site} {s : State} : a.Kept s (execNop n s) :=
  word_kept fun _ _ _ hk => .advance hk

theorem execFence_kept {n : Site} {s : State} : a.Kept s (execFence n s) :=
  word_kept fun _ _ _ hk => .ite hk (.advance hk)

theorem Core.Canon.enqueue {k : Core} {unit : Nat} {q : QOp} (hk : k.Canon a) : (k.enqueue unit q).Canon a :=
  .ite (.setEng hk) (.ite (.upd hk) (.upd hk))

theorem execDispatch_kept {n : Site} {s : State} : a.Kept s (execDispatch n s) :=
  word_kept fun _ _ _ hk => .ite (.advance (.enqueue hk)) hk

theorem execDmaStart_kept {n : Site} {s : State} : a.Kept s (execDmaStart n s) :=
  word_kept fun _ _ _ hk => .ite (.advance (.setCh hk)) hk

theorem Core.Canon.waitAt {k : Core} {t : Task} {dial : Nat} (hk : k.Canon a) : (k.waitAt t dial).Canon a :=
  .ite (.setTask hk) hk

theorem execSemWait_kept {n : Site} {s : State} : a.Kept s (execSemWait n s) :=
  word_kept fun _ _ _ hk => .ite (.advance (.setG (.ite (.semOp hk) hk))) (.waitAt hk)

theorem execSemWaitTimeout_kept {n : Site} {s : State} : a.Kept s (execSemWaitTimeout n s) :=
  word_kept fun _ _ _ hk => .ite (.advance (.setG hk)) hk

theorem execSemRead_kept {n : Site} {s : State} : a.Kept s (execSemRead n s) :=
  word_kept fun _ _ _ hk => .advance (.setG hk)

theorem execLdi_kept {n : Site} {s : State} : a.Kept s (execLdi n s) :=
  word_kept fun _ _ _ hk => .advance (.setG hk)

theorem execAlu_kept {n : Site} {s : State} : a.Kept s (execAlu n s) :=
  word_kept fun _ _ _ hk => .advance (.setG hk)

theorem execLoop_kept {n : Site} {s : State} : a.Kept s (execLoop n s) :=
  word_kept fun _ _ _ hk => .ite (.advance hk) (.setG (.setTask hk))

theorem execBr_kept {n : Site} {s : State} : a.Kept s (execBr n s) :=
  word_kept fun _ _ _ hk => .ite (.setTask hk) (.advance hk)

theorem execRecv_kept {n : Site} {s : State} : a.Kept s (execRecv n s) :=
  word_kept fun _ _ _ hk => by
    dsimp only
    split; exacts [.waitAt hk, .advance (.setG (.foldl (fun _ _ hl => .setG hl) (.upd hk)))]

theorem execRecvTimeout_kept {n : Site} {s : State} : a.Kept s (execRecvTimeout n s) :=
  word_kept fun _ _ _ hk => .ite (.advance (.setG hk)) hk

theorem Core.Canon.remoteEnd {k : Core} {own : Bool} {st : Nat} (hk : k.Canon a) : (k.remoteEnd own st).Canon a :=
  .ite (.noteStatus (.ite hk (.bump (.upd hk)))) (.ite hk (.bump (.upd hk)))

theorem Panel.Canon.sendRemote {p : Panel} {n : Nat} {t : Task} {h : Header} {units : List Codeword} (hp : p.Canon a) :
    (p.sendRemote n t h units).Canon a := by
  refine .ite hp ?_
  dsimp only
  split
  · exact hp
  · next _ q heq =>
      have hq : q.Canon a := .of_eq (.inject hp) (congrArg Prod.snd heq)
      exact .modCore hq fun _ hk => .advance (.remoteEnd hk)
  · next _ q heq =>
      have hq : q.Canon a := .of_eq (.inject hp) (congrArg Prod.snd heq)
      exact .modCore hq fun _ hk => .advance (.upd hk)

theorem execSemSignal_kept {n : Site} {s : State} : a.Kept s (execSemSignal n s) :=
  atCore_kept fun _ _ hk hp => by
    split
    exacts [hp, .ite (.setCore hp (.advance (.semOp hk))) (.sendRemote hp)]

theorem execPost_kept {n : Site} {s : State} : a.Kept s (execPost n s) :=
  atCore_kept fun _ _ _ hp => by split; exacts [hp, .sendRemote hp]

theorem execEndWord_kept {n : Site} {s : State} : a.Kept s (execEndWord n s) :=
  atCore_kept fun _ _ hk hp => by
    split
    · exact hp
    · exact .ite (by
        dsimp only
        split
        · exact .snd_mk (.draw hp)
        · next q heq =>
            have hq : q.Canon a := by
              refine of_ite_eq heq (fun heq => ?_) fun heq => ?_
              · exact .sendReport (.setCore (.snd_mk (.draw hp)) (.ite (.semOp hk) hk)) heq
              · cases heq
                exact .setCore (.snd_mk (.draw hp)) (.ite (.semOp hk) hk)
            exact .modCore hq fun _ hl => .endTask hl) hp

theorem execTaskFault_kept {n : Site} {s : State} : a.Kept s (execTaskFault n s) :=
  atCore_kept fun _ _ _ hp => by
    dsimp only
    split
    · refine .ite hp ?_
      split
      · exact hp
      · split
        · exact .snd_mk (.draw hp)
        · next q heq =>
            have hq : q.Canon a := .sendReport (.snd_mk (.draw hp)) heq
            exact .modCore hq fun _ hl => .endTask (.recordFault hl)
    · exact hp

theorem Core.Canon.seqFaultClr {k : Core} {value : W64} (hk : k.Canon a) : (k.seqFaultClr value).Canon a :=
  .ite (.wr hk) hk

/-! ### EMAP: the map descriptor, its checks, and the run over a tile (R133–R138, R142, R151). -/

theorem cellsWf_writeRegs {fresh : Option Nat} : ∀ {bs : List MByte} {m : List Host.Cell} {off : Nat}, cellsWf m = true →
    cellsWf (writeRegs m fresh off bs) = true
  | [], _, _, hm => hm
  | b :: bs, m, off, hm => by
    unfold writeRegs
    refine cellsWf_writeRegs ?_
    split
    · exact hm
    · exact cellsWf_setCell hm _ _

theorem Core.Canon.emapOut {k : Core} {w : At} {s : EStream} {base : Nat} {fresh : Option Nat} {rows : List (List MByte)}
    (hk : k.Canon a) : (k.emapOut w s base fresh rows).2.Canon a := by
  refine .snd_ite (a.core_vregs hk fun hv => ?_) (.storePieces hk)
  exact List.foldlRecOn (motive := fun m => cellsWf m = true) _ _ hv fun _ hm _ _ => cellsWf_writeRegs hm

theorem Core.Canon.emapSources :
    ∀ {w : At} {d : MapDesc} {b : Nat} {ss : List EStream} {k : Core}, k.Canon a → (Core.emapSources w d b ss k).2.2.Canon a
  | _, _, _, [], _, hk => hk
  | _, _, _, s :: ss, _, hk => by
    unfold Core.emapSources
    dsimp only
    refine .snd_mk (.emapSources ?_)
    split
    · exact hk
    · split
      exacts [hk, .fetch hk]

theorem Core.Canon.emapRun {k : Core} {w : At} {base : Nat} {d : MapDesc} {q : QOp} {prog : List EInstr} (hk : k.Canon a) :
    (k.emapRun w base d q prog).2.2.Canon a :=
  .snd_mk (.emapOut (.emapOut (.addCounts (.emapSources hk))))

/-! ### The reduction unit's commands (R143–R149, R151, R164). -/

theorem Core.Canon.ruStart {k : Core} {w : At} {base : Nat} {kinds : Nat → Bool} (hk : k.Canon a) :
    (k.ruStart w base kinds).Canon a := by
  unfold Core.ruStart
  split
  · exact hk
  · refine .ite hk ?_
    extract_lets _ l x _
    have hl : l.Canon a := .upd hk
    refine .ite (.opNoSlot hl) ?_
    split
    · exact .ruFail hl
    · have hx : x.2.Canon a := .ruLocal hl
      exact .upd hx

theorem execRsum_kept {n : Site} {s : State} : a.Kept s (execRsum n s) :=
  eng_kept fun _ _ _ hk => .ruStart hk

theorem execRmax_kept {n : Site} {s : State} : a.Kept s (execRmax n s) :=
  eng_kept fun _ _ _ hk => .ruStart hk

theorem execRmin_kept {n : Site} {s : State} : a.Kept s (execRmin n s) :=
  eng_kept fun _ _ _ hk => .ruStart hk

theorem execArgmax_kept {n : Site} {s : State} : a.Kept s (execArgmax n s) :=
  eng_kept fun _ _ _ hk => .ruStart hk

theorem execTopk_kept {n : Site} {s : State} : a.Kept s (execTopk n s) :=
  eng_kept fun _ _ _ hk => .ruStart hk

theorem execSmpair_kept {n : Site} {s : State} : a.Kept s (execSmpair n s) :=
  eng_kept fun _ _ _ hk => .ruStart hk

theorem execPmerge_kept {n : Site} {s : State} : a.Kept s (execPmerge n s) :=
  eng_kept fun _ _ _ hk => .ruStart hk

theorem Core.Canon.ruComplete {k : Core} (hk : k.Canon a) : k.ruComplete.Canon a := by
  unfold Core.ruComplete
  split
  exacts [hk, .ite hk (.opEnd (.upd hk))]

theorem execRuOpComplete_kept {n : Site} {s : State} : a.Kept s (execRuOpComplete n s) :=
  onCore_kept fun _ hk => .ruComplete hk

theorem Core.Canon.ruFaultClr {k : Core} {value : W64} (hk : k.Canon a) : (k.ruFaultClr value).Canon a :=
  .ite (.wr hk) hk

/-! ### The vector engine's commands (R126, R132–R142, R148, R151, R164). -/

theorem Core.Canon.veFail {k : Core} {base : Nat} {q : QOp} {cause st detail : Nat} (hk : k.Canon a) :
    (k.veFail base q cause st detail).Canon a :=
  .opFail (.firstFault hk)

theorem Core.Canon.veDrop {k : Core} (hk : k.Canon a) : k.veDrop.Canon a := by
  unfold Core.veDrop
  dsimp only
  exact .upd hk

theorem Core.Canon.setMap {k : Core} {m : Option MapRun} (hk : k.Canon a) : (k.setMap m).Canon a := by
  unfold Core.setMap
  dsimp only
  exact .upd hk

theorem Core.Canon.setXfer {k : Core} {r : Option RunOp} (hk : k.Canon a) : (k.setXfer r).Canon a := by
  unfold Core.setXfer
  dsimp only
  exact .upd hk

theorem Core.Canon.emapStart {k : Core} {base : Nat} (hk : k.Canon a) : (k.emapStart base).Canon a := by
  unfold Core.emapStart
  split
  · exact hk
  · exact .ite (.ite hk (.ite (.opNoSlot (.veDrop hk)) (by split; exacts [.veFail (.veDrop hk), .setMap (.veDrop hk)]))) hk

theorem execEmap_kept {n : Site} {s : State} : a.Kept s (execEmap n s) :=
  eng_kept fun _ _ _ hk => .emapStart hk

theorem Core.Canon.partnerFail {k : Core} {base : Nat} (hk : k.Canon a) : (k.partnerFail base).Canon a := by
  unfold Core.partnerFail
  split
  exacts [hk, .ite (.ruFail (.upd hk)) hk]

theorem Core.Canon.tapStart {k : Core} {base : Nat} (hk : k.Canon a) : (k.tapStart base).Canon a := by
  unfold Core.tapStart
  dsimp only
  split
  · refine .ite hk (.ite (.partnerFail (.opNoSlot (.bump (.same hk)))) ?_)
    split
    · exact .partnerFail (.veFail (.bump (.same hk)))
    · exact .ite (.setMap (.opNoSlot (.same hk))) (.setMap (.bump (.same hk)))
  · exact hk

theorem execTapPairStart_kept {n : Site} {s : State} : a.Kept s (execTapPairStart n s) :=
  eng_kept fun _ _ _ hk => .tapStart hk

theorem Core.Canon.tapRun {k : Core} {w : At} {d : MapDesc} {vals : List (List (Option Nat))} {cycles : Nat} (hk : k.Canon a) :
    (k.tapRun w d vals cycles).Canon a := by
  unfold Core.tapRun
  split
  exacts [hk, .upd (.ruFinish hk)]

theorem Core.Canon.tapCheck {k : Core} {base : Nat} {d : MapDesc} (hk : k.Canon a) : (k.tapCheck base d).2.Canon a := by
  unfold Core.tapCheck
  split
  · exact hk
  · split
    exacts [hk, .snd_mk (.ruFail (.upd hk))]

theorem Core.Canon.xferShared {k : Core} {base : Nat} (hk : k.Canon a) : (k.xferShared base).Canon a := by
  unfold Core.xferShared
  dsimp only
  exact .upd hk

theorem Core.Canon.emapRead {k : Core} {w : At} {base : Nat} (hk : k.Canon a) : (k.emapRead w base).Canon a := by
  unfold Core.emapRead
  split
  · exact hk
  · next m _ =>
    extract_lets off fail x l d prog c k1 pace cycles y k2
    have hfail : ∀ k : Core, k.Canon a → (fail k).Canon a := fun _ hk => .ite (.partnerFail hk) hk
    have hl : l.Canon a := .xferShared (.fetch hk)
    refine .ite hk (.ite (hfail _ (.opFail (.setMap hl))) (.ite (hfail _ (.veFail (.setMap hl))) ?_))
    split
    · exact hfail _ (.veFail (.setMap hl))
    · have hc : c.2.Canon a := .snd_ite (.tapCheck hl) hl
      have h2 : k2.Canon a := .setMap (.emapRun hc)
      exact .ite (.tapRun h2) h2

theorem execEmapDescriptorRead_kept {n : Site} {s : State} : a.Kept s (execEmapDescriptorRead n s) :=
  eng_kept fun _ _ _ hk => .emapRead hk

theorem Core.Canon.eprogRun {k : Core} {w : At} {base : Nat} {q : QOp} (hk : k.Canon a) : (k.eprogRun w base q).Canon a := by
  unfold Core.eprogRun
  dsimp only
  split
  · exact .ite (.opFail (.upd (.fetch hk))) (.veFail (.upd (.fetch hk)))
  · exact .setXfer (.upd (.fetch hk))

theorem Core.Canon.vloadRun {k : Core} {w : At} {base : Nat} {q : QOp} (hk : k.Canon a) : (k.vloadRun w base q).Canon a := by
  unfold Core.vloadRun
  extract_lets off n rows x bs fresh k1 cycles _ k2
  have h1 : k1.Canon a := .fetch hk
  have h2 : k2.Canon a := a.core_vregs h1 cellsWf_writeRegs
  exact .setXfer h2

theorem Core.Canon.vstoreRun {k : Core} {w : At} {base : Nat} {q : QOp} (hk : k.Canon a) : (k.vstoreRun w base q).Canon a :=
  .setXfer (.writeBytes hk)

theorem Core.Canon.mapShared {k : Core} {base : Nat} (hk : k.Canon a) : (k.mapShared base).Canon a := by
  unfold Core.mapShared
  dsimp only
  exact .upd hk

theorem Core.Canon.xferStart {k : Core} {base kind : Nat} {run : QOp → Core → Core} (hk : k.Canon a)
    (hrun : ∀ x' k'1, k'1.Canon a → (run x' k'1).Canon a) : (k.xferStart base kind run).Canon a := by
  unfold Core.xferStart
  split
  · exact hk
  · exact .ite hk (.ite (.opNoSlot (.veDrop hk)) (by split; exacts [.veFail (.veDrop hk), hrun _ _ (.mapShared (.veDrop hk))]))

theorem execEprog_kept {n : Site} {s : State} : a.Kept s (execEprog n s) :=
  eng_kept fun _ _ _ hk => .xferStart hk fun _ _ hl => .eprogRun hl

theorem execVload_kept {n : Site} {s : State} : a.Kept s (execVload n s) :=
  eng_kept fun _ _ _ hk => .xferStart hk fun _ _ hl => .vloadRun hl

theorem execVstore_kept {n : Site} {s : State} : a.Kept s (execVstore n s) :=
  eng_kept fun _ _ _ hk => .xferStart hk fun _ _ hl => .vstoreRun hl

theorem Core.Canon.veComplete {k : Core} {xfer : Bool} (hk : k.Canon a) : (k.veComplete xfer).Canon a :=
  .ite (by split; exacts [hk, .opEnd (.setXfer hk)]) (by split; exacts [hk, .ite (.opEnd (.setMap hk)) hk])

theorem execVeOpComplete_kept {n : Site} {xfer : Bool} {s : State} : a.Kept s (execVeOpComplete n xfer s) :=
  onCore_kept fun _ hk => .veComplete hk

theorem Core.Canon.veFaultClr {k : Core} {value : W64} (hk : k.Canon a) : (k.veFaultClr value).Canon a :=
  .ite (.wr hk) hk

/-! ### Register accesses: what a register shows, what a write of it does, and who may make the access (R12–R17, R53, R54, R57,
R87, R178, R212, R243–R245, R283, R309, R348, R371, R372, R398, R399, R434, R435, R462, R464, R465, R494–R496, R513). -/

theorem Panel.Canon.refuseWrite {p : Panel} {who : Requester} {die : Die} {off : Nat} (hp : p.Canon a) :
    (p.refuseWrite who die off).Canon a := by
  unfold Panel.refuseWrite
  split
  exacts [hp, .ite (.modCrown hp) hp]

theorem Panel.Canon.badAcc {p : Panel} (hp : p.Canon a) : p.badAcc.Canon a :=
  .bumpSh hp

theorem Panel.Canon.setCount {p : Panel} {die : Die} {off events : Nat} (hp : p.Canon a) :
    (p.setCount die off events).Canon a := by
  unfold Panel.setCount
  dsimp only
  split
  · exact .modCore hp fun _ hk => .wr (.ite (.countSlow hk) hk)
  · exact .modHub hp fun _ hk => .wr hk
  · exact .modPort hp
  · exact .ite (.modCrown hp) (.setSh hp)
  · exact hp

theorem Panel.Canon.setLatches {p : Panel} {die : Die} {l : List (Requester × Nat × Nat)} (hp : p.Canon a) :
    (p.setLatches die l).Canon a := by
  unfold Panel.setLatches
  split
  · exact .modCore hp fun _ hk => .upd hk
  · exact .modHub hp fun _ hk => .upd hk
  · exact .modPort hp
  · exact .modCrown hp
  · exact .modFn hp

theorem Panel.Canon.shown {p : Panel} {who : Requester} {die : Die} {row : RegRow} {base events : Nat} (hp : p.Canon a) :
    (p.shown who die row base events).2.Canon a := by
  unfold Panel.shown
  dsimp only
  split
  exacts [hp, .snd_mk (.ite (.setCount (.ite (.draw hp) hp)) (.ite (.draw hp) hp))]

theorem Panel.Canon.readAt {p : Panel} {who : Requester} {die : Die} {off bytes events : Nat} (hp : p.Canon a) :
    (p.readAt who die off bytes events).2.2.Canon a := by
  unfold Panel.readAt
  split
  · exact .snd_mk (.badAcc hp)
  · exact hp
  · exact .snd_mk (.shown hp)
  · dsimp only
    split
    · split
      exacts [.snd_mk (.setLatches hp), .snd_mk (.shown hp)]
    · exact .snd_mk (.setLatches (.shown hp))

theorem Panel.Canon.subsetRead {p : Panel} {c : Crown} {off bytes : Nat} (hp : p.Canon a) :
    (p.subsetRead c off bytes).2.2.Canon a := by
  unfold Panel.subsetRead
  split
  · exact hp
  · split
    exacts [.snd_mk (.badAcc hp), hp, hp, hp]

theorem Panel.Canon.hostRead {p : Panel} {f off bytes : Nat} (hp : p.Canon a) : (p.hostRead f off bytes).2.2.Canon a := by
  unfold Panel.hostRead
  dsimp only
  split
  · split
    · exact hp
    · split
      · exact .subsetRead hp
      · split
        exacts [.subsetRead hp, hp]
  · split
    · split
      · exact hp
      · split
        exacts [.snd_mk (.badAcc hp), hp, hp, hp]
    · exact .readAt hp

theorem Panel.Canon.regRead {p : Panel} {who : Requester} {die : Die} {off bytes events : Nat} (hp : p.Canon a) :
    (p.regRead who die off bytes events).2.2.Canon a := by
  unfold Panel.regRead
  dsimp only
  split
  · exact hp
  · split
    · exact hp
    · split
      · exact hp
      · split
        exacts [.hostRead hp, .readAt hp]

theorem Panel.Canon.coreWrite {p : Panel} {n : Nat} {row : RegRow} {base : Nat} {v : W64} (hp : p.Canon a) :
    (p.coreWrite n row base v).Canon a := by
  have hmod : ∀ f : Core → Core, (∀ k, k.Canon a → (f k).Canon a) → (p.modCore n f).Canon a := fun _ hf => .modCore hp hf
  exact .ite (hmod _ fun _ hk => .cmd hk) (.ite (hmod _ fun _ hk => .wr hk) (.ite (hmod _ fun _ hk => .seqFaultClr hk)
    (.ite (hmod _ fun _ hk => .meFaultClr hk) (.ite (hmod _ fun _ hk => .meTblkBadClr hk)
    (.ite (hmod _ fun _ hk => .veFaultClr hk) (.ite (hmod _ fun _ hk => .ruFaultClr hk)
    (.ite (hmod _ fun _ hk => .spadErrClr hk) (.ite (hmod _ fun _ hk => .dmaFaultClr hk)
    (.ite (hmod _ fun _ hk => .grpPwrWrite hk) (.ite (hmod _ fun _ hk => .planWrite hk)
    (.ite (hmod _ fun _ hk => .planCtlWrite hk) (.ite (hmod _ fun _ hk => .injWrite hk)
    (.ite (hmod _ fun _ hk => .redWrite hk) (.ite (hmod _ fun _ hk => .upd (.wr hk))
    (.ite (hmod _ fun _ hk => .capWrite hk) (.ite (hmod _ fun _ hk => .floorWrite hk)
    (.ite (hmod _ fun _ hk => .lehrWrite hk) (.ite (hmod _ fun _ hk => .upd hk)
    (hmod _ fun _ hk => .wr hk)))))))))))))))))))

theorem Hub.Canon.ptrWrite {k : Hub} {v part : Nat} {crown : Bool} (hk : k.Canon a) : (k.ptrWrite v part crown).2.Canon a :=
  .snd_ite (.snd_mk (.bump hk)) (.snd_mk (.upd hk))

theorem Panel.Canon.hubWrite {p : Panel} {who : Requester} {h : Nat} {row : RegRow} {base : Nat} {v : W64} (hp : p.Canon a) :
    (p.hubWrite who h row base v).2.Canon a :=
  .snd_ite (.snd_mk (.hubTake (.setHub (.ite hp (.draw hp)) (.ptrWrite (.ofPanel hp))))) (.snd_ite
    (.snd_mk (.modHub hp fun _ hk => .errClr hk)) (.snd_ite (.snd_mk (.modHub hp fun _ hk => .bandWrite hk)) (.snd_ite
    (.snd_mk (.modHub hp fun _ hk => .upd hk)) (.snd_mk (.modHub hp fun _ hk => .wr hk)))))

theorem Panel.Canon.portWrite {p : Panel} {d : Nat} {row : RegRow} {base : Nat} {v : W64} (hp : p.Canon a) :
    (p.portWrite d row base v).Canon a :=
  .ite (.devnumWrite hp) (.ite (.portCfgWrite hp) (.ite (.portCfgWrite hp) (.ite (.portPfcWrite hp)
    (.ite (.portPfcWrite hp) (.ite (.modPort hp) (.ite (.modPort hp) (.ite (.modPort hp) (.modPort hp))))))))

theorem Panel.Canon.crownWriteReg {p : Panel} {c : Crown} {row : RegRow} {base : Nat} {v : W64} (hp : p.Canon a) :
    (p.crownWriteReg c row base v).Canon a :=
  .ite (.handover hp) (.ite (.spWrite hp) (.ite (.pwrCapWrite hp) (.ite (.pwrRampWrite hp)
    (.ite (.rgnCmd hp) (.ite (.flowCfgWrite hp) (.ite (.bootCmd hp) (.ite (.testReq hp)
    (.ite (.modCrown hp) (.ite (.ctxCfgWrite hp) (.ite (.svcBaseWrite hp) (.ite (.ovfCfgWrite hp)
    (.ite (.bothCrowns hp) (.ite (.plimWrite hp) (.ite (.winWrite hp) (.ite (.fnpartWrite hp)
    (.ite (.segWrite hp) (.ite (.setSh hp) (.ite (.setSh hp) (.ite (.modCrown hp) (.setSh hp))))))))))))))))))))

theorem Panel.Canon.hostWrite {p : Panel} {f off bytes : Nat} {v : W64} (hp : p.Canon a) :
    (p.hostWrite f off bytes v).2.Canon a := by
  unfold Panel.hostWrite
  dsimp only
  exact .snd_ite hp (.snd_ite
    (.snd_ite hp (by split; exacts [.snd_mk (.badAcc hp), .snd_mk (.ite (.qctlWrite hp) (.qregWrite hp)), hp]))
    (by split; exacts [.snd_mk (.badAcc hp), .snd_mk (.ite (.modFn hp) hp), hp]))

theorem Panel.Canon.regWrite {p : Panel} {who : Requester} {die : Die} {off bytes : Nat} {v : W64} (hp : p.Canon a) :
    (p.regWrite who die off bytes v).2.Canon a := by
  refine .snd_ite hp (.snd_ite hp (.snd_ite (.snd_mk (.refuseWrite hp)) ?_))
  split
  · exact .hostWrite hp
  · exact .snd_ite (.snd_mk (.modHub (.badAcc hp) fun _ hk => .bump hk)) (.snd_mk (.badAcc hp))
  · exact .snd_mk (.badAcc hp)
  · refine .snd_ite hp ?_
    split
    · exact .snd_mk (.coreWrite hp)
    · exact .hubWrite hp
    · exact .snd_mk (.portWrite hp)
    · exact .snd_mk (.crownWriteReg hp)
    · exact hp
  · exact hp

/-! ### The commands that are register accesses (R13–R16, R53, R61, R121, R152, R162, R172, R178, R202, R212, R233, R243, R248,
R309, R313, R348, R351, R353, R380, R389, R391, R393, R414, R446, R456, R457, R459, R513). -/

theorem Panel.Canon.wrote {p : Panel} {who : Requester} {die : Die} {off bytes : Nat} {v : W64} (hp : p.Canon a) :
    (p.wrote who die off bytes v).Canon a :=
  .ite hp (.emit (.regWrite hp))

theorem Panel.Canon.readBy {p : Panel} {who : Requester} {die : Die} {off bytes events : Nat} (hp : p.Canon a) :
    (p.readBy who die off bytes events).Canon a :=
  .ite hp (.emit (.regRead hp))

theorem crownReg_kept {s : State} {who : Requester} {off bytes : Nat} {v : W64} : a.Kept s (s.crownReg who off bytes v) :=
  onPanel_kept fun _ hp => .wrote hp

theorem execRegisterWrite_kept {who : Requester} {die : Die} {off bytes : Nat} {value : W64} {s : State} :
    a.Kept s (execRegisterWrite who die off bytes value s) :=
  onPanel_kept fun _ hp => .wrote hp

theorem execWrongWidthAccess_kept {who : Requester} {die : Die} {off bytes : Nat} {isWrite : Bool} {s : State} :
    a.Kept s (execWrongWidthAccess who die off bytes isWrite s) :=
  onPanel_kept fun _ hp => .ite hp (.ite (.wrote hp) (.readBy hp))

theorem execRcCounterRead_kept {who : Requester} {die : Die} {off events : Nat} {s : State} :
    a.Kept s (execRcCounterRead who die off events s) :=
  onPanel_kept fun _ hp => by split; exacts [.ite (.readBy hp) hp, hp]

theorem execLowHalfReadLatch_kept {who : Requester} {die : Die} {off : Nat} {s : State} :
    a.Kept s (execLowHalfReadLatch who die off s) :=
  onPanel_kept fun _ hp => by split; exacts [.readBy hp, hp]

theorem execSeqFaultClr_kept {who : Requester} {n : Site} {value : W64} {s : State} :
    a.Kept s (execSeqFaultClr who n value s) :=
  onPanel_kept fun _ hp => .wrote hp

theorem execMeFaultClr_kept {who : Requester} {n : Site} {value : W64} {s : State} : a.Kept s (execMeFaultClr who n value s) :=
  onPanel_kept fun _ hp => .wrote hp

theorem execMeTblkBadClr_kept {who : Requester} {n : Site} {value : W64} {s : State} :
    a.Kept s (execMeTblkBadClr who n value s) :=
  onPanel_kept fun _ hp => .wrote hp

theorem execVeFaultClr_kept {who : Requester} {n : Site} {value : W64} {s : State} : a.Kept s (execVeFaultClr who n value s) :=
  onPanel_kept fun _ hp => .wrote hp

theorem execRuFaultClr_kept {who : Requester} {n : Site} {value : W64} {s : State} : a.Kept s (execRuFaultClr who n value s) :=
  onPanel_kept fun _ hp => .wrote hp

theorem execSpadPlanWrite_kept {who : Requester} {n : Site} {plan : Fin 32} {value : W64} {s : State} :
    a.Kept s (execSpadPlanWrite who n plan value s) :=
  onPanel_kept fun _ hp => .wrote hp

theorem execSpadPlanCtlWrite_kept {who : Requester} {n : Site} {plan : Fin 32} {value : W64} {s : State} :
    a.Kept s (execSpadPlanCtlWrite who n plan value s) :=
  onPanel_kept fun _ hp => .wrote hp

theorem execReshape_kept {who : Requester} {n : Site} {value : W64} {s : State} : a.Kept s (execReshape who n value s) :=
  onPanel_kept fun _ hp => .wrote hp

theorem execSpadErrClr_kept {who : Requester} {n : Site} {value : W64} {s : State} : a.Kept s (execSpadErrClr who n value s) :=
  onPanel_kept fun _ hp => .wrote hp

theorem execMeshRedWrite_kept {who : Requester} {n : Site} {e : Fin 64} {value : W64} {s : State} :
    a.Kept s (execMeshRedWrite who n e value s) :=
  onPanel_kept fun _ hp => .wrote hp

theorem execMeshInjCfgWrite_kept {who : Requester} {n : Site} {v : Fin 4} {value : W64} {s : State} :
    a.Kept s (execMeshInjCfgWrite who n v value s) :=
  onPanel_kept fun _ hp => .wrote hp

theorem execDmaFaultClr_kept {who : Requester} {n : Site} {value : W64} {s : State} :
    a.Kept s (execDmaFaultClr who n value s) :=
  onPanel_kept fun _ hp => .wrote hp

theorem execClkCapWrite_kept {who : Requester} {n : Site} {value : W64} {s : State} :
    a.Kept s (execClkCapWrite who n value s) :=
  onPanel_kept fun _ hp => .wrote hp

theorem execHubErrClr_kept {who : Requester} {h : HubIx} {value : W64} {s : State} : a.Kept s (execHubErrClr who h value s) :=
  onPanel_kept fun _ hp => .wrote hp

theorem execHubBandWrite_kept {who : Requester} {h : HubIx} {q : Fin 192} {value : W64} {s : State} :
    a.Kept s (execHubBandWrite who h q value s) :=
  onPanel_kept fun _ hp => .wrote hp

theorem execPortCfgWrite_kept {who : Requester} {d : PortIx} {q : Fin 2} {value : W64} {s : State} :
    a.Kept s (execPortCfgWrite who d q value s) :=
  onPanel_kept fun _ hp => .wrote hp

theorem execPortPfcWrite_kept {who : Requester} {d : PortIx} {q : Fin 2} {value : W64} {s : State} :
    a.Kept s (execPortPfcWrite who d q value s) :=
  onPanel_kept fun _ hp => .wrote hp

theorem execPortDevnumWrite_kept {who : Requester} {d : PortIx} {value : W64} {s : State} :
    a.Kept s (execPortDevnumWrite who d value s) :=
  onPanel_kept fun _ hp => .wrote hp

theorem execPortDevblk_kept {who : Requester} {d : PortIx} {k : Fin 128} {value : W64} {s : State} :
    a.Kept s (execPortDevblk who d k value s) :=
  onPanel_kept fun _ hp => .wrote hp

theorem execPortDevunblk_kept {who : Requester} {d : PortIx} {k : Fin 128} {value : W64} {s : State} :
    a.Kept s (execPortDevunblk who d k value s) :=
  onPanel_kept fun _ hp => .wrote hp

theorem execWinEntWrite_kept {who : Requester} {w : Fin 256} {word : Fin 4} {value : W64} {s : State} :
    a.Kept s (execWinEntWrite who w word value s) := crownReg_kept

theorem execCtxCfgWrite_kept {who : Requester} {c : Crown} {value : W64} {s : State} :
    a.Kept s (execCtxCfgWrite who c value s) :=
  onPanel_kept fun _ hp => .wrote hp

theorem execCtxSvcBaseWrite_kept {who : Requester} {c : Crown} {value : W64} {s : State} :
    a.Kept s (execCtxSvcBaseWrite who c value s) :=
  onPanel_kept fun _ hp => .wrote hp

theorem execHostFnpartWrite_kept {who : Requester} {f : HostFn} {value : W64} {s : State} :
    a.Kept s (execHostFnpartWrite who f value s) :=
  onPanel_kept fun _ hp => .wrote hp

theorem execHostSegWrite_kept {who : Requester} {f : HostFn} {seg : Fin 64} {word : Fin 2} {value : W64} {s : State} :
    a.Kept s (execHostSegWrite who f seg word value s) :=
  onPanel_kept fun _ hp => .wrote hp

theorem execHandover_kept {who : Requester} {value : W64} {s : State} : a.Kept s (execHandover who value s) := crownReg_kept

theorem execSetpointChange_kept {who : Requester} {value : W64} {s : State} :
    a.Kept s (execSetpointChange who value s) := crownReg_kept

theorem execSetpointCancel_kept {who : Requester} {value : W64} {s : State} :
    a.Kept s (execSetpointCancel who value s) := crownReg_kept

theorem execRegionPowerOn_kept {who : Requester} {value : W64} {s : State} :
    a.Kept s (execRegionPowerOn who value s) := crownReg_kept

theorem execRegionPowerOff_kept {who : Requester} {value : W64} {s : State} :
    a.Kept s (execRegionPowerOff who value s) := crownReg_kept

theorem execRestartFast_kept {who : Requester} {s : State} : a.Kept s (execRestartFast who s) := crownReg_kept

theorem execRestartFull_kept {who : Requester} {s : State} : a.Kept s (execRestartFull who s) := crownReg_kept

theorem execFullStartNext_kept {who : Requester} {s : State} : a.Kept s (execFullStartNext who s) := crownReg_kept

theorem execRetrainNorth_kept {who : Requester} {force : Bool} {s : State} :
    a.Kept s (execRetrainNorth who force s) := crownReg_kept

theorem execRetrainSouth_kept {who : Requester} {force : Bool} {s : State} :
    a.Kept s (execRetrainSouth who force s) := crownReg_kept

theorem execVacate_kept {who : Requester} {n : Site} {s : State} : a.Kept s (execVacate who n s) := crownReg_kept

theorem execCoreSelfTest_kept {who : Requester} {value : W64} {s : State} :
    a.Kept s (execCoreSelfTest who value s) := crownReg_kept

theorem execScratchpadMarch_kept {who : Requester} {value : W64} {s : State} :
    a.Kept s (execScratchpadMarch who value s) := crownReg_kept

theorem execLinkRecalibration_kept {who : Requester} {value : W64} {s : State} :
    a.Kept s (execLinkRecalibration who value s) := crownReg_kept

theorem execSensorCalibration_kept {who : Requester} {value : W64} {s : State} :
    a.Kept s (execSensorCalibration who value s) := crownReg_kept

theorem execErrAck_kept {who : Requester} {die : Die} {value : W64} {s : State} : a.Kept s (execErrAck who die value s) :=
  onPanel_kept fun _ hp => by split; exacts [hp, .wrote hp]

/-! ### Packets where they arrive: at a core (R63, R79, R80, R82, R166–R170, R184, R185, R201, R206, R221, R532), a hub
(R289–R292, R296, R300, R308), a port die (R348) and a crown (R52, R484, R532), and the hop that brings them there (R194). -/

theorem Panel.Canon.serveReg {p : Panel} {i : Issuer} {die : Die} {off : Nat} {x : Packet} (hp : p.Canon a) :
    (p.serveReg i die off x).Canon a :=
  .ite (.ite (.readAnswer (.regRead hp)) (.readRefuse (.regRead hp))) (.ite (.complete hp) (.complete (.regWrite hp)))

theorem Core.Canon.partRefuse {k : Core} (hk : k.Canon a) : k.partRefuse.Canon a :=
  .bump hk

theorem Panel.Canon.coreRefuse {p : Panel} {n : Nat} {x : Packet} (hp : p.Canon a) : (p.coreRefuse n x).Canon a :=
  .refuse (.modCore hp fun _ hk => .partRefuse hk)

theorem Panel.Canon.popArr {p : Panel} {n v : Nat} (hp : p.Canon a) : (p.popArr n v).Canon a :=
  .modCore hp fun _ hk => .popArr hk

theorem Panel.Canon.stageIn {p : Panel} {n v : Nat} {kind : StageKind} {x : Packet} (hp : p.Canon a) :
    (p.stageIn n v kind x).Canon a := by
  refine .ite (.refuse (.modCore (.popArr hp) fun _ hk => .asleep hk)) ?_
  split
  · exact hp
  · next q heq =>
      have hq : q.Canon a := .stage (.ofPanel hp) heq
      exact .setCore hp (.popArr hq)

theorem Panel.Canon.coreRequest {p : Panel} {n op : Nat} {kind : StageKind} (hp : p.Canon a) :
    (p.coreRequest n op kind).Canon a := by
  unfold Panel.coreRequest
  split
  · exact hp
  · exact .ite (.coreRefuse (.popArr hp)) (.ite (.stageIn hp) (.ite (.serveReg (.popArr hp)) (.coreRefuse (.popArr hp))))

theorem execWrite_kept {n : Site} {s : State} : a.Kept s (execWrite n s) :=
  atCore_kept fun _ _ _ hp => .coreRequest hp

theorem execReadReq_kept {n : Site} {s : State} : a.Kept s (execReadReq n s) :=
  atCore_kept fun _ _ _ hp => .coreRequest hp

theorem execWriteAcc_kept {n : Site} {s : State} : a.Kept s (execWriteAcc n s) :=
  atCore_kept fun _ _ _ hp => by
    split
    · exact hp
    · split
      exacts [.coreRequest hp, .coreRefuse (.popArr hp)]

theorem execMcastWrite_kept {n : Site} {s : State} : a.Kept s (execMcastWrite n s) :=
  atCore_kept fun _ _ _ hp => by split; exacts [hp, .ite (.stageIn hp) (.coreRefuse (.popArr hp))]

theorem Core.Canon.reduceAsleep {k : Core} {dial n : Nat} {h : Header} (hk : k.Canon a) : (k.reduceAsleep dial n h).Canon a :=
  .logErr (.bump (.asleep hk))

theorem execReduceDelivery_kept {n : Site} {s : State} : a.Kept s (execReduceDelivery n s) :=
  atCore_kept fun _ _ _ hp => by
    split
    · exact hp
    · split
      · exact .ite (.modCore (.popArr hp) fun _ hl => .reduceAsleep hl) (.stageIn hp)
      · exact .modCore (.popArr hp) fun _ hl => .partRefuse hl

theorem Panel.Canon.startIn {p : Panel} {n : Nat} {x : Packet} (hp : p.Canon a) : (p.startIn n x).Canon a :=
  .ite (.coreRefuse (.modCore hp fun _ hk => .bump hk)) (.ite (.refuse (.modCore hp fun _ hk => .bump hk)) (.complete
    (.setCore hp (.takeStart (.ofPanel hp)))))

theorem execStart_kept {n : Site} {ringEntry : Option (BitVec 768)} {s : State} : a.Kept s (execStart n ringEntry s) :=
  atCore_kept fun _ _ hk hp => by
    split
    · exact .emit (.setCore hp (.takeStart hk))
    · split
      exacts [hp, .ite (.startIn (.popArr hp)) hp]

theorem Panel.Canon.inboxMsg {p : Panel} {x : Packet} {payload : List Byte} (hp : p.Canon a) :
    (p.inboxMsg x payload).2.Canon a :=
  .snd_ite hp (by split; exacts [hp, .snd_mk (.draw hp)])

theorem Panel.Canon.inboxIn {p : Panel} {n : Nat} {x : Packet} (hp : p.Canon a) : (p.inboxIn n x).Canon a := by
  unfold Panel.inboxIn
  extract_lets k refuse pl m
  have hrefuse : ∀ st, (refuse st).Canon a := fun _ => .refuse (.modCore hp fun _ hk => .bump hk)
  exact .ite (.coreRefuse (.modCore hp fun _ hk => .bump hk)) (.ite (hrefuse _) (.ite (hrefuse _) (.ite (hrefuse _)
    (.complete (.modCore (.inboxMsg hp) fun _ hk => .upd hk)))))

theorem execMsg_kept {n : Site} {s : State} : a.Kept s (execMsg n s) :=
  atCore_kept fun _ _ _ hp => by
    split
    · exact hp
    · exact .ite hp (.ite (.coreRefuse (.popArr hp)) (.ite (.startIn (.popArr hp)) (.inboxIn (.popArr hp))))

theorem execSemSignalPacket_kept {n : Site} {s : State} : a.Kept s (execSemSignalPacket n s) :=
  atCore_kept fun _ _ _ hp => by
    split
    · exact hp
    · refine .ite hp ?_
      dsimp only
      split
      · exact .coreRefuse (.popArr hp)
      · exact .ite (.coreRefuse (.modCore (.popArr hp) fun _ hl => .bump hl)) (.ite (.coreRefuse (.popArr hp))
          (.complete (.modCore (.popArr hp) fun _ hl => .semOp hl)))

theorem Panel.Canon.coreAnswer {p : Panel} {n : Nat} {x : Packet} (hp : p.Canon a) : (p.coreAnswer n x).Canon a := by
  unfold Panel.coreAnswer
  extract_lets k seq st q late
  refine .ite (.modCore hp fun _ hk => .partRefuse hk) ?_
  have hq : q.Canon a := .ite (.logCore hp) hp
  have hlate : (late q).Canon a := .modCore hq fun _ hk => .bump hk
  clear_value q
  split
  · exact .ite (.ite (.modCore hq fun _ hk => .dmaReadData hk) (.modCore hq fun _ hk => .dmaCompletion hk))
      (.ite (.modCore hq fun _ hk => .dmaCompletion hk) hlate)
  · refine .ite hlate ?_
    split
    · exact .modCore hq fun _ hk => .remoteEnd (.upd hk)
    · exact .ite (.modCore hq fun _ hk => .upd hk) hlate

theorem Panel.Canon.crownIn {p : Panel} {c : Crown} {x : Packet} (hp : p.Canon a) : (p.crownIn c x).Canon a := by
  unfold Panel.crownIn
  dsimp only
  split
  exacts [.ite (.logCrown hp) hp, .crownAnswer (.modCrown (.ite (.logCrown hp) hp))]

theorem Panel.Canon.arrAnswer {p : Panel} {e : Endpoint} {op : Nat} (hp : p.Canon a) : (p.arrAnswer e op).Canon a := by
  unfold Panel.arrAnswer
  split
  · exact .ite hp (by split; exacts [hp, .coreAnswer (.popArr hp)])
  · dsimp only
    split
    · exact hp
    · exact .ite hp (.hubAnswer (.ite (.logHub (.setHub hp (.upd (.ofPanel hp)))) (.setHub hp (.upd (.ofPanel hp)))))
  · split
    exacts [hp, .ite hp (.answerAt hp)]
  · dsimp only
    split
    exacts [hp, .ite hp (.crownIn (.setCrown hp))]

theorem execCompletion_kept {e : Endpoint} {s : State} : a.Kept s (execCompletion e s) :=
  onPanel_kept fun _ hp => .arrAnswer hp

theorem execReadData_kept {e : Endpoint} {s : State} : a.Kept s (execReadData e s) :=
  onPanel_kept fun _ hp => .arrAnswer hp

theorem Panel.Canon.popHub {p : Panel} {h att v : Nat} (hp : p.Canon a) : (p.popHub h att v).Canon a :=
  .modHub hp fun _ hk => .upd hk

theorem Panel.Canon.hubRefuse {p : Panel} {h att : Nat} {x : Packet} {r : Nat × Option Nat} (hp : p.Canon a) :
    (p.hubRefuse h att x r).Canon a :=
  .refuse (by split; exacts [hp, .modHub hp fun _ hk => .bump hk])

theorem Panel.Canon.stackWrite {p : Panel} {h att : Nat} {x : Packet} (hp : p.Canon a) : (p.stackWrite h att x).Canon a := by
  unfold Panel.stackWrite
  dsimp only
  split
  · exact .hubRefuse hp
  · exact .ite (.refuse (.setHub hp (.breakUnopened (.ofPanel hp)))) (.complete
      (.setHub hp (.sectionWrite (.writeBytes (.ofPanel hp)))))

theorem Panel.Canon.stackRead {p : Panel} {h att : Nat} {x : Packet} (hp : p.Canon a) : (p.stackRead h att x).Canon a := by
  unfold Panel.stackRead
  dsimp only
  split
  exacts [.hubRefuse hp, .readAnswer (.setHub hp (.readCws (.ofPanel hp)))]

theorem execHubWrite_kept {h : HubIx} {att : Fin 2} {s : State} : a.Kept s (execHubWrite h att s) :=
  onPanel_kept fun _ hp => by
    split
    exacts [hp, .ite hp (.ite (.stackWrite (.popHub hp)) (.serveReg (.popHub hp)))]

theorem execHubReadReq_kept {h : HubIx} {att : Fin 2} {s : State} : a.Kept s (execHubReadReq h att s) :=
  onPanel_kept fun _ hp => by
    split
    exacts [hp, .ite hp (.ite (.stackRead (.popHub hp)) (.serveReg (.popHub hp)))]

theorem execHubCmdPtr_kept {h : HubIx} {att : Fin 2} {s : State} : a.Kept s (execHubCmdPtr h att s) :=
  onPanel_kept fun _ hp => by split; exacts [hp, .ite hp (.serveReg (.popHub hp))]

theorem Panel.Canon.hubServe {p : Panel} {h att v : Nat} (hp : p.Canon a) : (p.hubServe h att v).Canon a := by
  unfold Panel.hubServe
  split
  exacts [hp, .ite hp (.refuse (.modHub (.popHub hp) fun _ hk => .bump hk))]

theorem Panel.Canon.portServe {p : Panel} {d : PortIx} {q v : Nat} (hp : p.Canon a) : (p.portServe d q v).Canon a := by
  unfold Panel.portServe
  split
  exacts [hp, .ite hp (.ite (.serveReg (.modPort hp)) (.refuse (.modPort hp)))]

theorem Panel.Canon.crownServe {p : Panel} {c : Crown} {v : Nat} (hp : p.Canon a) : (p.crownServe c v).Canon a := by
  unfold Panel.crownServe
  split
  · exact hp
  · exact .ite hp (.ite (by dsimp only; split; exacts [.readAnswer (.modCrown hp), .readRefuse (.modCrown hp)]) (.ite
      (.complete (.modCrown hp)) (.refuse (.cbump (.modCrown hp)))))

theorem Panel.Canon.edgeServe {p : Panel} {n which v : Nat} (hp : p.Canon a) : (p.edgeServe n which v).Canon a :=
  .ite hp (by split; exacts [.ite hp (.hubServe hp), .ite hp (.portServe hp), .ite hp (.crownServe hp), hp])

theorem Panel.Canon.edgePull {p : Panel} {n input : Nat} (hp : p.Canon a) : (p.edgePull n input).Canon a := by
  unfold Panel.edgePull
  split
  exacts [.ite hp (.crownPull hp), hp]

theorem execPacketHop_kept {n : Site} {input : Fin 9} {vc : Fin 4} {s : State} : a.Kept s (execPacketHop n input vc s) :=
  atCore_kept fun _ _ _ hp => .edgeServe (.edgeServe (.hop (.ite (.edgePull hp) hp)))

/-! ### The ten start-up stages: what each does, its configuration items and its records (R31–R33, R436–R449). -/

theorem Panel.Canon.applyAt {p : Panel} {c : Crown} {i : ConfigItem} {die : Die} (hp : p.Canon a) :
    (p.applyAt c i die).1.Canon a := by
  unfold Panel.applyAt
  extract_lets who bytes x y
  have hx : x.2.Canon a := .regWrite hp
  have hy : y.2.2.Canon a := .regRead hx
  exact .fst_ite (.fst_mk hx) (.fst_ite (.fst_mk hy) (.fst_ite (.fst_mk hy) (.fst_mk hy)))

theorem Panel.Canon.applyItems {p : Panel} {c : Crown} {stage : Nat} {only : Die → Bool} (hp : p.Canon a) :
    (p.applyItems c stage only).1.Canon a := by
  unfold Panel.applyItems
  extract_lets mine items
  refine .foldl_fst (fun _ _ hy => ?_) (.fst_mk hp)
  refine .fst_ite hy (.foldl_fst (fun _ _ hy => ?_) hy)
  exact .fst_mk (.applyAt hy)

theorem Panel.Canon.keepRecord {p : Panel} {stage : Nat} {c : Crown} {b : List Byte} (hp : p.Canon a) :
    (p.keepRecord stage c b).Canon a :=
  .ite (.emit (.foldl (fun _ _ hq => .setSh hq) hp)) (.foldl (fun _ _ hq => .setSh hq) hp)

theorem Panel.Canon.addEnts {p : Panel} {es : List RepairEnt} (hp : p.Canon a) : (p.addEnts es).Canon a := by
  unfold Panel.addEnts
  dsimp only
  exact .upd hp

theorem Panel.Canon.retest {p : Panel} {type : Nat} (hp : p.Canon a) : (p.retest type).Canon a :=
  .ite (.upd hp) hp

theorem Panel.Canon.bootRetire {p : Panel} {n cause : Nat} (hp : p.Canon a) : (p.bootRetire n cause).Canon a := by
  unfold Panel.bootRetire
  dsimp only
  exact .upd (.setSite (.ite (.cutSite hp) hp))

theorem Panel.Canon.markDial {p : Panel} {o : StageOutcome} (hp : p.Canon a) : (p.markDial o).Canon a :=
  .ite hp (.upd (.setEsc (.setEsc (.setEsc (.setEsc (.setEsc hp))))))

theorem Panel.Canon.electAgent {p : Panel} {g : Nat} (hp : p.Canon a) : (p.electAgent g).Canon a := by
  unfold Panel.electAgent
  split
  exacts [hp, .upd hp]

theorem Panel.Canon.powerRegion {p : Panel} {g : Nat} {o : StageOutcome} (hp : p.Canon a) : (p.powerRegion g o).1.Canon a :=
  .fst_ite (.fst_mk (.foldl (fun _ _ hq => .ite hq (.bootRetire hq)) (.setRgn hp))) (.foldl_fst
    (fun _ _ hy => .fst_ite hy (.fst_ite (.fst_mk (.bootRetire hy)) (.fst_ite (.fst_mk (.bootRetire hy))
    (.fst_mk (.startSite hy))))) (.fst_mk (.setRgn hp)))

theorem Panel.Canon.powerUp {p : Panel} {o : StageOutcome} (hp : p.Canon a) : (p.powerUp o).1.Canon a :=
  .fst_mk (.foldl (fun _ _ hq => .electAgent hq) (.foldl_fst (fun _ _ hy => .fst_mk (.powerRegion hy)) (.fst_mk
    (.foldl (fun _ _ hq => .setEdge hq) hp))))

theorem Panel.Canon.trainPort {p : Panel} {bad : List (Nat × Nat × Nat)} {n port : Nat} (hp : p.Canon a) :
    (p.trainPort bad n port).Canon a :=
  .ite (by
    split
    · exact hp
    · exact .ite (.modCore hp fun _ hk => .setLink hk) (.ite hp (.modCore hp fun _ hk => .setLink hk))) (.ite
        (.modCore hp fun _ hk => .setLink hk) hp)

theorem Panel.Canon.trainLinks {p : Panel} {sites : List Nat} (hp : p.Canon a) : (p.trainLinks sites).Canon a :=
  .foldl (fun _ _ hq => .foldl (fun _ _ hr => .trainPort hr) hq) hp

theorem Panel.Canon.stageFive {p : Panel} {o : StageOutcome} (hp : p.Canon a) : (p.stageFive o).1.Canon a :=
  .fst_mk (.upd (.trainLinks (.addEnts (.retest hp))))

theorem Panel.Canon.rowEnts {p : Panel} {rows : List (Site × Nat × Nat)} (hp : p.Canon a) : (p.rowEnts rows).Canon a :=
  .foldl (fun _ _ hq => .addEnts hq) hp

theorem Panel.Canon.stageSix {p : Panel} {o : StageOutcome} (hp : p.Canon a) : (p.stageSix o).1.Canon a :=
  .fst_mk (.foldl (fun _ _ hq => .ite (.electAgent hq) hq) (.foldl (fun _ _ hq => .addEnts (.bootRetire hq)) (.rowEnts
    (.retest (.retest hp)))))

theorem Panel.Canon.alignKind {p : Panel} {kind : Nat} {q : Panel} (hp : p.Canon a) (h : p.alignKind kind = some q) :
    q.Canon a := by
  unfold Panel.alignKind at h
  dsimp only at h
  split at h
  · refine of_ite_eq h (fun h => ?_) fun h => ?_
    · cases h
      exact hp
    · refine of_ite_eq h (fun h => ?_) fun h => ?_
      · refine of_ite_eq h (fun h => ?_) fun h => ?_
        · cases h
          exact .upd hp
        · cases h
      · refine of_ite_eq h (fun h => ?_) fun h => ?_
        · refine of_ite_eq h (fun h => ?_) fun h => ?_
          · cases h
            exact .upd hp
          · cases h
        · cases h
  · refine of_ite_eq h (fun h => ?_) fun h => ?_
    · cases h
      exact .upd hp
    · cases h
  · refine of_ite_eq h (fun h => ?_) fun h => ?_
    · cases h
      exact .upd hp
    · cases h
  · cases h
    exact hp

theorem Panel.Canon.alignImages {p : Panel} {q : Panel} (hp : p.Canon a) (h : p.alignImages = some q) : q.Canon a := by
  unfold Panel.alignImages at h
  obtain ⟨r, hr, h⟩ := Option.bind_eq_some_iff.1 h
  exact .alignKind (Panel.Canon.alignKind hp hr) h

theorem Panel.Canon.raiseSeam {p : Panel} {cols : List Nat} (hp : p.Canon a) : (p.raiseSeam cols).Canon a := by
  refine .foldl (fun q _ hq => .ite (.trainPort (.trainPort hq)) ?_) hp
  extract_lets down
  have hdown : ∀ (p : Panel) (n port : Nat), p.Canon a → (down p n port).Canon a := fun _ _ _ hp =>
    .ite (.modCore hp fun _ hk => .setLink hk) hp
  exact hdown _ _ _ (hdown _ _ _ hq)

theorem Panel.Canon.mapRow {p : Panel} {r : Nat} (hp : p.Canon a) : (p.mapRow r).Canon a := by
  unfold Panel.mapRow
  extract_lets sites here p1 p2 spare act _ p3
  have h1 : p1.Canon a := .foldl (fun _ _ hq => .placeSite hq) hp
  have h2 : p2.Canon a := .foldl (fun _ _ hq => .placeSite hq) h1
  have h3 : p3.Canon a := .ite (.placeSite h1) h1
  exact .ite (.foldl (fun _ _ hq => .setSite hq) h2) (.foldl (fun _ _ hq => .placeSite hq) h3)

theorem Panel.Canon.mapRows {p : Panel} {rows : List Nat} (hp : p.Canon a) : (p.mapRows rows).Canon a :=
  .writeMaps (.upd (.foldl (fun _ _ hq => .mapRow hq) hp))

theorem Panel.Canon.stageSeven_ok {p q : Panel} {o : StageOutcome} (hp : p.Canon a) (h : p.stageSeven o = .ok q) :
    q.Canon a := by
  unfold Panel.stageSeven at h
  extract_lets alone p' at h
  have hp' : ∀ r, p' = some r → r.Canon a := by
    intro r hr
    dsimp only [p'] at hr
    split_ifs at hr
    · cases hr
      exact hp
    · exact .alignImages hp hr
  clear_value p'
  split at h
  · cases h
  · next r =>
    have hr : r.Canon a := hp' _ rfl
    split at h
    · cases h
    · exact .of_eq (.setShF (.mapRows (.raiseSeam hr))) (Except.ok.inj h)

theorem Panel.Canon.trainStack {p : Panel} {h : Nat} {o : StageOutcome} (hp : p.Canon a) : (p.trainStack h o).1.Canon a :=
  .fst_ite (.loseStack hp) (.fst_ite (.loseStack hp) (.fst_mk (.modHub
    (.ite (.addEnts hp) hp) fun _ hk => a.hub_mem hk fun _ => rfl)))

theorem Panel.Canon.alignPorts {p : Panel} {ports : List (Nat × Nat)} (hp : p.Canon a) : (p.alignPorts ports).Canon a :=
  .foldl (fun _ _ hq => .ite (.modF hq) hq) hp

theorem Panel.Canon.stageEight {p : Panel} {o : StageOutcome} (hp : p.Canon a) : (p.stageEight o).1.Canon a :=
  .fst_mk (.upd (.foldl_fst (fun _ _ hy => .fst_mk (.trainStack hy)) (.fst_mk (.retest hp))))

theorem Panel.Canon.stageNine {p : Panel} {o : StageOutcome} (hp : p.Canon a) : (p.stageNine o).1.Canon a := by
  unfold Panel.stageNine
  extract_lets r q
  have hr : r.1.Canon a :=
    .foldl_fst (fun _ _ hy => .fst_ite hy (.fst_ite hy (.fst_mk (.ite (.portFall hy) hy)))) (.fst_mk hp)
  exact .fst_ite hr (.fst_ite (.fst_mk (.modCrown hr)) (.fst_mk hr))

theorem Panel.Canon.stageTen {p : Panel} (hp : p.Canon a) : p.stageTen.Canon a := by
  unfold Panel.stageTen
  dsimp only
  exact .upd hp

theorem Panel.Canon.startRoot {p : Panel} {o : StageOutcome} {cs : List Crown} (hp : p.Canon a) :
    (p.startRoot o cs).Canon a := by
  unfold Panel.startRoot
  extract_lets p1 p2
  have h1 : p1.Canon a := .foldl (fun _ _ hq => .modCrown (.takeCopies hq)) hp
  have h2 : p2.Canon a := .ite (.setSh h1) h1
  clear_value p2
  exact .upd h2

theorem Panel.Canon.runStage {p : Panel} {o : StageOutcome} (hp : p.Canon a) : (p.runStage o).1.Canon a := by
  unfold Panel.runStage
  extract_lets cs none'
  split
  · exact .fst_mk (.foldl (fun _ _ hp => .modCrown hp) hp)
  · exact .fst_ite hp (.startRoot hp)
  · exact .fst_mk (.markDial hp)
  · exact .fst_mk (.powerUp hp)
  · exact .fst_mk (.stageFive hp)
  · exact .fst_mk (.stageSix hp)
  · split
    · next heq => exact .stageSeven_ok hp heq
    · exact hp
  · exact .fst_mk (.stageEight hp)
  · exact .fst_mk (.stageNine hp)
  · exact .fst_ite (.stageTen hp) hp

theorem Panel.Canon.startFails {p : Panel} (hp : p.Canon a) : p.startFails.Canon a :=
  .setShF (.powerDown hp)

theorem Panel.Canon.endStage {p : Panel} {o : StageOutcome} {late : Bool} (hp : p.Canon a) : (p.endStage o late).Canon a := by
  unfold Panel.endStage
  extract_lets stage cs r q items _ _ q1 q2 fs q3 result kind q4 q5
  have hq : q.Canon a := .runStage hp
  have hi : items.1.Canon a := .fst_ite hq (.foldl_fst (fun _ _ hy => .fst_mk (.applyItems hy)) hq)
  clear_value items
  have h1 : q1.Canon a := .upd hi
  have h2 : q2.Canon a := .ite (.alignPorts h1) h1
  have h3 : q3.Canon a := .ite h2 (.setShF h2)
  clear_value q3
  have h4 : q4.Canon a := .foldl (fun _ _ hq => .keepRecord hq) h3
  have h5 : q5.Canon a := .foldl (fun _ _ hq => .foldl (fun _ _ hq => .keepRecord hq) hq) h4
  exact .ite (.startFails h4) (.ite (.setShF h4) (.ite (.setShF h5) (.setShF h4)))

/-! ### Start-up: how it begins, how a stage ends or runs late, an absent crown, and the end of a half retrain (R436–R449,
R457). -/

theorem Panel.Canon.beginStart {p : Panel} {straps : Straps} : (p.beginStart straps).Canon a :=
  .setShF (.setShF (.upd (p := p.dark) .dark))

theorem execPanelStart_kept {straps : Straps} {s : State} : a.Kept s (execPanelStart straps s) :=
  always_kept fun _ hp => .ite .beginStart hp

theorem execStageComplete_kept {outcome : StageOutcome} {s : State} : a.Kept s (execStageComplete outcome s) :=
  onPanel_kept fun _ hp => .ite (.endStage hp) hp

theorem Panel.Canon.lateFail {p : Panel} (hp : p.Canon a) : p.lateFail.Canon a :=
  .startFails (.foldl (fun _ _ hq => .keepRecord hq) hp)

theorem execStageTimeout_kept {s : State} : a.Kept s (execStageTimeout s) :=
  onPanel_kept fun _ hp => .ite hp (.ite (.endStage (.draw hp)) (.lateFail hp))

theorem execCrownAbsent_kept {c : Crown} {s : State} : a.Kept s (execCrownAbsent c s) :=
  onPanel_kept fun _ hp => .ite (.loseCrown hp) hp

theorem Panel.Canon.reapplyItems {p : Panel} {half : Nat} (hp : p.Canon a) : (p.reapplyItems half).Canon a :=
  .ite (.foldl_fst (fun _ _ hy => .fst_mk (.applyItems hy)) hp) (.setShF
    (.foldl_fst (fun _ _ hy => .fst_mk (.applyItems hy)) hp))

theorem Panel.Canon.endRetrain {p : Panel} {half : Nat} (hp : p.Canon a) : (p.endRetrain half).Canon a :=
  .setShF (.alignPorts (.reapplyItems (.upd (.foldl (fun _ _ hq => .ite hq (.trainStack hq)) (.mapRows
    (.raiseSeam (.trainLinks (.foldl (fun _ _ hq => .ite (.electAgent hq) hq) (.foldl (fun _ _ hq => .ite (.startSite hq) hq)
    (.foldl (fun _ _ hq => .ite (.setRgn hq) hq) hp))))))))))

theorem execHalfRetrainComplete_kept {s : State} : a.Kept s (execHalfRetrainComplete s) :=
  onPanel_kept fun _ hp => .ite hp (.endRetrain hp)

/-! ### Route maps in service, repairs and vacates, firmware updates and tests in service (R195, R196, R453–R461). -/

theorem Panel.Canon.rewriteMaps {p : Panel} (hp : p.Canon a) : p.rewriteMaps.Canon a :=
  .ite hp (.foldl (fun _ _ hq => .ite hq (.ite (.faultPart hq) hq)) (.writeMaps hp))

theorem execRouteMapRewrite_kept {s : State} : a.Kept s (execRouteMapRewrite s) :=
  onPanel_kept fun _ hp => .rewriteMaps hp

theorem Panel.Canon.failLoadsAt {p : Panel} {n : Nat} (hp : p.Canon a) : (p.failLoadsAt n).Canon a :=
  .foldl (fun _ _ hq => .failLoad hq) hp

theorem Panel.Canon.beginRepair {p : Panel} {x : LossRec} {rest : List LossRec} (hp : p.Canon a) :
    (p.beginRepair x rest).Canon a := by
  unfold Panel.beginRepair
  extract_lets off parts p1 p2 p3
  have h1 : p1.Canon a := .upd hp
  have h2 : p2.Canon a := .ite h1 (.retireSite h1)
  have h3 : p3.Canon a := .pauseParts (.failLoadsAt h2)
  clear_value p3
  refine .ite h3 ?_
  split <;> exact .upd h3

theorem execCoreRepair_kept {n : Site} {s : State} : a.Kept s (execCoreRepair n s) :=
  onPanel_kept fun _ hp => by
    split
    exacts [hp, .ite hp (by split; exacts [.beginRepair hp, .ite (.beginRepair hp) hp])]

theorem Panel.Canon.dropSiteRed {p : Panel} {n : Nat} (hp : p.Canon a) : (p.dropSiteRed n).Canon a := by
  unfold Panel.dropSiteRed
  dsimp only
  exact .upd (.foldl (fun _ _ hq => .ite (.modCore hq fun _ hk => .wr hk) hq) hp)

theorem Panel.Canon.adopt {p : Panel} {old spare lx word : Nat} (hp : p.Canon a) : (p.adopt old spare lx word).Canon a :=
  .bumpSh (.modCore (.placeSite (.dropSiteRed hp)) fun _ hk => .wr hk)

theorem Panel.Canon.adoptFor {p : Panel} {n : Nat} {vacate : Bool} {q : Panel × List (Nat × Nat)} (hp : p.Canon a)
    (h : p.adoptFor n vacate = some q) : q.1.Canon a := by
  unfold Panel.adoptFor at h
  dsimp only at h
  refine of_ite_eq h (fun h => ?_) fun h => ?_
  · split at h
    · cases h
    · cases h
      exact .fst_mk (.adopt (.modCore (.placeSite hp) fun _ hk => .cmd (.wr hk)))
  · split at h
    · refine of_ite_eq h (fun h => ?_) fun h => ?_
      · cases h
      · cases h
        exact hp
    · split at h
      · cases h
      · cases h
        exact .fst_mk (.adopt (.setSite hp))

theorem Panel.Canon.adoptAll {vacate : Bool} :
    ∀ {ns : List Nat} {p : Panel} {x : Panel × List (Nat × Nat)}, p.Canon a → Panel.adoptAll vacate ns p = some x → x.1.Canon a
  | [], _, _, hp, h => by
    cases h
    exact hp
  | n :: ns, p, x, hp, h => by
    unfold Panel.adoptAll at h
    split at h
    · cases h
    · next heq =>
      obtain ⟨r, hr, rfl⟩ := Option.map_eq_some_iff.1 h
      exact Panel.Canon.adoptAll (ns := ns) (x := r) (.adoptFor hp heq) hr

theorem Panel.Canon.reapply {p : Panel} {m n : Nat} (hp : p.Canon a) : (p.reapply m n).2.Canon a :=
  .snd_mk (.streamAll (.foldl (fun _ _ hq => .applyControl hq) hp))

theorem Panel.Canon.reapplyAll {p : Panel} {parts sites : List Nat} (hp : p.Canon a) : (p.reapplyAll parts sites).2.Canon a :=
  .foldl_snd (fun _ _ hy => .snd_mk (.reapply hy)) hp

theorem execRepairAdopt_kept {s : State} : a.Kept s (execRepairAdopt s) :=
  onPanel_kept fun _ hp => by
    split
    · exact hp
    · refine .ite hp ?_
      split
      · exact .upd hp
      · next q _ heq =>
          have hq : q.Canon a := .adoptAll hp heq
          exact .upd (.reapplyAll (.rewriteMaps hq))

theorem Panel.Canon.nextVacate {p : Panel} (hp : p.Canon a) : p.nextVacate.Canon a := by
  unfold Panel.nextVacate
  split
  exacts [hp, .ite (.ignBoot (.upd hp)) (.beginVacate (.upd hp))]

theorem Panel.Canon.resumeParts {p : Panel} {parts : List Nat} (hp : p.Canon a) : (p.resumeParts parts).Canon a := by
  unfold Panel.resumeParts
  dsimp only
  exact .upd (.foldl (fun _ _ hq => .holdModels hq) (.foldl (fun _ _ hq => .ite (.modCore hq fun _ hk => .cmd hk) hq) hp))

theorem execRepairComplete_kept {s : State} : a.Kept s (execRepairComplete s) :=
  onPanel_kept fun p hp => by
    split
    · exact hp
    · extract_lets p1 p2
      have h1 : p1.Canon a := .foldl (fun _ _ hq => .modCore hq fun _ hk => .cmd hk) hp
      have h2 : p2.Canon a := .ite (.resumeParts h1) (.foldl (fun _ _ hq => .holdModels hq) h1)
      clear_value p2
      exact .ite hp (.nextVacate (.upd h2))

theorem execRepairFail_kept {s : State} : a.Kept s (execRepairFail s) :=
  onPanel_kept fun _ hp => by
    split
    · exact hp
    · exact .ite hp (.nextVacate (.bumpSh (.upd (.foldl (fun _ _ hq => .setSite hq) (.foldl
        (fun _ _ hq => .faultPart hq) hp)))))

theorem Panel.Canon.restartSvc {p : Panel} {c : Crown} (hp : p.Canon a) : (p.restartSvc c).Canon a :=
  .modCrown hp

theorem execServiceFirmwareUpdate_kept {c : Crown} {s : State} : a.Kept s (execServiceFirmwareUpdate c s) :=
  onPanel_kept fun _ hp => by dsimp only; split; exacts [hp, .ite hp (.restartSvc (.upd hp))]

theorem Panel.Canon.toTest {p : Panel} {n : Nat} (hp : p.Canon a) : (p.toTest n).1.Canon a :=
  .fst_mk (.ite (.modCore hp fun _ hk => .cmd hk) hp)

theorem Panel.Canon.runTest {p : Panel} {req : W64} {ends drained : List Nat} (hp : p.Canon a) :
    (p.runTest req ends drained).Canon a := by
  unfold Panel.runTest
  dsimp only
  exact .upd (.foldl_fst (fun _ _ hy => .fst_mk (.toTest hy)) hp)

theorem Panel.Canon.forceTest {p : Panel} {req : W64} {ends : List Nat} (hp : p.Canon a) : (p.forceTest req ends).Canon a :=
  .ite hp (.ite (.upd (.runTest hp)) (.foldl (fun _ _ hq => .ite (.modCore hq fun _ hk => .cmd hk) hq) (.foldl
    (fun _ _ hq => .holdModels hq) hp)))

theorem execTestStart_kept {s : State} : a.Kept s (execTestStart s) :=
  onPanel_kept fun _ hp => by
    split
    · exact .ite (.runTest hp) (.ite (.ite (.runTest (.draw hp)) (.ite (.forceTest (.draw hp)) (.draw hp))) (.ite
        (.forceTest hp) hp))
    · exact hp

theorem Panel.Canon.backFrom {p : Panel} {x : Nat × CoreState} (hp : p.Canon a) : (p.backFrom x).Canon a :=
  .ite (.modCore hp fun _ hk => .cmd hk) hp

/-- A core with its scratchpad zeroed. -/
theorem Core.Canon.spad_empty {k : Core} (hk : k.Canon a) : ({ k with spad := { k.spad with mem := {} } } : Core).Canon a :=
  a.core_mem hk fun _ => rfl

theorem Panel.Canon.testPassed {p : Panel} {t : TestRun} (hp : p.Canon a) : (p.testPassed t).Canon a := by
  have h : (t.back.foldl Panel.backFrom
      (if testKind t.req.toNat = 2 then p.modCore (testSite t.req.toNat) fun k => { k with spad := { k.spad with mem := {} } }
        else p)).Canon a :=
    .foldl (fun _ _ hp => .backFrom hp) (.ite (.modCore hp fun _ hk => .spad_empty hk) hp)
  exact .ite (.setSh h) (.ite (.setSh (.resumeParts (.reapplyAll h)))
    (.setSh (.bumpSh (.resumeParts (.foldl (fun _ _ hp => .faultPart hp) (.reapplyAll h))))))

theorem Panel.Canon.noteRepair {p : Panel} {e : RepairEnt} (hp : p.Canon a) : (p.noteRepair e).Canon a := by
  unfold Panel.noteRepair
  dsimp only
  exact .upd hp

theorem Panel.Canon.cutModule {p : Panel} {n port m : Nat} (hp : p.Canon a) : (p.cutModule n port m).Canon a := by
  unfold Panel.cutModule
  extract_lets one q
  have hone : ∀ (p : Panel) (n port : Nat), p.Canon a → (one p n port).Canon a := fun _ _ _ hp =>
    .ite hp (.ite (.linkDown hp) (.logCore (.modCore hp fun _ hk => .setLink hk)))
  have hq : q.Canon a := hone p n port hp
  clear_value one q
  split
  exacts [.ite (hone _ _ _ hq) hq, hq]

theorem Panel.Canon.testFailed {p : Panel} {t : TestRun} {m : Nat} (hp : p.Canon a) : (p.testFailed t m).Canon a := by
  unfold Panel.testFailed
  extract_lets v n m' p1 p2 word q i q1 q2
  have h2 : p2.Canon a := .foldl (fun _ _ hp => .backFrom hp) (.noteRepair (.cutModule hp))
  have hq : q.Canon a := .noteRepair (.retireSite hp)
  have h1 : q1.Canon a := .ite (.setSite hq) hq
  clear_value q1
  have h3 : q2.Canon a := .ite (.upd h1) (.upd h1)
  exact .ite (.setSh (.resumeParts h2)) (.ite (.setSh hq) (.setSh h3))

theorem execTestComplete_kept {passed : Bool} {module : Fin 4} {s : State} : a.Kept s (execTestComplete passed module s) :=
  onPanel_kept fun _ hp => by
    split
    exacts [hp, .ite (.testPassed (.upd hp)) (.testFailed (.upd hp))]

/-! ### The management ring, the service compartment, the random source, and Hokuid's sessions and messages (R464–R466, R469,
R472, R476–R480, R489). -/

theorem execRingFrame_kept {frame : RingFrame} {s : State} : a.Kept s (execRingFrame frame s) :=
  onPanel_kept fun _ hp => by
    split
    · exact .ite (.wrote hp) hp
    · exact .ite (.readBy hp) hp
    · split
      exacts [.ite hp (.broadcast hp), .ite hp (.broadcast hp), hp]
    · exact .ite (.sendHeartbeat hp) hp
    · exact .ite hp (.modHub hp fun _ hk => .upd hk)
    · exact .sampleDomain hp
    · exact hp

theorem execRingBreak_kept {half : Crown} {s : State} : a.Kept s (execRingBreak half s) :=
  onPanel_kept fun _ hp => .foldl (fun _ _ hq => .ite hq (.modCrown hq)) (.logCrown hp)

theorem execServiceReport_kept {c : Crown} {s : State} : a.Kept s (execServiceReport c s) :=
  onPanel_kept fun _ hp => .ite hp (.modCrown hp)

theorem execServiceRestart_kept {c : Crown} {s : State} : a.Kept s (execServiceRestart c s) :=
  onPanel_kept fun _ hp => .ite hp (.logCrown (.modCrown (.restartSvc (.foldl (fun _ _ hq => .abandon hq) hp))))

theorem execRngHealthFail_kept {c : Crown} {s : State} : a.Kept s (execRngHealthFail c s) :=
  onPanel_kept fun _ hp => .ite hp (.alertOut (.modCrown hp))

theorem execRngHealthPass_kept {c : Crown} {s : State} : a.Kept s (execRngHealthPass c s) :=
  onPanel_kept fun _ hp => .ite hp (.modCrown hp)

theorem Panel.Canon.random {p : Panel} (hp : p.Canon a) : p.random.2.Canon a :=
  .snd_mk (.upd hp)

theorem Panel.Canon.authFail {p : Panel} {c : Crown} (hp : p.Canon a) : (p.authFail c).Canon a :=
  .modCrown hp

theorem execSessionAccept_kept {c : Crown} {cert : ClientCert} {s : State} : a.Kept s (execSessionAccept c cert s) :=
  onPanel_kept fun _ hp => .ite hp (by
    split
    · exact .modCrown hp
    · exact .ite hp (by split; exacts [.authFail hp, .ite (.authFail hp) (.modCrown hp)]))

theorem execSessionIdleClose_kept {c : Crown} {session : Fin 8} {s : State} : a.Kept s (execSessionIdleClose c session s) :=
  onPanel_kept fun _ hp => by split; exacts [hp, .ite (.modCrown hp) hp]

theorem Panel.Canon.hokuid {p : Panel} {c : Crown} {n tag : Nat} {role : Nat → Bool} {f : Panel → Panel} (hp : p.Canon a)
    (hf : ∀ q, q.Canon a → (f q).Canon a) : (p.hokuid c n tag role f).Canon a := by
  unfold Panel.hokuid
  split
  exacts [hp, .ite hp (.ite (hf _ (.modCrown hp)) (.hokuidAnswer (.modCrown hp)))]

theorem execHokuidRead_kept {c : Crown} {session : Fin 8} {tag : W32} {item : ConfigItem} {s : State} :
    a.Kept s (execHokuidRead c session tag item s) :=
  onPanel_kept fun _ hp => .hokuid hp fun _ hq => by split; exacts [.hokuidAnswer hq, .ite (.hokuidAnswer hq) (.hokuidAnswer
    (.regRead hq))]

theorem Panel.Canon.writeItem {p : Panel} {who : Requester} {i : ConfigItem} (hp : p.Canon a) : (p.writeItem who i).2.Canon a :=
  .foldl_snd (fun _ _ hy => .snd_mk (.regWrite hy)) hp

theorem execHokuidWrite_kept {c : Crown} {session : Fin 8} {tag : W32} {item : ConfigItem} {s : State} :
    a.Kept s (execHokuidWrite c session tag item s) :=
  onPanel_kept fun _ hp => .hokuid hp fun _ hq => .ite (.hokuidAnswer hq) (.hokuidAnswer (.writeItem hq))

theorem execSubmit_kept {c : Crown} {session : Fin 8} {tag : W32} {part : Partition} {request : BitVec 512} {s : State} :
    a.Kept s (execSubmit c session tag part request s) :=
  onPanel_kept fun _ hp => .hokuid hp fun _ hq => .modCrown hq

theorem execMaint_kept {c : Crown} {session : Fin 8} {tag : W32} {start : Bool} {s : State} :
    a.Kept s (execMaint c session tag start s) :=
  onPanel_kept fun _ hp => .hokuid hp fun _ hq => .hokuidAnswer (.upd hq)

theorem execFlashPut_kept {c : Crown} {session : Fin 8} {tag : W32} {kind : Fin 6} {offset : Nat} {payload : List Byte}
    {s : State} : a.Kept s (execFlashPut c session tag kind offset payload s) :=
  onPanel_kept fun _ hp => .hokuid hp fun _ hq => .ite (.hokuidAnswer hq) (.hokuidAnswer (.upd hq))

theorem Panel.Canon.commitOn {p : Panel} {c : Crown} {kind : Nat} {body : List Byte} (hp : p.Canon a) :
    (p.commitOn c kind body).Canon a := by
  unfold Panel.commitOn
  dsimp only
  exact .upd (.ite (.commitCopy hp) (.commitCopy (.commitCopy hp)))

theorem execFlashCommit_kept {c : Crown} {session : Fin 8} {tag : W32} {kind : Fin 6} {s : State} :
    a.Kept s (execFlashCommit c session tag kind s) :=
  onPanel_kept fun _ hp => .hokuid hp (fun _ hq => by
    dsimp only
    split
    · exact .hokuidAnswer hq
    · exact .ite (.hokuidAnswer hq) (.ite (.ite (.hokuidAnswer (.upd (.commitOn hq))) (.hokuidAnswer hq)) (.ite
        (.hokuidAnswer (.upd (.commitOn (.draw hq)))) (.hokuidAnswer (.upd (.commitOn hq))))))

/-! ### Root commands (R475, R478, R481, R482, R489) and protection changes (R485–R488). -/

theorem Panel.Canon.cmdAnswer {p : Panel} {c : Crown} {n tag status : Nat} (hp : p.Canon a) :
    (p.cmdAnswer c n tag status).Canon a :=
  .hokuidAnswer hp

theorem Panel.Canon.rootCmd {p : Panel} {c : Crown} {n : Nat} {tag : W32} {kind : Nat} {b : List Byte} {f : Panel → Panel}
    (hp : p.Canon a) (hf : ∀ q, q.Canon a → (f q).Canon a) : (p.rootCmd c n tag kind b f).Canon a :=
  .hokuid hp fun _ hq => by split; exacts [.cmdAnswer (.ite (.authFail hq) hq), hf _ (.setSh hq)]

theorem Panel.Canon.cmdEnd {p : Panel} {c : Crown} {n : Nat} {tag : W32} {b : List Byte} {status : Nat} (hp : p.Canon a) :
    (p.cmdEnd c n tag b status).Canon a :=
  .cmdAnswer (.showStat hp)

theorem Panel.Canon.writeItems {p : Panel} {is : List ConfigItem} (hp : p.Canon a) : (p.writeItems is).Canon a :=
  .foldl (fun _ _ hq => .writeItem hq) hp

theorem execCredentialChange_kept {c : Crown} {session : Fin 8} {tag : W32} {command : List Byte} {s : State} :
    a.Kept s (execCredentialChange c session tag command s) :=
  onPanel_kept fun _ hp => .rootCmd hp fun _ hq => .ite (.cmdEnd hq) (.cmdEnd (.writeItems hq))

theorem execAntiRollbackCommit_kept {c : Crown} {session : Fin 8} {tag : W32} {command : List Byte} {s : State} :
    a.Kept s (execAntiRollbackCommit c session tag command s) :=
  onPanel_kept fun _ hp => .rootCmd hp fun _ hq => .ite (.cmdEnd hq) (.cmdEnd (.upd hq))

theorem execUpdateAuthorisation_kept {c : Crown} {session : Fin 8} {tag : W32} {command : List Byte} {s : State} :
    a.Kept s (execUpdateAuthorisation c session tag command s) :=
  onPanel_kept fun _ hp => .rootCmd hp fun _ hq => .cmdEnd (.upd hq)

theorem Panel.Canon.closeWindow {p : Panel} {is : List ConfigItem} {w : Nat} (hp : p.Canon a) : (p.closeWindow is w).Canon a :=
  .ite hp (.foldl (fun _ _ hq => .ite (.modPort hq) hq) hp)

theorem Panel.Canon.disableSet {p : Panel} {q : Nat} (hp : p.Canon a) : (p.disableSet q).Canon a :=
  .ite hp (.setQ hp)

theorem Panel.Canon.closeItem {p : Panel} {is : List ConfigItem} {i : ConfigItem} {die : Die} (hp : p.Canon a) :
    (p.closeItem is i die).Canon a := by
  unfold Panel.closeItem
  dsimp only
  split
  · exact .ite hp (.setCore hp (.upd (.ite (.cmd (.ofPanel hp)) (.ofPanel hp))))
  · exact .modHub hp fun _ hk => .upd hk
  · exact hp
  · exact .ite (.closeWindow hp) (.ite (.ite (.modFn hp) hp) (.ite (.ite hp (.foldl (fun _ _ hq => .disableSet hq) hp)) (.ite
      (.foldl (fun _ _ hq => .disableSet hq) hp) hp)))
  · exact hp

theorem Panel.Canon.closeAll {p : Panel} {is : List ConfigItem} (hp : p.Canon a) : (p.closeAll is).Canon a :=
  .foldl (fun _ _ hq => .foldl (fun _ _ hr => .closeItem hr) hq) hp

theorem Panel.Canon.nextChange {p : Panel} (hp : p.Canon a) : p.nextChange.Canon a := by
  unfold Panel.nextChange
  split
  exacts [.ite hp (.showStat (.closeAll (.upd hp))), hp]

theorem execProtectionChange_kept {c : Crown} {session : Fin 8} {tag : W32} {command : List Byte} {s : State} :
    a.Kept s (execProtectionChange c session tag command s) :=
  onPanel_kept fun _ hp => .rootCmd hp fun _ hq => .nextChange (.upd hq)

theorem Panel.Canon.moveChange {p : Panel} {ch : Change} (hp : p.Canon a) : (p.moveChange ch).Canon a :=
  .ite (.nextChange (.endChange hp)) (.showStat (.upd hp))

theorem execProtectionStageCheck_kept {s : State} : a.Kept s (execProtectionStageCheck s) :=
  onPanel_kept fun _ hp => by
    split
    exacts [.nextChange hp, .ite hp (.ite (.showStat (.upd hp)) (.moveChange hp))]

theorem Core.Canon.clearOut {k : Core} (hk : k.Canon a) : k.clearOut.Canon a := by
  unfold Core.clearOut
  generalize List.range 31 = plans
  exact .foldl (fun _ _ hk => .wr (.wr hk)) (a.core_vregs (a.core_mem hk fun _ => rfl) fun _ => rfl)

theorem Hub.Canon.zeroBand {k : Hub} {b : Nat} (hk : k.Canon a) : (k.zeroBand b).Canon a := by
  refine a.hub_mem hk fun h => ?_
  obtain ⟨hcells, hchk, hpoison⟩ := (Mem.wf_iff _).1 h
  exact (Mem.wf_iff _).2 ⟨cellsWf_filter hcells _, cellsWf_filter hchk _, risingFrom_filter hpoison _⟩

theorem Panel.Canon.clearMoved {p : Panel} {i : ConfigItem} {die : Die} (hp : p.Canon a) : (p.clearMoved i die).Canon a := by
  unfold Panel.clearMoved
  split
  · exact .modCore hp fun _ hk => .ite (.clearOut hk) hk
  · exact .ite hp (.foldl (fun _ _ hq => .modHub hq fun _ hk => .zeroBand hk) hp)
  · exact hp

theorem execProtectionDrainCheck_kept {s : State} : a.Kept s (execProtectionDrainCheck s) :=
  onPanel_kept fun _ hp => by
    split
    · exact hp
    · exact .ite hp (.ite (.ite (.upd (.foldl (fun _ _ hq => .foldl (fun _ _ hr => .clearMoved hr) hq) hp)) hp)
        (.moveChange hp))

theorem execProtectionSwitch_kept {s : State} : a.Kept s (execProtectionSwitch s) :=
  onPanel_kept fun _ hp => by
    split
    exacts [hp, .ite hp (.nextChange (.endChange (.writeItems hp)))]

/-! ### Attestation: measurements, the SPDM messages of the PF's DOE, and Hokuid's ATTEST (R368, R471, R491–R493). The
layout of the messages is that of SPDM 1.3 (PRESUMED, notes/assumptions/26.md). -/

theorem Panel.Canon.nonce {p : Panel} (hp : p.Canon a) : p.nonce.2.Canon a :=
  .foldl_snd (fun _ _ hy => .snd_mk (.random hy)) hp

theorem Panel.Canon.signed {p : Panel} {c : Crown} {asked body : List Byte} (hp : p.Canon a) :
    (p.signed c asked body).2.Canon a :=
  .snd_mk (.upd hp)

theorem Panel.Canon.measurements {p : Panel} {c : Crown} {slot count : Nat} {is : List Nat} {asked : List Byte} (hp : p.Canon a)
    : (p.measurements c slot count is asked).2.Canon a :=
  .signed (.nonce hp)

theorem Panel.Canon.spdmAnswer {p : Panel} {r : SpdmRequest} {body : List Byte} (hp : p.Canon a) :
    (p.spdmAnswer r body).Canon a :=
  .emit (.upd hp)

theorem Panel.Canon.spdmOthers : ∀ {n : Nat} {p : Panel}, p.Canon a → (Panel.spdmOthers n p).Canon a
  | 0, _, hp => hp
  | n + 1, _, hp => by
    unfold Panel.spdmOthers
    split
    · exact Panel.Canon.spdmOthers (.spdmAnswer hp)
    · exact hp

theorem spdm_kept {s : State} {first : Bool} {f : Panel → SpdmRequest → Option (List Byte × Panel)}
    (hf : ∀ p r x, p.Canon a → f p r = some x → x.2.Canon a) : a.Kept s (s.spdm first f) := by
  refine onPanel_kept fun p hp => .ite hp ?_
  have hq : (Panel.spdmOthers p.doe.length p).Canon a := .spdmOthers hp
  generalize Panel.spdmOthers p.doe.length p = q at hq
  dsimp only
  split
  · exact hq
  · split
    · exact hq
    · next heq => exact .ite (.spdmAnswer hq) (.ite (.spdmAnswer hq) (.spdmAnswer (hf _ _ _ hq heq)))

theorem execGetVersion_kept {s : State} : a.Kept s (execGetVersion s) :=
  spdm_kept fun _ _ _ hp h => by
    split at h
    · cases h
      exact .snd_mk (.upd hp)
    · cases h

theorem execGetCapabilities_kept {s : State} : a.Kept s (execGetCapabilities s) :=
  spdm_kept fun _ _ _ hp h => by
    split at h
    · cases h
      exact .snd_mk (.draw hp)
    · cases h

theorem execNegotiateAlgorithms_kept {s : State} : a.Kept s (execNegotiateAlgorithms s) :=
  spdm_kept fun _ _ _ hp h => by
    split at h
    · refine of_ite_eq h (fun h => ?_) fun h => ?_
      · cases h
        exact .snd_mk (.upd hp)
      · cases h
        exact hp
    · cases h

theorem execGetDigests_kept {s : State} : a.Kept s (execGetDigests s) :=
  spdm_kept fun _ _ _ hp h => by
    split at h
    · cases h
      exact hp
    · cases h

theorem execGetCertificate_kept {s : State} : a.Kept s (execGetCertificate s) :=
  spdm_kept fun _ _ _ hp h => by
    split at h
    · dsimp only at h
      refine of_ite_eq h (fun h => ?_) fun h => ?_
      · cases h
        exact hp
      · cases h
        exact hp
    · cases h

theorem execChallenge_kept {s : State} : a.Kept s (execChallenge s) :=
  spdm_kept fun _ _ _ hp h => by
    split at h
    · refine of_ite_eq h (fun h => ?_) fun h => ?_
      · cases h
        exact hp
      · cases h
        exact .signed (.nonce hp)
    · cases h

theorem execGetMeasurements_kept {s : State} : a.Kept s (execGetMeasurements s) :=
  spdm_kept fun _ _ _ hp h => by
    split at h
    · dsimp only at h
      refine of_ite_eq h (fun h => ?_) fun h => ?_
      · cases h
        exact hp
      · cases h
        exact .measurements hp
    · cases h

theorem execAttest_kept {c : Crown} {session : Fin 8} {tag : W32} {nonce : BitVec 256} {indices : List Byte} {s : State} :
    a.Kept s (execAttest c session tag nonce indices s) :=
  onPanel_kept fun _ hp => .hokuid hp fun _ hq => .ite (.hokuidAnswer hq) (.hokuidAnswer (.measurements hq))

/-! ### Instructions and steps -/

theorem exec_kept (i : Instr) (s : State) : a.Kept s (exec i s) := by
  cases i with
  | registerWrite => exact execRegisterWrite_kept
  | wrongWidthAccess => exact execWrongWidthAccess_kept
  | rcCounterRead => exact execRcCounterRead_kept
  | lowHalfReadLatch => exact execLowHalfReadLatch_kept
  | pause => exact execPause_kept
  | resume => exact execResume_kept
  | abort => exact execAbort_kept
  | abortComplete => exact execAbortComplete_kept
  | drain => exact execDrain_kept
  | drainComplete => exact execDrainComplete_kept
  | test => exact execTest_kept
  | heartbeat => exact execHeartbeat_kept
  | coreLossDetect => exact execCoreLossDetect_kept
  | regionSummary => exact execRegionSummary_kept
  | agentLossDetect => exact execAgentLossDetect_kept
  | heartbeatReroute => exact execHeartbeatReroute_kept
  | agentAppoint => exact execAgentAppoint_kept
  | start => exact execStart_kept
  | taskStart => exact execTaskStart_kept
  | taskListCopyEnd => exact execTaskListCopyEnd_kept
  | engineGate => exact execEngineGate_kept
  | engineWake => exact execEngineWake_kept
  | nop => exact execNop_kept
  | endWord => exact execEndWord_kept
  | fence => exact execFence_kept
  | dispatch => exact execDispatch_kept
  | dmaStart => exact execDmaStart_kept
  | semWait => exact execSemWait_kept
  | semWaitTimeout => exact execSemWaitTimeout_kept
  | semSignal => exact execSemSignal_kept
  | semRead => exact execSemRead_kept
  | post => exact execPost_kept
  | recv => exact execRecv_kept
  | recvTimeout => exact execRecvTimeout_kept
  | ldi => exact execLdi_kept
  | alu => exact execAlu_kept
  | loop => exact execLoop_kept
  | br => exact execBr_kept
  | taskFault => exact execTaskFault_kept
  | seqFaultClr => exact execSeqFaultClr_kept
  | semSignalPacket => exact execSemSignalPacket_kept
  | msg => exact execMsg_kept
  | completion => exact execCompletion_kept
  | readData => exact execReadData_kept
  | mm => exact execMm_kept
  | mv => exact execMv_kept
  | accZero => exact execAccZero_kept
  | accLoad => exact execAccLoad_kept
  | accStore => exact execAccStore_kept
  | meOpComplete => exact execMeOpComplete_kept
  | meFaultClr => exact execMeFaultClr_kept
  | meTblkBadClr => exact execMeTblkBadClr_kept
  | emap => exact execEmap_kept
  | emapDescriptorRead => exact execEmapDescriptorRead_kept
  | eprog => exact execEprog_kept
  | vload => exact execVload_kept
  | vstore => exact execVstore_kept
  | veOpComplete => exact execVeOpComplete_kept
  | rsum => exact execRsum_kept
  | rmax => exact execRmax_kept
  | rmin => exact execRmin_kept
  | argmax => exact execArgmax_kept
  | topk => exact execTopk_kept
  | smpair => exact execSmpair_kept
  | pmerge => exact execPmerge_kept
  | tapPairStart => exact execTapPairStart_kept
  | ruOpComplete => exact execRuOpComplete_kept
  | veFaultClr => exact execVeFaultClr_kept
  | ruFaultClr => exact execRuFaultClr_kept
  | spadPlanWrite => exact execSpadPlanWrite_kept
  | spadPlanCtlWrite => exact execSpadPlanCtlWrite_kept
  | reshape => exact execReshape_kept
  | reshapeDrainTimeout => exact execReshapeDrainTimeout_kept
  | reshapeSupplySettled => exact execReshapeSupplySettled_kept
  | reshapeComplete => exact execReshapeComplete_kept
  | accReadTurn => exact execAccReadTurn_kept
  | accWriteTurn => exact execAccWriteTurn_kept
  | ingressWrite => exact execIngressWrite_kept
  | ingressRead => exact execIngressRead_kept
  | scrubPatrol => exact execScrubPatrol_kept
  | scrubWriteBack => exact execScrubWriteBack_kept
  | spadErrClr => exact execSpadErrClr_kept
  | flitReceive => exact execFlitReceive_kept
  | flitReplay => exact execFlitReplay_kept
  | packetHop => exact execPacketHop_kept
  | write => exact execWrite_kept
  | writeAcc => exact execWriteAcc_kept
  | readReq => exact execReadReq_kept
  | mcastWrite => exact execMcastWrite_kept
  | reduce => exact execReduce_kept
  | reduceDelivery => exact execReduceDelivery_kept
  | reduceRoundTimeout => exact execReduceRoundTimeout_kept
  | meshRedWrite => exact execMeshRedWrite_kept
  | meshInjCfgWrite => exact execMeshInjCfgWrite_kept
  | throttleLevelEnd => exact execThrottleLevelEnd_kept
  | linkDown => exact execLinkDown_kept
  | laneRepair => exact execLaneRepair_kept
  | laneRepairDone => exact execLaneRepairDone_kept
  | routeMapRewrite => exact execRouteMapRewrite_kept
  | descriptorRead => exact execDescriptorRead_kept
  | dmaCopy => exact execDmaCopy_kept
  | dmaFill => exact execDmaFill_kept
  | dmaSignal => exact execDmaSignal_kept
  | dmaReduce => exact execDmaReduce_kept
  | dmaPieceIssue => exact execDmaPieceIssue_kept
  | dmaRequestTimeout => exact execDmaRequestTimeout_kept
  | dmaDescriptorComplete => exact execDmaDescriptorComplete_kept
  | dmaFaultClr => exact execDmaFaultClr_kept
  | winEntWrite => exact execWinEntWrite_kept
  | loadBegin => exact execLoadBegin_kept
  | loadCommit => exact execLoadCommit_kept
  | loadIdleTimeout => exact execLoadIdleTimeout_kept
  | loadTargetsIdle => exact execLoadTargetsIdle_kept
  | loadReady => exact execLoadReady_kept
  | unload => exact execUnload_kept
  | admitSlot => exact execAdmit_kept
  | cancel => exact execCancel_kept
  | ctxMsgReceive => exact execCtxMsgReceive_kept
  | swapIn => exact execSwapIn_kept
  | pageIn => exact execPageIn_kept
  | stepStart => exact execStepStart_kept
  | stepComplete => exact execStepComplete_kept
  | stepTimeout => exact execStepTimeout_kept
  | sampleRow => exact execSampleRow_kept
  | mirrorAck => exact execMirrorAck_kept
  | deadlineExpire => exact execDeadlineExpire_kept
  | contextFree => exact execContextFree_kept
  | outputPathTimeout => exact execOutputPathTimeout_kept
  | crownLoss => exact execCrownLoss_kept
  | forecastPost => exact execForecastPost_kept
  | stepCommand => exact execStepCommand_kept
  | stepReport => exact execStepReport_kept
  | mirrorUpdate => exact execMirrorUpdate_kept
  | tokenRecordMessage => exact execTokenRecordMessage_kept
  | fabricRecordResend => exact execFabricRecordResend_kept
  | ctxCfgWrite => exact execCtxCfgWrite_kept
  | ctxSvcBaseWrite => exact execCtxSvcBaseWrite_kept
  | hubWrite => exact execHubWrite_kept
  | hubReadReq => exact execHubReadReq_kept
  | hubWriteBack => exact execHubWriteBack_kept
  | hubPatrol => exact execHubPatrol_kept
  | hubTempRead => exact execHubTempRead_kept
  | hbmRefresh h pc => exact execHbmRefresh_kept (h := h) (pc := pc)
  | hubCmdPtr => exact execHubCmdPtr_kept
  | hubCopy => exact execHubCopy_kept
  | hubZero => exact execHubZero_kept
  | hubDigest => exact execHubDigest_kept
  | hubScrub => exact execHubScrub_kept
  | hubCmdComplete => exact execHubCmdComplete_kept
  | hubRingCodeword => exact execHubRingCodeword_kept
  | hubErrClr => exact execHubErrClr_kept
  | hubBandWrite => exact execHubBandWrite_kept
  | hubHeartbeat => exact execHubHeartbeat_kept
  | hubHeartbeatLoss => exact execHubHeartbeatLoss_kept
  | stackLoss => exact execStackLoss_kept
  | lostStackMaskWrite => exact execLostStackMaskWrite_kept
  | portDown => exact execPortDown_kept
  | portRetrain => exact execPortRetrain_kept
  | initSend => exact execInitSend_kept
  | init => exact execInit_kept
  | ctrl => exact execCtrl_kept
  | ctrlSend => exact execCtrlSend_kept
  | data => exact execData_kept
  | replayTimeout => exact execReplayTimeout_kept
  | beacon => exact execBeacon_kept
  | beaconSend => exact execBeaconSend_kept
  | ethernetFrame => exact execEthernetFrame_kept
  | pfcFrame => exact execPfcFrame_kept
  | pfcRepeat => exact execPfcRepeat_kept
  | ethRequestTimeout => exact execEthRequestTimeout_kept
  | remoteRequest => exact execRemoteRequest_kept
  | remoteAnswer => exact execRemoteAnswer_kept
  | upMaskCopy => exact execUpMaskCopy_kept
  | portCfgWrite => exact execPortCfgWrite_kept
  | portPfcWrite => exact execPortPfcWrite_kept
  | portDevnumWrite => exact execPortDevnumWrite_kept
  | portDevblk => exact execPortDevblk_kept
  | portDevunblk => exact execPortDevunblk_kept
  | seenMask => exact execSeenMask_kept
  | seenMaskReceive => exact execSeenMaskReceive_kept
  | suspectDecision => exact execSuspectDecision_kept
  | expulsionLimitEnd => exact execExpulsionLimitEnd_kept
  | managerTakeover => exact execManagerTakeover_kept
  | groupFence => exact execGroupFence_kept
  | groupUnfence => exact execGroupUnfence_kept
  | groupExpel => exact execGroupExpel_kept
  | groupAdopt => exact execGroupAdopt_kept
  | groupTakeover => exact execGroupTakeover_kept
  | groupReady => exact execGroupReady_kept
  | goodputTick => exact execGoodputTick_kept
  | queueSetEnable => exact execQueueSetEnable_kept
  | queueSetDisable => exact execQueueSetDisable_kept
  | queueDisableDone => exact execQueueDisableDone_kept
  | sqTailDoorbell => exact execSqTailDoorbell_kept
  | rcqHeadDoorbell => exact execRcqHeadDoorbell_kept
  | tcqHeadDoorbell => exact execTcqHeadDoorbell_kept
  | doorbellRelease => exact execDoorbellRelease_kept
  | sqFetch => exact execSqFetch_kept
  | hostNop => exact execHostNop_kept
  | requestCompletionWrite => exact execRequestCompletionWrite_kept
  | interruptDelayExpire => exact execInterruptDelayExpire_kept
  | bar4Read => exact execBar4Read_kept
  | bar4Write => exact execBar4Write_kept
  | bar4ReadTimeout => exact execBar4ReadTimeout_kept
  | hostFnpartWrite => exact execHostFnpartWrite_kept
  | hostSegWrite => exact execHostSegWrite_kept
  | hostFnErrClr => exact execHostFnErrClr_kept
  | flrVf => exact execFlrVf_kept
  | flrPf => exact execFlrPf_kept
  | hostReset => exact execHostReset_kept
  | doeRequest => exact execDoeRequest_kept
  | doeAbort => exact execDoeAbort_kept
  | getVersion => exact execGetVersion_kept
  | getCapabilities => exact execGetCapabilities_kept
  | negotiateAlgorithms => exact execNegotiateAlgorithms_kept
  | getDigests => exact execGetDigests_kept
  | getCertificate => exact execGetCertificate_kept
  | challenge => exact execChallenge_kept
  | getMeasurements => exact execGetMeasurements_kept
  | referenceLoss => exact execReferenceLoss_kept
  | escapementLock => exact execEscapementLock_kept
  | escapementTakeover => exact execEscapementTakeover_kept
  | handover => exact execHandover_kept
  | treeLossFatal => exact execTreeLossFatal_kept
  | calibrationWindow => exact execCalibrationWindow_kept
  | droopStretch => exact execDroopStretch_kept
  | supplyHalt => exact execSupplyHalt_kept
  | haltSupplyFault => exact execHaltSupplyFault_kept
  | clkCapWrite => exact execClkCapWrite_kept
  | capRaiseApply => exact execCapRaiseApply_kept
  | setpointChange => exact execSetpointChange_kept
  | setpointCancel => exact execSetpointCancel_kept
  | setpointArmCheck => exact execSetpointArmCheck_kept
  | setpointSwitch => exact execSetpointSwitch_kept
  | busSample => exact execBusSample_kept
  | phaseFailure => exact execPhaseFailure_kept
  | regionSupplyLoss => exact execRegionSupplyLoss_kept
  | edgeConverterFault => exact execEdgeConverterFault_kept
  | rampBucketGrant => exact execRampBucketGrant_kept
  | floorLower => exact execFloorLower_kept
  | preRampStart => exact execPreRampStart_kept
  | regionPowerOn => exact execRegionPowerOn_kept
  | regionPowerOff => exact execRegionPowerOff_kept
  | rampGrant => exact execRampGrant_kept
  | siteRegulatorStart => exact execSiteRegulatorStart_kept
  | powerCapCheck => exact execPowerCapCheck_kept
  | capRestore => exact execCapRestore_kept
  | telemetrySample => exact execTelemetrySample_kept
  | energyTick => exact execEnergyTick_kept
  | energyTenantUpdate => exact execEnergyTenantUpdate_kept
  | sensorConversion => exact execSensorConversion_kept
  | thermalEvaluation => exact execThermalEvaluation_kept
  | thermalShedRetire => exact execThermalShedRetire_kept
  | thermalTrip => exact execThermalTrip_kept
  | edgeThermalEvaluation => exact execEdgeThermalEvaluation_kept
  | hbmLimitStep => exact execHbmLimitStep_kept
  | lehrAdjust => exact execLehrAdjust_kept
  | thermistorRead => exact execThermistorRead_kept
  | flowPulse => exact execFlowPulse_kept
  | coolantEvaluation => exact execCoolantEvaluation_kept
  | abruptStop => exact execAbruptStop_kept
  | shedLift => exact execShedLift_kept
  | orderlyStop => exact execOrderlyStop_kept
  | powerLoss => exact execPowerLoss_kept
  | panelStart => exact execPanelStart_kept
  | stageComplete => exact execStageComplete_kept
  | stageTimeout => exact execStageTimeout_kept
  | crownAbsent => exact execCrownAbsent_kept
  | restartFast => exact execRestartFast_kept
  | restartFull => exact execRestartFull_kept
  | fullStartNext => exact execFullStartNext_kept
  | retrainNorth => exact execRetrainNorth_kept
  | retrainSouth => exact execRetrainSouth_kept
  | halfRetrainComplete => exact execHalfRetrainComplete_kept
  | vacate => exact execVacate_kept
  | coreRepair => exact execCoreRepair_kept
  | repairAdopt => exact execRepairAdopt_kept
  | repairComplete => exact execRepairComplete_kept
  | repairFail => exact execRepairFail_kept
  | serviceFirmwareUpdate => exact execServiceFirmwareUpdate_kept
  | coreSelfTest => exact execCoreSelfTest_kept
  | scratchpadMarch => exact execScratchpadMarch_kept
  | linkRecalibration => exact execLinkRecalibration_kept
  | sensorCalibration => exact execSensorCalibration_kept
  | testStart => exact execTestStart_kept
  | testComplete => exact execTestComplete_kept
  | ringFrame => exact execRingFrame_kept
  | ringBreak => exact execRingBreak_kept
  | serviceReport => exact execServiceReport_kept
  | serviceRestart => exact execServiceRestart_kept
  | rngHealthFail => exact execRngHealthFail_kept
  | sessionAccept => exact execSessionAccept_kept
  | sessionIdleClose => exact execSessionIdleClose_kept
  | hokuidRead => exact execHokuidRead_kept
  | hokuidWrite => exact execHokuidWrite_kept
  | submit => exact execSubmit_kept
  | attest => exact execAttest_kept
  | flashPut => exact execFlashPut_kept
  | flashCommit => exact execFlashCommit_kept
  | maint => exact execMaint_kept
  | protectionChange => exact execProtectionChange_kept
  | credentialChange => exact execCredentialChange_kept
  | antiRollbackCommit => exact execAntiRollbackCommit_kept
  | updateAuthorisation => exact execUpdateAuthorisation_kept
  | protectionStageCheck => exact execProtectionStageCheck_kept
  | protectionDrainCheck => exact execProtectionDrainCheck_kept
  | protectionSwitch => exact execProtectionSwitch_kept
  | tableEntryRewrite => exact execTableEntryRewrite_kept
  | shadowRowRestore => exact execShadowRowRestore_kept
  | errorLogPoll => exact execErrorLogPoll_kept
  | errAck => exact execErrAck_kept
  | resetInput => exact execResetInput_kept
  | groupMessageResend => exact execGroupMessageResend_kept
  | pfcPauseExpire => exact execPfcPauseExpire_kept
  | supplyRecovery => exact execSupplyRecovery_kept
  | rngHealthPass => exact execRngHealthPass_kept

theorem Goes.canon {s t : State} (h : Goes s t) (hs : s.panel.Canon a) : t.panel.Canon a := by
  unfold Goes step at h
  split at h
  · cases h
    exact .idle hs
  · next c rest _ => exact exec_kept c { s with pending := rest } hs t h

/-- Settles O56: every function of the model keeps both claims, and so does each instruction and the step. -/
theorem stepsKeepMemoriesCanonical : Obligations.StepsKeepMemoriesCanonical := by
  intro s t h
  rw [← canon_memories_iff, ← canon_memories_iff, ← canon_zeroRegister_iff, ← canon_zeroRegister_iff]
  exact ⟨h.canon, h.canon⟩

end Sys2Proof.Machine
end

section
/-! PROOFS. Accesses of a core's scratchpad by its engines (R153, R154, R166, R167, R173–R176): what reading and writing rows
leave of the core, which parts of it the bytes read depend on, and byte by byte what rows and gathered pieces store. -/

namespace Sys2Proof.Machine

/-! ### What an access leaves of the core -/

/-- A core after accesses that leave its memory as `mem`: besides, they keep only records, counters, write-backs and buffers. -/
def Core.Accessed (k : Core) (mem : Mem) (l : Core) : Prop :=
  ∃ regs log wbq acc,
    l = { k with regs := regs, log := log, spad := { k.spad with mem := mem, wbq := wbq, acc := acc } }

namespace Core.Accessed

variable {k l j : Core} {m m' : Mem}

theorem refl (k : Core) : k.Accessed k.spad.mem k := ⟨_, _, _, _, rfl⟩

theorem mem_eq (h : k.Accessed m l) : l.spad.mem = m := by
  obtain ⟨_, _, _, _, rfl⟩ := h; rfl

theorem trans (h : k.Accessed m l) (h' : l.Accessed m' j) : k.Accessed m' j := by
  obtain ⟨_, _, _, _, rfl⟩ := h
  obtain ⟨_, _, _, _, rfl⟩ := h'
  exact ⟨_, _, _, _, rfl⟩

/-- An access that leaves the memory, after any. -/
theorem then_read (h : k.Accessed m l) (h' : l.Accessed l.spad.mem j) : k.Accessed m j := by
  rw [h.mem_eq] at h'
  exact h.trans h'

/-- An access whatever it stores. -/
theorem self (h : k.Accessed m l) : k.Accessed l.spad.mem l := by rwa [h.mem_eq]

theorem me_eq (h : k.Accessed m l) : l.me = k.me := by
  obtain ⟨_, _, _, _, rfl⟩ := h; rfl

theorem eng_eq (h : k.Accessed m l) (e : Nat) : l.eng e = k.eng e := by
  unfold Core.eng; rw [h.me_eq]

theorem reach_eq (h : k.Accessed m l) (off : Nat) : l.reach off = k.reach off := by
  obtain ⟨_, _, _, _, rfl⟩ := h; rfl

end Core.Accessed

theorem Core.accessed_bump (k : Core) (off n : Nat) : k.Accessed k.spad.mem (k.bump off n) := ⟨_, _, _, _, rfl⟩

theorem Core.accessed_wr (k : Core) (off v : Nat) : k.Accessed k.spad.mem (k.wr off v) := ⟨_, _, _, _, rfl⟩

theorem Core.accessed_logErr (k : Core) (dial n : Nat) (i : LogItem) : k.Accessed k.spad.mem (k.logErr dial n i) := by
  unfold Core.logErr
  dsimp only
  split_ifs
  · exact ⟨_, _, _, _, rfl⟩
  · exact k.accessed_bump _ _

theorem Core.accessed_queueWb (k : Core) (row : Nat) : k.Accessed k.spad.mem (k.queueWb row) := by
  unfold Core.queueWb
  split_ifs
  · exact .refl k
  · exact ⟨_, _, _, _, rfl⟩
  · exact k.accessed_bump _ _

theorem Core.accessed_noteRead (k : Core) (w : At) (req n : Nat) (r : CwRead) :
    k.Accessed k.spad.mem (k.noteRead w req n r) := by
  unfold Core.noteRead
  split
  · exact .refl k
  · exact ((k.accessed_bump _ _).then_read (Core.accessed_logErr ..)).then_read (Core.accessed_queueWb ..)
  · refine Core.Accessed.then_read ?_ (Core.accessed_logErr ..)
    split_ifs
    · exact k.accessed_bump _ _
    · exact (k.accessed_bump _ _).then_read (Core.accessed_wr ..)

theorem Core.accessed_readCws (w : At) (req : Nat) : ∀ (n m : Nat) (k : Core),
    k.Accessed k.spad.mem (Core.readCws w req n m k).2
  | _, 0, k => .refl k
  | n, m + 1, k => (k.accessed_noteRead ..).then_read (Core.accessed_readCws w req (n + 1) m _)

theorem Core.accessed_readRow (k : Core) (w : At) (req row : Nat) : k.Accessed k.spad.mem (k.readRow w req row).2.2 := by
  unfold Core.readRow
  split_ifs
  · dsimp only
    exact Core.accessed_readCws w req _ _ k
  · exact k.accessed_bump _ _

theorem Core.accessed_fetch (w : At) (req : Nat) : ∀ (rows : List Nat) (k : Core),
    k.Accessed k.spad.mem (Core.fetch w req rows k).2.2
  | [], k => .refl k
  | _ :: rows, k => (k.accessed_readRow ..).then_read (Core.accessed_fetch w req rows _)

/-! ### What the bytes read depend on -/

/-- Two cores whose scratchpads read alike: the same codewords, awake groups and reshape. -/
def Core.ReadsAs (k l : Core) : Prop :=
  l.spad.mem = k.spad.mem ∧ l.spad.awake = k.spad.awake ∧ l.spad.reshape = k.spad.reshape

theorem Core.Accessed.readsAs {k l : Core} (h : k.Accessed k.spad.mem l) : k.ReadsAs l := by
  obtain ⟨_, _, _, _, rfl⟩ := h
  exact ⟨rfl, rfl, rfl⟩

theorem Core.ReadsAs.after {k l k' l' : Core} (h : k.ReadsAs l) (hk : k.Accessed k.spad.mem k')
    (hl : l.Accessed l.spad.mem l') : k'.ReadsAs l' := by
  obtain ⟨hm, ha, hr⟩ := h
  obtain ⟨hkm, hka, hkr⟩ := hk.readsAs
  obtain ⟨hlm, hla, hlr⟩ := hl.readsAs
  exact ⟨by rw [hlm, hm, hkm], by rw [hla, ha, hka], by rw [hlr, hr, hkr]⟩

theorem Core.ReadsAs.reach_eq {k l : Core} (h : k.ReadsAs l) (off : Nat) : l.reach off = k.reach off := by
  obtain ⟨-, ha, hr⟩ := h
  unfold Core.reach Core.capacity Core.awakeN Core.groups
  rw [ha, hr]

theorem Core.ReadsAs.readCws_eq (w : At) (req : Nat) : ∀ (n m : Nat) {k l : Core}, k.ReadsAs l →
    (Core.readCws w req n m l).1 = (Core.readCws w req n m k).1
  | _, 0, _, _, _ => rfl
  | n, m + 1, k, l, h => by
    simp only [Core.readCws, h.1]
    rw [Core.ReadsAs.readCws_eq w req (n + 1) m (h.after (k.accessed_noteRead ..) (l.accessed_noteRead ..))]

theorem Core.ReadsAs.readRow_eq {k l : Core} (h : k.ReadsAs l) (w : At) (req row : Nat) :
    (l.readRow w req row).1 = (k.readRow w req row).1 ∧ (l.readRow w req row).2.1 = (k.readRow w req row).2.1 := by
  unfold Core.readRow
  rw [h.reach_eq]
  split_ifs
  · dsimp only
    rw [h.readCws_eq w req (8 * row) 8]
    exact ⟨rfl, rfl⟩
  · exact ⟨rfl, rfl⟩

/-- A fetch delivers the same bytes with the same status from scratchpads that read alike. -/
theorem Core.ReadsAs.fetch_eq (w : At) (req : Nat) : ∀ (rows : List Nat) {k l : Core}, k.ReadsAs l →
    (Core.fetch w req rows l).1 = (Core.fetch w req rows k).1 ∧
      (Core.fetch w req rows l).2.1 = (Core.fetch w req rows k).2.1
  | [], _, _, _ => ⟨rfl, rfl⟩
  | r :: rows, k, l, h => by
    obtain ⟨hb, hs⟩ := h.readRow_eq w req r
    obtain ⟨hb', hs'⟩ := Core.ReadsAs.fetch_eq w req rows (h.after (k.accessed_readRow w req r) (l.accessed_readRow w req r))
    simp only [Core.fetch]
    rw [hb, hs, hb', hs']
    exact ⟨rfl, rfl⟩

/-! ### Codewords stored (R153, R175) -/

theorem length_cellsAt (m : List Host.Cell) (a n : Nat) : (cellsAt m a n).length = n := by
  induction n generalizing a with
  | zero => rfl
  | succ n ih => rw [cellsAt, List.length_cons, ih]

theorem getElem?_cellsAt (m : List Host.Cell) {n i : Nat} (a : Nat) (h : i < n) :
    (cellsAt m a n)[i]? = some (cellAt m (a + i)) := by
  induction n generalizing a i with
  | zero => omega
  | succ n ih =>
    cases i with
    | zero => rfl
    | succ i => rw [cellsAt, List.getElem?_cons_succ, ih _ (by omega), Nat.add_assoc, Nat.add_comm 1 i]

theorem length_rsDecode {bs bs' : List Byte} (h : rsDecode bs = .corrected bs') : bs'.length = bs.length := by
  unfold rsDecode at h
  dsimp only at h
  split_ifs at h
  · split at h
    · cases h
    · cases h
      exact List.length_modify ..
  · split at h <;> cases h

/-- A codeword as it is delivered has 32 data bytes. -/
theorem Mem.length_data_read (m : Mem) (n : Nat) : (m.cw n).read.2.data.length = 32 := by
  have hdata : (m.cw n).data.length = 32 := length_cellsAt ..
  have hchk : (m.cw n).chk.length = 4 := length_cellsAt ..
  unfold Codeword.read
  split_ifs
  · exact hdata
  · split
    · exact hdata
    next bs hbs =>
      have hlen := length_rsDecode hbs
      simp only [List.length_append, hdata, hchk] at hlen
      simp [hlen]
    · exact hdata

/-- A byte of a codeword stored whole. -/
theorem Mem.byte_setCw_inside (m : Mem) (n : Nat) {c : Codeword} (hc : c.data.length = 32) {i : Nat} (hi : i < 32) :
    (m.setCw n c).byte (32 * n + i) = c.data.getD i 0 := by
  have hpad : padTo 32 c.data = c.data := by simp [padTo, hc]
  change cellAt (setCells m.cells (32 * n) (padTo 32 c.data)) (32 * n + i) = _
  rw [hpad, cellAt_setCells_inside _ _ _ _ (by omega), List.getD_eq_getElem _ _ (by omega)]

theorem Mem.byte_setCw_other (m : Mem) {n a : Nat} (c : Codeword) (h : a / 32 ≠ n) : (m.setCw n c).byte a = m.byte a :=
  m.byte_setCw_outside n c a (by omega)

/-- Codewords of which the one at a byte's place holds that byte leave it as it is. -/
theorem Mem.byte_setCws_kept {a : Nat} : ∀ (cs : List Codeword) (m : Mem) (n : Nat),
    (n ≤ a / 32 → ∀ c, cs[a / 32 - n]? = some c → c.data.length = 32 ∧ c.data.getD (a % 32) 0 = m.byte a) →
    (m.setCws n cs).byte a = m.byte a
  | [], _, _, _ => rfl
  | c :: cs, m, n, h => by
    have hhead : (m.setCw n c).byte a = m.byte a := by
      by_cases hn : a / 32 = n
      · obtain ⟨hlen, hbyte⟩ := h hn.ge c (by simp [hn])
        have hsplit : a = 32 * n + a % 32 := by omega
        rw [← hbyte, ← m.byte_setCw_inside n hlen (Nat.mod_lt a (by omega)), ← hsplit]
      · exact m.byte_setCw_other c hn
    rw [Mem.setCws, Mem.byte_setCws_kept cs _ _ fun hle d hd => ?_, hhead]
    rw [hhead]
    refine h (by omega) d ?_
    rwa [show a / 32 - n = a / 32 - (n + 1) + 1 by omega, List.getElem?_cons_succ]

theorem Mem.getElem?_cws (m : Mem) : ∀ (n k i : Nat), i < k → (m.cws n k)[i]? = some (m.cw (n + i))
  | n, k + 1, 0, _ => rfl
  | n, k + 1, i + 1, h => by
    rw [Mem.cws, List.getElem?_cons_succ, Mem.getElem?_cws m (n + 1) k i (by omega), Nat.add_assoc, Nat.add_comm 1 i]

/-! ### Bytes written into codewords (R154, R175) -/

theorem length_mergeBytes : ∀ (old : List Byte) (new : List MByte), (mergeBytes old new).length = old.length
  | [], [] => rfl
  | [], _ :: _ => rfl
  | _ :: _, [] => rfl
  | _ :: old, _ :: new => congrArg (· + 1) (length_mergeBytes old new)

theorem getD_mergeBytes : ∀ (old : List Byte) (new : List MByte) (i : Nat), i < old.length → ∀ b, new.getD i none = some b →
    (mergeBytes old new).getD i 0 = b.1
  | _ :: _, b :: _, 0, _, x, h => by
    have hb : b = some x := h
    subst hb
    rfl
  | _ :: old, _ :: new, i + 1, hi, x, h => getD_mergeBytes old new i (Nat.lt_of_succ_lt_succ hi) x h

/-- A list of bytes without an enabled one. -/
theorem getD_none_of_all_isNone {l : List MByte} (h : l.all (·.isNone) = true) (i : Nat) : l.getD i none = none := by
  rw [List.getD_eq_getElem?_getD]
  cases hi : l[i]? with
  | none => rfl
  | some b => exact Option.isNone_iff_eq_none.1 (List.all_eq_true.1 h b (List.mem_of_getElem? hi))

theorem all_isNone_take {l : List MByte} {n : Nat} (h : ∀ i, i < n → l.getD i none = none) :
    (l.take n).all (·.isNone) = true := by
  refine List.all_eq_true.2 fun b hb => ?_
  obtain ⟨i, hi, rfl⟩ := List.mem_iff_getElem.1 hb
  have hin : i < n ∧ i < l.length := by simpa using hi
  have := h i hin.1
  rw [List.getD_eq_getElem _ _ hin.2] at this
  simp [this]

/-- What a write of one codeword stores: nothing without an enabled byte, else a codeword that holds every enabled byte. -/
theorem Core.mem_writeCw (k : Core) (w : At) (req n : Nat) (l : List MByte) :
    (l.all (·.isNone) = true ∧ (k.writeCw w req n l).2.spad.mem = k.spad.mem) ∨
      ∃ c : Codeword, (k.writeCw w req n l).2.spad.mem = k.spad.mem.setCw n c ∧ c.data.length = 32 ∧
        ∀ i b, i < 32 → l.getD i none = some b → c.data.getD i 0 = b.1 := by
  unfold Core.writeCw
  dsimp only
  split_ifs with hnone hall
  · exact .inl ⟨hnone, rfl⟩
  · refine .inr ⟨_, rfl, by simp [Codeword.fresh, hall.2], fun i b hi hb => ?_⟩
    have hlen : i < l.length := by omega
    rw [List.getD_eq_getElem _ _ hlen] at hb
    simp [Codeword.fresh, hlen, hb, MByte.byte]
  · have hlen := k.spad.mem.length_data_read n
    have hmerge : (mergeBytes (k.spad.mem.cw n).read.2.data l).length = 32 := by rw [length_mergeBytes, hlen]
    have hbyte : ∀ i b, i < 32 → l.getD i none = some b → (mergeBytes (k.spad.mem.cw n).read.2.data l).getD i 0 = b.1 :=
      fun i b hi => getD_mergeBytes _ _ _ (by omega) b
    split
    · exact .inr ⟨_, rfl, hmerge, hbyte⟩
    · refine .inr ⟨Codeword.fresh (mergeBytes (k.spad.mem.cw n).read.2.data l) (l.any MByte.bad), ?_, hmerge, hbyte⟩
      dsimp only
      rw [Core.logErr_spad, Core.bump_spad]
    · exact .inr ⟨_, rfl, hmerge, hbyte⟩

theorem Core.accessed_storeCw (k : Core) (n : Nat) (c : Codeword) : k.Accessed (k.spad.mem.setCw n c) (k.storeCw n c) :=
  ⟨_, _, _, _, rfl⟩

theorem Core.accessed_writeCw (k : Core) (w : At) (req n : Nat) (l : List MByte) :
    k.Accessed (k.writeCw w req n l).2.spad.mem (k.writeCw w req n l).2 := by
  unfold Core.writeCw
  dsimp only
  split_ifs
  · exact .refl k
  · exact (k.accessed_storeCw ..).self
  · split
    · exact (k.accessed_storeCw ..).self
    · exact (((k.accessed_bump ..).then_read (Core.accessed_logErr ..)).trans (Core.accessed_storeCw ..)).self
    · exact ((k.accessed_storeCw ..).then_read (Core.accessed_bump ..)).self

theorem Core.accessed_writeCws (w : At) (req : Nat) : ∀ (m n : Nat) (l : List MByte) (k : Core),
    k.Accessed (Core.writeCws w req m n l k).2.spad.mem (Core.writeCws w req m n l k).2
  | 0, _, _, k => .refl k
  | m + 1, n, l, k => (k.accessed_writeCw ..).trans (Core.accessed_writeCws w req m (n + 1) (l.drop 32) _)

theorem getD_drop {α : Type} (l : List α) (n i : Nat) (d : α) : (l.drop n).getD i d = l.getD (n + i) d := by
  simp [List.getD_eq_getElem?_getD]

/-- A byte whose codeword has no enabled byte stays. -/
theorem Core.byte_writeCws_kept (w : At) (req a : Nat) : ∀ (m n : Nat) (l : List MByte) (k : Core),
    (∀ c, c / 32 = a / 32 → 32 * n ≤ c → c < 32 * (n + m) → l.getD (c - 32 * n) none = none) →
    (Core.writeCws w req m n l k).2.spad.mem.byte a = k.spad.mem.byte a
  | 0, _, _, _, _ => rfl
  | m + 1, n, l, k, h => by
    have hrest : ∀ c, c / 32 = a / 32 → 32 * (n + 1) ≤ c → c < 32 * (n + 1 + m) →
        (l.drop 32).getD (c - 32 * (n + 1)) none = none := fun c hc hlo hhi => by
      rw [getD_drop, show 32 + (c - 32 * (n + 1)) = c - 32 * n by omega]
      exact h c hc (by omega) (by omega)
    have hhead : (k.writeCw w req n (l.take 32)).2.spad.mem.byte a = k.spad.mem.byte a := by
      rcases k.mem_writeCw w req n (l.take 32) with ⟨-, hm⟩ | ⟨c, hm, -, -⟩
      · rw [hm]
      · by_cases hn : a / 32 = n
        · have hnone : (l.take 32).all (·.isNone) = true := all_isNone_take fun i hi => by
            have := h (32 * n + i) (by omega) (by omega) (by omega)
            rwa [Nat.add_sub_cancel_left] at this
          rw [Core.writeCw, if_pos hnone]
        · rw [hm, Mem.byte_setCw_other _ _ hn]
    exact (Core.byte_writeCws_kept w req a m (n + 1) (l.drop 32) _ hrest).trans hhead

/-- An enabled byte is stored. -/
theorem Core.byte_writeCws_written (w : At) (req a : Nat) (b : Byte × Bool) : ∀ (m n : Nat) (l : List MByte) (k : Core),
    32 * n ≤ a → a < 32 * (n + m) → l.getD (a - 32 * n) none = some b →
    (Core.writeCws w req m n l k).2.spad.mem.byte a = b.1
  | 0, _, _, _, _, _, _ => by omega
  | m + 1, n, l, k, hlo, hhi, hb => by
    by_cases hn : a / 32 = n
    · have hin : (l.take 32).getD (a - 32 * n) none = some b := by
        rw [List.getD_eq_getElem?_getD, List.getElem?_take_of_lt (by omega), ← List.getD_eq_getElem?_getD, hb]
      refine (Core.byte_writeCws_kept w req a m (n + 1) (l.drop 32) _ fun c _ _ _ => by omega).trans ?_
      rcases k.mem_writeCw w req n (l.take 32) with ⟨hnone, -⟩ | ⟨c, hm, hlen, hbyte⟩
      · rw [getD_none_of_all_isNone hnone] at hin
        cases hin
      · have hsplit : a = 32 * n + (a - 32 * n) := by omega
        rw [hm, hsplit, Mem.byte_setCw_inside _ _ hlen (by omega), hbyte _ b (by omega) hin]
    · refine Core.byte_writeCws_written w req a b m (n + 1) (l.drop 32) _ (by omega) (by omega) ?_
      rwa [getD_drop, show 32 + (a - 32 * (n + 1)) = a - 32 * n by omega]

/-! ### One row written or accumulated -/

/-- A byte of a memory as it stands in its codeword. -/
theorem Mem.getD_data_cw (m : Mem) (a : Nat) : (m.cw (a / 32)).data.getD (a % 32) 0 = m.byte a := by
  change (cellsAt m.cells (32 * (a / 32)) 32).getD (a % 32) 0 = _
  rw [List.getD_eq_getElem?_getD, getElem?_cellsAt _ _ (Nat.mod_lt a (by omega)), Nat.div_add_mod]
  rfl

theorem length_accRow (type : Nat) : ∀ (cs : List Codeword) (inc : List MByte), (accRow type cs inc).1.length = cs.length
  | [], _ => rfl
  | _ :: cs, inc => congrArg (· + 1) (length_accRow type cs (inc.drop 32))

theorem Mem.length_cws (m : Mem) : ∀ n k : Nat, (m.cws n k).length = k
  | _, 0 => rfl
  | n, k + 1 => congrArg (· + 1) (m.length_cws (n + 1) k)

theorem Core.accessed_wrote (k : Core) (row : Nat) : k.Accessed k.spad.mem (k.wrote row) := by
  unfold Core.wrote
  dsimp only
  split_ifs
  · exact ⟨_, _, _, _, rfl⟩
  · exact ⟨_, _, _, _, rfl⟩

@[simp] theorem Core.mem_wrote (k : Core) (row : Nat) : (k.wrote row).spad.mem = k.spad.mem := (k.accessed_wrote row).mem_eq

theorem Core.accessed_writeRow (k : Core) (w : At) (req row : Nat) (l : List MByte) :
    k.Accessed (k.writeRow w req row l).2.spad.mem (k.writeRow w req row l).2 := by
  unfold Core.writeRow
  split_ifs
  · dsimp only
    exact ((Core.accessed_writeCws w req _ _ l k).then_read (Core.accessed_wrote ..)).self
  · exact (k.accessed_bump ..).self

/-- A byte stays where its codeword has no enabled byte in the row. -/
theorem Core.byte_writeRow_kept (k : Core) (w : At) (req row a : Nat) (l : List MByte)
    (h : ∀ c, c / 32 = a / 32 → c / 256 = row → l.getD (c % 256) none = none) :
    (k.writeRow w req row l).2.spad.mem.byte a = k.spad.mem.byte a := by
  unfold Core.writeRow
  split_ifs
  · dsimp only
    rw [Core.mem_wrote, Core.byte_writeCws_kept w req a _ _ l k fun c hc hlo hhi => ?_]
    rw [show c - 32 * (8 * row) = c % 256 by omega]
    exact h c hc (by omega)
  · rfl

/-- An enabled byte of a row in reach is stored. -/
theorem Core.byte_writeRow_written (k : Core) (w : At) (req : Nat) {row a : Nat} {l : List MByte} {b : Byte × Bool}
    (hr : k.reach (256 * row) = true) (ha : a / 256 = row) (hb : l.getD (a % 256) none = some b) :
    (k.writeRow w req row l).2.spad.mem.byte a = b.1 := by
  unfold Core.writeRow
  rw [if_pos hr]
  dsimp only
  rw [Core.mem_wrote]
  refine Core.byte_writeCws_written w req a b _ _ l k (by omega) (by omega) ?_
  rwa [show a - 32 * (8 * row) = a % 256 by omega]

theorem Core.accessed_accReadRow (w : At) (req : Nat) : ∀ (m n : Nat) (inc : List MByte) (k : Core),
    k.Accessed k.spad.mem (Core.accReadRow w req m n inc k)
  | 0, _, _, k => .refl k
  | m + 1, n, inc, k => by
    refine Core.Accessed.then_read ?_ (Core.accessed_accReadRow w req m (n + 1) (inc.drop 32) _)
    split_ifs
    · exact .refl k
    · exact k.accessed_noteRead ..

theorem Core.accessed_accStoreRow (k : Core) (row type : Nat) (stored : List Codeword) (inc : List MByte) :
    k.Accessed (k.spad.mem.setCws (8 * row) (accRow type stored inc).1) (k.accStoreRow row type stored inc).2 := by
  unfold Core.accStoreRow
  dsimp only
  split_ifs
  · exact ⟨_, _, _, _, rfl⟩
  · exact ⟨_, _, _, _, rfl⟩

theorem Core.accessed_accRowLocal (k : Core) (w : At) (req type row : Nat) (inc : List MByte) :
    k.Accessed (k.accRowLocal w req type row inc).2.spad.mem (k.accRowLocal w req type row inc).2 := by
  unfold Core.accRowLocal
  split_ifs
  · dsimp only
    exact (((Core.accessed_accReadRow w req _ _ inc k).trans (Core.accessed_accStoreRow ..)).then_read
      (Core.accessed_wrote ..)).self
  · exact (k.accessed_bump ..).self

/-- A codeword that no enabled byte touches is accumulated as it stands. -/
theorem getElem?_accRow_untouched (type : Nat) : ∀ (cs : List Codeword) (inc : List MByte) (i : Nat),
    (∀ j, j < 32 → inc.getD (32 * i + j) none = none) → (accRow type cs inc).1[i]? = cs[i]?
  | [], _, _, _ => rfl
  | c :: _, inc, 0, h => by
    have hnone : (inc.take 32).all (·.isNone) = true := all_isNone_take fun j hj => by simpa using h j hj
    simp only [accRow, accCw, hnone, if_true, List.getElem?_cons_zero]
  | _ :: cs, inc, i + 1, h => by
    simp only [accRow, List.getElem?_cons_succ]
    refine getElem?_accRow_untouched type cs (inc.drop 32) i fun j hj => ?_
    rw [getD_drop, show 32 + (32 * i + j) = 32 * (i + 1) + j by omega]
    exact h j hj

theorem Core.byte_accRowLocal_kept (k : Core) (w : At) (req type row a : Nat) (inc : List MByte)
    (h : ∀ c, c / 32 = a / 32 → c / 256 = row → inc.getD (c % 256) none = none) :
    (k.accRowLocal w req type row inc).2.spad.mem.byte a = k.spad.mem.byte a := by
  unfold Core.accRowLocal
  split_ifs
  · dsimp only
    have hread := Core.accessed_accReadRow w req 8 (8 * row) inc k
    generalize Core.accReadRow w req 8 (8 * row) inc k = l at hread
    rw [Core.mem_wrote, (Core.accessed_accStoreRow ..).mem_eq, Mem.byte_setCws_kept _ _ _ fun hle c hc => ?_, hread.mem_eq]
    by_cases hin : a / 32 - 8 * row < 8
    · rw [getElem?_accRow_untouched type _ _ _ fun j hj => ?_, Mem.getElem?_cws _ _ _ _ hin] at hc
      · cases hc
        rw [show 8 * row + (a / 32 - 8 * row) = a / 32 by omega]
        exact ⟨length_cellsAt .., l.spad.mem.getD_data_cw a⟩
      · have := h (32 * (a / 32) + j) (by omega) (by omega)
        rwa [show (32 * (a / 32) + j) % 256 = 32 * (a / 32 - 8 * row) + j by omega] at this
    · rw [List.getElem?_eq_none (by rw [length_accRow, Mem.length_cws]; omega)] at hc
      cases hc
  · rfl

/-! ### Rows in order -/

/-- The byte that rows of 256 bytes give an address. -/
def rowByte (rows : List (Nat × List MByte)) (a : Nat) : MByte := (look [] rows (a / 256)).getD (a % 256) none

/-- Rows with numbers rising, so that none stands twice. -/
def Rising (rows : List (Nat × List MByte)) : Prop := rows.Pairwise fun x y => x.1 < y.1

theorem rowByte_cons (row : Nat) (l : List MByte) (rows : List (Nat × List MByte)) (a : Nat) :
    rowByte ((row, l) :: rows) a = if a / 256 = row then l.getD (a % 256) none else rowByte rows a := by
  unfold rowByte look
  rw [find]
  split_ifs <;> rfl

theorem find_none_of_lt {α : Type} {m : Sparse α} {n : Nat} (h : ∀ x ∈ m, n < x.1) : find m n = none := by
  cases hf : find m n with
  | none => rfl
  | some v => exact absurd (h _ (mem_of_find hf)) (lt_irrefl n)

/-- The rows after the first give no byte of the first. -/
theorem rowByte_after {row : Nat} {l : List MByte} {rows : List (Nat × List MByte)} (h : Rising ((row, l) :: rows)) {a : Nat}
    (ha : a / 256 = row) : rowByte rows a = none := by
  have : find rows (a / 256) = none := find_none_of_lt fun x hx => ha ▸ (List.pairwise_cons.1 h).1 x hx
  rw [rowByte, look, this]
  rfl

/-- Rows performed in order, each by one access; a row without an enabled byte is not accessed. -/
def Core.eachRow (f : Core → Nat → List MByte → Nat × Core) : List (Nat × List MByte) → Core → Core
  | [], k => k
  | (row, l) :: rest, k => Core.eachRow f rest (if l.all (·.isNone) then k else (f k row l).2)

theorem Core.writeRows_eq (w : At) (req : Nat) : ∀ (rows : List (Nat × List MByte)) (k : Core),
    (Core.writeRows w req rows k).2 = Core.eachRow (fun k => k.writeRow w req) rows k
  | [], _ => rfl
  | (row, l) :: rest, k => by
    simp only [Core.writeRows, Core.eachRow, Core.writeRows_eq w req rest]
    split_ifs <;> rfl

theorem Core.accRows_eq (w : At) (req type : Nat) : ∀ (rows : List (Nat × List MByte)) (k : Core),
    (Core.accRows w req type rows k).2 = Core.eachRow (fun k => k.accRowLocal w req type) rows k
  | [], _ => rfl
  | (row, l) :: rest, k => by
    simp only [Core.accRows, Core.eachRow, Core.accRows_eq w req type rest]
    split_ifs <;> rfl

section
variable {f : Core → Nat → List MByte → Nat × Core}

theorem Core.accessed_eachRow (hf : ∀ (k : Core) row l, k.Accessed (f k row l).2.spad.mem (f k row l).2) :
    ∀ (rows : List (Nat × List MByte)) (k : Core), k.Accessed (Core.eachRow f rows k).spad.mem (Core.eachRow f rows k)
  | [], k => .refl k
  | (row, l) :: rest, k => by
    refine Core.Accessed.trans (m := (if l.all (·.isNone) then k else (f k row l).2).spad.mem) ?_
      (Core.accessed_eachRow hf rest _)
    split_ifs
    · exact .refl k
    · exact hf k row l

/-- An access keeps each byte whose codeword has no enabled byte in its row. -/
def KeepsBytes (f : Core → Nat → List MByte → Nat × Core) : Prop :=
  ∀ k row a l, (∀ c, c / 32 = a / 32 → c / 256 = row → l.getD (c % 256) none = none) →
    (f k row l).2.spad.mem.byte a = k.spad.mem.byte a

/-- So do rows performed in order. -/
theorem Core.byte_eachRow_kept (hf : KeepsBytes f) (a : Nat) : ∀ (rows : List (Nat × List MByte)) (k : Core), Rising rows →
    (∀ c, c / 32 = a / 32 → rowByte rows c = none) → (Core.eachRow f rows k).spad.mem.byte a = k.spad.mem.byte a
  | [], _, _, _ => rfl
  | (row, l) :: rest, k, hrise, h => by
    have hrest : ∀ c, c / 32 = a / 32 → rowByte rest c = none := fun c hc => by
      by_cases hrow : c / 256 = row
      · exact rowByte_after hrise hrow
      · have := h c hc
        rwa [rowByte_cons, if_neg hrow] at this
    refine (Core.byte_eachRow_kept hf a rest _ (List.pairwise_cons.1 hrise).2 hrest).trans ?_
    split_ifs
    · rfl
    · refine hf k row a l fun c hc hrow => ?_
      have := h c hc
      rwa [rowByte_cons, if_pos hrow] at this

end

theorem Core.keepsBytes_writeRow (w : At) (req : Nat) : KeepsBytes fun k => k.writeRow w req :=
  fun k row a l h => k.byte_writeRow_kept w req row a l h

theorem Core.keepsBytes_accRowLocal (w : At) (req type : Nat) : KeepsBytes fun k => k.accRowLocal w req type :=
  fun k row a l h => k.byte_accRowLocal_kept w req type row a l h

/-- An enabled byte of rows written, its row in reach, is stored. -/
theorem Core.byte_writeRows_written (w : At) (req : Nat) {a : Nat} {b : Byte × Bool} :
    ∀ (rows : List (Nat × List MByte)) (k : Core), Rising rows → k.reach (256 * (a / 256)) = true →
      rowByte rows a = some b → (Core.eachRow (fun k => k.writeRow w req) rows k).spad.mem.byte a = b.1
  | [], _, _, _, h => by cases h
  | (row, l) :: rest, k, hrise, hr, h => by
    have hrest := (List.pairwise_cons.1 hrise).2
    rw [rowByte_cons] at h
    rw [Core.eachRow]
    split_ifs at h with hrow
    · refine (Core.byte_eachRow_kept (Core.keepsBytes_writeRow w req) a rest _ hrest fun c hc => ?_).trans ?_
      · exact rowByte_after hrise (by omega)
      · split_ifs with hnone
        · rw [getD_none_of_all_isNone hnone] at h
          cases h
        · exact k.byte_writeRow_written w req (hrow ▸ hr) hrow h
    · refine Core.byte_writeRows_written w req rest _ hrest ?_ h
      split_ifs
      · exact hr
      · rw [(k.accessed_writeRow w req row l).reach_eq, hr]

/-! ### Bytes cut into rows, and pieces gathered -/

/-- The byte that a piece (offset, bytes) gives an address. -/
def pieceByte (p : Nat × List MByte) (a : Nat) : MByte := if p.1 ≤ a then p.2.getD (a - p.1) none else none

/-- Rows of 256 bytes each, with numbers rising. -/
structure WholeRows (rows : List (Nat × List MByte)) : Prop where
  rising : Rising rows
  length : ∀ x ∈ rows, x.2.length = 256

theorem wholeRows_nil : WholeRows [] := ⟨.nil, by simp⟩

theorem length_rowBytesAt {i : Nat} {l : List MByte} (h : i + l.length ≤ 256) : (rowBytesAt i l).length = 256 := by
  simp only [rowBytesAt, List.length_take, List.length_append, List.length_replicate]
  omega

theorem getD_rowBytesAt {i j : Nat} (l : List MByte) (hj : j < 256) :
    (rowBytesAt i l).getD j none = if i ≤ j then l.getD (j - i) none else none := by
  rw [rowBytesAt, List.getD_eq_getElem?_getD, List.getElem?_take_of_lt hj, List.append_assoc]
  split_ifs with hij
  · rw [List.getElem?_append_right (by rwa [List.length_replicate]), List.length_replicate, ← List.getD_eq_getElem?_getD]
    by_cases hl : j - i < l.length
    · rw [List.getD_append _ _ _ _ hl]
    · rw [List.getD_append_right _ _ _ _ (not_lt.1 hl), List.getD_replicate none (by omega),
        List.getD_eq_default _ _ (not_lt.1 hl)]
  · rw [← List.getD_eq_getElem?_getD, List.getD_append _ _ _ _ (by rw [List.length_replicate]; omega),
      List.getD_replicate none (by omega)]

theorem cutRows_from : ∀ (m off : Nat) (l : List MByte), ∀ x ∈ cutRows m off l, off / 256 ≤ x.1
  | 0, _, _, _, h => by cases h
  | m + 1, off, l, x, h => by
    rw [cutRows] at h
    split_ifs at h
    · cases h
    · rcases List.mem_cons.1 h with rfl | h
      · exact le_rfl
      · exact le_trans (by omega) (cutRows_from m _ _ x h)

theorem wholeRows_cutRows : ∀ (m off : Nat) (l : List MByte), WholeRows (cutRows m off l)
  | 0, _, _ => wholeRows_nil
  | m + 1, off, l => by
    rw [cutRows]
    split_ifs
    · exact wholeRows_nil
    · obtain ⟨hrise, hlen⟩ := wholeRows_cutRows m (off - off % 256 + 256) (l.drop (256 - off % 256))
      refine ⟨List.pairwise_cons.2 ⟨fun x hx => ?_, hrise⟩, fun x hx => ?_⟩
      · exact lt_of_lt_of_le (by dsimp only; omega) (cutRows_from _ _ _ x hx)
      · rcases List.mem_cons.1 hx with rfl | hx
        · exact length_rowBytesAt (by simp only [List.length_take]; omega)
        · exact hlen x hx

theorem rowByte_cutRows (a : Nat) : ∀ (m off : Nat) (l : List MByte), l.length + off % 256 ≤ 256 * m →
    rowByte (cutRows m off l) a = pieceByte (off, l) a
  | 0, off, l, h => by
    have hl : l = [] := List.eq_nil_of_length_eq_zero (by omega)
    simp [cutRows, hl, pieceByte, rowByte, look, find]
  | m + 1, off, l, h => by
    rw [cutRows]
    split_ifs with hl
    · rw [List.isEmpty_iff.1 hl]
      simp [pieceByte, rowByte, look, find]
    · rw [rowByte_cons, rowByte_cutRows a m _ _ (by simp only [List.length_drop]; omega), pieceByte, pieceByte]
      dsimp only
      split_ifs with hrow hle hnext hle hle
      · rw [getD_rowBytesAt _ (by omega), if_pos (by omega), List.getD_eq_getElem?_getD, List.getElem?_take_of_lt (by omega),
          ← List.getD_eq_getElem?_getD, show a % 256 - off % 256 = a - off by omega]
      · rw [getD_rowBytesAt _ (by omega), if_neg (by omega)]
      · rw [getD_drop, show 256 - off % 256 + (a - (off - off % 256 + 256)) = a - off by omega]
      · omega
      · omega
      · rfl

/-- Bytes from an offset on, cut into rows, give each address its byte. -/
theorem rowByte_rowsAt (off : Nat) (l : List MByte) (a : Nat) : rowByte (rowsAt off l) a = pieceByte (off, l) a :=
  rowByte_cutRows a _ off l (by omega)

theorem wholeRows_rowsAt (off : Nat) (l : List MByte) : WholeRows (rowsAt off l) := wholeRows_cutRows ..

theorem length_overlay {old new : List MByte} (ho : old.length = 256) (hn : new.length = 256) :
    (overlay old new).length = 256 := by
  simp [overlay, ho, hn]

theorem getD_overlay {old new : List MByte} (ho : old.length = 256) (hn : new.length = 256) {i : Nat} (hi : i < 256) :
    (overlay old new).getD i none = (new.getD i none).or (old.getD i none) := by
  rw [List.getD_eq_getElem _ _ (by rw [length_overlay ho hn]; exact hi), List.getD_eq_getElem _ _ (by omega),
    List.getD_eq_getElem _ _ (by omega)]
  simp only [overlay, List.getElem_zipWith]
  cases new[i] <;> rfl

/-- A row laid over the rows gathered so far. -/
def layRow (m : List (Nat × List MByte)) (r : Nat × List MByte) : List (Nat × List MByte) :=
  alter (List.replicate 256 none) m r.1 fun o => overlay o r.2

theorem rising_put {m : List (Nat × List MByte)} (h : Rising m) (n : Nat) (v : List MByte) : Rising (put m n v) := by
  induction m with
  | nil => exact List.pairwise_singleton ..
  | cons x m ih =>
    obtain ⟨k, w⟩ := x
    obtain ⟨hk, hm⟩ := List.pairwise_cons.1 h
    simp only [put]
    split_ifs with h1 h2
    · refine List.pairwise_cons.2 ⟨fun y hy => ?_, h⟩
      rcases List.mem_cons.1 hy with rfl | hy
      · exact h1
      · exact h1.trans (hk y hy)
    · exact List.pairwise_cons.2 ⟨fun y hy => h2 ▸ hk y hy, hm⟩
    · refine List.pairwise_cons.2 ⟨fun y hy => ?_, ih hm⟩
      rcases mem_put hy with rfl | hy
      · dsimp only; omega
      · exact hk y hy

theorem length_look_row {m : List (Nat × List MByte)} (h : WholeRows m) (n : Nat) :
    (look (List.replicate 256 none) m n).length = 256 := by
  unfold look
  cases hf : find m n with
  | none => exact List.length_replicate ..
  | some l => exact h.length _ (mem_of_find hf)

theorem wholeRows_layRow {m : List (Nat × List MByte)} (h : WholeRows m) {r : Nat × List MByte} (hr : r.2.length = 256) :
    WholeRows (layRow m r) := by
  refine ⟨rising_put h.rising _ _, fun x hx => ?_⟩
  rcases mem_put hx with rfl | hx
  · exact length_overlay (length_look_row h _) hr
  · exact h.length x hx

theorem rowByte_layRow {m : List (Nat × List MByte)} (h : WholeRows m) {r : Nat × List MByte} (hr : r.2.length = 256) (a : Nat) :
    rowByte (layRow m r) a = if a / 256 = r.1 then (r.2.getD (a % 256) none).or (rowByte m a) else rowByte m a := by
  have hdefault : (look (List.replicate 256 none) m (a / 256)).getD (a % 256) none = rowByte m a := by
    unfold rowByte look
    cases find m (a / 256) with
    | none => exact List.getD_replicate none (show a % 256 < 256 by omega)
    | some l => rfl
  split_ifs with hrow
  · have hlay : look [] (layRow m r) r.1 = overlay (look (List.replicate 256 none) m r.1) r.2 := look_put_same ..
    rw [← hdefault, rowByte, hrow, hlay, getD_overlay (length_look_row h _) hr (Nat.mod_lt a (by omega))]
  · have hlay : look [] (layRow m r) (a / 256) = look [] m (a / 256) := look_put_other _ _ _ hrow
    rw [rowByte, hlay]
    rfl

/-- Rows laid over the rows gathered so far: whole rows again, and where they give a byte, theirs. -/
theorem foldl_layRow (a : Nat) : ∀ (rows m : List (Nat × List MByte)), WholeRows rows → WholeRows m →
    WholeRows (rows.foldl layRow m) ∧ rowByte (rows.foldl layRow m) a = (rowByte rows a).or (rowByte m a)
  | [], _, _, hm => ⟨hm, rfl⟩
  | (row, l) :: rows, m, hrows, hm => by
    have hl : l.length = 256 := hrows.length _ List.mem_cons_self
    have hrest : WholeRows rows := ⟨(List.pairwise_cons.1 hrows.rising).2, fun x hx => hrows.length x (List.mem_cons_of_mem _ hx)⟩
    obtain ⟨hwhole, hbyte⟩ := foldl_layRow a rows (layRow m (row, l)) hrest (wholeRows_layRow hm hl)
    refine ⟨hwhole, hbyte.trans ?_⟩
    rw [rowByte_layRow hm hl, rowByte_cons]
    split_ifs with hrow
    · rw [rowByte_after hrows.rising hrow, Option.none_or]
    · rfl

/-- The rows of a piece laid over the rows gathered so far. -/
def layPiece (m : List (Nat × List MByte)) (p : Nat × List MByte) : List (Nat × List MByte) := (rowsAt p.1 p.2).foldl layRow m

theorem gather_eq (pieces : List (Nat × List MByte)) : gather pieces = pieces.foldl layPiece [] := rfl

/-- Pieces gathered onto rows: each address has its byte of the last piece that gives one. -/
theorem foldl_layPiece (a : Nat) : ∀ (pieces m : List (Nat × List MByte)), WholeRows m →
    WholeRows (pieces.foldl layPiece m) ∧
      rowByte (pieces.foldl layPiece m) a = (pieces.reverse.findSome? (pieceByte · a)).or (rowByte m a)
  | [], _, hm => ⟨hm, rfl⟩
  | p :: pieces, m, hm => by
    obtain ⟨hlaid, hp⟩ := foldl_layRow a (rowsAt p.1 p.2) m (wholeRows_rowsAt ..) hm
    obtain ⟨hwhole, hbyte⟩ := foldl_layPiece a pieces (layPiece m p) hlaid
    refine ⟨hwhole, hbyte.trans ?_⟩
    rw [layPiece, hp, rowByte_rowsAt, List.reverse_cons, List.findSome?_append, Option.or_assoc]
    cases hpa : pieceByte p a <;> simp [hpa]

theorem wholeRows_gather (pieces : List (Nat × List MByte)) : WholeRows (gather pieces) :=
  (foldl_layPiece 0 pieces [] wholeRows_nil).1

theorem rowByte_gather (pieces : List (Nat × List MByte)) (a : Nat) :
    rowByte (gather pieces) a = pieces.reverse.findSome? (pieceByte · a) := by
  rw [gather_eq, (foldl_layPiece a pieces [] wholeRows_nil).2]
  exact Option.or_none

/-- The pieces that give an address a byte give it the same one: that one is gathered. -/
theorem rowByte_gather_of_agree {pieces : List (Nat × List MByte)} {a : Nat} {b : Byte × Bool} {p : Nat × List MByte}
    (hp : p ∈ pieces) (hb : pieceByte p a = some b) (hagree : ∀ x ∈ pieces, pieceByte x a = none ∨ pieceByte x a = some b) :
    rowByte (gather pieces) a = some b := by
  rw [rowByte_gather]
  cases hf : pieces.reverse.findSome? (pieceByte · a) with
  | none =>
    rw [List.findSome?_eq_none_iff.1 hf p (List.mem_reverse.2 hp)] at hb
    cases hb
  | some c =>
    obtain ⟨x, hx, hc⟩ := List.exists_of_findSome?_eq_some hf
    rcases hagree x (List.mem_reverse.1 hx) with hnone | hsome
    · rw [hnone] at hc; cases hc
    · rw [← hc, hsome]

/-! ### What a store of pieces, and a write from an offset on, store -/

/-- Pieces stored, written or accumulated, keep a byte whose codeword none of them touches. -/
theorem Core.byte_storePieces_kept (k : Core) (w : At) (req type : Nat) (pieces : List (Nat × List MByte)) {a : Nat}
    (h : ∀ p ∈ pieces, ∀ c, c / 32 = a / 32 → pieceByte p c = none) :
    (k.storePieces w req type pieces).2.spad.mem.byte a = k.spad.mem.byte a := by
  have hnone : ∀ c, c / 32 = a / 32 → rowByte (gather pieces) c = none := fun c hc => by
    rw [rowByte_gather]
    exact List.findSome?_eq_none_iff.2 fun p hp => h p (List.mem_reverse.1 hp) c hc
  have hrise := (wholeRows_gather pieces).rising
  unfold Core.storePieces
  split_ifs
  · rw [Core.writeRows_eq, Core.byte_eachRow_kept (Core.keepsBytes_writeRow w req) a _ k hrise hnone]
  · rw [Core.accRows_eq, Core.byte_eachRow_kept (Core.keepsBytes_accRowLocal w req type) a _ k hrise hnone]

/-- A byte that a piece writes, its row in reach and no other piece giving it another byte, is stored. -/
theorem Core.byte_storePieces_written (k : Core) (w : At) (req : Nat) {pieces : List (Nat × List MByte)} {a : Nat}
    {b : Byte × Bool} {p : Nat × List MByte} (hr : k.reach (256 * (a / 256)) = true) (hp : p ∈ pieces)
    (hb : pieceByte p a = some b) (hagree : ∀ x ∈ pieces, pieceByte x a = none ∨ pieceByte x a = some b) :
    (k.storePieces w req 0 pieces).2.spad.mem.byte a = b.1 := by
  rw [Core.storePieces, if_pos rfl, Core.writeRows_eq]
  exact Core.byte_writeRows_written w req _ k (wholeRows_gather pieces).rising hr (rowByte_gather_of_agree hp hb hagree)

theorem Core.accessed_storePieces (k : Core) (w : At) (req type : Nat) (pieces : List (Nat × List MByte)) :
    k.Accessed (k.storePieces w req type pieces).2.spad.mem (k.storePieces w req type pieces).2 := by
  unfold Core.storePieces
  split_ifs
  · rw [Core.writeRows_eq]
    exact Core.accessed_eachRow (fun k row l => k.accessed_writeRow w req row l) _ k
  · rw [Core.accRows_eq]
    exact Core.accessed_eachRow (fun k row l => k.accessed_accRowLocal w req type row l) _ k

end Sys2Proof.Machine
end

section
/-! PROOFS. The matrix engines (R105, R107, R111–R118): the words of a tile, what the start of an operation comes to, and what
each operation stores and leaves of its core; from these the obligations O11, O13 and O45. -/

namespace Sys2Proof.Machine

/-! ### Words of a tile (R105) -/

theorem tileKey_inj {t t' r r' c c' : Nat} (hr : r < 64) (hr' : r' < 64) (hc : c < 128) (hc' : c' < 128) :
    tileKey t r c = tileKey t' r' c' ↔ t = t' ∧ r = r' ∧ c = c' := by
  unfold tileKey
  omega

theorem MatEng.word_setWord (e : MatEng) {t t' r r' c c' : Nat} (v : Nat) (hr : r < 64) (hr' : r' < 64) (hc : c < 128)
    (hc' : c' < 128) :
    (e.setWord t r c v).word t' r' c' = if t' = t ∧ r' = r ∧ c' = c then v % 2 ^ 32 else e.word t' r' c' := by
  unfold MatEng.word MatEng.setWord
  split_ifs with h
  · obtain ⟨rfl, rfl, rfl⟩ := h
    rw [look_putZ_same, BitVec.toNat_ofNat]
  · rw [look_putZ_other _ _ fun hk => h ((tileKey_inj hr' hr hc' hc).1 hk)]

/-- One row of words set. -/
def MatEng.setRow (e : MatEng) (t n r : Nat) (f : Nat → Nat) : MatEng :=
  (List.range n).foldl (fun e c => e.setWord t r c (f c)) e

theorem MatEng.word_setRow (e : MatEng) {t t' n r i j : Nat} (f : Nat → Nat) (hn : n ≤ 128) (hr : r < 64) (hi : i < 64)
    (hj : j < 128) : (e.setRow t n r f).word t' i j = if t' = t ∧ i = r ∧ j < n then f j % 2 ^ 32 else e.word t' i j := by
  induction n with
  | zero => simp [MatEng.setRow]
  | succ n ih =>
    have hstep : e.setRow t (n + 1) r f = (e.setRow t n r f).setWord t r n (f n) := by
      simp [MatEng.setRow, List.range_succ]
    rw [hstep, MatEng.word_setWord _ _ hr hi (by omega) hj, ih (by omega)]
    by_cases hjn : j = n
    · subst hjn
      simp
    · have : j < n + 1 ↔ j < n := by omega
      simp [hjn, this]

/-- Words set row by row: those inside the rows and columns are set, all others stay. -/
theorem MatEng.word_setWords (e : MatEng) {t t' m n i j : Nat} (f : Nat → Nat → Nat) (hm : m ≤ 64) (hn : n ≤ 128) (hi : i < 64)
    (hj : j < 128) :
    (e.setWords t m n f).word t' i j = if t' = t ∧ i < m ∧ j < n then f i j % 2 ^ 32 else e.word t' i j := by
  induction m with
  | zero => simp [MatEng.setWords]
  | succ m ih =>
    have hstep : e.setWords t (m + 1) n f = (e.setWords t m n f).setRow t n m (f m) := by
      simp [MatEng.setWords, MatEng.setRow, List.range_succ]
    rw [hstep, MatEng.word_setRow _ _ hn (by omega) hi hj, ih (by omega)]
    by_cases him : i = m
    · subst him
      simp
    · have : i < m + 1 ↔ i < m := by omega
      simp [him, this]

/-- A fold of steps that set tiles alone sets tiles alone. -/
theorem MatEng.foldl_tiles {α : Type} {f : MatEng → α → MatEng} (hf : ∀ e x, ∃ tiles, f e x = { e with tiles := tiles }) :
    ∀ (l : List α) (e : MatEng), ∃ tiles, l.foldl f e = { e with tiles := tiles }
  | [], _ => ⟨_, rfl⟩
  | x :: l, e => by
    obtain ⟨tiles, h⟩ := hf e x
    obtain ⟨tiles', h'⟩ := MatEng.foldl_tiles hf l { e with tiles := tiles }
    exact ⟨tiles', by rw [List.foldl_cons, h, h']⟩

/-- Setting words leaves an engine's queue and its running operations. -/
theorem MatEng.setWords_rest (e : MatEng) (t m n : Nat) (f : Nat → Nat → Nat) :
    ∃ tiles, e.setWords t m n f = { e with tiles := tiles } :=
  MatEng.foldl_tiles (fun e _ => MatEng.foldl_tiles (fun _ _ => ⟨_, rfl⟩) _ e) _ e

theorem Core.eng_setEng_other (k : Core) {i j : Nat} (e : MatEng) (h : j ≠ i) : (k.setEng i e).eng j = k.eng j :=
  look_put_other _ _ _ h

@[simp] theorem MatEng.word_setRun (e : MatEng) (r : RunOp) (t i j : Nat) : (e.setRun r).word t i j = e.word t i j := by
  unfold MatEng.setRun; split_ifs <;> rfl

@[simp] theorem MatEng.queue_setRun (e : MatEng) (r : RunOp) : (e.setRun r).queue = e.queue := by
  unfold MatEng.setRun; split_ifs <;> rfl

@[simp] theorem MatEng.word_shared (base : Nat) (e : MatEng) (t i j : Nat) : (e.shared base).word t i j = e.word t i j := rfl

/-! ### Rows and columns of an operation (R112) -/

theorem bits_lt (n hi lo : Nat) : bits n hi lo < 2 ^ (hi + 1 - lo) := Nat.mod_lt _ (Nat.two_pow_pos _)

theorem QOp.f_lt (q : QOp) (hi lo : Nat) : q.f hi lo < 2 ^ (hi + 1 - lo) := bits_lt ..

theorem QOp.mmM_le (q : QOp) : q.mmM ≤ 64 := q.f_lt 50 45
theorem QOp.mmN_le (q : QOp) : q.mmN ≤ 128 := q.f_lt 44 38
theorem QOp.tM_le (q : QOp) : q.tM ≤ 64 := q.f_lt 47 42
theorem QOp.tN_le (q : QOp) : q.tN ≤ 128 := q.f_lt 41 35

/-! ### Operations that set words of their tile -/

/-- An operation has run that sets words of its tile, and of the core besides has at most read. -/
def Core.SetsTile (k : Core) (eng : Nat) (q : QOp) (m n : Nat) (val : Nat → Nat → Nat) (k' : Core) : Prop :=
  ∃ l r e, e = k.eng eng ∧ k.Accessed k.spad.mem l ∧ r.q = q ∧ k' = l.setEng eng ((e.setWords q.tile m n val).setRun r)

section
variable {k k' : Core} {eng m n : Nat} {q : QOp} {val : Nat → Nat → Nat} (h : k.SetsTile eng q m n val k')
include h

theorem Core.SetsTile.word (hm : m ≤ 64) (hn : n ≤ 128) {i j : Nat} (hi : i < m) (hj : j < n) :
    (k'.eng eng).word q.tile i j = val i j % 2 ^ 32 := by
  obtain ⟨l, r, _, rfl, -, -, rfl⟩ := h
  rw [Core.eng_setEng, MatEng.word_setRun, MatEng.word_setWords _ _ hm hn (by omega) (by omega), if_pos ⟨rfl, hi, hj⟩]

theorem Core.SetsTile.queue : (k'.eng eng).queue = (k.eng eng).queue := by
  obtain ⟨l, r, _, rfl, -, -, rfl⟩ := h
  obtain ⟨tiles, ht⟩ := (k.eng eng).setWords_rest q.tile m n val
  rw [Core.eng_setEng, MatEng.queue_setRun, ht]

theorem Core.SetsTile.array (ha : q.isArray = true) : (k'.eng eng).array.map (·.q) = some q := by
  obtain ⟨l, r, _, rfl, -, rfl, rfl⟩ := h
  rw [Core.eng_setEng, MatEng.setRun, if_pos ha]
  rfl

theorem Core.SetsTile.xfer (ha : q.isArray = false) : (k'.eng eng).xfer.map (·.q) = some q := by
  obtain ⟨l, r, _, rfl, -, rfl, rfl⟩ := h
  rw [Core.eng_setEng, MatEng.setRun, if_neg (by simp [ha])]
  rfl

end

theorem Core.firstFault_regs (k : Core) (reg v : Nat) : ∃ regs, k.firstFault reg v = { k with regs := regs } := by
  unfold Core.firstFault
  split_ifs
  · exact ⟨_, rfl⟩
  · exact ⟨_, rfl⟩

theorem Core.accessed_firstFault (k : Core) (reg v : Nat) : k.Accessed k.spad.mem (k.firstFault reg v) := by
  obtain ⟨regs, h⟩ := k.firstFault_regs reg v
  rw [h]
  exact ⟨_, _, _, _, rfl⟩

theorem Core.accessed_noteTblk (k : Core) (eng : Nat) (l : List Nat) : k.Accessed k.spad.mem (k.noteTblk eng l) := by
  unfold Core.noteTblk
  split
  · exact .refl k
  · exact (k.accessed_bump ..).then_read (Core.accessed_firstFault ..)

theorem Core.Accessed.ite {k l j : Core} {m : Mem} {c : Prop} {_ : Decidable c} (hl : k.Accessed m l) (hj : k.Accessed m j) :
    k.Accessed m (if c then l else j) := by split_ifs <;> assumption

theorem getD_map_range {α : Type} {n i : Nat} (f : Nat → α) (d : α) (h : i < n) : ((List.range n).map f).getD i d = f i := by
  simp [List.getD_eq_getElem?_getD, h]

/-- What an MM or MV fetches: the rows of its operands (R109, R110). -/
def Core.mmFetch (k : Core) (w : At) (eng : Nat) (q : QOp) : Fetch × Nat × Core :=
  Core.fetch w (Own.me eng) (rowsOf (operandRanges (baseOff q.a) (q.f 73 70) q.mmK q.mmM ++
    operandRanges (baseOff q.b) (q.f 69 66) q.mmK q.mmN)) k

/-- The operands of an MM or MV in what was fetched. -/
def QOp.opA (q : QOp) (f : Fetch) : Operand := { c := q.f 73 70, base := baseOff q.a, k := q.mmK, r := q.mmM, f := f }
def QOp.opB (q : QOp) (f : Fetch) : Operand := { c := q.f 69 66, base := baseOff q.b, k := q.mmK, r := q.mmN, f := f }

/-- MM and MV set the words of their output to the sums of R107 where their operands read good. -/
theorem Core.mmRun_setsTile (k : Core) (w : At) (base eng : Nat) (q : QOp) :
    ∃ val, k.SetsTile eng q q.mmM q.mmN val (k.mmRun w base eng q) ∧
      (isBad (k.mmFetch w eng q).2.1 = false → ∀ i j, i < q.mmM → j < q.mmN →
        val i j = (mmElement (q.opA (k.mmFetch w eng q).1) (q.opB (k.mmFetch w eng q).1) i j
          (if q.f 65 65 = 1 then (k.eng eng).word q.tile i j else 0)).1) := by
  have hf : k.Accessed k.spad.mem (k.mmFetch w eng q).2.2 := Core.accessed_fetch ..
  have heng : (k.mmFetch w eng q).2.2.eng eng = k.eng eng := hf.eng_eq eng
  refine ⟨_, ⟨_, _, (k.mmFetch w eng q).2.2.eng eng, heng, ?_, ?_, rfl⟩, fun hgood i j hi hj => ?_⟩
  · have hcount : ∀ n, k.Accessed k.spad.mem (if n = 0 then (k.mmFetch w eng q).2.2
        else (k.mmFetch w eng q).2.2.bump Reg.ME_INT_WRAP_CNT n) := fun _ => hf.ite (hf.then_read (Core.accessed_bump ..))
    exact ((hcount _).then_read (Core.accessed_noteTblk ..)).ite (hcount _)
  · rfl
  · rw [← heng]
    have hbad : isBad (Core.fetch w (Own.me eng) (rowsOf (operandRanges (baseOff q.a) (q.f 73 70) q.mmK q.mmM ++
      operandRanges (baseOff q.b) (q.f 69 66) q.mmK q.mmN)) k).2.1 = false := hgood
    simp only [hbad, Bool.false_eq_true, if_false, getD_map_range _ _ hi, getD_map_range _ _ hj]
    rfl

theorem Core.accZeroRun_setsTile (k : Core) (eng : Nat) (q : QOp) :
    k.SetsTile eng q 64 128 (fun _ _ => 0) (k.accZeroRun eng q) := ⟨_, _, _, rfl, .refl k, rfl, rfl⟩

/-- What an ACC_LOAD fetches: the rows of its source (R114). -/
def Core.loadFetch (k : Core) (w : At) (eng : Nat) (q : QOp) : Fetch × Nat × Core :=
  Core.fetch w (Own.me eng) (rowsOf (tileRanges (baseOff q.a) q.stride (q.tN * fmtBytes (q.f 73 70)) q.tM)) k

/-- The word that an ACC_LOAD makes of an element in what was fetched. -/
def QOp.loadWord (q : QOp) (f : Fetch) (i j : Nat) : Nat :=
  let raw := f.le (baseOff q.a + 32 * q.stride * i + fmtBytes (q.f 73 70) * j) (fmtBytes (q.f 73 70))
  if q.f 73 70 = 1 then fp32.round (bf16.decode raw) else raw

/-- ACC_LOAD sets the words of its rows and columns to its source's elements where they read good. -/
theorem Core.accLoadRun_setsTile (k : Core) (w : At) (base eng : Nat) (q : QOp) :
    ∃ val, k.SetsTile eng q q.tM q.tN val (k.accLoadRun w base eng q) ∧
      (isBad (k.loadFetch w eng q).2.1 = false → ∀ i j, val i j = q.loadWord (k.loadFetch w eng q).1 i j) := by
  have hf : k.Accessed k.spad.mem (k.loadFetch w eng q).2.2 := Core.accessed_fetch ..
  have heng : (k.loadFetch w eng q).2.2.eng eng = k.eng eng := hf.eng_eq eng
  refine ⟨_, ⟨_, _, (k.loadFetch w eng q).2.2.eng eng, heng, ?_, ?_, rfl⟩, fun hgood i j => ?_⟩
  · exact hf
  · rfl
  · unfold Core.loadFetch at hgood
    simp only [hgood, Bool.false_eq_true, if_false]
    rfl

/-! ### The start of an operation (R115, R118, R164) -/

/-- An operation that fails writes registers of its core and the task's fault alone. -/
theorem Core.opFail_failed (k : Core) (cnt cyc base : Nat) (q : QOp) {st : Nat} (h : St.ok st = false) :
    ∃ regs task, k.opFail cnt cyc base q st = { k with regs := regs, seq := { k.seq with task := task } } := by
  unfold Core.opFail Core.opEnd Core.unitFault Core.modTask
  dsimp only
  rw [if_neg (by simp [h])]
  split <;> exact ⟨_, _, rfl⟩

theorem Core.opNoSlot_failed (k : Core) (cnt cyc base : Nat) (q : QOp) :
    ∃ regs task, k.opNoSlot cnt cyc base q = { k with regs := regs, seq := { k.seq with task := task } } := by
  obtain ⟨regs, task, h⟩ := (k.bump Reg.SPAD_NOSLOT_CNT).opFail_failed cnt cyc base q (st := St.notPermitted) rfl
  rw [Core.opNoSlot, h]
  exact ⟨regs, task, rfl⟩

theorem Core.meFail_failed (k : Core) (base eng : Nat) (q : QOp) (cause : Nat) :
    ∃ regs task, k.meFail base eng q cause = { k with regs := regs, seq := { k.seq with task := task } } := by
  obtain ⟨first, hf⟩ := k.firstFault_regs (Reg.ME_FAULT + 4 * eng) (meFaultBits cause q.kind q.tile)
  rw [Core.meFail, hf]
  exact Core.opFail_failed _ _ _ base q (st := St.notPermitted) rfl

/-- The core as its engine's head operation leaves the queue. -/
def Core.meDrop (k : Core) (eng : Nat) (rest : List QOp) : Core := k.setEng eng { k.eng eng with queue := rest }

/-- The core as the head operation of an engine starts in it. -/
def Core.meTaken (k : Core) (base eng : Nat) (rest : List QOp) : Core :=
  (k.meDrop eng rest).setEng eng (MatEng.shared base { k.eng eng with queue := rest })

/-- What the start of an engine's head operation comes to: nothing, a failure that is recorded, or the run of an operation that
passes its checks. -/
theorem Core.meStart_cases (k : Core) (base eng : Nat) (kinds : Nat → Bool) (run : QOp → Core → Core) :
    k.meStart base eng kinds run = k ∨
      ∃ q rest, (k.eng eng).queue = q :: rest ∧ kinds q.kind = true ∧
        ((∃ regs task, k.meStart base eng kinds run =
            { k.meDrop eng rest with regs := regs, seq := { k.seq with task := task } }) ∨
          (q.meFault = none ∧ k.meStart base eng kinds run = run q (k.meTaken base eng rest))) := by
  unfold Core.meStart
  dsimp only
  split
  · exact .inl rfl
  next q rest hq =>
    split_ifs with hno hslot
    · exact .inl rfl
    · refine .inr ⟨q, rest, hq, (Decidable.not_not.1 (not_or.1 hno).1), .inl ?_⟩
      exact Core.opNoSlot_failed ..
    · refine .inr ⟨q, rest, hq, (Decidable.not_not.1 (not_or.1 hno).1), ?_⟩
      split
      next cause _ => exact .inl (Core.meFail_failed ..)
      next hfault => exact .inr ⟨hfault, rfl⟩

/-- The head operation of an engine that owns a slot, passes its checks and may start, runs. -/
theorem Core.meStart_runs {k : Core} {eng : Nat} {q : QOp} {rest : List QOp} {kinds : Nat → Bool} (base : Nat)
    (run : QOp → Core → Core) (hq : (k.eng eng).queue = q :: rest) (hk : kinds q.kind = true) (hfree : (k.eng eng).free q = true)
    (hslot : k.noSlot (Own.me eng) = false) (hfault : q.meFault = none) :
    k.meStart base eng kinds run = run q (k.meTaken base eng rest) := by
  have hslot' : (k.setEng eng { k.eng eng with queue := rest }).noSlot (Own.me eng) = false := hslot
  simp only [Core.meStart, hq, hk, hfree, hslot', hfault, not_true_eq_false, or_self, if_false, Bool.false_eq_true]
  rfl

section
variable (k : Core) (base eng : Nat) (rest : List QOp)

theorem Core.eng_meTaken : (k.meTaken base eng rest).eng eng = MatEng.shared base { k.eng eng with queue := rest } :=
  Core.eng_setEng ..

theorem Core.readsAs_meTaken : k.ReadsAs (k.meTaken base eng rest) := ⟨rfl, rfl, rfl⟩

end

/-! ### The place of each byte that an ACC_STORE writes (R113) -/

theorem length_flatMap_const {α β : Type} {f : α → List β} {n : Nat} (hf : ∀ x, (f x).length = n) (l : List α) :
    (l.flatMap f).length = n * l.length := by
  induction l with
  | nil => rfl
  | cons x l ih => rw [List.flatMap_cons, List.length_append, hf, ih, List.length_cons, Nat.mul_succ, Nat.add_comm]

theorem getElem?_flatMap_const {α β : Type} {f : α → List β} {n : Nat} (hf : ∀ x, (f x).length = n) {i : Nat} (hi : i < n) :
    ∀ (l : List α) (j : Nat), (l.flatMap f)[n * j + i]? = l[j]?.bind fun x => (f x)[i]?
  | [], _ => by simp
  | x :: l, 0 => by
    rw [List.flatMap_cons, Nat.mul_zero, Nat.zero_add, List.getElem?_append_left (by rw [hf]; exact hi)]
    rfl
  | x :: l, j + 1 => by
    rw [List.flatMap_cons, List.getElem?_append_right (by rw [hf, Nat.mul_succ]; omega), hf,
      show n * (j + 1) + i - n = n * j + i by rw [Nat.mul_succ]; omega, getElem?_flatMap_const hf hi l j]
    rfl

theorem MatEng.length_storeRow (e : MatEng) (q : QOp) (i c0 n off : Nat) :
    (e.storeRow q i c0 n off).1.length = fmtBytes q.fo * n := by
  unfold MatEng.storeRow
  dsimp only
  rw [length_flatMap_const fun _ => length_leBytes .., List.length_map, List.length_range]

/-- The bytes of a row are those of its elements in order. -/
theorem MatEng.getElem?_storeRow (e : MatEng) (q : QOp) (i c0 off : Nat) {n j b : Nat} (hj : j < n) (hb : b < fmtBytes q.fo) :
    (e.storeRow q i c0 n off).1[fmtBytes q.fo * j + b]? =
      (leBytes (fmtBytes q.fo) (q.storeElem (e.word q.tile i (c0 + j)) (off + fmtBytes q.fo * j)).1)[b]? := by
  unfold MatEng.storeRow
  dsimp only
  rw [getElem?_flatMap_const (fun _ => length_leBytes ..) hb]
  simp [hj]

theorem MatEng.length_mxChunk (e : MatEng) (q : QOp) (i j : Nat) : (e.mxChunk q i j).1.length = chunkBytes q.fo :=
  length_leBytes ..

/-- A chunk of an element format holds 32 elements. -/
theorem chunkBytes_of_not_mx {c : Nat} (hc : c ≤ 0xC) (h : isMx c = false) : fmtBytes c * 32 = chunkBytes c := by
  have hlt : c < 7 := by simp [isMx] at h; omega
  interval_cases c <;> rfl

/-! The ranges that a store writes: its chunks and, for an MX format, their scales, or its rows. -/

theorem QOp.chunk_mem_storeRanges {q : QOp} (hc : q.chunked = true) {i j : Nat} (hi : i < q.tM) (hj : j < q.tN / 32) :
    (baseOff q.c + 32 * q.stride * j + i * chunkBytes q.fo, chunkBytes q.fo) ∈ q.storeRanges := by
  unfold QOp.storeRanges
  rw [if_pos hc]
  exact List.mem_append_left _ (List.mem_flatMap.2 ⟨j, List.mem_range.2 hj, List.mem_map.2 ⟨i, List.mem_range.2 hi, rfl⟩⟩)

theorem QOp.scales_mem_storeRanges {q : QOp} (hc : q.chunked = true) (hmx : isMx q.fo = true) :
    (baseOff q.b, q.tN / 32 * q.tM) ∈ q.storeRanges := by
  unfold QOp.storeRanges
  rw [if_pos hc, if_pos hmx]
  exact List.mem_append_right _ (List.mem_singleton.2 rfl)

theorem QOp.row_mem_storeRanges {q : QOp} (hc : q.chunked = false) {i : Nat} (hi : i < q.tM) :
    (baseOff q.c + 32 * q.stride * i, q.tN * fmtBytes q.fo) ∈ q.storeRanges := by
  unfold QOp.storeRanges
  rw [if_neg (ne_true_of_eq_false hc)]
  exact List.mem_map.2 ⟨i, List.mem_range.2 hi, rfl⟩

/-- The scale of chunk (i, j) lies among the scales. -/
theorem QOp.scale_lt {q : QOp} {i j : Nat} (hi : i < q.tM) (hj : j < q.tN / 32) : j * q.tM + i < q.tN / 32 * q.tM := by
  have := Nat.mul_le_mul_right q.tM (Nat.succ_le_of_lt hj)
  rw [Nat.succ_mul] at this
  omega

/-- Every piece of a store lies in one of the ranges of R113. -/
theorem MatEng.storePieces_inside (e : MatEng) (q : QOp) (hfo : q.fo ≤ 0xC) :
    ∀ p ∈ (e.storePieces q).1, ∃ x ∈ q.storeRanges, x.1 ≤ p.1 ∧ p.1 + p.2.length ≤ x.1 + x.2 := by
  intro p hp
  unfold MatEng.storePieces at hp
  dsimp only at hp
  split_ifs at hp with hch hmx
  · simp only [List.mem_flatMap, List.mem_map, List.mem_range] at hp
    obtain ⟨_, ⟨j, hj, i, hi, rfl⟩, hp⟩ := hp
    simp only [List.mem_cons, List.not_mem_nil, or_false] at hp
    rcases hp with rfl | rfl
    · exact ⟨_, QOp.chunk_mem_storeRanges hch hi hj, le_rfl, by rw [MatEng.length_mxChunk]⟩
    · have hscale := QOp.scale_lt hi hj
      refine ⟨_, QOp.scales_mem_storeRanges hch hmx, ?_, ?_⟩
      · dsimp only; omega
      · dsimp only; rw [length_leBytes]; omega
  · simp only [List.mem_flatMap, List.mem_map, List.mem_range] at hp
    obtain ⟨_, ⟨j, hj, i, hi, rfl⟩, hp⟩ := hp
    simp only [List.mem_singleton] at hp
    subst hp
    refine ⟨_, QOp.chunk_mem_storeRanges hch hi hj, le_rfl, ?_⟩
    rw [MatEng.length_storeRow, chunkBytes_of_not_mx hfo (eq_false_of_ne_true hmx)]
  · simp only [List.mem_map, List.mem_range] at hp
    obtain ⟨_, ⟨i, hi, rfl⟩, rfl⟩ := hp
    refine ⟨_, QOp.row_mem_storeRanges (eq_false_of_ne_true hch) hi, le_rfl, ?_⟩
    rw [MatEng.length_storeRow]
    dsimp only
    rw [Nat.mul_comm q.tN]

/-- The pieces of a row-major store: its rows (R113). -/
theorem MatEng.storePieces_rowMajor (e : MatEng) {q : QOp} (h : q.chunked = false) :
    (e.storePieces q).1 = (List.range q.tM).map fun i =>
      (baseOff q.c + 32 * q.stride * i, (e.storeRow q i 0 q.tN (baseOff q.c + 32 * q.stride * i)).1) := by
  unfold MatEng.storePieces
  dsimp only
  rw [if_neg (by simp [h]), List.map_map]
  rfl

theorem firstCause_eq_none_iff (l : List (Nat × Bool)) : firstCause l = none ↔ ∀ x ∈ l, x.2 = false := by simp [firstCause]

/-- An ACC_STORE that passes its checks has a format of R88, and row-major keeps each row within its stride. -/
theorem QOp.store_checked {q : QOp} (hk : q.kind = 4) (h : q.meFault = none) :
    q.fo ≤ 0xC ∧ (q.chunked = false → q.tN * fmtBytes q.fo ≤ 32 * q.stride) := by
  have hs : q.storeFault = none := by simpa [QOp.meFault, hk] using h
  simp only [QOp.storeFault, firstCause_eq_none_iff, List.forall_mem_cons] at hs
  obtain ⟨-, hfo, -, -, hstride, -⟩ := hs
  refine ⟨by simpa using hfo, fun hc => ?_⟩
  simp only [hc, Bool.not_false, Bool.true_and, Bool.or_eq_false_iff, decide_eq_false_iff_not] at hstride
  omega

/-! ### What ACC_STORE leaves (R113, R114) -/

theorem Core.accessed_addCounts (k : Core) (satReg nanReg : Nat) (l : List Count) :
    k.Accessed k.spad.mem (k.addCounts satReg nanReg l) := by
  unfold Core.addCounts
  dsimp only
  split_ifs
  · exact .refl k
  · exact k.accessed_bump ..
  · exact k.accessed_bump ..
  · exact (k.accessed_bump ..).then_read (Core.accessed_bump ..)

/-- The core once a store's conversions are counted. -/
def Core.storeCounted (k : Core) (eng : Nat) (q : QOp) : Core :=
  k.addCounts Reg.ME_SAT_CNT Reg.ME_NAN_CNT ((k.eng eng).storePieces q).2

/-- The core once a store's pieces are written, with the status. -/
def Core.storeDone (k : Core) (w : At) (eng : Nat) (q : QOp) : Nat × Core :=
  (k.storeCounted eng q).storePieces w (Own.me eng) q.storeAcc (((k.eng eng).storePieces q).1.map fun p => (p.1, enabled p.2))

theorem Core.accessed_storeCounted (k : Core) (eng : Nat) (q : QOp) : k.Accessed k.spad.mem (k.storeCounted eng q) :=
  k.accessed_addCounts ..

theorem Core.accessed_storeDone (k : Core) (w : At) (eng : Nat) (q : QOp) :
    k.Accessed (k.storeDone w eng q).2.spad.mem (k.storeDone w eng q).2 :=
  (k.accessed_storeCounted eng q).trans (Core.accessed_storePieces ..)

/-- An ACC_STORE is its store, and the operation that then runs. -/
theorem Core.accStoreRun_eq (k : Core) (w : At) (base eng : Nat) (q : QOp) :
    ∃ r : RunOp, r.q = q ∧ k.accStoreRun w base eng q = (k.storeDone w eng q).2.setEng eng ((k.eng eng).setRun r) := by
  rw [← (k.accessed_storeDone w eng q).eng_eq eng]
  exact ⟨_, by rfl, rfl⟩

theorem getD_enabled (bs : List Byte) (i : Nat) : (enabled bs).getD i none = bs[i]?.map fun b => (b, false) := by
  rw [enabled, List.getD_eq_getElem?_getD, List.getElem?_map]
  cases bs[i]? <;> rfl

/-- A store keeps the bytes outside the codewords that its ranges touch. -/
theorem Core.byte_storeDone_kept (k : Core) (w : At) (eng : Nat) {q : QOp} (hfo : q.fo ≤ 0xC) {a : Nat}
    (ha : Frame.outside q.storeRanges a) : (k.storeDone w eng q).2.spad.mem.byte a = k.spad.mem.byte a := by
  refine (Core.byte_storePieces_kept _ w _ _ _ fun p hp c hc => ?_).trans
    (congrArg (·.byte a) (k.accessed_storeCounted eng q).mem_eq)
  obtain ⟨y, hy, rfl⟩ := List.mem_map.1 hp
  obtain ⟨x, hx, hlo, hhi⟩ := (k.eng eng).storePieces_inside q hfo y hy
  unfold pieceByte
  dsimp only
  split_ifs with hle
  · rw [getD_enabled, List.getElem?_eq_none, Option.map_none]
    by_contra hlt
    rcases ha x hx with h | h | h <;> omega
  · rfl

/-- A row of a row-major store, as a piece (R113). -/
def MatEng.rowPiece (e : MatEng) (q : QOp) (i : Nat) : Nat × List MByte :=
  (baseOff q.c + 32 * q.stride * i, enabled (e.storeRow q i 0 q.tN (baseOff q.c + 32 * q.stride * i)).1)

/-- A row gives the place of each of its elements the element's bytes. -/
theorem MatEng.pieceByte_rowPiece_own (e : MatEng) {q : QOp} {i j b : Nat} (hj : j < q.tN) (hb : b < fmtBytes q.fo) :
    pieceByte (e.rowPiece q i) (baseOff q.c + 32 * q.stride * i + fmtBytes q.fo * j + b) =
      some ((leBytes (fmtBytes q.fo) (q.storeElem (e.word q.tile i j)
        (baseOff q.c + 32 * q.stride * i + fmtBytes q.fo * j)).1).getD b 0, false) := by
  unfold MatEng.rowPiece pieceByte
  dsimp only
  rw [if_pos (by omega), getD_enabled, show baseOff q.c + 32 * q.stride * i + fmtBytes q.fo * j + b -
    (baseOff q.c + 32 * q.stride * i) = fmtBytes q.fo * j + b by omega, MatEng.getElem?_storeRow _ _ _ _ _ hj hb,
    Nat.zero_add, List.getD_eq_getElem?_getD, List.getElem?_eq_getElem (by rw [length_leBytes]; exact hb)]
  rfl

/-- Rows within their stride do not meet: a row gives no byte to the places of another. -/
theorem MatEng.pieceByte_rowPiece_other (e : MatEng) {q : QOp} (hstride : q.tN * fmtBytes q.fo ≤ 32 * q.stride) {i i' j b : Nat}
    (hi : i' ≠ i) (hj : j < q.tN) (hb : b < fmtBytes q.fo) :
    pieceByte (e.rowPiece q i') (baseOff q.c + 32 * q.stride * i + fmtBytes q.fo * j + b) = none := by
  rw [Nat.mul_comm q.tN] at hstride
  have hcol := Nat.mul_le_mul_left (fmtBytes q.fo) (Nat.succ_le_of_lt hj)
  rw [Nat.mul_succ] at hcol
  unfold MatEng.rowPiece pieceByte
  dsimp only
  rcases Nat.lt_or_gt_of_ne hi with hlt | hgt
  · have hrow := Nat.mul_le_mul_left (32 * q.stride) (Nat.succ_le_of_lt hlt)
    rw [Nat.mul_succ] at hrow
    rw [if_pos (by omega), getD_enabled, List.getElem?_eq_none (by rw [MatEng.length_storeRow]; omega), Option.map_none]
  · have hrow := Nat.mul_le_mul_left (32 * q.stride) (Nat.succ_le_of_lt hgt)
    rw [Nat.mul_succ] at hrow
    rw [if_neg (by omega)]

/-- A row-major store without accumulation, in reach, leaves each byte of its rows at its place. -/
theorem Core.byte_storeDone_written (k : Core) (w : At) (eng : Nat) {q : QOp} (hc : q.chunked = false) (haow : q.aow = 0)
    (hstride : q.tN * fmtBytes q.fo ≤ 32 * q.stride) {i j b : Nat} (hi : i < q.tM) (hj : j < q.tN) (hb : b < fmtBytes q.fo)
    (hr : k.reach (256 * ((baseOff q.c + 32 * q.stride * i + fmtBytes q.fo * j + b) / 256)) = true) :
    (k.storeDone w eng q).2.spad.mem.byte (baseOff q.c + 32 * q.stride * i + fmtBytes q.fo * j + b) =
      (leBytes (fmtBytes q.fo) (q.storeElem ((k.eng eng).word q.tile i j)
        (baseOff q.c + 32 * q.stride * i + fmtBytes q.fo * j)).1).getD b 0 := by
  have hacc : q.storeAcc = 0 := by simp [QOp.storeAcc, haow]
  have hpieces : ((k.eng eng).storePieces q).1.map (fun p => (p.1, enabled p.2)) =
      (List.range q.tM).map ((k.eng eng).rowPiece q) := by
    rw [MatEng.storePieces_rowMajor _ hc, List.map_map]
    rfl
  have hown := (k.eng eng).pieceByte_rowPiece_own (i := i) hj hb
  rw [Core.storeDone, hacc, hpieces]
  refine Core.byte_storePieces_written _ w _ ?_ (List.mem_map.2 ⟨i, List.mem_range.2 hi, rfl⟩) hown fun x hx => ?_
  · rw [(k.accessed_storeCounted eng q).reach_eq, hr]
  · obtain ⟨i', -, rfl⟩ := List.mem_map.1 hx
    by_cases hii : i' = i
    · exact .inr (hii ▸ hown)
    · exact .inl ((k.eng eng).pieceByte_rowPiece_other hstride hii hj hb)

/-! ### The operations complete -/

theorem eng_clocked {s : State} {n : Nat} (hl : s.panel.live = true) (hc : (s.panel.core n).clocked = true)
    (f : Nat → At → Core → Core) :
    s.eng n f = .next { s with panel :=
      ({ s.panel with free := s.panel.free + 65536 } : Panel).setCore n (f s.panel.free (s.panel.at' n) (s.panel.core n)) } :=
  atCore_clocked hl hc _

section
variable {s : State} {n : Site} {e : Fin 4} {q : QOp} {rest : List QOp} (hl : s.panel.live = true)
  (hc : (s.panel.core n).clocked = true) (hq : ((s.panel.core n).eng e).queue = q :: rest)
  (hfree : ((s.panel.core n).eng e).free q = true) (hslot : (s.panel.core n).noSlot (Own.me e) = false)
  (hfault : q.meFault = none)
include hl hc hq hfree hslot hfault

/-- The command of an engine runs its head operation, where that may start, passes its checks and is of the command's kind. -/
theorem exec_meStart {i : Instr} {kinds : Nat → Bool} {run : Nat → At → QOp → Core → Core}
    (hi : exec i s = s.eng n fun b w k => k.meStart b e kinds (run b w)) (hk : kinds q.kind = true) :
    ∃ t, exec i s = .next t ∧
      t.panel.core n = run s.panel.free (s.panel.at' n) q ((s.panel.core n).meTaken s.panel.free e rest) :=
  ⟨_, hi.trans (eng_clocked hl hc _), by
    rw [Panel.core_setCore, Core.meStart_runs s.panel.free (run s.panel.free (s.panel.at' n)) hq hk hfree hslot hfault]⟩

theorem accZero_completes (hk : q.kind = 2) :
    ∃ t, exec (.accZero n e) s = .next t ∧ (((t.panel.core n).eng e).xfer.map (·.q)) = some q ∧
      ∀ i j, i < 64 → j < 128 → ((t.panel.core n).eng e).word q.tile i j = 0 := by
  obtain ⟨t, hexec, ht⟩ := exec_meStart hl hc hq hfree hslot hfault (i := .accZero n e)
    (run := fun _ _ q k => k.accZeroRun e q) rfl (by simp [hk])
  have hset := ((s.panel.core n).meTaken s.panel.free e rest).accZeroRun_setsTile e q
  refine ⟨t, hexec, ?_, fun i j hi hj => ?_⟩
  · rw [ht, hset.xfer (by simp [QOp.isArray, hk])]
  · rw [ht, hset.word le_rfl le_rfl hi hj, Nat.zero_mod]

theorem accLoad_completes (hk : q.kind = 3) :
    ∃ t, exec (.accLoad n e) s = .next t ∧ (((t.panel.core n).eng e).xfer.map (·.q)) = some q ∧
      (isBad ((s.panel.core n).loadFetch (s.panel.at' n) e q).2.1 = false → ∀ i j, i < q.tM → j < q.tN →
        ((t.panel.core n).eng e).word q.tile i j =
          q.loadWord ((s.panel.core n).loadFetch (s.panel.at' n) e q).1 i j % 2 ^ 32) := by
  obtain ⟨t, hexec, ht⟩ := exec_meStart hl hc hq hfree hslot hfault (i := .accLoad n e)
    (run := fun b w q k => k.accLoadRun w b e q) rfl (by simp [hk])
  obtain ⟨val, hset, hval⟩ := ((s.panel.core n).meTaken s.panel.free e rest).accLoadRun_setsTile (s.panel.at' n) s.panel.free e q
  obtain ⟨hbytes, hstatus⟩ := ((s.panel.core n).readsAs_meTaken s.panel.free e rest).fetch_eq (s.panel.at' n) (Own.me e)
    (rowsOf (tileRanges (baseOff q.a) q.stride (q.tN * fmtBytes (q.f 73 70)) q.tM))
  unfold Core.loadFetch at hval ⊢
  rw [hbytes, hstatus] at hval
  refine ⟨t, hexec, ?_, fun hgood i j hi hj => ?_⟩
  · rw [ht, hset.xfer (by simp [QOp.isArray, hk])]
  · rw [ht, hset.word q.tM_le q.tN_le hi hj, hval hgood]

end

/-- MM and MV fetch from the scratchpad as it stood, and sum onto the words as they stood. -/
theorem mm_completes {s : State} {n : Site} {e : Fin 4} {q : QOp} {rest : List QOp} {t : State} (hk : q.kind ≤ 1)
    (ht : t.panel.core n =
      ((s.panel.core n).meTaken s.panel.free e rest).mmRun (s.panel.at' n) s.panel.free e q) :
    ((t.panel.core n).eng e).queue = rest ∧ (((t.panel.core n).eng e).array.map (·.q)) = some q ∧
      (isBad ((s.panel.core n).mmFetch (s.panel.at' n) e q).2.1 = false → ∀ i j, i < q.mmM → j < q.mmN →
        ((t.panel.core n).eng e).word q.tile i j =
          (mmElement (q.opA ((s.panel.core n).mmFetch (s.panel.at' n) e q).1)
            (q.opB ((s.panel.core n).mmFetch (s.panel.at' n) e q).1) i j
            (if q.f 65 65 = 1 then ((s.panel.core n).eng e).word q.tile i j else 0)).1 % 2 ^ 32) := by
  obtain ⟨val, hset, hval⟩ := ((s.panel.core n).meTaken s.panel.free e rest).mmRun_setsTile (s.panel.at' n) s.panel.free e q
  obtain ⟨hbytes, hstatus⟩ := ((s.panel.core n).readsAs_meTaken s.panel.free e rest).fetch_eq (s.panel.at' n) (Own.me e)
    (rowsOf (operandRanges (baseOff q.a) (q.f 73 70) q.mmK q.mmM ++ operandRanges (baseOff q.b) (q.f 69 66) q.mmK q.mmN))
  unfold Core.mmFetch at hval ⊢
  rw [hbytes, hstatus, Core.eng_meTaken] at hval
  rw [ht]
  refine ⟨by rw [hset.queue, Core.eng_meTaken]; rfl, hset.array (by simp [QOp.isArray, hk]), fun hgood i j hi hj => ?_⟩
  rw [hset.word q.mmM_le q.mmN_le hi hj, hval hgood i j hi hj, MatEng.word_shared]
  rfl

theorem matrixMultiplyCompletes : Completion.MatrixMultiplyCompletes := by
  intro s n e q rest kind c hmem hl hc hq hk hfree hslot hfault
  simp only [List.mem_cons, Prod.mk.injEq, List.not_mem_nil, or_false] at hmem
  rcases hmem with ⟨rfl, rfl⟩ | ⟨rfl, rfl⟩
  · obtain ⟨t, hexec, ht⟩ := exec_meStart hl hc hq hfree hslot hfault (i := .mm n e) (run := fun b w q k => k.mmRun w b e q) rfl
      (by simp [hk])
    exact ⟨t, hexec, mm_completes (by omega) ht⟩
  · obtain ⟨t, hexec, ht⟩ := exec_meStart hl hc hq hfree hslot hfault (i := .mv n e) (run := fun b w q k => k.mmRun w b e q) rfl
      (by simp [hk])
    exact ⟨t, hexec, mm_completes hk.le ht⟩

theorem tileLoadsComplete : Completion.TileLoadsComplete := fun _ _ _ _ _ hl hc hq hfree hslot hfault =>
  ⟨accZero_completes hl hc hq hfree hslot hfault, accLoad_completes hl hc hq hfree hslot hfault⟩

theorem Core.reach_of_lt {k : Core} (hr : k.spad.reshape = none) {a : Nat} (ha : a < k.capacity) :
    k.reach (256 * (a / 256)) = true := by
  have : 256 * (a / 256) < k.capacity := by omega
  simp [Core.reach, hr, this]

theorem tileStoreCompletes : Completion.TileStoreCompletes := by
  intro s n e q rest hl hc hq hk hfree hslot hfault hr hcap
  obtain ⟨t, hexec, ht⟩ := exec_meStart hl hc hq hfree hslot hfault (i := .accStore n e)
    (run := fun b w q k => k.accStoreRun w b e q) rfl (by simp [hk])
  set k := (s.panel.core n).meTaken s.panel.free e rest with hkdef
  obtain ⟨r, hrq, hrun⟩ := k.accStoreRun_eq (s.panel.at' n) s.panel.free e q
  have hmem : (t.panel.core n).spad.mem = (k.storeDone (s.panel.at' n) e q).2.spad.mem := by rw [ht, hrun]; rfl
  refine ⟨t, hexec, ?_, fun hch haow i j b hi hj hb => ?_, fun a ha => ?_⟩
  · rw [ht, hrun, Core.eng_setEng, MatEng.setRun, hrq, if_neg (by simp [QOp.isArray, hk])]
    exact congrArg some hrq
  · have hplace := hcap _ (QOp.row_mem_storeRanges hch hi)
    have hcol := Nat.mul_le_mul_left (fmtBytes q.fo) (Nat.succ_le_of_lt hj)
    rw [Nat.mul_succ, Nat.mul_comm _ q.tN] at hcol
    dsimp only at hplace ⊢
    rw [hmem, Core.byte_storeDone_written k _ e hch haow ((QOp.store_checked hk hfault).2 hch) hi hj hb
      (Core.reach_of_lt (k := k) hr (by change _ < (s.panel.core n).capacity; omega)), hkdef,
      Core.eng_meTaken, MatEng.word_shared]
    rfl
  · have hout : Frame.outside q.storeRanges a := fun x hx => or_iff_not_imp_left.2 (ha x hx)
    rw [hmem, Core.byte_storeDone_kept k _ e (QOp.store_checked hk hfault).1 hout]
    rfl

/-- Settles O11: an operation that sets words of its tile sets them to the sums, zeros or elements of its rule, and a store leaves
each piece at its place. -/
theorem matrixOperations : Obligations.MatrixOperations := ⟨matrixMultiplyCompletes, tileLoadsComplete, tileStoreCompletes⟩

/-! ### What an operation leaves of its core (R105, R113, R118) -/

/-- An operation of an engine has written of its core registers, records, engines, the task's fault and the scratchpad's memory
with its write-backs and buffers alone. -/
def Core.EngineStep (k l : Core) : Prop :=
  ∃ regs log me task mem wbq acc, l = { k with
    regs := regs, log := log, me := me, seq := { k.seq with task := task },
    spad := { k.spad with mem := mem, wbq := wbq, acc := acc } }

theorem Core.EngineStep.trans {k l j : Core} (h : k.EngineStep l) (h' : l.EngineStep j) : k.EngineStep j := by
  obtain ⟨_, _, _, _, _, _, _, rfl⟩ := h
  obtain ⟨_, _, _, _, _, _, _, rfl⟩ := h'
  exact ⟨_, _, _, _, _, _, _, rfl⟩

theorem Core.Accessed.engineStep {k l : Core} {m : Mem} (h : k.Accessed m l) : k.EngineStep l := by
  obtain ⟨_, _, _, _, rfl⟩ := h
  exact ⟨_, _, _, _, _, _, _, rfl⟩

theorem Core.engineStep_setEng (k : Core) (eng : Nat) (e : MatEng) : k.EngineStep (k.setEng eng e) :=
  ⟨_, _, _, _, _, _, _, rfl⟩

/-- What an operation of an engine keeps: the words of other tiles, and of the memory all, or for a store (`store` set) the bytes
outside the codewords that its ranges touch. -/
structure Core.MatrixKeeps (store : Bool) (eng : Nat) (q : QOp) (k l : Core) : Prop where
  step : k.EngineStep l
  words : ∀ e tile i j, i < 64 → j < 128 → (e = eng → tile ≠ q.tile) → (l.eng e).word tile i j = (k.eng e).word tile i j
  mem : store = false → l.spad.mem = k.spad.mem
  bytes : ∀ a, Frame.outside q.storeRanges a → l.spad.mem.byte a = k.spad.mem.byte a

section
variable {store : Bool} {eng : Nat} {q : QOp} {k l j : Core}

theorem Core.MatrixKeeps.trans (h : k.MatrixKeeps store eng q l) (h' : l.MatrixKeeps store eng q j) :
    k.MatrixKeeps store eng q j where
  step := h.step.trans h'.step
  words e tile r c hr hc ht := (h'.words e tile r c hr hc ht).trans (h.words e tile r c hr hc ht)
  mem hs := (h'.mem hs).trans (h.mem hs)
  bytes a ha := (h'.bytes a ha).trans (h.bytes a ha)

/-- An engine set to one with the same tiles. -/
theorem Core.matrixKeeps_setEng (k : Core) {e : MatEng} (he : e.tiles = (k.eng eng).tiles) :
    k.MatrixKeeps store eng q (k.setEng eng e) where
  step := k.engineStep_setEng eng e
  words i tile r c _ _ _ := by
    by_cases hi : i = eng
    · subst hi
      rw [Core.eng_setEng, MatEng.word, he, MatEng.word]
    · rw [Core.eng_setEng_other _ _ hi]
  mem _ := rfl
  bytes _ _ := rfl

theorem Core.SetsTile.matrixKeeps {m n : Nat} {val : Nat → Nat → Nat} (h : k.SetsTile eng q m n val l) (hm : m ≤ 64)
    (hn : n ≤ 128) : k.MatrixKeeps store eng q l := by
  obtain ⟨l, r, _, rfl, hacc, -, rfl⟩ := h
  have hmem : (l.setEng eng (((k.eng eng).setWords q.tile m n val).setRun r)).spad.mem = k.spad.mem := hacc.mem_eq
  refine ⟨hacc.engineStep.trans (l.engineStep_setEng ..), fun e tile i j hi hj ht => ?_, fun _ => hmem, fun a _ => by rw [hmem]⟩
  by_cases he : e = eng
  · subst he
    rw [Core.eng_setEng, MatEng.word_setRun, MatEng.word_setWords _ _ hm hn hi hj, if_neg fun hin => ht rfl hin.1]
  · rw [Core.eng_setEng_other _ _ he, hacc.eng_eq]

theorem Core.mmRun_keeps (k : Core) (w : At) (base : Nat) : k.MatrixKeeps store eng q (k.mmRun w base eng q) := by
  obtain ⟨val, hset, -⟩ := k.mmRun_setsTile w base eng q
  exact hset.matrixKeeps q.mmM_le q.mmN_le

theorem Core.accZeroRun_keeps (k : Core) : k.MatrixKeeps store eng q (k.accZeroRun eng q) :=
  (k.accZeroRun_setsTile eng q).matrixKeeps le_rfl le_rfl

theorem Core.accLoadRun_keeps (k : Core) (w : At) (base : Nat) : k.MatrixKeeps store eng q (k.accLoadRun w base eng q) := by
  obtain ⟨val, hset, -⟩ := k.accLoadRun_setsTile w base eng q
  exact hset.matrixKeeps q.tM_le q.tN_le

theorem Core.accStoreRun_keeps (k : Core) (w : At) (base : Nat) (hfo : q.fo ≤ 0xC) :
    k.MatrixKeeps true eng q (k.accStoreRun w base eng q) := by
  obtain ⟨r, -, hrun⟩ := k.accStoreRun_eq w base eng q
  have hacc := k.accessed_storeDone w eng q
  rw [hrun]
  refine ⟨hacc.engineStep.trans (Core.engineStep_setEng ..), fun e tile i j _ _ _ => ?_, nofun,
    fun a ha => k.byte_storeDone_kept w eng hfo ha⟩
  by_cases he : e = eng
  · subst he
    rw [Core.eng_setEng, MatEng.word_setRun]
  · rw [Core.eng_setEng_other _ _ he, hacc.eng_eq]

theorem Core.meTaken_keeps (k : Core) (base : Nat) (rest : List QOp) : k.MatrixKeeps store eng q (k.meTaken base eng rest) :=
  (k.matrixKeeps_setEng (e := { k.eng eng with queue := rest }) rfl).trans
    (Core.matrixKeeps_setEng _ (by rw [Core.eng_setEng]; rfl))

/-- The start of a head operation keeps what its run keeps. -/
theorem Core.meStart_keeps (k : Core) (base : Nat) {kinds : Nat → Bool} {run : QOp → Core → Core}
    (hrun : ∀ (q : QOp) (k : Core), kinds q.kind = true → q.meFault = none → k.MatrixKeeps store eng q (run q k)) :
    k.meStart base eng kinds run = k ∨
      ∃ q, (k.eng eng).queue.head? = some q ∧ k.MatrixKeeps store eng q (k.meStart base eng kinds run) := by
  obtain h | ⟨q, rest, hq, hk, ⟨regs, task, h⟩ | ⟨hfault, h⟩⟩ := k.meStart_cases base eng kinds run
  · exact .inl h
  · refine .inr ⟨q, by rw [hq]; rfl, ?_⟩
    obtain ⟨-, hwords, -, -⟩ := k.matrixKeeps_setEng (store := store) (q := q) (e := { k.eng eng with queue := rest }) rfl
    rw [h]
    exact ⟨⟨_, _, _, _, _, _, _, rfl⟩, hwords, fun _ => rfl, fun _ _ => rfl⟩
  · refine .inr ⟨q, by rw [hq]; rfl, ?_⟩
    rw [h]
    exact (k.meTaken_keeps base rest).trans (hrun q _ hk hfault)

end

/-- A command of an engine leaves its core as it was, or as its work on it leaves it. -/
theorem eng_core {s t : State} {n : Nat} {f : Nat → At → Core → Core} (h : s.eng n f = .next t) :
    t.panel.core n = s.panel.core n ∨ t.panel.core n = f s.panel.free (s.panel.at' n) (s.panel.core n) := by
  cases h
  dsimp only
  split_ifs
  · right
    exact Panel.core_setCore ..
  · exact .inl rfl
  · exact .inl rfl

/-- A command that is the start of a head operation keeps of its core what each run keeps, or all. -/
theorem exec_meStart_keeps {s t : State} {n : Site} {e : Fin 4} {c : Instr} {store : Bool} {kinds : Nat → Bool}
    {run : Nat → At → QOp → Core → Core} (hexec : exec c s = s.eng n fun b w k => k.meStart b e kinds (run b w))
    (hrun : ∀ b w (q : QOp) (k : Core), kinds q.kind = true → q.meFault = none → k.MatrixKeeps store e q (run b w q k))
    (h : exec c s = .next t) :
    t.panel.core n = s.panel.core n ∨ ∃ q, ((s.panel.core n).eng e).queue.head? = some q ∧
      (s.panel.core n).MatrixKeeps store e q (t.panel.core n) := by
  obtain hsame | hcore := eng_core (hexec.symm.trans h)
  · exact .inl hsame
  · rw [hcore]
    exact Core.meStart_keeps _ _ (hrun _ _)

/-- A command of a matrix engine keeps of its core what its head operation keeps, or all. -/
theorem exec_matrix_keeps {s t : State} {n : Site} {e : Fin 4} {c : Instr}
    (hc : c ∈ [Instr.mm n e, .mv n e, .accZero n e, .accLoad n e, .accStore n e]) (h : exec c s = .next t) :
    t.panel.core n = s.panel.core n ∨ ∃ q, ((s.panel.core n).eng e).queue.head? = some q ∧
      (s.panel.core n).MatrixKeeps (decide (c = .accStore n e)) e q (t.panel.core n) := by
  simp only [List.mem_cons, List.not_mem_nil, or_false] at hc
  rcases hc with rfl | rfl | rfl | rfl | rfl
  · exact exec_meStart_keeps (run := fun b w q k => k.mmRun w b e q) rfl (fun b w q k _ _ => k.mmRun_keeps w b) h
  · exact exec_meStart_keeps (run := fun b w q k => k.mmRun w b e q) rfl (fun b w q k _ _ => k.mmRun_keeps w b) h
  · exact exec_meStart_keeps (run := fun _ _ q k => k.accZeroRun e q) rfl (fun _ _ q k _ _ => k.accZeroRun_keeps) h
  · exact exec_meStart_keeps (run := fun b w q k => k.accLoadRun w b e q) rfl (fun b w q k _ _ => k.accLoadRun_keeps w b) h
  · rw [decide_eq_true rfl]
    refine exec_meStart_keeps (run := fun b w q k => k.accStoreRun w b e q) rfl (fun b w q k hk hfault => ?_) h
    exact k.accStoreRun_keeps w b (QOp.store_checked (beq_iff_eq.1 hk) hfault).1

/-- Settles O45: each command is the start of a head operation, and each operation keeps the words outside its tile and the bytes
outside its store's ranges. -/
theorem matrixEngineFrame : Obligations.MatrixEngineFrame := by
  intro s t n e c hc h
  obtain hsame | ⟨q, hq, ⟨hstep, hwords, hmem, hbytes⟩⟩ := exec_matrix_keeps hc h
  · rw [hsame]
    exact ⟨fun _ _ _ _ _ _ _ _ => rfl, fun _ => rfl, fun _ _ => rfl, rfl, rfl, rfl, rfl, rfl, rfl, rfl, rfl, rfl, rfl, rfl⟩
  · refine ⟨fun e' tile i j _ hi hj ht => hwords e' tile i j hi hj fun he => ht he q hq, fun hne => hmem (decide_eq_false hne),
      fun a ha => hbytes a (ha q hq), ?_⟩
    obtain ⟨_, _, _, _, _, _, _, hk⟩ := hstep
    rw [hk]
    exact ⟨rfl, rfl, rfl, rfl, rfl, rfl, rfl, rfl, rfl, rfl, rfl⟩

/-! ### A signal past the semaphores (R76, R77, R115) -/

/-- A running operation that signals a semaphore far past number 255, the last that a DISPATCH word names: the word in which
SEQ_SEM_SAT notes this semaphore's saturation is ME_OP_CNT[0], the bit is bit 1. -/
def farSignal : RunOp := { q := { sig := true, sem := 32 * ((Reg.ME_OP_CNT - Reg.SEQ_SEM_SAT) / 4) + 1 } }

/-- A core on which that operation runs in the array of engine 0, the semaphore at all ones. -/
def farCore : Core :=
  { powered := true, me := [(0, { array := some farSignal })], seq := { sem := [(farSignal.q.sem, 0xFFFFFFFF)] } }

/-- A panel that is on, with that core at site 0. -/
def farState : State := { panel := { cores := [(0, farCore)] } }

/-- The operation is counted, and then its semaphore's saturation noted in the count: from 0 it goes to 3. -/
theorem farCore_counts_three : farCore.rd Reg.ME_OP_CNT = 0 ∧ (farCore.meComplete 0 false).rd Reg.ME_OP_CNT = 3 := by decide

/-- Refutes O13: ME_OP_COMPLETE, claimed of every state, does not advance ME_OP_CNT by one where the operation that ends signals
a semaphore past the 256 of a core whose saturation falls on that count. -/
theorem not_engineOperationsEnd : ¬ Obligations.EngineOperationsEnd := by
  rintro ⟨⟨hends, -, -⟩, -, -, -⟩
  obtain ⟨t, ht, -, hcount, -⟩ := hends farState 0 0 false farSignal rfl rfl rfl
  have hcore : t.panel.core (0 : Site) = farCore.meComplete 0 false := by
    cases ht
    rfl
  obtain ⟨hzero, hthree⟩ := farCore_counts_three
  have hone : (t.panel.core (0 : Site)).rd Reg.ME_OP_CNT = min cntTop (farCore.rd Reg.ME_OP_CNT + 1) := hcount
  rw [hcore, hthree, hzero] at hone
  exact absurd hone (by decide)

end Sys2Proof.Machine
end

section
/-! PROOFS. The vector engine (R126, R132, R138, R148): what a transfer stores in the register file and in the scratchpad, on what a
map's run depends, and the start of each operation; from these the obligations O12 and O46. -/

namespace Sys2Proof.Machine

/-! ### Bytes in the register file and in the scratchpad -/

theorem pieceByte_enabled (off : Nat) (bs : List Byte) (i : Nat) :
    pieceByte (off, enabled bs) (off + i) = bs[i]?.map fun b => (b, false) := by
  rw [pieceByte, if_pos (Nat.le_add_right ..), Nat.add_sub_cancel_left, getD_enabled]

/-- Bytes give no address before them, and none past them, a byte. -/
theorem pieceByte_outside {off : Nat} {l : List MByte} {a : Nat} (h : a < off ∨ off + l.length ≤ a) :
    pieceByte (off, l) a = none := by
  unfold pieceByte
  dsimp only
  split_ifs
  · exact List.getD_eq_default _ _ (by omega)
  · rfl

theorem pieceByte_cons (off : Nat) (b : MByte) (l : List MByte) (a : Nat) :
    pieceByte (off, b :: l) a = if a = off then b else pieceByte (off + 1, l) a := by
  unfold pieceByte
  dsimp only
  rcases Nat.lt_trichotomy a off with hlt | rfl | hgt
  · rw [if_neg (by omega), if_neg (by omega), if_neg (by omega)]
  · rw [if_pos le_rfl, if_pos rfl, Nat.sub_self]
    rfl
  · rw [if_pos (by omega), if_neg (by omega), if_pos (by omega), show a - off = a - (off + 1) + 1 by omega, List.getD_cons_succ]

theorem cellAt_writeRegs_single (m : List Host.Cell) (off : Nat) (b : MByte) (a : Nat) :
    cellAt (writeRegs m none off [b]) a = if a = off then (b.map (·.1)).getD (cellAt m a) else cellAt m a := by
  cases b with
  | none => exact (ite_self _).symm
  | some x =>
    split_ifs with h
    · rw [h]
      exact cellAt_setCell_same ..
    · exact cellAt_setCell_other _ _ h

/-- A byte of the register file once bytes that read good are written from an offset on. -/
theorem cellAt_writeRegs (a : Nat) : ∀ (l : List MByte) (m : List Host.Cell) (off : Nat),
    cellAt (writeRegs m none off l) a = ((pieceByte (off, l) a).map (·.1)).getD (cellAt m a)
  | [], m, off => by simp [writeRegs, pieceByte]
  | b :: l, m, off => by
    refine (cellAt_writeRegs a l (writeRegs m none off [b]) (off + 1)).trans ?_
    rw [cellAt_writeRegs_single, pieceByte_cons]
    split_ifs with h
    · rw [pieceByte_outside (.inl (by omega))]
      rfl
    · rfl

/-- A byte written from an offset on, its row in reach, is stored. -/
theorem Core.byte_writeBytes_written (k : Core) (w : At) (req : Nat) {off a : Nat} {l : List MByte} {b : Byte × Bool}
    (hr : k.reach (256 * (a / 256)) = true) (hb : pieceByte (off, l) a = some b) :
    (k.writeBytes w req off l).2.spad.mem.byte a = b.1 := by
  rw [Core.writeBytes, Core.writeRows_eq]
  exact Core.byte_writeRows_written w req _ k (wholeRows_rowsAt off l).rising hr (by rwa [rowByte_rowsAt])

/-- A byte whose codeword a write from an offset on does not touch stays. -/
theorem Core.byte_writeBytes_kept (k : Core) (w : At) (req : Nat) {off a : Nat} {l : List MByte}
    (h : ∀ c, c / 32 = a / 32 → pieceByte (off, l) c = none) :
    (k.writeBytes w req off l).2.spad.mem.byte a = k.spad.mem.byte a := by
  rw [Core.writeBytes, Core.writeRows_eq]
  refine Core.byte_eachRow_kept (Core.keepsBytes_writeRow w req) a _ k (wholeRows_rowsAt off l).rising fun c hc => ?_
  rw [rowByte_rowsAt, h c hc]

/-! ### The start of a transfer (R126, R141, R164) -/

/-- The core as a transfer at the head of the queue starts in it. -/
def Core.xferTaken (k : Core) (base : Nat) : Core := k.veDrop.mapShared base

theorem Core.readsAs_xferTaken (k : Core) (base : Nat) : k.ReadsAs (k.xferTaken base) := ⟨rfl, rfl, rfl⟩

/-- The head transfer of a vector engine that owns a slot, passes its checks and may start, runs. -/
theorem Core.xferStart_runs {k : Core} {q : QOp} {rest : List QOp} (base : Nat) (run : QOp → Core → Core)
    (hq : k.ve.queue = q :: rest) (hx : k.ve.xfer = none) (hfree : k.xferFree q = true) (hslot : k.noSlot Own.ve = false)
    (hfault : q.xferFault = none) : k.xferStart base q.kind run = run q (k.xferTaken base) := by
  have hslot' : k.veDrop.noSlot Own.ve = false := hslot
  simp only [Core.xferStart, hq, hx, hfree, hslot', hfault, ne_eq, not_true_eq_false, Option.isSome_none, Bool.false_eq_true,
    or_self, if_false]
  rfl

theorem exec_xferStart {s : State} {n : Site} {q : QOp} {rest : List QOp} {i : Instr} {run : Nat → At → QOp → Core → Core}
    (hi : exec i s = s.eng n fun b w k => k.xferStart b q.kind (run b w)) (hl : s.panel.live = true)
    (hc : (s.panel.core n).clocked = true) (hq : (s.panel.core n).ve.queue = q :: rest) (hx : (s.panel.core n).ve.xfer = none)
    (hfree : (s.panel.core n).xferFree q = true) (hslot : (s.panel.core n).noSlot Own.ve = false) (hfault : q.xferFault = none) :
    ∃ t, exec i s = .next t ∧
      t.panel.core n = run s.panel.free (s.panel.at' n) q ((s.panel.core n).xferTaken s.panel.free) :=
  ⟨_, hi.trans (eng_clocked hl hc _), by rw [Panel.core_setCore, Core.xferStart_runs _ _ hq hx hfree hslot hfault]⟩

/-! ### What the transfers leave (R126, R132, R138) -/

/-- A vector engine's transfer fetches the bytes of a range. -/
def Core.rangeFetch (k : Core) (w : At) (off len : Nat) : Fetch × Nat × Core := Core.fetch w Own.ve (rowsOf [(off, len)]) k

theorem Core.rangeFetch_xferTaken (k : Core) (base : Nat) (w : At) (off len : Nat) :
    ((k.xferTaken base).rangeFetch w off len).1 = (k.rangeFetch w off len).1 ∧
      ((k.xferTaken base).rangeFetch w off len).2.1 = (k.rangeFetch w off len).2.1 :=
  (k.readsAs_xferTaken base).fetch_eq w Own.ve _

/-- The words of a program in what was fetched (R126). -/
def QOp.progWords (q : QOp) (f : Fetch) : List W32 :=
  (List.range (q.f 69 64 + 1)).map fun i => BitVec.ofNat 32 (f.le (baseOff q.a + 4 * i) 4)

/-- EPROG of words that are all valid instructions fills its slot with them. -/
theorem Core.eprogRun_fills (k : Core) (w : At) (base : Nat) (q : QOp)
    (hok : ∀ i ∈ q.progWords (k.rangeFetch w (baseOff q.a) (4 * (q.f 69 64 + 1))).1, (einstr i).ok = true) :
    (k.eprogRun w base q).program (q.f 75 72) =
        (q.progWords (k.rangeFetch w (baseOff q.a) (4 * (q.f 69 64 + 1))).1).map einstr ∧
      ((k.eprogRun w base q).ve.xfer.map (·.q)) = some q := by
  have hnone : (q.progWords (k.rangeFetch w (baseOff q.a) (4 * (q.f 69 64 + 1))).1).findIdx? (fun i => !(einstr i).ok) = none :=
    List.findIdx?_eq_none_iff.2 fun i hi => by simp [hok i hi]
  unfold Core.rangeFetch QOp.progWords at hnone ⊢
  simp only [Core.eprogRun, hnone]
  exact ⟨congrArg (List.map einstr) (look_put_same ..), rfl⟩

/-- VLOAD of rows that read good leaves their bytes in the register file. -/
theorem Core.vloadRun_loads (k : Core) (w : At) (base : Nat) (q : QOp) :
    ((k.vloadRun w base q).ve.xfer.map (·.q)) = some q ∧
      (isBad (k.rangeFetch w (baseOff q.a) (256 * (q.f 67 59 + 1))).2.1 = false → ∀ i, i < 256 * (q.f 67 59 + 1) →
        cellAt (k.vloadRun w base q).ve.vregs (256 * q.f 75 68 + i) =
          (k.rangeFetch w (baseOff q.a) (256 * (q.f 67 59 + 1))).1.byte (baseOff q.a + i)) := by
  refine ⟨rfl, fun hgood i hi => ?_⟩
  unfold Core.rangeFetch at hgood ⊢
  simp only [Core.vloadRun, hgood, Bool.false_eq_true, if_false, Core.setXfer]
  rw [cellAt_writeRegs, pieceByte_enabled, List.getElem?_map, List.getElem?_range hi]
  rfl

/-- VSTORE of rows in reach leaves the bytes of the register file at their place, and the bytes of other codewords as they are. -/
theorem Core.vstoreRun_stores (k : Core) (w : At) (base : Nat) (q : QOp) :
    ((k.vstoreRun w base q).ve.xfer.map (·.q)) = some q ∧
      (∀ i, i < 256 * (q.f 67 59 + 1) → k.reach (256 * ((baseOff q.c + i) / 256)) = true →
        (k.vstoreRun w base q).spad.mem.byte (baseOff q.c + i) = cellAt k.ve.vregs (256 * q.f 75 68 + i)) ∧
      ∀ a, (∀ c, c / 32 = a / 32 → c < baseOff q.c ∨ baseOff q.c + 256 * (q.f 67 59 + 1) ≤ c) →
        (k.vstoreRun w base q).spad.mem.byte a = k.spad.mem.byte a := by
  refine ⟨rfl, fun i hi hr => ?_, fun a ha => ?_⟩
  · have hbyte : pieceByte (baseOff q.c, enabled (cellsAt k.ve.vregs (256 * q.f 75 68) (256 * (q.f 67 59 + 1))))
        (baseOff q.c + i) = some (cellAt k.ve.vregs (256 * q.f 75 68 + i), false) := by
      rw [pieceByte_enabled, getElem?_cellsAt _ _ hi]
      rfl
    exact k.byte_writeBytes_written w Own.ve hr hbyte
  · refine k.byte_writeBytes_kept w Own.ve fun c hc => pieceByte_outside ?_
    rw [enabled, List.length_map, length_cellsAt]
    exact ha c hc

theorem vectorTransfersComplete : Completion.VectorTransfersComplete := by
  intro s n q rest hl hc hq hx hfree hslot hfault
  refine ⟨fun hk => ?_, fun hk hr hcap => ?_⟩
  · obtain ⟨t, hexec, ht⟩ := exec_xferStart (i := .vload n) (run := fun b w q k => k.vloadRun w b q) (by rw [hk]; rfl)
      hl hc hq hx hfree hslot hfault
    obtain ⟨hrun, hload⟩ := ((s.panel.core n).xferTaken s.panel.free).vloadRun_loads (s.panel.at' n) s.panel.free q
    obtain ⟨hbytes, hstatus⟩ := (s.panel.core n).rangeFetch_xferTaken s.panel.free (s.panel.at' n) (baseOff q.a)
      (256 * (q.f 67 59 + 1))
    rw [hbytes, hstatus] at hload
    intro len x hgood
    refine ⟨t, hexec, ?_, ?_⟩
    · rw [ht, hrun]
    · rw [ht]
      exact hload hgood
  · obtain ⟨t, hexec, ht⟩ := exec_xferStart (i := .vstore n) (run := fun b w q k => k.vstoreRun w b q) (by rw [hk]; rfl)
      hl hc hq hx hfree hslot hfault
    obtain ⟨hrun, hstore, hkept⟩ := ((s.panel.core n).xferTaken s.panel.free).vstoreRun_stores (s.panel.at' n) s.panel.free q
    have hreach := (s.panel.core n).readsAs_xferTaken s.panel.free |>.reach_eq
    refine ⟨t, hexec, by rw [ht, hrun], fun i hi => ?_, fun a ha => ?_⟩
    · rw [ht, hstore i hi (by rw [hreach]; exact Core.reach_of_lt hr (by omega))]
      rfl
    · rw [ht, hkept a fun c hc => by omega]
      rfl

/-! ### On what a map's run depends (R134–R137) -/

theorem Core.Accessed.ve_eq {k l : Core} {m : Mem} (h : k.Accessed m l) : l.ve = k.ve := by
  obtain ⟨_, _, _, _, rfl⟩ := h; rfl

/-- Accesses that leave the same memory, of scratchpads that read alike. -/
theorem Core.ReadsAs.stored {k l k' l' : Core} {m : Mem} (h : k.ReadsAs l) (hk : k.Accessed m k') (hl : l.Accessed m l') :
    k'.ReadsAs l' := by
  obtain ⟨-, ha, hr⟩ := h
  obtain ⟨_, _, _, _, rfl⟩ := hk
  obtain ⟨_, _, _, _, rfl⟩ := hl
  exact ⟨rfl, ha, hr⟩

/-- What a write of one codeword stores depends on the memory alone. -/
theorem Core.mem_writeCw_congr {k l : Core} (h : l.spad.mem = k.spad.mem) (w : At) (req n : Nat) (b : List MByte) :
    (l.writeCw w req n b).2.spad.mem = (k.writeCw w req n b).2.spad.mem := by
  unfold Core.writeCw
  dsimp only
  rw [h]
  split_ifs
  · exact h
  · rfl
  · split
    · rfl
    · simp only [Core.logErr_spad, Core.bump_spad, h]
    · rfl

theorem Core.mem_writeCws_congr (w : At) (req : Nat) : ∀ (m n : Nat) (b : List MByte) {k l : Core},
    l.spad.mem = k.spad.mem → (Core.writeCws w req m n b l).2.spad.mem = (Core.writeCws w req m n b k).2.spad.mem
  | 0, _, _, _, _, h => h
  | m + 1, n, b, _, _, h => Core.mem_writeCws_congr w req m (n + 1) (b.drop 32) (Core.mem_writeCw_congr h w req n (b.take 32))

/-- An access stores the same in scratchpads that read alike. -/
def StoresAlike (f : Core → Nat → List MByte → Nat × Core) : Prop :=
  ∀ (k l : Core) row b, k.ReadsAs l → (f k row b).2.ReadsAs (f l row b).2

theorem Core.storesAlike_writeRow (w : At) (req : Nat) : StoresAlike fun k => k.writeRow w req := fun k l row b h => by
  refine h.stored (k.accessed_writeRow w req row b) ?_
  have hmem : (l.writeRow w req row b).2.spad.mem = (k.writeRow w req row b).2.spad.mem := by
    unfold Core.writeRow
    rw [h.reach_eq]
    split_ifs
    · simp only [Core.mem_wrote]
      exact Core.mem_writeCws_congr w req 8 (8 * row) b h.1
    · exact h.1
  exact hmem ▸ l.accessed_writeRow w req row b

theorem Core.storesAlike_accRowLocal (w : At) (req type : Nat) : StoresAlike fun k => k.accRowLocal w req type :=
  fun k l row b h => by
  refine h.stored (k.accessed_accRowLocal w req type row b) ?_
  have hmem : (l.accRowLocal w req type row b).2.spad.mem = (k.accRowLocal w req type row b).2.spad.mem := by
    unfold Core.accRowLocal
    rw [h.reach_eq]
    split_ifs
    · simp only [Core.mem_wrote, (Core.accessed_accStoreRow ..).mem_eq, (Core.accessed_accReadRow ..).mem_eq, h.1]
    · exact h.1
  exact hmem ▸ l.accessed_accRowLocal w req type row b

theorem Core.ReadsAs.eachRow {f : Core → Nat → List MByte → Nat × Core} (hf : StoresAlike f) :
    ∀ (rows : List (Nat × List MByte)) {k l : Core}, k.ReadsAs l → (Core.eachRow f rows k).ReadsAs (Core.eachRow f rows l)
  | [], _, _, h => h
  | (row, b) :: rest, k, l, h => by
    refine Core.ReadsAs.eachRow hf rest ?_
    split_ifs
    · exact h
    · exact hf k l row b h

theorem Core.ReadsAs.storePieces {k l : Core} (h : k.ReadsAs l) (w : At) (req type : Nat) (pieces : List (Nat × List MByte)) :
    (k.storePieces w req type pieces).2.ReadsAs (l.storePieces w req type pieces).2 := by
  unfold Core.storePieces
  split_ifs
  · rw [Core.writeRows_eq, Core.writeRows_eq]
    exact h.eachRow (Core.storesAlike_writeRow w req) _
  · rw [Core.accRows_eq, Core.accRows_eq]
    exact h.eachRow (Core.storesAlike_accRowLocal w req type) _

/-- Two cores on which a map runs alike: their scratchpads read alike, and their vector registers are the same. -/
structure Core.MapsAs (k l : Core) : Prop where
  reads : k.ReadsAs l
  vregs : l.ve.vregs = k.ve.vregs

theorem Core.mapsAs_xferShared (k : Core) (base : Nat) : k.MapsAs (k.xferShared base) := ⟨⟨rfl, rfl, rfl⟩, rfl⟩

theorem Core.MapsAs.setMap {k l : Core} (h : k.MapsAs l) (m : Option MapRun) : k.MapsAs (l.setMap m) := ⟨h.reads, h.vregs⟩

theorem Core.MapsAs.after {k l k' l' : Core} (h : k.MapsAs l) (hk : k.Accessed k.spad.mem k') (hl : l.Accessed l.spad.mem l') :
    k'.MapsAs l' :=
  ⟨h.reads.after hk hl, by rw [hk.ve_eq, hl.ve_eq, h.vregs]⟩

theorem Core.MapsAs.emapSources (w : At) (d : MapDesc) (b : Nat) : ∀ (ss : List EStream) {k l : Core}, k.MapsAs l →
    (Core.emapSources w d b ss l).1 = (Core.emapSources w d b ss k).1 ∧
      (Core.emapSources w d b ss l).2.1 = (Core.emapSources w d b ss k).2.1 ∧
      (Core.emapSources w d b ss k).2.2.MapsAs (Core.emapSources w d b ss l).2.2
  | [], _, _, h => ⟨rfl, rfl, h⟩
  | s :: ss, k, l, h => by
    simp only [Core.emapSources]
    split_ifs with hen hreg
    · obtain ⟨hsrc, hst, hcore⟩ := Core.MapsAs.emapSources w d b ss h
      exact ⟨by rw [hsrc, h.vregs], by rw [hst], hcore⟩
    · set rows := rowsOf (tileRanges (s.base b) s.stride (s.len d.cols) d.rows)
      obtain ⟨hbytes, hstatus⟩ := h.reads.fetch_eq w Own.ve rows
      obtain ⟨hsrc, hst, hcore⟩ := Core.MapsAs.emapSources w d b ss
        (h.after (Core.accessed_fetch w Own.ve rows k) (Core.accessed_fetch w Own.ve rows l))
      exact ⟨by rw [hsrc, hbytes], by rw [hst, hstatus], hcore⟩
    · obtain ⟨hsrc, hst, hcore⟩ := Core.MapsAs.emapSources w d b ss h
      exact ⟨by rw [hsrc], by rw [hst], hcore⟩

theorem Core.MapsAs.emapOut {k l : Core} (h : k.MapsAs l) (w : At) (s : EStream) (base : Nat) (fresh : Option Nat)
    (rows : List (List MByte)) : (k.emapOut w s base fresh rows).2.MapsAs (l.emapOut w s base fresh rows).2 := by
  unfold Core.emapOut
  dsimp only
  split_ifs
  · exact ⟨h.reads, by rw [h.vregs]⟩
  · refine ⟨h.reads.storePieces w _ _ _, ?_⟩
    rw [(Core.accessed_storePieces ..).ve_eq, (Core.accessed_storePieces ..).ve_eq, h.vregs]

/-- A map's run leaves cores alike that were alike. -/
theorem Core.MapsAs.emapRun {k l : Core} (h : k.MapsAs l) (w : At) (base : Nat) (d : MapDesc) (q : QOp) (prog : List EInstr) :
    (k.emapRun w base d q prog).2.2.MapsAs (l.emapRun w base d q prog).2.2 := by
  obtain ⟨hsrc, hst, hcore⟩ := h.emapSources w d (baseOff q.b) d.ins
  unfold Core.emapRun
  dsimp only
  rw [hsrc, hst, hcore.vregs]
  exact ((hcore.after (Core.accessed_addCounts ..) (Core.accessed_addCounts ..)).emapOut ..).emapOut ..

/-! ### The operations complete -/

theorem emap_completes {s : State} {n : Site} {q : QOp} {rest : List QOp} (hl : s.panel.live = true)
    (hc : (s.panel.core n).clocked = true) (hq : (s.panel.core n).ve.queue = q :: rest) (hk : q.kind = 0) (htap : q.f 71 71 = 0)
    (hm : (s.panel.core n).ve.map = none) (hfree : (s.panel.core n).mapFree q = true)
    (hslot : (s.panel.core n).noSlot Own.ve = false)
    (hfault : q.emapStartFault ((s.panel.core n).progValid (q.f 75 72)) = none) :
    ∃ t, exec (.emap n) s = .next t ∧ (t.panel.core n).ve.queue = rest ∧ (t.panel.core n).ve.map = some { q := q } := by
  have hslot' : (s.panel.core n).veDrop.noSlot Own.ve = false := hslot
  have hfault' : q.emapStartFault ((s.panel.core n).veDrop.progValid (q.f 75 72)) = none := hfault
  have hrun : (s.panel.core n).emapStart s.panel.free = (s.panel.core n).veDrop.setMap (some { q := q }) := by
    simp [Core.emapStart, hq, hk, htap, hm, hfree, hslot', hfault']
  refine ⟨_, eng_clocked hl hc fun b _ k => k.emapStart b, ?_, ?_⟩
  · rw [Panel.core_setCore, hrun]
    exact congrArg List.tail hq
  · rw [Panel.core_setCore, hrun]
    rfl

/-- What a map fetches first: the row of its descriptor (R133). -/
def Core.descFetch (k : Core) (w : At) (q : QOp) : Fetch × Nat × Core := Core.fetch w Own.ve [baseOff q.a / 256] k

/-- The descriptor of a map in what was fetched. -/
def QOp.desc (q : QOp) (f : Fetch) : MapDesc := { words := (List.range 8).map fun i => f.le (baseOff q.a + 8 * i) 8 }

/-- A status of success is neither that of a sleeping bank nor that of bad data. -/
theorem read_good_of_ok {st : Nat} (h : St.ok st = true) : st ≠ St.bankAsleep ∧ isBad st = false := by
  have hle : st ≤ 1 := of_decide_eq_true h
  refine ⟨fun heq => ?_, beq_eq_false_iff_ne.2 fun heq => ?_⟩
  · rw [heq] at hle
    exact absurd hle (by decide)
  · rw [heq] at hle
    exact absurd hle (by decide)

/-- An untapped map whose descriptor reads good and passes its checks runs. -/
theorem Core.emapRead_runs {k : Core} {w : At} (base : Nat) {m : MapRun} (hm : k.ve.map = some m) (hread : m.read = false)
    (htap : m.tap = false) (hok : St.ok (k.descFetch w m.q).2.1 = true)
    (hfault : (m.q.desc (k.descFetch w m.q).1).fault m.q (k.program (m.q.f 75 72)) = none) :
    ∃ r : MapRun, (r.q, r.read, r.tap, r.ranges) = (m.q, true, false, (m.q.desc (k.descFetch w m.q).1).ranges) ∧
      k.emapRead w base = (((k.descFetch w m.q).2.2.xferShared base).emapRun w base (m.q.desc (k.descFetch w m.q).1) m.q
        (k.program (m.q.f 75 72))).2.2.setMap (some r) := by
  have hprog : ((k.descFetch w m.q).2.2.xferShared base).program (m.q.f 75 72) = k.program (m.q.f 75 72) := by
    have hve : (k.descFetch w m.q).2.2.ve = k.ve := (Core.accessed_fetch ..).ve_eq
    change (look [] (k.descFetch w m.q).2.2.ve.progs _).map einstr = _
    rw [hve]
    rfl
  obtain ⟨hawake, hgood⟩ := read_good_of_ok hok
  unfold Core.descFetch QOp.desc at *
  simp only [Core.emapRead, hm, hread, htap, hawake, hgood, hprog, hfault, Bool.false_eq_true, if_false]
  exact ⟨_, rfl, rfl⟩

theorem emapDescriptorRead_completes {s : State} {n : Site} {m : MapRun} (hl : s.panel.live = true)
    (hc : (s.panel.core n).clocked = true) (hm : (s.panel.core n).ve.map = some m) (hread : m.read = false) (htap : m.tap = false)
    {x : Fetch × Nat × Core} (hx : x = (s.panel.core n).descFetch (s.panel.at' n) m.q) (hok : St.ok x.2.1 = true)
    (hfault : (m.q.desc x.1).fault m.q ((s.panel.core n).program (m.q.f 75 72)) = none) :
    ∃ t, exec (.emapDescriptorRead n) s = .next t ∧
      ((t.panel.core n).ve.map.map fun y => (y.q, y.read, y.tap, y.ranges)) = some (m.q, true, false, (m.q.desc x.1).ranges) ∧
      (x.2.2.emapRun (s.panel.at' n) s.panel.free (m.q.desc x.1) m.q ((s.panel.core n).program (m.q.f 75 72))).2.2.MapsAs
        (t.panel.core n) := by
  subst hx
  obtain ⟨r, hr, hrun⟩ := Core.emapRead_runs s.panel.free hm hread htap hok hfault
  refine ⟨_, eng_clocked hl hc fun b w k => k.emapRead w b, ?_, ?_⟩
  · rw [Panel.core_setCore, hrun]
    exact congrArg some hr
  · rw [Panel.core_setCore, hrun]
    exact ((Core.mapsAs_xferShared ..).emapRun ..).setMap _

theorem vectorMapsComplete : Completion.VectorMapsComplete := by
  refine ⟨fun _ _ _ _ hl hc hq hk htap hm hfree hslot hfault => emap_completes hl hc hq hk htap hm hfree hslot hfault,
    fun s n m hl hc hm hread htap => ?_, fun s n q rest hl hc hq hk hx hfree hslot hfault => ?_⟩
  · intro x d prog hok hfault
    obtain ⟨t, hexec, hmap, ⟨hmem, -, -⟩, hvregs⟩ := emapDescriptorRead_completes hl hc hm hread htap rfl hok hfault
    exact ⟨t, hexec, hmap, hmem, hvregs⟩
  · intro x prog hok
    obtain ⟨t, hexec, ht⟩ := exec_xferStart (i := .eprog n) (run := fun b w q k => k.eprogRun w b q) (by rw [hk]; rfl)
      hl hc hq hx hfree hslot hfault
    have hfill := ((s.panel.core n).xferTaken s.panel.free).eprogRun_fills (s.panel.at' n) s.panel.free q
    obtain ⟨hbytes, -⟩ := (s.panel.core n).rangeFetch_xferTaken s.panel.free (s.panel.at' n) (baseOff q.a)
      (4 * (q.f 69 64 + 1))
    rw [hbytes] at hfill
    refine ⟨t, hexec, ?_⟩
    rw [ht]
    exact hfill hok

/-- Settles O12: a map runs alike on cores that differ in their transfer alone, and a transfer leaves each byte at its place. -/
theorem vectorOperations : Obligations.VectorOperations := ⟨vectorMapsComplete, vectorTransfersComplete⟩

/-! ### A map paired with an operation that asks for no pair (R148) -/

/-- ARGMAX over one row of one element of the scratchpad, its result at offset 4096: it does not ask for a tap. -/
def plainArgmax : QOp := { op := BitVec.ofNat 80 (3 * 2 ^ 76 + 2 ^ 28), c := 4096 }

/-- A tapped map that has not read its descriptor, at offset 0. -/
def tappedMap : MapRun := { q := { op := BitVec.ofNat 80 (2 ^ 71) }, tap := true }

/-- A core on which the two run as a pair, which TAP_PAIR_START does not make; the descriptor gives five rows of one column and no
stream. -/
def mispairedCore : Core :=
  { powered := true, spad := { mem := ({} : Mem).setCw 0 (Codeword.fresh (leBytes 32 (4 * 2 ^ 52)) false) },
    ve := { map := some tappedMap }, ru := { run := some { q := plainArgmax }, tapped := true } }

/-- A panel that is on, with that core at site 0. -/
def mispairedState : State := { panel := { cores := [(0, mispairedCore)] } }

/-- The descriptor gives no output stream, so that every place lies outside them. -/
theorem tappedMap_outside (a : Nat) :
    Frame.outside (Frame.mapRanges (tappedMap.q.desc (mispairedCore.descFetch ⟨0, 0⟩ tappedMap.q).1) tappedMap.q) a := by
  have hnone : Frame.mapRanges (tappedMap.q.desc (mispairedCore.descFetch ⟨0, 0⟩ tappedMap.q).1) tappedMap.q = [] := by
    decide +kernel
  rw [hnone]
  exact nofun

/-- The map's five rows make five results of eight bytes, where the operation's own fields give one: a byte of the fifth
changes. -/
theorem mispairedCore_writes :
    mispairedCore.spad.mem.byte 4131 = 0 ∧ (mispairedCore.emapRead ⟨0, 0⟩ 0).spad.mem.byte 4131 = 0xFF := by decide +kernel

theorem plainArgmax_outside : Frame.outside (Frame.ruRanges plainArgmax) 4131 := by
  have hranges : Frame.ruRanges plainArgmax = [(4096, 8)] := by decide
  rw [hranges]
  simp [Frame.outside]

/-- Refutes O46: EMAP_DESCRIPTOR_READ, claimed of every state, writes past the codewords that the RU operation's fields name where a
tapped map runs beside an operation that asked for no tap: its rows are compared with the map's only where it asked for one (R151),
and the results are as many as the map's rows. -/
theorem not_vectorAndReductionFrame : ¬ Obligations.VectorAndReductionFrame := by
  intro h
  obtain ⟨t, hexec, hcore⟩ : ∃ t, exec (.emapDescriptorRead 0) mispairedState = .next t ∧
      t.panel.core (0 : Site) = mispairedCore.emapRead ⟨0, 0⟩ 0 :=
    ⟨_, eng_clocked rfl rfl fun b w k => k.emapRead w b, Panel.core_setCore ..⟩
  obtain ⟨-, -, -, hmem, -⟩ := h mispairedState t 0 (.emapDescriptorRead 0) (by simp) hexec
  have hkept : (t.panel.core (0 : Site)).spad.mem.byte 4131 = mispairedCore.spad.mem.byte 4131 := by
    refine hmem rfl 4131 fun m hm => ?_
    cases hm
    refine ⟨?_, fun r hr => ?_⟩
    · exact tappedMap_outside 4131
    · cases hr
      exact plainArgmax_outside
  obtain ⟨hbefore, hafter⟩ := mispairedCore_writes
  rw [hcore, hafter, hbefore] at hkept
  exact absurd hkept (by decide)

end Sys2Proof.Machine
end

section
/-! PROOFS. The plan of a task (R163): a task's start copies the plan that its entry names, and the copy of its list writes no
register but the counters of reads; from these the obligation O59. -/

namespace Sys2Proof.Machine

/-! ### What a read of codewords leaves (R174, R176) -/

/-- The registers in which reads of codewords are noted. -/
def readNotes : List Nat :=
  [Reg.SPAD_CORR_CNT, Reg.SPAD_UNCORR_CNT, Reg.SPAD_ERR_ADDR, Reg.SPAD_WB_DROP_CNT, Reg.ERR_LOST_CNT_core]

theorem Core.rd_queueWb (k : Core) (row : Nat) {off : Nat} (h : off ≠ Reg.SPAD_WB_DROP_CNT) :
    (k.queueWb row).rd off = k.rd off := by
  unfold Core.queueWb
  split_ifs
  · rfl
  · rfl
  · exact Core.rd_bump_other _ _ h

theorem Core.rd_noteRead (k : Core) (w : At) (req n : Nat) (r : CwRead) {off : Nat} (h : off ∉ readNotes) :
    (k.noteRead w req n r).rd off = k.rd off := by
  simp only [readNotes, List.mem_cons, List.not_mem_nil, or_false, not_or] at h
  obtain ⟨hcorr, huncorr, haddr, hdrop, hlost⟩ := h
  cases r with
  | clean => rfl
  | corrected =>
    simp only [Core.noteRead]
    rw [Core.rd_queueWb _ _ hdrop, Core.logErr_rd _ _ _ _ hlost, Core.rd_bump_other _ _ hcorr]
  | bad =>
    simp only [Core.noteRead]
    rw [Core.logErr_rd _ _ _ _ hlost]
    split_ifs
    · exact Core.rd_bump_other _ _ huncorr
    · rw [Core.rd_wr_other _ _ haddr, Core.rd_bump_other _ _ huncorr]

theorem Core.rd_copyCws (w : At) {off : Nat} (h : off ∉ readNotes) : ∀ (n m : Nat) (k : Core),
    (Core.copyCws w n m k).2.rd off = k.rd off
  | _, 0, _ => rfl
  | n, m + 1, k => by
    unfold Core.copyCws
    split_ifs
    · exact (Core.rd_copyCws w h (n + 1) m _).trans (k.rd_noteRead _ _ _ _ h)
    · exact Core.rd_copyCws w h (n + 1) m k

/-- The copy of a task list writes no register but the notes of its reads and the count of rows asleep. -/
theorem Core.rd_copyList (k : Core) (w : At) (e : StartEntry) {off : Nat} (h : off ∉ readNotes)
    (hasleep : off ≠ Reg.SPAD_ASLEEP_CNT) : (k.copyList w e).2.rd off = k.rd off := by
  unfold Core.copyList
  dsimp only
  split_ifs
  · exact Core.rd_copyCws w h _ _ k
  · rw [Core.rd_bump_other _ _ hasleep, Core.rd_copyCws w h]

/-! ### The plan that an entry names (R163) -/

theorem Core.planOf_valid {k : Core} {n : Nat} (h : (k.rd (Reg.SPAD_PLAN_CTL + 4 * n)).testBit 31 = true) :
    k.planOf n = (rfGet k.regs (Reg.SPAD_PLAN + 8 * n), k.rd (Reg.SPAD_PLAN_CTL + 4 * n) % 16, n, false) := if_pos h

theorem Core.planOf_missed {k : Core} {n : Nat} (h : (k.rd (Reg.SPAD_PLAN_CTL + 4 * n)).testBit 31 = false) :
    k.planOf n = (0x76543210, 7, 0, true) := if_neg (by simp [h])

/-- The task that a start makes, with the plan of its entry and no status yet. -/
theorem Core.task_startTask (k : Core) (w : At) (e : StartEntry) (rest : List StartEntry) :
    ∃ t, (k.startTask w e rest).seq.task = some t ∧ t.entry = e ∧ t.status = none ∧
      t.plan = (k.planOf e.plan).1 ∧ t.planLen = (k.planOf e.plan).2.1 := ⟨_, rfl, rfl, rfl, rfl, rfl⟩

/-- A start counts a plan that it missed. -/
theorem Core.planMiss_startTask (k : Core) (w : At) (e : StartEntry) (rest : List StartEntry) :
    (k.startTask w e rest).rd Reg.SPAD_PLAN_MISS_CNT =
      (if (k.planOf e.plan).2.2.2 then k.bump Reg.SPAD_PLAN_MISS_CNT else k).rd Reg.SPAD_PLAN_MISS_CNT :=
  Core.rd_copyList _ w e (by decide) (by decide)

/-- The slots of a core with a task come from the task's copy of its plan. -/
theorem Core.slots_regs (k : Core) (regs : RegFile) (code : Nat) : ({ k with regs := regs } : Core).slots code = k.slots code := rfl

/-- Settles O59: the plan copied by whether the named one is valid, and the slots by the task that holds the copy. -/
theorem taskStartCopiesThePlan : Obligations.TaskStartCopiesThePlan := by
  intro s n e rest hl hc hst hidle hg hr
  obtain ⟨k, hk, hentry, hstatus, hplan, hlen⟩ := (s.panel.core n).task_startTask (s.panel.at' n) e rest
  have hcount := (s.panel.core n).planMiss_startTask (s.panel.at' n) e rest
  refine ⟨_, k, taskStart_completes s n e rest hl hc hst hidle hg hr, ?_⟩
  rw [Panel.core_setCore]
  refine ⟨hk, hentry, hstatus, ⟨fun hvalid => ?_, fun hmissed => ?_⟩, Core.slots_regs _⟩
  · rw [Core.planOf_valid hvalid] at hplan hlen hcount
    exact ⟨congrArg BitVec.toNat hplan, hlen, hcount⟩
  · rw [Core.planOf_missed hmissed] at hplan hlen hcount
    exact ⟨congrArg BitVec.toNat hplan, hlen, hcount.trans (Core.rd_bump_same ..)⟩

end Sys2Proof.Machine
end

section
/-! PROOFS. Writes of the slot plans (R162): where a granted write of a core register lands, what the check of a plan says, and when a
plan is valid; from these the obligation O41. -/

namespace Sys2Proof.Machine

/-! ### Where a granted write lands -/

/-- A granted write of a register whose code ignores writes changes no die, and answers DONE (R15). -/
theorem wrote_core_ignored {p : Panel} {who : Requester} {n : Site} {off bytes base : Nat} {row : RegRow}
    (h : p.granted who (.core n) off = true) (hh : dieHit (.core n) off bytes true = .reg row base)
    (hp : performed (.core n) row base = false) (v : W64) :
    p.wrote who (.core n) off bytes v = p.emit (.answer who 0 St.done) := by
  obtain ⟨-, hasks, hblock, hanswers, hring, hmay⟩ := (granted_iff ..).1 h
  have hb : (Hit.reg row base == Hit.rsv) = false := by simp
  simp [Panel.wrote, hasks, Panel.regWrite, hblock, hanswers, hring, hmay, hh, hb, hp]

/-- A write of so many bytes at an offset of a core lands on a register there, and changes the core by `f`. -/
def LandsAs (off bytes : Nat) (f : Panel → W64 → Core → Core) : Prop :=
  ∃ row, hitIn coreMap off bytes true = .reg row off ∧ row.acc ≠ .ro ∧ row.acc ≠ .rc ∧
    ∀ (p : Panel) (n : Nat) (v : W64), p.coreWrite n row off v = p.modCore n (f p v)

/-- A command that makes such a write, granted, answers DONE and changes its core by `f`. -/
theorem LandsAs.completes {off bytes : Nat} {f : Panel → W64 → Core → Core} (hf : LandsAs off bytes f) {s : State}
    {who : Requester} {n : Site} {v : W64} {i : Instr} (h : s.panel.granted who (.core n) off = true)
    (hi : exec i s = s.onPanel fun p => p.wrote who (.core n) off bytes v) :
    ∃ t, exec i s = .next t ∧ t.panel.out = .answer who 0 St.done :: s.panel.out ∧
      t.panel.core n = f s.panel v (s.panel.core n) := by
  obtain ⟨row, hhit, hro, hrc, hwrite⟩ := hf
  have hperf : performed (.core n) row off = true := by simp [performed, hro, hrc]
  rw [onPanel_live ((granted_iff ..).1 h).1, wrote_core h bytes v row hhit hperf, hwrite] at hi
  exact ⟨_, hi, rfl, by rw [Panel.core_emit, Panel.core_modCore]⟩

/-- The registers of plans 1 to 31, by number. -/
theorem landsAs_plan (i : Fin 32) (hi : i.val ≠ 0) :
    LandsAs (Reg.SPAD_PLAN + 8 * i) 8 (fun _ v k => k.planWrite i v) ∧
      LandsAs (Reg.SPAD_PLAN_CTL + 4 * i) 4 fun _ v k => k.planCtlWrite i v := by
  obtain ⟨i, hlt⟩ := i
  dsimp only at hi ⊢
  have hpos := Nat.pos_of_ne_zero hi
  interval_cases i <;>
    exact ⟨⟨_, rfl, nofun, nofun, fun _ _ _ => rfl⟩, ⟨_, rfl, nofun, nofun, fun _ _ _ => rfl⟩⟩

/-- A write of so many bytes at an offset of a core meets a register that ignores it. -/
def Ignored (off bytes : Nat) : Prop :=
  ∃ row, hitIn coreMap off bytes true = .reg row off ∧ row.acc = .ro ∧ off ≠ Reg.CORE_PART

theorem Ignored.completes {off bytes : Nat} (hf : Ignored off bytes) {s : State} {who : Requester} {n : Site} {v : W64} {i : Instr}
    (h : s.panel.granted who (.core n) off = true) (hi : exec i s = s.onPanel fun p => p.wrote who (.core n) off bytes v) :
    ∃ t, exec i s = .next t ∧ t.panel.core n = s.panel.core n := by
  obtain ⟨row, hhit, hro, hpart⟩ := hf
  have hperf : performed (.core n) row off = false := by simp [performed, hro, hpart]
  rw [onPanel_live ((granted_iff ..).1 h).1, wrote_core_ignored h hhit hperf] at hi
  exact ⟨_, hi, Panel.core_emit ..⟩

theorem ignored_plan0 : Ignored Reg.SPAD_PLAN 8 ∧ Ignored Reg.SPAD_PLAN_CTL 4 :=
  ⟨⟨_, rfl, rfl, by decide⟩, ⟨_, rfl, rfl, by decide⟩⟩

/-! ### The check of a plan -/

/-- What R162 asks of a plan with `L` slots and these owners. -/
def PlanGood (owner : Nat → Nat) (L : Nat) : Prop :=
  4 ≤ L ∧ (∀ j, j < L → owner j ≤ 8) ∧ (∃ j, j < L ∧ owner j = 6) ∧ (∀ j, L ≤ j → j < 16 → owner j = 0)

/-- The check of R162, for a length that its field of four bits holds. -/
theorem planOk_iff (owners : W64) {len : Nat} (hlen : len < 16) :
    planOk owners len = true ↔ PlanGood (fun j => bits owners.toNat (4 * j + 3) (4 * j)) (len + 1) := by
  simp only [planOk, PlanGood, Bool.and_eq_true, decide_eq_true_eq, List.all_eq_true, List.any_eq_true, List.mem_range,
    beq_iff_eq]
  constructor
  · rintro ⟨⟨hmin, hall⟩, j, hj, hsix⟩
    refine ⟨by omega, fun i hi => ?_, ⟨j, hj, hsix⟩, fun i hlo hhi => ?_⟩
    · simpa [show i ≤ len by omega] using hall i (by omega)
    · simpa [show ¬ i ≤ len by omega] using hall i hhi
  · rintro ⟨hmin, hcodes, ⟨j, hj, hsix⟩, hzero⟩
    refine ⟨⟨by omega, fun i hi => ?_⟩, j, hj, hsix⟩
    split_ifs with h
    · simpa using hcodes i (by omega)
    · simpa using hzero i (by omega) hi

theorem fld_len_lt (v : W64) : fld v 3 0 < 16 := Nat.mod_lt _ (by decide)

/-! ### What the writes leave -/

section
variable (k : Core) {i : Nat} (hi : i ≠ 0) (v : W64)
include hi

theorem Core.planWrite_valid (h : (k.rd (Reg.SPAD_PLAN_CTL + 4 * i)).testBit 31 = true) :
    k.planWrite i v = k.bump Reg.SPAD_CFG_IGN_CNT := by rw [Core.planWrite, if_neg hi, if_pos h]

theorem Core.planWrite_notValid (h : ¬ (k.rd (Reg.SPAD_PLAN_CTL + 4 * i)).testBit 31 = true) :
    k.planWrite i v = k.wr (Reg.SPAD_PLAN + 8 * i) v.toNat := by rw [Core.planWrite, if_neg hi, if_neg h]

/-- A plan is valid after a write of its control register exactly when the write asks for it and the check passes. -/
theorem Core.valid_planCtlWrite :
    ((k.planCtlWrite i v).rd (Reg.SPAD_PLAN_CTL + 4 * i)).testBit 31 =
      (v.getLsbD 31 && planOk (rfGet k.regs (Reg.SPAD_PLAN + 8 * i)) (fld v 3 0)) := by
  have hlen := fld_len_lt v
  have hno : (fld v 3 0 % 2 ^ 64).testBit 31 = false := Nat.testBit_lt_two_pow (by omega)
  have hoff : Reg.SPAD_PLAN_CTL + 4 * i ≠ Reg.SPAD_CFG_IGN_CNT := by simp only [Reg.SPAD_PLAN_CTL, Reg.SPAD_CFG_IGN_CNT]; omega
  simp only [Core.planCtlWrite, if_neg hi]
  split_ifs with hv hok
  · rw [Core.rd_wr_same, hv, hok, Nat.mod_eq_of_lt (by omega), Nat.testBit_two_pow_add_eq, Nat.testBit_lt_two_pow (by omega)]
    rfl
  · rw [Core.rd_bump_other _ _ hoff, Core.rd_wr_same, hno, hv, Bool.eq_false_iff.2 hok]
    rfl
  · rw [Core.rd_wr_same, hno, Bool.eq_false_iff.2 hv]
    rfl

theorem Core.count_planCtlWrite (hv : v.getLsbD 31 = true)
    (hbad : ¬ planOk (rfGet k.regs (Reg.SPAD_PLAN + 8 * i)) (fld v 3 0) = true) :
    (k.planCtlWrite i v).rd Reg.SPAD_CFG_IGN_CNT = min cntTop (k.rd Reg.SPAD_CFG_IGN_CNT + 1) := by
  have hoff : Reg.SPAD_CFG_IGN_CNT ≠ Reg.SPAD_PLAN_CTL + 4 * i := by simp only [Reg.SPAD_PLAN_CTL, Reg.SPAD_CFG_IGN_CNT]; omega
  simp only [Core.planCtlWrite, if_neg hi, if_pos hv, if_neg hbad]
  rw [Core.rd_bump_same, Core.rd_wr_other _ _ hoff]

end

/-! ### The commands -/

section
variable (s : State) (who : Requester) (n : Site) (v : W64)

theorem spadPlanWrite_completes (i : Fin 32) (h : s.panel.granted who (.core n) (Reg.SPAD_PLAN + 8 * i) = true) :
    ∃ t, exec (.spadPlanWrite who n i v) s = .next t ∧
      (if i.val = 0 then (t.panel.core n).regs = (s.panel.core n).regs
      else if ((s.panel.core n).rd (Reg.SPAD_PLAN_CTL + 4 * i)).testBit 31 then
        (t.panel.core n).rd (Reg.SPAD_PLAN + 8 * i) = (s.panel.core n).rd (Reg.SPAD_PLAN + 8 * i) ∧
        (t.panel.core n).rd Reg.SPAD_CFG_IGN_CNT = min cntTop ((s.panel.core n).rd Reg.SPAD_CFG_IGN_CNT + 1)
      else (t.panel.core n).rd (Reg.SPAD_PLAN + 8 * i) = v.toNat) := by
  split_ifs with hi hvalid
  · obtain rfl : i = 0 := Fin.ext hi
    obtain ⟨t, hexec, hcore⟩ := ignored_plan0.1.completes (i := .spadPlanWrite who n 0 v) h rfl
    exact ⟨t, hexec, congrArg Core.regs hcore⟩
  · obtain ⟨t, hexec, -, hcore⟩ := (landsAs_plan i hi).1.completes (i := .spadPlanWrite who n i v) (v := v) h rfl
    refine ⟨t, hexec, ?_⟩
    have hoff : Reg.SPAD_PLAN + 8 * i.val ≠ Reg.SPAD_CFG_IGN_CNT := by simp only [Reg.SPAD_PLAN, Reg.SPAD_CFG_IGN_CNT]; omega
    rw [hcore, Core.planWrite_valid _ hi v hvalid]
    exact ⟨Core.rd_bump_other _ _ hoff, Core.rd_bump_same ..⟩
  · obtain ⟨t, hexec, -, hcore⟩ := (landsAs_plan i hi).1.completes (i := .spadPlanWrite who n i v) (v := v) h rfl
    refine ⟨t, hexec, ?_⟩
    rw [hcore, Core.planWrite_notValid _ hi v hvalid, Core.rd_wr_same, Nat.mod_eq_of_lt v.isLt]

theorem spadPlanCtlWrite_fixed (i : Fin 32) (h : s.panel.granted who (.core n) (Reg.SPAD_PLAN_CTL + 4 * i) = true)
    (hi : i.val = 0) :
    ∃ t, exec (.spadPlanCtlWrite who n i v) s = .next t ∧ (t.panel.core n).regs = (s.panel.core n).regs := by
  obtain rfl : i = 0 := Fin.ext hi
  obtain ⟨t, hexec, hcore⟩ := ignored_plan0.2.completes (i := .spadPlanCtlWrite who n 0 v) h rfl
  exact ⟨t, hexec, congrArg Core.regs hcore⟩

end

/-- Settles O41: each write lands on the register of its plan, and a plan is valid exactly when the check of R162 passes. -/
theorem slotPlanWrites : Obligations.SlotPlanWrites := by
  intro s who n i v
  refine ⟨spadPlanWrite_completes s who n v i, spadPlanCtlWrite_fixed s who n v i, fun h hi => ?_⟩
  obtain ⟨t, hexec, -, hcore⟩ := (landsAs_plan i hi).2.completes (i := .spadPlanCtlWrite who n i v) (v := v) h rfl
  have hgood := planOk_iff (rfGet (s.panel.core n).regs (Reg.SPAD_PLAN + 8 * i)) (fld_len_lt v)
  refine ⟨t, hexec, ?_, fun hv hbad => ?_⟩
  · rw [hcore, Core.valid_planCtlWrite _ hi v, Bool.and_eq_true, hgood]
    rfl
  · rw [hcore]
    exact Core.count_planCtlWrite _ hi v hv (mt hgood.1 hbad)

end Sys2Proof.Machine
end

section
/-! PROOFS. Ingress staging (R167, R169, R170, R175): what a row performed leaves of the scratchpad, and that answering its packet
changes staging alone. -/

namespace Sys2Proof.Machine

/-! ### What an answered packet leaves of the scratchpad -/

/-- An answer that a core sends leaves its scratchpad. -/
theorem Panel.answerWith_spad (p : Panel) (n : Nat) (req h : Header) (units : List Codeword) :
    ((p.answerWith (.core n) req h units).core n).spad = (p.core n).spad := by
  unfold Panel.answerWith
  dsimp only [Issuer.place]
  split
  · rw [Panel.core_modCore]; rfl
  · rw [Panel.core_modCore]; rfl

theorem Core.spad_semOp (k : Core) (i mode v : Nat) : (k.semOp i mode v).spad = k.spad := by
  obtain ⟨x, hx⟩ | ⟨x, hx⟩ := k.semOp_cases i mode v
  · rw [hx]; rfl
  · rw [hx]; rfl

theorem Core.spad_reduceEnd (k : Core) (w : At) (h : Header) (es : List StageEntry) : (k.reduceEnd w h es).spad = k.spad := by
  unfold Core.reduceEnd
  split
  · split_ifs
    · exact Core.spad_semOp ..
    · rfl
  · rw [Core.logErr_spad, Core.bump_spad]

theorem Panel.finish_none {p : Panel} {n pid : Nat} (h : (p.core n).finished pid = none) : p.finish n pid = p := by
  simp only [Panel.finish, h]

/-- A packet whose rows have all been performed takes its entries out of staging, whatever it is answered. -/
theorem Panel.finish_some {p : Panel} {n pid : Nat} {es : List StageEntry} (h : (p.core n).finished pid = some es) :
    ((p.finish n pid).core n).spad =
      { (p.core n).spad with staging := (p.core n).spad.staging.filter (·.pid ≠ pid) } := by
  have hset : ∀ k : Core, ((p.setCore n k).core n).spad = k.spad := fun k => by rw [Panel.core_setCore]
  simp only [Panel.finish, h]
  cases es with
  | nil => exact hset _
  | cons e es =>
    dsimp only
    split_ifs
    · rw [Panel.core_modCore, Core.spad_reduceEnd, hset]
    · exact (Panel.answerWith_spad ..).trans (hset _)
    · exact (Panel.answerWith_spad ..).trans (hset _)
    · exact (Panel.answerWith_spad ..).trans (hset _)

/-- Answering a packet changes staging alone, and adds nothing to it. -/
theorem Panel.finish_spad (p : Panel) (n pid : Nat) :
    ∃ staging, ((p.finish n pid).core n).spad = { (p.core n).spad with staging := staging } ∧
      staging ⊆ (p.core n).spad.staging := by
  cases h : (p.core n).finished pid with
  | none => exact ⟨_, by rw [Panel.finish_none h], fun _ he => he⟩
  | some es => exact ⟨_, Panel.finish_some h, List.filter_subset_self _⟩

/-- A command that performs an entry of a bank leaves of the memory and the buffers what the entry's act leaves, and adds nothing
to staging. -/
theorem ingress_spad {s : State} {n bank : Nat} {pick : List StageEntry → Option StageEntry}
    {act : At → Nat → StageEntry → Core → Core} {e : StageEntry} {i : Instr} {k : Core}
    (hi : exec i s = s.ingress n bank pick act) (hl : s.panel.live = true) (hc : (s.panel.core n).clocked = true)
    (he : pick ((s.panel.core n).inBank bank) = some e) (hk : act (s.panel.at' n) s.panel.free e (s.panel.core n) = k) :
    ∃ t, exec i s = .next t ∧ (t.panel.core n).spad.mem = k.spad.mem ∧ (t.panel.core n).spad.acc = k.spad.acc ∧
      (t.panel.core n).spad.staging ⊆ k.spad.staging := by
  subst hk
  obtain ⟨staging, hspad, hsub⟩ := Panel.finish_spad
    (({ s.panel with free := s.panel.free + 1 } : Panel).setCore n (act (s.panel.at' n) s.panel.free e (s.panel.core n))) n e.pid
  rw [Panel.core_setCore] at hspad hsub
  refine ⟨_, hi.trans (atCore_clocked hl hc _), ?_⟩
  simp only [he, hspad, true_and]
  exact hsub

/-! ### What performing an entry leaves -/

@[simp] theorem Core.mem_modEntry (k : Core) (e : StageEntry) (f : StageEntry → StageEntry) :
    (k.modEntry e f).spad.mem = k.spad.mem := rfl
@[simp] theorem Core.acc_modEntry (k : Core) (e : StageEntry) (f : StageEntry → StageEntry) :
    (k.modEntry e f).spad.acc = k.spad.acc := rfl
@[simp] theorem Core.mem_doneEntry (k : Core) (e : StageEntry) (st : Nat) : (k.doneEntry e st).spad.mem = k.spad.mem := rfl
@[simp] theorem Core.acc_doneEntry (k : Core) (e : StageEntry) (st : Nat) : (k.doneEntry e st).spad.acc = k.spad.acc := rfl

theorem Core.spad_queueWb (k : Core) (row : Nat) : ∃ wbq, (k.queueWb row).spad = { k.spad with wbq := wbq } := by
  unfold Core.queueWb
  split_ifs
  · exact ⟨_, rfl⟩
  · exact ⟨_, rfl⟩
  · exact ⟨_, rfl⟩

/-- A read of codewords changes of the scratchpad the write-back queue alone. -/
theorem Core.spad_noteRead (k : Core) (w : At) (req n : Nat) (r : CwRead) :
    ∃ wbq, (k.noteRead w req n r).spad = { k.spad with wbq := wbq } := by
  cases r with
  | clean => exact ⟨_, rfl⟩
  | corrected =>
    obtain ⟨wbq, hwbq⟩ := Core.spad_queueWb ((k.bump Reg.SPAD_CORR_CNT).logErr w.dial w.site
      { cls := 0x01, level := 0, unit := req, status := St.corrected, addr := 32 * n }) (n / 8)
    exact ⟨wbq, hwbq.trans (by rw [Core.logErr_spad, Core.bump_spad])⟩
  | bad =>
    simp only [Core.noteRead, Core.logErr_spad]
    split_ifs
    · exact ⟨_, rfl⟩
    · exact ⟨_, rfl⟩

theorem Core.spad_readCws (w : At) (req : Nat) : ∀ (n m : Nat) (k : Core),
    ∃ wbq, (Core.readCws w req n m k).2.spad = { k.spad with wbq := wbq }
  | _, 0, _ => ⟨_, rfl⟩
  | n, m + 1, k => by
    obtain ⟨_, hnote⟩ := k.spad_noteRead w req n (k.spad.mem.cw n).read.1
    obtain ⟨wbq, hrest⟩ := Core.spad_readCws w req (n + 1) m (k.noteRead w req n (k.spad.mem.cw n).read.1)
    exact ⟨wbq, by rw [Core.readCws, hrest, hnote]⟩

theorem Core.spad_accReadRow (w : At) (req : Nat) : ∀ (m n : Nat) (inc : List MByte) (k : Core),
    ∃ wbq, (Core.accReadRow w req m n inc k).spad = { k.spad with wbq := wbq }
  | 0, _, _, _ => ⟨_, rfl⟩
  | m + 1, n, inc, k => by
    rw [Core.accReadRow]
    split_ifs
    · exact Core.spad_accReadRow w req m (n + 1) (inc.drop 32) k
    · obtain ⟨_, hnote⟩ := k.spad_noteRead w req n (k.spad.mem.cw n).read.1
      obtain ⟨wbq, hrest⟩ := Core.spad_accReadRow w req m (n + 1) (inc.drop 32) (k.noteRead w req n (k.spad.mem.cw n).read.1)
      exact ⟨wbq, by rw [hrest, hnote]⟩

section
variable {k : Core} {e : StageEntry} (hcap : k.inCapacity e.row = true)
include hcap

theorem Core.mem_doWrite (w : At) :
    (k.doWrite w e).spad.mem = (Core.writeCws w Own.dmaIn 8 (8 * e.row) e.bytes k).2.spad.mem := by
  simp only [Core.doWrite, if_pos hcap, Core.mem_doneEntry, Core.mem_wrote]

theorem Core.mem_doRead (w : At) (base : Nat) : (k.doRead w base e).spad.mem = k.spad.mem := by
  simp only [Core.doRead, if_pos hcap, Core.mem_modEntry]
  exact (Core.accessed_readCws ..).mem_eq

/-- After its read, an entry of staging has a status. -/
theorem Core.status_doRead (w : At) (base : Nat) {y : StageEntry} (hy : y ∈ (k.doRead w base e).spad.staging)
    (hpid : y.pid = e.pid) (hrow : y.row = e.row) : y.status.isSome = true := by
  simp only [Core.doRead, if_pos hcap, Core.modEntry] at hy
  obtain ⟨x, -, rfl⟩ := List.mem_map.1 hy
  split_ifs at hpid hrow ⊢ with hx
  · rfl
  · exact absurd ⟨hpid, hrow⟩ hx

/-- The read turn copies the row into a buffer behind the others. -/
theorem Core.spad_doReadTurn (w : At) :
    (k.doReadTurn w e).spad.mem = k.spad.mem ∧
      (k.doReadTurn w e).spad.acc = k.spad.acc ++
        [{ bank := k.bankOf e.row, row := e.row, pid := e.pid, cws := k.spad.mem.cws (8 * e.row) 8 }] := by
  obtain ⟨wbq, hread⟩ := Core.spad_accReadRow w Own.dmaIn 8 (8 * e.row) e.bytes k
  have hbank : ∀ l : Core, l.spad = { k.spad with wbq := wbq } → l.bankOf e.row = k.bankOf e.row := fun l h => by
    unfold Core.bankOf Core.awakeN Core.groups
    rw [h]
  simp only [Core.doReadTurn, if_pos hcap, Core.mem_modEntry, Core.acc_modEntry, hbank _ hread, hread, and_self]

end

/-- A write of a row gives the buffers that hold it the row's codewords. -/
theorem Core.acc_wrote (k : Core) (row : Nat) :
    (k.wrote row).spad.acc =
      k.spad.acc.map fun b => if b.row = row then { b with cws := k.spad.mem.cws (8 * row) 8 } else b := by
  unfold Core.wrote
  dsimp only
  split_ifs
  · rfl
  · rfl

/-- A buffer after a write of a row is one of those before, for the same packet and row. -/
theorem Core.held_wrote (k : Core) (row : Nat) {y : AccBuf} (hy : y ∈ (k.wrote row).spad.acc) :
    ∃ x ∈ k.spad.acc, y.pid = x.pid ∧ y.row = x.row := by
  rw [Core.acc_wrote] at hy
  obtain ⟨x, hx, rfl⟩ := List.mem_map.1 hy
  refine ⟨x, hx, ?_⟩
  split_ifs
  · exact ⟨rfl, rfl⟩
  · exact ⟨rfl, rfl⟩

theorem Core.acc_accStoreRow (k : Core) (row type : Nat) (stored : List Codeword) (inc : List MByte) :
    (k.accStoreRow row type stored inc).2.spad.acc = k.spad.acc := by
  unfold Core.accStoreRow
  dsimp only
  split_ifs
  · rfl
  · rfl

/-- The write turn stores the buffer combined with the incoming bytes, and releases it. -/
theorem Core.spad_doWriteTurn {k : Core} {e : StageEntry} {b : AccBuf} (type : Nat)
    (hb : (k.spad.acc.find? fun b => b.pid == e.pid && b.row == e.row) = some b) :
    (k.doWriteTurn e type).spad.mem = k.spad.mem.setCws (8 * e.row) (accRow type b.cws e.bytes).1 ∧
      ∀ y ∈ (k.doWriteTurn e type).spad.acc, ¬ (y.pid = e.pid ∧ y.row = e.row) := by
  simp only [Core.doWriteTurn, hb, Core.mem_doneEntry, Core.mem_wrote, Core.acc_doneEntry]
  refine ⟨(Core.accessed_accStoreRow ..).mem_eq, fun y hy hmine => ?_⟩
  obtain ⟨x, hx, hpid, hrow⟩ := Core.held_wrote _ _ hy
  rw [Core.acc_accStoreRow] at hx
  obtain ⟨-, hother⟩ := List.mem_filter.1 hx
  simp [← hpid, ← hrow, hmine] at hother

theorem stagedRowsArePerformed : Completion.StagedRowsArePerformed := by
  refine ⟨fun s n bank e es hl hc hbank hkind hcap => ?_, fun s n bank e es hl hc hbank hkind hcap => ?_,
    fun s n bank e hl hc hturn hcap => ?_, fun s n bank e es type b hl hc hbank hkind hturned hb => ?_⟩
  · obtain ⟨t, hexec, hmem, -⟩ := ingress_spad (show exec (.ingressWrite n bank) s = execIngressWrite n bank s from rfl)
      hl hc (e := e) (by rw [hbank]; exact if_pos hkind) rfl
    rw [Core.mem_doWrite hcap] at hmem
    refine ⟨t, hexec, fun i b q hi hb => ?_, fun a ha => ?_⟩
    · rw [hmem]
      refine Core.byte_writeCws_written _ _ _ (b, q) 8 (8 * e.row) e.bytes _ (by omega) (by omega) ?_
      rw [show 256 * e.row + i - 32 * (8 * e.row) = i by omega, List.getD_eq_getElem?_getD, hb]
      rfl
    · rw [hmem]
      exact Core.byte_writeCws_kept _ _ a 8 (8 * e.row) e.bytes _ fun c _ _ _ => by omega
  · obtain ⟨t, hexec, hmem, -, hsub⟩ := ingress_spad (show exec (.ingressRead n bank) s = execIngressRead n bank s from rfl)
      hl hc (e := e) (by rw [hbank]; exact if_pos hkind) rfl
    exact ⟨t, hexec, hmem.trans (Core.mem_doRead hcap ..), fun y hy => Core.status_doRead hcap _ _ (hsub hy)⟩
  · obtain ⟨t, hexec, hmem, hacc, -⟩ := ingress_spad (show exec (.accReadTurn n bank) s = execAccReadTurn n bank s from rfl)
      hl hc hturn rfl
    obtain ⟨hmem', hacc'⟩ := Core.spad_doReadTurn hcap (s.panel.at' n)
    exact ⟨t, hexec, hmem.trans hmem', hacc.trans hacc'⟩
  · obtain ⟨t, hexec, hmem, hacc, -⟩ := ingress_spad (show exec (.accWriteTurn n bank) s = execAccWriteTurn n bank s from rfl)
      hl hc (e := e) (k := (s.panel.core n).doWriteTurn e type) (by rw [hbank]; exact if_pos hturned) (by rw [hkind])
    obtain ⟨hmem', hacc'⟩ := Core.spad_doWriteTurn type hb
    exact ⟨t, hexec, hmem.trans hmem', fun y hy => hacc' y (hacc ▸ hy)⟩

end Sys2Proof.Machine
end

section
/-! PROOFS. Reshape and scrubbing (R172, R174, R176, R178): what a drain that is late empties, what the patrol and a write-back leave;
from these the obligation O9. -/

namespace Sys2Proof.Machine

/-! ### Reshape (R172) -/

theorem landsAs_grpPwr : LandsAs Reg.SPAD_GRP_PWR 4 fun p v k => k.grpPwrWrite p.dial v :=
  ⟨_, rfl, nofun, nofun, fun _ _ _ => rfl⟩

theorem Core.grpPwrWrite_starts {k : Core} {v : W64} (dial : Nat) (h0 : v.toNat % 65536 ≠ 0)
    (hne : v.toNat % 65536 ≠ k.rd Reg.SPAD_GRP_PWR) (hs : k.seq.state = .idle ∨ k.seq.state = .test)
    (hr : k.spad.reshape = none) :
    (k.grpPwrWrite dial v).rd Reg.SPAD_GRP_PWR = v.toNat % 65536 ∧
      (k.grpPwrWrite dial v).spad.reshape = some { mask := v.toNat % 65536, since := dial } := by
  have hstart : (k.seq.state = .idle ∨ k.seq.state = .test) ∧ k.spad.reshape.isNone = true := ⟨hs, by rw [hr]; rfl⟩
  have hlt : v.toNat % 65536 < 2 ^ 64 := by omega
  simp only [Core.grpPwrWrite, if_neg h0, if_neg hne, if_pos hstart, and_true]
  exact (Core.rd_wr_same ..).trans (Nat.mod_eq_of_lt hlt)

theorem reshape_completes (s : State) (who : Requester) (n : Site) (v : W64)
    (h : s.panel.granted who (.core n) Reg.SPAD_GRP_PWR = true) (h0 : v.toNat % 65536 ≠ 0)
    (hne : v.toNat % 65536 ≠ (s.panel.core n).rd Reg.SPAD_GRP_PWR)
    (hs : (s.panel.core n).seq.state = .idle ∨ (s.panel.core n).seq.state = .test)
    (hr : (s.panel.core n).spad.reshape = none) :
    ∃ t, exec (.reshape who n v) s = .next t ∧ t.panel.out = .answer who 0 St.done :: s.panel.out ∧
      (t.panel.core n).rd Reg.SPAD_GRP_PWR = v.toNat % 65536 ∧
      (t.panel.core n).spad.reshape = some { mask := v.toNat % 65536, since := s.panel.dial } := by
  obtain ⟨t, hexec, hout, hcore⟩ := landsAs_grpPwr.completes (i := .reshape who n v) (v := v) h rfl
  refine ⟨t, hexec, hout, ?_⟩
  rw [hcore]
  exact Core.grpPwrWrite_starts _ h0 hne hs hr

/-- Where every row of staging has been performed, answering a packet takes its rows out of staging. -/
theorem Panel.finish_performed {p : Panel} {n : Nat} (h : ∀ e ∈ (p.core n).spad.staging, e.status.isSome = true) (pid : Nat) :
    ((p.finish n pid).core n).spad =
      { (p.core n).spad with staging := (p.core n).spad.staging.filter (·.pid ≠ pid) } := by
  cases hf : (p.core n).finished pid with
  | some es => exact Panel.finish_some hf
  | none =>
    have hnone : (p.core n).spad.staging.filter (·.pid = pid) = [] := by
      by_contra hne
      have hall : ((p.core n).spad.staging.filter (·.pid = pid)).all (·.status.isSome) = true :=
        List.all_eq_true.2 fun e he => h e (List.mem_of_mem_filter he)
      simp only [Core.finished, if_pos (And.intro hne hall)] at hf
      cases hf
    have hkeep : (p.core n).spad.staging.filter (·.pid ≠ pid) = (p.core n).spad.staging :=
      List.filter_eq_self.2 fun e he => by simpa using List.filter_eq_nil_iff.1 hnone e he
    rw [Panel.finish_none hf, hkeep]

/-- The packets of staging, all performed, answered one after another: staging is empty, the buffers as they were. -/
theorem Panel.finishAll_performed (n : Nat) : ∀ (pids : List Nat) (p : Panel),
    (∀ e ∈ (p.core n).spad.staging, e.status.isSome = true ∧ e.pid ∈ pids) →
    ((Panel.finishAll n pids p).core n).spad.staging = [] ∧
      ((Panel.finishAll n pids p).core n).spad.acc = (p.core n).spad.acc
  | [], p, h => ⟨List.eq_nil_iff_forall_not_mem.2 fun e he => absurd (h e he).2 List.not_mem_nil, rfl⟩
  | pid :: pids, p, h => by
    have hspad := Panel.finish_performed (fun e he => (h e he).1) pid
    obtain ⟨hstaging, hacc⟩ := Panel.finishAll_performed n pids (p.finish n pid) fun e he => by
      rw [hspad] at he
      obtain ⟨hin, hne⟩ := List.mem_filter.1 he
      exact ⟨(h e hin).1, (List.mem_cons.1 (h e hin).2).resolve_left (of_decide_eq_true hne)⟩
    exact ⟨hstaging, hacc.trans (by rw [hspad])⟩

/-- A drain that is late gives every row of staging a status and keeps the packets that they belong to. -/
theorem Core.staging_drainLate (k : Core) {e : StageEntry} (he : e ∈ k.drainLate.spad.staging) :
    e.status.isSome = true ∧ e.pid ∈ (k.spad.staging.map (·.pid)).dedup := by
  obtain ⟨x, hx, rfl⟩ := List.mem_map.1 he
  have hpid : x.pid ∈ (k.spad.staging.map (·.pid)).dedup := List.mem_dedup.2 (List.mem_map_of_mem hx)
  split_ifs with hnone
  · exact ⟨rfl, hpid⟩
  · exact ⟨Option.isSome_iff_ne_none.2 (mt Option.isNone_iff_eq_none.2 hnone), hpid⟩

theorem reshapeDrainTimeout_completes (s : State) (n : Site) (r : Reshape) (hl : s.panel.live = true)
    (hc : (s.panel.core n).clocked = true) (hr : (s.panel.core n).spad.reshape = some r) (hs : r.settled = false)
    (hlate : r.since + 10000 ≤ s.panel.dial) (hne : (s.panel.core n).spad.staging ≠ []) :
    ∃ t, exec (.reshapeDrainTimeout n) s = .next t ∧ (t.panel.core n).spad.staging = [] ∧ (t.panel.core n).spad.acc = [] := by
  change ∃ t, execReshapeDrainTimeout n s = .next t ∧ _
  refine ⟨_, atCore_clocked hl hc _, ?_⟩
  have hdue : s.panel.since r.since (10 * us) = true := decide_eq_true hlate
  simp only [hr, hs, hdue, hne, ne_eq, Bool.false_eq_true, not_false_eq_true, and_self, if_true]
  obtain ⟨hstaging, hacc⟩ := Panel.finishAll_performed n (((s.panel.core n).spad.staging.map (·.pid)).dedup)
    (s.panel.setCore n (s.panel.core n).drainLate) fun e he => by
      rw [Panel.core_setCore] at he
      exact Core.staging_drainLate _ he
  exact ⟨hstaging, hacc.trans (by rw [Panel.core_setCore]; rfl)⟩

theorem Mem.byte_empty (a : Nat) : ({} : Mem).byte a = 0 := rfl

theorem reshapeCompletes : Completion.ReshapeCompletes := by
  refine ⟨reshape_completes, reshapeDrainTimeout_completes, fun s n r hl hp hr hs hempty => ?_, fun s n r hl hc hr hs => ?_⟩
  · refine ⟨_, onSite_powered hl hp Core.reshapeSettle, ?_⟩
    simp only [Panel.core_modCore, Core.reshapeSettle, hr, hs, hempty, ne_eq, not_true_eq_false, Bool.false_eq_true, or_self,
      if_false, Mem.byte_empty, implies_true, and_self]
  · refine ⟨_, onCore_clocked hl hc Core.reshapeEnd, ?_⟩
    simp only [Panel.core_modCore, Core.reshapeEnd, hr, hs, if_true, and_self]

/-! ### Scrubbing (R174, R176, R178) -/

theorem mem_insertNat_self : ∀ (l : List Nat) (n : Nat), n ∈ insertNat l n
  | [], n => List.mem_singleton_self n
  | k :: l, n => by
    rw [insertNat]
    split_ifs with hlt heq
    · exact List.mem_cons_self
    · exact heq ▸ List.mem_cons_self
    · exact List.mem_cons_of_mem _ (mem_insertNat_self l n)

/-- Where the patrol stands once it has read a bank: the bank is noted, or the next bank row begins. -/
theorem Core.patrol_reads {k : Core} {w : At} {bank row : Nat} (hrow : k.rowAt bank k.spad.patrolRow = some row)
    (hon : k.patrolOn = true) (hbank : bank ∉ k.spad.patrolDone) :
    (k.patrol w bank).spad.mem = k.spad.mem ∧
      (bank ∈ (k.patrol w bank).spad.patrolDone ∧ (k.patrol w bank).spad.patrolRow = k.spad.patrolRow ∨
        (k.patrol w bank).spad.patrolDone = [] ∧
          (k.patrol w bank).spad.patrolRow = if k.spad.patrolRow < 3583 then k.spad.patrolRow + 1 else 0) := by
  obtain ⟨wbq, hread⟩ := Core.spad_readCws w Own.scrub (8 * row) 8 k
  have hgo : ¬ (¬ k.patrolOn = true ∨ bank ∈ k.spad.patrolDone) := by simp [hon, hbank]
  simp only [Core.patrol, hrow, if_neg hgo, hread]
  split_ifs
  · exact ⟨rfl, .inl ⟨mem_insertNat_self .., rfl⟩⟩
  · exact ⟨rfl, .inl ⟨mem_insertNat_self .., rfl⟩⟩
  · exact ⟨rfl, .inr ⟨rfl, rfl⟩⟩
  · exact ⟨rfl, .inr ⟨rfl, rfl⟩⟩

/-- A codeword that reads corrected is rewritten as it reads; any other is kept. -/
theorem Codeword.rewritten_eq (c : Codeword) :
    c.rewritten = if c.read.1 = .corrected then Codeword.fresh c.read.2.data false else c := by
  unfold Codeword.rewritten
  obtain ⟨r, d⟩ := c.read
  cases r <;> rfl

theorem landsAs_spadErrClr : LandsAs Reg.SPAD_ERR_CLR 4 fun _ v k => k.spadErrClr v :=
  ⟨_, rfl, nofun, nofun, fun _ _ _ => rfl⟩

theorem spadErrClr_completes (s : State) (who : Requester) (n : Site) (v : W64)
    (h : s.panel.granted who (.core n) Reg.SPAD_ERR_CLR = true) :
    ∃ t, exec (.spadErrClr who n v) s = .next t ∧
      (t.panel.core n).rd Reg.SPAD_ERR_ADDR = if v.getLsbD 0 then 0 else (s.panel.core n).rd Reg.SPAD_ERR_ADDR := by
  obtain ⟨t, hexec, -, hcore⟩ := landsAs_spadErrClr.completes (i := .spadErrClr who n v) (v := v) h rfl
  refine ⟨t, hexec, ?_⟩
  rw [hcore, Core.spadErrClr]
  split_ifs
  · exact Core.rd_wr_same ..
  · rfl

theorem scrubbingCompletes : Completion.ScrubbingCompletes := by
  refine ⟨fun s n bank row hl hc hrow hon hbank => ?_, fun s n row rest hl hc hq => ?_, spadErrClr_completes⟩
  · change ∃ t, execScrubPatrol n bank s = .next t ∧ _
    refine ⟨_, atCore_clocked hl hc _, ?_⟩
    rw [Panel.core_setCore]
    exact Core.patrol_reads hrow hon hbank
  · refine ⟨_, onCore_clocked hl hc Core.writeBack, ?_⟩
    simp only [Panel.core_modCore, Core.writeBack, hq, funext Codeword.rewritten_eq, and_self]

/-- Settles O9: a row performed by what its act leaves, a late drain by the packets of staging in turn, the patrol by where it
stands. -/
theorem scratchpadWork : Obligations.ScratchpadWork := ⟨stagedRowsArePerformed, reshapeCompletes, scrubbingCompletes⟩

end Sys2Proof.Machine
end

section
/-! PROOFS. The links of the mesh (R190, R191, R196): that a router's discards leave every site's power and links, and from this what a
link that goes down and a lane repair leave. -/

namespace Sys2Proof.Machine

/-! ### What every core keeps -/

/-- A part of a core, read at every site. -/
def Panel.ofCores {β : Type} (g : Core → β) (p : Panel) (m : Nat) : β := g (p.core m)

theorem ofCores_modCore {β : Type} {g : Core → β} {f : Core → Core} (hf : ∀ k, g (f k) = g k) (p : Panel) (n : Nat) :
    (p.modCore n f).ofCores g = p.ofCores g := by
  funext m
  by_cases hm : m = n
  · rw [hm, Panel.ofCores, Panel.core_modCore, hf, Panel.ofCores]
  · rw [Panel.ofCores, Panel.core_modCore_other _ _ hm, Panel.ofCores]

/-- Whether a site is powered, and its router's links: what a router's discards leave. -/
def Core.linkage (k : Core) : Bool × (Nat → LinkState) := (k.powered, k.link)

section
variable {p q : Panel} (h : q.ofCores Core.linkage = p.ofCores Core.linkage) (m : Nat)
include h

theorem powered_of_linkage : q.powered m = p.powered m := congrArg Prod.fst (congrFun h m)
theorem link_of_linkage : (q.core m).link = (p.core m).link := congrArg Prod.snd (congrFun h m)

end

theorem Core.linkage_pushIn (k : Core) (i v : Nat) (x : Packet) : (k.pushIn i v x).linkage = k.linkage := by
  have hp : ∀ k : Core, (k.throttle v).powered = k.powered := fun k => by unfold Core.throttle; split_ifs <;> rfl
  refine Prod.ext ?_ (funext (Core.pushIn_link k i v x))
  unfold Core.pushIn
  dsimp only [Core.linkage]
  split_ifs
  · rfl
  · rw [hp]

theorem Core.linkage_logErr (k : Core) (dial n : Nat) (i : LogItem) : (k.logErr dial n i).linkage = k.linkage := by
  unfold Core.linkage Core.link
  rw [Core.logErr_powered, Core.logErr_rt]

theorem linkage_answerWith (p : Panel) (i : Issuer) (req h : Header) (units : List Codeword) :
    (p.answerWith i req h units).ofCores Core.linkage = p.ofCores Core.linkage := by
  unfold Panel.answerWith
  dsimp only
  split
  · exact ofCores_modCore (f := fun k => k.bump _) (fun _ => rfl) p _
  · exact ofCores_modCore (fun k => k.linkage_pushIn ..) p _

theorem linkage_refuse (p : Panel) (i : Issuer) (x : Packet) (st : Nat) :
    (p.refuse i x st).ofCores Core.linkage = p.ofCores Core.linkage := by
  unfold Panel.refuse
  split_ifs
  · exact linkage_answerWith ..
  · exact linkage_answerWith ..
  · rfl

theorem linkage_discard (p : Panel) (n : Nat) (x : Packet) :
    (p.discard n x).ofCores Core.linkage = p.ofCores Core.linkage := by
  have hcount := ofCores_modCore (g := Core.linkage) (f := fun k => k.bump Reg.MESH_DROP_CNT) (fun _ => rfl) p n
  unfold Panel.discard
  dsimp only
  split_ifs
  · exact hcount
  · exact (linkage_refuse ..).trans hcount

theorem linkage_purgeBuf (n i v : Nat) : ∀ (l : List Packet) (p : Panel),
    (Panel.purgeBuf n i v l p).2.ofCores Core.linkage = p.ofCores Core.linkage
  | [], _ => rfl
  | x :: l, p => by
    unfold Panel.purgeBuf
    split_ifs
    · exact (linkage_purgeBuf n i v l _).trans (linkage_discard ..)
    · exact linkage_purgeBuf n i v l p

theorem linkage_setBuf (p : Panel) (n key : Nat) (l : Core → List Packet) :
    (p.modCore n fun k => { k with rt := { k.rt with inq := put k.rt.inq key (l k) } }).ofCores Core.linkage =
      p.ofCores Core.linkage :=
  ofCores_modCore (f := fun k => { k with rt := { k.rt with inq := put k.rt.inq key (l k) } }) (fun _ => rfl) p n

/-- The discards of a router leave every site's power and links. -/
theorem linkage_purge (p : Panel) (n : Nat) : (p.purge n).ofCores Core.linkage = p.ofCores Core.linkage := by
  refine foldl_keeps (fun p x => ?_) _ p
  exact (linkage_setBuf ..).trans ((linkage_purgeBuf ..).trans (linkage_setBuf ..))

/-! ### Links that go down (R190, R196) -/

/-- One end of a link down, with its record and its discards, as `Panel.linkDown` takes each end. -/
def Panel.endDown (p : Panel) (n port : Nat) : Panel :=
  ((p.modCore n fun k => k.linkEnd port).logCore n { cls := 0x08, level := 3, unit := port }).purge n

theorem linkage_endDown (p : Panel) (n port : Nat) :
    (p.endDown n port).ofCores Core.linkage = (p.modCore n fun k => k.linkEnd port).ofCores Core.linkage :=
  (linkage_purge ..).trans (ofCores_modCore (fun k => k.linkage_logErr ..) _ _)

theorem powered_endDown (p : Panel) (n port m : Nat) : (p.endDown n port).powered m = p.powered m := by
  have hkeep : (p.modCore n fun k => k.linkEnd port).ofCores Core.powered = p.ofCores Core.powered :=
    ofCores_modCore (f := fun k => k.linkEnd port) (fun _ => rfl) p n
  exact (powered_of_linkage (linkage_endDown p n port) m).trans (congrFun hkeep m)

theorem link_endDown (p : Panel) (n port m : Nat) :
    ((p.endDown n port).core m).link = ((p.modCore n fun k => k.linkEnd port).core m).link :=
  link_of_linkage (linkage_endDown p n port) m

theorem state_endDown_same (p : Panel) (n port : Nat) : (((p.endDown n port).core n).link port).state = 3 := by
  rw [link_endDown, Panel.core_modCore, Core.linkEnd, Core.link_setLink]

/-- A link that is down stays down when another end goes down. -/
theorem state_endDown_down (p : Panel) (n port : Nat) {m q : Nat} (h : ((p.core m).link q).state = 3) :
    (((p.endDown n port).core m).link q).state = 3 := by
  rw [link_endDown]
  by_cases hm : m = n
  · subst hm
    by_cases hq : q = port
    · rw [hq, Panel.core_modCore, Core.linkEnd, Core.link_setLink]
    · rw [Panel.core_modCore, Core.linkEnd, Core.link_setLink_other _ _ hq, h]
  · rw [Panel.core_modCore_other _ _ hm, h]

theorem Panel.linkDown_far {p : Panel} {n port m : Nat} (h6 : port < 6) (hm : portSite n port = some m)
    (hp : p.powered m = true) : p.linkDown n port = (p.endDown n port).endDown m (farPort port) := by
  have hpow : (p.endDown n port).powered m = true := (powered_endDown ..).trans hp
  unfold Panel.linkDown
  simp only [hm]
  exact if_pos ⟨h6, hpow⟩

theorem Panel.linkDown_cases (p : Panel) (n port : Nat) :
    p.linkDown n port = p.endDown n port ∨ ∃ m q, p.linkDown n port = (p.endDown n port).endDown m q := by
  unfold Panel.linkDown
  dsimp only
  split
  · exact .inl rfl
  next m _ =>
    split_ifs
    · exact .inr ⟨m, _, rfl⟩
    · exact .inl rfl

theorem state_linkDown (p : Panel) (n port : Nat) : (((p.linkDown n port).core n).link port).state = 3 := by
  have hdown := state_endDown_same p n port
  obtain h | ⟨m, q, h⟩ := p.linkDown_cases n port
  · rw [h, hdown]
  · rw [h, state_endDown_down _ _ _ hdown]

theorem linkDown_completes (s : State) (n : Site) (port : Fin 8) (hl : s.panel.live = true)
    (hp : (s.panel.core n).powered = true) (hup : (s.panel.core n).linkUp port = true) :
    ∃ t, exec (.linkDown n port) s = .next t ∧ ((t.panel.core n).link port).state = 3 ∧
      ∀ m, port.val < 6 → portSite n port = some m → s.panel.powered m = true →
        ((t.panel.core m).link (farPort port)).state = 3 := by
  change ∃ t, execLinkDown n port s = .next t ∧ _
  refine ⟨_, atSite_powered hl hp _, ?_⟩
  simp only [if_pos hup]
  refine ⟨state_linkDown .., fun m h6 hm hpm => ?_⟩
  rw [Panel.linkDown_far h6 hm hpm]
  exact state_endDown_same ..

/-! ### Lane repair (R191) -/

theorem laneRepair_completes (s : State) (n : Site) (port : Fin 8) (module : Fin 4) (lane : Nat) (hl : s.panel.live = true)
    (hp : (s.panel.core n).powered = true) (hc : (s.panel.core n).carries port = true)
    (hm : module.val < ((s.panel.core n).link port).modules) :
    ∃ t, exec (.laneRepair n port module lane) s = .next t ∧ (t.panel.core n).carries port = false ∧
      (t.panel.core n).link port = { (s.panel.core n).link port with held := some (module.val, lane) } := by
  change ∃ t, execLaneRepair n port module lane s = .next t ∧ _
  refine ⟨_, onSite_powered hl hp _, ?_⟩
  rw [Panel.core_modCore]
  simp only [if_pos (And.intro hc hm)]
  exact ⟨by rw [Core.carries, Core.link_setLink]; exact Bool.and_false _, Core.link_setLink ..⟩

section
variable (s : State) (n : Site) (port : Fin 8) (module : Fin 4) (lane : Nat) (hl : s.panel.live = true)
  (hp : (s.panel.core n).powered = true) (hheld : ((s.panel.core n).link port).held = some (module.val, lane))
include hl hp hheld

theorem laneRepairDone_repaired :
    ∃ t, exec (.laneRepairDone n port module true) s = .next t ∧
      (t.panel.core n).link port = { (s.panel.core n).link port with held := none } ∧
      (t.panel.core n).rd Reg.MESH_LANE_REPAIR_CNT = min cntTop ((s.panel.core n).rd Reg.MESH_LANE_REPAIR_CNT + 1) := by
  change ∃ t, execLaneRepairDone n port module true s = .next t ∧ _
  refine ⟨_, atSite_powered hl hp _, ?_⟩
  simp only [hheld, ne_eq, not_true_eq_false, if_false, if_true, Panel.core_setCore]
  refine ⟨Core.link_setLink .., ?_⟩
  rw [Core.rd_bump_same]
  exact congrArg (fun c => min cntTop (c + 1)) (Core.logErr_rd _ _ _ _ (by decide))

theorem laneRepairDone_degraded (hm : 1 < ((s.panel.core n).link port).modules) :
    ∃ t, exec (.laneRepairDone n port module false) s = .next t ∧
      (t.panel.core n).link port = { (s.panel.core n).link port with
        held := none, modules := ((s.panel.core n).link port).modules - 1, state := 2 } := by
  change ∃ t, execLaneRepairDone n port module false s = .next t ∧ _
  refine ⟨_, atSite_powered hl hp _, ?_⟩
  simp only [hheld, ne_eq, not_true_eq_false, if_false, Bool.false_eq_true, if_neg (not_le.2 hm), Panel.core_setCore,
    Core.link_setLink]

theorem laneRepairDone_lastModule (hm : ((s.panel.core n).link port).modules ≤ 1) :
    ∃ t, exec (.laneRepairDone n port module false) s = .next t ∧ ((t.panel.core n).link port).state = 3 := by
  change ∃ t, execLaneRepairDone n port module false s = .next t ∧ _
  refine ⟨_, atSite_powered hl hp _, ?_⟩
  simp only [hheld, ne_eq, not_true_eq_false, if_false, Bool.false_eq_true, if_pos hm]
  exact state_linkDown ..

end

end Sys2Proof.Machine
end

section
/-! PROOFS. Route maps in service (R192, R195, R196): the values that a map holds once it is written, and that the fault of a partition
changes no core, so that rewriting the maps leaves these values. -/

namespace Sys2Proof.Machine

/-! ### Route maps (R192, R195) -/

/-- The construction of R195 rests on the fuses, the map of sites and which sites are powered. -/
theorem mapValue_congr {p q : Panel} (hf : q.fuses = p.fuses) (hs : q.sites = p.sites) (hp : ∀ m, q.powered m = p.powered m)
    (n i : Nat) : q.mapValue n i = p.mapValue n i := by
  have hpow : q.powered = p.powered := funext hp
  have hclear : q.columnClear = p.columnClear := by unfold Panel.columnClear; rw [hpow]
  have hblocked : q.rowBlocked = p.rowBlocked := by unfold Panel.rowBlocked; rw [hpow]
  have hentry : q.mapEntry = p.mapEntry := by unfold Panel.mapEntry; rw [hpow, hclear, hblocked]
  have hsite : q.lsite = p.lsite := by unfold Panel.lsite Panel.site; rw [hs]
  unfold Panel.mapValue
  rw [hf, hsite, hentry]

/-- A core with the first registers of its map written. -/
def Core.putRoutes (value : Nat → Nat) (len : Nat) (k : Core) : Core :=
  (List.range len).foldl (fun k i => k.wr (Reg.MESH_RMAP + 4 * i) (value i)) k

theorem Core.putRoutes_succ (value : Nat → Nat) (len : Nat) (k : Core) :
    k.putRoutes value (len + 1) = (k.putRoutes value len).wr (Reg.MESH_RMAP + 4 * len) (value len) := by
  simp only [Core.putRoutes, List.range_succ, List.foldl_append, List.foldl_cons, List.foldl_nil]

theorem Core.powered_putRoutes (value : Nat → Nat) (len : Nat) (k : Core) : (k.putRoutes value len).powered = k.powered := by
  induction len with
  | zero => rfl
  | succ len ih => rw [Core.putRoutes_succ, Core.wr_powered, ih]

theorem Core.rd_putRoutes (value : Nat → Nat) (k : Core) {i len : Nat} (h : i < len) :
    (k.putRoutes value len).rd (Reg.MESH_RMAP + 4 * i) = value i % 2 ^ 64 := by
  induction len with
  | zero => exact absurd h (Nat.not_lt_zero i)
  | succ len ih =>
    rw [Core.putRoutes_succ]
    rcases Nat.lt_succ_iff_lt_or_eq.1 h with hlt | rfl
    · rw [Core.rd_wr_other _ _ (by omega), ih hlt]
    · exact Core.rd_wr_same ..

/-- A router whose map has been written. -/
def Core.setMapped (k : Core) : Core := { k with rt := { k.rt with mapped := true } }

@[simp] theorem Core.rd_setMapped (k : Core) (off : Nat) : k.setMapped.rd off = k.rd off := rfl
@[simp] theorem Core.powered_setMapped (k : Core) : k.setMapped.powered = k.powered := rfl

theorem writeMap_eq (p : Panel) (n : Nat) :
    p.writeMap n = p.modCore n fun k => (k.putRoutes (p.mapValue n) 390).setMapped := rfl

theorem rd_writeMap (p : Panel) (n : Nat) {i : Nat} (hi : i < 390) :
    ((p.writeMap n).core n).rd (Reg.MESH_RMAP + 4 * i) = p.mapValue n i % 2 ^ 64 := by
  rw [writeMap_eq, Panel.core_modCore, Core.rd_setMapped, Core.rd_putRoutes _ _ hi]

theorem mapValue_writeMap (p : Panel) (m n i : Nat) : (p.writeMap m).mapValue n i = p.mapValue n i := by
  have hkeep := ofCores_modCore (g := Core.powered) (f := fun k => (k.putRoutes (p.mapValue m) 390).setMapped)
    (fun k => by rw [Core.powered_setMapped, Core.powered_putRoutes]) p m
  rw [writeMap_eq]
  exact mapValue_congr (Panel.modCore_fuses ..) (Panel.modCore_sites ..) (fun j => congrFun hkeep j) n i

/-- Maps written one after another: a map that is among them, or that was written before, holds its values. -/
theorem rd_foldl_writeMap {n i : Nat} (hi : i < 390) : ∀ (l : List Nat) (p : Panel),
    (n ∈ l ∨ (p.core n).rd (Reg.MESH_RMAP + 4 * i) = p.mapValue n i % 2 ^ 64) →
      ((l.foldl Panel.writeMap p).core n).rd (Reg.MESH_RMAP + 4 * i) = p.mapValue n i % 2 ^ 64
  | [], _, h => h.resolve_left List.not_mem_nil
  | m :: l, p, h => by
    rw [List.foldl_cons, ← mapValue_writeMap p m]
    refine rd_foldl_writeMap hi l _ ?_
    by_cases hm : n = m
    · subst hm
      exact .inr (by rw [mapValue_writeMap, rd_writeMap p n hi])
    · refine h.imp (fun hin => (List.mem_cons.1 hin).resolve_left hm) fun hold => ?_
      rw [mapValue_writeMap, Panel.writeMap, Panel.core_modCore_other _ _ hm, hold]

theorem lsite_lt {p : Panel} {x y m : Nat} (h : p.lsite x y = some m) : m < 21 * y + 21 := by
  obtain ⟨c, hc, rfl⟩ := List.mem_map.1 (List.mem_of_find?_eq_some h)
  have := List.mem_range.1 hc
  unfold siteOf
  omega

theorem attPlace_lt : ∀ i < 70, (attPlace i).1 < 336 := by decide

/-- An entry of the map fits its register. -/
theorem mapEntry_lt (p : Panel) (rc rr : Nat) {dest : Nat} (h : dest < 2 ^ 20) : p.mapEntry rc rr dest < 2 ^ 64 := by
  have hc : siteC dest < 21 := Nat.mod_lt _ (by decide)
  have hr : siteR dest ≤ dest := Nat.div_le_self ..
  unfold Panel.mapEntry
  dsimp only
  split_ifs <;> omega

theorem mapValue_lt (p : Panel) (n : Nat) {i : Nat} (hi : i < 390) : p.mapValue n i < 2 ^ 64 := by
  unfold Panel.mapValue
  dsimp only
  split_ifs with h320 hmapped
  · split
    · decide
    next m hm =>
      have hy : i / p.fuses.lwidth ≤ i := Nat.div_le_self ..
      have hlt := lsite_lt hm
      exact mapEntry_lt p _ _ (by omega)
  · decide
  · have hlt := attPlace_lt (i - 320) (by omega)
    exact mapEntry_lt p _ _ (by omega)
  · decide

/-! ### What the fault of a partition keeps (R280, R454) -/

/-- The cores as listed, with the fuses that stand for the others. -/
def Panel.coreDies (p : Panel) : Sparse Core × Fuses := (p.cores, p.fuses)

theorem core_of_coreDies {p q : Panel} (h : q.coreDies = p.coreDies) (n : Nat) : q.core n = p.core n := by
  obtain ⟨hcores, hfuses⟩ := Prod.mk.inj h
  unfold Panel.core
  rw [hcores, hfuses]

theorem coreDies_congr {p q : Panel} (h : q.sansMessages = p.sansMessages) : q.coreDies = p.coreDies :=
  show q.sansMessages.coreDies = p.sansMessages.coreDies from congrArg Panel.coreDies h

theorem coreDies_crownAt_error {p q : Panel} {part ga n st : Nat} {writes : Bool}
    (h : p.crownAt part ga n writes = .error (st, q)) : q.coreDies = p.coreDies := by
  unfold Panel.crownAt at h
  split at h
  · cases h; rfl
  · dsimp only at h
    split_ifs at h
    · cases h; rfl
    · cases h; rfl
    · split at h
      · cases h; rfl
      · cases h
  · cases h; rfl

theorem coreDies_crownWrite (p : Panel) (part ga : Nat) (bs : List Byte) :
    (p.crownWrite part ga bs).2.coreDies = p.coreDies := by
  unfold Panel.crownWrite
  dsimp only
  refine List.foldlRecOn (motive := fun (acc : Nat × List Byte × Panel) => acc.2.2.coreDies = p.coreDies) _ _ rfl
    fun acc hacc x _ => ?_
  split
  next st q h => exact (coreDies_crownAt_error h).trans hacc
  · exact hacc

theorem coreDies_svcWrite (p : Panel) (off : Nat) (bs : List Byte) : (p.svcWrite off bs).coreDies = p.coreDies := by
  unfold Panel.svcWrite
  dsimp only
  split_ifs
  · exact coreDies_crownWrite ..
  · rfl

theorem coreDies_mirrorOut (p : Panel) (c : Crown) (old new : CtxEntry) (commit : Option Nat) :
    (p.mirrorOut c old new commit).coreDies = p.coreDies := by
  unfold Panel.mirrorOut
  split
  · rfl
  · exact foldl_keeps (fun _ _ => coreDies_congr (sansMessages_groupSend ..)) _ p

theorem coreDies_setEnt (p : Panel) (slot : Nat) (e : CtxEntry) (commit : Option Nat) :
    (p.setEnt slot e commit).coreDies = p.coreDies := by
  have hstore : (p.storeEnt slot e).coreDies = p.coreDies := foldl_keeps (fun p c => by split_ifs <;> rfl) _ p
  exact (coreDies_mirrorOut ..).trans hstore

theorem coreDies_setHeld (p : Panel) (j : Nat) (e : Option CtxEntry) : (p.setHeld j e).coreDies = p.coreDies := by
  cases e with
  | none => rfl
  | some e => exact coreDies_svcWrite ..

theorem coreDies_setCtx (p : Panel) (w : Place) (e : CtxEntry) : (p.setCtx w e).coreDies = p.coreDies := by
  cases w with
  | slot n => exact coreDies_setEnt ..
  | held j => exact coreDies_setHeld ..

theorem coreDies_commitRecs (p : Panel) (c : Crown) (e : CtxEntry) (recs : List (List Byte)) (standby : Nat) :
    (p.commitRecs c e recs standby).coreDies = p.coreDies := by
  unfold Panel.commitRecs
  split_ifs
  · exact foldl_keeps (fun _ _ => coreDies_congr (sansMessages_deliver ..)) _ p
  · rfl

theorem coreDies_finishCtx (p : Panel) (w : Place) (e : CtxEntry) (reason status : Nat) (lost : Bool) :
    (p.finishCtx w e reason status lost).coreDies = p.coreDies := by
  unfold Panel.finishCtx
  extract_lets bs c q
  have hq : q.coreDies = p.coreDies := by
    unfold q
    split_ifs
    · rfl
    · exact coreDies_commitRecs ..
    · exact coreDies_congr (sansMessages_deliver ..)
  cases w with
  | slot n => exact (coreDies_setEnt ..).trans hq
  | held j => exact (coreDies_svcWrite ..).trans hq

theorem coreDies_endCtx (p : Panel) (w : Place) (e : CtxEntry) (reason status : Nat) (lost : Bool) :
    (p.endCtx w e reason status lost).coreDies = p.coreDies := by
  unfold Panel.endCtx
  split_ifs
  · rfl
  · exact coreDies_setCtx ..
  · exact coreDies_setCtx ..
  · exact coreDies_finishCtx ..

theorem coreDies_writePages (p : Panel) (e : CtxEntry) (d : ModelDesc) (k : KvPages) (js : List Nat) :
    (p.writePages e d k js).2.coreDies = p.coreDies := by
  unfold Panel.writePages
  refine List.foldlRecOn (motive := fun (acc : Nat × Panel) => acc.2.coreDies = p.coreDies) _ _ rfl fun acc hacc j _ => ?_
  split
  · exact hacc
  · exact (coreDies_crownWrite ..).trans hacc

theorem coreDies_dropFrames (p : Panel) (slot : Nat) (e : CtxEntry) : (p.dropFrames slot e).coreDies = p.coreDies := by
  refine (coreDies_setEnt ..).trans ?_
  split
  · exact coreDies_writePages ..
  · rfl

theorem coreDies_unseat (p : Panel) (n : Nat) (e : CtxEntry) : (p.unseat n e).coreDies = p.coreDies :=
  (coreDies_setEnt ..).trans (coreDies_dropFrames p n e)

theorem coreDies_boundary (p : Panel) (handle : Nat) : (p.boundary handle).coreDies = p.coreDies := by
  unfold Panel.boundary
  split
  · rfl
  · split
    · rfl
    · split
      · exact coreDies_finishCtx ..
      · split
        · exact coreDies_finishCtx ..
        · rfl

theorem coreDies_retire (p : Panel) (c : Crown) (x : Step) : (p.retire c x).coreDies = p.coreDies :=
  foldl_keeps (fun _ _ => coreDies_boundary ..) _ (p.modCrown c fun k => { k with steps := drop k.steps x.num })

theorem coreDies_abandon (p : Panel) (c : Crown) (x : Step) : (p.abandon c x).coreDies = p.coreDies := by
  refine (coreDies_retire ..).trans (foldl_keeps (fun p b => ?_) _ p)
  split
  · exact coreDies_unseat ..
  · rfl

theorem coreDies_abandonPart (p : Panel) (part : Nat) : (p.abandonPart part).coreDies = p.coreDies := by
  refine (foldl_keeps (fun p c => foldl_keeps (fun p x => ?_) _ p) _ _).trans
    (foldl_keeps (fun _ _ => coreDies_unseat ..) _ p)
  split_ifs
  · exact coreDies_abandon ..
  · rfl

theorem coreDies_holdModels (p : Panel) (part : Nat) (stop : Bool) : (p.holdModels part stop).coreDies = p.coreDies := rfl

/-- The fault of a partition changes no core. -/
theorem coreDies_faultPart (p : Panel) (part cause : Nat) : (p.faultPart part cause).coreDies = p.coreDies := by
  unfold Panel.faultPart
  extract_lets c p₁ p₂ p₃
  have habandoned : p₂.coreDies = p.coreDies := coreDies_abandonPart ..
  have hended : p₃.coreDies = p₂.coreDies := foldl_keeps (fun _ _ => coreDies_endCtx ..) _ p₂
  exact (coreDies_holdModels ..).trans (hended.trans habandoned)

/-- Where maps are in use, rewriting them leaves the cores that writing them leaves. -/
theorem coreDies_rewriteMaps {p : Panel} (h : p.boot.mapped = true) : p.rewriteMaps.coreDies = p.writeMaps.coreDies := by
  unfold Panel.rewriteMaps
  rw [if_neg (not_not.2 h)]
  generalize p.writeMaps = q
  refine foldl_keeps (fun p part => ?_) _ q
  dsimp only
  split_ifs
  · rfl
  · exact coreDies_faultPart ..
  · rfl

theorem routeMapRewrite_completes (s : State) (hl : s.panel.live = true) (hm : s.panel.boot.mapped = true) :
    ∃ t, exec .routeMapRewrite s = .next t ∧ ∀ n i, n < 336 → s.panel.powered n = true → i < 390 →
      (t.panel.core n).rd (Reg.MESH_RMAP + 4 * i) = s.panel.mapValue n i := by
  change ∃ t, execRouteMapRewrite s = .next t ∧ _
  refine ⟨_, onPanel_live hl _, fun n i hn hp hi => ?_⟩
  have hin : n ∈ (List.range 336).filter s.panel.powered := List.mem_filter.2 ⟨List.mem_range.2 hn, hp⟩
  rw [core_of_coreDies (coreDies_rewriteMaps hm), Panel.writeMaps, rd_foldl_writeMap hi _ _ (.inl hin),
    Nat.mod_eq_of_lt (mapValue_lt _ n hi)]

end Sys2Proof.Machine
end

section
/-! PROOFS. The registers of the mesh (R202, R207, R212): what a write of a reduction entry or of a throttle leaves, and when throttle
levels end; from these, the links and the maps the obligation O15. -/

namespace Sys2Proof.Machine

/-! ### Writes of the mesh's registers (R202, R212) -/

theorem landsAs_red (e : Fin 64) : LandsAs (Reg.MESH_RED + 8 * e) 8 fun _ v k => k.redWrite e v := by
  obtain ⟨e, hlt⟩ := e
  dsimp only
  interval_cases e <;> exact ⟨_, rfl, nofun, nofun, fun _ _ _ => rfl⟩

theorem landsAs_injCfg (v : Fin 4) (hv : v.val ≠ 1) :
    LandsAs (Reg.MESH_INJ_CFG + 4 * v) 4 fun _ value k => k.injWrite v value := by
  obtain ⟨v, hlt⟩ := v
  dsimp only at hv ⊢
  interval_cases v
  · exact ⟨_, rfl, nofun, nofun, fun _ _ _ => rfl⟩
  · exact absurd rfl hv
  · exact ⟨_, rfl, nofun, nofun, fun _ _ _ => rfl⟩
  · exact ⟨_, rfl, nofun, nofun, fun _ _ _ => rfl⟩

/-- A write that is ignored is counted, and another register keeps its value. -/
theorem Core.rd_cfgIgnored (k : Core) {off : Nat} (h : off ≠ Reg.MESH_CFG_IGN_CNT) :
    (k.bump Reg.MESH_CFG_IGN_CNT).rd off = k.rd off ∧
      (k.bump Reg.MESH_CFG_IGN_CNT).rd Reg.MESH_CFG_IGN_CNT = min cntTop (k.rd Reg.MESH_CFG_IGN_CNT + 1) :=
  ⟨Core.rd_bump_other _ _ h, Core.rd_bump_same ..⟩

section
variable {k : Core} {e : Nat} {v : W64}

theorem Core.redWrite_open {r : RedRound} (hr : find k.rt.rounds e = some r) (ha : r.arrived ≠ 0) :
    k.redWrite e v = k.bump Reg.MESH_CFG_IGN_CNT := if_pos (.inl (by rw [hr]; exact ha))

theorem Core.redWrite_bad (hv : v.toNat.testBit 63 = true)
    (hbad : bits v.toNat 41 33 = 0 ∨ bits v.toNat 49 47 = 0 ∨ 4 < bits v.toNat 49 47) :
    k.redWrite e v = k.bump Reg.MESH_CFG_IGN_CNT := by
  rw [Core.redWrite, if_pos (.inr ⟨hv, hbad⟩)]

theorem Core.redWrite_good (hr : find k.rt.rounds e = none)
    (hok : v.toNat.testBit 63 = false ∨
      (bits v.toNat 41 33 ≠ 0 ∧ 1 ≤ bits v.toNat 49 47 ∧ bits v.toNat 49 47 ≤ 4)) :
    k.redWrite e v = k.wr (Reg.MESH_RED + 8 * e) (v.toNat &&& 0xBFFFFFFFC0000000) := by
  refine if_neg ?_
  rintro (ha | ⟨hv, hbad⟩)
  · rw [hr] at ha
    exact ha rfl
  · rcases hok with hoff | hgood
    · rw [hoff] at hv
      cases hv
    · omega

end

/-- R212 takes a write of a throttle: each of its three rates lies in 1–16. -/
def InjRatesGood (x : Nat) : Prop :=
  (1 ≤ bits x 31 27 ∧ bits x 31 27 ≤ 16) ∧ (1 ≤ bits x 26 22 ∧ bits x 26 22 ≤ 16) ∧ (1 ≤ bits x 21 17 ∧ bits x 21 17 ≤ 16)

/-- The check of one rate. -/
theorem injRate_bad_iff (r : Nat) : (r == 0 || decide (r > 16)) = true ↔ ¬ (1 ≤ r ∧ r ≤ 16) := by
  rw [Bool.or_eq_true, beq_iff_eq, decide_eq_true_eq]
  omega

section
variable (k : Core) {v : Nat} (hv : v ≠ 1) (value : W64)
include hv

theorem Core.injWrite_good (h : InjRatesGood (value.toNat % 2 ^ 32)) :
    k.injWrite v value = k.wr (Reg.MESH_INJ_CFG + 4 * v) (value.toNat % 2 ^ 32 &&& 0xFFFE3FFF) := by
  obtain ⟨hfull, hlevel1, hlevel2⟩ := h
  simp only [Core.injWrite, injRate_bad_iff, if_neg hv, hfull, hlevel1, hlevel2, and_self, not_true_eq_false, or_self,
    if_false]

theorem Core.injWrite_bad (h : ¬ InjRatesGood (value.toNat % 2 ^ 32)) :
    k.injWrite v value = k.bump Reg.MESH_CFG_IGN_CNT := by
  simp only [Core.injWrite, injRate_bad_iff, if_neg hv]
  exact if_pos ((not_and_or.1 h).imp_right not_and_or.1)

end

/-- A value under a mask of 64 bits stays within a register. -/
theorem and_mod_word (x : Nat) {mask : Nat} (h : mask < 2 ^ 64) : (x &&& mask) % 2 ^ 64 = x &&& mask :=
  Nat.mod_eq_of_lt (Nat.and_le_right.trans_lt h)

theorem meshRedWrite_completes (s : State) (who : Requester) (n : Site) (e : Fin 64) (v : W64)
    (h : s.panel.granted who (.core n) (Reg.MESH_RED + 8 * e) = true) :
    ∃ t, exec (.meshRedWrite who n e v) s = .next t ∧ t.panel.core n = (s.panel.core n).redWrite e v := by
  obtain ⟨t, hexec, -, hcore⟩ := (landsAs_red e).completes (i := .meshRedWrite who n e v) (v := v) h rfl
  exact ⟨t, hexec, hcore⟩

theorem meshInjCfgWrite_completes (s : State) (who : Requester) (n : Site) (v : Fin 4) (value : W64)
    (h : s.panel.granted who (.core n) (Reg.MESH_INJ_CFG + 4 * v) = true) (hv : v.val ≠ 1) :
    ∃ t, exec (.meshInjCfgWrite who n v value) s = .next t ∧ t.panel.core n = (s.panel.core n).injWrite v value := by
  obtain ⟨t, hexec, -, hcore⟩ := (landsAs_injCfg v hv).completes (i := .meshInjCfgWrite who n v value) (v := value) h rfl
  exact ⟨t, hexec, hcore⟩

/-- Levels that end at an occupancy below the second threshold (R207). -/
theorem throttleLevelEnd_completes (s : State) (n : Site) (v : Fin 4) (hl : s.panel.live = true)
    (hc : (s.panel.core n).clocked = true) {cfg o : Nat} (hcfg : (s.panel.core n).rd (Reg.MESH_INJ_CFG + 4 * v) = cfg)
    (ho : (s.panel.core n).rt.occupancy v = o) (hhi : o < 4 * bits cfg 13 7) :
    ∃ t, exec (.throttleLevelEnd n v) s = .next t ∧
      (o < 4 * bits cfg 6 0 → (t.panel.core n).level v = 0) ∧
      (4 * bits cfg 6 0 ≤ o → bits cfg 6 0 ≠ 0 → (look 0 (s.panel.core n).rt.level v).testBit 0 = true →
        (t.panel.core n).level v = 1) := by
  change ∃ t, execThrottleLevelEnd n v s = .next t ∧ _
  refine ⟨_, onCore_clocked hl hc _, ?_⟩
  have hkeep2 : ¬ ((look 0 (s.panel.core n).rt.level v).testBit 1 = true ∧ 4 * bits cfg 13 7 ≤ o ∧ bits cfg 13 7 ≠ 0) := by
    omega
  simp only [Panel.core_modCore, Core.level, look_put_same, hcfg, ho, if_neg hkeep2]
  refine ⟨fun hlo => ?_, fun hlo hne hset => ?_⟩
  · have hkeep1 : ¬ ((look 0 (s.panel.core n).rt.level v).testBit 0 = true ∧ 4 * bits cfg 6 0 ≤ o ∧ bits cfg 6 0 ≠ 0) := by
      omega
    simp only [if_neg hkeep1]
    rfl
  · simp only [if_pos (And.intro hset (And.intro hlo hne))]
    rfl

theorem meshRegistersComplete : Completion.MeshRegistersComplete := by
  refine ⟨fun s who n e v h => ?_, fun s who n v value h hv => ?_, fun s n v hl hc hhi =>
    throttleLevelEnd_completes s n v hl hc rfl rfl hhi⟩
  · obtain ⟨t, hexec, hcore⟩ := meshRedWrite_completes s who n e v h
    have hoff : Reg.MESH_RED + 8 * e.val ≠ Reg.MESH_CFG_IGN_CNT := by simp only [Reg.MESH_RED, Reg.MESH_CFG_IGN_CNT]; omega
    refine ⟨fun r hr ha => ⟨t, hexec, ?_⟩, fun hr hok => ⟨t, hexec, ?_⟩, fun _ hv hbad => ⟨t, hexec, ?_⟩⟩
    · rw [hcore, Core.redWrite_open hr ha]
      exact Core.rd_cfgIgnored _ hoff
    · rw [hcore, Core.redWrite_good hr hok, Core.rd_wr_same, and_mod_word _ (by decide)]
    · rw [hcore, Core.redWrite_bad hv hbad]
      exact Core.rd_cfgIgnored _ hoff
  · obtain ⟨t, hexec, hcore⟩ := meshInjCfgWrite_completes s who n v value h hv
    have hoff : Reg.MESH_INJ_CFG + 4 * v.val ≠ Reg.MESH_CFG_IGN_CNT := by
      simp only [Reg.MESH_INJ_CFG, Reg.MESH_CFG_IGN_CNT]; omega
    refine ⟨fun hok => ⟨t, hexec, ?_⟩, fun hbad => ⟨t, hexec, ?_⟩⟩
    · rw [hcore, Core.injWrite_good _ hv value hok, Core.rd_wr_same, and_mod_word _ (by decide)]
    · rw [hcore, Core.injWrite_bad _ hv value hbad]
      exact Core.rd_cfgIgnored _ hoff

theorem linksAndMapsComplete : Completion.LinksAndMapsComplete :=
  ⟨linkDown_completes, laneRepair_completes,
    fun s n port module lane hl hp hheld => ⟨laneRepairDone_repaired s n port module lane hl hp hheld,
      laneRepairDone_degraded s n port module lane hl hp hheld, laneRepairDone_lastModule s n port module lane hl hp hheld⟩,
    routeMapRewrite_completes⟩

/-- Settles O15: writes by where they land, links by what a router's discards keep, maps by what their rewriting and the faults of
partitions leave. -/
theorem meshRegistersAndLinks : Obligations.MeshRegistersAndLinks := ⟨meshRegistersComplete, linksAndMapsComplete⟩

end Sys2Proof.Machine
end

section
/-! PROOFS. Flits, packets and contributions on their way (R182, R187–R189, R194, R196, R202, R203, R205): what a flit leaves of its
link, where a unicast packet goes, what a contribution leaves of its round, and what a round that leaves late sets; from these the
obligation O14. -/

namespace Sys2Proof.Machine

/-! ### Flits (R187, R188) -/

section
variable {p : Panel} {n port : Nat} {f : Flit} (hup : (p.core n).linkUp port = true)
include hup

/-- A flit whose CRC agrees is accepted, and the fourth one acknowledged. -/
theorem flitIn_accepted (hcrc : f.crcOk ((p.core n).link port).rxSeq = true) :
    (((p.flitIn n port f).core n).link port).rxSeq = (((p.core n).link port).rxSeq + 1) % 65536 ∧
      (((p.core n).link port).rxCount = 3 →
        (p.flitIn n port f).out = .hopAck n port ((p.core n).link port).rxSeq :: p.out) := by
  have hcontrol : ∀ (c : Prop) [Decidable c] (l : LinkState) (bs : List Byte),
      (if c then l.control bs else l).rxSeq = l.rxSeq := fun c _ l bs => by
    split_ifs
    · exact LinkState.control_rxSeq ..
    · rfl
  unfold Panel.flitIn
  extract_lets k l seq cnt l₁ l₂ slots k' p'
  have hseq : (k'.link port).rxSeq = (l.rxSeq + 1) % 65536 := by
    unfold k'
    rw [Core.assemble_rxSeq, Core.link_setLink]
    exact hcontrol ..
  rw [if_neg (not_not.2 hup), if_pos hcrc]
  split_ifs with hcnt
  · exact ⟨by rw [Panel.core_emit, Panel.core_setCore, hseq], fun _ => rfl⟩
  · refine ⟨by rw [Panel.core_setCore, hseq], fun h3 => absurd ?_ hcnt⟩
    exact congrArg (· + 1) h3

/-- The first flit whose CRC does not agree is answered with a NAK. -/
theorem flitIn_nak (hcrc : f.crcOk ((p.core n).link port).rxSeq = false) (hnak : ((p.core n).link port).rxNak = false) :
    ((p.flitIn n port f).core n).link port = { (p.core n).link port with rxNak := true } ∧
      (p.flitIn n port f).out = .hopNak n port ((p.core n).link port).rxSeq :: p.out := by
  unfold Panel.flitIn
  simp only [hup, hcrc, hnak, not_true_eq_false, Bool.false_eq_true, if_false, Panel.core_emit, Panel.core_setCore,
    Core.link_setLink, true_and]
  rfl

end

theorem exec_flitReceive {s : State} {n : Site} (port : Fin 8) (flit : BitVec 2048) (hl : s.panel.live = true)
    (hc : (s.panel.core n).clocked = true) :
    exec (.flitReceive n port flit) s = .next { s with panel := s.panel.flitIn n port ⟨leBytes 256 flit.toNat⟩ } := by
  change execFlitReceive n port flit s = _
  rw [execFlitReceive, atCore_clocked hl hc]

theorem flitReplay_completes (s : State) (n : Site) (port : Fin 8) (seq : Nat) (hl : s.panel.live = true)
    (hc : (s.panel.core n).clocked = true) (hnak : ((s.panel.core n).link port).nakAt = some seq) :
    ∃ t, exec (.flitReplay n port) s = .next t ∧ ((t.panel.core n).link port).nakAt = none ∧
      ((t.panel.core n).link port).replay =
        (((s.panel.core n).link port).replay.filter fun f => decide ((f.1 + 65536 - seq) % 65536 < 32768)) ∧
      (t.panel.core n).rd Reg.MESH_RETRY_CNT = min cntTop ((s.panel.core n).rd Reg.MESH_RETRY_CNT + 1) := by
  have hlink : ∀ (k : Core) (l : LinkState), ((k.setLink port l).bump Reg.MESH_RETRY_CNT).link port = l :=
    fun k l => Core.link_setLink ..
  change ∃ t, execFlitReplay n port s = .next t ∧ _
  refine ⟨_, atCore_clocked hl hc _, ?_⟩
  simp only [hnak, core_foldl_emit, Panel.core_setCore, hlink, true_and]
  exact Core.rd_bump_same ..

/-! ### Packets on their way (R182, R189, R194) -/

@[simp] theorem Core.inbuf_sendFlits (k : Core) (port i v : Nat) (x : Packet) :
    (k.sendFlits port x).rt.inbuf i v = k.rt.inbuf i v := rfl
@[simp] theorem Core.inbuf_recvFlits (k : Core) (port m i v : Nat) :
    (k.recvFlits port m).rt.inbuf i v = k.rt.inbuf i v := rfl
@[simp] theorem Core.inbuf_pushArr (k : Core) (w i v : Nat) (x : Packet) :
    (k.pushArr w x).rt.inbuf i v = k.rt.inbuf i v := rfl
@[simp] theorem Core.inbuf_logErr (k : Core) (dial m i v : Nat) (x : LogItem) :
    (k.logErr dial m x).rt.inbuf i v = k.rt.inbuf i v := by rw [Core.logErr_rt]
@[simp] theorem Core.arrived_popIn (k : Core) (i v c : Nat) : (k.popIn i v).arrived c = k.arrived c := rfl
@[simp] theorem Core.arrived_pushArr (k : Core) (v : Nat) (x : Packet) : (k.pushArr v x).arrived v = k.arrived v ++ [x] :=
  look_put_same ..

theorem edgeServe_none {p : Panel} {n which : Nat} (h : attDie n which = none) (v : Nat) : p.edgeServe n which v = p := by
  unfold Panel.edgeServe
  rw [h]
  exact ite_self _

/-- A hub leaves a write in its buffer until it performs it. -/
theorem edgeServe_hubWrite {p : Panel} {n which h a : Nat} {x : Packet} (hdie : attDie n which = some (.hub h a))
    (harr : look [] (p.hub h).arr (4 * a) = [x]) (hop : x.hdr.opcode = Opc.write) : p.edgeServe n which 0 = p := by
  have hserve : p.hubServe h a 0 = p := by
    simp only [Panel.hubServe, Nat.add_zero, harr, hop, true_or, and_self, if_true]
  unfold Panel.edgeServe
  simp only [hdie, hserve, Nat.zero_ne_one, ite_self]

/-- A packet that has credit leaves over its link, and stands at the end of the buffer at the far end. -/
theorem moveTo_credit {p : Panel} {n port m v : Nat} {x : Packet} (hv : x.hdr.vc % 4 = v)
    (hc : (p.core n).carries port = true) (hroom : roomFor ((p.core m).rt.inbuf (farPort port) v) x = true) :
    ∃ sent, p.moveTo n port m x = some ((p.modCore n fun k => k.sendFlits port x).modCore m fun k =>
      (k.recvFlits (farPort port) sent).pushIn (farPort port) v x) := by
  subst hv
  exact ⟨_, if_pos ⟨hc, hroom⟩⟩

section
variable {p : Panel} {n input v : Nat} {x : Packet} {rest : List Packet} (hbuf : (p.core n).rt.inbuf input v = x :: rest)
include hbuf

theorem hop_unicast {q : Panel} (hbad : x.hdr.bad = false) (hm : x.hdr.opcode ≠ Opc.mcast) (hr : x.hdr.opcode ≠ Opc.reduce)
    (hf : p.forward n x = some q) : p.hop n input v = q.modCore n fun k => k.popIn input v := by
  simp only [Panel.hop, hbuf, hbad, Bool.false_eq_true, if_false, if_neg hm, if_neg hr, hf, Core.passCounts]

theorem hop_bad (hbad : x.hdr.bad = true) :
    ((p.hop n input v).core n).rt.inbuf input v = rest ∧
      ((p.hop n input v).core n).rd Reg.MESH_HDR_ERR_CNT = min cntTop ((p.core n).rd Reg.MESH_HDR_ERR_CNT + 1) := by
  simp only [Panel.hop, hbuf, hbad, if_true, Panel.core_setCore, Core.inbuf_logErr]
  refine ⟨?_, ?_⟩
  · exact (Core.inbuf_popIn ..).trans (by rw [hbuf]; rfl)
  · rw [Core.logErr_rd _ _ _ _ (by decide), Core.rd_bump_same]
    rfl

variable (hv : x.hdr.vc = v) (hv4 : v < 4) (hbad : x.hdr.bad = false) (hm : x.hdr.opcode ≠ Opc.mcast)
  (hr : x.hdr.opcode ≠ Opc.reduce)
include hv hv4 hbad hm hr

theorem hop_toRouter {port m : Nat} (hnext : p.nextHop n x.hdr = .hop port m) (hmn : m ≠ n)
    (hc : (p.core n).carries port = true) (hroom : roomFor ((p.core m).rt.inbuf (farPort port) v) x = true) :
    ((p.hop n input v).core n).rt.inbuf input v = rest ∧
      ((p.hop n input v).core m).rt.inbuf (farPort port) v = (p.core m).rt.inbuf (farPort port) v ++ [x] := by
  have hvc : x.hdr.vc % 4 = v := by omega
  have hforward : p.forward n x = p.moveTo n port m x := by unfold Panel.forward; rw [hnext]
  obtain ⟨sent, hmove⟩ := moveTo_credit hvc hc hroom
  rw [hop_unicast hbuf hbad hm hr (hforward.trans hmove)]
  refine ⟨?_, ?_⟩
  · rw [Panel.core_modCore, Panel.core_modCore_other _ _ hmn.symm, Panel.core_modCore, Core.inbuf_popIn, Core.inbuf_sendFlits,
      hbuf, List.tail_cons]
  · rw [Panel.core_modCore_other _ _ hmn, Panel.core_modCore, Panel.core_modCore_other _ _ hmn, Core.inbuf_pushIn,
      Core.inbuf_recvFlits]

theorem hop_toCore (hnext : p.nextHop n x.hdr = .core) (harr : (p.core n).arrived v = []) :
    ((p.hop n input v).core n).rt.inbuf input v = rest ∧ ((p.hop n input v).core n).arrived v = [x] := by
  have hvc : x.hdr.vc % 4 = v := by omega
  have hforward : p.forward n x = some (p.modCore n fun k => k.pushArr v x) := by
    unfold Panel.forward
    simp only [hnext, Panel.toCore, hvc, harr, arrRoom, List.isEmpty_nil, Bool.or_true, if_true]
  rw [hop_unicast hbuf hbad hm hr hforward, Panel.core_modCore, Panel.core_modCore]
  refine ⟨?_, ?_⟩
  · rw [Core.inbuf_popIn, Core.inbuf_pushArr, hbuf, List.tail_cons]
  · rw [Core.arrived_popIn, Core.arrived_pushArr, harr, List.nil_append]

theorem hop_toHub {which h a : Nat} (hnext : p.nextHop n x.hdr = .edge which) (hlives : p.edgeLives n which = true)
    (hdie : attDie n which = some (.hub h a)) (harr : look [] (p.hub h).arr (4 * a + v) = []) :
    ((p.hop n input v).core n).rt.inbuf input v = rest ∧ look [] ((p.hop n input v).hub h).arr (4 * a + v) = [x] := by
  have hvc : x.hdr.vc % 4 = v := by omega
  have hforward : p.forward n x = some ((p.modHub h fun k => { k with arr := put k.arr (4 * a + v) [x] }).modCore n fun k =>
      k.sendFlits (5 + which) x) := by
    unfold Panel.forward Panel.toEdge
    simp only [hnext, hlives, hdie, hvc, harr, arrRoom, List.isEmpty_nil, Bool.or_true, if_true, List.nil_append,
      Option.map_some]
  rw [hop_unicast hbuf hbad hm hr hforward]
  refine ⟨?_, ?_⟩
  · rw [Panel.core_modCore, Panel.core_modCore, Core.inbuf_popIn, Core.inbuf_sendFlits]
    exact congrArg List.tail hbuf
  · have hhub : ∀ (q : Panel) (f : Core → Core), (q.modCore n f).hub h = q.hub h := fun _ _ => rfl
    rw [hhub, hhub, Panel.hub_modHub]
    exact look_put_same ..

end

/-- PACKET_HOP at an input that no crown feeds. -/
theorem exec_packetHop {s : State} {n : Site} {input : Fin 9} (vc : Fin 4) (hl : s.panel.live = true)
    (hc : (s.panel.core n).clocked = true) (h6 : input.val ≠ 6) (h7 : input.val ≠ 7) :
    exec (.packetHop n input vc) s =
      .next { s with panel := ((s.panel.hop n input vc).edgeServe n 1 vc).edgeServe n 2 vc } := by
  have hnot : ¬ (input = 6 ∨ input = 7) := fun h =>
    h.elim (fun e => h6 (congrArg Fin.val e)) fun e => h7 (congrArg Fin.val e)
  change execPacketHop n input vc s = _
  rw [execPacketHop, atCore_clocked hl hc]
  simp only [if_neg hnot]

theorem packetsHop : Completion.PacketsHop := by
  refine ⟨fun s n port flit hl hc hup => ⟨fun hcrc => ?_, fun hcrc hnak => ?_⟩, flitReplay_completes,
    fun s n input vc x rest hl hc h6 h7 h1 h2 hbuf hv => ?_,
    fun s n input x rest h a hl hc h6 h7 h1 h2 hbuf hv hbad hop hnext hlives harr => ?_⟩
  · exact ⟨_, exec_flitReceive port flit hl hc, flitIn_accepted hup hcrc⟩
  · exact ⟨_, exec_flitReceive port flit hl hc, flitIn_nak hup hcrc hnak⟩
  · have hexec := exec_packetHop vc hl hc h6 h7
    rw [edgeServe_none h1, edgeServe_none h2] at hexec
    refine ⟨fun hbad hm hr => ⟨fun port m hnext hmn hcar hroom => ⟨_, hexec, ?_⟩, fun hnext harr => ⟨_, hexec, ?_⟩⟩,
      fun hbad => ⟨_, hexec, hop_bad hbuf hbad⟩⟩
    · exact hop_toRouter hbuf hv vc.isLt hbad hm hr hnext hmn hcar hroom
    · exact hop_toCore hbuf hv vc.isLt hbad hm hr hnext harr
  · obtain ⟨hleft, hthere⟩ := hop_toHub hbuf hv (by decide) hbad (by rw [hop]; decide) (by rw [hop]; decide)
      hnext hlives h2 harr
    have hexec := exec_packetHop 0 hl hc h6 h7
    rw [edgeServe_none h1, Fin.val_zero, edgeServe_hubWrite h2 hthere hop] at hexec
    exact ⟨_, hexec, hleft, hthere⟩

/-! ### Contributions (R202, R203, R205) -/

theorem redMatch_lt {k : Core} {h : Header} {e : Nat} (hm : k.redMatch h = some e) : e < 64 :=
  List.mem_range.1 (List.mem_of_find?_eq_some hm)

theorem redTurn_take_lt {p : Panel} {n e : Nat} {h : Header} (ht : p.redTurn n h = .take e) : e < 64 := by
  unfold Panel.redTurn at ht
  dsimp only at ht
  split_ifs at ht
  split at ht
  · cases ht
  next e' hm =>
    have hlt := redMatch_lt hm
    split_ifs at ht
    split at ht
    · cases ht; exact hlt
    · split_ifs at ht
      cases ht; exact hlt

theorem Core.red_of_rd {k l : Core} {e : Nat} (h : l.rd (Reg.MESH_RED + 8 * e) = k.rd (Reg.MESH_RED + 8 * e)) :
    l.red e = k.red e := by
  unfold Core.red
  rw [h]

/-- The record of a bad codeword leaves the router, and the registers but for the count of lost records. -/
theorem Core.noteCombine_keeps (k : Core) (w : At) (tag : Nat) (r : CwRead) :
    (k.noteCombine w tag r).rt = k.rt ∧
      ∀ off, off ≠ Reg.ERR_LOST_CNT_core → (k.noteCombine w tag r).rd off = k.rd off := by
  unfold Core.noteCombine
  split
  · exact ⟨rfl, fun _ _ => rfl⟩
  · exact ⟨Core.logErr_rt .., fun _ h => Core.logErr_rd _ _ _ _ h⟩
  · exact ⟨Core.logErr_rt .., fun _ h => Core.logErr_rd _ _ _ _ h⟩

theorem Core.foldl_noteCombine_keeps (k : Core) (w : At) (tag : Nat) (units : List Codeword) :
    (units.foldl (fun k u => k.noteCombine w tag u.read.1) k).rt = k.rt ∧ ∀ off, off ≠ Reg.ERR_LOST_CNT_core →
      (units.foldl (fun k u => k.noteCombine w tag u.read.1) k).rd off = k.rd off := by
  induction units generalizing k with
  | nil => exact ⟨rfl, fun _ _ => rfl⟩
  | cons u units ih =>
    obtain ⟨hrt, hrd⟩ := k.noteCombine_keeps w tag u.read.1
    obtain ⟨hrt', hrd'⟩ := ih (k.noteCombine w tag u.read.1)
    exact ⟨hrt'.trans hrt, fun off h => (hrd' off h).trans (hrd off h)⟩

/-- A contribution leaves the buffers, and the registers but for the count of lost records. -/
theorem Core.contribute_keeps (k : Core) (w : At) (e : Nat) (x : Packet) :
    (k.contribute w e x).rt.inq = k.rt.inq ∧
      ∀ off, off ≠ Reg.ERR_LOST_CNT_core → (k.contribute w e x).rd off = k.rd off := by
  obtain ⟨hrt, hrd⟩ := k.foldl_noteCombine_keeps w x.hdr.rtag x.units
  have hinq := congrArg Router.inq hrt
  exact ⟨hinq, hrd⟩

/-- The contributions that an entry's open round holds, and their weight. -/
def Core.roundSum (k : Core) (e : Nat) : Nat × Nat :=
  ((find k.rt.rounds e).map fun r => (r.arrived, r.weight)).getD (0, 0)

/-- A contribution adds 1 and its weight, held at 511, to its round. -/
theorem Core.contribute_round (k : Core) (w : At) (e : Nat) (x : Packet) :
    ∃ r, find (k.contribute w e x).rt.rounds e = some r ∧
      (r.arrived, r.weight) = ((k.roundSum e).1 + 1, min ((k.roundSum e).2 + x.hdr.weight) 511) := by
  obtain ⟨hrt, -⟩ := k.foldl_noteCombine_keeps w x.hdr.rtag x.units
  refine ⟨_, find_put_same .., ?_⟩
  unfold Core.roundSum
  rw [hrt]
  cases find k.rt.rounds e with
  | none => exact Prod.ext rfl (congrArg (min · 511) (Nat.zero_add _).symm)
  | some r => rfl

/-- A round that is not complete waits. -/
theorem trySend_waits {p : Panel} {n e : Nat} {r : RedRound} (hr : find (p.core n).rt.rounds e = some r)
    (h : r.arrived < ((p.core n).red e).count) : p.trySend n e = p := by
  unfold Panel.trySend
  simp only [hr]
  exact if_neg (not_le.2 h)

theorem reduce_completes (s : State) (n : Site) (input : Fin 9) (x : Packet) (rest : List Packet) (e : Nat)
    (hl : s.panel.live = true) (hc : (s.panel.core n).clocked = true)
    (hbuf : (s.panel.core n).rt.inbuf input 2 = x :: rest) (hbad : x.hdr.bad = false) (hop : x.hdr.opcode = Opc.reduce)
    (ht : s.panel.redTurn n x.hdr = .take e)
    (hcount : ((s.panel.core n).roundSum e).1 + 1 < ((s.panel.core n).red e).count) :
    ∃ t, exec (.reduce n input) s = .next t ∧ (t.panel.core n).rt.inbuf input 2 = rest ∧
      (find (t.panel.core n).rt.rounds e).map (fun r => (r.arrived, r.weight)) =
        some (((s.panel.core n).roundSum e).1 + 1, min (((s.panel.core n).roundSum e).2 + x.hdr.weight) 511) := by
  obtain ⟨r, hr, hsum⟩ := (s.panel.core n).contribute_round (s.panel.at' n) e x
  obtain ⟨hinq, hrd⟩ := (s.panel.core n).contribute_keeps (s.panel.at' n) e x
  have harrived : r.arrived = ((s.panel.core n).roundSum e).1 + 1 := congrArg Prod.fst hsum
  have hlt := redTurn_take_lt ht
  have hred : (((s.panel.core n).contribute (s.panel.at' n) e x).popIn input 2).red e = (s.panel.core n).red e :=
    Core.red_of_rd (hrd _ (by simp only [Reg.MESH_RED, Reg.ERR_LOST_CNT_core]; omega))
  have hwait : (s.panel.setCore n (((s.panel.core n).contribute (s.panel.at' n) e x).popIn input 2)).trySend n e =
      s.panel.setCore n (((s.panel.core n).contribute (s.panel.at' n) e x).popIn input 2) :=
    trySend_waits (r := r) (by rw [Panel.core_setCore]; exact hr) (by rw [Panel.core_setCore, hred, harrived]; exact hcount)
  change ∃ t, execReduce n input s = .next t ∧ _
  refine ⟨_, atCore_clocked hl hc _, ?_⟩
  have hgo : ¬ (x.hdr.bad = true ∨ x.hdr.opcode ≠ Opc.reduce) := by simp [hbad, hop]
  simp only [hbuf, if_neg hgo, ht, hwait, Panel.core_setCore]
  refine ⟨?_, ?_⟩
  · rw [Core.inbuf_popIn, Router.inbuf, hinq]
    exact congrArg List.tail hbuf
  · exact (congrArg (Option.map _) hr).trans (congrArg some hsum)

/-- A round that has been sent on is closed. -/
theorem find_rounds_sendRound {p q : Panel} {n e : Nat} (h : p.sendRound n e = some q) :
    find (q.core n).rt.rounds e = none := by
  unfold Panel.sendRound at h
  dsimp only at h
  split at h
  · cases h
  · obtain ⟨r, -, rfl⟩ := Option.map_eq_some_iff.1 h
    rw [Panel.core_modCore]
    exact find_drop_same ..

/-- The entry of a round that left late passes what comes until it is written. -/
theorem Core.pass_set (k : Core) (e : Nat) :
    ((k.wr (Reg.MESH_RED + 8 * e) (k.rd (Reg.MESH_RED + 8 * e) ||| 2 ^ 62)).red e).pass = true := by
  unfold Core.red
  dsimp only
  rw [Core.rd_wr_same, Nat.testBit_mod_two_pow, Nat.testBit_or, Nat.testBit_two_pow_self]
  simp

theorem reduceRoundTimeout_completes (s : State) (n : Site) (e : Fin 64) (r : RedRound) (q : Panel) (hl : s.panel.live = true)
    (hc : (s.panel.core n).clocked = true) (hr : find (s.panel.core n).rt.rounds e = some r)
    (h0 : (s.panel.core n).rd Reg.MESH_RED_CFG % 65536 ≠ 0)
    (hlate : r.since + (s.panel.core n).rd Reg.MESH_RED_CFG % 65536 * 1000 ≤ s.panel.dial)
    (hpart : r.arrived < ((s.panel.core n).red e).count) (hsend : s.panel.sendRound n e = some q) :
    ∃ t, exec (.reduceRoundTimeout n e) s = .next t ∧ ((t.panel.core n).red e).pass = true ∧
      find (t.panel.core n).rt.rounds e = none ∧
      (t.panel.core n).rd Reg.MESH_RED_TIMEOUT_CNT = min cntTop ((q.core n).rd Reg.MESH_RED_TIMEOUT_CNT + 1) := by
  change ∃ t, execReduceRoundTimeout n e s = .next t ∧ _
  refine ⟨_, atCore_clocked hl hc _, ?_⟩
  have hdue : s.panel.since r.since ((s.panel.core n).rd Reg.MESH_RED_CFG % 65536 * us) = true := decide_eq_true hlate
  have hoff : Reg.MESH_RED + 8 * e.val ≠ Reg.MESH_RED_TIMEOUT_CNT := by
    simp only [Reg.MESH_RED, Reg.MESH_RED_TIMEOUT_CNT]; omega
  simp only [hr, if_pos (And.intro h0 (And.intro hdue hpart)), hsend, Panel.core_modCore]
  refine ⟨?_, find_rounds_sendRound hsend, ?_⟩
  · rw [Core.red_of_rd (Core.rd_bump_other _ _ hoff)]
    exact Core.pass_set ..
  · rw [Core.rd_bump_same, Core.rd_wr_other _ _ hoff.symm]

theorem reductionsInTheMesh : Completion.ReductionsInTheMesh :=
  ⟨reduce_completes, reduceRoundTimeout_completes⟩

/-- Settles O14: flits by what their link expects, packets by the buffer that their step names, contributions by their round. -/
theorem meshTraffic : Obligations.MeshTraffic := ⟨packetsHop, reductionsInTheMesh⟩

end Sys2Proof.Machine
end

section
/-! PROOFS. Bytes written from an offset on, as their writer sees them (R154, R173, R175): which registers a write can change, and the
status of one whose rows are all in reach. -/

namespace Sys2Proof.Machine

/-! ### The registers that a write can change -/

/-- The registers in which writes of codewords are noted. -/
def writeNotes : List Nat :=
  [Reg.SPAD_CORR_CNT, Reg.SPAD_POISON_WR_CNT, Reg.SPAD_ACC_MERGE_CNT, Reg.SPAD_ASLEEP_CNT, Reg.ERR_LOST_CNT_core]

section
variable {off : Nat} (h : off ∉ writeNotes) (w : At) (req : Nat)
include h

theorem Core.rd_writeCw (k : Core) (n : Nat) (l : List MByte) : (k.writeCw w req n l).2.rd off = k.rd off := by
  simp only [writeNotes, List.mem_cons, List.not_mem_nil, or_false, not_or] at h
  obtain ⟨hcorr, hpoison, -, -, hlost⟩ := h
  unfold Core.writeCw
  dsimp only
  split_ifs
  · rfl
  · rfl
  · split
    · rfl
    · exact (Core.logErr_rd _ _ _ _ hlost).trans (Core.rd_bump_other _ _ hcorr)
    · exact Core.rd_bump_other _ _ hpoison

theorem Core.rd_writeCws : ∀ (m n : Nat) (l : List MByte) (k : Core), (Core.writeCws w req m n l k).2.rd off = k.rd off
  | 0, _, _, _ => rfl
  | m + 1, n, l, k => (Core.rd_writeCws m (n + 1) (l.drop 32) _).trans (Core.rd_writeCw h w req k n _)

theorem Core.rd_writeRow (k : Core) (row : Nat) (l : List MByte) : (k.writeRow w req row l).2.rd off = k.rd off := by
  have hcws := Core.rd_writeCws h w req 8 (8 * row) l k
  simp only [writeNotes, List.mem_cons, List.not_mem_nil, or_false, not_or] at h
  obtain ⟨-, -, hmerge, hasleep, -⟩ := h
  unfold Core.writeRow Core.wrote
  dsimp only
  split_ifs
  · exact hcws
  · exact (Core.rd_bump_other _ _ hmerge).trans hcws
  · exact Core.rd_bump_other _ _ hasleep

theorem Core.rd_writeRows : ∀ (rows : List (Nat × List MByte)) (k : Core), (Core.writeRows w req rows k).2.rd off = k.rd off
  | [], _ => rfl
  | (row, l) :: rows, k => by
    refine (Core.rd_writeRows rows _).trans ?_
    split_ifs
    · rfl
    · exact Core.rd_writeRow h w req k row l

theorem Core.rd_writeBytes (k : Core) (at' : Nat) (l : List MByte) : (k.writeBytes w req at' l).2.rd off = k.rd off :=
  Core.rd_writeRows h w req _ k

end

theorem Core.accessed_writeBytes (k : Core) (w : At) (req off : Nat) (l : List MByte) :
    k.Accessed (k.writeBytes w req off l).2.spad.mem (k.writeBytes w req off l).2 := by
  rw [Core.writeBytes, Core.writeRows_eq]
  exact Core.accessed_eachRow (fun k => k.accessed_writeRow w req) _ k

theorem Core.Accessed.seq_eq {k l : Core} {m : Mem} (h : k.Accessed m l) : l.seq = k.seq := by
  obtain ⟨_, _, _, _, rfl⟩ := h; rfl

theorem Core.Accessed.ch_eq {k l : Core} {m : Mem} (h : k.Accessed m l) (ch : Nat) : l.ch ch = k.ch ch := by
  obtain ⟨_, _, _, _, rfl⟩ := h; rfl

end Sys2Proof.Machine
end

section
/-! PROOFS. The DMA channels (R213, R224–R227): what the end of a descriptor that failed leaves of its channel, its count and the running
task, and the number under which a channel takes a descriptor; from these the obligations O10 and O60. -/

namespace Sys2Proof.Machine

/-! ### What a failing status and a signal leave (R66, R77) -/

theorem Core.noteStatus_failed {k : Core} {st : Nat} (h : St.ok st = false) :
    (k.noteStatus st).seq.state = k.seq.state ∧ (∀ off, (k.noteStatus st).rd off = k.rd off) ∧
      (∀ ch, (k.noteStatus st).ch ch = k.ch ch) ∧ (k.noteStatus st).seq.task =
        k.seq.task.map fun t => { t with status := if t.status.isNone then some st else t.status } := by
  rw [Core.noteStatus, if_neg (by simp [h])]
  cases htask : k.seq.task with
  | none =>
    rw [Core.modTask_none htask]
    exact ⟨rfl, fun _ => rfl, fun _ => rfl, htask⟩
  | some t =>
    rw [Core.modTask_some htask]
    refine ⟨rfl, fun _ => rfl, fun _ => rfl, congrArg some ?_⟩
    dsimp only
    split_ifs <;> rfl

/-- A semaphore operation writes no register but the notes of its saturation. -/
theorem Core.rd_semOp (k : Core) (i mode v : Nat) {off : Nat} (hsat : off ≠ Reg.SEQ_SEM_SAT + 4 * (i / 32))
    (hcount : off ≠ Reg.SEQ_SEM_SAT_CNT) : (k.semOp i mode v).rd off = k.rd off := by
  obtain ⟨x, hx⟩ | ⟨x, hx⟩ := k.semOp_cases i mode v
  · rw [hx, Core.semSat, Core.rd_bump_other _ _ hcount, Core.rd_wr_other _ _ hsat, Core.rd_setSem]
  · rw [hx, Core.rd_setSem]

theorem Core.ch_semOp (k : Core) (i mode v ch : Nat) : (k.semOp i mode v).ch ch = k.ch ch := by
  obtain ⟨x, hx⟩ | ⟨x, hx⟩ := k.semOp_cases i mode v <;> rw [hx] <;> rfl

/-! ### The end of a descriptor that failed (R224–R226) -/

/-- The local signal of a descriptor, on any core. -/
def DescRun.signalled (d : DescRun) (k : Core) : Core := if d.desc.sig ∧ d.words ≠ [] then k.semOp d.desc.sem 0 1 else k

theorem DescRun.signalled_keeps (d : DescRun) (k : Core) :
    (d.signalled k).rd Reg.DMA_ERR_CNT = k.rd Reg.DMA_ERR_CNT ∧ (∀ ch, (d.signalled k).ch ch = k.ch ch) ∧
      (d.signalled k).seq.state = k.seq.state ∧ (d.signalled k).seq.task = k.seq.task := by
  unfold DescRun.signalled
  split_ifs
  · have hsem : d.desc.sem < 2 ^ 8 := bits_lt ..
    have hsat : Reg.DMA_ERR_CNT ≠ Reg.SEQ_SEM_SAT + 4 * (d.desc.sem / 32) := by
      simp only [Reg.DMA_ERR_CNT, Reg.SEQ_SEM_SAT]; omega
    obtain ⟨sem, hseq⟩ := k.seq_semOp d.desc.sem 0 1
    rw [hseq]
    exact ⟨k.rd_semOp _ _ _ hsat (by decide), k.ch_semOp _ _ _, rfl, rfl⟩
  · exact ⟨rfl, fun _ => rfl, rfl, rfl⟩

/-- A core whose channel has let its oldest issued descriptor go, counted. -/
def Core.descLeft (k : Core) (ch : Nat) : Core :=
  (k.setCh ch { k.ch ch with waiting := (k.ch ch).waiting.tail }).bump (Reg.DMA_DESC_CNT + 4 * ch)

/-- That core once word 7 is written. -/
def Core.word7Written (k : Core) (w : At) (ch : Nat) (d : DescRun) : Core :=
  ((k.descLeft ch).writeBytes w Own.dmaIn (d.off + 56) (enabled (leBytes 8 d.word7))).2

theorem Core.word7Written_keeps (k : Core) (w : At) (ch : Fin 4) (d : DescRun) :
    (k.word7Written w ch d).rd Reg.DMA_ERR_CNT = k.rd Reg.DMA_ERR_CNT ∧
      ((k.word7Written w ch d).ch ch).waiting = (k.ch ch).waiting.tail ∧ (k.word7Written w ch d).seq = k.seq := by
  have hcnt : ∀ ch : Fin 4, Reg.DMA_ERR_CNT ≠ Reg.DMA_DESC_CNT + 4 * ch.val := by decide
  have hwrite := (k.descLeft ch).accessed_writeBytes w Own.dmaIn (d.off + 56) (enabled (leBytes 8 d.word7))
  refine ⟨(Core.rd_writeBytes (by decide) ..).trans (Core.rd_bump_other _ _ (hcnt ch)), ?_, hwrite.seq_eq⟩
  rw [Core.word7Written, hwrite.ch_eq]
  exact congrArg DmaCh.waiting (Core.ch_setCh ..)

/-- The end of a descriptor that failed: counted, its status noted, the task and its state otherwise as they were. -/
theorem Core.descEnd_failed (k : Core) (w : At) (ch : Fin 4) {d : DescRun} (hf : d.faulted = false) (hst : St.ok d.status = false) :
    ((k.descEnd w ch d).ch ch).waiting = (k.ch ch).waiting.tail ∧
      (k.descEnd w ch d).rd Reg.DMA_ERR_CNT = min cntTop (k.rd Reg.DMA_ERR_CNT + 1) ∧
      (k.descEnd w ch d).seq.state = k.seq.state ∧
      (k.descEnd w ch d).seq.task =
        k.seq.task.map fun t => { t with status := if t.status.isNone then some d.status else t.status } := by
  have hend : k.descEnd w ch d = ((d.signalled (k.word7Written w ch d)).bump Reg.DMA_ERR_CNT).noteStatus d.status := by
    simp only [Core.descEnd, hf, hst, Bool.false_eq_true, if_false]
    rfl
  obtain ⟨hcount, hwait, hseq⟩ := k.word7Written_keeps w ch d
  obtain ⟨hrd, hch, hstate, htask⟩ := d.signalled_keeps (k.word7Written w ch d)
  obtain ⟨hstate', hrd', hch', htask'⟩ :=
    Core.noteStatus_failed (k := (d.signalled (k.word7Written w ch d)).bump Reg.DMA_ERR_CNT) hst
  rw [hend, hstate', hrd', hch', htask', Core.bump_seq, hstate, htask, hseq, Core.rd_bump_same, hrd, hcount]
  refine ⟨?_, rfl, rfl, rfl⟩
  exact (congrArg DmaCh.waiting (hch ch)).trans hwait

/-- The oldest issued descriptor of a channel, its pieces ended with a failing status, ends; where it wanted a remote signal, the
skip of that is counted first. -/
theorem exec_dmaDescriptorComplete_failed {s : State} {n : Site} {ch : Fin 4} {d : DescRun} {rest : List DescRun}
    (hl : s.panel.live = true) (hc : (s.panel.core n).clocked = true) (hw : ((s.panel.core n).ch ch).waiting = d :: rest)
    (hover : ((s.panel.core n).ch ch).over d = true) (hst : St.ok d.status = false) :
    ∃ k, (k = s.panel.core n ∨ k = (s.panel.core n).bump Reg.DMA_RSIG_SKIP_CNT) ∧
      exec (.dmaDescriptorComplete n ch) s =
        .next { s with panel := s.panel.setCore n (k.descEnd (s.panel.at' n) ch d) } := by
  change ∃ k, _ ∧ execDmaDescriptorComplete n ch s = _
  rw [execDmaDescriptorComplete, atCore_clocked hl hc]
  simp only [hw, hover, hst, Bool.false_eq_true, not_true_eq_false, not_false_eq_true, false_and, and_false, and_true, if_false]
  split_ifs
  · exact ⟨_, .inr rfl, rfl⟩
  · exact ⟨_, .inl rfl, rfl⟩

/-- Settles O60: the descriptor's end counts it and notes its status, on the core as it stands or with the skipped signal counted. -/
theorem failedDescriptorSetsTheStatus : Obligations.FailedDescriptorSetsTheStatus := by
  intro s n ch d rest hl hc hw hover hf hst
  obtain ⟨k, hk, hexec⟩ := exec_dmaDescriptorComplete_failed hl hc hw hover hst
  have hsame : k.ch ch = (s.panel.core n).ch ch ∧ k.rd Reg.DMA_ERR_CNT = (s.panel.core n).rd Reg.DMA_ERR_CNT ∧
      k.seq = (s.panel.core n).seq := by
    rcases hk with rfl | rfl
    · exact ⟨rfl, rfl, rfl⟩
    · exact ⟨rfl, Core.rd_bump_other _ _ (by decide), rfl⟩
  obtain ⟨hch, hrd, hseq⟩ := hsame
  obtain ⟨hwait, hcount, hstate, htask⟩ := k.descEnd_failed (s.panel.at' n) ch hf hst
  refine ⟨_, hexec, ?_⟩
  rw [Panel.core_setCore, hwait, hcount, hstate, htask, hch, hrd, hseq, hw]
  exact ⟨rfl, rfl, rfl, rfl⟩

/-! ### The number of a descriptor (R213) -/

/-- A core with a SIGNAL descriptor at offset 0, at the head of channel 0, which is free and has taken no descriptor yet. -/
def signalCore : Core :=
  { powered := true, dma := [(0, { queue := [{ off := 0 }] })],
    spad := { mem := ({} : Mem).setCw 0 (Codeword.fresh (leBytes 32 (Dk.signal * 2 ^ 60)) false) } }

/-- A panel that is on, with that core at site 0. -/
def signalState : State := { panel := { cores := [(0, signalCore)] } }

/-- Its descriptor's row reads good, and the descriptor meets no fault. -/
theorem signalCore_readsGood : (let x := signalCore.readRow ⟨0, 0⟩ Own.dmaOut 0
    let bs := (x.1.drop 0).take 64
    x.2.1 ≠ St.bankAsleep ∧
      descFault x.2.2 ((List.range 7).map fun i => BitVec.ofNat 64 (leAt bs (8 * i) 8)) (isBad x.2.1) = none) := by decide +kernel

/-- The first descriptor that a channel takes has number 1: the channel's next number is advanced before it is given out. -/
theorem signalCore_takesOne :
    (((signalCore.takeDesc ⟨0, 0⟩ 0 { off := 0 } []).ch 0).cur.map DescRun.id) = some 1 := by decide +kernel

/-- Refutes O10: DESCRIPTOR_READ, claimed to give the descriptor the number at which its channel stands, gives it the next one:
the first descriptor of a channel has number 1, where the claim says 0. -/
theorem not_dmaDescriptors : ¬ Obligations.DmaDescriptors := by
  rintro ⟨⟨hread, -, -⟩, -, -⟩
  obtain ⟨hawake, hgood⟩ := signalCore_readsGood
  obtain ⟨t, hexec, -, hcur, -⟩ := hread signalState 0 0 { off := 0 } [] rfl rfl rfl rfl hawake
  have hcore : t.panel.core (0 : Site) = signalCore.takeDesc ⟨0, 0⟩ 0 { off := 0 } [] := by
    cases hexec
    exact Panel.core_setCore ..
  have hone := signalCore_takesOne
  have hzero := congrArg (Option.map DescRun.id) (hcur hgood)
  rw [hcore] at hzero
  exact absurd (hone.symm.trans hzero) (by decide)

end Sys2Proof.Machine
end

section
/-! PROOFS. Window entries and the registers of the context engine (R231, R233, R248, R283): where a granted write of a crown register
lands, and what each of the three writes leaves; from these the obligation O16. -/

namespace Sys2Proof.Machine

/-! ### Registers of crowns and port dies, and the registers that both crowns show alike -/

theorem CrownDie.rd_bump_same (k : CrownDie) (o n : Nat) : (k.bump o n).rd o = min cntTop (k.rd o + n) := rfGet_rfBump_same ..
theorem CrownDie.rd_bump_other (k : CrownDie) {o j : Nat} (n : Nat) (h : j ≠ o) : (k.bump o n).rd j = k.rd j := by
  simp [CrownDie.rd, CrownDie.bump, rfBump, rfGet_rfSet_other _ _ h]

theorem Panel.sh_bumpSh_same (p : Panel) (o n : Nat) : (p.bumpSh o n).sh o = min cntTop (p.sh o + n) := rfGet_rfBump_same ..
theorem Panel.sh_bumpSh_other (p : Panel) {o j : Nat} (n : Nat) (h : j ≠ o) : (p.bumpSh o n).sh j = p.sh j := by
  simp [Panel.sh, rfBump, rfGet_rfSet_other _ _ h]

/-- One die's turn of a change to every present port die. -/
def Panel.portTurn (f : PortDie → PortDie) (p : Panel) (d : Nat) : Panel :=
  if p.fuses.diePresent d ∧ ¬ (p.port d).lost then p.modPort d f else p

theorem Panel.portTurn_fuses (f : PortDie → PortDie) (p : Panel) (d : Nat) : (p.portTurn f d).fuses = p.fuses := by
  unfold Panel.portTurn; split_ifs <;> rfl

theorem Panel.port_portTurn_other (f : PortDie → PortDie) (p : Panel) {d e : Nat} (h : d ≠ e) :
    (p.portTurn f e).port d = p.port d := by
  unfold Panel.portTurn
  split_ifs
  · exact p.port_modPort_other f h
  · rfl

theorem Panel.port_foldl_portTurn_other (f : PortDie → PortDie) {d : Nat} : ∀ (l : List Nat) (p : Panel), d ∉ l →
    (l.foldl (Panel.portTurn f) p).port d = p.port d
  | [], _, _ => rfl
  | e :: l, p, h => by
    obtain ⟨hne, hl⟩ := List.ne_and_not_mem_of_not_mem_cons h
    exact (Panel.port_foldl_portTurn_other f l _ hl).trans (p.port_portTurn_other f hne)

theorem Panel.port_foldl_portTurn (f : PortDie → PortDie) {d : Nat} : ∀ (l : List Nat) (p : Panel), l.Nodup → d ∈ l →
    p.fuses.diePresent d = true → (p.port d).lost = false → (l.foldl (Panel.portTurn f) p).port d = f (p.port d)
  | [], _, _, hin, _, _ => absurd hin List.not_mem_nil
  | e :: l, p, hnd, hin, hp, hlost => by
    obtain ⟨hel, hnd⟩ := List.nodup_cons.1 hnd
    rw [List.foldl_cons]
    by_cases hde : d = e
    · subst hde
      rw [Panel.port_foldl_portTurn_other f l _ hel, Panel.portTurn, if_pos ⟨hp, by simp [hlost]⟩, Panel.port_modPort]
    · have hkept := p.port_portTurn_other f hde
      rw [Panel.port_foldl_portTurn f l _ hnd ((List.mem_cons.1 hin).resolve_left hde) (by rwa [Panel.portTurn_fuses])
        (by rwa [hkept]), hkept]

/-- Every present port die that lives is changed. -/
theorem Panel.port_allPorts (p : Panel) (f : PortDie → PortDie) {d : Nat} (hd : d < 8) (hp : p.fuses.diePresent d = true)
    (hlost : (p.port d).lost = false) : (p.allPorts f).port d = f (p.port d) :=
  Panel.port_foldl_portTurn f _ p List.nodup_range (List.mem_range.2 hd) hp hlost

theorem Panel.sh_allPorts (p : Panel) (f : PortDie → PortDie) (o : Nat) : (p.allPorts f).sh o = p.sh o :=
  allPorts_keeps (part := fun p => p.sh o) (fun _ _ _ => rfl) p f

theorem Panel.cores_allPorts (p : Panel) (f : PortDie → PortDie) : (p.allPorts f).cores = p.cores :=
  allPorts_keeps (part := Panel.cores) (fun _ _ _ => rfl) p f

theorem Panel.hubs_allPorts (p : Panel) (f : PortDie → PortDie) : (p.allPorts f).hubs = p.hubs :=
  allPorts_keeps (part := Panel.hubs) (fun _ _ _ => rfl) p f

/-! ### Where a granted write of a crown register lands -/

/-- A write of so many bytes at an offset of a crown lands on a register there, and changes the panel by `g`. -/
def CrownLandsAs (c : Crown) (off bytes : Nat) (g : Panel → W64 → Panel) : Prop :=
  ∃ row, dieHit (.crown c) off bytes true = .reg row off ∧ row.acc = .rw ∧ ∀ p v, p.crownWriteReg c row off v = g p v

/-- A command that makes such a write, granted, answers DONE and changes the panel by `g`. -/
theorem CrownLandsAs.completes {c : Crown} {off bytes : Nat} {g : Panel → W64 → Panel} (hg : CrownLandsAs c off bytes g)
    {s : State} {who : Requester} {v : W64} {i : Instr} {f : Panel → Panel} (h : s.panel.granted who (.crown c) off = true)
    (hi : exec i s = s.onPanel f) (hf : f s.panel = s.panel.wrote who (.crown c) off bytes v) :
    exec i s = .next { s with panel := (g s.panel v).emit (.answer who 0 St.done) } := by
  obtain ⟨row, hhit, hacc, hwrite⟩ := hg
  have hperf : performed (.crown c) row off = true := by simp [performed, hacc]
  rw [hi, onPanel_live ((granted_iff ..).1 h).1, hf, wrote_crown h bytes v row hhit hperf, hwrite]

/-! ### The registers of a context engine (R248, R283) -/

/-- CTX_CFG takes `x`: no role 3, no time-out of zero, and no other role while contexts exist. -/
def Panel.CtxCfgLegal (p : Panel) (c : Crown) (x : Nat) : Prop :=
  bits x 31 30 ≠ 3 ∧ bits x 23 16 ≠ 0 ∧ bits x 15 8 ≠ 0 ∧
    (bits x 31 30 = bits ((p.crown c).rd Reg.CTX_CFG) 31 30 ∨ p.anyCtx = false)

theorem ctxCfgWrite_legal {p : Panel} {c : Crown} {v : W64} (h : p.CtxCfgLegal c (v.toNat % 2 ^ 32)) :
    p.ctxCfgWrite c v = p.modCrown c fun k => k.wr Reg.CTX_CFG (v.toNat % 2 ^ 32 &&& 0xC0FFFF00) := by
  obtain ⟨hrole, hstep, hout, hsame⟩ := h
  refine if_neg ?_
  rintro (h | h | h | ⟨hne, hany⟩)
  · exact hrole h
  · exact hstep h
  · exact hout h
  · rcases hsame with h | h
    · exact hne h
    · rw [h] at hany
      cases hany

theorem ctxCfgWrite_illegal {p : Panel} {c : Crown} {v : W64} (h : ¬ p.CtxCfgLegal c (v.toNat % 2 ^ 32)) :
    p.ctxCfgWrite c v = p.cbump c Reg.CTX_CFG_IGN_CNT := by
  refine if_pos ?_
  by_contra hno
  simp only [not_or, not_and, Bool.not_eq_true] at hno
  obtain ⟨hrole, hstep, hout, hsame⟩ := hno
  exact h ⟨hrole, hstep, hout, Classical.or_iff_not_imp_left.2 hsame⟩

/-- The service region may lie where a written base says (R248). -/
theorem svcBaseWrite_legal {p : Panel} {c : Crown} {v : W64} {h off : Nat} (hany : p.anyCtx = false)
    (hdec : p.decodeGA (v.toNat % 2 ^ 56) = .ok (.hbm h off)) (hlocal : (v.toNat % 2 ^ 56).testBit 41 = true)
    (halign : v.toNat % 2 ^ 56 % 2 ^ 20 = 0) (htop : off + 0x10000000 ≤ stackTop) (hbands : (p.hub h).serviceBands off = true) :
    p.svcBaseWrite c v = p.modCrown c fun k => k.wr Reg.CTX_SVC_BASE (v.toNat % 2 ^ 56) := by
  have hok : ¬ (p.anyCtx = true ∨ ¬ ((v.toNat % 2 ^ 56).testBit 41 && v.toNat % 2 ^ 56 % 2 ^ 20 == 0 &&
      decide (off + 0x10000000 ≤ stackTop) && (p.hub h).serviceBands off) = true) := by
    rw [hany, hlocal, halign, decide_eq_true htop, hbands]
    decide
  simp only [Panel.svcBaseWrite, hdec]
  exact if_neg hok

theorem svcBaseWrite_illegal {p : Panel} {c : Crown} {v : W64} (h : p.anyCtx = true ∨ (v.toNat % 2 ^ 56).testBit 41 = false) :
    p.svcBaseWrite c v = p.cbump c Reg.CTX_CFG_IGN_CNT := by
  refine if_pos (h.imp_right fun hlocal => ?_)
  split
  · rw [hlocal]
    simp only [Bool.false_and, Bool.false_eq_true, not_false_eq_true]
  · exact Bool.false_ne_true

section
variable (p : Panel) (c : Crown) {off v : Nat} (row : RegRow)

theorem rd_crown_modCrown_wr (hv : v < 2 ^ 64) (o : OutRec) :
    (((p.modCrown c fun k => k.wr off v).emit o).crown c).rd off = v := by
  rw [Panel.crown_emit, Panel.crown_modCrown, CrownDie.rd_wr_same, Nat.mod_eq_of_lt hv]

theorem rd_crown_cbump (h : off ≠ Reg.CTX_CFG_IGN_CNT) (o : OutRec) :
    (((p.cbump c Reg.CTX_CFG_IGN_CNT).emit o).crown c).rd off = (p.crown c).rd off ∧
      (((p.cbump c Reg.CTX_CFG_IGN_CNT).emit o).crown c).rd Reg.CTX_CFG_IGN_CNT =
        min cntTop ((p.crown c).rd Reg.CTX_CFG_IGN_CNT + 1) := by
  rw [Panel.crown_emit, Panel.cbump, Panel.crown_modCrown]
  exact ⟨CrownDie.rd_bump_other _ _ h, CrownDie.rd_bump_same ..⟩

end

theorem landsAs_ctxCfg (c : Crown) : CrownLandsAs c Reg.CTX_CFG 4 fun p v => p.ctxCfgWrite c v := by
  cases c <;> exact ⟨_, rfl, rfl, fun _ _ => rfl⟩

theorem landsAs_svcBase (c : Crown) : CrownLandsAs c Reg.CTX_SVC_BASE 8 fun p v => p.svcBaseWrite c v := by
  cases c <;> exact ⟨_, rfl, rfl, fun _ _ => rfl⟩

theorem exec_ctxCfgWrite {s : State} {who : Requester} {c : Crown} (v : W64)
    (h : s.panel.granted who (.crown c) Reg.CTX_CFG = true) :
    exec (.ctxCfgWrite who c v) s = .next { s with panel := (s.panel.ctxCfgWrite c v).emit (.answer who 0 St.done) } :=
  (landsAs_ctxCfg c).completes (f := fun p => p.wrote who (.crown c) Reg.CTX_CFG 4 v) h rfl rfl

theorem exec_ctxSvcBaseWrite {s : State} {who : Requester} {c : Crown} (v : W64)
    (h : s.panel.granted who (.crown c) Reg.CTX_SVC_BASE = true) :
    exec (.ctxSvcBaseWrite who c v) s = .next { s with panel := (s.panel.svcBaseWrite c v).emit (.answer who 0 St.done) } :=
  (landsAs_svcBase c).completes (f := fun p => p.wrote who (.crown c) Reg.CTX_SVC_BASE 8 v) h rfl rfl

theorem contextRegistersComplete : Completion.ContextRegistersComplete := by
  refine ⟨fun s who c v hg => ⟨fun hlegal => ⟨_, exec_ctxCfgWrite v hg, ?_⟩, fun hbad => ⟨_, exec_ctxCfgWrite v hg, ?_⟩⟩,
    fun s who c v hg => ⟨fun h off hany hdec hlocal halign htop hbands => ⟨_, exec_ctxSvcBaseWrite v hg, ?_⟩,
      fun hbad => ⟨_, exec_ctxSvcBaseWrite v hg, ?_⟩⟩⟩
  · have hfits : v.toNat % 2 ^ 32 &&& 0xC0FFFF00 < 2 ^ 64 := lt_of_le_of_lt Nat.and_le_left (by omega)
    rw [ctxCfgWrite_legal hlegal]
    exact rd_crown_modCrown_wr _ c hfits _
  · rw [ctxCfgWrite_illegal hbad]
    exact rd_crown_cbump _ c (by decide) _
  · rw [svcBaseWrite_legal hany hdec hlocal halign htop hbands]
    exact rd_crown_modCrown_wr _ c (by omega) _
  · rw [svcBaseWrite_illegal hbad]
    exact rd_crown_cbump _ c (by decide) _

/-! ### Window entries (R231, R233) -/

/-- A row whose registers all lie outside a range of offsets. -/
def RegRow.clearOf (lo hi : Nat) (r : RegRow) : Bool :=
  decide (0 < r.stride) && (decide (r.off + r.count * r.stride ≤ lo) || decide (hi ≤ r.off))

theorem RegRow.base_clear {r : RegRow} {lo hi off : Nat} (h : r.clearOf lo hi = true) (hlo : lo ≤ off) (hhi : off < hi) :
    r.base off = none := by
  simp only [RegRow.clearOf, Bool.and_eq_true, Bool.or_eq_true, decide_eq_true_eq] at h
  obtain ⟨hpos, hend | hbegin⟩ := h
  · exact if_pos (.inr ((Nat.le_div_iff_mul_le hpos).2 (by omega)))
  · exact if_pos (.inl (by omega))

theorem rowAt_append {lo hi off : Nat} (hlo : lo ≤ off) (hhi : off < hi) (rest : List RegRow) : ∀ (m : List RegRow),
    m.all (RegRow.clearOf lo hi) = true → rowAt (m ++ rest) off = rowAt rest off
  | [], _ => rfl
  | r :: m, h => by
    rw [List.all_cons, Bool.and_eq_true] at h
    obtain ⟨hr, hm⟩ := h
    rw [List.cons_append, rowAt, RegRow.base_clear hr hlo hhi]
    exact rowAt_append hlo hhi rest m hm

/-- The rows of a crown's map other than that of the window entries, before it and behind it. -/
def rowsAhead : List RegRow := crownRows1 ++ crownRows2 ++ crownRows3 ++ crownRows4 ++ crownRows5.take 6
def rowsBehind : List RegRow := crownRows5.drop 7

/-- The row of the window entries. -/
def winRow : RegRow := ⟨"WIN_ENT", 0x80000, 8, 1024, true, .rw, 0, 0xFFFFFFFFFFFFFFFF⟩

theorem crownMap_eq : crownMap = rowsAhead ++ winRow :: rowsBehind := rfl

theorem rowsAhead_clear : rowsAhead.all (RegRow.clearOf 0x80000 0x82000) = true := by decide

/-- A word of a window entry, by its number in the row. -/
theorem dieHit_win (c : Crown) {j : Nat} (hj : j < 1024) :
    dieHit (.crown c) (0x80000 + 8 * j) 8 true = .reg winRow (0x80000 + 8 * j) := by
  have hbase : winRow.base (0x80000 + 8 * j) = some (0x80000 + 8 * j) := by
    have hdiv : (0x80000 + 8 * j - 0x80000) / 8 = j := by omega
    have hmod : 0x80000 + 8 * j - (0x80000 + 8 * j - 0x80000) % 8 = 0x80000 + 8 * j := by omega
    simp only [RegRow.base, winRow, hdiv, hmod, if_true]
    rw [if_neg (by omega), if_pos (by omega)]
  have hrow : rowAt crownMap (0x80000 + 8 * j) = some (winRow, 0x80000 + 8 * j) := by
    rw [crownMap_eq, rowAt_append (by omega) (by omega) _ _ rowsAhead_clear, rowAt, hbase]
  have hit : hitIn crownMap (0x80000 + 8 * j) 8 true = .reg winRow (0x80000 + 8 * j) := by
    simp only [hitIn, hrow, winRow, and_self, if_true]
  cases c with
  | north => exact hit
  | south => exact (if_neg (by omega)).trans hit

theorem crownWriteReg_win (p : Panel) (c : Crown) (v : W64) {j : Nat} (hj : j < 1024) :
    p.crownWriteReg c winRow (0x80000 + 8 * j) v = p.winWrite (j / 4) (j % 4) v := by
  have hne : ∀ o : Nat, o < 0x80000 ∨ 0x82000 ≤ o → 0x80000 + 8 * j ≠ o := by omega
  have hin : decide (Reg.WIN_ENT ≤ 0x80000 + 8 * j ∧ 0x80000 + 8 * j < Reg.WIN_ENT + 0x2000) = true :=
    decide_eq_true ⟨by simp only [Reg.WIN_ENT]; omega, by simp only [Reg.WIN_ENT]; omega⟩
  have hplim : ¬ decide (Reg.CTX_PLIM ≤ 0x80000 + 8 * j ∧ 0x80000 + 8 * j < Reg.CTX_PLIM + 0x80) = true := fun h => by
    have hhi := (of_decide_eq_true h).2
    simp only [Reg.CTX_PLIM] at hhi
    omega
  have hwin : (0x80000 + 8 * j - Reg.WIN_ENT) / 32 = j / 4 := by simp only [Reg.WIN_ENT]; omega
  have hword : (0x80000 + 8 * j - Reg.WIN_ENT) / 8 % 4 = j % 4 := by simp only [Reg.WIN_ENT]; omega
  unfold Panel.crownWriteReg
  dsimp only
  iterate 13 rw [if_neg (hne _ (by decide))]
  rw [if_neg hplim, if_pos hin, hwin, hword]

theorem landsAs_win (c : Crown) (w : Fin 256) (word : Fin 4) :
    CrownLandsAs c (Reg.WIN_ENT + 32 * w + 8 * word) 8 fun p v => p.winWrite w word v := by
  have hj : 4 * w.val + word.val < 1024 := by omega
  have hoff : Reg.WIN_ENT + 32 * w.val + 8 * word.val = 0x80000 + 8 * (4 * w.val + word.val) := by
    simp only [Reg.WIN_ENT]; omega
  refine ⟨winRow, ?_, rfl, fun p v => ?_⟩
  · rw [hoff, dieHit_win c hj]
  · rw [hoff, crownWriteReg_win p c v hj, show (4 * w.val + word.val) / 4 = w.val by omega,
      show (4 * w.val + word.val) % 4 = word.val by omega]

/-- The bits that a word of a window entry keeps (R232). -/
def winKept (word : Nat) : Nat := [0xFCFFFFFFFFFFFFFF, 2 ^ 64 - 1, 0x1FFFFFF, 0].getD word 0

/-- Word `i` of a window entry once `word` holds `x`. -/
def Panel.winWord (p : Panel) (w word x i : Nat) : Nat := if i = word then x else p.sh (Reg.WIN_ENT + 32 * w + 8 * i)

/-- That entry. -/
def Panel.winAfter (p : Panel) (w word x : Nat) : WinEnt :=
  WinEnt.ofWords (p.winWord w word x 0) (p.winWord w word x 1) (p.winWord w word x 2)

theorem winWrite_eq (p : Panel) (w : Nat) (word : Fin 4) (v : W64) : p.winWrite w word v =
    if p.winBad (p.winAfter w word (v.toNat &&& winKept word)) then p.bumpSh Reg.WIN_CFG_IGN_CNT
    else (p.setSh (Reg.WIN_ENT + 32 * w + 8 * word) (v.toNat &&& winKept word)).allPorts fun k =>
      k.wr (Reg.WIN_ENT_COPY + 32 * w + 8 * word) (v.toNat &&& winKept word) := by
  match word with
  | 0 => rfl
  | 1 => rfl
  | 2 => rfl
  | 3 => rfl

theorem exec_winEntWrite {s : State} {who : Requester} {w : Fin 256} {word : Fin 4} (v : W64)
    (h : s.panel.granted who (.crown (s.panel.viaCrown who)) (Reg.WIN_ENT + 32 * w + 8 * word) = true) :
    exec (.winEntWrite who w word v) s = .next { s with panel := (s.panel.winWrite w word v).emit (.answer who 0 St.done) } :=
  (landsAs_win _ w word).completes
    (f := fun p => p.wrote who (.crown (p.viaCrown who)) (Reg.WIN_ENT + 32 * w + 8 * word) 8 v) h rfl rfl

theorem windowWritesComplete : Completion.WindowWritesComplete := by
  intro s who w word v hg
  have hfits : v.toNat &&& winKept word < 2 ^ 64 := lt_of_le_of_lt Nat.and_le_left v.isLt
  refine ⟨_, exec_winEntWrite v hg, ?_⟩
  change _ ∧ _ ∧ (s.panel.winBad (s.panel.winAfter w word (v.toNat &&& winKept word)) = false → _) ∧
    (s.panel.winBad (s.panel.winAfter w word (v.toNat &&& winKept word)) = true → _)
  rw [winWrite_eq]
  split_ifs with hbad
  · refine ⟨rfl, rfl, fun hok => absurd (hok.symm.trans hbad) (by decide), fun _ => ⟨rfl, ?_, fun o ho => ?_⟩⟩
    · exact Panel.sh_bumpSh_same ..
    · exact Panel.sh_bumpSh_other _ _ ho
  · refine ⟨?_, ?_, fun _ => ⟨?_, fun d hd hp hlost => ?_⟩, fun h => absurd h hbad⟩
    · rw [Panel.emit_cores, Panel.cores_allPorts, Panel.setSh_cores]
    · rw [Panel.emit_hubs, Panel.hubs_allPorts, Panel.setSh_hubs]
    · rw [Panel.sh_emit, Panel.sh_allPorts, Panel.sh_setSh_same]
      exact Nat.mod_eq_of_lt hfits
    · rw [Panel.port_emit, Panel.port_allPorts _ _ hd (by rwa [Panel.setSh_fuses]) (by rwa [Panel.port_setSh]), PortDie.rd_wr_same]
      exact Nat.mod_eq_of_lt hfits

/-- Settles O16: each write by where it lands and whether its register takes it, a window entry's also die by die. -/
theorem windowAndContextRegisters : Obligations.WindowAndContextRegisters := ⟨windowWritesComplete, contextRegistersComplete⟩

end Sys2Proof.Machine
end

section
/-! PROOFS. The load of a model (R240, R241, R244): what an image is read from, what the end and the failure of a load leave, and what
each command of a load does; from these the obligation O17. -/

namespace Sys2Proof.Machine

/-! ### What an image is read from (R235–R239) -/

/-- Two panels alike in all that the load of an image reads: dies, sites, fuses, and the stacks and crowns that are lost. -/
structure Panel.SameDies (p q : Panel) : Prop where
  fuses : q.fuses = p.fuses
  sites : q.sites = p.sites
  lostStacks : q.lostStacks = p.lostStacks
  cores : q.cores = p.cores
  hubs : q.hubs = p.hubs
  ports : q.ports = p.ports
  lost : ∀ c, (q.crown c).lost = (p.crown c).lost

section
variable {p q : Panel} (h : p.SameDies q)
include h

theorem Panel.SameDies.core (n : Nat) : q.core n = p.core n := by simp only [Panel.core, h.fuses, h.cores]
theorem Panel.SameDies.hub (n : Nat) : q.hub n = p.hub n := by simp only [Panel.hub, h.hubs]
theorem Panel.SameDies.port (n : Nat) : q.port n = p.port n := by simp only [Panel.port, h.ports]
theorem Panel.SameDies.site (n : Nat) : q.site n = p.site n := by simp only [Panel.site, h.sites]
theorem Panel.SameDies.lsite (x y : Nat) : q.lsite x y = p.lsite x y := by simp only [Panel.lsite, h.site]

theorem Panel.SameDies.decodeGA (ga : Nat) : q.decodeGA ga = p.decodeGA ga := by
  simp only [Panel.decodeGA, Panel.ownDevice, Panel.portPath, Panel.powered, h.fuses, h.lostStacks, h.lsite, h.core, h.port, h.lost]
  rfl

theorem Panel.SameDies.rawAt (k off n : Nat) : q.rawAt k off n = p.rawAt k off n := by simp only [Panel.rawAt, h.hub]

theorem Panel.SameDies.place (e : SectEnt) : e.place q = e.place p := by simp only [SectEnt.place, h.decodeGA]

theorem Panel.SameDies.readHeader (part ga : Nat) : q.readHeader part ga = p.readHeader part ga := by
  simp only [Panel.readHeader, h.decodeGA, h.hub, h.rawAt, h.fuses]

theorem Panel.SameDies.tableOk (part : Nat) (t : List SectEnt) : q.tableOk part t = p.tableOk part t := by
  simp only [Panel.tableOk, h.place, h.hub]

theorem Panel.SameDies.sectBytes (e : SectEnt) : q.sectBytes e = p.sectBytes e := by
  simp only [Panel.sectBytes, h.place, h.rawAt]

theorem Panel.SameDies.targetOf (e : SectEnt) : e.site q = e.site p := by simp only [SectEnt.site, h.fuses, h.lsite]

theorem Panel.SameDies.loadTargets (t : List SectEnt) : q.loadTargets t = p.loadTargets t := by
  simp only [Panel.loadTargets, h.targetOf]

theorem Panel.SameDies.descOf (t : List SectEnt) : q.descOf t = p.descOf t := by
  simp only [Panel.descOf, h.fuses, h.sectBytes]

theorem Panel.SameDies.sectionOf (m : Nat) (i : Option Nat) : q.sectionOf m i = p.sectionOf m i := by
  simp only [Panel.sectionOf, h.hubs]

/-- The checks of step 3 read of the models only which ready ones name a core. -/
theorem Panel.SameDies.loadFault {m : Nat} (hn : ∀ x y, q.namedElsewhere m x y = p.namedElsewhere m x y) (x : Model) :
    q.loadFault m x = p.loadFault m x := by
  simp only [Panel.loadFault, Panel.partSites, h.descOf, h.fuses, h.sectBytes, h.loadTargets, h.core, h.targetOf, h.sectionOf, hn]
  rfl

end

/-! ### Requests taken and answered (R360–R363) -/

/-- A change of a crown changes nothing that `g` shows when it changes nothing of it there. -/
theorem Panel.crown_modCrown_view {β : Type} (g : CrownDie → β) (p : Panel) (c : Crown) {f : CrownDie → CrownDie}
    (hf : g (f (p.crown c)) = g (p.crown c)) (d : Crown) : g ((p.modCrown c f).crown d) = g (p.crown d) := by
  by_cases hd : d = c
  · rw [hd, Panel.crown_modCrown, hf]
  · rw [p.crown_modCrown_other f hd]

/-- The panel once a crown has taken the request at the head of its queue. -/
def Panel.popReq (p : Panel) (c : Crown) (rest : List Req) : Panel := p.modCrown c fun k => { k with reqs := rest }

theorem Panel.nextReq_cons {p : Panel} {c : Crown} {r : Req} {rest : List Req} {op : Nat → Bool}
    (h : (p.crown c).reqs = r :: rest) (hop : op r.op = true) : p.nextReq c op = some (r, p.popReq c rest) := by
  simp only [Panel.nextReq, h, hop, if_true]
  rfl

section
variable (p : Panel) (c : Crown) (rest : List Req)

theorem Panel.popReq_reqs : ((p.popReq c rest).crown c).reqs = rest := by rw [Panel.popReq, Panel.crown_modCrown]

theorem Panel.popReq_lost (d : Crown) : ((p.popReq c rest).crown d).lost = (p.crown d).lost :=
  Panel.crown_modCrown_view CrownDie.lost p c rfl d

theorem Panel.popReq_restartAt (d : Crown) : ((p.popReq c rest).crown d).restartAt = (p.crown d).restartAt :=
  Panel.crown_modCrown_view CrownDie.restartAt p c rfl d

theorem Panel.popReq_ctx (d : Crown) : ((p.popReq c rest).crown d).ctx = (p.crown d).ctx :=
  Panel.crown_modCrown_view CrownDie.ctx p c rfl d

theorem Panel.popReq_ctxLeader (half : Nat) : (p.popReq c rest).ctxLeader half = p.ctxLeader half := by
  simp only [Panel.ctxLeader, Panel.leader, Panel.away, Panel.popReq_lost, Panel.popReq_restartAt]
  rfl

theorem Panel.popReq_modelNamed (m : Nat) : (p.popReq c rest).modelNamed m = p.modelNamed m := by
  simp only [Panel.modelNamed, Panel.slots, Panel.popReq_ctxLeader, Panel.popReq_ctx]
  rfl

end

theorem Panel.qset_modQ (p : Panel) (q : Nat) (f : QueueSet → QueueSet) : (p.modQ q f).qset q = f (p.qset q) := look_put_same ..

section
variable (p : Panel) (r : Req) (handle status : Nat) (held : Bool) (model : Nat)

theorem Panel.finishReq_models : (p.finishReq r handle status held model).models = p.models := by
  unfold Panel.finishReq Panel.hokuidAnswer
  dsimp only
  split
  · rfl
  · split <;> rfl

theorem Panel.finishReq_reqs (c : Crown) : ((p.finishReq r handle status held model).crown c).reqs = (p.crown c).reqs := by
  unfold Panel.finishReq Panel.hokuidAnswer
  dsimp only
  split
  · rfl
  · split
    · rfl
    · rw [Panel.crown_emit]
      exact Panel.crown_modCrown_view CrownDie.reqs p _ (by rfl) c

/-- A request of a queue set that is still enabled has its completion due. -/
theorem Panel.finishReq_completes : p.completes (p.finishReq r handle status held model) r handle status held model := by
  intro q gen fn hsrc hon hgen
  simp only [Panel.finishReq, hsrc]
  rw [Panel.qset_modQ, if_pos ⟨hon, hgen⟩]

end

theorem atCrown_engineOn {s : State} {c : Crown} (h : s.panel.engineOn c = true) (f : Panel → Panel) :
    s.atCrown c f = .next { s with panel := f s.panel } := by
  simp only [Panel.engineOn, Bool.and_eq_true, Bool.not_eq_true', Option.isNone_iff_eq_none] at h
  obtain ⟨⟨hlive, hlost⟩, hrestart⟩ := h
  rw [State.atCrown, onPanel_live hlive, if_neg (by simp [hlost, hrestart])]

/-! ### Models (R240, R241) -/

theorem Panel.model_setModel (p : Panel) (m : Nat) (x : Model) : (p.setModel m x).model m = x := look_put_same ..
theorem Panel.model_modModel (p : Panel) (m : Nat) (f : Model → Model) : (p.modModel m f).model m = f (p.model m) :=
  look_put_same ..

theorem Panel.model_congr {p q : Panel} (h : p.models = q.models) (m : Nat) : p.model m = q.model m := by
  rw [Panel.model, Panel.model, h]

theorem Panel.endLoad_reqs (p : Panel) (m status : Nat) (c : Crown) :
    ((p.endLoad m status).crown c).reqs = (p.crown c).reqs := by
  unfold Panel.endLoad
  split
  · rfl
  · exact Panel.finishReq_reqs ..

theorem Panel.model_endLoad (p : Panel) (m status : Nat) :
    (p.endLoad m status).model m = { p.model m with req := none } := by
  unfold Panel.endLoad
  split
  next hnone => rw [← hnone]
  · exact (Panel.model_congr (Panel.finishReq_models ..) m).trans (Panel.model_modModel ..)

/-- Cores changed one after the other keep what the change of one core keeps. -/
theorem foldl_modCore_keeps {α β : Type} {part : Panel → β} (hpart : ∀ p n f, part (Panel.modCore p n f) = part p)
    (site : α → Nat) (f : α → Core → Core) (l : List α) (p : Panel) :
    part (l.foldl (fun p x => p.modCore (site x) (f x)) p) = part p :=
  foldl_keeps (fun _ _ => hpart ..) l p

theorem Panel.dropRed_crowns (p : Panel) (m : Nat) : (p.dropRed m).crowns = p.crowns :=
  foldl_modCore_keeps (part := Panel.crowns) (fun _ _ _ => rfl) Prod.fst (fun x k => k.wr (Reg.MESH_RED + 8 * x.2) 0) _ p

theorem Panel.dropRed_qsets (p : Panel) (m : Nat) : (p.dropRed m).qsets = p.qsets :=
  foldl_modCore_keeps (part := Panel.qsets) (fun _ _ _ => rfl) Prod.fst (fun x k => k.wr (Reg.MESH_RED + 8 * x.2) 0) _ p

theorem Panel.model_dropRed (p : Panel) (m : Nat) : (p.dropRed m).model m = { p.model m with red := [] } := by
  rw [Panel.dropRed, Panel.model_modModel,
    foldl_modCore_keeps (part := fun p => p.model m) (fun _ _ _ => rfl) Prod.fst fun x k => k.wr (Reg.MESH_RED + 8 * x.2) 0]

/-- What a failed load leaves of its model. -/
theorem Panel.model_failLoad (p : Panel) (m cause status : Nat) : (p.failLoad m cause status).model m =
    { p.model m with red := [], state := 5, cause := cause, status := status, desc := none, req := none } := by
  have hkept : (((p.dropRed m).unseal m).disarm m).model m = (p.dropRed m).model m := rfl
  rw [Panel.failLoad, Panel.model_endLoad, Panel.model_modModel, hkept, Panel.model_dropRed]

theorem Panel.failLoad_reqs (p : Panel) (m cause status : Nat) (c : Crown) :
    ((p.failLoad m cause status).crown c).reqs = (p.crown c).reqs := by
  refine (Panel.endLoad_reqs ..).trans ?_
  change (look CrownDie.blank (p.dropRed m).crowns c.num).reqs = _
  rw [Panel.dropRed_crowns, Panel.crown]

/-! ### Image begun (LOAD_BEGIN, step 1 of R240) -/

/-- The arming of an image keeps what the change of one hub keeps. -/
theorem armImage_keeps {β : Type} {part : Panel → β} (hpart : ∀ p n f, part (Panel.modHub p n f) = part p) (p : Panel)
    (m h off : Nat) (tab : List SectEnt) : part (p.arm m h off tab) = part p := by
  refine (foldl_keeps (fun p x => ?_) _ _).trans (hpart ..)
  split
  · rfl
  · exact hpart ..

/-- A search that passes a number that is not used finds one. -/
theorem freeFrom_some {n : Nat} (hn : 0 < n) {used : Nat → Bool} : ∀ {fuel start k : Nat}, start ≤ k → k < start + fuel →
    used (k % n) = false → ∃ m, freeFrom n start used fuel = some m ∧ m < n ∧ used m = false
  | 0, _, _, hlo, hhi, _ => by omega
  | fuel + 1, start, k, hlo, hhi, hk => by
    rw [freeFrom]
    split_ifs with hused
    · have hne : k ≠ start := by rintro rfl; rw [hk] at hused; cases hused
      exact freeFrom_some hn (by omega) (by omega) hk
    · exact ⟨_, rfl, Nat.mod_lt _ hn, by simpa using hused⟩

/-- A model number is picked when one is free. -/
theorem Panel.pick_free (p : Panel) {used : Nat → Bool} (h : ∃ m, m < 16 ∧ used m = false) :
    ∃ m, p.pick 16 16 used = (some m, p.draw.2) ∧ m < 16 ∧ used m = false := by
  obtain ⟨k, hk, hfree⟩ := h
  let start := (Config.freeValue p.free).toNat
  have hmod : (start + (k + 16 - start % 16) % 16) % 16 = k := by omega
  obtain ⟨m, hm, hlt, hused⟩ := freeFrom_some (n := 16) (by decide) (fuel := 16) (start := start) (used := used)
    (k := start + (k + 16 - start % 16) % 16) (by omega) (by omega) (by rwa [hmod])
  refine ⟨m, ?_, hlt, hused⟩
  rw [Panel.pick, if_neg (by decide)]
  exact congrArg (fun o => (o, p.draw.2)) hm

/-- The model that a LOAD_BEGIN gives its number to, before the image is read. -/
def Req.newModel (r : Req) (part : Nat) : Model :=
  { state := 1, part := part, req := some r
    byFn := match r.src with
      | .set _ _ fn => some fn
      | .session _ _ _ => none }

/-- The panel once the loader has taken a LOAD_BEGIN and given it a number. -/
def Panel.loadBegun (p : Panel) (c : Crown) (r : Req) (rest : List Req) (part m : Nat) : Panel :=
  ((p.popReq c rest).draw.2).setModel m (r.newModel part)

/-- That panel once the header and the table of the image have been read. -/
def Panel.tableRead (p : Panel) (m ga : Nat) (b : List Byte) (tab : List SectEnt) : Panel :=
  p.modModel m fun y => { y with image := ga, header := b, table := tab }

/-- How a LOAD_BEGIN of a good header ends: the table legal, the model receives its image; else it has failed. -/
def Panel.loadJudged (p : Panel) (part m h off : Nat) (b : List Byte) (tab : List SectEnt) : Panel :=
  if ¬ p.tableOk part tab ∨ leAt b 9 7 ≠ 0 ∨ leAt b 48 208 ≠ 0 then p.failLoad m 3 St.notPermitted
  else (p.arm m h off tab).endLoad m St.done

/-- The header and the table read (causes 2 and 3 of R241). -/
def Panel.readImage (p : Panel) (part m ga : Nat) : Panel := match p.readHeader part ga with
  | none => p.failLoad m 2 St.notPermitted
  | some (h, off, b, n) =>
    let tab := (List.range n).map fun i => SectEnt.ofBytes (p.rawAt h (off + 256 + 32 * i) 32)
    (p.tableRead m ga b tab).loadJudged part m h off b tab

theorem Panel.readImage_good {p : Panel} {part ga h off n : Nat} {b : List Byte} (m : Nat)
    (hhead : p.readHeader part ga = some (h, off, b, n)) : p.readImage part m ga =
      let tab := (List.range n).map fun i => SectEnt.ofBytes (p.rawAt h (off + 256 + 32 * i) 32)
      (p.tableRead m ga b tab).loadJudged part m h off b tab := by
  rw [Panel.readImage, hhead]

theorem Panel.loadBegun_sameDies (p : Panel) (c : Crown) (r : Req) (rest : List Req) (part m : Nat) :
    p.SameDies (p.loadBegun c r rest part m) := ⟨rfl, rfl, rfl, rfl, rfl, rfl, p.popReq_lost c rest⟩

theorem Panel.modModel_sameDies {p q : Panel} (h : p.SameDies q) (m : Nat) (f : Model → Model) : p.SameDies (q.modModel m f) :=
  ⟨h.fuses, h.sites, h.lostStacks, h.cores, h.hubs, h.ports, h.lost⟩

/-- A number that no model in a state other than 0 has is in state 0. -/
theorem Panel.state_of_unused {p : Panel} {m : Nat} (h : ((find p.models m).any fun y => y.state != 0) = false) :
    (p.model m).state = 0 := by
  unfold Panel.model look
  cases hf : find p.models m with
  | none => rfl
  | some y => simpa [hf] using h

theorem exec_loadBegin {s : State} {c : Crown} {r : Req} {rest : List Req} {part h off n : Nat} {b : List Byte}
    (hon : s.panel.engineOn c = true) (hreqs : (s.panel.crown c).reqs = r :: rest) (hop : r.op = 3) (hpart : r.part = some part)
    (hfree : ∃ m, m < 16 ∧ find s.panel.models m = none)
    (hhead : s.panel.readHeader part (leAt r.bytes 8 8 % 2 ^ 56) = some (h, off, b, n)) :
    ∃ m, m < 16 ∧ (s.panel.model m).state = 0 ∧
      exec (.loadBegin c) s = .next { s with panel :=
        let tab := (List.range n).map fun i => SectEnt.ofBytes (s.panel.rawAt h (off + 256 + 32 * i) 32)
        (((s.panel.loadBegun c r rest part m).tableRead m (leAt r.bytes 8 8 % 2 ^ 56) b tab).loadJudged part m h off b tab) } := by
  obtain ⟨m, hpick, hm, hunused⟩ := (s.panel.popReq c rest).pick_free
    (used := fun m => (find (s.panel.popReq c rest).models m).any fun y => y.state != 0)
    (hfree.imp fun m hm => ⟨hm.1, by rw [show (s.panel.popReq c rest).models = s.panel.models from rfl, hm.2]; rfl⟩)
  refine ⟨m, hm, ?_, ?_⟩
  · exact Panel.state_of_unused hunused
  · change execLoadBegin c s = _
    rw [execLoadBegin, atCrown_engineOn hon]
    congr 2
    have hsame := s.panel.loadBegun_sameDies c r rest part m
    simp only [Panel.nextReq_cons hreqs (op := (· == 3)) (by simp [hop]), hpart, hpick]
    change (s.panel.loadBegun c r rest part m).readImage part m (leAt r.bytes 8 8 % 2 ^ 56) = _
    rw [Panel.readImage_good m ((hsame.readHeader ..).trans hhead)]
    simp only [hsame.rawAt]

section
variable (p : Panel) (part m h off : Nat) (b : List Byte) (tab : List SectEnt)

theorem Panel.loadJudged_reqs (c : Crown) : ((p.loadJudged part m h off b tab).crown c).reqs = (p.crown c).reqs := by
  unfold Panel.loadJudged
  split_ifs
  · exact Panel.failLoad_reqs ..
  · rw [Panel.endLoad_reqs]
    exact armImage_keeps (part := fun p => (p.crown c).reqs) (fun _ _ _ => rfl) p m h off tab

/-- A model whose image keeps the rules receives it. -/
theorem Panel.model_loadJudged_good (hok : p.tableOk part tab = true) (hz : leAt b 9 7 = 0) (hz' : leAt b 48 208 = 0) :
    (p.loadJudged part m h off b tab).model m = { p.model m with req := none } := by
  rw [Panel.loadJudged, if_neg (by simp [hok, hz, hz']), Panel.model_endLoad,
    armImage_keeps (part := fun p => p.model m) (fun _ _ _ => rfl)]

/-- A model whose image breaks them has failed. -/
theorem Panel.model_loadJudged_bad (hbad : ¬ p.tableOk part tab ∨ leAt b 9 7 ≠ 0 ∨ leAt b 48 208 ≠ 0) :
    (p.loadJudged part m h off b tab).model m =
      { p.model m with red := [], state := 5, cause := 3, status := St.notPermitted, desc := none, req := none } := by
  rw [Panel.loadJudged, if_pos hbad, Panel.model_failLoad]

/-- Either way its number keeps the image that was read. -/
theorem Panel.model_loadJudged_image : ((p.loadJudged part m h off b tab).model m).part = (p.model m).part ∧
    ((p.loadJudged part m h off b tab).model m).image = (p.model m).image ∧
    ((p.loadJudged part m h off b tab).model m).table = (p.model m).table := by
  by_cases hbad : ¬ p.tableOk part tab ∨ leAt b 9 7 ≠ 0 ∨ leAt b 48 208 ≠ 0
  · rw [Panel.model_loadJudged_bad p part m h off b tab hbad]
    exact ⟨rfl, rfl, rfl⟩
  · push Not at hbad
    obtain ⟨hok, hz, hz'⟩ := hbad
    rw [Panel.model_loadJudged_good p part m h off b tab hok hz hz']
    exact ⟨rfl, rfl, rfl⟩

end

theorem Panel.model_tableRead (p : Panel) (m ga : Nat) (b : List Byte) (tab : List SectEnt) :
    (p.tableRead m ga b tab).model m = { p.model m with image := ga, header := b, table := tab } := Panel.model_modModel ..

theorem Panel.model_loadBegun (p : Panel) (c : Crown) (r : Req) (rest : List Req) (part m : Nat) :
    (p.loadBegun c r rest part m).model m = r.newModel part := Panel.model_setModel ..

/-! ### Image checked and sealed (LOAD_COMMIT, step 3 of R240) -/

theorem any_put_of_not {α : Type} {f : Nat × α → Bool} {m : Nat} (hf : ∀ v, f (m, v) = false) (v : α) :
    ∀ l : Sparse α, (put l m v).any f = l.any f
  | [] => by simp [put, hf]
  | (k, w) :: l => by
    rw [put]
    split_ifs with hlt heq
    · simp [hf]
    · simp [← heq, hf]
    · rw [List.any_cons, List.any_cons, any_put_of_not hf v l]

/-- Whether another model names a core does not turn on what the model itself is. -/
theorem Panel.namedElsewhere_setModel (p : Panel) (m : Nat) (v : Model) (x y : Nat) :
    (p.setModel m v).namedElsewhere m x y = p.namedElsewhere m x y :=
  any_put_of_not (fun v => by simp) v p.models

/-- The panel while the checks of step 3 run. -/
def Panel.loadChecked (p : Panel) (c : Crown) (r : Req) (rest : List Req) (m : Nat) (x : Model) : Panel :=
  (p.popReq c rest).setModel m { x with state := 2, req := some r }

theorem Panel.loadFault_loadChecked (p : Panel) (c : Crown) (r : Req) (rest : List Req) (m : Nat) (x : Model) :
    (p.loadChecked c r rest m x).loadFault m x = p.loadFault m x :=
  have hsame : p.SameDies (p.loadChecked c r rest m x) := ⟨rfl, rfl, rfl, rfl, rfl, rfl, p.popReq_lost c rest⟩
  hsame.loadFault (fun _ _ => (p.popReq c rest).namedElsewhere_setModel ..) x

/-- The section entries sealed at their hubs. -/
def Panel.sealSections (p : Panel) (m : Nat) (tab : List SectEnt) : Panel :=
  tab.foldl (fun p s => match s.place p with
    | none => p
    | some (h, off) => p.sealRange m h off s.length) p

/-- The header and the table sealed at their hub. -/
def Panel.sealTable (p : Panel) (m : Nat) (x : Model) : Panel := match p.decodeGA x.image with
  | .ok (.hbm h off) => p.sealRange m h off (256 + 32 * x.table.length)
  | _ => p

/-- The sealing of an image keeps what the change of one hub keeps. -/
theorem sealImage_keeps {β : Type} {part : Panel → β} (hpart : ∀ p n f, part (Panel.modHub p n f) = part p) (p : Panel)
    (m : Nat) (x : Model) : part ((p.sealTable m x).sealSections m x.table) = part p := by
  refine (foldl_keeps (fun p s => ?_) x.table (p.sealTable m x)).trans ?_
  · split
    · rfl
    · exact hpart ..
  · unfold Panel.sealTable
    split
    · exact hpart ..
    · rfl

/-- How a LOAD_COMMIT of a receiving model ends: by the first check that fails, or with the image sealed and the wait begun. -/
def Panel.commitJudged (p : Panel) (m : Nat) (x : Model) : Panel := match p.loadFault m x with
  | some (cause, st) => p.failLoad m cause st
  | none =>
    let q := (p.sealTable m x).sealSections m x.table
    q.modModel m fun y => { y with state := 3, since := q.dial, desc := (q.descOf x.table).getD none }

theorem Panel.commitJudged_reqs (p : Panel) (m : Nat) (x : Model) (c : Crown) :
    ((p.commitJudged m x).crown c).reqs = (p.crown c).reqs := by
  unfold Panel.commitJudged
  split
  · exact Panel.failLoad_reqs ..
  · exact sealImage_keeps (part := fun p => (p.crown c).reqs) (fun _ _ _ => rfl) p m x

theorem Panel.model_commitJudged_sealed {p : Panel} {m : Nat} {x : Model} (h : p.loadFault m x = none) :
    ∃ d, (p.commitJudged m x).model m = { p.model m with state := 3, since := p.dial, desc := d } := by
  have hmodel := sealImage_keeps (part := fun p => p.model m) (fun _ _ _ => rfl) p m x
  have hdial := sealImage_keeps (part := Panel.dial) (fun _ _ _ => rfl) p m x
  simp only [Panel.commitJudged, h, Panel.model_modModel, hmodel, hdial]
  exact ⟨_, rfl⟩

theorem Panel.model_commitJudged_failed {p : Panel} {m cause st : Nat} {x : Model} (h : p.loadFault m x = some (cause, st)) :
    (p.commitJudged m x).model m =
      { p.model m with red := [], state := 5, cause := cause, status := st, desc := none, req := none } := by
  rw [Panel.commitJudged, h]
  exact Panel.model_failLoad ..

theorem exec_loadCommit {s : State} {c : Crown} {r : Req} {rest : List Req} {m : Nat} {x : Model}
    (hon : s.panel.engineOn c = true) (hreqs : (s.panel.crown c).reqs = r :: rest) (hop : r.op = 4)
    (hown : s.panel.ownModel r = some (m, x)) (hx : x.state = 1) :
    exec (.loadCommit c) s = .next { s with panel := (s.panel.loadChecked c r rest m x).commitJudged m x } := by
  change execLoadCommit c s = _
  have hown' : (s.panel.popReq c rest).ownModel r = some (m, x) := hown
  rw [execLoadCommit, atCrown_engineOn hon]
  congr 2
  simp only [Panel.nextReq_cons hreqs (op := (· == 4)) (by simp [hop]), hown', hx, ne_eq, not_true, if_false]
  rfl

/-! ### Model unloaded (UNLOAD) -/

/-- The panel without a model, what its load wrote taken back. -/
def Panel.unloaded (p : Panel) (m : Nat) : Panel :=
  let q := ((p.dropRed m).unseal m).disarm m
  { q with models := drop q.models m }

theorem Panel.unloaded_crown (p : Panel) (m : Nat) (c : Crown) : (p.unloaded m).crown c = p.crown c :=
  congrArg (fun l => look CrownDie.blank l c.num) (p.dropRed_crowns m)

theorem Panel.unloaded_qset (p : Panel) (m q : Nat) : (p.unloaded m).qset q = p.qset q :=
  congrArg (fun l => look ({} : QueueSet) l q) (p.dropRed_qsets m)

theorem exec_unload {s : State} {c : Crown} {r : Req} {rest : List Req} {m : Nat} {x : Model}
    (hon : s.panel.engineOn c = true) (hreqs : (s.panel.crown c).reqs = r :: rest) (hop : r.op = 5)
    (hown : s.panel.ownModel r = some (m, x)) (hx : x.state = 4 ∨ x.state = 5) (hnamed : s.panel.modelNamed m = false) :
    exec (.unload c) s = .next { s with panel := ((s.panel.popReq c rest).unloaded m).finishReq r 0 St.done false m } := by
  change execUnload c s = _
  have hown' : (s.panel.popReq c rest).ownModel r = some (m, x) := hown
  have hgo : ¬ ((x.state ≠ 4 ∧ x.state ≠ 5) ∨ (s.panel.popReq c rest).modelNamed m = true) := by
    rw [Panel.popReq_modelNamed, hnamed]
    rintro (⟨h4, h5⟩ | h)
    · exact hx.elim h4 h5
    · cases h
  rw [execUnload, atCrown_engineOn hon]
  congr 2
  simp only [Panel.nextReq_cons hreqs (op := (· == 5)) (by simp [hop]), hown']
  rw [if_neg hgo]
  rfl

theorem loadRequestsComplete : Completion.LoadRequestsComplete := by
  refine ⟨fun s c r rest part h off n b hon hreqs hop hpart hfree hhead => ?_,
    fun s c r rest m x hon hreqs hop hown hx => ?_, fun s c r rest m x hon hreqs hop hown hx hnamed => ?_⟩
  · intro tab
    obtain ⟨m, hm, hstate, hexec⟩ := exec_loadBegin hon hreqs hop hpart hfree hhead
    let p := (s.panel.loadBegun c r rest part m).tableRead m (leAt r.bytes 8 8 % 2 ^ 56) b tab
    have hok : p.tableOk part tab = s.panel.tableOk part tab :=
      (Panel.modModel_sameDies (s.panel.loadBegun_sameDies c r rest part m) m _).tableOk part tab
    have hmodel : p.model m = { r.newModel part with image := leAt r.bytes 8 8 % 2 ^ 56, header := b, table := tab } := by
      rw [Panel.model_tableRead, Panel.model_loadBegun]
    obtain ⟨hkept, himage, htable⟩ := p.model_loadJudged_image part m h off b tab
    refine ⟨_, m, hexec, hm, hstate, ?_, ?_, ?_, ?_, fun hgood hz hz' => ?_, fun hbad => ?_⟩
    · exact (p.loadJudged_reqs part m h off b tab c).trans (s.panel.popReq_reqs c rest)
    · exact hkept.trans (by rw [hmodel]; rfl)
    · exact himage.trans (by rw [hmodel])
    · exact htable.trans (by rw [hmodel])
    · rw [p.model_loadJudged_good part m h off b tab (hok.trans hgood) hz hz', hmodel]
      rfl
    · rw [p.model_loadJudged_bad part m h off b tab (.inl (by simp [hok, hbad]))]
      exact ⟨rfl, rfl⟩
  · have hfault := s.panel.loadFault_loadChecked c r rest m x
    refine ⟨_, exec_loadCommit hon hreqs hop hown hx, ?_, fun hnone => ?_, fun cause st hsome => ?_⟩
    · exact (Panel.commitJudged_reqs ..).trans (s.panel.popReq_reqs c rest)
    · obtain ⟨d, hmodel⟩ := Panel.model_commitJudged_sealed (hfault.trans hnone)
      have hreq : ((s.panel.loadChecked c r rest m x).model m).req = some r := by rw [Panel.loadChecked, Panel.model_setModel]
      rw [hmodel]
      exact ⟨rfl, rfl, hreq⟩
    · rw [Panel.model_commitJudged_failed (hfault.trans hsome)]
      exact ⟨rfl, rfl, rfl⟩
  · refine ⟨_, exec_unload hon hreqs hop hown hx hnamed, ?_, ?_, ?_⟩
    · rw [Panel.finishReq_reqs, Panel.unloaded_crown, Panel.popReq_reqs]
    · rw [Panel.finishReq_models]
      exact find_drop_same ..
    · have hdue := ((s.panel.popReq c rest).unloaded m).finishReq_completes r 0 St.done false m
      simp only [Panel.completes, Panel.unloaded_qset] at hdue
      exact hdue

/-! ### The steps of a load (steps 5 to 8 of R240) -/

theorem exec_loadIdleTimeout {s : State} {m : Fin 16} (hlive : s.panel.live = true) (hstate : (s.panel.model m).state = 3)
    (happlied : (s.panel.model m).applied = false) (hidle : s.panel.targetsIdle (s.panel.model m).table = false)
    (hlate : (s.panel.model m).since + 1000000 ≤ s.panel.dial) :
    exec (.loadIdleTimeout m) s = .next { s with panel := s.panel.failLoad m 9 St.timedOut } := by
  change execLoadIdleTimeout m s = _
  rw [execLoadIdleTimeout, onPanel_live hlive]
  dsimp only
  rw [if_pos ⟨hstate, by simp [happlied], by simp [hidle], decide_eq_true hlate⟩]

/-- The control sections of a table applied: the reshapes of type 3 first (steps 5 and 6). -/
def Panel.controlsApplied (p : Panel) (m : Nat) (tab : List SectEnt) : Panel :=
  (tab.filter fun e => e.type ≠ 3).foldl (fun p e => p.applyControl m e)
    ((tab.filter fun e => e.type = 3).foldl (fun p e => p.applyControl m e) p)

/-- The control sections applied and the data sections streamed: the status, and the panel then. -/
def Panel.loadStreamed (p : Panel) (m : Nat) : Nat × Panel :=
  Panel.streamAll (p.model m).part (p.model m).table (p.controlsApplied m (p.model m).table)

/-- How the streaming of a load ends: every section applied, or failed with the status of one (step 7). -/
def streamJudged (m : Nat) (r : Nat × Panel) : Panel :=
  if 1 < r.1 then r.2.failLoad m 0xA r.1 else r.2.modModel m fun y => { y with applied := true }

theorem exec_loadTargetsIdle {s : State} {m : Fin 16} (hlive : s.panel.live = true) (hstate : (s.panel.model m).state = 3)
    (happlied : (s.panel.model m).applied = false) (hidle : s.panel.targetsIdle (s.panel.model m).table = true)
    (hstaged : ∀ e ∈ (s.panel.model m).table, e.type = 3 → ∀ n, e.site s.panel = some n → (s.panel.core n).spad.staging = []) :
    exec (.loadTargetsIdle m) s = .next { s with panel := streamJudged m (s.panel.loadStreamed m) } := by
  change execLoadTargetsIdle m s = _
  rw [execLoadTargetsIdle, onPanel_live hlive]
  dsimp only
  rw [if_neg]
  · rfl
  · rintro (h | h | h | h)
    · exact h hstate
    · rw [happlied] at h; cases h
    · obtain ⟨e, he, hstill⟩ := List.any_eq_true.1 h
      obtain ⟨hin, htype⟩ := List.mem_filter.1 he
      cases hsite : e.site s.panel with
      | none => simp [hsite] at hstill
      | some n => simp [hsite, hstaged e hin (of_decide_eq_true htype) n hsite] at hstill
    · exact h hidle

/-- The model of a load whose every section has been applied, and the dies as they then are. -/
theorem streamJudged_done {m : Nat} {r : Nat × Panel} (h : r.1 ≤ 1) : ((streamJudged m r).model m).applied = true ∧
    (streamJudged m r).cores = r.2.cores ∧ (streamJudged m r).hubs = r.2.hubs := by
  rw [streamJudged, if_neg (by omega)]
  exact ⟨by rw [Panel.model_modModel], rfl, rfl⟩

theorem streamJudged_failed {m : Nat} {r : Nat × Panel} (h : 1 < r.1) : ((streamJudged m r).model m).state = 5 ∧
    ((streamJudged m r).model m).cause = 10 ∧ ((streamJudged m r).model m).status = r.1 := by
  rw [streamJudged, if_pos h, Panel.model_failLoad]
  exact ⟨rfl, rfl, rfl⟩

/-- An applied model made ready, with its digests (step 8). -/
def Panel.loadReady (p : Panel) (m : Nat) : Panel :=
  let x := p.model m
  let dh := ((p.sectionOf m none).bind (·.digest)).getD []
  ((p.setModel m { x with
    state := 4, programs := sm3 (dh ++ p.digests m x.table false), weights := sm3 (p.digests m x.table true) }).disarm m).endLoad m
      St.done

theorem Panel.sendReady_models (p : Panel) (c : Crown) (i : Nat) : (p.sendReady c i).models = p.models := by
  have h : (p.sendReady c i).sansMessages.models = p.sansMessages.models := by rw [sansMessages_sendReady]
  exact h

/-- LOAD_READY makes the model ready; that a spare may then send ready changes no model. -/
theorem exec_loadReady {s : State} {m : Fin 16} (hlive : s.panel.live = true) (hstate : (s.panel.model m).state = 3)
    (happlied : (s.panel.model m).applied = true) :
    ∃ t, exec (.loadReady m) s = .next t ∧ t.panel.models = (s.panel.loadReady m).models := by
  change ∃ t, execLoadReady m s = _ ∧ _
  rw [execLoadReady, onPanel_live hlive]
  refine ⟨_, rfl, ?_⟩
  dsimp only
  rw [if_neg (by simp [hstate, happlied])]
  split_ifs
  · exact Panel.sendReady_models ..
  · rfl

theorem Panel.model_loadReady (p : Panel) (m : Nat) : (p.loadReady m).model m = { p.model m with
    state := 4, req := none
    programs := sm3 (((p.sectionOf m none).bind (·.digest)).getD [] ++ p.digests m (p.model m).table false)
    weights := sm3 (p.digests m (p.model m).table true) } := by
  rw [Panel.loadReady, Panel.model_endLoad]
  exact congrArg (fun x : Model => { x with req := none }) (Panel.model_setModel ..)

theorem loadsComplete : Completion.LoadsComplete := by
  refine ⟨fun s m hlive hstate happlied hidle hlate => ?_, fun s m hlive hstate happlied hidle hstaged => ?_,
    fun s m hlive hstate happlied => ?_⟩
  · refine ⟨_, exec_loadIdleTimeout hlive hstate happlied hidle hlate, ?_⟩
    rw [Panel.model_failLoad]
    exact ⟨rfl, rfl, rfl⟩
  · exact ⟨_, exec_loadTargetsIdle hlive hstate happlied hidle hstaged, streamJudged_done, streamJudged_failed⟩
  · obtain ⟨t, hexec, hmodels⟩ := exec_loadReady hlive hstate happlied
    refine ⟨t, hexec, ?_⟩
    rw [Panel.model_congr hmodels, Panel.model_loadReady]
    exact ⟨rfl, rfl, rfl⟩

/-- Settles O17: the three requests by what they leave of model and queue, the three steps by how a load goes on or fails. -/
theorem modelLoading : Obligations.ModelLoading := ⟨loadRequestsComplete, loadsComplete⟩

end Sys2Proof.Machine
end

section
/-! PROOFS. What the context engine's operations leave of the crowns (R44, R246–R257, R276, R336, R338): panels whose crowns look alike
to a view, that what is sent, mirrored, stored and read keeps such a view, which crown leads a slot, and what an entry written in a
slot reads as. -/

namespace Sys2Proof.Machine

/-! ### Panels whose crowns look alike -/

/-- `view` shows of every crown of the second panel what it shows of the first's, and the same half retrains or none does. -/
def Panel.Alike {β : Type} (view : CrownDie → β) (p q : Panel) : Prop :=
  (∀ c, view (q.crown c) = view (p.crown c)) ∧ q.retraining = p.retraining

section
variable {β : Type} {view : CrownDie → β} {p q r : Panel}

theorem Panel.Alike.refl (p : Panel) : p.Alike view p := ⟨fun _ => rfl, rfl⟩

theorem Panel.Alike.crown (h : p.Alike view q) (c : Crown) : view (q.crown c) = view (p.crown c) := h.1 c

theorem Panel.Alike.trans (h : p.Alike view q) (h' : q.Alike view r) : p.Alike view r :=
  ⟨fun c => (h'.1 c).trans (h.1 c), h'.2.trans h.2⟩

/-- What a view shows, a view of what it shows shows. -/
theorem Panel.Alike.map {γ : Type} (g : β → γ) (h : p.Alike view q) : p.Alike (fun k => g (view k)) q :=
  ⟨fun c => congrArg g (h.1 c), h.2⟩

/-- A change that leaves the crowns and what they share. -/
theorem Panel.Alike.upd (h : p.Alike view q) (hc : r.crowns = q.crowns := by rfl) (hs : r.shared = q.shared := by rfl) :
    p.Alike view r := by
  refine h.trans ⟨fun c => ?_, ?_⟩
  · rw [Panel.crown, hc, Panel.crown]
  · rw [Panel.retraining, Panel.sh, hs, Panel.retraining, Panel.sh]

theorem Panel.Alike.modCrown {c : Crown} {f : CrownDie → CrownDie} (h : p.Alike view q) (hf : ∀ k, view (f k) = view k) :
    p.Alike view (q.modCrown c f) := h.trans ⟨Panel.crown_modCrown_view view q c (hf _), rfl⟩

theorem Panel.Alike.ite {a : Prop} [Decidable a] (hq : p.Alike view q) (hr : p.Alike view r) :
    p.Alike view (if a then q else r) := by
  split_ifs
  · exact hq
  · exact hr

/-- A fold that carries a panel keeps what each of its steps keeps. -/
theorem Panel.Alike.foldlOn {σ α : Type} (g : σ → Panel) {f : σ → α → σ} (hf : ∀ y x, p.Alike view (g y) → p.Alike view (g (f y x))) :
    ∀ (l : List α) {y : σ}, p.Alike view (g y) → p.Alike view (g (l.foldl f y))
  | [], _, h => h
  | x :: l, y, h => Panel.Alike.foldlOn g hf l (hf y x h)

theorem Panel.Alike.foldl {α : Type} {f : Panel → α → Panel} {l : List α} (h : p.Alike view q)
    (hf : ∀ r x, p.Alike view r → p.Alike view (f r x)) : p.Alike view (l.foldl f q) := Panel.Alike.foldlOn id hf l h

/-! HBM as a crown accesses it: the crowns share the counter of the addresses refused. -/

theorem Panel.Alike.bumpSh {o : Nat} (h : p.Alike view q) (ho : Reg.BOOT_STATUS ≠ o) : p.Alike view (q.bumpSh o) :=
  h.trans ⟨fun _ => rfl, by rw [Panel.retraining, q.sh_bumpSh_other 1 ho, Panel.retraining]⟩

theorem Panel.Alike.crownAt_error {part ga n st : Nat} {writes : Bool} (h : p.Alike view q)
    (he : q.crownAt part ga n writes = .error (st, r)) : p.Alike view r := by
  unfold Panel.crownAt at he
  split at he
  · cases he
    exact h.bumpSh (by decide)
  · dsimp only at he
    split_ifs at he
    · cases he
      exact h
    · cases he
      exact h
    · split at he
      · cases he
        exact h.upd
      · cases he
  · cases he
    exact h

theorem Panel.Alike.crownRead {part ga n : Nat} (h : p.Alike view q) : p.Alike view (q.crownRead part ga n).2.2 := by
  refine Panel.Alike.foldlOn (fun y : Nat × List Byte × Panel => y.2.2) (fun y x hy => ?_) _ h
  dsimp only
  split
  next he => exact hy.crownAt_error he
  · exact hy.upd

theorem Panel.Alike.crownWrite {part ga : Nat} {bs : List Byte} (h : p.Alike view q) :
    p.Alike view (q.crownWrite part ga bs).2 := by
  refine Panel.Alike.foldlOn (fun y : Nat × List Byte × Panel => y.2.2) (fun y x hy => ?_) _ h
  dsimp only
  split
  next he => exact hy.crownAt_error he
  · exact hy.upd

theorem Panel.Alike.svcWrite {off : Nat} {bs : List Byte} (h : p.Alike view q) : p.Alike view (q.svcWrite off bs) :=
  .ite h.crownWrite h

/-! ### Handles, the overflow list and pages (R247, R256, R267) -/

theorem Panel.Alike.setHandle {i : Nat} {e : HandleEnt} (h : p.Alike view q) : p.Alike view (q.setHandle i e) := h.upd.svcWrite

theorem Panel.Alike.freeHandle {handle : Nat} (h : p.Alike view q) : p.Alike view (q.freeHandle handle) := h.setHandle

theorem Panel.Alike.freePages {handle : Nat} (h : p.Alike view q) : p.Alike view (q.freePages handle) := h.upd

theorem Panel.Alike.pick {n uses : Nat} {used : Nat → Bool} (h : p.Alike view q) : p.Alike view (q.pick n uses used).2 := by
  unfold Panel.pick
  dsimp only
  split_ifs
  · exact h.upd
  · exact h.upd

theorem Panel.Alike.newHandle {x : Nat × Panel} (h : p.Alike view q) (hx : q.newHandle = some x) : p.Alike view x.2 := by
  unfold Panel.newHandle at hx
  dsimp only at hx
  split at hx
  · cases hx
  · cases hx
    exact h.pick

theorem Panel.Alike.setHeld {j : Nat} {e : Option CtxEntry} (h : p.Alike view q) : p.Alike view (q.setHeld j e) := by
  cases e with
  | none => exact h.upd
  | some e => exact h.upd.svcWrite

theorem Panel.Alike.readSide {e : CtxEntry} (h : p.Alike view q) : p.Alike view (q.readSide e).2.2 := h.crownRead

end

/-! ### What is sent, and what is stored (R246, R336, R338) -/

/-- A view that shows nothing of what a crown has sent. -/
def MailBlind {β : Type} (view : CrownDie → β) : Prop := ∀ (k : CrownDie) seq outq asked group next,
  view { k with nextSeq := seq, outq := outq, asked := asked, group := group, nextMsg := next } = view k

/-- A view that shows nothing of the context table. -/
def TableBlind {β : Type} (view : CrownDie → β) : Prop := ∀ (k : CrownDie) ctx, view { k with ctx := ctx } = view k

section
variable {β : Type} {view : CrownDie → β} {p q : Panel} (hm : MailBlind view)
include hm

theorem Panel.Alike.crownSend {c : Crown} {bulk : Bool} {use : CrownUse} {x : Header} {units : List Codeword}
    (h : p.Alike view q) : p.Alike view (q.crownSend c bulk use x units) := h.modCrown fun k => hm k _ _ _ k.group k.nextMsg

theorem Panel.Alike.peerSend {c : Crown} {dev tag : Nat} {use : CrownUse} {bs : List Byte} (h : p.Alike view q) :
    p.Alike view (q.peerSend c dev tag use bs) := h.crownSend hm

theorem Panel.Alike.groupSend {c : Crown} {dev tag : Nat} {bs : List Byte} {commit : Option Nat} (h : p.Alike view q) :
    p.Alike view (q.groupSend c dev tag bs commit) := (h.modCrown fun k => hm k k.nextSeq k.outq k.asked _ _).peerSend hm

theorem Panel.Alike.mirrorOut {c : Crown} {old new : CtxEntry} {commit : Option Nat} (h : p.Alike view q) :
    p.Alike view (q.mirrorOut c old new commit) := by
  unfold Panel.mirrorOut
  split
  · exact h
  · exact h.foldl fun _ _ hr => hr.groupSend hm

variable (ht : TableBlind view)
include ht

omit hm in
theorem Panel.Alike.storeEnt {n : Nat} {e : CtxEntry} (h : p.Alike view q) : p.Alike view (q.storeEnt n e) :=
  h.foldl fun _ _ hr => .ite hr (hr.modCrown fun k => ht k _)

theorem Panel.Alike.setEnt {n : Nat} {e : CtxEntry} {commit : Option Nat} (h : p.Alike view q) :
    p.Alike view (q.setEnt n e commit) := (h.storeEnt ht).mirrorOut hm

theorem Panel.Alike.setCtx {w : Place} {e : CtxEntry} (h : p.Alike view q) : p.Alike view (q.setCtx w e) := by
  cases w with
  | slot n => exact h.setEnt hm ht
  | held j => exact h.setHeld

end

/-! ### Engines and tables -/

/-- What the work on its contexts leaves of a crown: that it lives, its restart, its steps, and how many it has completed. -/
structure EngineView where
  lost : Bool
  restartAt : Option Nat
  steps : Sparse Step
  nextStep : Nat
  completed : Nat

def CrownDie.engine (k : CrownDie) : EngineView := ⟨k.lost, k.restartAt, k.steps, k.nextStep, k.rd Reg.CTX_STEPS⟩

/-- The engine with its context table. -/
def CrownDie.tables (k : CrownDie) : EngineView × Sparse CtxEntry := (k.engine, k.ctx)

theorem mailBlind_engine : MailBlind CrownDie.engine := fun _ _ _ _ _ _ => rfl
theorem mailBlind_tables : MailBlind CrownDie.tables := fun _ _ _ _ _ _ => rfl
theorem mailBlind_regs : MailBlind CrownDie.regs := fun _ _ _ _ _ _ => rfl
theorem tableBlind_engine : TableBlind CrownDie.engine := fun _ _ => rfl
theorem tableBlind_regs : TableBlind CrownDie.regs := fun _ _ => rfl

section
variable {p q : Panel}

/-- Panels that have the same tables have the same engines. -/
theorem Panel.Alike.engines (h : p.Alike CrownDie.tables q) : p.Alike CrownDie.engine q := h.map Prod.fst

theorem Panel.Alike.ctx (h : p.Alike CrownDie.tables q) (c : Crown) : (q.crown c).ctx = (p.crown c).ctx :=
  congrArg Prod.snd (h.crown c)

variable (h : p.Alike CrownDie.engine q)
include h

theorem Panel.Alike.lost (c : Crown) : (q.crown c).lost = (p.crown c).lost := congrArg EngineView.lost (h.crown c)

theorem Panel.Alike.restartAt (c : Crown) : (q.crown c).restartAt = (p.crown c).restartAt :=
  congrArg EngineView.restartAt (h.crown c)

theorem Panel.Alike.steps (c : Crown) : (q.crown c).steps = (p.crown c).steps := congrArg EngineView.steps (h.crown c)

theorem Panel.Alike.ctxLeader (half : Nat) : q.ctxLeader half = p.ctxLeader half := by
  simp only [Panel.ctxLeader, Panel.leader, Panel.away, h.lost, h.restartAt, h.2]
  rfl

theorem Panel.Alike.slotLeader (n : Nat) : q.slotLeader n = p.slotLeader n := h.ctxLeader _

theorem Panel.Alike.inStep (handle : Nat) : q.inStep handle = p.inStep handle := by simp only [Panel.inStep, h.steps]

end

theorem Panel.Alike.ent {p q : Panel} (h : p.Alike CrownDie.tables q) (n : Nat) : q.ent n = p.ent n := by
  rw [Panel.ent, h.engines.slotLeader, h.ctx, Panel.ent]

theorem Panel.Alike.slots {p q : Panel} (h : p.Alike CrownDie.tables q) : q.slots = p.slots := by
  simp only [Panel.slots, h.engines.ctxLeader, h.ctx]

/-! ### Entries written in a slot (R246) -/

/-- A crown lives. -/
def Panel.crownLives (p : Panel) : Prop := ∃ c, (p.crown c).lost = false

theorem Panel.crownLives_of_engineOn {p : Panel} {c : Crown} (h : p.engineOn c = true) : p.crownLives := by
  simp only [Panel.engineOn, Bool.and_eq_true, Bool.not_eq_true'] at h
  exact ⟨c, h.1.2⟩

theorem Panel.Alike.crownLives {p q : Panel} (h : p.Alike CrownDie.engine q) (hp : p.crownLives) : q.crownLives :=
  hp.imp fun c hc => (h.lost c).trans hc

theorem Panel.leader_lives {p : Panel} (hp : p.crownLives) (half : Nat) : (p.crown (p.leader half)).lost = false := by
  obtain ⟨c, hc⟩ := hp
  have hother (o : Crown) (ho : (p.crown o).lost = true) : (p.crown o.other).lost = false := by
    have hne : c ≠ o := by rintro rfl; rw [hc] at ho; cases ho
    rwa [show o.other = c by cases c <;> cases o <;> first | rfl | exact absurd rfl hne]
  unfold Panel.leader
  dsimp only
  split_ifs with hhalf hlost hlost
  · exact hother _ hlost
  · simpa using hlost
  · exact hother _ hlost
  · simpa using hlost

/-- Where a crown lives, one that lives leads each slot. -/
theorem Panel.slotLeader_lives {p : Panel} (hp : p.crownLives) (n : Nat) : (p.crown (p.slotLeader n)).lost = false := by
  unfold Panel.slotLeader Panel.ctxLeader
  dsimp only
  split_ifs with hhalf haway haway
  · simp only [Bool.and_eq_true, Bool.not_eq_true'] at haway
    exact haway.1.2
  · exact p.leader_lives hp _
  · simp only [Bool.and_eq_true, Bool.not_eq_true'] at haway
    exact haway.1.2
  · exact p.leader_lives hp _

theorem Panel.ctx_storeEnt (p : Panel) (n : Nat) (e : CtxEntry) {c : Crown} (hc : (p.crown c).lost = false) :
    ((p.storeEnt n e).crown c).ctx = if e.state = 0 then drop (p.crown c).ctx n else put (p.crown c).ctx n e := by
  have hturn (q : Panel) (o : Crown) (hne : c ≠ o) (f : CrownDie → CrownDie) :
      (if (q.crown o).lost then q else q.modCrown o f).crown c = q.crown c := by
    split_ifs
    · rfl
    · exact q.crown_modCrown_other f hne
  unfold Panel.storeEnt
  simp only [List.foldl_cons, List.foldl_nil]
  cases c with
  | north =>
    rw [hturn _ _ (by decide), if_neg (by simp [hc]), Panel.crown_modCrown]
  | south =>
    have hfirst := hturn p .north (by decide) fun k =>
      { k with ctx := if e.state = 0 then drop k.ctx n else put k.ctx n e }
    rw [if_neg (by rw [hfirst, hc]; exact Bool.false_ne_true), Panel.crown_modCrown, hfirst]

theorem Panel.ent_storeEnt {p : Panel} (hp : p.crownLives) (n : Nat) (e : CtxEntry) :
    (p.storeEnt n e).ent n = if e.state = 0 then {} else e := by
  rw [Panel.ent, ((Panel.Alike.refl p).storeEnt tableBlind_engine).slotLeader, p.ctx_storeEnt n e (p.slotLeader_lives hp n)]
  split_ifs
  · rw [look, find_drop_same]
    rfl
  · exact look_put_same ..

/-- An entry written in a slot is what the slot's leader reads there; a free entry leaves the slot empty. -/
theorem Panel.ent_setEnt {p : Panel} (hp : p.crownLives) (n : Nat) (e : CtxEntry) (commit : Option Nat) :
    (p.setEnt n e commit).ent n = if e.state = 0 then {} else e :=
  (((Panel.Alike.refl _).mirrorOut mailBlind_tables).ent n).trans (p.ent_storeEnt hp n e)

/-! ### Where a context stands (R247) -/

/-- A group message keeps what every change of a crown keeps. -/
theorem groupSend_keeps {γ : Type} {part : Panel → γ} (hpart : ∀ p c f, part (Panel.modCrown p c f) = part p) (p : Panel) (c : Crown)
    (dev tag : Nat) (bs : List Byte) (commit : Option Nat) : part (p.groupSend c dev tag bs commit) = part p := by
  simp only [Panel.groupSend, Panel.peerSend, Panel.crownSend, hpart]

/-- An entry written in a slot, or sent to the standby, keeps what every change of a crown keeps. -/
theorem setEnt_keeps {γ : Type} {part : Panel → γ} (hpart : ∀ p c f, part (Panel.modCrown p c f) = part p) (p : Panel) (n : Nat)
    (e : CtxEntry) (commit : Option Nat) : part (p.setEnt n e commit) = part p := by
  have hstore : part (p.storeEnt n e) = part p := foldl_keeps (fun p c => by split_ifs <;> simp only [hpart]) _ p
  refine Eq.trans ?_ hstore
  unfold Panel.setEnt Panel.mirrorOut
  dsimp only
  split
  · rfl
  · exact foldl_keeps (fun _ _ => groupSend_keeps hpart ..) _ _

section
variable {γ : Type} {part : Panel → γ} (hhub : ∀ p n k, part (Panel.setHub p n k) = part p)
  (hsh : ∀ p o n, part (Panel.bumpSh p o n) = part p)
include hhub hsh

/-- An access of HBM that is refused keeps what a change of a hub and a count of what crowns share keep. -/
theorem crownAt_error_keeps {p q : Panel} {mpart ga n st : Nat} {writes : Bool} (h : p.crownAt mpart ga n writes = .error (st, q)) :
    part q = part p := by
  unfold Panel.crownAt at h
  split at h
  · cases h
    exact hsh ..
  · dsimp only at h
    split_ifs at h
    · cases h
      rfl
    · cases h
      rfl
    · split at h
      · cases h
        exact hhub ..
      · cases h
  · cases h
    rfl

/-- So does a read of a crown in HBM. -/
theorem crownRead_keeps (p : Panel) (mpart ga n : Nat) : part (p.crownRead mpart ga n).2.2 = part p := by
  refine List.foldlRecOn (motive := fun (acc : Nat × List Byte × Panel) => part acc.2.2 = part p) _ _ rfl fun acc hacc x _ => ?_
  split
  next he => exact (crownAt_error_keeps hhub hsh he).trans hacc
  · exact (hhub ..).trans hacc

/-- So does a write of a crown into HBM. -/
theorem crownWrite_keeps (p : Panel) (mpart ga : Nat) (bs : List Byte) : part (p.crownWrite mpart ga bs).2 = part p := by
  unfold Panel.crownWrite
  dsimp only
  refine List.foldlRecOn (motive := fun (acc : Nat × List Byte × Panel) => part acc.2.2 = part p) _ _ rfl fun acc hacc x _ => ?_
  split
  next he => exact (crownAt_error_keeps hhub hsh he).trans hacc
  · exact (hhub ..).trans hacc

theorem svcWrite_keeps (p : Panel) (off : Nat) (bs : List Byte) : part (p.svcWrite off bs) = part p := by
  unfold Panel.svcWrite
  dsimp only
  split_ifs
  · exact crownWrite_keeps hhub hsh ..
  · rfl

/-- A handle set keeps what a write into HBM keeps and does not turn on the handles. -/
theorem setHandle_keeps (hh : ∀ (p : Panel) m, part { p with handles := m } = part p) (p : Panel) (i : Nat) (h : HandleEnt) :
    part (p.setHandle i h) = part p := (svcWrite_keeps hhub hsh ..).trans (hh ..)

end

theorem Panel.handles_setHandle (p : Panel) (i : Nat) (h : HandleEnt) : (p.setHandle i h).handles = put p.handles i h :=
  svcWrite_keeps (part := Panel.handles) (fun _ _ _ => rfl) (fun _ _ _ => rfl) ..

theorem Panel.handles_setEnt (p : Panel) (n : Nat) (e : CtxEntry) (commit : Option Nat) :
    (p.setEnt n e commit).handles = p.handles := setEnt_keeps (part := Panel.handles) (fun _ _ _ => rfl) ..

theorem Panel.whereIs_congr {p q : Panel} (h : q.handles = p.handles) (handle : Nat) : q.whereIs handle = p.whereIs handle := by
  rw [Panel.whereIs, h]
  rfl

/-- A handle stands where its entry of the handle map, of its own generation, says. -/
theorem Panel.whereIs_of_put {p : Panel} {m : Sparse HandleEnt} {handle : Nat} {w : Option Place}
    (h : p.handles = put m (handleIndex handle) { gen := handleGen handle, live := w }) : p.whereIs handle = w := by
  rw [Panel.whereIs, h, find_put_same]
  exact if_pos rfl

end Sys2Proof.Machine
end

section
/-! PROOFS. Admission and cancellation (R252, R254, R255, R273, R361): what an answered request and a delivered record leave of the
crowns, what an accepted context is given, and how a cancelled one ends. -/

namespace Sys2Proof.Machine

/-! ### Requests taken and answered (R360, R361) -/

theorem Panel.nextReq_some {p q : Panel} {c : Crown} {op : Nat → Bool} {r : Req} (h : p.nextReq c op = some (r, q)) :
    ∃ rest, q = p.popReq c rest := by
  unfold Panel.nextReq at h
  split at h
  · cases h
  next rest _ =>
    split_ifs at h
    cases h
    exact ⟨rest, rfl⟩

theorem Panel.Alike.nextReq {β : Type} {view : CrownDie → β} {p q r : Panel} {c : Crown} {op : Nat → Bool} {x : Req}
    (h : p.Alike view q) (hx : q.nextReq c op = some (x, r)) (hview : ∀ k l, view { k with reqs := l } = view k) : p.Alike view r := by
  obtain ⟨rest, rfl⟩ := Panel.nextReq_some hx
  exact h.modCrown fun k => hview k rest

/-- An answer to a request keeps what a change of a queue set, of a crown and of what is sent outside keep. -/
theorem finishReq_keeps {γ : Type} {part : Panel → γ} (hq : ∀ p q f, part (Panel.modQ p q f) = part p)
    (hc : ∀ p c f, part (Panel.modCrown p c f) = part p) (ho : ∀ p o, part (Panel.emit p o) = part p) (p : Panel) (r : Req)
    (handle status : Nat) (held : Bool) (model : Nat) : part (p.finishReq r handle status held model) = part p := by
  unfold Panel.finishReq Panel.hokuidAnswer
  dsimp only
  split
  · exact hq ..
  · split
    · rfl
    · exact (ho ..).trans (hc ..)

theorem Panel.Alike.hokuidAnswer {β : Type} {view : CrownDie → β} {p q : Panel} (h : p.Alike view q)
    (hview : ∀ k l, view { k with sessions := l } = view k) {c : Crown} {n tag status : Nat} {body : List Byte} :
    p.Alike view (q.hokuidAnswer c n tag status body) := by
  unfold Panel.hokuidAnswer
  split
  · exact h
  · exact (h.modCrown fun k => hview k _).upd

theorem Panel.Alike.finishReq {β : Type} {view : CrownDie → β} {p q : Panel} (h : p.Alike view q)
    (hview : ∀ k l, view { k with sessions := l } = view k) {r : Req} {handle status : Nat} {held : Bool} {model : Nat} :
    p.Alike view (q.finishReq r handle status held model) := by
  unfold Panel.finishReq
  dsimp only
  split
  · exact h.upd
  · exact h.hokuidAnswer hview

/-- What a request of one panel is due, it is due of every panel with the same queue sets. -/
theorem Panel.completes_congr {p q t : Panel} (h : q.qsets = p.qsets) {r : Req} {handle status : Nat} {held : Bool} {model : Nat}
    (hq : q.completes t r handle status held model) : p.completes t r handle status held model := by
  simpa only [Panel.completes, Panel.qset, h] using hq

/-! ### Records delivered and contexts ended (R252, R273–R276) -/

theorem CrownDie.rd_wrap_same (k : CrownDie) (o n : Nat) : (k.wrap o n).rd o = (k.rd o + n) % 2 ^ 64 := by
  simp [CrownDie.rd, CrownDie.wrap, rfWrap]

theorem CrownDie.rd_wrap_other (k : CrownDie) {o j : Nat} (n : Nat) (h : j ≠ o) : (k.wrap o n).rd j = k.rd j := by
  simp [CrownDie.rd, CrownDie.wrap, rfWrap, rfGet_rfSet_other _ _ h]

theorem CrownDie.tables_bump (k : CrownDie) {o : Nat} (n : Nat) (h : Reg.CTX_STEPS ≠ o) : (k.bump o n).tables = k.tables := by
  simp only [CrownDie.tables, CrownDie.engine, k.rd_bump_other n h]
  rfl

theorem CrownDie.tables_wrap (k : CrownDie) {o : Nat} (n : Nat) (h : Reg.CTX_STEPS ≠ o) : (k.wrap o n).tables = k.tables := by
  simp only [CrownDie.tables, CrownDie.engine, k.rd_wrap_other n h]
  rfl

theorem Panel.alike_cbump (p : Panel) (c : Crown) {o : Nat} (n : Nat) (h : Reg.CTX_STEPS ≠ o) :
    p.Alike CrownDie.tables (p.cbump c o n) := (Panel.Alike.refl p).modCrown fun k => k.tables_bump n h

/-- A view that shows nothing of what a record delivered changes. -/
structure OutputBlind {β : Type} (view : CrownDie → β) : Prop where
  mail : MailBlind view
  fab : ∀ (k : CrownDie) f, view { k with fab := f } = view k
  tokens : ∀ k : CrownDie, view (k.wrap Reg.CTX_TOKENS 1) = view k
  losses : ∀ k : CrownDie, view (k.bump Reg.CTX_OUT_LOST_CNT) = view k

theorem outputBlind_tables : OutputBlind CrownDie.tables :=
  ⟨mailBlind_tables, fun _ _ => rfl, fun k => k.tables_wrap 1 (by decide), fun k => k.tables_bump 1 (by decide)⟩

theorem outputBlind_commits : OutputBlind CrownDie.commits := ⟨fun _ _ _ _ _ _ => rfl, fun _ _ => rfl, fun _ => rfl, fun _ => rfl⟩

section
variable {β : Type} {view : CrownDie → β} {p q : Panel} (ho : OutputBlind view) (h : p.Alike view q)
include ho h

theorem Panel.Alike.fabPump {c : Crown} {key : Nat} : p.Alike view (q.fabPump c key) := by
  unfold Panel.fabPump
  dsimp only
  split_ifs
  · exact h
  · exact .peerSend ho.mail (h.modCrown fun k => ho.fab k _)

theorem Panel.Alike.deliver {c : Crown} {e : CtxEntry} {bs : List Byte} : p.Alike view (q.deliver c e bs) := by
  unfold Panel.deliver
  extract_lets last r key
  have hr : p.Alike view r := .ite h (h.modCrown ho.tokens)
  clear_value r
  split_ifs
  · exact .fabPump ho (hr.modCrown fun k => ho.fab k _)
  · exact hr.upd
  · exact hr.modCrown ho.losses
  · exact hr

end

/-- A delivered record leaves the tables. -/
theorem Panel.alike_deliver (p : Panel) (c : Crown) (e : CtxEntry) (bs : List Byte) :
    p.Alike CrownDie.tables (p.deliver c e bs) := (Panel.Alike.refl p).deliver outputBlind_tables

theorem Panel.alike_deliverAll (p : Panel) (c : Crown) (e : CtxEntry) (recs : List (List Byte)) :
    p.Alike CrownDie.tables (recs.foldl (fun p bs => p.deliver c e bs) p) :=
  (Panel.Alike.refl p).foldl fun _ _ h => h.trans (Panel.alike_deliver ..)

theorem Panel.alike_commitRecs (p : Panel) (c : Crown) (e : CtxEntry) (recs : List (List Byte)) (standby : Nat) :
    p.Alike CrownDie.tables (p.commitRecs c e recs standby) :=
  .ite (p.alike_deliverAll c e recs) ((Panel.Alike.refl p).modCrown fun _ => rfl)

/-- Tables that stay leave the engines that were there. -/
theorem Panel.Alike.andTables {p q r : Panel} (h : p.Alike CrownDie.engine q) (h' : q.Alike CrownDie.tables r) :
    p.Alike CrownDie.engine r := h.trans h'.engines

/-- The panel once the final record of a context has gone out, waits for its mirror, or is known to be lost. -/
def Panel.lastRecord (p : Panel) (c : Crown) (e : CtxEntry) (reason status : Nat) (lost : Bool) : Panel :=
  let bs := recBytes e.handle e.pos 0xFFFFFFFF 0 status false false false e.replay reason true
  if lost then p.cbump c Reg.CTX_OUT_LOST_CNT
  else if (p.crown c).commits.any (·.handle = e.handle) then p.commitRecs c e [bs] 0
  else p.deliver c e bs

theorem Panel.alike_lastRecord (p : Panel) (c : Crown) (e : CtxEntry) (reason status : Nat) (lost : Bool) :
    p.Alike CrownDie.tables (p.lastRecord c e reason status lost) :=
  .ite (p.alike_cbump c (o := Reg.CTX_OUT_LOST_CNT) 1 (by decide)) (.ite (Panel.alike_commitRecs ..) (Panel.alike_deliver ..))

/-- The entry of a context that drains. -/
def CtxEntry.drained (e : CtxEntry) : CtxEntry := { e with state := 5, cancel := false, failing := none, waiting := false }

/-- A context that ends in a slot drains there. -/
theorem Panel.ent_finishCtx {p : Panel} (hp : p.crownLives) (n : Nat) (e : CtxEntry) (reason status : Nat) (lost : Bool) :
    (p.finishCtx (.slot n) e reason status lost).ent n = e.drained :=
  Panel.ent_setEnt ((p.alike_lastRecord _ e reason status lost).engines.crownLives hp) n e.drained none

/-- A context that can end does so at once when it is in no step. -/
theorem Panel.endCtx_now {p : Panel} {e : CtxEntry} (h0 : e.state ≠ 0) (h5 : e.state ≠ 5) (hstep : p.inStep e.handle = false)
    (w : Place) (reason status : Nat) (lost : Bool) :
    p.endCtx w e reason status lost = p.finishCtx w e reason status lost := by
  rw [Panel.endCtx, if_neg (by simp [h0, h5]), if_neg (by simp [hstep])]

/-- A context that is in a step notes its cancellation for the step's boundary. -/
theorem Panel.endCtx_later {p : Panel} {e : CtxEntry} (h0 : e.state ≠ 0) (h5 : e.state ≠ 5) (hstep : p.inStep e.handle = true)
    (w : Place) (status : Nat) (lost : Bool) : p.endCtx w e 6 status lost = p.setCtx w { e with cancel := true } := by
  rw [Panel.endCtx, if_neg (by simp [h0, h5]), if_pos hstep, if_pos rfl]

/-! ### Free numbers (R247, R256) -/

theorem Panel.pick_snd (p : Panel) (n uses : Nat) (used : Nat → Bool) : (p.pick n uses used).2 = p.draw.2 := by
  unfold Panel.pick
  dsimp only
  split_ifs <;> rfl

theorem Panel.newHandle_some {p q : Panel} {h : Nat} (hx : p.newHandle = some (h, q)) : q = p.draw.2 := by
  unfold Panel.newHandle at hx
  dsimp only at hx
  split at hx
  · cases hx
  · cases hx
    exact p.pick_snd ..

theorem mem_keys_of_find {α : Type} : ∀ {m : Sparse α} {k : Nat}, (find m k).isSome = true → k ∈ m.map Prod.fst
  | (j, _) :: m, k, h => by
    rw [find] at h
    split_ifs at h with hk
    · exact List.mem_cons.2 (.inl hk)
    · exact List.mem_cons.2 (.inr (mem_keys_of_find h))

/-- Among as many numbers in a row as a map lists keys, and one more, one is not listed. -/
theorem exists_unlisted {α : Type} {n : Nat} (m : Sparse α) (h : m.length < n) (start : Nat) :
    ∃ k, start ≤ k ∧ k < start + (m.length + 1) ∧ (find m (k % n)).isSome = false := by
  by_contra hall
  simp only [not_exists, not_and, Bool.not_eq_false] at hall
  have hsub : (Finset.range (m.length + 1)).image (fun i => (start + i) % n) ⊆ (m.map Prod.fst).toFinset := by
    intro x hx
    obtain ⟨i, hi, rfl⟩ := Finset.mem_image.1 hx
    have hi := Finset.mem_range.1 hi
    exact List.mem_toFinset.2 (mem_keys_of_find (hall (start + i) (by omega) (by omega)))
  have hcard := Finset.card_le_card hsub
  rw [Finset.card_image_of_injOn, Finset.card_range] at hcard
  · have hkeys := (m.map Prod.fst).toFinset_card_le
    rw [List.length_map] at hkeys
    omega
  · intro i hi j hj hij
    have hi := Finset.mem_range.1 hi
    have hj := Finset.mem_range.1 hj
    exact Nat.ModEq.eq_of_lt_of_lt (Nat.ModEq.add_left_cancel' start hij) (by omega) (by omega)

/-- A record is picked while the list has room. -/
theorem Panel.pick_unlisted {α : Type} (p : Panel) (m : Sparse α) {n : Nat} (h : m.length < n) :
    ∃ j, p.pick n m.length (fun i => (find m i).isSome) = (some j, p.draw.2) ∧ find m j = none := by
  obtain ⟨k, hlo, hhi, hk⟩ := exists_unlisted m h p.draw.1.toNat
  obtain ⟨j, hj, -, hfree⟩ := freeFrom_some (n := n) (by omega) (fuel := min n (m.length + 1)) (start := p.draw.1.toNat)
    (used := fun i => (find m i).isSome) hlo (by omega) hk
  refine ⟨j, ?_, by simpa using hfree⟩
  rw [Panel.pick, if_neg (by omega), hj]

/-! ### What an accepted context is given (R255) -/

/-- A context admitted into a slot. -/
def Panel.admitInto (p : Panel) (c : Crown) (r : Req) (e : CtxEntry) (h n : Nat) : Panel :=
  (((p.setHandle (handleIndex h) { gen := handleGen h, live := some (.slot n) }).setEnt n { e with handle := h }).cbump c
    Reg.CTX_ADMIT_CNT).finishReq r h St.done false e.model

/-- A context admitted into a record of the overflow list. -/
def Panel.admitHeld (p : Panel) (c : Crown) (r : Req) (e : CtxEntry) (h j : Nat) : Panel :=
  (((p.setHandle (handleIndex h) { gen := handleGen h, live := some (.held j) }).setHeld j
    (some { e with handle := h, state := 4, held := true })).cbump c Reg.CTX_HELD_CNT).finishReq r h St.done true e.model

/-- The entry that passes the checks is a new one of the model that the request names; the checks read its side block. -/
theorem Panel.admitCheck_some {p q : Panel} {c : Crown} {r : Req} {e : CtxEntry} (h : p.admitCheck c r = some (e, q)) :
    e.state = 1 ∧ e.model = bits (leAt r.bytes 1 1) 7 4 ∧ ∃ part, q = (p.crownRead part e.side 2048).2.2 := by
  unfold Panel.admitCheck at h
  split at h
  next part d _ _ =>
    dsimp only at h
    split_ifs at h
    cases h
    exact ⟨rfl, rfl, part, rfl⟩
  · cases h

theorem Panel.alike_admitCheck {β : Type} {view : CrownDie → β} {p q : Panel} {c : Crown} {r : Req} {e : CtxEntry}
    (h : p.admitCheck c r = some (e, q)) : p.Alike view q := by
  obtain ⟨-, -, part, rfl⟩ := Panel.admitCheck_some h
  exact (Panel.Alike.refl p).crownRead

theorem Panel.admitCheck_qsets {p q : Panel} {c : Crown} {r : Req} {e : CtxEntry} (h : p.admitCheck c r = some (e, q)) :
    q.qsets = p.qsets := by
  obtain ⟨-, -, part, rfl⟩ := Panel.admitCheck_some h
  exact crownRead_keeps (part := Panel.qsets) (fun _ _ _ => rfl) (fun _ _ _ => rfl) ..

section
variable {s : State} {c : Crown} {r : Req} {p0 q q' : Panel} {e : CtxEntry} {h : Nat} (hon : s.panel.engineOn c = true)
  (hreq : s.panel.nextReq c (· == 1) = some (r, p0)) (hrole : p0.ctxRole c ≠ 2) (hcheck : p0.admitCheck c r = some (e, q))
  (hnew : q.newHandle = some (h, q'))

/-- No slot is to be had: the partition holds as many as it may, or none is free. -/
def Panel.noSlot (p : Panel) (c : Crown) (part : Nat) : Prop :=
  (p.crown c).rd (Reg.CTX_PLIM + 4 * part) % 2 ^ 17 ≤ p.slotsOf part ∨ p.freeSlot = none

theorem Panel.noSlot_iff (p : Panel) (c : Crown) (part : Nat) : p.noSlot c part ↔
    (if p.slotsOf part < (p.crown c).rd (Reg.CTX_PLIM + 4 * part) % 2 ^ 17 then p.freeSlot else none) = none := by
  unfold Panel.noSlot
  split_ifs with hlt
  · exact ⟨fun h => h.resolve_left (not_le.2 hlt), .inr⟩
  · exact ⟨fun _ => rfl, fun _ => .inl (not_lt.1 hlt)⟩

include hon hreq hrole hcheck hnew

theorem exec_admitSlot_slot {n : Nat} (hlimit : q.slotsOf e.part < (q.crown c).rd (Reg.CTX_PLIM + 4 * e.part) % 2 ^ 17)
    (hfree : q.freeSlot = some n) :
    exec (.admitSlot c) s = .next { s with panel := q'.admitInto c r e h n } := by
  obtain ⟨-, hmodel, -⟩ := Panel.admitCheck_some hcheck
  change execAdmit c s = _
  rw [execAdmit, atCrown_engineOn hon]
  congr 2
  simp only [hreq, if_neg hrole, hcheck, hnew, if_pos hlimit, hfree, ← hmodel]
  rfl

theorem exec_admitSlot_full (hno : q.noSlot c e.part) (hovf : ((q.crown c).rd Reg.CTX_OVF_CFG).testBit 31 = false) :
    exec (.admitSlot c) s = .next { s with panel := (q'.cbump c Reg.CTX_FULL_CNT).finishReq r 0 St.contextsFull false e.model } := by
  obtain ⟨-, hmodel, -⟩ := Panel.admitCheck_some hcheck
  change execAdmit c s = _
  rw [execAdmit, atCrown_engineOn hon]
  congr 2
  simp only [hreq, if_neg hrole, hcheck, hnew, (q.noSlot_iff c _).1 hno, hovf, ← hmodel]
  rfl

theorem exec_admitSlot_held (hno : q.noSlot c e.part) (hovf : ((q.crown c).rd Reg.CTX_OVF_CFG).testBit 31 = true)
    (hroom : q.heldRecs.length < bits ((q.crown c).rd Reg.CTX_OVF_CFG) 20 0) (hlist : q.heldRecs.length < 2 ^ 20) :
    ∃ j, find q.heldRecs j = none ∧
      exec (.admitSlot c) s = .next { s with panel := q'.draw.2.admitHeld c r e h j } := by
  obtain ⟨-, hmodel, -⟩ := Panel.admitCheck_some hcheck
  have hq' : q'.heldRecs = q.heldRecs := by rw [Panel.newHandle_some hnew]; rfl
  obtain ⟨j, hpick, hj⟩ := q'.pick_unlisted q.heldRecs hlist
  refine ⟨j, hj, ?_⟩
  change execAdmit c s = _
  rw [execAdmit, atCrown_engineOn hon]
  congr 2
  simp only [hreq, if_neg hrole, hcheck, hnew, (q.noSlot_iff c _).1 hno, hovf, hq', not_le.2 hroom, hpick, ← hmodel]
  rfl

end

section
variable (p : Panel) (c : Crown) (r : Req) (e : CtxEntry) (h n j : Nat)

theorem Panel.ent_admitInto (hp : p.crownLives) (he : e.state ≠ 0) : (p.admitInto c r e h n).ent n = { e with handle := h } := by
  have hset : p.Alike CrownDie.engine (p.setHandle (handleIndex h) { gen := handleGen h, live := some (.slot n) }) :=
    (Panel.Alike.refl p).setHandle
  have hrest (q : Panel) : q.Alike CrownDie.tables ((q.cbump c Reg.CTX_ADMIT_CNT).finishReq r h St.done false e.model) :=
    (q.alike_cbump c 1 (by decide)).finishReq fun _ _ => rfl
  rw [Panel.admitInto, (hrest _).ent, Panel.ent_setEnt (hset.crownLives hp), if_neg he]

theorem Panel.whereIs_admitInto : (p.admitInto c r e h n).whereIs h = some (.slot n) := by
  refine Panel.whereIs_of_put (m := p.handles) ?_
  rw [Panel.admitInto, finishReq_keeps (part := Panel.handles) (fun _ _ _ => rfl) (fun _ _ _ => rfl) (fun _ _ => rfl), Panel.cbump,
    Panel.modCrown_handles, Panel.handles_setEnt, Panel.handles_setHandle]

theorem Panel.rd_admitInto : ((p.admitInto c r e h n).crown c).rd Reg.CTX_ADMIT_CNT =
    min cntTop ((p.crown c).rd Reg.CTX_ADMIT_CNT + 1) := by
  have hset : p.Alike CrownDie.regs
      ((p.setHandle (handleIndex h) { gen := handleGen h, live := some (.slot n) }).setEnt n { e with handle := h }) :=
    (Panel.Alike.refl p).setHandle.setEnt mailBlind_regs tableBlind_regs
  have hdone (q : Panel) : q.Alike CrownDie.regs (q.finishReq r h St.done false e.model) :=
    (Panel.Alike.refl q).finishReq fun _ _ => rfl
  rw [Panel.admitInto, CrownDie.rd, (hdone _).crown, ← CrownDie.rd, Panel.cbump, Panel.crown_modCrown, CrownDie.rd_bump_same,
    CrownDie.rd, hset.crown, ← CrownDie.rd]

theorem Panel.completes_admitInto : p.completes (p.admitInto c r e h n) r h St.done false e.model := by
  refine Panel.completes_congr ?_ (Panel.finishReq_completes _ r h St.done _ e.model)
  rw [Panel.cbump, Panel.modCrown_qsets, setEnt_keeps (part := Panel.qsets) fun _ _ _ => rfl]
  exact setHandle_keeps (part := Panel.qsets) (fun _ _ _ => rfl) (fun _ _ _ => rfl) (fun _ _ => rfl) ..

/-- A record of the overflow list written keeps what a write into HBM keeps and does not turn on the list. -/
theorem setHeld_keeps {γ : Type} {part : Panel → γ} (hhub : ∀ p n k, part (Panel.setHub p n k) = part p)
    (hsh : ∀ p o n, part (Panel.bumpSh p o n) = part p) (hl : ∀ (p : Panel) m, part { p with heldRecs := m } = part p) (p : Panel)
    (j : Nat) (e : Option CtxEntry) : part (p.setHeld j e) = part p := by
  cases e with
  | none => exact hl ..
  | some e => exact (svcWrite_keeps hhub hsh ..).trans (hl ..)

theorem Panel.heldRecs_setHandle (i : Nat) (w : HandleEnt) : (p.setHandle i w).heldRecs = p.heldRecs :=
  setHandle_keeps (part := Panel.heldRecs) (fun _ _ _ => rfl) (fun _ _ _ => rfl) (fun _ _ => rfl) ..

theorem Panel.heldRecs_finishReq (status : Nat) (held : Bool) (model : Nat) :
    (p.finishReq r h status held model).heldRecs = p.heldRecs :=
  finishReq_keeps (part := Panel.heldRecs) (fun _ _ _ => rfl) (fun _ _ _ => rfl) (fun _ _ => rfl) ..

theorem Panel.find_admitHeld :
    find (p.admitHeld c r e h j).heldRecs j = some { e with handle := h, state := 4, held := true } := by
  have hheld (q : Panel) (x : CtxEntry) : (q.setHeld j (some x)).heldRecs = put q.heldRecs j x :=
    svcWrite_keeps (part := Panel.heldRecs) (fun _ _ _ => rfl) (fun _ _ _ => rfl) ..
  rw [Panel.admitHeld, Panel.heldRecs_finishReq, Panel.cbump, Panel.modCrown_heldRecs, hheld, find_put_same]

theorem Panel.whereIs_admitHeld : (p.admitHeld c r e h j).whereIs h = some (.held j) := by
  refine Panel.whereIs_of_put (m := p.handles) ?_
  rw [Panel.admitHeld, finishReq_keeps (part := Panel.handles) (fun _ _ _ => rfl) (fun _ _ _ => rfl) (fun _ _ => rfl), Panel.cbump,
    Panel.modCrown_handles, setHeld_keeps (part := Panel.handles) (fun _ _ _ => rfl) (fun _ _ _ => rfl) (fun _ _ => rfl),
    Panel.handles_setHandle]

theorem Panel.completes_admitHeld : p.completes (p.admitHeld c r e h j) r h St.done true e.model := by
  refine Panel.completes_congr ?_ (Panel.finishReq_completes _ r h St.done _ e.model)
  rw [Panel.cbump, Panel.modCrown_qsets, setHeld_keeps (part := Panel.qsets) (fun _ _ _ => rfl) (fun _ _ _ => rfl) (fun _ _ => rfl)]
  exact setHandle_keeps (part := Panel.qsets) (fun _ _ _ => rfl) (fun _ _ _ => rfl) (fun _ _ => rfl) ..

end

/-! ### Cancellation (R273) -/

/-- A context is found alike in panels of the same tables, handles and list. -/
theorem Panel.ctxOf_congr {p q : Panel} (h : p.Alike CrownDie.tables q) (hh : q.handles = p.handles) (hl : q.heldRecs = p.heldRecs)
    (handle : Nat) : q.ctxOf handle = p.ctxOf handle := by
  simp only [Panel.ctxOf, Panel.whereIs_congr hh, h.ent, hl]

theorem exec_cancel {s : State} {c : Crown} {r : Req} {p0 : Panel} {w : Place} {e : CtxEntry} (hon : s.panel.engineOn c = true)
    (hreq : s.panel.nextReq c (· == 2) = some (r, p0)) (hctx : s.panel.ctxOf (leAt r.bytes 4 4) = some (w, e))
    (hpart : r.part = some e.part) : exec (.cancel c) s =
      .next { s with panel := (p0.finishReq r (leAt r.bytes 4 4) St.done false 0).endCtx w e 6 0 } := by
  have halike : s.panel.Alike CrownDie.tables p0 := .nextReq (.refl _) hreq fun _ _ => rfl
  have hctx' : p0.ctxOf (leAt r.bytes 4 4) = some (w, e) := by
    obtain ⟨rest, rfl⟩ := Panel.nextReq_some hreq
    exact (Panel.ctxOf_congr halike rfl rfl _).trans hctx
  change execCancel c s = _
  rw [execCancel, atCrown_engineOn hon]
  congr 2
  simp only [hreq, hctx', hpart, ne_eq, not_true, if_false]

theorem admissionsComplete : Completion.AdmissionsComplete := by
  refine ⟨fun s c r p0 q q' e h hon hreq hrole hcheck hnew => ?_, fun s c r p0 n e hon hreq hctx hpart h0 h5 => ?_⟩
  · obtain ⟨hstate, -, -⟩ := Panel.admitCheck_some hcheck
    have hlives : q'.crownLives := by
      have hfirst : s.panel.Alike CrownDie.engine p0 := .nextReq (.refl _) hreq fun _ _ => rfl
      have hchecked : s.panel.Alike CrownDie.engine q := hfirst.trans (Panel.alike_admitCheck hcheck)
      exact (hchecked.newHandle hnew).crownLives (Panel.crownLives_of_engineOn hon)
    have hqsets : q'.qsets = s.panel.qsets := by
      obtain ⟨rest, rfl⟩ := Panel.nextReq_some hreq
      rw [Panel.newHandle_some hnew]
      exact (Panel.admitCheck_qsets hcheck : q.qsets = (s.panel.popReq c rest).qsets)
    have hheld : q'.heldRecs = q.heldRecs := by rw [Panel.newHandle_some hnew]; rfl
    have hcrown : q'.crown c = q.crown c := by rw [Panel.newHandle_some hnew]; rfl
    refine ⟨fun n hlimit hfree => ?_, fun hno hovf hroom hlist => ?_, fun hno hovf => ?_⟩
    · refine ⟨_, exec_admitSlot_slot hon hreq hrole hcheck hnew hlimit hfree, ?_, Panel.whereIs_admitInto .., ?_, ?_⟩
      · exact q'.ent_admitInto c r e h n hlives (by omega)
      · exact hcrown ▸ q'.rd_admitInto c r e h n
      · exact Panel.completes_congr hqsets (q'.completes_admitInto c r e h n)
    · obtain ⟨j, hj, hexec⟩ := exec_admitSlot_held hon hreq hrole hcheck hnew hno hovf hroom hlist
      exact ⟨_, j, hexec, hj, Panel.whereIs_admitHeld .., Panel.find_admitHeld ..,
        Panel.completes_congr hqsets (q'.draw.2.completes_admitHeld c r e h j)⟩
    · refine ⟨_, exec_admitSlot_full hon hreq hrole hcheck hnew hno hovf, ?_, ?_, ?_⟩
      · exact (Panel.heldRecs_finishReq ..).trans hheld
      · have hdone : (q'.cbump c Reg.CTX_FULL_CNT).Alike CrownDie.regs
            ((q'.cbump c Reg.CTX_FULL_CNT).finishReq r 0 St.contextsFull false e.model) := (Panel.Alike.refl _).finishReq fun _ _ => rfl
        rw [CrownDie.rd, hdone.crown, ← CrownDie.rd, Panel.cbump, Panel.crown_modCrown, CrownDie.rd_bump_same, hcrown]
      · exact Panel.completes_congr (q := q'.cbump c Reg.CTX_FULL_CNT) hqsets (Panel.finishReq_completes _ r 0 St.contextsFull false e.model)
  · have halike : s.panel.Alike CrownDie.engine (p0.finishReq r (leAt r.bytes 4 4) St.done false 0) :=
      .finishReq (.nextReq (.refl _) hreq fun _ _ => rfl) fun _ _ => rfl
    have hlives := halike.crownLives (Panel.crownLives_of_engineOn hon)
    refine ⟨_, exec_cancel hon hreq hctx hpart, fun hstep => ?_, fun hstep => ?_⟩
    · rw [Panel.endCtx_later h0 h5 ((halike.inStep _).trans hstep), Panel.setCtx, Panel.ent_setEnt hlives, if_neg h0]
    · rw [Panel.endCtx_now h0 h5 ((halike.inStep _).trans hstep), Panel.ent_finishCtx hlives]
      rfl

end Sys2Proof.Machine
end

section
/-! PROOFS. Messages, swaps and the pager (R250, R257, R267, R268): what a message that arrives leaves of its crown, what a swap-in
leaves, and that the pager leaves the engines; from these and the admissions the obligation O18. -/

namespace Sys2Proof.Machine

/-! ### Messages (R250, R532) -/

theorem Panel.crowns_answerWith (p : Panel) (i : Issuer) (req x : Header) (units : List Codeword) :
    (p.answerWith i req x units).crowns = p.crowns := by
  unfold Panel.answerWith
  dsimp only
  split <;> rfl

theorem Panel.crown_complete (p : Panel) (i : Issuer) (req : Header) (st : Nat) (c : Crown) :
    (p.complete i req st).crown c = p.crown c := by
  rw [Panel.crown, Panel.complete, Panel.crowns_answerWith, Panel.crown]

theorem Panel.crown_refuse (p : Panel) (i : Issuer) (x : Packet) (st : Nat) (c : Crown) :
    (p.refuse i x st).crown c = p.crown c := by
  unfold Panel.refuse
  split_ifs
  · rw [Panel.crown, Panel.readRefuse, Panel.crowns_answerWith, Panel.crown]
  · exact Panel.crown_complete ..
  · rfl

/-- The panel once the packet at the head of a crown's arrivals has been taken. -/
def Panel.popPacket (p : Panel) (c : Crown) (rest : List Packet) : Panel :=
  p.setCrown c { p.crown c with arr := put (p.crown c).arr 0 rest }

/-- A packet as it stands in the message queue. -/
def Packet.message (x : Packet) : CtxMsg :=
  { tag := x.hdr.mtag, sc := x.hdr.sc, sr := x.hdr.sr, sedge := x.hdr.sedge, part := x.hdr.part, payload := x.payload.1 }

/-- That panel once the packet's message stands at the end of the queue. -/
def Panel.queueMessage (p : Panel) (c : Crown) (x : Packet) (rest : List Packet) : Panel :=
  (p.popPacket c rest).modCrown c fun k => { k with msgq := k.msgq ++ [x.message] }

section
variable {s : State} {c : Crown} {x : Packet} {rest : List Packet} (hon : s.panel.engineOn c = true)
  (harr : look [] (s.panel.crown c).arr 0 = x :: rest) (hop : x.hdr.opcode = Opc.msg)
include hon harr hop

theorem exec_ctxMsgReceive_queued (hkind : x.hdr.mkind = 2) (hga : bits x.hdr.ga 31 0 = 0) (hbytes : x.hdr.bytes ≤ 64)
    (hgood : x.payload.2.1 = false) (hnot : x.hdr.bytes ≠ 32 ∨ x.hdr.mtag ≠ 0xFFFF) (hroom : (s.panel.crown c).msgq.length < 256) :
    exec (.ctxMsgReceive c) s =
      .next { s with panel := (s.panel.queueMessage c x rest).complete (.crown c x.hdr.dc) x.hdr St.done } := by
  have hreport : ¬ (x.hdr.bytes = 32 ∧ x.hdr.mtag = 0xFFFF ∧ (s.panel.popPacket c rest).holdsStart c x.hdr = true) :=
    fun h => hnot.elim (· h.1) (· h.2.1)
  change execCtxMsgReceive c s = _
  rw [execCtxMsgReceive, atCrown_engineOn hon]
  congr 2
  simp only [harr, hop, hkind, hga, hgood, not_lt.2 hbytes, not_le.2 hroom, ne_eq, not_true, or_self, if_false, Bool.false_eq_true]
  exact if_neg hreport

theorem exec_ctxMsgReceive_refused (hkind : x.hdr.mkind ≠ 2) :
    exec (.ctxMsgReceive c) s = .next { s with panel :=
      ((s.panel.popPacket c rest).cbump c Reg.CTX_MSG_REFUSE_CNT).refuse (.crown c x.hdr.dc) x St.notPermitted } := by
  change execCtxMsgReceive c s = _
  rw [execCtxMsgReceive, atCrown_engineOn hon]
  congr 2
  simp only [harr, hop, ne_eq, not_true, if_false]
  exact if_pos (.inr hkind)

end

/-! ### Swaps (R257) -/

theorem exec_swapIn {s : State} {c : Crown} {j n : Nat} {e : CtxEntry} (hon : s.panel.engineOn c = true)
    (hnext : s.panel.nextHeld = some (j, e)) (hfree : s.panel.freeSlot = some n) :
    exec (.swapIn c) s = .next { s with panel := (s.panel.swapTo j n e).cbump c Reg.CTX_SWAP_CNT } := by
  change execSwapIn c s = _
  rw [execSwapIn, atCrown_engineOn hon]
  simp only [hnext, hfree]

/-- A held context as it stands in its slot. -/
def CtxEntry.swappedIn (e : CtxEntry) : CtxEntry :=
  { e with state := 3, slice := 0, swaps := min (2 ^ 32 - 1) (e.swaps + 1), swapped := true }

section
variable (p : Panel) (j n : Nat) (e : CtxEntry)

theorem Panel.heldRecs_swapTo : (p.swapTo j n e).heldRecs = drop p.heldRecs j := by
  rw [Panel.swapTo, Panel.heldRecs_setHandle, setEnt_keeps (part := Panel.heldRecs) fun _ _ _ => rfl]
  rfl

theorem Panel.whereIs_swapTo : (p.swapTo j n e).whereIs e.handle = some (.slot n) := by
  refine Panel.whereIs_of_put (m := p.handles) ?_
  rw [Panel.swapTo, Panel.handles_setHandle, Panel.handles_setEnt]
  rfl

theorem Panel.ent_swapTo (hp : p.crownLives) : (p.swapTo j n e).ent n = e.swappedIn := by
  have hdropped : (p.setHeld j none).crownLives := hp
  have hhandle (q : Panel) : q.Alike CrownDie.tables
      (q.setHandle (handleIndex e.handle) { gen := handleGen e.handle, live := some (.slot n) }) := (Panel.Alike.refl q).setHandle
  exact ((hhandle _).ent n).trans (Panel.ent_setEnt hdropped n e.swappedIn none)

end

/-! ### The pager (R267, R268) -/

section
variable {p q : Panel} (h : p.Alike CrownDie.engine q)
include h

theorem Panel.Alike.writePages {e : CtxEntry} {d : ModelDesc} {k : KvPages} {js : List Nat} :
    p.Alike CrownDie.engine (q.writePages e d k js).2 := by
  refine Panel.Alike.foldlOn (fun y : Nat × Panel => y.2) (fun y j hy => ?_) _ h
  dsimp only
  split
  · exact hy
  · exact hy.crownWrite

theorem Panel.Alike.setEntry {n : Nat} {e : CtxEntry} {commit : Option Nat} : p.Alike CrownDie.engine (q.setEnt n e commit) :=
  h.setEnt mailBlind_engine tableBlind_engine

theorem Panel.Alike.dropFrames {n : Nat} {e : CtxEntry} : p.Alike CrownDie.engine (q.dropFrames n e) := by
  refine Panel.Alike.setEntry ?_
  split
  · exact h.upd.writePages
  · exact h

theorem Panel.Alike.evict {m self : Nat} {r : Panel} (hr : q.evict m self = some r) : p.Alike CrownDie.engine r := by
  unfold Panel.evict at hr
  split at hr
  · cases hr
  · cases hr
    exact h.dropFrames.setEntry

omit h in
theorem Panel.Alike.obtain {m self size : Nat} {inUse : Panel → List Nat} : ∀ {fuel : Nat} {q : Panel} {x : Nat × Panel},
    p.Alike CrownDie.engine q → Panel.obtain m self size inUse fuel q = some x → p.Alike CrownDie.engine x.2
  | 0, _, _, _, hx => by cases hx
  | fuel + 1, q, x, h, hx => by
    unfold Panel.obtain at hx
    dsimp only at hx
    split at hx
    · cases hx
      exact h.pick
    · split at hx
      · cases hx
      next hevict => exact (h.evict hevict).obtain hx

theorem Panel.Alike.copyFrame {part ga site off : Nat} : p.Alike CrownDie.engine (q.copyFrame part ga site off).2 := by
  refine Panel.Alike.foldlOn (fun y : Nat × Panel => y.2) (fun y x hy => ?_) _ h
  dsimp only
  split
  · split_ifs
    · exact hy
    · split
      · exact hy.upd
      · exact hy.upd
  · exact hy
  · exact hy

theorem Panel.Alike.copyPage {part : Nat} {d : ModelDesc} {pool frame : Nat} :
    p.Alike CrownDie.engine (q.copyPage part d pool frame).2 := by
  refine Panel.Alike.foldlOn (fun y : Nat × Panel => y.2) (fun y x hy => ?_) _ h
  dsimp only
  split
  · exact hy
  · exact hy.copyFrame

theorem Panel.Alike.writeFrameTable {d : ModelDesc} {rslot : Nat} {k : KvPages} :
    p.Alike CrownDie.engine (q.writeFrameTable d rslot k) := by
  refine h.foldl fun r x hr => ?_
  split
  · exact hr
  · refine hr.foldl fun r y hr => ?_
    split
    · exact hr
    · exact hr.upd

theorem Panel.Alike.bringPage {e : CtxEntry} {d : ModelDesc} {k : KvPages} {j : Nat} {x : KvPages × Panel}
    (hx : q.bringPage e d k j = .ok x) : p.Alike CrownDie.engine x.2 := by
  unfold Panel.bringPage at hx
  extract_lets l x' got at hx
  have hgot : ∀ y, got = some y → p.Alike CrownDie.engine y.2.2 := by
    intro y hy
    dsimp only [got] at hy
    split at hy
    · cases hy
      exact h
    · obtain ⟨i, -, rfl⟩ := Option.map_eq_some_iff.1 hy
      exact h.pick
  clear_value got
  split at hx
  · cases hx
  next _ _ r =>
    have hr : p.Alike CrownDie.engine r := hgot _ rfl
    split at hx
    · cases hx
      exact hr
    · split at hx
      · cases hx
      next f r' hobtain =>
        have hr' : p.Alike CrownDie.engine r' := Panel.Alike.obtain hr hobtain
        dsimp only at hx
        split_ifs at hx
        · cases hx
          exact hr'.copyPage
        · cases hx
          exact hr'

omit h in
theorem Panel.Alike.bringPages {e : CtxEntry} {d : ModelDesc} : ∀ {n : Nat} {k : KvPages} {q : Panel} {x : KvPages × Panel},
    p.Alike CrownDie.engine q → Panel.bringPages e d n k q = .ok x → p.Alike CrownDie.engine x.2
  | 0, _, _, _, h, hx => by
    cases hx
    exact h
  | n + 1, k, q, x, h, hx => by
    unfold Panel.bringPages at hx
    split at hx
    · cases hx
    next hfirst => exact (Panel.Alike.bringPages h hfirst).bringPage hx

end

/-- What the pager brings in is an entry that waits no longer, parked no longer either, written in its slot. -/
theorem Panel.bringIn_ok {p q : Panel} {n : Nat} {e : CtxEntry} {d : ModelDesc} (hq : p.bringIn n e d = .ok q) :
    ∃ r e', p.Alike CrownDie.engine r ∧ q = r.setEnt n e' ∧ e'.waiting = false ∧
      e'.state = if e.state = 3 then (if e.pos < e.plen then 1 else 2) else e.state := by
  unfold Panel.bringIn at hq
  extract_lets rs at hq
  have hrs : ∀ y, rs = some y → p.Alike CrownDie.engine y.2 := by
    intro y hy
    dsimp only [rs] at hy
    split_ifs at hy
    · cases hy
      exact .refl p
    · exact .obtain (.refl p) hy
  clear_value rs
  split at hq
  · cases hq
  next rslot u =>
    have hu : p.Alike CrownDie.engine u := hrs _ rfl
    extract_lets l x root at hq
    have hroot : ∀ y, root = some y → p.Alike CrownDie.engine y.2 := by
      intro y hy
      dsimp only [root] at hy
      split at hy
      · cases hy
        exact hu
      · obtain ⟨i, -, rfl⟩ := Option.map_eq_some_iff.1 hy
        exact hu.pick
    clear_value root
    split at hq
    · cases hq
    next k u' =>
      have hu' : p.Alike CrownDie.engine u' := hroot _ rfl
      split at hq
      · cases hq
      next k' v hpages =>
        have hv : p.Alike CrownDie.engine v := Panel.Alike.bringPages hu' hpages
        extract_lets e' w at hq
        split_ifs at hq
        cases hq
        exact ⟨_, e', hv.upd.writePages.writeFrameTable, rfl, rfl, rfl⟩

section
variable {s : State} {c : Crown} {handle : W32} {n : Nat} {e : CtxEntry} {d : ModelDesc} (hon : s.panel.engineOn c = true)
  (hctx : s.panel.ctxOf handle.toNat = some (.slot n, e)) (hled : s.panel.slotLeader n = c) (h0 : e.state ≠ 0) (h5 : e.state ≠ 5)
  (hstep : s.panel.inStep e.handle = false) (hdesc : s.panel.readyDesc e.model = some d)
include hon hctx hled h0 h5 hstep hdesc

theorem exec_pageIn_ok {q : Panel} (hq : s.panel.bringIn n e d = .ok q) :
    exec (.pageIn c handle) s = .next { s with panel := q } := by
  change execPageIn c handle s = _
  rw [execPageIn, atCrown_engineOn hon]
  simp only [hctx, hled, h0, h5, hstep, hdesc, hq, ne_eq, not_true, Bool.false_eq_true, or_self, if_false]

theorem exec_pageIn_noPage (hq : s.panel.bringIn n e d = .error .pool) :
    exec (.pageIn c handle) s =
      .next { s with panel := (s.panel.setEnt n { e with waiting := true }).cbump c Reg.CTX_KV_WAIT_CNT } := by
  change execPageIn c handle s = _
  rw [execPageIn, atCrown_engineOn hon]
  simp only [hctx, hled, h0, h5, hstep, hdesc, hq, ne_eq, not_true, Bool.false_eq_true, or_self, if_false]

end

/-! ### The commands complete -/

theorem messagesSwapsAndPagesComplete : Completion.MessagesSwapsAndPagesComplete := by
  refine ⟨fun s c x rest hon harr hop => ⟨fun hkind hga hbytes hgood hnot hroom => ?_, fun hkind => ?_⟩,
    fun s c j n e hon hnext hfree => ?_,
    fun s c handle n e d hon hctx hled h0 h5 hstep hdesc => ⟨fun q hq => ?_, fun hq => ?_⟩⟩
  · refine ⟨_, exec_ctxMsgReceive_queued hon harr hop hkind hga hbytes hgood hnot hroom, ?_⟩
    rw [Panel.crown_complete, Panel.queueMessage, Panel.crown_modCrown, Panel.popPacket, Panel.crown_setCrown]
    exact ⟨look_put_same .., rfl⟩
  · refine ⟨_, exec_ctxMsgReceive_refused hon harr hop hkind, ?_⟩
    rw [Panel.crown_refuse, Panel.cbump, Panel.crown_modCrown, Panel.popPacket, Panel.crown_setCrown]
    exact ⟨look_put_same .., rfl, CrownDie.rd_bump_same ..⟩
  · refine ⟨_, exec_swapIn hon hnext hfree, ?_, Panel.whereIs_swapTo .., ?_⟩
    · exact (congrArg (find · j) (s.panel.heldRecs_swapTo j n e)).trans (find_drop_same ..)
    · rw [(Panel.alike_cbump _ c 1 (by decide)).ent]
      exact s.panel.ent_swapTo j n e (Panel.crownLives_of_engineOn hon)
  · obtain ⟨r, e', halike, rfl, hwait, hstate⟩ := Panel.bringIn_ok hq
    have hent : (r.setEnt n e').ent n = e' := by
      rw [Panel.ent_setEnt (halike.crownLives (Panel.crownLives_of_engineOn hon)), if_neg]
      rw [hstate]
      split_ifs <;> simp [h0]
    exact ⟨_, exec_pageIn_ok hon hctx hled h0 h5 hstep hdesc hq, rfl, by rw [hent, hwait], by rw [hent, hstate]⟩
  · refine ⟨_, exec_pageIn_noPage hon hctx hled h0 h5 hstep hdesc hq, ?_, ?_, ?_⟩
    · rw [(Panel.alike_cbump _ c 1 (by decide)).ent, Panel.ent_setEnt (Panel.crownLives_of_engineOn hon), if_neg h0]
    · exact setEnt_keeps (part := Panel.kv) (fun _ _ _ => rfl) ..
    · have hset : s.panel.Alike CrownDie.regs (s.panel.setEnt n { e with waiting := true }) :=
        (Panel.Alike.refl _).setEnt mailBlind_regs tableBlind_regs
      rw [Panel.cbump, Panel.crown_modCrown, CrownDie.rd_bump_same, CrownDie.rd, hset.crown, ← CrownDie.rd]

/-- Settles O18: what is admitted, swapped in or brought in by what its slot, handle and record then hold, a cancelled context by
whether it is in a step, a message by the queue that takes it. -/
theorem contextAdmission : Obligations.ContextAdmission := ⟨admissionsComplete, messagesSwapsAndPagesComplete⟩

end Sys2Proof.Machine
end

section
/-! PROOFS. What commits, rounds and the ends of contexts leave of the engines (R272–R278): each keeps which crowns live, their steps
in flight, and the count of those completed. -/

namespace Sys2Proof.Machine

/-! ### Ends (R252, R273) -/

section
variable {p q : Panel} (h : p.Alike CrownDie.engine q)
include h

theorem Panel.Alike.setContext {w : Place} {e : CtxEntry} : p.Alike CrownDie.engine (q.setCtx w e) :=
  h.setCtx mailBlind_engine tableBlind_engine

theorem Panel.Alike.finishCtx {w : Place} {e : CtxEntry} {reason status : Nat} {lost : Bool} :
    p.Alike CrownDie.engine (q.finishCtx w e reason status lost) := by
  cases w with
  | slot n => exact (h.andTables (q.alike_lastRecord (q.slotLeader n) e reason status lost)).setEntry
  | held j =>
    exact (h.andTables (q.alike_lastRecord (q.ctxLeader 0) e reason status lost)).setHeld (j := j) (e := none)
      |>.freePages.freeHandle

theorem Panel.Alike.endCtx {w : Place} {e : CtxEntry} {reason status : Nat} {lost : Bool} :
    p.Alike CrownDie.engine (q.endCtx w e reason status lost) := by
  unfold Panel.endCtx
  split_ifs
  · exact h
  · exact h.setContext
  · exact h.setContext
  · exact h.finishCtx

theorem Panel.Alike.boundary {handle : Nat} : p.Alike CrownDie.engine (q.boundary handle) := by
  unfold Panel.boundary
  split
  · exact h
  · split
    · exact h
    · split
      · exact h.finishCtx
      · split
        · exact h.finishCtx
        · exact h

/-! ### Commits and rounds (R276–R278) -/

theorem Panel.Alike.setRound {n : Nat} {x : Option Round} : p.Alike CrownDie.engine (q.setRound n x) :=
  .modCrown h fun _ => rfl

omit h in
theorem Panel.Alike.writeRing {e : CtxEntry} : ∀ {l : List Nat} {g : Nat} {q : Panel},
    p.Alike CrownDie.engine q → p.Alike CrownDie.engine (q.writeRing e l g)
  | [], _, _, h => h
  | _ :: _, _, _, h => by
    unfold Panel.writeRing
    exact h.crownWrite.writeRing

theorem Panel.Alike.trimPages {e : CtxEntry} {d : ModelDesc} {position : Nat} :
    p.Alike CrownDie.engine (q.trimPages e d position) := by
  unfold Panel.trimPages
  split
  · exact h
  · extract_lets keep gone q₁ k q₂
    have hfirst : p.Alike CrownDie.engine q₁ := h.foldl fun _ _ hr => hr.crownWrite
    have hq₂ : p.Alike CrownDie.engine q₂ := hfirst.upd
    clear_value q₂
    split
    · exact .ite hq₂ hq₂.setEntry
    · exact hq₂

theorem Panel.Alike.commitToks {c : Crown} {n : Nat} {d : ModelDesc} {replay : Bool} {side : Side} {pos : Nat} {toks : List Tok} :
    p.Alike CrownDie.engine (q.commitToks c n d replay side pos toks) := by
  unfold Panel.commitToks
  extract_lets
  split_ifs
  · exact h.writeRing.setEntry
  · exact h.writeRing.setEntry.andTables (Panel.alike_commitRecs ..)

theorem Panel.Alike.commitRound {n : Nat} {d : ModelDesc} {replay : Bool} :
    p.Alike CrownDie.engine (q.commitRound n d replay) := by
  unfold Panel.commitRound
  split
  · exact h
  · extract_lets c e x q₁ toks q₂ q₃ e' q₄
    have hq₁ : p.Alike CrownDie.engine q₁ := h.readSide.setRound
    have hq₄ : p.Alike CrownDie.engine q₄ := hq₁.setEntry.commitToks.trimPages
    clear_value q₄
    split_ifs
    · exact hq₁.endCtx
    · split
      · dsimp only
        split
        · exact hq₄.setEntry.trimPages
        · exact hq₄.setEntry
      · exact hq₄

theorem Panel.Alike.orphanRound {e : CtxEntry} : p.Alike CrownDie.engine (q.orphanRound e) := by
  unfold Panel.orphanRound
  split_ifs
  · exact h
  · split
    · exact h
    · split
      · exact .ite h.commitRound h
      · exact h

/-! ### A completed step (R264) -/

theorem Panel.Alike.applyStep {c : Crown} {x : Step} {d : ModelDesc} {b : BatchEnt} :
    p.Alike CrownDie.engine (q.applyStep c x d b) := by
  unfold Panel.applyStep
  extract_lets samples
  clear_value samples
  split
  · refine .ite h (.ite ?none (.ite h.setEntry (.ite ?sampled (.ite ?drafted (.ite ?verified ?compacted)))))
    case none => exact (h.andTables (q.alike_cbump c (o := Reg.CTX_NOCAND_CNT) _ (by decide))).setEntry
    case sampled =>
      split
      · exact h
      · exact .ite h.setEntry (.ite h.readSide.setEntry h.readSide.setRound.commitToks)
    case drafted =>
      split
      · exact h
      · split
        · exact h
        · exact h.setEntry.setRound
    case verified =>
      split
      · exact h
      · exact .ite h.setRound.commitRound h.setRound
    case compacted =>
      split
      · exact h
      · split
        · exact .ite h.setRound h.commitRound
        · exact h
  · exact h

end

/-- The panel once a step's contexts have advanced, before its end is counted. -/
def Panel.stepApplied (p : Panel) (c : Crown) (x : Step) (d : ModelDesc) : Panel :=
  x.batch.foldl (fun p b => p.applyStep c x d b) p

/-- A completed step is counted and has left flight. -/
theorem Panel.completeStep_engine (p : Panel) (c : Crown) (x : Step) (d : ModelDesc) :
    ((p.completeStep c x d).crown c).steps = drop (p.crown c).steps x.num ∧
      ((p.completeStep c x d).crown c).rd Reg.CTX_STEPS = ((p.crown c).rd Reg.CTX_STEPS + 1) % 2 ^ 64 := by
  have happlied : p.Alike CrownDie.engine (p.stepApplied c x d) := (Panel.Alike.refl p).foldl fun _ _ h => h.applyStep
  have hcount : ((p.stepApplied c x d).crown c).rd Reg.CTX_STEPS = (p.crown c).rd Reg.CTX_STEPS :=
    congrArg EngineView.completed (happlied.crown c)
  let u := (p.stepApplied c x d).modCrown c fun k => k.wrap Reg.CTX_STEPS 1
  let v := u.modModel x.model fun y =>
    { y with stepTime := some (u.dial - x.began), stepsMs := put y.stepsMs c.num (look 0 y.stepsMs c.num + 1) }
  let w := v.modCrown c fun k => { k with steps := drop k.steps x.num }
  have hend : w.Alike CrownDie.engine (p.completeStep c x d) := Panel.Alike.foldl (.refl w) fun _ _ h => h.boundary
  have hw : w.crown c = { (p.stepApplied c x d).crown c with
      steps := drop ((p.stepApplied c x d).crown c).steps x.num
      regs := rfWrap ((p.stepApplied c x d).crown c).regs Reg.CTX_STEPS 1 } := by
    have hv : v.crown c = u.crown c := rfl
    rw [Panel.crown_modCrown, hv, Panel.crown_modCrown]
    rfl
  constructor
  · rw [hend.steps, hw, happlied.steps]
  · rw [← hcount, show ((p.completeStep c x d).crown c).rd Reg.CTX_STEPS = (w.crown c).rd Reg.CTX_STEPS from
      congrArg EngineView.completed (hend.crown c), hw]
    exact CrownDie.rd_wrap_same ..

end Sys2Proof.Machine
end

section
/-! PROOFS. Steps (R260–R264, R269): what a start leaves in flight, what a step that has reported, that is late, or whose next row is in
comes to; from these the obligation O19. -/

namespace Sys2Proof.Machine

/-! ### Starts (R262) -/

section
variable {β : Type} {view : CrownDie → β} {p q : Panel} (hm : MailBlind view) (h : p.Alike view q)
include hm h

theorem Panel.Alike.sendStep {c : Crown} {mpart num slot : Nat} {d : ModelDesc} {g1 : Nat} {inline record : List Byte} {args2 : Bool} :
    p.Alike view (q.sendStep c mpart num slot d g1 inline record args2) := by
  refine Panel.Alike.foldl (.ite h (h.foldl fun r x hr => ?_)) fun r x hr => hr.crownSend hm
  exact Panel.Alike.foldlOn (fun y : List Byte × Panel => y.2) (fun y z hy => hy.crownSend hm) _ hr

theorem Panel.Alike.readRows {c : Crown} {x : Step} {d : ModelDesc} {rows : Nat} : p.Alike view (q.readRows c x d rows) :=
  h.foldl fun _ _ hr => hr.foldl fun _ _ hr => hr.crownSend hm

end

/-- A step as it stands in flight once its STARTs have been sent. -/
def Panel.inFlight (p : Panel) (c : Crown) (x : Step) (d : ModelDesc) : Step :=
  { x with
    sentAt := p.dial, cores := d.cores.map p.coreNumber, reported := [], workers := p.workers c, wfail := none, reading := false
    asked := false, lists := [], sampled := [], failed := none, again := false }

/-- A launched step stands in flight, and no step's number is taken. -/
theorem Panel.launch_engine (p : Panel) (c : Crown) (x : Step) (d : ModelDesc) :
    ((p.launch c x d).crown c).steps = put (p.crown c).steps x.num (p.inFlight c x d) ∧
      ((p.launch c x d).crown c).nextStep = (p.crown c).nextStep := by
  have hsent : (p.modCrown c fun k => { k with steps := put k.steps x.num (p.inFlight c x d) }).Alike CrownDie.engine
      (p.launch c x d) := by
    unfold Panel.launch
    extract_lets
    exact Panel.Alike.foldl (.sendStep mailBlind_engine (.refl _)) fun _ _ hr => hr.groupSend mailBlind_engine
  constructor
  · rw [hsent.steps, Panel.crown_modCrown]
  · rw [show ((p.launch c x d).crown c).nextStep = _ from congrArg EngineView.nextStep (hsent.crown c), CrownDie.engine,
      Panel.crown_modCrown]

section
variable {s : State} {c : Crown} {m : Fin 16} {d : ModelDesc} (hon : s.panel.engineOn c = true)
  (hdesc : s.panel.readyDesc m = some d) (hgo : (s.panel.model m).stopped = false) (hfatal : s.panel.fatal = false)
  (hshed : s.panel.shedding = false) (hrole : s.panel.ctxRole c ≠ 2) (hload : s.panel.writingTo d = false)
  (hagain : ∀ z ∈ (s.panel.crown c).steps, z.2.again = false) (hflight : (s.panel.inflight m).length < d.inflight)
  (hcores : ∀ z ∈ d.cores, (s.panel.crown c).startsAt (s.panel.coreNumber z) < 4)
include hon hdesc hgo hfatal hshed hrole hload hagain hflight hcores

/-- A new step takes the engine's next number and goes out with its batch. -/
theorem exec_stepStart {y : Nat × CtxEntry × Nat × BatchEnt} {ys : List (Nat × CtxEntry × Nat × BatchEnt)} {p q : Panel}
    (hp : p = s.panel.noteStalls c (s.panel.candidates c m d))
    (hok : ((s.panel.candidates c m d).filter fun z => p.queueTakes z.2.1 (recordsOf z.2.2.1 z.2.1 z.2.2.2)) = y :: ys)
    (hbatch : fillBatch d y.2.2.1 p.roomWith (y :: ys) [] [] ≠ [])
    (hgate : p.powerGate m d (fillBatch d y.2.2.1 p.roomWith (y :: ys) [] []).length = .ok q) :
    ∃ u x, exec (.stepStart c m) s = .next { s with panel := u.launch c x d } ∧ (q.newStep c).2.Alike CrownDie.engine u ∧
      u.dial = q.dial ∧ x.num = (q.newStep c).1 ∧ x.model = m.val ∧ x.kind = y.2.2.1 ∧
      x.batch = fillBatch d y.2.2.1 p.roomWith (y :: ys) [] [] := by
  have hnone : ((s.panel.crown c).steps.find? fun z => z.2.model == m.val && z.2.again) = none := by
    refine List.find?_eq_none.2 fun z hz => ?_
    rw [hagain z hz, Bool.and_false]
    exact Bool.false_ne_true
  have hfree : ¬ (d.inflight ≤ (s.panel.inflight m).length ∨
      (d.cores.any fun z => decide (4 ≤ (s.panel.crown c).startsAt (s.panel.coreNumber z))) = true) := by
    rintro (hle | hany)
    · omega
    · obtain ⟨z, hz, hfull⟩ := List.any_eq_true.1 hany
      exact absurd (of_decide_eq_true hfull) (not_le.2 (hcores z hz))
  have hwork : ¬ ((s.panel.model m).stopped = true ∨ s.panel.fatal = true ∨ s.panel.shedding = true ∨ s.panel.ctxRole c = 2 ∨
      s.panel.writingTo d = true) := by
    rw [hgo, hfatal, hshed, hload]
    simp [hrole]
  change ∃ u x, execStepStart c m s = _ ∧ _
  rw [execStepStart, atCrown_engineOn hon]
  simp only [hdesc, if_neg hwork, hnone, if_neg hfree, ← hp, hok, List.isEmpty_iff, if_neg hbatch, hgate]
  refine ⟨_, _, rfl, ?_, ?_, rfl, rfl, rfl, rfl⟩
  · exact .ite ((Panel.alike_cbump _ c (o := Reg.CTX_REPLAY_CNT) 1 (by decide)).engines) (.refl _)
  · split_ifs <;> rfl

end

/-! ### Reports (R264) -/

/-- The panel once a crown's step in flight has changed. -/
def Panel.setStep (p : Panel) (c : Crown) (x : Step) : Panel := p.modCrown c fun k => { k with steps := put k.steps x.num x }

theorem Panel.find_setStep (p : Panel) (c : Crown) (x : Step) : find ((p.setStep c x).crown c).steps x.num = some x := by
  rw [Panel.setStep, Panel.crown_modCrown, find_put_same]

theorem CrownDie.regs_takeReports (k : CrownDie) : k.takeReports.regs = k.regs :=
  List.foldlRecOn (motive := fun (r : CrownDie) => r.regs = k.regs) _ _ rfl fun _ h _ _ => h

/-- The panel once an engine has counted the reports in its queue. -/
def Panel.heardReports (p : Panel) (c : Crown) : Panel := p.modCrown c CrownDie.takeReports

theorem Panel.crown_heardReports (p : Panel) (c : Crown) : (p.heardReports c).crown c = (p.crown c).takeReports :=
  p.crown_modCrown c _

theorem Panel.rd_heardReports (p : Panel) (c : Crown) (o : Nat) : ((p.heardReports c).crown c).rd o = (p.crown c).rd o := by
  rw [Panel.crown_heardReports, CrownDie.rd, CrownDie.regs_takeReports, ← CrownDie.rd]

theorem exec_stepComplete {s : State} {c : Crown} {x : Step} (hon : s.panel.engineOn c = true)
    (hx : find (s.panel.crown c).takeReports.steps x.num = some x) (hagain : x.again = false) :
    exec (.stepComplete c x.num) s = .next { s with panel := (s.panel.heardReports c).judgeStep c x } := by
  change execStepComplete c x.num s = _
  rw [execStepComplete, atCrown_engineOn hon]
  simp only [Panel.crown_modCrown, hx, hagain, Bool.false_eq_true, if_false]
  rfl

section
variable {p : Panel} {c : Crown} {x : Step} {d : ModelDesc} (hown : x.reports ≠ 1) (hfailed : x.failed = none) (hwfail : x.wfail = none)
  (hworkers : x.workers = []) (hreading : x.reading = false) (hdone : ∀ r ∈ x.reported, r.2 = St.done)
  (hall : ∀ n ∈ x.cores, x.reported.any (·.1 = n) = true) (hdesc : (p.model x.model).desc = some d)
include hown hfailed hwfail hworkers hreading hdone hall hdesc

/-- A step whose cores and workers have all reported DONE goes on to its rows, or completes. -/
theorem Panel.judgeStep_done : p.judgeStep c x = if (x.batch.map (·.rows)).sum = 0 then p.completeStep c x d
    else (p.setStep c { x with reading := true, asked := true }).readRows c x d (x.batch.map (·.rows)).sum := by
  have hgood : (x.reported.find? fun r => decide (r.2 ≠ St.done)) = none :=
    List.find?_eq_none.2 fun r hr => by simp [hdone r hr]
  have hin : ¬ (x.reading = true ∨ ¬ (x.cores.all fun n => x.reported.any (·.1 = n)) = true ∨ ¬ x.workers.isEmpty = true) := by
    rw [hreading, hworkers, List.all_eq_true.2 hall]
    simp
  unfold Panel.judgeStep
  simp only [hfailed, hgood, hwfail, if_neg hown, if_neg hin, hdesc]
  rfl

end

/-! ### Steps that are late (R264) -/

theorem exec_stepTimeout {s : State} {c : Crown} {x : Step} {n : Nat} (hon : s.panel.engineOn c = true)
    (hx : find (s.panel.crown c).takeReports.steps x.num = some x) (hagain : x.again = false) (hown : x.reports ≠ 1) (hn : n ∈ x.cores)
    (hsilent : x.reported.any (·.1 = n) = false)
    (hlate : x.sentAt + bits ((s.panel.crown c).rd Reg.CTX_CFG) 23 16 * 1000000 ≤ s.panel.dial) :
    exec (.stepTimeout c x.num) s = .next { s with panel := (s.panel.heardReports c).failStep c x St.timedOut } := by
  have hmissing : ¬ (x.cores.all fun n => x.reported.any (·.1 = n)) = true := fun hall =>
    absurd (List.all_eq_true.1 hall n hn) (by rw [hsilent]; exact Bool.false_ne_true)
  have hcfg : (s.panel.crown c).takeReports.rd Reg.CTX_CFG = (s.panel.crown c).rd Reg.CTX_CFG := by
    rw [CrownDie.rd, CrownDie.regs_takeReports, ← CrownDie.rd]
  change execStepTimeout c x.num s = _
  rw [execStepTimeout, atCrown_engineOn hon]
  simp only [Panel.crown_modCrown, hx, hcfg]
  rw [if_pos ⟨by simp [hagain], .inl hmissing, decide_eq_true hlate⟩, if_neg hown]
  rfl

/-- The first run of a step has failed: it is counted, and is to be run again. -/
theorem Panel.failStep_first (p : Panel) (c : Crown) {x : Step} (h : x.second = false) (status : Nat) :
    find ((p.failStep c x status).crown c).steps x.num = some { x with again := true, failed := some status } ∧
      ((p.failStep c x status).crown c).rd Reg.CTX_STEP_FAIL_CNT = min cntTop ((p.crown c).rd Reg.CTX_STEP_FAIL_CNT + 1) := by
  have hfail : p.failStep c x status =
      (p.cbump c Reg.CTX_STEP_FAIL_CNT).setStep c { x with again := true, failed := some status } := by
    unfold Panel.failStep
    rw [if_neg (by simp [h])]
    rfl
  rw [hfail]
  refine ⟨Panel.find_setStep .., ?_⟩
  rw [Panel.setStep, Panel.crown_modCrown, Panel.cbump, Panel.crown_modCrown, ← (p.crown c).rd_bump_same]
  rfl

/-! ### Rows sampled (R269) -/

/-- The next row of a step sampled: it stands behind those before it. -/
theorem exec_sampleRow {s : State} {c : Crown} {x : Step} {d : ModelDesc} {b : BatchEnt} {w : Place} {e : CtxEntry}
    (hon : s.panel.engineOn c = true) (hx : find (s.panel.crown c).steps x.num = some x)
    (hdesc : (s.panel.model x.model).desc = some d) (hreading : x.reading = true) (hagain : x.again = false) (hfailed : x.failed = none)
    (hb : (x.batch.find? fun b => decide (b.row ≤ x.sampled.length) && decide (x.sampled.length < b.row + b.rows)) = some b)
    (hlists : ∀ l ∈ (List.range d.nlist).map fun j => find x.lists (512 * x.sampled.length + j), l.isSome = true)
    (hctx : s.panel.ctxOf b.handle = some (w, e)) (hmore : x.sampled.length + 1 < (x.batch.map (·.rows)).sum) :
    let side := (s.panel.readSide e).2.1
    let place := s.panel.rowPlace x e b (x.sampled.length - b.row)
    let row := sampleOf d.vocab e place.1 (s.panel.recentFor e side place.2)
      (((List.range d.nlist).map fun j => find x.lists (512 * x.sampled.length + j)).map fun l => l.getD [])
    ∃ u, exec (.sampleRow c x.num) s =
      .next { s with panel := Panel.setStep u c { x with sampled := x.sampled ++ [row] } } := by
  intro side place row
  have hlast : ¬ (x.sampled ++ [row]).length = (x.batch.map (·.rows)).sum := by
    rw [List.length_append, List.length_singleton]
    omega
  change ∃ u, execSampleRow c x.num s = _
  rw [execSampleRow, atCrown_engineOn hon]
  simp only [hx, hdesc, hreading, hagain, hfailed, hb, List.all_eq_true.2 hlists, hctx, not_true, Bool.false_eq_true, or_self,
    if_false]
  rw [if_neg hlast]
  exact ⟨_, rfl⟩

/-- Settles O19: a start by the step that it leaves in flight, a step by whether its reports are in, a row by where it then stands. -/
theorem stepsComplete : Obligations.StepsComplete := by
  refine ⟨fun s c m d y ys q hon hdesc hgo hfatal hshed hrole hload hagain hflight hcores => ?_,
    fun s c x d hon hx hagain hown hfailed hwfail hworkers hreading hdone hall hdesc => ?_,
    fun s c x n hon hx hagain hown hsecond hn hsilent hlate => ?_,
    fun s c x d b w e hon hx hdesc hreading hagain hfailed => ?_⟩
  · intro all p ok batch hok hbatch hgate
    have hfill : batch = fillBatch d y.2.2.1 p.roomWith (y :: ys) [] [] := by rw [← hok]
    obtain ⟨u, x, hexec, halike, hdial, hnum, hmodel, hkind, hx⟩ := exec_stepStart hon hdesc hgo hfatal hshed hrole hload hagain
      hflight hcores rfl hok (hfill ▸ hbatch) (hfill ▸ hgate)
    obtain ⟨hsteps, hnext⟩ := u.launch_engine c x d
    refine ⟨_, u.inFlight c x d, hexec, ?_, hmodel, hkind, hx.trans hfill.symm, rfl, hdial, ?_⟩
    · rw [hsteps, hnum]
      exact find_put_same ..
    · rw [hnext, show (u.crown c).nextStep = _ from congrArg EngineView.nextStep (halike.crown c), CrownDie.engine, Panel.newStep,
        Panel.crown_modCrown]
  · have hjudged := Panel.judgeStep_done (p := s.panel.heardReports c) (c := c) hown hfailed hwfail hworkers hreading hdone hall hdesc
    refine ⟨fun hrows => ⟨_, exec_stepComplete hon hx hagain, ?_⟩, fun hrows => ⟨_, exec_stepComplete hon hx hagain, ?_, ?_⟩⟩
    · have hread := (Panel.Alike.refl ((s.panel.heardReports c).setStep c { x with reading := true, asked := true })).readRows
        mailBlind_engine (c := c) (x := x) (d := d) (rows := (x.batch.map (·.rows)).sum)
      rw [hjudged, if_neg hrows, hread.steps]
      exact Panel.find_setStep _ c { x with reading := true, asked := true }
    · rw [hjudged, if_pos hrows, (Panel.completeStep_engine ..).1]
      exact find_drop_same ..
    · rw [hjudged, if_pos hrows, (Panel.completeStep_engine ..).2, Panel.rd_heardReports]
  · refine ⟨_, exec_stepTimeout hon hx hagain hown hn hsilent hlate, ?_⟩
    obtain ⟨hstep, hcount⟩ := (s.panel.heardReports c).failStep_first c hsecond St.timedOut
    exact ⟨hstep, hcount.trans (by rw [Panel.rd_heardReports])⟩
  · intro i lists side place hb hlists hctx hmore
    obtain ⟨u, hexec⟩ := exec_sampleRow hon hx hdesc hreading hagain hfailed hb hlists hctx hmore
    refine ⟨_, hexec, ?_⟩
    rw [Panel.find_setStep]
    rfl

end Sys2Proof.Machine
end

section
/-! PROOFS. Commits posted, contexts that end, a crown that is lost and the forecast (R252, R273, R275, R276, R279, R282): what each
command leaves; from these the obligation O20. -/

namespace Sys2Proof.Machine

/-! ### Commits posted (R276) -/

/-- The panel once the records of a context's oldest commit have been posted. -/
def Panel.postCommit (p : Panel) (c : Crown) (e : CtxEntry) (m : Commit) (rest : List Commit) : Panel :=
  m.recs.foldl (fun p bs => p.deliver c e bs) (p.modCrown c fun k => { k with commits := rest })

theorem exec_mirrorAck {s : State} {c : Crown} {handle : W32} {m : Commit} {rest : List Commit} {w : Place} {e : CtxEntry}
    (hon : s.panel.engineOn c = true)
    (hm : pluck (fun m => m.handle == handle.toNat) (s.panel.crown c).commits = some (m, rest)) (hstandby : m.standby = 0)
    (hctx : s.panel.ctxOf m.handle = some (w, e)) :
    exec (.mirrorAck c handle) s = .next { s with panel := s.panel.postCommit c e m rest } := by
  change execMirrorAck c handle s = _
  rw [execMirrorAck, atCrown_engineOn hon]
  simp only [hm, hstandby, hctx, ne_eq, not_true, if_false]
  rfl

theorem Panel.commits_postCommit (p : Panel) (c : Crown) (e : CtxEntry) (m : Commit) (rest : List Commit) :
    ((p.postCommit c e m rest).crown c).commits = rest := by
  have hposted : (p.modCrown c fun k => { k with commits := rest }).Alike CrownDie.commits (p.postCommit c e m rest) :=
    Panel.Alike.foldl (.refl _) fun _ _ h => h.deliver outputBlind_commits
  rw [hposted.crown, Panel.crown_modCrown]

section
variable {p : Panel} {c : Crown} {e : CtxEntry} (hq : e.oqf = false)
include hq

/-- A record goes to the own queue of the context, where that is on. -/
theorem Panel.qset_deliver (hon : (p.qset e.oq).on = true) (bs : List Byte) :
    (p.deliver c e bs).qset e.oq = { p.qset e.oq with tdue := (p.qset e.oq).tdue ++ [bs] } := by
  have hsame (a : Prop) [Decidable a] (f : CrownDie → CrownDie) : (if a then p else p.modCrown c f).qset e.oq = p.qset e.oq := by
    split_ifs <;> rfl
  unfold Panel.deliver
  dsimp only
  rw [if_neg (by simp [hq]), if_pos (by rw [hsame]; exact hon), Panel.qset_modQ, hsame]

theorem Panel.qset_deliverAll (recs : List (List Byte)) : ∀ {p : Panel}, (p.qset e.oq).on = true →
    (recs.foldl (fun p bs => p.deliver c e bs) p).qset e.oq = { p.qset e.oq with tdue := (p.qset e.oq).tdue ++ recs } := by
  induction recs with
  | nil =>
    intro p _
    rw [List.foldl_nil, List.append_nil]
  | cons bs recs ih =>
    intro p hon
    have hfirst := p.qset_deliver (c := c) hq hon bs
    rw [List.foldl_cons, ih (by rw [hfirst]; exact hon), hfirst, List.append_assoc]
    rfl

end

/-! ### Deadlines, ends and paths (R252, R273, R275) -/

theorem exec_deadlineExpire {s : State} {c : Crown} {handle : W32} {w : Place} {e : CtxEntry} (hon : s.panel.engineOn c = true)
    (hctx : s.panel.ctxOf handle.toNat = some (w, e)) (hset : e.deadline ≠ 0) (hpast : e.deadline ≤ s.panel.dial) (h5 : e.state ≠ 5)
    (hstep : s.panel.inStep e.handle = false) :
    exec (.deadlineExpire c handle) s = .next { s with panel := s.panel.finishCtx w e 5 0 } := by
  have hgo : ¬ (e.deadline = 0 ∨ s.panel.dial < e.deadline ∨ e.state = 5 ∨ s.panel.inStep e.handle = true) := by
    simp [hset, hpast, h5, hstep]
  change execDeadlineExpire c handle s = _
  rw [execDeadlineExpire, atCrown_engineOn hon]
  simp only [hctx, if_neg hgo]

/-- The panel once a drained context has left its slot, its pages and its handle. -/
def Panel.release (p : Panel) (n : Nat) (e : CtxEntry) : Panel :=
  ((((p.orphanRound e).setRound n none).freePages e.handle).setEnt n { e with state := 0 }).freeHandle e.handle

theorem exec_contextFree {s : State} {c : Crown} {handle : W32} {n : Nat} {e : CtxEntry} (hon : s.panel.engineOn c = true)
    (hctx : s.panel.ctxOf handle.toNat = some (.slot n, e)) (h5 : e.state = 5) (hled : s.panel.slotLeader n = c)
    (hposted : ∀ m ∈ (s.panel.crown c).commits, m.handle ≠ e.handle) (hstep : s.panel.inStep e.handle = false) :
    exec (.contextFree c handle) s = .next { s with panel := s.panel.release n e } := by
  have hgo : ¬ (e.state ≠ 5 ∨ s.panel.slotLeader n ≠ c ∨ (s.panel.crown c).commits.any (·.handle = e.handle) = true ∨
      s.panel.inStep e.handle = true) := by
    simpa [h5, hled, hstep] using hposted
  change execContextFree c handle s = _
  rw [execContextFree, atCrown_engineOn hon]
  simp only [hctx, if_neg hgo]
  rfl

section
variable (p : Panel) (n : Nat) (e : CtxEntry)

theorem Panel.ent_release (hp : p.crownLives) : (p.release n e).ent n = {} := by
  have hfirst : p.Alike CrownDie.engine (((p.orphanRound e).setRound n none).freePages e.handle) :=
    (Panel.Alike.refl p).orphanRound.setRound.freePages
  have hhandle (q : Panel) : q.Alike CrownDie.tables (q.freeHandle e.handle) := (Panel.Alike.refl q).freeHandle
  exact ((hhandle _).ent n).trans (Panel.ent_setEnt (hfirst.crownLives hp) n { e with state := 0 } none)

theorem Panel.whereIs_release : (p.release n e).whereIs e.handle = none :=
  Panel.whereIs_of_put (m := (((((p.orphanRound e).setRound n none).freePages e.handle).setEnt n { e with state := 0 }).handles))
    (Panel.handles_setHandle ..)

theorem Panel.kvOf_release : (p.release n e).kvOf e.handle = none := by
  have hhandle (q : Panel) : (q.freeHandle e.handle).kv = q.kv :=
    setHandle_keeps (part := Panel.kv) (fun _ _ _ => rfl) (fun _ _ _ => rfl) (fun _ _ => rfl) ..
  rw [Panel.kvOf, Panel.release, hhandle, setEnt_keeps (part := Panel.kv) fun _ _ _ => rfl]
  exact find_drop_same ..

end

theorem exec_outputPathTimeout {s : State} {c : Crown} {handle : W32} {w : Place} {t0 : Nat} {e : CtxEntry}
    (hon : s.panel.engineOn c = true) (hctx : s.panel.ctxOf handle.toNat = some (w, e)) (hdown : s.panel.pathDown e = some t0)
    (hlate : t0 + bits ((s.panel.crown c).rd Reg.CTX_CFG) 15 8 * 1000000 ≤ s.panel.dial) :
    exec (.outputPathTimeout c handle) s = .next { s with panel := s.panel.endCtx w e 7 St.portDown true } := by
  have hdue : s.panel.since t0 (bits ((s.panel.crown c).rd Reg.CTX_CFG) 15 8 * ms) = true := decide_eq_true hlate
  change execOutputPathTimeout c handle s = _
  rw [execOutputPathTimeout, atCrown_engineOn hon]
  simp only [hctx, hdown, if_pos hdue]

/-- A context whose final record is known to be lost is counted so by the crown that leads its slot. -/
theorem Panel.rd_finishCtx_lost (p : Panel) (n : Nat) (e : CtxEntry) (reason status : Nat) :
    ((p.finishCtx (.slot n) e reason status true).crown (p.slotLeader n)).rd Reg.CTX_OUT_LOST_CNT =
      min cntTop ((p.crown (p.slotLeader n)).rd Reg.CTX_OUT_LOST_CNT + 1) := by
  have hset : (p.cbump (p.slotLeader n) Reg.CTX_OUT_LOST_CNT).Alike CrownDie.regs (p.finishCtx (.slot n) e reason status true) :=
    (Panel.Alike.refl _).setEnt mailBlind_regs tableBlind_regs
  rw [CrownDie.rd, hset.crown, ← CrownDie.rd, Panel.cbump, Panel.crown_modCrown, CrownDie.rd_bump_same]

/-! ### A crown lost (R44, R279) -/

section
variable {β : Type} {view : CrownDie → β} {p q : Panel} (h : p.Alike view q)
include h

theorem Panel.Alike.setSh {o v : Nat} (ho : Reg.BOOT_STATUS ≠ o) : p.Alike view (q.setSh o v) :=
  h.trans ⟨fun _ => rfl, by rw [Panel.retraining, q.sh_setSh_other v ho, Panel.retraining]⟩

theorem Panel.Alike.setShF {o hi lo n : Nat} (ho : Reg.BOOT_STATUS ≠ o) : p.Alike view (q.setShF o hi lo n) := h.setSh ho

theorem Panel.Alike.setEsc {bit : Nat} {v : Bool} : p.Alike view (q.setEsc bit v) := h.setShF (by decide)

theorem Panel.Alike.spSettle : p.Alike view q.spSettle :=
  .ite (((h.setShF (by decide)).setShF (by decide)).setShF (by decide)) h

theorem Panel.Alike.spCancel : p.Alike view q.spCancel :=
  (Panel.Alike.setShF (h.foldl fun _ _ hr => hr.upd) (o := Reg.CLK_SP_CTL) (by decide)).bumpSh (o := Reg.CLK_SP_ABORT_CNT)
    (by decide)

theorem Panel.Alike.spOrphan : p.Alike view q.spOrphan := .ite h.spSettle.spCancel h.spSettle

theorem Panel.Alike.changeOrphan (hview : ∀ k l, view { k with sessions := l } = view k) : p.Alike view q.changeOrphan := by
  unfold Panel.changeOrphan
  split
  · exact h
  · refine .ite h (.hokuidAnswer ?_ hview)
    have hshown : p.Alike view (q.liftClose (5 == 5)) := h.upd
    exact (hshown.setSh (o := Reg.MGMT_RCMD_STAT) (by decide)).upd

end

/-- A record that a crown logs leaves the tables. -/
theorem Panel.alike_logCrown (p : Panel) (c : Crown) (who : DieId) (i : LogItem) :
    p.Alike CrownDie.tables (p.logCrown c who i) := by
  refine (Panel.Alike.refl p).modCrown fun k => ?_
  dsimp only
  split_ifs
  · rfl
  · exact k.tables_bump 1 (by decide)

/-- Contexts led again are posted again: their tables stay. -/
theorem Panel.alike_relead (p : Panel) (c : Crown) (slots : List (Nat × CtxEntry)) : p.Alike CrownDie.tables (p.relead c slots) :=
  (Panel.Alike.refl p).foldl fun _ _ h => .ite h (h.deliver outputBlind_tables)

/-- The panel without a crown, before the other one takes over. -/
def Panel.withoutCrown (p : Panel) (c : Crown) : Panel :=
  ((p.setEsc (28 - c.num) false).unlock c).setCrown c { CrownDie.blank with lost := true }

theorem Panel.crown_withoutCrown_other (p : Panel) (c : Crown) : (p.withoutCrown c).crown c.other = p.crown c.other := by
  rw [Panel.withoutCrown, Panel.crown_setCrown_other _ _ (by cases c <;> decide)]
  rfl

/-- That panel once what the lost crown had begun has been cancelled. -/
def Panel.orphaned (p : Panel) (c : Crown) : Panel := (p.withoutCrown c).spOrphan.changeOrphan

theorem Panel.alike_orphaned (p : Panel) (c : Crown) : (p.withoutCrown c).Alike CrownDie.tables (p.orphaned c) :=
  (Panel.Alike.refl _).spOrphan.changeOrphan fun _ _ => rfl

theorem Panel.alike_loseCrown (p : Panel) (c : Crown) : (p.withoutCrown c).Alike CrownDie.tables (p.loseCrown c) := by
  have h := p.alike_orphaned c
  unfold Panel.loseCrown
  refine .ite h.upd ?_
  refine Panel.Alike.trans ?_ (Panel.alike_relead ..)
  refine Panel.Alike.foldl ?_ fun r m hr => ?_
  · refine .modCrown ?_ fun _ => rfl
    refine Panel.Alike.trans ?_ (Panel.alike_logCrown ..)
    exact .ite h.upd h
  · split
    · exact hr
    · exact hr.foldl fun _ _ hr => hr.deliver outputBlind_tables

/-- With both crowns lost the panel stops. -/
theorem Panel.fatal_loseCrown {p : Panel} {c : Crown} (h : (p.crown c.other).lost = true) : (p.loseCrown c).fatal = true := by
  have hlost : ((p.orphaned c).crown c.other).lost = true := by
    rw [(p.alike_orphaned c).engines.lost, Panel.crown_withoutCrown_other, h]
  have hboth : p.loseCrown c = { p.orphaned c with fatal := true, hostDownAt := (p.orphaned c).dial } := if_pos hlost
  rw [hboth]

theorem exec_crownLoss {s : State} {c : Crown} (hlive : s.panel.live = true) (hlost : (s.panel.crown c).lost = false) :
    exec (.crownLoss c) s = .next { s with panel := s.panel.loseCrown c } := by
  change execCrownLoss c s = _
  rw [execCrownLoss, onPanel_live hlive, if_neg (by rw [hlost]; exact Bool.false_ne_true)]

/-! ### The forecast (R282) -/

/-- What words are written at, counted from a base. -/
def Panel.setWords (p : Panel) (base : Nat) (l : List (Nat × Nat)) : Panel := l.foldl (fun p x => p.setSh (base + 4 * x.1) x.2) p

theorem Panel.foldl_setSh (p : Panel) (base : Nat) (l : List (Nat × Nat)) :
    l.foldl (fun p x => p.setSh (base + 4 * x.1) x.2) p = p.setWords base l := rfl

theorem Panel.setWords_cons (p : Panel) (base : Nat) (x : Nat × Nat) (l : List (Nat × Nat)) :
    p.setWords base (x :: l) = (p.setSh (base + 4 * x.1) x.2).setWords base l := rfl

theorem Panel.sh_setWords_other {base i : Nat} {l : List (Nat × Nat)} (h : i ∉ l.map Prod.fst) (p : Panel) :
    (p.setWords base l).sh (base + 4 * i) = p.sh (base + 4 * i) := by
  induction l generalizing p with
  | nil => rfl
  | cons x l ih =>
    rw [List.map_cons, List.mem_cons, not_or] at h
    rw [Panel.setWords_cons, ih h.2, p.sh_setSh_other x.2 (by omega)]

/-- Each word written reads as it was written. -/
theorem Panel.sh_setWords {base i v : Nat} {l : List (Nat × Nat)} (hn : (l.map Prod.fst).Nodup) (h : (i, v) ∈ l) (p : Panel) :
    (p.setWords base l).sh (base + 4 * i) = v % 2 ^ 64 := by
  induction l generalizing p with
  | nil => cases h
  | cons x l ih =>
    rw [List.map_cons, List.nodup_cons] at hn
    obtain ⟨hx, hn⟩ := hn
    rw [Panel.setWords_cons]
    rcases List.mem_cons.1 h with rfl | h
    · rw [Panel.sh_setWords_other hx, Panel.sh_setSh_same]
    · exact ih hn h _

/-- The words of a forecast, by their place. -/
def forecastWords (now f : Nat) : List (Nat × Nat) :=
  [(0, now % 2 ^ 32), (1, now / 2 ^ 32 % 2 ^ 32), (2, f), (3, f), (4, f), (5, f), (6, f), (7, 0)]

theorem zip_forecastWords (now f : Nat) :
    (List.range 8).zip [now % 2 ^ 32, now / 2 ^ 32 % 2 ^ 32, f, f, f, f, f, 0] = forecastWords now f := rfl

/-- The panel with a crown's forecast of a millisecond. -/
def Panel.setForecast (p : Panel) (c : Crown) (now : Nat) : Panel :=
  p.setWords (Reg.PWR_FCAST + 32 * c.num) (forecastWords now (p.forecast c % 2 ^ 32))

theorem Panel.sh_setForecast (p : Panel) (c : Crown) {now i v : Nat} (hv : v < 2 ^ 64)
    (h : (i, v) ∈ forecastWords now (p.forecast c % 2 ^ 32)) :
    (p.setForecast c now).sh (Reg.PWR_FCAST + 32 * c.num + 4 * i) = v :=
  (Panel.sh_setWords (by simp [forecastWords]) h p).trans (Nat.mod_eq_of_lt hv)

/-- The panel once a crown's steps of the last millisecond have been taken into a forecast. -/
def Panel.stepsTaken (p : Panel) (c : Crown) : Panel :=
  { p with models := p.models.map fun x => (x.1, { x.2 with stepsMs := put x.2.stepsMs c.num 0 }) }

theorem Panel.sh_stepsTaken (p : Panel) (c : Crown) (o : Nat) : (p.stepsTaken c).sh o = p.sh o := rfl

theorem exec_forecastPost {s : State} {c : Crown} {now : Nat} (hon : s.panel.engineOn c = true)
    (hnow : now = s.panel.dial / ms * ms)
    (hnew : s.panel.sh (Reg.PWR_FCAST + 32 * c.num) + s.panel.sh (Reg.PWR_FCAST + 32 * c.num + 4) * 2 ^ 32 < now) :
    exec (.forecastPost c) s = .next { s with panel := (s.panel.setForecast c now).stepsTaken c } := by
  subst hnow
  change execForecastPost c s = _
  rw [execForecastPost, atCrown_engineOn hon]
  dsimp only
  rw [if_neg fun h => absurd h.1 (not_le.2 hnew), zip_forecastWords, Panel.foldl_setSh]
  rfl

/-- Settles O20: each command by the panel that it leaves: the queue, the entry, the handle, the pages, the count, the crowns, and the
words of the forecast. -/
theorem contextEndsComplete : Obligations.ContextEndsComplete := by
  refine ⟨fun s c handle m rest w e hon hm hstandby hctx => ?_, fun s c handle n e hon hctx hset hpast h5 hstep => ?_,
    fun s c handle n e hon hctx h5 hled hposted hstep => ?_, fun s c handle n t0 e hon hctx hdown hlate h0 h5 hstep => ?_,
    fun s c hlive hlost => ?_, fun s c hon => ?_⟩
  · refine ⟨_, exec_mirrorAck hon hm hstandby hctx, Panel.commits_postCommit .., fun hq hset => ?_⟩
    exact congrArg QueueSet.tdue (Panel.qset_deliverAll (p := s.panel.modCrown c fun k => { k with commits := rest }) hq m.recs hset)
  · exact ⟨_, exec_deadlineExpire hon hctx hset hpast h5 hstep, Panel.ent_finishCtx (Panel.crownLives_of_engineOn hon) ..⟩
  · exact ⟨_, exec_contextFree hon hctx h5 hled hposted hstep, Panel.ent_release _ n e (Panel.crownLives_of_engineOn hon),
      Panel.whereIs_release .., Panel.kvOf_release ..⟩
  · refine ⟨_, exec_outputPathTimeout hon hctx hdown hlate, ?_⟩
    rw [Panel.endCtx_now h0 h5 hstep]
    exact ⟨by rw [Panel.ent_finishCtx (Panel.crownLives_of_engineOn hon)]; rfl, Panel.rd_finishCtx_lost ..⟩
  · have h := s.panel.alike_loseCrown c
    have hgone : (s.panel.withoutCrown c).crown c = { CrownDie.blank with lost := true } := Panel.crown_setCrown ..
    refine ⟨_, exec_crownLoss hlive hlost, ?_, ?_, ?_, Panel.fatal_loseCrown⟩
    · rw [h.engines.lost, hgone]
    · rw [h.ctx, hgone]
      rfl
    · rw [h.engines.lost, Panel.crown_withoutCrown_other]
  · intro base now hnew
    have hlow (v : Nat) : v % 2 ^ 32 < 2 ^ 64 := by omega
    refine ⟨_, exec_forecastPost (now := now) hon rfl hnew, ?_, ?_, fun i hi => ?_⟩
    · exact (Panel.sh_stepsTaken ..).trans (s.panel.sh_setForecast c (now := now) (i := 0) (hlow now) (by simp [forecastWords]))
    · exact (Panel.sh_stepsTaken ..).trans (s.panel.sh_setForecast c (now := now) (i := 1) (hlow (now / 2 ^ 32)) (by simp [forecastWords]))
    have hplace : base + 8 + 4 * i = base + 4 * (2 + i) := by omega
    rw [hplace]
    refine (Panel.sh_stepsTaken ..).trans (s.panel.sh_setForecast c (now := now) (hlow _) ?_)
    interval_cases i <;> simp [forecastWords]

end Sys2Proof.Machine
end

section
/-! PROOFS. Group control (R335, R336, R344, R345): the fields of a word, what a write to every port die leaves of the registers that they
hold alike, and what each action of a control message leaves of the members. -/

namespace Sys2Proof.Machine

/-! ### Fields of a word -/

theorem testBit_bits (n hi lo i : Nat) : (bits n hi lo).testBit i = (decide (i < hi + 1 - lo) && n.testBit (lo + i)) := by
  rw [bits, Nat.testBit_mod_two_pow, Nat.testBit_shiftRight]

/-- A field set shows its own bits, and the others as they were. -/
theorem testBit_setFld {w : Nat} (v : BitVec w) {hi lo : Nat} (hhi : hi < w) (n j : Nat) :
    (setFld v hi lo n).toNat.testBit j = if lo ≤ j ∧ j ≤ hi then n.testBit (j - lo) else v.toNat.testBit j := by
  have hv : w ≤ j → v.toNat.testBit j = false := fun h => Nat.testBit_lt_two_pow (v.isLt.trans_le (Nat.pow_le_pow_right (by omega) h))
  simp only [setFld, BitVec.toNat_ofNat, Nat.testBit_mod_two_pow, Nat.testBit_or, Nat.testBit_and, Nat.testBit_xor,
    Nat.testBit_shiftLeft, Nat.testBit_two_pow_sub_one]
  by_cases hj : j < w
  · by_cases hlo : lo ≤ j
    · by_cases hin : j ≤ hi
      · simp [hj, hlo, hin, show j - lo < hi + 1 - lo by omega]
      · simp [hj, hlo, hin, show ¬ j - lo < hi + 1 - lo by omega]
    · simp [hj, hlo]
  · rw [if_neg (by omega), hv (by omega)]
    simp [hj]

/-! ### The registers that the port dies hold alike (R335) -/

/-- A register as the first present port die holds it. -/
def Panel.held (p : Panel) (o : Nat) : Nat := match p.firstPort with
  | none => 0
  | some d => (p.port d).rd o

theorem Panel.memb_held (p : Panel) (i : Nat) : p.memb i = p.held (Reg.PORT_GMEMB + 4 * i) := rfl

theorem Panel.held_of_firstPort {p : Panel} {d : Nat} (h : p.firstPort = some d) (o : Nat) : p.held o = (p.port d).rd o := by
  rw [Panel.held, h]

theorem Panel.held_congr {p q : Panel} (hp : q.ports = p.ports) (hf : q.fuses = p.fuses) (o : Nat) : q.held o = p.held o := by
  simp only [Panel.held, Panel.firstPort, Panel.port, hp, hf]

theorem Panel.firstPort_present {p : Panel} {d : Nat} (h : p.firstPort = some d) :
    d < 8 ∧ p.fuses.diePresent d = true ∧ (p.port d).lost = false := by
  have hd := List.mem_of_find?_eq_some h
  have hp := List.find?_some h
  simp only [Bool.and_eq_true, Bool.not_eq_true'] at hp
  exact ⟨List.mem_range.1 hd, hp⟩

/-- A register written in every present port die, each from what it held. -/
def Panel.writeAll (p : Panel) (o : Nat) (g : PortDie → Nat) : Panel := p.allPorts fun k => k.wr o (g k)

section
variable (p : Panel) (o : Nat) (g : PortDie → Nat)

theorem Panel.fuses_writeAll : (p.writeAll o g).fuses = p.fuses := allPorts_keeps (part := Panel.fuses) (fun _ _ _ => rfl) ..

theorem Panel.lost_writeAll (e : Nat) : ((p.writeAll o g).port e).lost = (p.port e).lost := by
  refine foldl_keeps (part := fun p => (p.port e).lost) (fun q d => ?_) _ p
  split_ifs
  · by_cases he : e = d
    · subst he
      rw [Panel.port_modPort]
      rfl
    · rw [q.port_modPort_other _ he]
  · rfl

theorem Panel.firstPort_writeAll : (p.writeAll o g).firstPort = p.firstPort := by
  simp only [Panel.firstPort, Panel.fuses_writeAll, Panel.lost_writeAll]

theorem Panel.port_writeAll {d : Nat} (h : p.firstPort = some d) : (p.writeAll o g).port d = (p.port d).wr o (g (p.port d)) := by
  obtain ⟨hd, hp, hl⟩ := Panel.firstPort_present h
  exact p.port_allPorts _ hd hp hl

theorem Panel.held_writeAll_same {d : Nat} (h : p.firstPort = some d) : (p.writeAll o g).held o = g (p.port d) % 2 ^ 64 := by
  rw [Panel.held_of_firstPort ((p.firstPort_writeAll o g).trans h), p.port_writeAll o g h, PortDie.rd_wr_same]

theorem Panel.held_writeAll_other {j : Nat} (h : j ≠ o) : (p.writeAll o g).held j = p.held j := by
  cases hd : p.firstPort with
  | none => rw [Panel.held, p.firstPort_writeAll, hd, Panel.held, hd]
  | some d =>
    rw [Panel.held_of_firstPort ((p.firstPort_writeAll o g).trans hd), p.port_writeAll o g hd, Panel.held_of_firstPort hd]
    simp [PortDie.rd, PortDie.wr, rfGet_rfSet_other _ _ h]

theorem Panel.memb_writeAll (h : o < Reg.PORT_GMEMB) (i : Nat) : (p.writeAll o g).memb i = p.memb i := by
  rw [Panel.memb_held, p.held_writeAll_other o g (by omega), Panel.memb_held]

end

/-! ### Members (R335) -/

section
variable (p : Panel) (i hi lo n : Nat)

theorem Panel.setMembFld_writeAll : p.setMembFld i hi lo n = p.writeAll (Reg.PORT_GMEMB + 4 * i) fun k =>
    (setFld (rfGet k.regs (Reg.PORT_GMEMB + 4 * i)) hi lo n).toNat := rfl

theorem Panel.firstPort_setMembFld : (p.setMembFld i hi lo n).firstPort = p.firstPort := by
  rw [Panel.setMembFld_writeAll, Panel.firstPort_writeAll]

theorem Panel.memb_setMembFld_other {j : Nat} (h : j ≠ i) : (p.setMembFld i hi lo n).memb j = p.memb j := by
  rw [Panel.setMembFld_writeAll, Panel.memb_held, p.held_writeAll_other _ _ (by omega), Panel.memb_held]

variable {d : Nat} (hd : p.firstPort = some d) (hhi : hi < 64)
include hd hhi

theorem Panel.testBit_setMembFld (j : Nat) : ((p.setMembFld i hi lo n).memb i).testBit j =
    if lo ≤ j ∧ j ≤ hi then n.testBit (j - lo) else (p.memb i).testBit j := by
  rw [Panel.setMembFld_writeAll, Panel.memb_held, p.held_writeAll_same _ _ hd, Nat.mod_eq_of_lt (BitVec.isLt _),
    testBit_setFld _ hhi, Panel.memb_held, Panel.held_of_firstPort hd, PortDie.rd]

/-- A field of a member set reads as it was set. -/
theorem Panel.bits_setMembFld_same : bits ((p.setMembFld i hi lo n).memb i) hi lo = n % 2 ^ (hi + 1 - lo) := by
  refine Nat.eq_of_testBit_eq fun j => ?_
  rw [testBit_bits, p.testBit_setMembFld i hi lo n hd hhi, Nat.testBit_mod_two_pow]
  by_cases hj : j < hi + 1 - lo
  · rw [if_pos (by omega), Nat.add_sub_cancel_left]
  · simp [hj]

/-- Any other field of it stays. -/
theorem Panel.bits_setMembFld_other {hi' lo' : Nat} (h : hi' < lo ∨ hi < lo') :
    bits ((p.setMembFld i hi lo n).memb i) hi' lo' = bits (p.memb i) hi' lo' := by
  refine Nat.eq_of_testBit_eq fun j => ?_
  rw [testBit_bits, testBit_bits, p.testBit_setMembFld i hi lo n hd hhi]
  by_cases hj : j < hi' + 1 - lo'
  · rw [if_neg (by omega)]
  · simp [hj]

end

theorem membDev_bits (m : Nat) : membDev m = bits m 11 0 := rfl

/-! ### Control messages (R336) -/

/-- The panel once a crown has taken a message from its queue. -/
def Panel.popMsg (p : Panel) (c : Crown) (rest : List CtxMsg) : Panel := p.modCrown c fun k => { k with msgq := rest }

theorem Panel.crown_popMsg (p : Panel) (c : Crown) (rest : List CtxMsg) :
    (p.popMsg c rest).crown c = { p.crown c with msgq := rest } := p.crown_modCrown c _

theorem Panel.steps_popMsg (p : Panel) (c : Crown) (rest : List CtxMsg) :
    ((p.popMsg c rest).crown c).steps = (p.crown c).steps := by rw [Panel.crown_popMsg]

theorem Panel.grp_popMsg (p : Panel) (c : Crown) (rest : List CtxMsg) : (p.popMsg c rest).grp = p.grp :=
  (Panel.held_congr rfl rfl Reg.PORT_GRP : (p.popMsg c rest).held Reg.PORT_GRP = p.held Reg.PORT_GRP)

theorem Panel.nextMsg_some {p q : Panel} {c : Crown} {want : Nat → Bool} {m : CtxMsg} (h : p.nextMsg c want = some (m, q)) :
    want m.tag = true ∧ ∃ rest, ((p.crown c).msgq.dropWhile fun m => !engineTag m.tag) = m :: rest ∧
      q = p.popMsg c rest := by
  unfold Panel.nextMsg at h
  dsimp only at h
  split at h
  · cases h
  next rest hq =>
    split_ifs at h with hw
    cases h
    exact ⟨hw, rest, hq, rfl⟩

/-- The panel once a control message has been taken and logged. -/
def Panel.heardControl (p : Panel) (c : Crown) (rest : List CtxMsg) (action dev : Nat) : Panel :=
  (p.popMsg c rest).logCrown c (.crown c) { cls := 0x14, level := 4, unit := action, addr := dev }

theorem epochCmp_self (e : Nat) : epochCmp e e = 0 := by
  rw [epochCmp, Nat.add_sub_cancel_left]
  rfl

theorem Panel.seeEpoch_own {p : Panel} {e : Nat} (h : e = grpEpoch p.grp) {d : Nat} : p.seeEpoch d e = p := by
  rw [Panel.seeEpoch, h, epochCmp_self]
  rfl

/-- A control message of the group's own epoch is acted upon. -/
theorem Panel.onControl_acts {p q : Panel} {c : Crown} {d : Nat} {m : CtxMsg} (hfirst : p.firstPort = some d)
    (hm : p.nextMsg c (· == 0x4705) = some (m, q)) (hepoch : leAt m.payload 2 2 = grpEpoch p.grp)
    (f : Nat → Nat → Panel → Panel) : ∃ rest, p.onControl c (leAt m.payload 0 1) f =
      f (leAt m.payload 1 1 % 64) (leAt m.payload 4 2 % 4096)
        (p.heardControl c rest (leAt m.payload 0 1) (leAt m.payload 4 2 % 4096)) := by
  obtain ⟨htag, rest, hq, -⟩ := Panel.nextMsg_some hm
  have htag : m.tag = 0x4705 := eq_of_beq htag
  have hfirst' : (p.popMsg c rest).firstPort = some d := hfirst
  have hpop : (p.modCrown c fun k => { k with msgq := rest }) = p.popMsg c rest := rfl
  have hsee : (p.popMsg c rest).seeEpoch d (leAt m.payload 2 2) = p.popMsg c rest :=
    Panel.seeEpoch_own (by rw [Panel.grp_popMsg, hepoch])
  have htake : p.takeControl c (leAt m.payload 0 1) = some (leAt m.payload 1 1 % 64, leAt m.payload 4 2 % 4096,
      p.heardControl c rest (leAt m.payload 0 1) (leAt m.payload 4 2 % 4096)) := by
    unfold Panel.takeControl
    simp only [hq, htag, hpop, hfirst', hsee, ne_eq, not_true, or_self, if_false]
    rw [hepoch, epochCmp_self]
    rfl
  refine ⟨rest, ?_⟩
  unfold Panel.onControl
  rw [htake]
  exact if_neg (by omega)

end Sys2Proof.Machine
end

section
/-! PROOFS. Group control acted upon (R336, R344, R345): what a fence, an expulsion, an adoption, a takeover and a spare that is ready
leave of the members, the blocked devices and the models. -/

namespace Sys2Proof.Machine

open Host (Outcome)

/-! ### The fields of a member, and what leaves the members -/

section
variable {p : Panel} {d : Nat} (h : p.firstPort = some d) (i n : Nat)
include h

theorem Panel.membState_setMembFld : membState ((p.setMembFld i 27 26 n).memb i) = n % 4 :=
  p.bits_setMembFld_same i 27 26 n h (by decide)

theorem Panel.membRole_setMembFld : membRole ((p.setMembFld i 30 28 n).memb i) = n % 8 :=
  p.bits_setMembFld_same i 30 28 n h (by decide)

theorem Panel.membDev_setMembFld : membDev ((p.setMembFld i 11 0 n).memb i) = n % 4096 := by
  rw [membDev_bits, p.bits_setMembFld_same i 11 0 n h (by decide)]
  norm_num

theorem Panel.membDev_setMembFld_state : membDev ((p.setMembFld i 27 26 n).memb i) = membDev (p.memb i) := by
  rw [membDev_bits, membDev_bits, p.bits_setMembFld_other i 27 26 n h (by decide) (.inl (by decide))]

end

theorem Panel.memb_congr {p q : Panel} (hp : q.ports = p.ports) (hf : q.fuses = p.fuses) (i : Nat) : q.memb i = p.memb i :=
  Panel.held_congr hp hf _

theorem Panel.memb_setRole (p : Panel) (r i : Nat) : (p.setRole r).memb i = p.memb i := p.memb_writeAll _ _ (by decide) i

theorem Panel.memb_setAlert (p : Panel) (v i : Nat) : (p.setAlert v).memb i = p.memb i := p.memb_writeAll _ _ (by decide) i

theorem Panel.memb_settleAlert (p : Panel) (i : Nat) : p.settleAlert.memb i = p.memb i := by
  unfold Panel.settleAlert
  extract_lets fenced first second a
  clear_value a
  split_ifs
  · rfl
  · exact Panel.memb_setAlert ..

/-- What changes the crowns alone leaves the members. -/
theorem Panel.memb_eachCrown (p : Panel) (f : CrownDie → CrownDie) (i : Nat) :
    ([Crown.north, Crown.south].foldl (fun p c => p.modCrown c f) p).memb i = p.memb i :=
  foldl_keeps (part := fun p => p.memb i) (f := fun p c => p.modCrown c f) (fun _ _ => Panel.memb_congr rfl rfl i) _ p

theorem Panel.memb_stepDown (p : Panel) (i : Nat) : p.stepDown.memb i = p.memb i := by
  rw [Panel.stepDown, Panel.memb_eachCrown, Panel.memb_setRole]

theorem Panel.memb_groupSend (p : Panel) (c : Crown) (dev tag : Nat) (bs : List Byte) (commit : Option Nat) (i : Nat) :
    (p.groupSend c dev tag bs commit).memb i = p.memb i :=
  Panel.memb_congr (groupSend_keeps (part := Panel.ports) (fun _ _ _ => rfl) ..)
    (groupSend_keeps (part := Panel.fuses) (fun _ _ _ => rfl) ..) i

theorem Panel.memb_sendReady (p : Panel) (c : Crown) (n i : Nat) : (p.sendReady c n).memb i = p.memb i := by
  unfold Panel.sendReady
  split
  · rfl
  · exact Panel.memb_groupSend ..

/-! ### Devices blocked (R344) -/

/-- An expelled device is blocked in every port die. -/
theorem Panel.testBit_blockDevice {p : Panel} {d : Nat} (h : p.firstPort = some d) (dev : Nat) :
    (((p.blockDevice dev).port d).rd (Reg.PORT_DEVBLK + 4 * (dev / 32))).testBit (dev % 32) = true := by
  have hport : (p.blockDevice dev).port d = (p.port d).wr (Reg.PORT_DEVBLK + 4 * (dev / 32))
      ((p.port d).rd (Reg.PORT_DEVBLK + 4 * (dev / 32)) ||| 2 ^ (dev % 32)) := p.port_writeAll _ _ h
  rw [hport, PortDie.rd_wr_same, Nat.testBit_mod_two_pow, Nat.testBit_or, Nat.testBit_two_pow_self, Bool.or_true, Bool.and_true]
  exact decide_eq_true (by omega)

/-! ### A spare adopted (R344) -/

/-- The spare's own entry cleared. -/
def Panel.clearSpare (p : Panel) (i dev : Nat) : Panel :=
  match (List.range 64).find? fun j => let m := p.memb j; membValid m && membDev m == dev && j != i with
  | some j => p.setMemb j 0
  | none => p

theorem Panel.firstPort_clearSpare (p : Panel) (i dev : Nat) : (p.clearSpare i dev).firstPort = p.firstPort := by
  unfold Panel.clearSpare
  split
  · exact p.firstPort_writeAll ..
  · rfl

/-- The spare's device at the index of the member that it replaces. -/
def Panel.takeSpare (p : Panel) (i dev : Nat) : Panel := ((p.clearSpare i dev).setMembFld i 11 0 dev).setMembFld i 27 26 0

theorem Panel.memb_takeSpare {p : Panel} {d : Nat} (h : p.firstPort = some d) (i dev : Nat) :
    membDev ((p.takeSpare i dev).memb i) = dev % 4096 ∧ membState ((p.takeSpare i dev).memb i) = 0 := by
  have h0 : (p.clearSpare i dev).firstPort = some d := (p.firstPort_clearSpare i dev).trans h
  have h1 : ((p.clearSpare i dev).setMembFld i 11 0 dev).firstPort = some d := (Panel.firstPort_setMembFld ..).trans h0
  rw [Panel.takeSpare, Panel.membDev_setMembFld_state h1, Panel.membDev_setMembFld h0, Panel.membState_setMembFld h1]
  exact ⟨rfl, rfl⟩

/-- The panel once a spare has been adopted; the spare itself is ready, or waits for its models. -/
def Panel.adoptSpare (p : Panel) (c : Crown) (i dev : Nat) : Panel :=
  let q := p.takeSpare i dev
  if p.ownDevice = some dev then
    let q := q.setRole (membRole (q.memb i))
    if q.anyLoading then { q with adopting := true, awaited := put q.awaited i dev } else q.sendReady c i
  else q

theorem Panel.memb_adoptSpare (p : Panel) (c : Crown) (i dev : Nat) : (p.adoptSpare c i dev).memb i = (p.takeSpare i dev).memb i := by
  unfold Panel.adoptSpare
  extract_lets q r
  have hr : r.memb i = q.memb i := q.memb_setRole ..
  clear_value r
  split_ifs
  · exact (Panel.memb_congr (p := r) rfl rfl i).trans hr
  · exact (r.memb_sendReady c i i).trans hr
  · rfl

/-! ### A takeover (R345) -/

/-- A member shows as the manager. -/
def Panel.managerAt (p : Panel) (j : Nat) : Prop := membValid (p.memb j) = true ∧ membRole (p.memb j) = 1

/-- A manager other than the one that took over becomes a follower. -/
def Panel.demote (i : Nat) (p : Panel) (j : Nat) : Panel :=
  let m := p.memb j
  if membValid m ∧ membRole m = 1 ∧ j ≠ i then p.setMembFld j 30 28 3 else p

section
variable {i : Nat}

theorem Panel.firstPort_demote (p : Panel) (j : Nat) : (p.demote i j).firstPort = p.firstPort := by
  unfold Panel.demote
  dsimp only
  split_ifs
  · exact Panel.firstPort_setMembFld ..
  · rfl

theorem Panel.not_managerAt_demote_self {p : Panel} {d : Nat} (h : p.firstPort = some d) {j : Nat} (hj : j ≠ i) :
    ¬ (p.demote i j).managerAt j := by
  rintro ⟨hvalid, hrole⟩
  unfold Panel.demote at hvalid hrole
  dsimp only at hvalid hrole
  split_ifs at hvalid hrole with hmgr
  · rw [Panel.membRole_setMembFld h] at hrole
    exact absurd hrole (by decide)
  · exact hmgr ⟨hvalid, hrole, hj⟩

theorem Panel.not_managerAt_demote {p : Panel} {d : Nat} (h : p.firstPort = some d) {j : Nat} (hj : j ≠ i)
    (hnot : ¬ p.managerAt j) (k : Nat) : ¬ (p.demote i k).managerAt j := by
  by_cases hk : j = k
  · subst hk
    exact Panel.not_managerAt_demote_self h hj
  · unfold Panel.demote
    dsimp only
    split_ifs
    · rwa [Panel.managerAt, Panel.memb_setMembFld_other _ _ _ _ _ hk]
    · exact hnot

theorem Panel.firstPort_demoteAll (p : Panel) (l : List Nat) : (l.foldl (Panel.demote i) p).firstPort = p.firstPort :=
  foldl_keeps (part := Panel.firstPort) Panel.firstPort_demote l p

theorem Panel.not_managerAt_demoteAll {d j : Nat} (hj : j ≠ i) : ∀ (l : List Nat) (p : Panel), p.firstPort = some d →
    j ∈ l ∨ ¬ p.managerAt j → ¬ (l.foldl (Panel.demote i) p).managerAt j
  | [], _, _, h => h.resolve_left List.not_mem_nil
  | k :: l, p, hd, h => by
    refine Panel.not_managerAt_demoteAll hj l _ ((p.firstPort_demote k).trans hd) ?_
    rcases h with h | h
    · rcases List.mem_cons.1 h with rfl | h
      · exact .inr (Panel.not_managerAt_demote_self hd hj)
      · exact .inl h
    · exact .inr (Panel.not_managerAt_demote hd hj h k)

end

/-- The members once the sender of a takeover is the one manager. -/
def Panel.soleManager (p : Panel) (i : Nat) : Panel := ((List.range 64).foldl (Panel.demote i) p).setMembFld i 30 28 1

theorem Panel.memb_soleManager {p : Panel} {d : Nat} (h : p.firstPort = some d) (i : Nat) :
    membRole ((p.soleManager i).memb i) = 1 ∧ ∀ j, j < 64 → j ≠ i → ¬ (p.soleManager i).managerAt j := by
  refine ⟨Panel.membRole_setMembFld ((p.firstPort_demoteAll _).trans h) i 1, fun j hj hne => ?_⟩
  rw [Panel.managerAt, Panel.soleManager, Panel.memb_setMembFld_other _ _ _ _ _ hne]
  exact Panel.not_managerAt_demoteAll hne _ p h (.inl (List.mem_range.2 hj))

/-- The panel once another member has taken over. -/
def Panel.followManager (p : Panel) (i dev : Nat) : Panel :=
  let p := p.soleManager i
  let p := if grpRole p.grp = 1 then p.stepDown else p
  [Crown.north, Crown.south].foldl (fun p c => p.modCrown c fun k =>
    k.wr Reg.CTX_GRP (setFld (rfGet k.regs Reg.CTX_GRP) 51 40 dev).toNat) p

theorem Panel.memb_followManager (p : Panel) (i dev j : Nat) : (p.followManager i dev).memb j = (p.soleManager i).memb j := by
  unfold Panel.followManager
  extract_lets q r
  have hr : r.memb j = q.memb j := by
    unfold r
    split_ifs
    · exact q.memb_stepDown j
    · rfl
  exact (r.memb_eachCrown _ j).trans hr

/-! ### A spare ready (R344) -/

/-- The panel once a spare is ready: with none awaited any more, its models go on, and their contexts replay. -/
def Panel.spareReady (p : Panel) (i : Nat) : Panel :=
  let p := { p with awaited := drop p.awaited i }
  if p.awaited.isEmpty then
    let p := { p with models := p.models.map fun (x : Nat × Model) => (x.1, ({ x.2 with stopped := false } : Model)) }
    p.slots.foldl (fun p x => p.setEnt x.1 { p.ent x.1 with replay := true }) p
  else p

theorem Panel.awaited_spareReady (p : Panel) (i : Nat) : (p.spareReady i).awaited = drop p.awaited i := by
  unfold Panel.spareReady
  dsimp only
  split_ifs
  · exact foldl_keeps (part := Panel.awaited) (fun _ _ => setEnt_keeps (part := Panel.awaited) (fun _ _ _ => rfl) ..) ..
  · rfl

theorem stopped_released (m : Sparse Model) (n : Nat) :
    (look {} (m.map fun (x : Nat × Model) => (x.1, ({ x.2 with stopped := false } : Model))) n).stopped = false := by
  induction m with
  | nil => rfl
  | cons x m ih =>
    rw [List.map_cons, look, find]
    split_ifs
    · rfl
    · exact ih

theorem Panel.stopped_spareReady {p : Panel} {i : Nat} (h : drop p.awaited i = []) (n : Nat) :
    ((p.spareReady i).model n).stopped = false := by
  unfold Panel.spareReady
  dsimp only
  rw [if_pos (List.isEmpty_iff.2 h), Panel.model,
    foldl_keeps (part := Panel.models) fun _ _ => setEnt_keeps (part := Panel.models) (fun _ _ _ => rfl) ..]
  exact stopped_released ..

/-! ### The commands complete -/

section
variable {s : State} {c : Crown} {d : Nat} {m : CtxMsg} {p0 : Panel} (hon : s.panel.engineOn c = true)
  (hfirst : s.panel.firstPort = some d) (hm : s.panel.nextMsg c (· == 0x4705) = some (m, p0))
  (hepoch : leAt m.payload 2 2 = grpEpoch s.panel.grp)
include hon hfirst hm hepoch

/-- A control message of the action that a command takes is acted upon, on a panel of the same members, models and spares. -/
theorem control_acts {action : Nat} (haction : leAt m.payload 0 1 = action) (f : Nat → Nat → Panel → Panel)
    {x : Outcome State Fault Refusal} (hx : x = s.atCrown c fun p => p.onControl c action f) :
    ∃ q, x = .next { s with panel := f (leAt m.payload 1 1 % 64) (leAt m.payload 4 2 % 4096) q } ∧
      q.firstPort = some d ∧ q.awaited = s.panel.awaited := by
  subst haction
  obtain ⟨rest, hacts⟩ := Panel.onControl_acts hfirst hm hepoch f
  refine ⟨s.panel.heardControl c rest (leAt m.payload 0 1) (leAt m.payload 4 2 % 4096), ?_, hfirst, rfl⟩
  rw [hx, atCrown_engineOn hon, hacts]

end

theorem groupControlCompletes : Completion.GroupControlCompletes := by
  intro s c d m p0 hon hfirst hm hepoch i dev
  have acts {action : Nat} (haction : leAt m.payload 0 1 = action) (f : Nat → Nat → Panel → Panel)
      {x : Outcome State Fault Refusal} (hx : x = s.atCrown c fun p => p.onControl c action f) : ∃ q,
      x = .next { s with panel := f i dev q } ∧ q.firstPort = some d ∧ q.awaited = s.panel.awaited :=
    control_acts hon hfirst hm hepoch haction f hx
  have hrange : dev % 4096 = dev := Nat.mod_mod ..
  clear_value i dev
  refine ⟨fun ha => ?_, fun ha => ?_, fun ha => ?_, fun ha => ?_, fun ha => ?_, fun ha => ?_⟩
  · obtain ⟨q, hexec, hq, -⟩ := acts ha (fun i _ p => p.setMembFld i 27 26 2)
      (rfl : execGroupFence c s = _)
    exact ⟨_, hexec, by rw [Panel.membState_setMembFld hq]⟩
  · obtain ⟨q, hexec, hq, -⟩ := acts ha (fun i _ p => (p.setMembFld i 27 26 0).settleAlert)
      (rfl : execGroupUnfence c s = _)
    refine ⟨_, hexec, ?_⟩
    rw [Panel.memb_settleAlert, Panel.membState_setMembFld hq]
  · obtain ⟨q, hexec, hq, -⟩ := acts ha (fun _ dev p => p.blockDevice dev)
      (rfl : execGroupExpel c s = _)
    exact ⟨_, hexec, by rw [Panel.testBit_blockDevice hq]⟩
  · obtain ⟨q, hexec, hq, -⟩ := acts ha (fun i dev p => p.adoptSpare c i dev)
      (rfl : execGroupAdopt c s = _)
    obtain ⟨hdev, hstate⟩ := Panel.memb_takeSpare hq i dev
    refine ⟨_, hexec, ?_, ?_⟩
    · rw [Panel.memb_adoptSpare, hdev, hrange]
    · rw [Panel.memb_adoptSpare, hstate]
  · obtain ⟨q, hexec, hq, -⟩ := acts ha (fun i dev p => p.followManager i dev)
      (rfl : execGroupTakeover c s = _)
    obtain ⟨hrole, hothers⟩ := Panel.memb_soleManager hq i
    refine ⟨_, hexec, ?_, fun j hj hne hvalid => ?_⟩
    · rw [Panel.memb_followManager, hrole]
    · rw [Panel.memb_followManager] at hvalid ⊢
      exact fun h => hothers j hj hne ⟨hvalid, h⟩
  · obtain ⟨q, hexec, -, hq⟩ := acts ha (fun i _ p => p.spareReady i)
      (rfl : execGroupReady c s = _)
    refine ⟨_, hexec, ?_, fun x hx n => Panel.stopped_spareReady ?_ n⟩
    · rw [Panel.awaited_spareReady, find_drop_same]
    · rw [hq, hx, drop, if_pos rfl]
      rfl

end Sys2Proof.Machine
end

section
/-! PROOFS. Messages of a group (R281, R337–R339): what a step command, a report, a mirror update, the records of a fabric queue and a
resend leave of their crown; with group control, the obligation O21. -/

namespace Sys2Proof.Machine

/-! ### Bytes (R9) -/

theorem leNat_append (a b : List Byte) : leNat (a ++ b) = leNat a + 256 ^ a.length * leNat b := by
  induction a with
  | nil => simp [leNat]
  | cons x a ih =>
    rw [List.cons_append, leNat, ih, leNat, List.length_cons, Nat.pow_succ]
    ring

theorem leNat_lt (l : List Byte) : leNat l < 256 ^ l.length := by
  induction l with
  | nil => decide
  | cons x l ih =>
    have hx := x.isLt
    rw [leNat, List.length_cons, Nat.pow_succ]
    omega

theorem leAt_lt (bs : List Byte) (i n : Nat) : leAt bs i n < 256 ^ n :=
  (leNat_lt _).trans_le (Nat.pow_le_pow_right (by decide) (by rw [List.length_take]; exact min_le_left ..))

/-- The high half of eight bytes is the number that the last four spell. -/
theorem bits_leAt_high (bs : List Byte) : bits (leAt bs 0 8) 63 32 = leAt bs 4 4 := by
  have hsplit : leAt bs 0 8 = leAt bs 0 4 + 256 ^ 4 * leAt bs 4 4 := by
    have htake : bs.take 8 = bs.take 4 ++ (bs.drop 4).take 4 := (bs.take_add (i := 4) (j := 4)).trans rfl
    rw [leAt, leAt, leAt, List.drop_zero, htake, leNat_append, List.length_take]
    rcases Nat.le_total 4 bs.length with h | h
    · rw [min_eq_left h]
    · rw [List.drop_eq_nil_of_le h]
      simp [leNat]
  have hlow := leAt_lt bs 0 4
  have hhigh := leAt_lt bs 4 4
  rw [bits, Nat.shiftRight_eq_div_pow, hsplit]
  omega

/-! ### Step commands and reports (R281, R337) -/

/-- A step as a follower takes it from a command. -/
def Panel.commanded (p : Panel) (m : CtxMsg) (d : ModelDesc) : Step :=
  let g1 := leAt m.payload 0 8
  { num := bits g1 63 32, model := leAt m.payload 10 1 % 16, slot := bits g1 15 8 % 4, kind := bits g1 7 0, reports := 1
    command := m.payload, began := p.dial, sentAt := p.dial, replay := (leAt m.payload 11 1).testBit 0
    cores := d.cores.map p.coreNumber }

/-- A worker's report of a step, as the step then stands. -/
def Step.reportedBy (x : Step) (st : Nat) : Step :=
  { x with
    workers := x.workers.drop 1
    wfail := if st ≠ St.done ∧ x.wfail.isNone then some st else x.wfail }

section
variable {s : State} {c : Crown} {m : CtxMsg} {p0 : Panel} (hon : s.panel.engineOn c = true)
include hon

section
variable (hfatal : s.panel.fatal = false) (hshed : s.panel.shedding = false)
  (hm : s.panel.nextMsg c (· == 0x4701) = some (m, p0))
include hfatal hshed hm

theorem exec_stepCommand_taken {d : ModelDesc} (hepoch : leAt m.payload 8 2 = grpEpoch p0.grp) (hrole : p0.ctxRole c = 2)
    (hdesc : p0.readyDesc (leAt m.payload 10 1 % 16) = some d) :
    ∃ t, exec (.stepCommand c) s = .next t ∧ (p0.setStep c (p0.commanded m d)).Alike CrownDie.engine t.panel := by
  have hgo : ¬ (leAt m.payload 8 2 ≠ grpEpoch p0.grp ∨ p0.ctxRole c ≠ 2) := by simp [hepoch, hrole]
  change ∃ t, execStepCommand c s = _ ∧ _
  rw [execStepCommand, atCrown_engineOn hon]
  simp only [hfatal, hshed, Bool.false_eq_true, or_self, if_false, hm, if_neg hgo, hdesc]
  exact ⟨_, rfl, (Panel.Alike.refl _).sendStep mailBlind_engine⟩

theorem exec_stepCommand_stale {d : Nat} (hepoch : leAt m.payload 8 2 ≠ grpEpoch p0.grp) (hfirst : p0.firstPort = some d) :
    exec (.stepCommand c) s =
      .next { s with panel := p0.modPort d fun k => k.bump Reg.PORT_STEP_STALE_CNT } := by
  change execStepCommand c s = _
  rw [execStepCommand, atCrown_engineOn hon]
  simp only [hfatal, hshed, Bool.false_eq_true, or_self, if_false, hm, hepoch, hfirst, ne_eq, not_false_eq_true, true_or, if_true]

end

theorem exec_stepReport {x : Step} (hm : s.panel.nextMsg c (· == 0x4702) = some (m, p0))
    (hx : find (p0.crown c).steps (leAt m.payload 4 4) = some x) :
    ∃ t, exec (.stepReport c) s = .next t ∧
      find (t.panel.crown c).steps (leAt m.payload 4 4) = some (x.reportedBy (St.taken (leAt m.payload 10 1))) := by
  change ∃ t, execStepReport c s = _ ∧ _
  rw [execStepReport, atCrown_engineOn hon]
  simp only [hm, hx]
  refine ⟨_, rfl, ?_⟩
  rw [Panel.crown_modCrown]
  exact find_put_same ..

/-! ### Mirrors (R338) -/

/-- An entry with the words that a mirror update names. -/
def CtxEntry.mirrored (e : CtxEntry) (m : CtxMsg) : CtxEntry :=
  let idx := (List.range 16).filter fun i => (leAt m.payload 4 2).testBit i
  ((List.range idx.length).zip idx).foldl (fun e x => e.setWord x.2 (leAt m.payload (8 + 8 * x.1) 8)) e

/-- A mirrored entry that is neither free nor held stays in its slot. -/
theorem exec_mirrorUpdate {n : Nat} {old : CtxEntry} (hm : s.panel.nextMsg c (· == 0x4703) = some (m, p0))
    (hctx : p0.ctxOf (leAt m.payload 0 4) = some (.slot n, old)) (h0 : (old.mirrored m).state ≠ 0)
    (h4 : (old.mirrored m).state ≠ 4) :
    exec (.mirrorUpdate c) s = .next { s with panel := p0.storeEnt n (old.mirrored m) } := by
  have hplace : p0.placeMirror (leAt m.payload 0 4) (some (.slot n)) (old.mirrored m) = p0.storeEnt n (old.mirrored m) := by
    unfold Panel.placeMirror
    dsimp only
    rw [if_neg h0, if_neg h4]
  change execMirrorUpdate c s = _
  rw [execMirrorUpdate, atCrown_engineOn hon]
  simp only [hm, hctx]
  exact congrArg (fun q => Host.Outcome.next { s with panel := q }) hplace

/-! ### Records of a fabric queue (R339) -/

/-- The records of a message. -/
def CtxMsg.records (m : CtxMsg) : List (List Byte) :=
  (List.range (m.payload.length / 16)).map fun i => (m.payload.drop (16 * i)).take 16

theorem exec_tokenRecordMessage (hm : s.panel.nextMsg c (fun t => 0x8000 ≤ t && t ≤ 0x8FFF) = some (m, p0))
    (hset : (s.panel.qset (m.tag - 0x8000)).on = true) (hroom : m.payload.length / 16 ≤ (s.panel.qset (m.tag - 0x8000)).tcqRoom) :
    exec (.tokenRecordMessage c) s =
      .next { s with panel := p0.modQ (m.tag - 0x8000) fun k => { k with tdue := k.tdue ++ m.records } } := by
  change execTokenRecordMessage c s = _
  rw [execTokenRecordMessage, atCrown_engineOn hon]
  simp only [hm, hset, not_true, if_false, if_neg (not_lt.2 hroom)]
  rfl

/-- The panel once the records of a fabric queue have been sent again. -/
def Panel.resendFab (p : Panel) (c : Crown) (key : Nat) (q : FabQueue) : Panel :=
  (p.modCrown c fun k => { k with fab := put k.fab key { q with resendAt := none } }).peerSend c (key / 4096)
    (0x8000 + key % 4096) (.tokens key) ((q.recs.take q.sent).flatMap (·.bytes))

theorem exec_fabricRecordResend {queue : Fin 4096} {key t0 : Nat} {q : FabQueue} (hfab : (s.panel.crown c).fab = [(key, q)])
    (hkey : key % 4096 = queue.val) (hat : q.resendAt = some t0) (hdue : t0 ≤ s.panel.dial) :
    exec (.fabricRecordResend c queue) s = .next { s with panel := s.panel.resendFab c key q } := by
  have hgo : ¬ (key % 4096 ≠ queue.val ∨ s.panel.dial < t0) := by simp [hkey, hdue]
  change execFabricRecordResend c queue s = _
  rw [execFabricRecordResend, atCrown_engineOn hon, hfab, List.foldl_cons, List.foldl_nil]
  simp only [hat, if_neg hgo]
  rfl

end

theorem Panel.crown_resendFab {p : Panel} {c : Crown} {key : Nat} {q : FabQueue} (hfab : (p.crown c).fab = [(key, q)]) :
    ((p.resendFab c key q).crown c).fab = [(key, { q with resendAt := none })] ∧
      ((p.resendFab c key q).crown c).asked = (p.crown c).asked ++ [((p.crown c).nextSeq, .tokens key)] := by
  rw [Panel.resendFab, Panel.peerSend, Panel.crownSend, Panel.crown_modCrown, Panel.crown_modCrown]
  refine ⟨?_, rfl⟩
  dsimp only
  rw [hfab, put, if_neg (lt_irrefl _), if_pos rfl]

/-! ### The commands complete -/

theorem groupStepsComplete : Completion.GroupStepsComplete := by
  refine ⟨fun s c m p0 hon hfatal hshed hm => ⟨fun d hepoch hrole hdesc => ?_, fun d hepoch hfirst => ?_⟩,
    fun s c m p0 x hon hm hx => ?_, fun s c m p0 n old hon hm hctx => ?_, fun s c m p0 hon hm => ?_,
    fun s c queue key t0 q hon hfab hkey hat hdue => ?_⟩
  · obtain ⟨-, rest, -, rfl⟩ := Panel.nextMsg_some hm
    have hrole' : (s.panel.popMsg c rest).ctxRole c = 2 := by
      rw [Panel.ctxRole, Panel.crown_popMsg]
      exact hrole
    obtain ⟨t, hexec, halike⟩ := exec_stepCommand_taken hon hfatal hshed hm hepoch hrole' hdesc
    refine ⟨t, (s.panel.popMsg c rest).commanded m d, hexec, ?_, rfl, rfl, rfl, rfl⟩
    rw [halike.steps, ← bits_leAt_high]
    exact Panel.find_setStep ..
  · obtain ⟨-, rest, -, rfl⟩ := Panel.nextMsg_some hm
    refine ⟨_, exec_stepCommand_stale hon hfatal hshed hm hepoch hfirst, ?_, ?_⟩
    · exact Panel.steps_popMsg ..
    · rw [Panel.port_modPort]
      exact rfGet_rfBump_same ..
  · obtain ⟨-, rest, -, rfl⟩ := Panel.nextMsg_some hm
    obtain ⟨t, hexec, ht⟩ := exec_stepReport (x := x) hon hm (by rw [Panel.steps_popMsg, hx])
    exact ⟨t, _, hexec, ht, rfl, rfl⟩
  · intro idx new h0 h4
    obtain ⟨-, rest, -, rfl⟩ := Panel.nextMsg_some hm
    have halike : s.panel.Alike CrownDie.tables (s.panel.popMsg c rest) :=
      .modCrown (.refl _) fun _ => rfl
    have hctx' := (Panel.ctxOf_congr halike rfl rfl _).trans hctx
    refine ⟨_, exec_mirrorUpdate hon hm hctx' h0 h4, ?_⟩
    rw [Panel.ent_storeEnt (halike.engines.crownLives (Panel.crownLives_of_engineOn hon))]
    exact if_neg h0
  · intro q n hset hroom
    obtain ⟨-, rest, -, rfl⟩ := Panel.nextMsg_some hm
    exact ⟨_, exec_tokenRecordMessage hon hm hset hroom, rfl, congrArg QueueSet.tdue (Panel.qset_modQ ..)⟩
  · exact ⟨_, exec_fabricRecordResend hon hfab hkey hat hdue, Panel.crown_resendFab hfab⟩

/-- Settles O21: the messages of a group by what they leave of their crown, group control by what it leaves of the members. -/
theorem groupSteps : Obligations.GroupSteps := ⟨groupStepsComplete, groupControlCompletes⟩

end Sys2Proof.Machine
end

section
/-! PROOFS. Accesses of a hub's stack (R289–R292, R299, R302): what reads, writes and scrubs leave of the hub, and byte by byte what
they store. -/

namespace Sys2Proof.Machine

/-! ### What an access leaves of the hub -/

/-- A hub after accesses that leave its memory as `mem`: besides, they keep only counters, records, write-backs and sections. -/
def Hub.Accessed (k : Hub) (mem : Mem) (l : Hub) : Prop :=
  ∃ regs log wbq bad sections,
    l = { k with mem := mem, regs := regs, log := log, wbq := wbq, badTimes := bad, sections := sections }

namespace Hub.Accessed

variable {k l j : Hub} {m m' : Mem}

theorem refl (k : Hub) : k.Accessed k.mem k := ⟨_, _, _, _, _, rfl⟩

theorem mem_eq (h : k.Accessed m l) : l.mem = m := by
  obtain ⟨_, _, _, _, _, rfl⟩ := h; rfl

theorem arr_eq (h : k.Accessed m l) : l.arr = k.arr := by
  obtain ⟨_, _, _, _, _, rfl⟩ := h; rfl

theorem trans (h : k.Accessed m l) (h' : l.Accessed m' j) : k.Accessed m' j := by
  obtain ⟨_, _, _, _, _, rfl⟩ := h
  obtain ⟨_, _, _, _, _, rfl⟩ := h'
  exact ⟨_, _, _, _, _, rfl⟩

/-- An access that leaves the memory, after any. -/
theorem then_read (h : k.Accessed m l) (h' : l.Accessed l.mem j) : k.Accessed m j := by
  rw [h.mem_eq] at h'
  exact h.trans h'

/-- An access whatever it stores. -/
theorem self (h : k.Accessed m l) : k.Accessed l.mem l := by rwa [h.mem_eq]

end Hub.Accessed

theorem Hub.accessed_bump (k : Hub) (off n : Nat) : k.Accessed k.mem (k.bump off n) := ⟨_, _, _, _, _, rfl⟩

theorem Hub.accessed_wrap (k : Hub) (off n : Nat) : k.Accessed k.mem (k.wrap off n) := ⟨_, _, _, _, _, rfl⟩

theorem Hub.accessed_store (k : Hub) (n : Nat) (data : List Byte) (poison : Bool) :
    k.Accessed (k.store n data poison).mem (k.store n data poison) := ⟨_, _, _, _, _, rfl⟩

theorem Hub.accessed_touched (k : Hub) (n : Nat) : k.Accessed k.mem (k.touched n) := ⟨_, _, _, _, _, rfl⟩

theorem Hub.accessed_sectionWrite (k : Hub) (off len : Nat) (writer : Nat × Nat × Nat) :
    k.Accessed k.mem (k.sectionWrite off len writer) := ⟨_, _, _, _, _, rfl⟩

theorem Hub.accessed_firstBad (k : Hub) (src off : Nat) : k.Accessed k.mem (k.firstBad src off) := by
  unfold Hub.firstBad
  split_ifs
  · exact .refl k
  · exact ⟨_, _, _, _, _, rfl⟩

theorem Hub.accessed_logErr (k : Hub) (dial h : Nat) (i : LogItem) : k.Accessed k.mem (k.logErr dial h i) := by
  unfold Hub.logErr
  dsimp only
  split_ifs
  · exact ⟨_, _, _, _, _, rfl⟩
  · exact k.accessed_bump _ _

theorem Hub.accessed_queueWb (k : Hub) (g : Nat) : k.Accessed k.mem (k.queueWb g) := by
  unfold Hub.queueWb
  split_ifs
  · exact .refl k
  · exact ⟨_, _, _, _, _, rfl⟩
  · exact k.accessed_bump _ _

theorem Hub.accessed_noteCorr (k : Hub) (w : HubAt) (n : Nat) : k.Accessed k.mem (k.noteCorr w n) :=
  (k.accessed_bump _ _).then_read (Hub.accessed_logErr ..)

theorem Hub.accessed_noteBad (k : Hub) (w : HubAt) (n : Nat) : k.Accessed k.mem (k.noteBad w n) :=
  ((k.accessed_firstBad _ _).then_read (Hub.accessed_logErr ..)).then_read ⟨_, _, _, _, _, rfl⟩

theorem Hub.accessed_noteRead (k : Hub) (w : HubAt) (n : Nat) (r : CwRead) : k.Accessed k.mem (k.noteRead w n r) := by
  cases r with
  | clean => exact .refl k
  | corrected => exact (k.accessed_noteCorr ..).then_read (Hub.accessed_queueWb ..)
  | bad => exact (k.accessed_noteBad ..).then_read (Hub.accessed_bump ..)

theorem Hub.accessed_cmdRead (k : Hub) (w : HubAt) (n : Nat) : k.Accessed k.mem (k.cmdRead w n).2.2 :=
  (k.accessed_noteRead ..).then_read (Hub.accessed_wrap ..)

theorem Hub.accessed_readCws (w : HubAt) : ∀ (n m : Nat) (k : Hub), k.Accessed k.mem (Hub.readCws w n m k).2
  | _, 0, k => .refl k
  | n, m + 1, k =>
    ((k.accessed_noteRead ..).then_read (Hub.accessed_wrap ..)).then_read (Hub.accessed_readCws w (n + 1) m _)

theorem Hub.accessed_writeCw (k : Hub) (w : HubAt) (n : Nat) (l : List MByte) :
    k.Accessed (k.writeCw w n l).2.mem (k.writeCw w n l).2 := by
  unfold Hub.writeCw
  dsimp only
  split_ifs
  · exact .refl k
  · exact ((k.accessed_store ..).then_read (Hub.accessed_touched ..)).self
  · split
    · exact (((k.accessed_wrap ..).trans (Hub.accessed_store ..)).then_read (Hub.accessed_touched ..)).self
    · exact ((((k.accessed_wrap ..).then_read (Hub.accessed_noteCorr ..)).trans (Hub.accessed_store ..)).then_read
        (Hub.accessed_touched ..)).self
    · exact (((((k.accessed_wrap ..).then_read (Hub.accessed_noteBad ..)).trans (Hub.accessed_store ..)).then_read
        (Hub.accessed_bump ..)).then_read (Hub.accessed_touched ..)).self

theorem Hub.accessed_writeCws (w : HubAt) : ∀ (m n : Nat) (l : List MByte) (k : Hub),
    k.Accessed (Hub.writeCws w m n l k).2.mem (Hub.writeCws w m n l k).2
  | 0, _, _, k => .refl k
  | m + 1, n, l, k => (k.accessed_writeCw ..).trans (Hub.accessed_writeCws w m (n + 1) (l.drop 32) _)

theorem Hub.accessed_writeBytes (k : Hub) (w : HubAt) (off : Nat) (l : List MByte) :
    k.Accessed (k.writeBytes w off l).2.mem (k.writeBytes w off l).2 := Hub.accessed_writeCws ..

/-! ### The memory after the operations that store nothing -/

@[simp] theorem Hub.mem_bump (k : Hub) (off n : Nat) : (k.bump off n).mem = k.mem := rfl
@[simp] theorem Hub.mem_touched (k : Hub) (n : Nat) : (k.touched n).mem = k.mem := rfl
@[simp] theorem Hub.mem_sectionWrite (k : Hub) (off len : Nat) (writer : Nat × Nat × Nat) :
    (k.sectionWrite off len writer).mem = k.mem := rfl

@[simp] theorem Hub.mem_modCmd (k : Hub) (slot : Nat) (f : HubCmd → HubCmd) : (k.modCmd slot f).mem = k.mem := by
  unfold Hub.modCmd
  split <;> rfl

@[simp] theorem Hub.mem_refuseCmd (k : Hub) (slot st : Nat) : (k.refuseCmd slot st).mem = k.mem := Hub.mem_modCmd ..

@[simp] theorem Hub.mem_gotWords (k : Hub) (slot : Nat) (bs : List Byte) : (k.gotWords slot bs).mem = k.mem := by
  unfold Hub.gotWords
  dsimp only
  split_ifs <;> simp

@[simp] theorem Hub.mem_noteCorr (k : Hub) (w : HubAt) (n : Nat) : (k.noteCorr w n).mem = k.mem := (k.accessed_noteCorr ..).mem_eq
@[simp] theorem Hub.mem_noteBad (k : Hub) (w : HubAt) (n : Nat) : (k.noteBad w n).mem = k.mem := (k.accessed_noteBad ..).mem_eq
@[simp] theorem Hub.mem_cmdRead (k : Hub) (w : HubAt) (n : Nat) : (k.cmdRead w n).2.2.mem = k.mem :=
  (k.accessed_cmdRead ..).mem_eq
@[simp] theorem Hub.mem_readCws (k : Hub) (w : HubAt) (n m : Nat) : (Hub.readCws w n m k).2.mem = k.mem :=
  (Hub.accessed_readCws ..).mem_eq

/-! ### Codewords of a stack -/

/-- A codeword as a stack delivers it has 32 data bytes. -/
theorem Hub.length_peek (k : Hub) (n : Nat) : (k.peek n).2.data.length = 32 := by
  have hlen := k.mem.length_data_read n
  unfold Hub.peek
  dsimp only
  split
  · exact hlen
  · exact hlen

theorem Hub.byte_store_other (k : Hub) {n a : Nat} (data : List Byte) (poison : Bool) (h : a / 32 ≠ n) :
    (k.store n data poison).mem.byte a = k.mem.byte a := Mem.byte_setCw_other _ _ h

theorem Hub.byte_store_inside (k : Hub) (n : Nat) {data : List Byte} (poison : Bool) (hd : data.length = 32) {i : Nat} (hi : i < 32) :
    (k.store n data poison).mem.byte (32 * n + i) = data.getD i 0 := Mem.byte_setCw_inside (hc := hd) (hi := hi) ..

/-- What a write of one codeword stores: nothing without an enabled byte, else a codeword that holds every enabled byte. -/
theorem Hub.mem_writeCw (k : Hub) (w : HubAt) (n : Nat) (l : List MByte) :
    (l.all (·.isNone) = true ∧ (k.writeCw w n l).2.mem = k.mem) ∨
      ∃ c : Codeword, (k.writeCw w n l).2.mem = k.mem.setCw n c ∧ c.data.length = 32 ∧
        ∀ i b, i < 32 → l.getD i none = some b → c.data.getD i 0 = b.1 := by
  unfold Hub.writeCw
  dsimp only
  split_ifs with hnone hall
  · exact .inl ⟨hnone, rfl⟩
  · refine .inr ⟨_, rfl, by simp [hall.2], fun i b hi hb => ?_⟩
    have hlen : i < l.length := by omega
    rw [List.getD_eq_getElem _ _ hlen] at hb
    simp [hlen, hb, MByte.byte]
  · have hlen := k.length_peek n
    have hmerge : (mergeBytes (k.peek n).2.data l).length = 32 := by rw [length_mergeBytes, hlen]
    have hbyte : ∀ i b, i < 32 → l.getD i none = some b → (mergeBytes (k.peek n).2.data l).getD i 0 = b.1 :=
      fun i b hi => getD_mergeBytes _ _ _ (by omega) b
    split
    · exact .inr ⟨_, rfl, hmerge, hbyte⟩
    · refine .inr ⟨_, congrArg (Mem.setCw · n _) (Hub.mem_noteCorr ..), hmerge, hbyte⟩
    · refine .inr ⟨_, congrArg (Mem.setCw · n _) (Hub.mem_noteBad ..), hmerge, hbyte⟩

/-- A byte outside the codewords written stays. -/
theorem Hub.byte_writeCws_outside (w : HubAt) (a : Nat) : ∀ (m n : Nat) (l : List MByte) (k : Hub), a / 32 < n ∨ n + m ≤ a / 32 →
    (Hub.writeCws w m n l k).2.mem.byte a = k.mem.byte a
  | 0, _, _, _, _ => rfl
  | m + 1, n, l, k, h => by
    refine (Hub.byte_writeCws_outside w a m (n + 1) (l.drop 32) _ (by omega)).trans ?_
    rcases k.mem_writeCw w n (l.take 32) with ⟨-, hm⟩ | ⟨c, hm, -, -⟩
    · rw [hm]
    · rw [hm, Mem.byte_setCw_other _ _ (by omega)]

/-- An enabled byte is stored. -/
theorem Hub.byte_writeCws_written (w : HubAt) (a : Nat) (b : Byte × Bool) : ∀ (m n : Nat) (l : List MByte) (k : Hub),
    32 * n ≤ a → a < 32 * (n + m) → l.getD (a - 32 * n) none = some b → (Hub.writeCws w m n l k).2.mem.byte a = b.1
  | 0, _, _, _, _, _, _ => by omega
  | m + 1, n, l, k, hlo, hhi, hb => by
    by_cases hn : a / 32 = n
    · have hin : (l.take 32).getD (a - 32 * n) none = some b := by
        rw [List.getD_eq_getElem?_getD, List.getElem?_take_of_lt (by omega), ← List.getD_eq_getElem?_getD, hb]
      refine (Hub.byte_writeCws_outside w a m (n + 1) (l.drop 32) _ (by omega)).trans ?_
      rcases k.mem_writeCw w n (l.take 32) with ⟨hnone, -⟩ | ⟨c, hm, hlen, hbyte⟩
      · rw [getD_none_of_all_isNone hnone] at hin
        cases hin
      · have hsplit : a = 32 * n + (a - 32 * n) := by omega
        rw [hm, hsplit, Mem.byte_setCw_inside _ _ hlen (by omega), hbyte _ b (by omega) hin]
    · refine Hub.byte_writeCws_written w a b m (n + 1) (l.drop 32) _ (by omega) (by omega) ?_
      rwa [getD_drop, show 32 + (a - 32 * (n + 1)) = a - 32 * n by omega]

/-- Bytes written from an offset on change no codeword but those they touch. -/
theorem Hub.byte_writeBytes_outside (k : Hub) (w : HubAt) (off : Nat) (l : List MByte) {a : Nat}
    (h : a / 32 < off / 32 ∨ (off + l.length - 1) / 32 < a / 32) : (k.writeBytes w off l).2.mem.byte a = k.mem.byte a := by
  unfold Hub.writeBytes
  dsimp only
  rw [Hub.byte_writeCws_outside]
  simp only [List.length_append, List.length_replicate, cdiv]
  omega

/-- Each enabled byte is stored at its place. -/
theorem Hub.byte_writeBytes_written (k : Hub) (w : HubAt) (off : Nat) {l : List MByte} {i : Nat} {b : Byte × Bool}
    (h : l[i]? = some (some b)) : (k.writeBytes w off l).2.mem.byte (off + i) = b.1 := by
  have hi : i < l.length := (List.getElem?_eq_some_iff.1 h).1
  unfold Hub.writeBytes
  dsimp only
  refine Hub.byte_writeCws_written w _ b _ _ _ k (by omega) ?_ ?_
  · simp only [List.length_append, List.length_replicate, cdiv]
    omega
  · have hplace : off + i - 32 * (off / 32) = off % 32 + i := by omega
    rw [hplace, List.getD_eq_getElem?_getD, List.getElem?_append_left (by simpa using by omega),
      List.getElem?_append_right (by simp), List.length_replicate, Nat.add_sub_cancel_left, h]
    rfl

end Sys2Proof.Machine
end

section
/-! PROOFS. What a hub's work leaves as it was (R292, R298–R302, R305, R307): which bytes of its own stack the work of a command
stores, what the care of a stack and the ring change, and what a request of a hub can change. -/

namespace Sys2Proof.Machine

/-! ### Codewords that the work of a command stores (R299, R301, R302) -/

theorem Hub.copyCws_succ (w : HubAt) (src dst m : Nat) (c : HubCmd) (k : Hub) :
    Hub.copyCws w src dst (m + 1) c k = Hub.copyCws w (src + 1) (dst + 1) m (c.sawRead (k.peek src).1)
      (((k.cmdRead w src).2.2.store dst (k.peek src).2.data ((k.peek src).1 == .bad)).touched dst) := rfl

theorem Hub.byte_copyCws_outside (w : HubAt) (a : Nat) : ∀ (m src dst : Nat) (c : HubCmd) (k : Hub),
    a / 32 < dst ∨ dst + m ≤ a / 32 → (Hub.copyCws w src dst m c k).2.mem.byte a = k.mem.byte a
  | 0, _, _, _, _, _ => rfl
  | m + 1, src, dst, c, k, h => by
    rw [Hub.copyCws_succ, Hub.byte_copyCws_outside w a m (src + 1) (dst + 1) _ _ (by omega), Hub.mem_touched,
      Hub.byte_store_other _ _ _ (by omega), Hub.mem_cmdRead]

theorem Hub.byte_zeroCws_outside (a : Nat) : ∀ (m n : Nat) (k : Hub), a / 32 < n ∨ n + m ≤ a / 32 →
    (Hub.zeroCws n m k).mem.byte a = k.mem.byte a
  | 0, _, _, _ => rfl
  | m + 1, n, k, h => by
    rw [Hub.zeroCws, Hub.byte_zeroCws_outside a m (n + 1) _ (by omega), Hub.mem_touched, Hub.byte_store_other _ _ _ (by omega)]

theorem Hub.mem_digestCws (w : HubAt) : ∀ (m n : Nat) (c : HubCmd) (k : Hub), (Hub.digestCws w n m c k).2.2.mem = k.mem
  | 0, _, _, _ => rfl
  | m + 1, n, c, k => by
    have hread := k.mem_cmdRead w n
    rw [Hub.digestCws]
    dsimp only
    split_ifs
    · exact hread
    · exact (Hub.mem_digestCws w m (n + 1) _ _).trans hread

theorem Hub.scrubCws_succ (w : HubAt) (n m : Nat) (c : HubCmd) (k : Hub) :
    Hub.scrubCws w n (m + 1) c k = Hub.scrubCws w (n + 1) m (c.sawRead (k.peek n).1)
      (if (k.peek n).1 = .corrected then (k.cmdRead w n).2.2.store n (k.peek n).2.data false else (k.cmdRead w n).2.2) := rfl

theorem Hub.byte_scrubCws_outside (w : HubAt) (a : Nat) : ∀ (m n : Nat) (c : HubCmd) (k : Hub), a / 32 < n ∨ n + m ≤ a / 32 →
    (Hub.scrubCws w n m c k).2.mem.byte a = k.mem.byte a
  | 0, _, _, _, _ => rfl
  | m + 1, n, c, k, h => by
    rw [Hub.scrubCws_succ, Hub.byte_scrubCws_outside w a m (n + 1) _ _ (by omega)]
    split_ifs
    · rw [Hub.byte_store_other _ _ _ (by omega), Hub.mem_cmdRead]
    · rw [Hub.mem_cmdRead]

theorem Hub.byte_rewrite_outside (a : Nat) : ∀ (m n : Nat) (k : Hub), a / 32 < n ∨ n + m ≤ a / 32 →
    (Hub.rewrite n m k).mem.byte a = k.mem.byte a
  | 0, _, _, _ => rfl
  | m + 1, n, k, h => by
    rw [Hub.rewrite, Hub.byte_rewrite_outside a m (n + 1) _ (by omega)]
    split_ifs
    · exact Hub.byte_store_other _ _ _ (by omega)
    · rfl

/-! ### Panels on which hub `h` has worked -/

/-- A view that shows nothing of the hubs. -/
def HubBlind {β : Type} (part : Panel → β) : Prop := ∀ p n k, part (Panel.setHub p n k) = part p

/-- From one panel to another `part` shows the same, and of the stacks' memories no byte changes but bytes of hub `h` that need not
stay. -/
structure Panel.Spares {β : Type} (part : Panel → β) (h : Nat) (stays : Nat → Prop) (p q : Panel) : Prop where
  part_eq : part q = part p
  others : ∀ m, m ≠ h → (q.hub m).mem = (p.hub m).mem
  bytes : ∀ a, stays a → (q.hub h).mem.byte a = (p.hub h).mem.byte a

namespace Panel.Spares

variable {β : Type} {part : Panel → β} {h : Nat} {stays : Nat → Prop} {p q r : Panel}

theorem refl (p : Panel) : p.Spares part h stays p := ⟨rfl, fun _ _ => rfl, fun _ _ => rfl⟩

theorem trans (hq : p.Spares part h stays q) (hr : q.Spares part h stays r) : p.Spares part h stays r :=
  ⟨hr.part_eq.trans hq.part_eq, fun m hm => (hr.others m hm).trans (hq.others m hm),
    fun a ha => (hr.bytes a ha).trans (hq.bytes a ha)⟩

/-- A change of the hub's own memory. -/
theorem setHub (hb : HubBlind part) (hq : p.Spares part h stays q) {k : Hub}
    (hk : ∀ a, stays a → k.mem.byte a = (q.hub h).mem.byte a) : p.Spares part h stays (q.setHub h k) :=
  hq.trans ⟨hb .., fun m hm => by rw [q.hub_setHub_other k hm], fun a ha => by rw [q.hub_setHub, hk a ha]⟩

/-- A change of a hub that leaves its memory. -/
theorem setHub_mem (hb : HubBlind part) (hq : p.Spares part h stays q) {n : Nat} {k : Hub} (hk : k.mem = (q.hub n).mem) :
    p.Spares part h stays (q.setHub n k) := by
  have hmem : ∀ m, ((q.setHub n k).hub m).mem = (q.hub m).mem := fun m => by
    by_cases hm : m = n
    · rw [hm, q.hub_setHub, hk]
    · rw [q.hub_setHub_other k hm]
  exact hq.trans ⟨hb .., fun m _ => hmem m, fun a _ => by rw [hmem]⟩

theorem modHub (hb : HubBlind part) (hq : p.Spares part h stays q) {n : Nat} {f : Hub → Hub} (hf : ∀ k, (f k).mem = k.mem) :
    p.Spares part h stays (q.modHub n f) := hq.setHub_mem hb (hf _)

theorem onPanel {s t : State} {f : Panel → Panel} (hf : s.panel.Spares part h stays (f s.panel)) (hx : s.onPanel f = .next t) :
    s.panel.Spares part h stays t.panel := by
  cases hl : s.panel.live with
  | true => rw [onPanel_live hl] at hx; cases hx; exact hf
  | false => rw [onPanel_dead hl] at hx; cases hx; exact refl _

end Panel.Spares

/-! ### Care and the ring (R292, R298, R299, R305, R307) -/

/-- All but the hubs. -/
def Panel.sansHubs (p : Panel) : Panel := { p with hubs := [] }

theorem sansHubs_blind : HubBlind Panel.sansHubs := fun _ _ _ => rfl

theorem frame_of_sansHubs {p q : Panel} (h : q.sansHubs = p.sansHubs) : { q with hubs := p.hubs } = p :=
  congrArg (fun r : Panel => { r with hubs := p.hubs }) h

theorem Hub.mem_patrolStep (k : Hub) (dial h : Nat) : (k.patrolStep dial h).mem = k.mem := by
  have hread := k.mem_readCws { dial := dial, hub := h, src := 3 } (8 * k.patrol) 8
  unfold Hub.patrolStep
  generalize Hub.readCws _ (8 * k.patrol) 8 k = x at hread ⊢
  dsimp only
  split_ifs
  · rfl
  · exact hread
  · exact hread

theorem Hub.mem_tempRead (k : Hub) (dial celsius : Nat) : (k.tempRead dial celsius).mem = k.mem := by
  unfold Hub.tempRead
  dsimp only
  split_ifs <;> rfl

section
variable {s t : State} {h : HubIx}

theorem hubWriteBack_spares (hx : execHubWriteBack h s = .next t) :
    s.panel.Spares Panel.sansHubs h (fun a => (s.panel.hub h).wbq.head? ≠ some (a / 256)) t.panel := by
  refine .onPanel ?_ hx
  dsimp only
  split
  · exact .refl _
  next g rest hq =>
    split_ifs
    · exact .refl _
    · refine Panel.Spares.setHub sansHubs_blind (.refl _) fun a ha => ?_
      have hg : g ≠ a / 256 := fun hg => ha (by rw [hq, List.head?_cons, hg])
      exact Hub.byte_rewrite_outside _ _ _ _ (by omega)

/-- A panel that is the old one, or the old one with a hub changed whose memory is kept. -/
def Panel.TendsHub (p : Panel) (h : Nat) (q : Panel) : Prop := q = p ∨ ∃ k, q = p.setHub h k ∧ k.mem = (p.hub h).mem

theorem onPanel_tendsHub {n : Nat} {f : Panel → Panel} (hf : s.panel.TendsHub n (f s.panel)) (hx : s.onPanel f = .next t) :
    s.panel.TendsHub n t.panel := by
  cases hl : s.panel.live with
  | true => rw [onPanel_live hl] at hx; cases hx; exact hf
  | false => rw [onPanel_dead hl] at hx; cases hx; exact .inl rfl

theorem hubPatrol_tends (hx : execHubPatrol h s = .next t) : s.panel.TendsHub h t.panel :=
  onPanel_tendsHub (.inr ⟨_, rfl, Hub.mem_patrolStep ..⟩) hx

theorem hubTempRead_tends {celsius : Nat} (hx : execHubTempRead h celsius s = .next t) : s.panel.TendsHub h t.panel := by
  refine onPanel_tendsHub (.inr ⟨_, rfl, ?_⟩) hx
  dsimp only
  split_ifs
  · rfl
  · exact Hub.mem_tempRead ..

theorem hbmRefresh_tends {pc : Fin 64} (hx : execHbmRefresh h pc s = .next t) : s.panel.TendsHub h t.panel :=
  onPanel_tendsHub (.inl rfl) hx

theorem hubHeartbeat_tends (hx : execHubHeartbeat h s = .next t) : s.panel.TendsHub h t.panel := by
  refine onPanel_tendsHub ?_ hx
  dsimp only
  split_ifs
  · exact .inr ⟨_, rfl, rfl⟩
  · exact .inl rfl

theorem Panel.TendsHub.mem {p q : Panel} {n : Nat} (hq : p.TendsHub n q) : (q.hub n).mem = (p.hub n).mem := by
  obtain rfl | ⟨k, rfl, hk⟩ := hq
  · rfl
  · rw [Panel.hub_setHub, hk]

theorem Panel.TendsHub.spares {p q : Panel} {n : Nat} (hq : p.TendsHub n q) :
    p.Spares Panel.sansHubs n (fun _ => True) q := by
  obtain rfl | ⟨k, rfl, hk⟩ := hq
  · exact .refl _
  · exact .setHub_mem sansHubs_blind (.refl p) hk

/-- An item sent on is a change of the next hub's ring. -/
theorem Panel.ringSend_some {p q : Panel} {n : Nat} {clockwise : Bool} {x : RingItem} (h : p.ringSend n clockwise x = some q) :
    ∃ m k, q = p.setHub m k ∧ k.mem = (p.hub m).mem := by
  unfold Panel.ringSend at h
  dsimp only at h
  generalize (if clockwise then (n + 1) % 24 else (n + 23) % 24) = m at h
  split_ifs at h
  cases h
  exact ⟨_, _, rfl, rfl⟩

section
variable {stays : Nat → Prop} {n m : Nat} {p q r : Panel} {clockwise : Bool} {x : RingItem}
  (hq : p.Spares Panel.sansHubs n stays q)
include hq

theorem Panel.Spares.ringSend (hr : q.ringSend m clockwise x = some r) : p.Spares Panel.sansHubs n stays r := by
  obtain ⟨_, _, rfl, hk⟩ := Panel.ringSend_some hr
  exact hq.setHub_mem sansHubs_blind hk

/-- An item sent on, or the panel kept where the next hub does not take it. -/
theorem Panel.Spares.ringSend_getD : p.Spares Panel.sansHubs n stays ((q.ringSend m clockwise x).getD p) := by
  cases hr : q.ringSend m clockwise x with
  | none => exact .refl p
  | some r => exact hq.ringSend hr

end

theorem Panel.ringOwn_spares (p : Panel) (n : Nat) (clockwise : Bool) (stays : Nat → Prop) :
    p.Spares Panel.sansHubs n stays (p.ringOwn n clockwise) := by
  unfold Panel.ringOwn
  dsimp only
  split
  · exact .refl p
  · split
    · refine Panel.Spares.ringSend_getD (.setHub_mem sansHubs_blind (.refl p) ?_)
      exact Hub.mem_cmdRead ..
    · exact .setHub_mem sansHubs_blind (.refl p) rfl

/-- The bytes that the oldest item of a direction does not store here. -/
def Hub.ringStays (k : Hub) (n : Nat) (clockwise : Bool) (a : Nat) : Prop :=
  ∀ x, (k.ringIn clockwise).head? = some x → x.ack ∨ x.dst ≠ n ∨ a / 32 ≠ x.index

theorem Panel.ringTake_spares (p : Panel) (n : Nat) (clockwise : Bool) :
    p.Spares Panel.sansHubs n ((p.hub n).ringStays n clockwise) (p.ringTake n clockwise) := by
  unfold Panel.ringTake
  dsimp only
  split
  · exact .refl p
  next x rest hring =>
    have htaken : p.Spares Panel.sansHubs n ((p.hub n).ringStays n clockwise)
        (p.setHub n ((p.hub n).setRing clockwise rest)) := .setHub_mem sansHubs_blind (.refl p) rfl
    split_ifs with hdst hack hlast
    · exact htaken.ringSend_getD
    · exact htaken.modHub sansHubs_blind fun k => Hub.mem_modCmd ..
    all_goals
      have hstored : ∀ {q : Panel}, p.Spares Panel.sansHubs n ((p.hub n).ringStays n clockwise) q →
          p.Spares Panel.sansHubs n ((p.hub n).ringStays n clockwise) (q.modHub n fun k =>
            ((k.store x.index x.cw.data x.cw.poison).touched x.index).sectionWrite (32 * x.index) 32 (hubWriter x.src)) :=
        fun hq => hq.setHub sansHubs_blind fun a ha => by
          rcases ha x (by rw [hring]; rfl) with hx | hx | hx
          · exact absurd hx hack
          · exact absurd (not_not.1 hdst) hx
          · exact Hub.byte_store_other _ _ _ hx
    · split
      · exact .refl p
      next q hq => exact hstored (htaken.ringSend hq)
    · exact hstored htaken

theorem hubRingCodeword_spares {clockwise own : Bool} (hx : execHubRingCodeword h clockwise own s = .next t) :
    s.panel.Spares Panel.sansHubs h (fun a => own = false → (s.panel.hub h).ringStays h clockwise a) t.panel := by
  refine .onPanel ?_ hx
  split_ifs with hlost hown
  · exact .refl _
  · exact Panel.ringOwn_spares ..
  · obtain ⟨hpart, hothers, hbytes⟩ := s.panel.ringTake_spares h clockwise
    exact ⟨hpart, hothers, fun a ha => hbytes a (ha (Bool.eq_false_iff.2 hown))⟩

end

/-! ### What a request of a hub can change (R51, R184, R193) -/

/-- A core of which nothing changes but registers and router. -/
def Core.Routed (k l : Core) : Prop := ∃ regs rt, l = { k with regs := regs, rt := rt }

theorem Core.Routed.bump {k l : Core} (h : k.Routed l) (off m : Nat) : k.Routed (l.bump off m) := by
  obtain ⟨_, _, rfl⟩ := h
  exact ⟨_, _, rfl⟩

theorem Core.Routed.pushIn {k l : Core} (h : k.Routed l) (input v : Nat) (x : Packet) : k.Routed (l.pushIn input v x) := by
  obtain ⟨_, _, rfl⟩ := h
  unfold Core.pushIn Core.throttle
  dsimp only
  split_ifs <;> exact ⟨_, _, rfl⟩

/-- What an injection does: nothing, a count of an address error, or a change of the registers and the router of its site. -/
theorem Panel.inject_cases (p : Panel) (i : Issuer) (h : Header) (units : List Codeword) :
    (p.inject i h units).2 = p ∨ (p.inject i h units).2 = i.addrErr p ∨
      ∃ f : Core → Core, (p.inject i h units).2 = p.modCore i.place.1 f ∧ ∀ k : Core, k.Routed (f k) := by
  have hself : ∀ k : Core, k.Routed k := fun _ => ⟨_, _, rfl⟩
  unfold Panel.inject
  generalize i.place = place
  obtain ⟨n, input, sedge⟩ := place
  dsimp only
  generalize (if sedge = 0 then (p.core n).part else h.part) = part
  split
  · exact .inl rfl
  split
  · split
    · exact .inr (.inl rfl)
    split
    · exact .inr (.inr ⟨_, rfl, fun k => (hself k).bump ..⟩)
    split
    · exact .inr (.inr ⟨_, rfl, fun k => (hself k).bump ..⟩)
    split
    · exact .inl rfl
    · dsimp only
      split
      · exact .inr (.inr ⟨_, rfl, fun k => (hself k).pushIn ..⟩)
      · exact .inr (.inr ⟨_, rfl, fun k => ((hself k).bump ..).pushIn ..⟩)
  · split
    · exact .inr (.inl rfl)
    split
    · exact .inr (.inr ⟨_, rfl, fun k => (hself k).bump ..⟩)
    split
    · exact .inr (.inl rfl)
    split
    · exact .inl rfl
    · exact .inr (.inr ⟨_, rfl, fun k => (hself k).bump ..⟩)
    · split
      · exact .inr (.inr ⟨_, rfl, fun k => (hself k).pushIn ..⟩)
      · exact .inl rfl

/-- What a core works with: its sequencer, scratchpad, engines and transfers. -/
def Core.work (k : Core) := (k.spad, k.seq, k.me, k.ve, k.ru, k.dma)

/-- What the commands of a hub leave besides memories: the crowns, the sites and the work of every core. -/
def Panel.bystanders (p : Panel) := (p.crowns, p.sites, fun n => (p.core n).work)

theorem bystanders_blind : HubBlind Panel.bystanders := fun _ _ _ => rfl

theorem Panel.bystanders_modCore (p : Panel) (n : Nat) {f : Core → Core} (hf : ∀ k, (f k).work = k.work) :
    (p.modCore n f).bystanders = p.bystanders := by
  have hwork : ∀ m, ((p.modCore n f).core m).work = (p.core m).work := fun m => by
    by_cases hm : m = n
    · rw [hm, Panel.core_modCore, hf]
    · rw [Panel.core_modCore_other _ _ hm]
  unfold Panel.bystanders
  simp only [hwork, Panel.modCore_crowns, Panel.modCore_sites]

section
variable {h : Nat} {stays : Nat → Prop} {p q : Panel} (hq : p.Spares Panel.bystanders h stays q)
include hq

theorem Panel.Spares.inject (att : Nat) (hd : Header) (units : List Codeword) :
    p.Spares Panel.bystanders h stays (q.inject (.hub h att) hd units).2 := by
  obtain hx | hx | ⟨f, hx, hf⟩ := q.inject_cases (.hub h att) hd units
  · rw [hx]; exact hq
  · rw [hx]; exact hq.modHub bystanders_blind fun k => k.mem_bump ..
  · rw [hx]
    refine hq.trans ⟨Panel.bystanders_modCore _ _ fun k => ?_, fun _ _ => rfl, fun _ _ => rfl⟩
    obtain ⟨_, _, hk⟩ := hf k
    rw [hk]
    rfl

theorem Panel.Spares.hubSend {slot use part : Nat} {hd : Header} {units : List Codeword} {st : Option Nat} {r : Panel}
    (hr : q.hubSend h slot use part hd units = some (st, r)) : p.Spares Panel.bystanders h stays r := by
  have hinj := hq.inject (q.hubSide h hd.ga) { hd with seq := (q.hub h).freshSeq, part := part } units
  unfold Panel.hubSend at hr
  dsimp only at hr
  split at hr
  · cases hr
  next heq => cases hr; rw [heq] at hinj; exact hinj
  next heq => cases hr; rw [heq] at hinj; exact hinj.modHub bystanders_blind fun _ => rfl

end

end Sys2Proof.Machine
end

section
/-! PROOFS. The commands of a hub, from the reading of their words to word 7 (R299–R304): none of them touches crowns, sites or the work
of a core, and of its stack each stores only the range that it checked; with the care of a hub and the ring, the obligation O47. -/

namespace Sys2Proof.Machine

section
variable {h : Nat} {stays : Nat → Prop} {p q : Panel}

/-! ### Reading and taking commands (R300) -/

theorem Panel.Spares.sendCmdRead (hq : p.Spares Panel.bystanders h stays q) {slot : Nat} {c : HubCmd} {failed : Panel → Panel}
    (hfailed : ∀ r, p.Spares Panel.bystanders h stays r → p.Spares Panel.bystanders h stays (failed r)) :
    p.Spares Panel.bystanders h stays (q.sendCmdRead h slot c failed) := by
  unfold Panel.sendCmdRead
  split
  · exact hq
  next hsend => exact hfailed _ (hq.hubSend hsend)
  next hsend => exact (hq.hubSend hsend).modHub bystanders_blind fun k => k.mem_modCmd ..

theorem Panel.Spares.readCmd (hq : p.Spares Panel.bystanders h stays q) (slot : Nat) (c : HubCmd) :
    p.Spares Panel.bystanders h stays (q.readCmd h slot c) := by
  have hfailed : ∀ r, p.Spares Panel.bystanders h stays r → p.Spares Panel.bystanders h stays
      (r.modHub h fun k => (k.freeCmd slot).bump Reg.HUB_CMD_ERR_CNT) := fun r hr => hr.modHub bystanders_blind fun _ => rfl
  unfold Panel.readCmd
  dsimp only
  split
  · exact hfailed _ hq
  split
  · exact hfailed _ (hq.modHub bystanders_blind fun _ => rfl)
  · split
    · split
      · exact hfailed _ (hq.modHub bystanders_blind fun _ => rfl)
      · have hread := fun n => (q.hub h).mem_readCws { dial := q.dial, hub := h, src := 2, part := 0x80 + c.part } n 2
        split
        · exact hfailed _ (hq.setHub_mem bystanders_blind (hread _))
        · exact hq.setHub_mem bystanders_blind ((Hub.mem_gotWords ..).trans (hread _))
    · exact hq.sendCmdRead hfailed
  · exact hq.sendCmdRead hfailed

theorem Panel.Spares.hubTake : ∀ (n : Nat) {q : Panel}, p.Spares Panel.bystanders h stays q →
    p.Spares Panel.bystanders h stays (Panel.hubTake h n q)
  | 0, _, hq => hq
  | n + 1, _, hq => by
    rw [Panel.hubTake]
    dsimp only
    split
    · refine Panel.Spares.hubTake n (Panel.Spares.readCmd (hq.setHub_mem bystanders_blind ?_) ..)
      rfl
    · exact hq

theorem Panel.Spares.hubRetry (hq : p.Spares Panel.bystanders h stays q) : p.Spares Panel.bystanders h stays (q.hubRetry h) :=
  List.foldlRecOn (motive := p.Spares Panel.bystanders h stays) _ _ hq fun _ hr x _ => hr.readCmd x.1 x.2

/-- With the words of every command sent for, nothing is tried again. -/
theorem Panel.hubRetry_of_sent (hsent : ∀ x ∈ (p.hub h).run, x.2.sent = true) : p.hubRetry h = p := by
  have hnone : ((p.hub h).run.filter fun x => !x.2.sent && x.2.words.isEmpty) = [] :=
    List.filter_eq_nil_iff.2 fun x hx => by simp [hsent x hx]
  rw [Panel.hubRetry, hnone, List.foldl_nil]

/-! ### Work (R299, R301, R302, R306) -/

/-- A byte that the next command of a hub does not store, should the command pass its checks. -/
def Panel.startSpares (p : Panel) (h a : Nat) : Prop :=
  ∀ place k r, (p.hub h).nextCmd = some (place, k) → p.cmdCheck h k = .ok r →
    (∀ q, r.dst = some (h, q) → Frame.outside [(q, if k.op = Hc.digest then 32 else k.length)] a) ∧
    (∀ o, k.op = Hc.scrub → r.src = some (h, o) → a / 256 < o / 256 ∨ (o + k.length - 1) / 256 < a / 256)

theorem outside_range {q n a : Nat} (h : Frame.outside [(q, n)] a) : n = 0 ∨ a / 32 < q / 32 ∨ (q + n - 1) / 32 < a / 32 :=
  h (q, n) (List.mem_singleton_self _)

/-- A command that passes its checks has the shape of R302, and works in the hub's own stack. -/
theorem Panel.cmdCheck_ok {c : HubCmd} {r : Ranges} (hr : p.cmdCheck h c = .ok r) :
    c.shapeOk = true ∧ (if c.op = Hc.zero then r.dst else r.src).map (·.1) = some h := by
  unfold Panel.cmdCheck at hr
  dsimp only at hr
  split at hr
  · cases hr
  next hshape =>
  generalize (if c.op = Hc.zero then _ else _ : Except CmdRefusal (Option (Nat × Nat))) = src at hr
  generalize (if c.op = Hc.scrub then _ else _ : Except CmdRefusal (Option (Nat × Nat))) = dst at hr
  split at hr
  · cases hr
  · cases hr
  · split_ifs at hr with hzero hhere hhere
    · cases hr
      exact ⟨not_not.1 hshape, by rw [if_pos hzero]; exact not_not.1 (not_or.1 hhere).1⟩
    · cases hr
      exact ⟨not_not.1 hshape, by rw [if_neg hzero]; exact not_not.1 (not_or.1 hhere).1⟩

theorem Panel.Spares.cmdWrite (hq : p.Spares Panel.bystanders h stays q) {slot off len : Nat} {c : HubCmd}
    {f : Hub → HubCmd × Hub} (hf : ∀ a, stays a → (f (q.hub h)).2.mem.byte a = (q.hub h).mem.byte a) :
    p.Spares Panel.bystanders h stays (q.cmdWrite h slot off len c f) := by
  unfold Panel.cmdWrite
  dsimp only
  split_ifs
  · exact hq.setHub_mem bystanders_blind rfl
  · exact hq.setHub bystanders_blind hf

/-- A command started: what its work keeps where it passes its checks, the start keeps. -/
theorem Panel.hubStart_spares {op : Nat} {f : Nat → HubCmd → Ranges → Panel → Panel}
    (hf : ∀ slot c r, p.Spares Panel.bystanders h stays (p.hubRetry h) → ((p.hubRetry h).hub h).nextCmd = some (slot, c) →
      c.op = op → (p.hubRetry h).cmdCheck h c = .ok r →
      p.Spares Panel.bystanders h stays (f slot { c with started := true } r (p.hubRetry h))) :
    p.Spares Panel.bystanders h stays (p.hubStart h op f) := by
  have hretry : p.Spares Panel.bystanders h stays (p.hubRetry h) := (Panel.Spares.refl p).hubRetry
  unfold Panel.hubStart
  dsimp only
  split
  · exact hretry
  split
  · exact hretry
  next slot c hnext =>
  split
  · exact hretry
  next hop =>
  split
  · refine hretry.modHub bystanders_blind fun k => (Hub.mem_refuseCmd ..).trans ?_
    exact List.foldlRecOn (motive := fun l : Hub => l.mem = k.mem) _ _ rfl fun _ hl _ _ => hl
  next r hr => exact hf slot c r hretry hnext (not_not.1 hop) hr

theorem Hub.mem_foldl_reads {k : Hub} {f : List Codeword × HubCmd × Hub → Nat → List Codeword × HubCmd × Hub}
    (hf : ∀ acc i, (f acc i).2.2.mem = acc.2.2.mem) {l : List Nat} {y : List Codeword × HubCmd × Hub} (hy : y.2.2.mem = k.mem) :
    (l.foldl f y).2.2.mem = k.mem :=
  List.foldlRecOn (motive := fun acc : List Codeword × HubCmd × Hub => acc.2.2.mem = k.mem) _ _ hy
    fun acc hacc i _ => (hf acc i).trans hacc

theorem Panel.Spares.detour : ∀ (n : Nat) {q : Panel}, p.Spares Panel.bystanders h stays q →
    p.Spares Panel.bystanders h stays (Panel.detour h n q)
  | 0, _, hq => hq
  | n + 1, q, hq => by
    rw [Panel.detour]
    dsimp only
    split
    · exact hq
    split
    · exact hq.setHub_mem bystanders_blind rfl
    split
    · exact hq
    next hsend =>
      refine .modHub bystanders_blind (.hubSend (.setHub_mem bystanders_blind hq ?_) hsend) fun _ => rfl
      exact Hub.mem_foldl_reads (fun acc i => Hub.mem_cmdRead ..) rfl
    next hsend =>
      refine Panel.Spares.detour n (.modHub bystanders_blind (.hubSend (.setHub_mem bystanders_blind hq ?_) hsend) fun _ => rfl)
      exact Hub.mem_foldl_reads (fun acc i => Hub.mem_cmdRead ..) rfl

variable {s t : State} {hub : HubIx}

theorem hubCopy_spares (hx : execHubCopy hub s = .next t) :
    s.panel.Spares Panel.bystanders hub ((s.panel.hubRetry hub).startSpares hub) t.panel := by
  refine .onPanel ?_ hx
  refine .detour 256 (Panel.hubStart_spares fun slot c r hretry hnext hop hr => ?_)
  unfold Panel.startCopy
  split
  next o b q hsrc hdst =>
    split
    next hb =>
      refine hretry.cmdWrite fun a ha => Hub.byte_copyCws_outside _ _ _ _ _ _ _ ?_
      have hout := outside_range ((ha slot c r hnext hr).1 q (by rw [hdst, hb]))
      rw [if_neg (by rw [hop]; decide)] at hout
      change a / 32 < q / 32 ∨ q / 32 + c.length / 32 ≤ a / 32
      omega
    · refine hretry.modHub bystanders_blind fun k => ?_
      dsimp only
      split_ifs <;> rfl
  · exact hretry

theorem hubZero_spares (hx : execHubZero hub s = .next t) :
    s.panel.Spares Panel.bystanders hub ((s.panel.hubRetry hub).startSpares hub) t.panel := by
  refine .onPanel (Panel.hubStart_spares fun slot c r hretry hnext hop hr => ?_) hx
  obtain ⟨-, hown⟩ := Panel.cmdCheck_ok hr
  rw [if_pos hop] at hown
  split
  next b q hdst =>
    refine hretry.cmdWrite fun a ha => Hub.byte_zeroCws_outside _ _ _ _ ?_
    have hb : b = hub := by rw [hdst] at hown; exact Option.some.inj hown
    have hout := outside_range ((ha slot c r hnext hr).1 q (by rw [hdst, hb]))
    rw [if_neg (by rw [hop]; decide)] at hout
    change a / 32 < q / 32 ∨ q / 32 + c.length / 32 ≤ a / 32
    omega
  · exact hretry

theorem Panel.Spares.digestOut (hq : p.Spares Panel.bystanders h stays q) {slot : Nat} {c : HubCmd} {d : List Byte} {k : Hub}
    (hk : k.mem = (q.hub h).mem) : p.Spares Panel.bystanders h stays (execHubDigest.digestOut q h slot c d k) := by
  have hset := hq.setHub_mem bystanders_blind hk
  unfold execHubDigest.digestOut
  split
  · exact hq
  next hsend => exact (hset.hubSend hsend).modHub bystanders_blind fun _ => rfl
  next hsend => exact (hset.hubSend hsend).modHub bystanders_blind fun _ => rfl

theorem length_sm3 (bs : List Byte) : (sm3 bs).length = 32 := rfl

theorem hubDigest_spares (hx : execHubDigest hub s = .next t) :
    s.panel.Spares Panel.bystanders hub ((s.panel.hubRetry hub).startSpares hub) t.panel := by
  refine .onPanel ?_ hx
  split
  · exact .refl _
  refine Panel.hubStart_spares fun slot c r hretry hnext hop hr => ?_
  dsimp only
  split
  · exact hretry
  next o hsrc =>
  have hread := Hub.mem_digestCws (HubCmd.at { c with started := true } (s.panel.hubRetry hub) hub)
    (HubCmd.length { c with started := true } / 32) (o / 32) { c with started := true } ((s.panel.hubRetry hub).hub hub)
  split
  · exact hretry.setHub_mem bystanders_blind hread
  split
  next b q hdst =>
    split
    next hb =>
      refine (hretry.setHub_mem bystanders_blind hread).cmdWrite fun a ha => Hub.byte_writeBytes_outside _ _ _ _ ?_
      have hout := outside_range ((ha slot c r hnext hr).1 q (by rw [hdst, hb]))
      rw [if_pos hop] at hout
      rw [enabled, List.length_map, length_sm3]
      omega
    · exact hretry.digestOut hread
  · exact hretry.digestOut hread

theorem hubScrub_spares (hx : execHubScrub hub s = .next t) :
    s.panel.Spares Panel.bystanders hub ((s.panel.hubRetry hub).startSpares hub) t.panel := by
  refine .onPanel (Panel.hubStart_spares fun slot c r hretry hnext hop hr => ?_) hx
  obtain ⟨hshape, hown⟩ := Panel.cmdCheck_ok hr
  rw [if_neg (by rw [hop]; decide)] at hown
  dsimp only
  split
  · exact hretry
  next b o hsrc =>
    refine hretry.setHub bystanders_blind fun a ha => Hub.byte_scrubCws_outside _ _ _ _ _ _ ?_
    have hb : b = hub := by rw [hsrc] at hown; exact Option.some.inj hown
    have hout := (ha slot c r hnext hr).2 o hop (by rw [hsrc, hb])
    have hlen : 32 ≤ c.length := by
      simp only [HubCmd.shapeOk, Bool.and_eq_true, decide_eq_true_eq] at hshape
      omega
    change a / 32 < 8 * (o / 256) ∨ 8 * (o / 256) + 8 * ((o + c.length - 1) / 256 - o / 256 + 1) ≤ a / 32
    omega

/-! ### Completion (R301, R303) -/

/-- A byte in which the command of a place has no word 7. -/
def Panel.word7Spares (p : Panel) (h slot a : Nat) : Prop :=
  ∀ k o, find (p.hub h).run slot = some k → p.decodeGA (k.ptr + 56) = .ok (.hbm h o) → Frame.outside [(o, 8)] a

theorem Panel.Spares.notify (hq : p.Spares Panel.bystanders h stays q) {slot : Nat} {c : HubCmd} {r : Panel}
    (hr : q.notify h slot c = some r) : p.Spares Panel.bystanders h stays r := by
  unfold Panel.notify at hr
  split at hr
  · cases hr; exact hq
  · obtain ⟨x, hsend, rfl⟩ := Option.map_eq_some_iff.1 hr
    exact hq.hubSend hsend

theorem Panel.writeWord7_spares (slot : Nat) {c : HubCmd}
    (hc : ∀ a o, stays a → p.decodeGA (c.ptr + 56) = .ok (.hbm h o) → Frame.outside [(o, 8)] a) :
    p.Spares Panel.bystanders h stays (p.writeWord7 h slot c) := by
  have hmark : ∀ {q : Panel} (v : Nat), p.Spares Panel.bystanders h stays q →
      p.Spares Panel.bystanders h stays (q.modHub h fun k => k.setCmd slot { c with word7 := v }) :=
    fun v hq => hq.modHub bystanders_blind fun _ => rfl
  have haway : p.Spares Panel.bystanders h stays
      (match p.hubSend h slot 2 c.part { opcode := Opc.write, ga := c.ptr + 56, bytes := 8, len := 1 }
          (unitsOf (c.ptr + 56) (leBytes 8 c.word7v)) with
        | none => p
        | some (some _, p) => p.modHub h fun k => k.setCmd slot { c with word7 := 2 }
        | some (none, p) => p.modHub h fun k => k.setCmd slot { c with word7 := 1 }) := by
    split
    · exact .refl p
    next hsend => exact hmark 2 ((Panel.Spares.refl p).hubSend hsend)
    next hsend => exact hmark 1 ((Panel.Spares.refl p).hubSend hsend)
  unfold Panel.writeWord7
  dsimp only
  split
  next b o hga =>
    split
    · exact haway
    next hb =>
    rw [not_not] at hb
    subst hb
    split
    · exact hmark 2 ((Panel.Spares.refl p).modHub bystanders_blind fun _ => rfl)
    · refine hmark 2 ((Panel.Spares.refl p).setHub bystanders_blind fun a ha => Hub.byte_writeBytes_outside _ _ _ _ ?_)
      have hout := outside_range (hc a o ha hga)
      rw [enabled, List.length_map, length_leBytes]
      omega
  · exact haway

theorem HubCmd.ptr_finish (c : HubCmd) (st : Nat) : (c.finish st).ptr = c.ptr := by
  unfold HubCmd.finish HubCmd.note
  dsimp only
  split_ifs <;> rfl

theorem hubCmdComplete_spares {slot : Fin 4} (hx : execHubCmdComplete hub slot s = .next t) :
    s.panel.Spares Panel.bystanders hub (s.panel.word7Spares hub slot) t.panel := by
  refine .onPanel ?_ hx
  dsimp only
  split
  · exact .refl _
  next c hfind =>
  have hptr : (if s.panel.ringBroken hub c = true then c.finish St.siteRetired else c).ptr = c.ptr := by
    split_ifs
    · exact c.ptr_finish _
    · rfl
  generalize (if s.panel.ringBroken hub c = true then c.finish St.siteRetired else c) = c' at hptr ⊢
  split
  · exact .refl _
  have hwritten : s.panel.Spares Panel.bystanders hub (s.panel.word7Spares hub slot)
      (if c'.word7 = 0 then s.panel.writeWord7 hub slot c' else s.panel) := by
    split_ifs
    · exact Panel.writeWord7_spares slot fun a o ha ho => ha c o hfind (by rwa [← hptr])
    · exact .refl _
  generalize (if c'.word7 = 0 then s.panel.writeWord7 hub slot c' else s.panel) = q at hwritten ⊢
  split
  · exact hwritten
  split
  · exact hwritten
  split
  · exact hwritten
  next hnotify => exact .hubTake 4 ((hwritten.notify hnotify).modHub bystanders_blind fun _ => rfl)

end

/-! ### The obligation -/

/-- The commands that start work keep all but what that work stores. -/
theorem hubStarts_spare {s t : State} {h : HubIx} {c : Instr} (hc : c ∈ [Instr.hubCopy h, .hubZero h, .hubDigest h, .hubScrub h])
    (hx : exec c s = .next t) : s.panel.Spares Panel.bystanders h ((s.panel.hubRetry h).startSpares h) t.panel := by
  simp only [List.mem_cons, List.not_mem_nil, or_false] at hc
  rcases hc with rfl | rfl | rfl | rfl
  · exact hubCopy_spares hx
  · exact hubZero_spares hx
  · exact hubDigest_spares hx
  · exact hubScrub_spares hx

/-- What keeps the bystanders of a hub keeps crowns, sites, other hubs' memories and the work of every core. -/
theorem Panel.Spares.commands_leave {h : Nat} {stays : Nat → Prop} {p q : Panel} (hq : p.Spares Panel.bystanders h stays q) :
    q.crowns = p.crowns ∧ q.sites = p.sites ∧ (∀ m, m ≠ h → (q.hub m).mem = (p.hub m).mem) ∧
      ∀ m, (q.core m).spad = (p.core m).spad ∧ (q.core m).seq = (p.core m).seq ∧ (q.core m).me = (p.core m).me ∧
        (q.core m).ve = (p.core m).ve ∧ (q.core m).ru = (p.core m).ru ∧ (q.core m).dma = (p.core m).dma := by
  obtain ⟨hcrowns, hrest⟩ := Prod.mk.inj hq.part_eq
  obtain ⟨hsites, hwork⟩ := Prod.mk.inj hrest
  refine ⟨hcrowns, hsites, hq.others, fun m => ?_⟩
  simpa only [Core.work, Prod.mk.injEq] using congrFun hwork m

theorem hubCare_tends {s t : State} {h : HubIx} {c : Instr} {pc : Fin 64} {celsius : Nat}
    (hc : c ∈ [Instr.hubPatrol h, .hubTempRead h celsius, .hbmRefresh h pc, .hubHeartbeat h]) (hx : exec c s = .next t) :
    s.panel.TendsHub h t.panel := by
  simp only [List.mem_cons, List.not_mem_nil, or_false] at hc
  rcases hc with rfl | rfl | rfl | rfl
  · exact hubPatrol_tends hx
  · exact hubTempRead_tends hx
  · exact hbmRefresh_tends (pc := pc) hx
  · exact hubHeartbeat_tends hx

/-- Care and the ring: of the panel only hubs change, and of their memories what a write-back or a codeword stores. -/
theorem hubCareFrame (s t : State) (h : HubIx) (c : Instr) (pc : Fin 64) (celsius : Nat) (clockwise own : Bool)
    (hc : c ∈ [Instr.hubWriteBack h, .hubPatrol h, .hubTempRead h celsius, .hbmRefresh h pc, .hubHeartbeat h,
      .hubRingCodeword h clockwise own]) (hx : exec c s = .next t) :
    { t.panel with hubs := s.panel.hubs } = s.panel ∧
    (∀ m, m ≠ h.val → (t.panel.hub m).mem = (s.panel.hub m).mem) ∧
    (c ∈ [Instr.hubPatrol h, .hubTempRead h celsius, .hbmRefresh h pc, .hubHeartbeat h] →
      (t.panel.hub h).mem = (s.panel.hub h).mem) ∧
    (c = .hubWriteBack h → ∀ a, (s.panel.hub h).wbq.head? ≠ some (a / 256) →
      (t.panel.hub h).mem.byte a = (s.panel.hub h).mem.byte a) ∧
    (c = .hubRingCodeword h clockwise own →
      ∀ a, (own = false → (s.panel.hub h).ringStays h clockwise a) →
        (t.panel.hub h).mem.byte a = (s.panel.hub h).mem.byte a) := by
  simp only [List.mem_cons, List.not_mem_nil, or_false] at hc
  rcases hc with rfl | hc
  · have hq := hubWriteBack_spares hx
    exact ⟨frame_of_sansHubs hq.part_eq, hq.others, by simp, fun _ => hq.bytes, nofun⟩
  by_cases hring : c = .hubRingCodeword h clockwise own
  · subst hring
    have hq := hubRingCodeword_spares hx
    exact ⟨frame_of_sansHubs hq.part_eq, hq.others, by simp, nofun, fun _ => hq.bytes⟩
  · have hq := hubCare_tends (pc := pc) (celsius := celsius) (by simpa [hring] using hc) hx
    refine ⟨frame_of_sansHubs hq.spares.part_eq, hq.spares.others, fun _ => hq.mem, fun heq => ?_, fun heq => absurd heq hring⟩
    subst heq
    simp at hc

/-- Settles O47: care and the ring change hubs alone, and the work of a command stores in the range that it checked. -/
theorem hubFrame : Obligations.HubFrame := by
  refine ⟨hubCareFrame, fun s t h c slot hc hx => ?_⟩
  by_cases hend : c = .hubCmdComplete h slot
  · subst hend
    have hq := hubCmdComplete_spares hx
    obtain ⟨hcrowns, hsites, hothers, hcores⟩ := hq.commands_leave
    exact ⟨hcrowns, hsites, hothers, hcores, fun hne => absurd rfl hne, fun _ => hq.bytes⟩
  · have hq := hubStarts_spare (h := h) (by simpa [hend] using hc) hx
    obtain ⟨hcrowns, hsites, hothers, hcores⟩ := hq.commands_leave
    refine ⟨hcrowns, hsites, hothers, hcores, fun _ hsent a ha => hq.bytes a ?_, fun heq => absurd heq hend⟩
    rw [Panel.hubRetry_of_sent fun x hx => (hsent x hx).1]
    exact ha

end Sys2Proof.Machine
end

section
/-! PROOFS. Requests at a hub and the care of its stack (R289–R292, R296, R298–R300): what a write, a read and a pointer leave of the
hub that answers them, and what write-back, patrol and temperature readings leave; from both the obligation O23. -/

namespace Sys2Proof.Machine

/-! ### Requests taken and answered (R185, R289) -/

theorem Panel.hub_popHub (p : Panel) (h a : Nat) :
    (p.popHub h a 0).hub h = { p.hub h with arr := put (p.hub h).arr (4 * a) (look [] (p.hub h).arr (4 * a)).tail } :=
  p.hub_modHub ..

theorem Panel.fuses_popHub (p : Panel) (h a : Nat) : (p.popHub h a 0).fuses = p.fuses := rfl

theorem Panel.look_arr_popHub (p : Panel) (h a : Nat) :
    look [] ((p.popHub h a 0).hub h).arr (4 * a) = (look [] (p.hub h).arr (4 * a)).tail := by
  rw [Panel.hub_popHub]
  exact look_put_same ..

theorem Panel.hub_answerWith (p : Panel) (i : Issuer) (req x : Header) (units : List Codeword) (n : Nat) :
    (p.answerWith i req x units).hub n = p.hub n := by
  unfold Panel.answerWith
  dsimp only
  split <;> rfl

theorem Panel.hub_complete (p : Panel) (i : Issuer) (req : Header) (st n : Nat) : (p.complete i req st).hub n = p.hub n :=
  Panel.hub_answerWith ..

section
variable {s : State} {h : HubIx} {a : Fin 2} {x : Packet} (hl : s.panel.live = true) (hx : s.panel.hubHead h a = some x)
include hl hx

theorem exec_hubWrite_stack (hop : x.hdr.opcode = Opc.write) (hga : bits x.hdr.ga 55 52 = 2) :
    exec (.hubWrite h a) s = .next { s with panel := (s.panel.popHub h a 0).stackWrite h a x } := by
  have hptr : atPtr x.hdr.ga = false := by simp [atPtr, hga]
  change execHubWrite h a s = _
  rw [execHubWrite, onPanel_live hl, hx]
  simp only [hop, hptr, hga, ne_eq, not_true_eq_false, Bool.false_eq_true, or_self, if_false, if_true]

theorem exec_hubReadReq_stack (hop : x.hdr.opcode = Opc.readReq) (hga : bits x.hdr.ga 55 52 = 2) :
    exec (.hubReadReq h a) s = .next { s with panel := (s.panel.popHub h a 0).stackRead h a x } := by
  change execHubReadReq h a s = _
  rw [execHubReadReq, onPanel_live hl, hx]
  simp only [hop, hga, ne_eq, not_true_eq_false, if_false, if_true]

theorem exec_hubCmdPtr_taken (hop : x.hdr.opcode = Opc.write) (hga : bits x.hdr.ga 55 52 = 3)
    (hoff : bits x.hdr.ga 19 0 = Reg.HUB_CMD_PTR) : exec (.hubCmdPtr h a) s =
      .next { s with panel := (s.panel.popHub h a 0).serveReg (.hub h a) (.hub h) Reg.HUB_CMD_PTR x } := by
  have hptr : atPtr x.hdr.ga = true := by rw [atPtr, hga, hoff]; decide
  change execHubCmdPtr h a s = _
  rw [execHubCmdPtr, onPanel_live hl, hx]
  simp only [hop, hptr, hoff, ne_eq, not_true_eq_false, or_self, if_false]

end

/-! ### Writes of the stack (R290, R291) -/

/-- The bytes of a packet with their badness are the bytes of its payload. -/
theorem Packet.mbytes_payload (x : Packet) : ∃ l : List (Byte × Bool), x.mbytes = l.map some ∧ x.payload.1 = l.map Prod.fst := by
  refine ⟨_, rfl, ?_⟩
  simp only [Packet.payload, List.map_take, List.map_drop, List.map_flatMap, List.flatMap_map, List.map_map]
  congr 2
  refine List.flatMap_congr fun u _ => ?_
  exact (List.map_id _).symm

theorem Panel.stackWrite_permitted {p : Panel} {h a : Nat} {x : Packet}
    (hperm : (p.hub h).refuses (stackOff p.fuses x.hdr.ga) x.hdr true = none)
    (hopen : (p.hub h).overOpen (stackOff p.fuses x.hdr.ga) x.hdr.bytes = false) :
    ∃ w, (p.stackWrite h a x).hub h = ((p.hub h).writeBytes w (stackOff p.fuses x.hdr.ga) x.mbytes).2.sectionWrite
      (stackOff p.fuses x.hdr.ga) x.hdr.bytes (x.hdr.sc, x.hdr.sr, x.hdr.sedge) := by
  refine ⟨{ dial := p.dial, hub := h, src := 1, part := 0x80 + x.hdr.part }, ?_⟩
  unfold Panel.stackWrite
  dsimp only
  rw [hperm]
  dsimp only
  rw [if_neg (by simp [hopen]), Panel.hub_complete, Panel.hub_setHub]

/-! ### Reads of the stack (R289, R292) -/

theorem Hub.rd_wr_other (k : Hub) {o j : Nat} (v : Nat) (h : j ≠ o) : (k.wr o v).rd j = k.rd j := by
  simp [Hub.rd, Hub.wr, rfGet_rfSet_other _ _ h]

theorem Hub.rd_bump_other (k : Hub) {o j : Nat} (n : Nat) (h : j ≠ o) : (k.bump o n).rd j = k.rd j := by
  simp [Hub.rd, Hub.bump, rfBump, rfGet_rfSet_other _ _ h]

theorem Hub.rd_wrap_same (k : Hub) (o n : Nat) : (k.wrap o n).rd o = (k.rd o + n) % 2 ^ 64 := by
  simp [Hub.rd, Hub.wrap, rfWrap]

theorem Hub.rd_logErr (k : Hub) (dial h : Nat) (i : LogItem) {off : Nat} (hoff : off ≠ Reg.ERR_LOST_CNT_hub) :
    (k.logErr dial h i).rd off = k.rd off := by
  unfold Hub.logErr
  dsimp only
  split_ifs
  · rfl
  · exact k.rd_bump_other 1 hoff

/-- The notes of a read count no bytes. -/
theorem Hub.rdBytes_noteRead (k : Hub) (w : HubAt) (n : Nat) (r : CwRead) :
    (k.noteRead w n r).rd Reg.HUB_RD_BYTES = k.rd Reg.HUB_RD_BYTES := by
  have hlog := fun (k : Hub) i => k.rd_logErr w.dial w.hub i (off := Reg.HUB_RD_BYTES) (by decide)
  cases r with
  | clean => rfl
  | corrected =>
    have hcorr : (k.noteCorr w n).rd Reg.HUB_RD_BYTES = k.rd Reg.HUB_RD_BYTES :=
      (hlog _ _).trans (k.rd_bump_other 1 (by decide))
    change ((k.noteCorr w n).queueWb (n / 8)).rd _ = _
    unfold Hub.queueWb
    split_ifs
    · exact hcorr
    · exact hcorr
    · exact (Hub.rd_bump_other _ 1 (by decide)).trans hcorr
  | bad =>
    have hfirst : (k.firstBad w.src (32 * n)).rd Reg.HUB_RD_BYTES = k.rd Reg.HUB_RD_BYTES := by
      unfold Hub.firstBad
      split_ifs
      · rfl
      · exact k.rd_wr_other _ (by decide)
    exact (Hub.rd_bump_other _ 1 (by decide)).trans ((hlog _ _).trans hfirst)

theorem Hub.rdBytes_readCws (w : HubAt) : ∀ (n m : Nat) (k : Hub),
    (Hub.readCws w n m k).2.rd Reg.HUB_RD_BYTES = (k.rd Reg.HUB_RD_BYTES + 32 * m) % 2 ^ 64
  | _, 0, k => (Nat.mod_eq_of_lt (rfGet k.regs Reg.HUB_RD_BYTES).isLt).symm
  | n, m + 1, k => by
    rw [Hub.readCws]
    dsimp only
    rw [Hub.rdBytes_readCws w (n + 1) m, Hub.rd_wrap_same, Hub.rdBytes_noteRead]
    omega

theorem Panel.stackRead_permitted {p : Panel} {h a : Nat} {x : Packet}
    (hperm : (p.hub h).refuses (stackOff p.fuses x.hdr.ga) x.hdr false = none) :
    ∃ w, (p.stackRead h a x).hub h =
      (Hub.readCws w (stackOff p.fuses x.hdr.ga / 32) (cdiv (stackOff p.fuses x.hdr.ga % 32 + x.hdr.bytes) 32) (p.hub h)).2 := by
  refine ⟨{ dial := p.dial, hub := h, src := 0, part := 0x80 + x.hdr.part }, ?_⟩
  unfold Panel.stackRead
  dsimp only
  rw [hperm]
  dsimp only
  rw [Panel.readAnswer, Panel.hub_answerWith, Panel.hub_setHub]

/-! ### Pointers (R300) -/

theorem regWrite_hub {p : Panel} {who : Requester} {n : HubIx} {off bytes : Nat} (h : p.granted who (.hub n) off = true) (v : W64)
    {row : RegRow} (hh : dieHit (.hub n) off bytes true = .reg row off) (hp : performed (.hub n) row off = true) :
    p.regWrite who (.hub n) off bytes v = p.hubWrite who n row off v := by
  obtain ⟨-, -, h2, h3, h4, h5⟩ := (granted_iff ..).1 h
  have hb : (Hit.reg row off == Hit.rsv) = false := by simp
  simp [Panel.regWrite, h2, h3, h4, h5, hh, hb, hp]

theorem Panel.granted_popHub (p : Panel) (who : Requester) (h : HubIx) (a : Nat) (off : Nat) :
    (p.popHub h a 0).granted who (.hub h) off = p.granted who (.hub h) off := by
  have hlost : ((p.popHub h a 0).hub h).lost = (p.hub h).lost := by rw [Panel.hub_popHub]
  have hanswers : (p.popHub h a 0).answers (.hub h) off = p.answers (.hub h) off := by
    rw [Panel.answers, hlost]
    rfl
  unfold Panel.granted
  rw [hanswers]
  rfl

/-- With every place taken, no pointer leaves the queue. -/
theorem Panel.hubTake_full {p : Panel} {h : Nat} (hfull : (p.hub h).freeSlot = none) : ∀ n, Panel.hubTake h n p = p
  | 0 => rfl
  | n + 1 => by rw [Panel.hubTake, hfull]

theorem hubWrite_ptr {p : Panel} {n : Site} {part : Nat} {h : HubIx} (row : RegRow) (v : W64) (hroom : (p.hub h).cmdq.length < 64)
    (hfull : (p.hub h).freeSlot = none) : (p.hubWrite (.meshCore n part) h row Reg.HUB_CMD_PTR v).2 =
      p.setHub h { p.hub h with cmdq := (p.hub h).cmdq ++ [(v.toNat % 2 ^ 56, part, false)] } := by
  have hwrite : (p.hub h).ptrWrite v.toNat part false =
      (St.done, { p.hub h with cmdq := (p.hub h).cmdq ++ [(v.toNat % 2 ^ 56, part, false)] }) := by
    rw [Hub.ptrWrite, if_neg (by omega)]
  rw [Panel.hubWrite, if_pos rfl]
  change Panel.hubTake h 4 (p.setHub h ((p.hub h).ptrWrite v.toNat part false).2) = _
  rw [hwrite]
  exact Panel.hubTake_full (by rw [Panel.hub_setHub]; exact hfull) 4

theorem serveReg_ptr {p : Panel} {i : Issuer} {h : HubIx} {x : Packet} (hop : x.hdr.opcode = Opc.write)
    (hcore : x.hdr.fromCore = true) (hbytes : x.hdr.bytes = 8) (hgood : x.payload.2.1 = false)
    (hgrant : p.granted (packetWho x.hdr) (.hub h) Reg.HUB_CMD_PTR = true) (hroom : (p.hub h).cmdq.length < 64)
    (hfull : (p.hub h).freeSlot = none) : (p.serveReg i (.hub h) Reg.HUB_CMD_PTR x).hub h =
      { p.hub h with cmdq := (p.hub h).cmdq ++ [(leNat x.payload.1 % 2 ^ 56, x.hdr.part, false)] } := by
  have hread : x.hdr.opcode ≠ Opc.readReq := by rw [hop]; decide
  have hvalue : (BitVec.ofNat 64 (leNat x.payload.1)).toNat % 2 ^ 56 = leNat x.payload.1 % 2 ^ 56 := by
    rw [BitVec.toNat_ofNat]
    omega
  unfold Panel.serveReg
  dsimp only
  rw [if_neg hread, if_neg (by simp [hgood]), Panel.hub_complete, hbytes, regWrite_hub hgrant _ rfl rfl, packetWho, if_pos hcore,
    hubWrite_ptr _ _ hroom hfull, Panel.hub_setHub, hvalue]

theorem hubRequestsComplete : Completion.HubRequestsComplete := by
  refine ⟨fun s h a x hl hx hop hga hperm hopen hlen => ?_, fun s h a x hl hx hop hga hperm => ?_,
    fun s h a x hx hop hga hoff hcore hbytes hgood hgrant hfull hroom => ?_⟩
  · have hpop := s.panel.hub_popHub h a
    obtain ⟨w, hdone⟩ := Panel.stackWrite_permitted (p := s.panel.popHub h a 0) (h := h) (a := a) (x := x)
      (by rw [hpop]; exact hperm) (by rw [hpop]; exact hopen)
    obtain ⟨l, hmbytes, hpayload⟩ := x.mbytes_payload
    have hcount : l.length = x.hdr.bytes := by rw [← hlen, hpayload, List.length_map]
    refine ⟨_, exec_hubWrite_stack hl hx hop hga, ?_, fun i hi => ?_, fun b hb => ?_⟩
    all_goals dsimp only; rw [hdone]
    · rw [((Hub.accessed_writeBytes ..).trans (Hub.accessed_sectionWrite ..)).arr_eq, Panel.look_arr_popHub]
    · have hbyte : x.mbytes[i]? = some (some l[i]) := by simp [hmbytes, hcount, hi]
      rw [Hub.mem_sectionWrite, Panel.fuses_popHub, Hub.byte_writeBytes_written _ _ _ hbyte]
      simp [hpayload, hcount, hi]
    · rw [Hub.mem_sectionWrite, Hub.byte_writeBytes_outside, hpop]
      rw [hmbytes, List.length_map, hcount]
      exact hb
  · have hpop := s.panel.hub_popHub h a
    obtain ⟨w, hdone⟩ := Panel.stackRead_permitted (p := s.panel.popHub h a 0) (h := h) (a := a) (x := x)
      (by rw [hpop]; exact hperm)
    refine ⟨_, exec_hubReadReq_stack hl hx hop hga, ?_, ?_, ?_⟩
    all_goals dsimp only; rw [hdone]
    · rw [(Hub.accessed_readCws ..).arr_eq, Panel.look_arr_popHub]
    · rw [Hub.mem_readCws, hpop]
    · rw [Hub.rdBytes_readCws, hpop]
      rfl
  · have hl := ((granted_iff ..).1 hgrant).1
    have hpop := s.panel.hub_popHub h a
    have hserved := serveReg_ptr (p := s.panel.popHub h a 0) (i := .hub h a) hop hcore hbytes hgood
      (by rw [Panel.granted_popHub]; exact hgrant) (by rw [hpop]; exact hroom) (by rw [hpop]; exact hfull)
    refine ⟨_, exec_hubCmdPtr_taken hl hx hop hga hoff, ?_, ?_⟩
    all_goals dsimp only; rw [hserved]
    · exact Panel.look_arr_popHub ..
    · rw [hpop]

/-! ### Care (R292, R298, R299) -/

theorem cellsAt_setCells_outside (m : List Host.Cell) (a : Nat) (bs : List Byte) : ∀ (n b : Nat), b + n ≤ a ∨ a + bs.length ≤ b →
    cellsAt (setCells m a bs) b n = cellsAt m b n
  | 0, _, _ => rfl
  | n + 1, b, h => by
    rw [cellsAt, cellsAt, cellAt_setCells_outside _ _ _ _ (by omega), cellsAt_setCells_outside m a bs n (b + 1) (by omega)]

theorem mem_insertNat_other {j n : Nat} (h : j ≠ n) : ∀ l : List Nat, j ∈ insertNat l n ↔ j ∈ l
  | [] => by simp [insertNat, h]
  | k :: l => by
    rw [insertNat]
    split_ifs
    · simp [h]
    · rfl
    · rw [List.mem_cons, List.mem_cons, mem_insertNat_other h l]

theorem Mem.cw_setCw_other (m : Mem) {n j : Nat} (c : Codeword) (h : j ≠ n) : (m.setCw n c).cw j = m.cw j := by
  have hpad : ∀ (size : Nat) (bs : List Byte), (padTo size bs).length = size := fun size bs => by simp [padTo]; omega
  have hdata : cellsAt (setCells m.cells (32 * n) (padTo 32 c.data)) (32 * j) 32 = cellsAt m.cells (32 * j) 32 :=
    cellsAt_setCells_outside _ _ _ _ _ (by rw [hpad]; omega)
  have hchk : cellsAt (setCells m.chk (4 * n) (padTo 4 c.chk)) (4 * j) 4 = cellsAt m.chk (4 * j) 4 :=
    cellsAt_setCells_outside _ _ _ _ _ (by rw [hpad]; omega)
  have hpoison : (j ∈ if c.poison then insertNat m.poison n else m.poison.filter (· != n)) ↔ j ∈ m.poison := by
    split_ifs
    · exact mem_insertNat_other h _
    · simp [h]
  unfold Mem.setCw Mem.cw
  simp only [hdata, hchk, hpoison]

theorem Hub.peek_store_other (k : Hub) {n j : Nat} (data : List Byte) (poison : Bool) (h : j ≠ n) :
    (k.store n data poison).peek j = k.peek j := by
  unfold Hub.peek Hub.store
  dsimp only
  rw [Mem.cw_setCw_other _ _ h]

theorem Hub.rewrite_eq : ∀ (m n : Nat) (k : Hub), ∃ mem, Hub.rewrite n m k = { k with mem := mem }
  | 0, _, _ => ⟨_, rfl⟩
  | m + 1, n, k => by
    rw [Hub.rewrite]
    split_ifs
    · exact (Hub.rewrite_eq m (n + 1) (k.store n (k.peek n).2.data false)).imp fun _ h => h.trans rfl
    · exact Hub.rewrite_eq m (n + 1) k

theorem exec_hubWriteBack {s : State} {h : HubIx} {g : Nat} {rest : List Nat} (hl : s.panel.live = true)
    (hq : (s.panel.hub h).wbq = g :: rest) (hlost : (s.panel.hub h).lost = false) (hup : (s.panel.hub h).stack = 2) :
    exec (.hubWriteBack h) s =
      .next { s with panel := s.panel.setHub h (Hub.rewrite (8 * g) 8 { s.panel.hub h with wbq := rest }) } := by
  change execHubWriteBack h s = _
  rw [execHubWriteBack, onPanel_live hl]
  simp only [hq, hlost, hup, ne_eq, not_true_eq_false, Bool.false_eq_true, or_self, if_false]

/-- A codeword that reads corrected is stored as it reads. -/
theorem Hub.byte_rewrite_corrected : ∀ (m n : Nat) (k : Hub) {i b : Nat}, i < m → b < 32 → (k.peek (n + i)).1 = .corrected →
    (Hub.rewrite n m k).mem.byte (32 * (n + i) + b) = (k.peek (n + i)).2.data.getD b 0
  | m + 1, n, k, 0, b, _, hb, hcorr => by
    have hn : (k.peek n).1 = .corrected := hcorr
    rw [Hub.rewrite, if_pos hn, Hub.byte_rewrite_outside _ _ _ _ (by omega)]
    exact Hub.byte_store_inside _ _ _ (k.length_peek n) hb
  | m + 1, n, k, i + 1, b, hi, hb, hcorr => by
    rw [show n + (i + 1) = n + 1 + i by omega] at hcorr ⊢
    have hkept : (if (k.peek n).1 = .corrected then k.store n (k.peek n).2.data false else k).peek (n + 1 + i) =
        k.peek (n + 1 + i) := by
      split_ifs
      · exact k.peek_store_other _ _ (by omega)
      · rfl
    rw [← hkept] at hcorr ⊢
    exact Hub.byte_rewrite_corrected m (n + 1) _ (by omega) hb hcorr

theorem Hub.patrol_patrolStep {k : Hub} {dial h : Nat} (hlost : k.lost = false) (hup : k.stack = 2)
    (hon : (k.rd Reg.HUB_SCRUB_CFG).testBit 31 = true) (hrate : k.rd Reg.HUB_SCRUB_CFG % 65536 ≠ 0) :
    (k.patrolStep dial h).patrol = if k.patrol + 1 < granules then k.patrol + 1 else 0 := by
  unfold Hub.patrolStep
  generalize Hub.readCws _ (8 * k.patrol) 8 k = x
  dsimp only
  rw [if_neg (by simp [hlost, hup, hon, hrate])]
  split_ifs
  · rfl
  · rfl

theorem Hub.tempRead_notes (k : Hub) (dial celsius : Nat) : (k.tempRead dial celsius).temps.head? = some (min celsius 255) ∧
    (k.tempRead dial celsius).rd Reg.HUB_TEMP =
      max (bits (k.rd Reg.HUB_TEMP) 15 8) (min celsius 255) * 256 + min celsius 255 := by
  refine ⟨rfl, ?_⟩
  have hold : (if 2 ≤ k.tlvl then k.bump Reg.HUB_THR_CNT ((dial - k.tempAt) / us) else k).rd Reg.HUB_TEMP = k.rd Reg.HUB_TEMP := by
    split_ifs
    · exact k.rd_bump_other _ (by decide)
    · rfl
  have hbits := bits_lt (k.rd Reg.HUB_TEMP) 15 8
  unfold Hub.tempRead
  dsimp only
  rw [Hub.rd_wr_same, hold, Nat.mod_eq_of_lt (by omega)]

theorem hubCareCompletes : Completion.HubCareCompletes := by
  refine ⟨fun s h g rest hl hq hlost hup => ?_, fun s h hl hlost hup hon hrate => ?_, fun s h celsius hl hlost => ?_,
    fun s h pc => ?_⟩
  · refine ⟨_, exec_hubWriteBack hl hq hlost hup, ?_, fun b hb => ?_, fun i b hi hb hcorr => ?_⟩
    all_goals rw [Panel.hub_setHub]
    · obtain ⟨mem, hmem⟩ := Hub.rewrite_eq 8 (8 * g) { s.panel.hub h with wbq := rest }
      rw [hmem]
    · exact Hub.byte_rewrite_outside _ _ _ _ (by omega)
    · exact Hub.byte_rewrite_corrected 8 (8 * g) _ hi hb hcorr
  · refine ⟨_, onPanel_live hl fun p => p.modHub h fun k => k.patrolStep p.dial h, ?_⟩
    rw [Panel.hub_modHub]
    exact ⟨Hub.mem_patrolStep .., Hub.patrol_patrolStep hlost hup hon hrate⟩
  · refine ⟨_, onPanel_live hl fun p => p.modHub h fun k => if k.lost then k else k.tempRead p.dial celsius, ?_⟩
    rw [Panel.hub_modHub, if_neg (by simp [hlost])]
    exact Hub.tempRead_notes ..
  · change s.onPanel id = _
    cases hl : s.panel.live with
    | true => exact onPanel_live hl id
    | false => exact onPanel_dead hl id

/-- Settles O23: a request by what the hub stores, counts or holds of it, the care of a stack by what it leaves of the hub. -/
theorem hubRequestsAndCare : Obligations.HubRequestsAndCare := ⟨hubRequestsComplete, hubCareCompletes⟩

end Sys2Proof.Machine
end
